-- ==== Sys2Proof/Word.lean ====
section
/-! DEFINITION. The words of the 9640 (00_scope.md, Terms and Notation): grains, longs, octets and 32-bit
registers, and the sparse map every large store of the state is held in. -/

namespace Sys2Proof

/-- A grain: the 20-bit unit of memory and of sample width. -/
abbrev Grain := BitVec 20

/-- A long: two grains, the 40-bit core word. -/
abbrev Long := BitVec 40

/-- One BAR0 register (R467). -/
abbrev Reg32 := BitVec 32

/-- One octet. -/
abbrev Octet := BitVec 8

/-- A sparse map from a natural key: the entries that differ from a default, keys strictly rising. -/
abbrev SMap (α : Type) := List (Nat × α)

end Sys2Proof
end

