-- ==== Sys2Proof/Config.lean ====
section
/-! DEFINITION. What one device fixes (serial number, firmware versions) and the free values: opaque constants
with no body, so that nothing can be proved of which value they take (logs 1, 3, 7, 8). -/

namespace Sys2Proof.Config

/-- R4: the 64-bit device serial number, "per device". -/
opaque serial : BitVec 64

/-- R459: KN_VER, "per firmware". -/
opaque knVer : BitVec 32

/-- R461: the validation certificate number, 16 ASCII octets. -/
opaque validationCert : List Octet

/-- A free value: the n-th value the spec leaves open (log 1). -/
opaque freeNat : Nat → Nat

/-- R433: SHA-384, a published standard the spec does not restate; octet k of the digest in bits 8 k + 7 to 8 k. -/
opaque sha384 : List Octet → BitVec 384

/-- R412, R438: an ECDSA P-384 signature r, s by the kennel over a message, under slot and use count. -/
opaque signature : Nat → List Octet → Nat → List Octet

/-- R361: AES-256-GCM, a published standard the spec does not restate: octet i of the sealed payload and its tag, from key, nonce,
associated data and payload; the payload that a receiver's key and salt open, none where the tag fails. -/
opaque gcmSeal : BitVec 256 → BitVec 96 → List Octet → List Octet → Nat → Octet
opaque gcmOpen : BitVec 256 → BitVec 32 → List Octet → List Octet → Option (List Octet)

/-- R346, R448: Z_SS, the x-coordinate that ECDH P-384 gives for an ephemeral secret and the peer's ephemeral key. -/
opaque ecdhX : Nat → List Octet → BitVec 384

/-- R343: the code of SYNC_DONE, which the spec does not give. -/
opaque syncDone : Nat

/-- R57: ticks the 32.768 kHz crystal has counted at an instant of the clock, less those counted asleep; the crystal's exact
rate is open. -/
opaque aonTicks : Int → BitVec 48

/-- R162: the errors of cosine, sine, magnitude and angle of CORDIC, in units; the model holds them to 4 units. -/
opaque cordicCos : Long → Int
opaque cordicSin : Long → Int
opaque cordicMag : Long → Long → Int
opaque cordicAngle : Long → Long → Int

/-- R324: the error of coefficient i (b0, b1, b2, a1, a2) for frequency f (2^-10 Hz), Q (1/256), SPB and period, in 2^-100, as the
steward's double precision makes it; the model holds it to 2^-48. -/
opaque srsErr : Nat → Nat → Nat → Nat → Nat → Int

/-- R310, R324: which way a value halfway between two representable ones is rounded, where the spec says only that it
is rounded. -/
opaque tieUp : Int → Nat → Bool

/-- R432, R445: octets 0 to 7 of SHA-384 of a pedigree slot's public key. -/
opaque keyId : Nat → BitVec 64

/-- R326: tap t of the first half of the built-in decimation filter for M. -/
opaque decimHalf : Nat → Nat → Int

/-- R320: the error of the real or imaginary part of a bin of a frame's transform, in 2^-64; the model holds it to the rule's
bound. -/
opaque dftErr : List Int → Nat → Nat → Int

/-- R321: the error of an output against the average; the model holds it to the rule's bound. -/
opaque specErr : List Int → Nat → Nat → Nat → Int

/-- R321, R323: the longs of the accumulator, whose layout the spec does not give. -/
opaque specAcc : List Long → Nat → Int

/-- R90: the values of the fields of a template that is decoded (IEEE 1451.4 lays them out, the spec does not). -/
opaque tedsFields : Nat → List Octet → List Int

/-- R445, R446: the DER certificate chain or certificate request of a pedigree slot. -/
opaque pedigreeDer : Nat → Bool → List Octet

/-- R415: the keys of the journal's persistent settings HOLDUP, SEAL_IVL and archive mode, which the spec does not give. -/
opaque settingKey : Nat → Nat

/-- R535: which TAP instruction codes are EXTEST, CLAMP and HIGHZ. -/
opaque tapTakesPins : BitVec 8 → Bool

end Sys2Proof.Config
end

