-- ==== Sys2Proof/Syntax.lean ====
section
/-! DEFINITION. The commands the block takes: one constructor of Instr for each row of spec/opcode_table.json, in
the table's order, with the row's operands (log 6 says how the operands were chosen). -/

namespace Sys2Proof

/-- Which Gitik core acts: core k of cluster c, the steward core or the kennel core (R133). -/
inductive CoreSel where
  | sample (c : BitVec 6) (k : BitVec 4)
  | steward
  | kennel
  deriving DecidableEq, Repr

/-- A G register number. -/
abbrev GReg := BitVec 5

/-- What every Gitik instruction carries: the core that executes it, its guard predicate (R140 to R142), and whether its fetch
meets a parity error in the first cached line it uses (R198). -/
structure Iss where
  core : CoreSel
  guard : BitVec 3
  perr : Bool := false
  deriving DecidableEq, Repr

/-- Short form Gd, Gs (the destination is the first source) or long form Gd, Gs, Gt (R140, R141). -/
inductive RForm where
  | short (d s : GReg)
  | long (d s t : GReg)
  deriving DecidableEq, Repr

/-- Short form Gd, [Gs] or long form Gd, [Gs + #imm] (R165). -/
inductive MForm where
  | short (d s : GReg)
  | long (d s : GReg) (imm : BitVec 18)
  deriving DecidableEq, Repr

/-- The accumulator of AMOV modes 1 to 4, and the RND, W20 and SH bits of their encoding, which must be 0 there (R153). -/
structure AccArg where
  acc : BitVec 2
  ext : BitVec 8 := 0
  deriving DecidableEq, Repr

/-- The five side units (R195). -/
inductive SideUnit where
  | mul | div | sqrt | recip | cordic
  deriving DecidableEq, Repr

/-- What the core meets at the boundary: the first applicable pending event (R226, orders 1 to 3), or an
instruction whose encoding is reserved (R143), by the grains its fetch reads (second: unused by a short one). -/
inductive EntryEvent where
  | boundary
  | reservedEncoding (first second : BitVec 20)
  deriving DecidableEq, Repr

/-- What a crossing's clocked side does: drops an item at a full queue (R221), merges toggle events (R218), discards
items on peer reset, or completes the resynchronization (R222). -/
inductive CrossEvent where
  | dropped (n : BitVec 20)
  | merged (n : BitVec 20)
  | resync (discarded : BitVec 20)
  deriving DecidableEq, Repr

/-- A host write that can unmask MSI-X vectors: a vector's control word, or the Message Control word of the PCIe
configuration space (enable, function mask) (R271). -/
inductive MsixWrite where
  | vctrl (v : BitVec 6) (word : Reg32)
  | msgCtl (enable fmask : Bool)
  deriving DecidableEq, Repr

/-- The outcome of the steward's DMA for a command (R477): the ring entry could not be read, the payload could not be
read, the data could not be written to RADDR, or the completion entry could not be written. -/
inductive Dma where
  | ok
  | ringRead
  | payload
  | data
  | ringWrite
  deriving DecidableEq, Repr

/-- The Bertia header of a command (R472), as the steward reads it: its channel (0 to 15 mailboxes, 16 to 19 SVC),
tag, version, payload length, whether the zero fields are zero, IND and PADDR, RADDR and RCAP, and how the DMA ends. -/
structure BHdr where
  ch : BitVec 5
  tag : BitVec 16
  bver : BitVec 8
  len : Reg32
  zeros : Bool
  ind : Bool
  paddr : BitVec 64
  raddr : BitVec 64
  rcap : Reg32
  dma : Dma
  deriving DecidableEq, Repr

/-- A journal record as a block offers it (R404, R405): type, subject, beat and body. -/
structure JRec where
  rtype : BitVec 8
  subject : Nat
  beat : BitVec 48
  part : Bool
  last : Bool
  body : List Octet
  deriving DecidableEq, Repr

/-- How the oldest NVMe command of a store port ends (R398, R411): a write or flush done, a write that failed, a read with its octets or failed, or a rate test's measured MB/s. -/
inductive NvmeResult where
  | done
  | writeFailed
  | readData (data : List Octet)
  | readFailed
  | rate (mbs : Reg32)
  deriving DecidableEq, Repr

/-- What a recovery scan finds (R422): usable namespaces, blocks discarded, LAST_GOOD of the archive, ring mode, the
rates measured on entry to RUNNING, and whether a namespace is usable at all. -/
structure RecoveryScan where
  usable : BitVec 4
  discarded : BitVec 32
  lastGood : Option (BitVec 64)
  rates : List Reg32
  deriving DecidableEq, Repr

/-- A store port's link as it comes up or goes down (R397, R425): generation, width, ready, write cache, LBA format
usable, and the segments the namespace holds. -/
structure StoreLink where
  gen : BitVec 3
  width : BitVec 2
  ready : Bool
  vwc : Bool
  formatOk : Bool
  segs : Reg32
  deriving DecidableEq, Repr

/-- Where an event goes (R482). -/
inductive EventDest where
  | mailbox
  | svc (k : BitVec 2)
  deriving DecidableEq, Repr

/-- A datagram on the Bertia UDP port (R489, R491): its source, session, sequence number, opcode and tag, and
whether its signature verifies. -/
structure SvcDatagram where
  src : Nat
  session : BitVec 64
  seq : BitVec 64
  magicOk : Bool
  opcode : BitVec 16
  tag : BitVec 16
  sigOk : Bool
  deriving DecidableEq, Repr

/-- The SVC_CFG payload (R490). -/
structure SvcConfig where
  speed : BitVec 8
  flags : BitVec 8
  mtu : BitVec 16
  ip4 : Reg32
  pfx4 : BitVec 8
  gw4 : Reg32
  ip6 : BitVec 128
  pfx6 : BitVec 8
  gw6 : BitVec 128
  port : BitVec 16
  deriving DecidableEq, Repr

/-- One SVC_EXPORT entry (R493). -/
structure ExportEntry where
  ctx : Reg32
  k : BitVec 16
  ip6 : Bool
  port : BitVec 16
  addr : BitVec 128
  deriving DecidableEq, Repr

/-- The PTP_CFG payload (R487). -/
structure PtpConfig where
  profile : BitVec 8
  transport : BitVec 8
  domain : BitVec 8
  flags : BitVec 8
  logSync : BitVec 8
  logAnnounce : BitVec 8
  logDelayReq : BitVec 8
  prio1 : BitVec 8
  prio2 : BitVec 8
  deriving DecidableEq, Repr

/-- Who accesses a BAR0 register: the host (R467) or the steward through its mirror (R496). -/
inductive Accessor where
  | host
  | steward
  deriving DecidableEq, Repr

/-- A change of the PCIe endpoint (R465, R466): the link comes up or goes down, the function enters or leaves
D3hot, or an uncorrectable error is logged in AER. -/
inductive PcieChange where
  | linkUp
  | linkDown
  | d3hot
  | d0
  | aerUncorrectable
  deriving DecidableEq, Repr

/-- How a domain transition ends: for MEM coming on, which DDR channels trained; otherwise no more to say (R499). -/
inductive TransitionEnd where
  | plain
  | ddr (trained : BitVec 4) (gib : List (BitVec 16)) (ddr5 : BitVec 4)
  deriving DecidableEq, Repr

/-- A decoded IRIG-B frame as its on-time marker passes (R41, R42): reference markers and BCD digits in order, the
year of century where the format carries one, day of year, hour, minute, second, and the straight binary seconds. -/
structure IrigFrame where
  refOk : Bool
  bcdOk : Bool
  year : Option (BitVec 7)
  doy : BitVec 9
  hour : BitVec 5
  minute : BitVec 6
  sec : BitVec 6
  sbs : Option (BitVec 17)
  deriving DecidableEq, Repr

/-- What an IEEE 1588 message brings to the ordinary clock (R43): an announcement of the master (identity, steps, UTC
offset when valid), the master's time as a Sync (or its Follow_Up) leaves it, or a measured mean path delay, in ns and quarters
of one. -/
inductive PtpIn where
  | announce (gm : BitVec 64) (steps : BitVec 16) (utc : Option (BitVec 16))
  | sync (sec : BitVec 48) (ns : Reg32) (quarter : BitVec 2)
  | pathDelay (ns : Reg32) (quarter : BitVec 2)
  deriving DecidableEq, Repr

/-- Messages the ordinary clock sends (R43). -/
inductive PtpOut where
  | announce | sync | delayReq | delayResp
  deriving DecidableEq, Repr

/-- A SENSOR message (R89). -/
structure SensorMsg where
  channel : BitVec 16
  event : Octet
  beat : BitVec 48
  basic : BitVec 64
  template : Octet
  data : List Octet
  deriving DecidableEq, Repr

/-- A word of a link (R67). -/
abbrev Word64 := BitVec 64

/-- The tag of a management message, and the CRC-32 at its end as received (R88). -/
structure MgmtTag where
  tag : Octet
  crc : BitVec 32
  deriving DecidableEq, Repr

/-- What a sample port's receiver saw beside the words of its block since the report before (R67 to R69): invalid sync
headers or code errors, codewords corrected and uncorrectable, and control words that no other row brings. -/
structure LineReport where
  codeErr : BitVec 16 := 0
  fecCorr : BitVec 16 := 0
  fecUnc : BitVec 16 := 0
  ctrl : List Word64 := []
  deriving DecidableEq, Repr

/-- An input beat block as a port receives it (R75, R76): its words from the header on, as many as have arrived (none: a word
carried in an uncorrectable codeword; an empty list: no block has started), the code errors and the codewords of it, and what
the line brought beside it. -/
structure InBlock where
  words : List (Option Word64)
  codeErr : BitVec 16 := 0
  fecCorr : BitVec 16 := 0
  fecUnc : BitVec 16 := 0
  line : LineReport := {}
  deriving DecidableEq, Repr

/-- The part of a RED_STAGE payload that depends on KIND (R335): longs as they stand in the payload; for SPEC its N,
long 4, longs 5 to 7 and the members; for MEMBER its index; for SRS each frequency with its Q. -/
inductive RedPart where
  | stats (l : List Long)
  | rflow (l : List Long)
  | pkvl (hys : Long)
  | spec (n : Reg32) (l4 : Long) (bufs : List Long) (members : List Reg32)
  | member (idx : Octet)
  | srs (f : List (Reg32 × BitVec 16))
  | decim (l : List Long)
  deriving DecidableEq, Repr

/-- A HELLO message (R344), the NONCE apart. -/
structure HelloMsg where
  ver : Octet
  authReq : Bool
  encReq : Bool
  encCap : Bool
  strapped : Bool
  tentative : Bool
  running : Bool
  aligned : Bool
  port : Octet
  gens : Octet
  serial : BitVec 64
  addr : BitVec 16
  prio : Octet
  qual : Octet
  mserial : BitVec 64
  beat : BitVec 48
  nonce : BitVec 128
  deriving DecidableEq, Repr

/-- GRID of a master's record (R350): BEAT_EPOCH as an 80-bit pack time, period, TAI epoch, TAI_UTC and TAI_VALID. -/
structure Grid where
  epoch : BitVec 80
  pint : Reg32
  pfrac : Reg32
  taiSec : BitVec 48
  taiNs : Reg32
  taiUtc : BitVec 16
  taiValid : Bool
  deriving DecidableEq, Repr

/-- A neighbour in a link-state record (R350): local port, peer port, generation, peer serial. -/
structure Nbr where
  lport : Octet
  pport : Octet
  gen : Octet
  serial : BitVec 64
  deriving DecidableEq, Repr

/-- A link-state record (R350). -/
structure Lsr where
  serial : BitVec 64
  seq : Reg32
  addr : BitVec 16
  strapped : Bool
  tentative : Bool
  running : Bool
  aligned : Bool
  master : Bool
  prio : Octet
  qual : Octet
  depth : Octet
  grid : Option Grid
  nbrs : List Nbr
  deriving DecidableEq, Repr

/-- A pack control message (R387), or another CTRL payload. -/
inductive Ctrl where
  | whistle (tag : BitVec 16) (target : BitVec 48)
  | period (pint pfrac : Reg32) (target : BitVec 48)
  | refuse (code : Octet) (target : BitVec 48)
  | cancel (target : BitVec 48)
  | other (octets : List Octet)
  deriving DecidableEq, Repr

/-- A fault report (R390). -/
structure FaultRep where
  dst : BitVec 16
  origin : BitVec 16
  unit : Octet
  self : Bool
  late : Bool
  overflow : Bool
  code : BitVec 16
  partners : BitVec 16
  fserial : Reg32
  t : BitVec 80
  beat : BitVec 48
  witness : BitVec 16
  deriving DecidableEq, Repr

/-- What a frame carries (R366, R367): a stream fragment, a control message, a fault report, a token, a queue message
or a reserved FTYPE. -/
inductive Payload where
  | stream (dctx : BitVec 18) (fmt store : BitVec 2) (spb offs : BitVec 13) (srcCtx : BitVec 18) (elems : List Long)
  | ctrl (m : Ctrl)
  | fault (r : FaultRep)
  | token
  | qmsg (dq : BitVec 16) (longs : List Long)
  | reserved
  deriving DecidableEq, Repr

/-- What a fabric port's receiver saw on the line since its frame before: codewords corrected and uncorrectable, control blocks
of types it does not know (R339, R341). -/
structure FabLine where
  fecCorr : BitVec 16 := 0
  fecUnc : BitVec 16 := 0
  unknown : BitVec 16 := 0
  deriving DecidableEq, Repr

/-- A frame as it arrives (R365): its SOF block and its data blocks, and what the line brought beside it. -/
structure RxFrame where
  words : List Word64
  line : FabLine := {}
  deriving DecidableEq, Repr

/-- An AUTH_SIG as the kennel finds it (R346): whether the signature verifies, and the peer's ephemeral public key. -/
structure AuthSig where
  ok : Bool
  key : List Octet
  deriving DecidableEq, Repr

/-- A frame taken apart (R365, R366): its VL, whether its CRC and its tag hold, whether W agrees with LEN, ENC and LAST,
addresses, TTL, SEQ, payload length, BEAT and what it carries. -/
structure Frame where
  vl : BitVec 2
  crcOk : Bool
  tagOk : Bool
  wOk : Bool
  enc : Bool
  last : Bool
  dst : BitVec 16
  src : BitVec 16
  ttl : BitVec 6
  seq : BitVec 16
  len : BitVec 16
  beat : BitVec 48
  load : Payload
  deriving DecidableEq, Repr

/-- A schedule entry as SCHED_STAGE carries it (R377). -/
structure SchedEnt where
  flow : BitVec 16
  port : Octet
  kind : Octet
  start : Reg32
  length : Reg32
  inp : Octet
  sub : BitVec 16
  deriving DecidableEq, Repr

/-- Which of the running tests failed (R452): the entropy start-up test, a continuous entropy test, or a pairwise
consistency test. -/
inductive KnTest where
  | startUp | continuous | pairwise
  deriving DecidableEq, Repr

/-- How the power-up tests end (R451): passed, or the cause of R459 with the failing test's number. -/
inductive SelfTest where
  | passed
  | failed (cause : Octet) (detail : BitVec 24)
  deriving DecidableEq, Repr

/-- What the ROM finds in a firmware slot (R544, BOOT_SLOTS coding of R551): 1 valid, 2 to 7 the failures; with the
version, SVN and body of a slot it could read. -/
structure SlotImage where
  result : Octet
  version : Reg32
  svn : BitVec 7
  body : List Grain
  deriving DecidableEq, Repr

/-- What the steps of bring-up bring (R548): DDR channels trained with their GiB, the ports whose start failed. -/
structure BringUp where
  trained : BitVec 4
  gib : List (BitVec 16)
  table : List (BitVec 16)
  tj : BitVec 16
  ms : BitVec 16
  deriving DecidableEq, Repr

/-- The commands of spec/opcode_table.json, one constructor per row, in its order. -/
inductive Instr where
  | edge
  | beatRunStart (v : Reg32)
  | beatRunStop (v : Reg32)
  | srcSelWrite (sel : BitVec 4)
  | ppsPulse (falling : Bool) (width : BitVec 16)
  | irigFrame (f : IrigFrame)
  | ptpMessage (domain : Octet) (m : PtpIn)
  | beatInPulse
  | referenceTimeout (carrierLost : Bool)
  | epochAdvance
  | aonCalibration (tick : BitVec 31)
  | servoResume
  | timeCapture (v : Reg32)
  | beatNumLoRead
  | commitGo (v : Reg32)
  | commitCancel (v : Reg32)
  | commitCutoff
  | immediateCommit
  | beatOverrun (c : BitVec 6)
  | beatReadyPost (c : BitVec 6)
  | bwaitWake (core : CoreSel)
  | period (pint pfrac : Reg32) (target : BitVec 48)
  | periodRefuse (code : Octet) (target : BitVec 48)
  | periodCancel (target : BitVec 48)
  | spCtrlEn (p : BitVec 4) (en : Bool)
  | spGenSelWrite (p : BitVec 4) (g : BitVec 3)
  | spCtrlAccept (p : BitVec 4)
  | spLinkLock (p : BitVec 4) (gen : BitVec 2)
  | spLinkLoss (p : BitVec 4)
  | spGenWindow (p : BitVec 4)
  | descTimeout (p : BitVec 4)
  | mgmtSilence (p : BitVec 4)
  | desc (p : BitVec 4) (tag : MgmtTag) (d : List Octet)
  | delayMeasureSp (p : BitVec 4)
  | echoReply (p : BitVec 4) (tag : BitVec 16) (turn : BitVec 24) (roundTrip : BitVec 24)
  | mgmtRetry (p : BitVec 4) (tag : Octet)
  | planAck (p : BitVec 4) (tag : MgmtTag) (id : Octet)
  | planNak (p : BitVec 4) (tag : MgmtTag) (id reason : Octet)
  | regData (p : BitVec 4) (tag : MgmtTag) (a : BitVec 16) (v : Reg32)
  | sensor (p : BitVec 4) (tag : MgmtTag) (m : SensorMsg)
  | moduleEvt (p : BitVec 4) (tag : MgmtTag) (code : BitVec 16) (beat : BitVec 48) (text : List Octet)
  | heartbeat (p : BitVec 4) (tag : MgmtTag)
  | ack (p : BitVec 4) (tag : MgmtTag)
  | planResend (p : BitVec 4)
  | beatBlock (p : BitVec 4) (b : InBlock)
  | portDeadline (p : BitVec 4)
  | driveAbortAssert
  | drvAbortSw
  | drvAbortRearm
  | autobind (p : BitVec 4)
  | autobindGiveUp (p : BitVec 4)
  | ctxStage (h : BHdr) (idx : Reg32) (longs : List Long)
  | ctxStageRange (h : BHdr) (first count stride : Reg32) (ch : BitVec 16) (longs : List Long)
  | subSet (h : BHdr) (idx : Reg32) (entries : List Long)
  | ctxRead (h : BHdr) (idx : Reg32) (which : Octet)
  | ctxClear (h : BHdr) (first count : Reg32)
  | stageDrop (h : BHdr)
  | stageInfo (h : BHdr)
  | beatreadyQueue (h : BHdr) (cluster : Octet) (q : BitVec 16)
  | autobindTemplate (h : BHdr) (port : Octet) (first stride : Reg32) (inT outT : List Long)
  | gapScan (h : BHdr) (first count : Reg32) (most : BitVec 16)
  | nop (i : Iss)
  | mov (i : Iss) (d r : GReg)
  | movq (i : Iss) (d : GReg) (q : BitVec 5)
  | movi (i : Iss) (d : GReg) (imm : BitVec 23)
  | movh (i : Iss) (d : GReg) (imm : BitVec 17)
  | add (i : Iss) (f : RForm)
  | adc (i : Iss) (d r : GReg)
  | addq (i : Iss) (d : GReg) (q : BitVec 5)
  | addi (i : Iss) (d r : GReg) (imm : BitVec 18)
  | sub (i : Iss) (f : RForm)
  | sbc (i : Iss) (d r : GReg)
  | rsubi (i : Iss) (d r : GReg) (imm : BitVec 18)
  | neg (i : Iss) (d r : GReg)
  | and (i : Iss) (f : RForm)
  | andi (i : Iss) (d r : GReg) (imm : BitVec 18)
  | or (i : Iss) (f : RForm)
  | ori (i : Iss) (d r : GReg) (imm : BitVec 18)
  | xor (i : Iss) (f : RForm)
  | xori (i : Iss) (d r : GReg) (imm : BitVec 18)
  | not (i : Iss) (d r : GReg)
  | shl (i : Iss) (f : RForm)
  | shr (i : Iss) (f : RForm)
  | sar (i : Iss) (f : RForm)
  | shlq (i : Iss) (d : GReg) (u : BitVec 5)
  | shrq (i : Iss) (d : GReg) (u : BitVec 5)
  | sarq (i : Iss) (d : GReg) (u : BitVec 5)
  | shli (i : Iss) (d r : GReg) (sh : BitVec 6)
  | shri (i : Iss) (d r : GReg) (sh : BitVec 6)
  | sari (i : Iss) (d r : GReg) (sh : BitVec 6)
  | clz (i : Iss) (d r : GReg)
  | cls (i : Iss) (d r : GReg)
  | max (i : Iss) (d r t : GReg)
  | min (i : Iss) (d r t : GReg)
  | adds (i : Iss) (d r t : GReg)
  | subs (i : Iss) (d r t : GReg)
  | sxg (i : Iss) (d r : GReg)
  | zxg (i : Iss) (d r : GReg)
  | swpg (i : Iss) (d r : GReg)
  | norm (i : Iss) (d r : GReg)
  | normx (i : Iss) (d r : GReg) (m : BitVec 2)
  | addd (i : Iss) (d r : GReg)
  | subd (i : Iss) (d r : GReg)
  | addds (i : Iss) (d r : GReg)
  | subds (i : Iss) (d r : GReg)
  | absds (i : Iss) (d r : GReg)
  | maxd (i : Iss) (d r t : GReg)
  | mind (i : Iss) (d r t : GReg)
  | sard (i : Iss) (d r : GReg) (sh : BitVec 5) (rnd : Bool)
  | bfx (i : Iss) (d r : GReg) (pos len : BitVec 6) (sx : Bool)
  | bfi (i : Iss) (d r : GReg) (pos len : BitVec 6)
  | perm (i : Iss) (d r : GReg) (sel : BitVec 15)
  | cmp (i : Iss) (pt pf : BitVec 3) (cond : BitVec 4) (r t : GReg)
  | cmpi (i : Iss) (pt pf : BitVec 3) (cond : BitVec 4) (r : GReg) (imm : BitVec 11)
  | cmpd (i : Iss) (pl ph : BitVec 3) (cond : BitVec 4) (r t : GReg)
  | pset (i : Iss) (pt pf : BitVec 3) (cond : BitVec 4)
  | plog (i : Iss) (pd pa pb : BitVec 3) (op : BitVec 3)
  | ldg (i : Iss) (f : MForm)
  | ldgu (i : Iss) (d r : GReg) (imm : BitVec 18)
  | ldl (i : Iss) (f : MForm)
  | stg (i : Iss) (f : MForm)
  | stl (i : Iss) (f : MForm)
  | ldx (i : Iss) (d r t : GReg) (size scale : BitVec 2) (upd : Bool)
  | stx (i : Iss) (d r t : GReg) (size scale : BitVec 2) (upd : Bool)
  | axch (i : Iss) (d r t : GReg)
  | aadd (i : Iss) (d r t : GReg)
  | acas (i : Iss) (d r t : GReg)
  | br (i : Iss) (r : GReg)
  | jmpl (i : Iss) (d r : GReg)
  | bra (i : Iss) (off : BitVec 18)
  | call (i : Iss) (d : GReg) (off : BitVec 18)
  | calle (i : Iss) (e : BitVec 3)
  | rete (i : Iss)
  | retx (i : Iss)
  | rep (i : Iss) (r : GReg) (len : BitVec 18)
  | repi (i : Iss) (cnt : BitVec 10) (len : BitVec 18)
  | bwait (i : Iss) (d : GReg)
  | qput (i : Iss) (d r : GReg)
  | qget (i : Iss) (d r : GReg)
  | whist (i : Iss) (r : GReg)
  | fence (i : Iss)
  | mfs (i : Iss) (d : GReg) (sr : BitVec 5)
  | mts (i : Iss) (sr : BitVec 5) (r : GReg)
  | macd (i : Iss) (a : BitVec 2) (clr : Bool) (r t : GReg)
  | msud (i : Iss) (a : BitVec 2) (clr : Bool) (r t : GReg)
  | macx (i : Iss) (a : BitVec 2) (clr : Bool) (r t : GReg)
  | mdif (i : Iss) (a : BitVec 2) (clr : Bool) (r t : GReg)
  | accr (i : Iss) (d : GReg) (a : BitVec 2) (rnd w20 : Bool) (sh : BitVec 6)
  | acch (i : Iss) (d : GReg) (a : AccArg)
  | accl (i : Iss) (d : GReg) (a : AccArg)
  | accw (i : Iss) (a : AccArg) (r t : GReg)
  | aclr (i : Iss) (a : AccArg)
  | mul (i : Iss) (f : BitVec 2) (d r t : GReg)
  | div (i : Iss) (f : BitVec 2) (d r t : GReg)
  | sqrt (i : Iss) (q39 : Bool) (d r : GReg)
  | recip (i : Iss) (q : BitVec 7) (d r : GReg)
  | cordicRot (i : Iss) (d r : GReg)
  | cordicVec (i : Iss) (d r t : GReg)
  | movs (i : Iss) (size dec : Bool) (d r t : GReg)
  | fils (i : Iss) (size dec : Bool) (d r t : GReg)
  | cmps (i : Iss) (size dec : Bool) (d r t : GReg)
  | scns (i : Iss) (size dec ne : Bool) (d r t : GReg)
  | sideUnitDeliver (core : CoreSel) (u : SideUnit)
  | exceptionEntry (core : CoreSel) (e : EntryEvent)
  | haltReport (core : CoreSel)
  | leashExpire (core : CoreSel)
  | entryShadowEnd (core : CoreSel)
  | icinvLine (core : CoreSel) (a : Long)
  | icinvAll (core : CoreSel)
  | crossingResync (x : BitVec 6) (e : CrossEvent)
  | pendSet (c : BitVec 7) (w : BitVec 3) (v : Long)
  | pendClr (c : BitVec 7) (w : BitVec 3) (v : Long)
  | enSet (c : BitVec 7) (w : BitVec 3) (v : Long)
  | enClr (c : BitVec 7) (w : BitVec 3) (v : Long)
  | eoi (c : BitVec 7) (k : BitVec 4) (v : Long)
  | raiseDev (c : BitVec 7) (v : Long)
  | srcCfgWrite (c : BitVec 7) (src : BitVec 8) (v : Long)
  | holdoffWrite (c : BitVec 7) (g : BitVec 4) (v : Long)
  | holdoffExpire (c : BitVec 7) (g : BitVec 4)
  | maskWrite (c : BitVec 7) (k : BitVec 4) (v : Long)
  | deviceSourceEdge (d : BitVec 7)
  | msixUnmask (w : MsixWrite)
  | watcherWake
  | wakeTsLoRead
  | qcfgWrite (q : BitVec 16) (v : Long)
  | queueReset (q : BitVec 16)
  | queueClr (q : BitVec 16)
  | queueSweepDone (q : BitVec 16)
  | reSubmit (core : CoreSel) (c : BitVec 6) (v : Long)
  | redIntakeItem (c : BitVec 6)
  | specRecordWrite (c : BitVec 6)
  | redStage (h : BHdr) (src : Reg32) (slot kind flags : Octet) (g out : Reg32) (a : Long) (part : RedPart)
  | redRemove (h : BHdr) (src : Reg32) (slot : Octet)
  | redClear (h : BHdr) (src : Reg32) (slot what : Octet)
  | redResidue (h : BHdr) (src : Reg32) (slot : Octet)
  | redRead (h : BHdr) (src : Reg32) (slot : Octet) (first count : BitVec 16) (which : Octet)
  | redMatrixRead (h : BHdr) (src : Reg32) (slot : Octet) (first count : BitVec 16)
  | redQueue (h : BHdr) (cluster : Octet) (q : BitVec 16)
  | redLoad (h : BHdr) (cluster which : Octet)
  | decimCoef (h : BHdr) (src : Reg32) (slot : Octet) (first : BitVec 16) (taps : List Long)
  | fpCtrlEn (p : BitVec 3) (en : Bool)
  | fabricGenWindow (p : BitVec 3)
  | fabricLock (p : BitVec 3) (gen : BitVec 2)
  | fabricLockLoss (p : BitVec 3)
  | helloSend (p : BitVec 3)
  | hello (p : BitVec 3) (m : HelloMsg)
  | helloTimeout (p : BitVec 3)
  | authCert (p : BitVec 3) (ok : Bool)
  | authSig (p : BitVec 3) (ok : AuthSig)
  | authTimeout (p : BitVec 3)
  | refusedTimeout (p : BitVec 3)
  | syncDone (p : BitVec 3)
  | linkStateRecord (p : BitVec 3) (r : Lsr)
  | lsrRefresh
  | lsrAgeOut (serial : BitVec 64)
  | addrConfirm
  | routeCompute
  | masterHandover
  | delayMeasureFp (p : BitVec 3)
  | dreq (p : BitVec 3) (tag : BitVec 16)
  | dresp (p : BitVec 3) (tag : BitVec 16) (turn roundTrip : Reg32)
  | edgeBlock (p : BitVec 3) (depth : BitVec 6) (beat : BitVec 48)
  | tdata (p : BitVec 3) (offset : BitVec 24) (addr : BitVec 16)
  | parentEdgeTimeout
  | parentSwitch
  | rekey (p : BitVec 3)
  | fpAsymWrite (p : BitVec 3) (v : Reg32)
  | vlFrameRx (p : BitVec 3) (f : RxFrame)
  | vl0FrameRx (p : BitVec 3) (f : RxFrame)
  | vl0WindowOpen (e : BitVec 12)
  | token (p : BitVec 3) (beat : BitVec 48) (last : Bool)
  | tokenMiss (p : BitVec 3)
  | vl0Late (e : BitVec 12)
  | lack (p : BitVec 3) (vl : BitVec 2) (nak : Bool) (ack crtot : BitVec 16)
  | lackSend (p : BitVec 3) (vl : BitVec 2)
  | retryTimeout (p : BitVec 3) (vl : BitVec 2)
  | qmsgTx
  | whistle (tag : BitVec 16) (target : BitVec 48)
  | faultReport (r : FaultRep)
  | frEntryClose (k : Octet)
  | packStatus (h : BHdr)
  | routeRead (h : BHdr) (first count : BitVec 16)
  | lsdbRead (h : BHdr) (first count : BitVec 16)
  | schedStage (h : BHdr) (first : BitVec 16) (es : List SchedEnt)
  | schedDrop (h : BHdr) (first count : BitVec 16)
  | schedRead (h : BHdr) (first count : BitVec 16) (which : Octet)
  | groupStage (h : BHdr) (group : BitVec 16) (flags : Octet) (members : List (BitVec 16))
  | asymSave (h : BHdr) (port : Octet) (v : Reg32)
  | fabTxq (h : BHdr) (q : BitVec 16) (bind : Octet)
  | fabSend (h : BHdr) (longs : List Long)
  | recordAdmit (r : JRec)
  | sealTick
  | sealSigned (ok : Bool)
  | nvmeCompletion (port : BitVec 2) (r : NvmeResult)
  | nvmeTimeout (port : BitVec 2)
  | rateWindow (port : BitVec 2) (octets : BitVec 40) (waited : Bool)
  | recoveryDone (r : RecoveryScan)
  | pwrfailNAssert
  | storeLinkChange (port : BitVec 2) (l : StoreLink)
  | headLoRead
  | sealedLoRead
  | jrnlFormat (h : BHdr) (ports mode : BitVec 8) (nsid : List Reg32)
  | jrnlStart (h : BHdr)
  | jrnlStop (h : BHdr)
  | jrnlStatus (h : BHdr)
  | jrnlSealCfg (h : BHdr) (ivl : Reg32)
  | jrnlHoldup (h : BHdr) (us : Reg32)
  | jrnlRead (h : BHdr) (chain : BitVec 8) (bseq : BitVec 64) (off len : Reg32)
  | jrnlFind (h : BHdr) (chain : BitVec 8) (beat : BitVec 48)
  | jrnlDelete (h : BHdr) (last : BitVec 64)
  | jrnlCompact (h : BHdr) (chain : BitVec 8)
  | ewArm (h : BHdr) (wid : Reg32) (mask : BitVec 8) (pre post : BitVec 16) (ctxs : List Reg32)
  | ewTrigger (h : BHdr) (wid : Reg32)
  | ewDisarm (h : BHdr) (wid : Reg32)
  | jrnlRateTest (h : BHdr)
  | cfgPut (h : BHdr) (key : Reg32) (flags : BitVec 8) (value : List Octet)
  | cfgGet (h : BHdr) (key : Reg32)
  | zeroizeNAssert
  | fullZeroizationDone
  | sensorTrip (temperature : Bool)
  | entropyFail (t : KnTest)
  | selftestDone (r : SelfTest)
  | drbgReseed
  | challengeExpire (id : Reg32)
  | sessionTimeout (ch : BitVec 5)
  | sealRequest
  | knInfo (h : BHdr)
  | knCerts (h : BHdr) (slot : Octet)
  | knChallenge (h : BHdr)
  | knAuth (h : BHdr) (id : Reg32) (role key : Octet) (sigOk : Bool)
  | knLogout (h : BHdr)
  | knInit (h : BHdr) (key : List Octet)
  | knKeySet (h : BHdr) (role idx : Octet) (key : List Octet)
  | knKeyDel (h : BHdr) (role idx : Octet)
  | knAuthz (h : BHdr) (bits : Octet)
  | knAdmit (h : BHdr) (serials : List (BitVec 64))
  | knCertLoad (h : BHdr) (der : List Octet) (chains namesKey : Bool)
  | knRandom (h : BHdr) (count : BitVec 16)
  | knAttest (h : BHdr) (nonce : List Octet)
  | knSelftest (h : BHdr)
  | knZeroize (h : BHdr) (confirm : Reg32)
  | knCounter (h : BHdr) (ctr op : Octet)
  | knKeyidLoRead
  | mbDbWrite (m : BitVec 4) (v : Reg32)
  | mbCtrlEn (m : BitVec 4) (v : Reg32)
  | mbCtrlReset (m : BitVec 4)
  | mbCplHeadWrite (m : BitVec 4) (v : Reg32)
  | eventDeliver (d : EventDest) (ok : Bool)
  | bar2Read (b : BitVec 29)
  | bar2Write (b : BitVec 29) (be : BitVec 4) (v : Reg32)
  | bar4Read (b : BitVec 29) (n : BitVec 13)
  | bar4Write (b : BitVec 29) (data : List (Option Octet))
  | functionLevelReset
  | hotReset
  | svcDatagram (d : SvcDatagram)
  | svcChannelRelease (ch : BitVec 2)
  | exportDatagram (entry : BitVec 6) (sent : Bool)
  | nopCommand (h : BHdr)
  | devInfo (h : BHdr)
  | evtSubscribe (h : BHdr) (mask : Reg32)
  | memRead (h : BHdr) (a : Long) (count : BitVec 16)
  | memWrite (h : BHdr) (a : Long) (data : List Long)
  | svcCfg (h : BHdr) (c : SvcConfig)
  | svcExport (h : BHdr) (es : List ExportEntry)
  | svcStatus (h : BHdr)
  | timeSetTai (h : BHdr) (sec : BitVec 48) (ns : Reg32) (utc : BitVec 16)
  | timeStep (h : BHdr) (step : BitVec 64)
  | ppsSecond (h : BHdr) (sec : BitVec 48)
  | ptpCfg (h : BHdr) (c : PtpConfig)
  | ptpStatus (h : BHdr)
  | progLoad (h : BHdr) (target cluster : BitVec 8) (mask : BitVec 16) (a : Long) (notify : Bool) (nq : BitVec 16) (grains : List Grain)
  | coreHold (h : BHdr) (cluster : BitVec 8) (mask : BitVec 16)
  | coreStart (h : BHdr) (cluster : BitVec 8) (mask : BitVec 16)
  | coreResume (h : BHdr) (cluster core : BitVec 8) (pc : Long)
  | coreState (h : BHdr) (cluster : BitVec 8)
  | pwrSet (h : BHdr) (dom st : BitVec 8)
  | pwrStatus (h : BHdr) (first count : BitVec 8)
  | pwrDpl (h : BHdr) (level : BitVec 8)
  | speedRead (h : BHdr) (cluster : BitVec 8)
  | speedMeasure (h : BHdr) (cluster : BitVec 8)
  | domainTransitionDone (d : BitVec 7) (e : TransitionEnd)
  | speedRemeasure (c : BitVec 6)
  | tjWarnCross (tj : BitVec 16) (hot : BitVec 8)
  | thermtrip
  | whFireWrite (v : Reg32)
  | whistleNFall
  | whCopyoutDone
  | whBeatLoRead
  | haltReq (c : BitVec 6) (mask : BitVec 16)
  | whFire (h : BHdr) (tag : BitVec 16)
  | whPack (h : BHdr) (tag : BitVec 16) (target : BitVec 48)
  | whRead (h : BHdr) (first count : BitVec 16)
  | dbgHalt (h : BHdr) (cluster : BitVec 8) (mask : BitVec 16)
  | dbgReg (h : BHdr) (cluster core rw reg : BitVec 8) (value : BitVec 80)
  | dbgTap (h : BHdr) (enable : BitVec 8)
  | tapDebugAccess (a : Long) (w : Option Long)
  | powerOnReset (mode : BitVec 2) (node : BitVec 12)
  | deviceReset (mode : BitVec 2) (node : BitVec 12)
  | rstCtrlDevice (v : Reg32)
  | rstCtrlSteward (v : Reg32)
  | rstCtrlKennel (v : Reg32)
  | stewWdtKick (v : Reg32)
  | stewWdtExpire
  | lockupAutoReset
  | kennelLockupReset
  | imageHandoff (a b : SlotImage)
  | bringUp (b : BringUp)
  | stewardRestart
  | fwStatus (h : BHdr)
  | fwWrite (h : BHdr) (slot : Octet) (off : Reg32) (data : List Octet)
  | fwActivate (h : BHdr) (slot tries : Octet) (img : SlotImage)
  | fwConfirm (h : BHdr)
  | fwCommit (h : BHdr) (flags : Octet)
  | fwLoadRam (h : BHdr) (img : SlotImage)
  | devReset (h : BHdr) (confirm : Reg32)
  | registerWrite (who : Accessor) (off : BitVec 16) (be : BitVec 4) (v : Reg32)
  | readClear (who : Accessor) (off : BitVec 16)
  | driveAbortNRelease
  | zeroizeNRelease
  | pwrfailNRelease
  | vl0WindowClose (e : BitVec 12)
  | speedTableMeasured (c : BitVec 6) (table : List (BitVec 16)) (tj : BitVec 16)
  | ddrRetrainDone (ok : List Bool)
  | pcieLinkStateChange (e : PcieChange)
  | svcLinkChange (up : Bool) (speed : BitVec 2)
  | tapInstructionUpdate (ir : BitVec 8)
  | ptpMessageTransmit (m : PtpOut)
  deriving DecidableEq, Repr

end Sys2Proof
end

