-- ==== Sys2Proof/WellFormed.lean ====
section
/-! DEFINITION. Which operands a row can carry: the ranges that the width of an operand's type does not already say.
A command outside them is met with the fault illFormed. -/

namespace Sys2Proof

/-- CIC numbers of R262 and R264: 0 to 63 the clusters, 64 the steward. -/
def cicOk (c : BitVec 7) : Bool := decide (c.toNat ≤ 64)

/-- Cores a CIC has: 16 in a cluster, core 0 alone for the steward (R264). -/
def cicCoreOk (c : BitVec 7) (k : BitVec 4) : Bool := cicOk c && (decide (c.toNat < 64) || k == 0)

/-- A command's channel is one of the 20: 16 mailboxes and 4 SVC channels (R464). -/
def hdrOk (h : BHdr) : Bool := decide (h.ch.toNat < 20)

end Sys2Proof
end

