-- ==== Sys2Proof/Decode.lean ====
section
/-! DEFINITION. Decoding. No row of the command table has bits: the commands are protocol operations, accesses and
events, and no word spells one (NOTES.md). The words of Gitik instructions are the spec's own, in the memory a core fetches
from (R140, R141, R144, R145): decodeGitik reads them, and refuses the reserved ones (R143). -/

namespace Sys2Proof

/-- The command a word spells by the table's bits: none, since the table gives no row any. -/
def decodeTableWord (_nbits _w : Nat) : Option Instr := none

/-! ### Short form (R140, R144) -/

/-- A short instruction by its opcode and fields D and S; none for a reserved one. -/
def decodeShort (i : Iss) (op : Nat) (d s : BitVec 5) : Option Instr :=
  match op with
  | 0x00 => if d = 0 ∧ s = 0 then some (.nop i) else none
  | 0x01 => some (.mov i d s)
  | 0x02 => some (.movq i d s)
  | 0x03 => some (.add i (.short d s))
  | 0x04 => some (.adc i d s)
  | 0x05 => some (.sub i (.short d s))
  | 0x06 => some (.sbc i d s)
  | 0x07 => some (.addq i d s)
  | 0x08 => some (.neg i d s)
  | 0x09 => some (.and i (.short d s))
  | 0x0A => some (.or i (.short d s))
  | 0x0B => some (.xor i (.short d s))
  | 0x0C => some (.not i d s)
  | 0x0D => some (.shl i (.short d s))
  | 0x0E => some (.shr i (.short d s))
  | 0x0F => some (.sar i (.short d s))
  | 0x10 => some (.shlq i d s)
  | 0x11 => some (.shrq i d s)
  | 0x12 => some (.sarq i d s)
  | 0x13 => some (.clz i d s)
  | 0x14 => some (.cls i d s)
  | 0x15 => some (.norm i d s)
  | 0x16 => some (.sxg i d s)
  | 0x17 => some (.zxg i d s)
  | 0x18 => some (.swpg i d s)
  | 0x19 => some (.addd i d s)
  | 0x1A => some (.subd i d s)
  | 0x1B => some (.addds i d s)
  | 0x1C => some (.subds i d s)
  | 0x1D => some (.absds i d s)
  | 0x1E => some (.ldg i (.short d s))
  | 0x1F => some (.ldl i (.short d s))
  | 0x20 => some (.stg i (.short d s))
  | 0x21 => some (.stl i (.short d s))
  | 0x22 => if d = 0 then some (.br i s) else none
  | 0x23 => some (.jmpl i d s)
  | 0x24 => if d = 0 ∧ s.toNat < 8 then some (.calle i (s.setWidth 3)) else none
  | 0x25 => if d = 0 ∧ s = 0 then some (.rete i) else none
  | 0x26 => if d = 0 ∧ s = 0 then some (.retx i) else none
  | 0x27 => if s = 0 then some (.bwait i d) else none
  | 0x28 => some (.qput i d s)
  | 0x29 => some (.qget i d s)
  | 0x2A => if d = 0 then some (.whist i s) else none
  | 0x2B => if d = 0 ∧ s = 0 then some (.fence i) else none
  | 0x2C => some (.mfs i d s)
  | 0x2D => some (.mts i d s)
  | _ => none

/-! ### Long form (R141, R145) -/

/-- Two predicates named by D[2:0] and PF, with D[4:3] zero, and a condition that is not reserved: 12 and up are, 14 and up for
PSET (R158, R159). -/
def predsOk (d : BitVec 5) (cond : BitVec 4) (conds : Nat) : Bool := decide (d.toNat < 8) && decide (cond.toNat < conds)

/-- AMOV (R153): MODE in FUNC[12:10], RND, W20 and SH in FUNC[9:8] and FUNC[5:0]. -/
def decodeAmov (i : Iss) (d s t : BitVec 5) (f : BitVec 13) : Option Instr :=
  let ext : BitVec 8 := (f.extractLsb' 8 2) ++ (f.extractLsb' 0 6)
  if f.extractLsb' 6 2 ≠ 0 then none
  else match (f.extractLsb' 10 3).toNat with
    | 0 => if s.toNat < 4 ∧ t = 0 then some (.accr i d (s.setWidth 2) (f.getLsbD 9) (f.getLsbD 8) (f.setWidth 6)) else none
    | 1 => if s.toNat < 4 ∧ t = 0 then some (.acch i d ⟨s.setWidth 2, ext⟩) else none
    | 2 => if s.toNat < 4 ∧ t = 0 then some (.accl i d ⟨s.setWidth 2, ext⟩) else none
    | 3 => if d.toNat < 4 then some (.accw i ⟨d.setWidth 2, ext⟩ s t) else none
    | 4 => if d.toNat < 4 ∧ s = 0 ∧ t = 0 then some (.aclr i ⟨d.setWidth 2, ext⟩) else none
    | _ => none

/-- A long instruction of form R by its opcode, fields D, S, T and FUNC. -/
def decodeR (i : Iss) (op : Nat) (d s t : BitVec 5) (f : BitVec 13) : Option Instr :=
  let plain (x : Instr) : Option Instr := if f = 0 then some x else none
  let cond : BitVec 4 := f.extractLsb' 9 4
  let pf : BitVec 3 := f.extractLsb' 6 3
  let low (n : Nat) (x : Instr) : Option Instr := if f.toNat < 2 ^ n then some x else none
  match op with
  | 0x00 => plain (.add i (.long d s t))
  | 0x02 => plain (.sub i (.long d s t))
  | 0x04 => plain (.and i (.long d s t))
  | 0x06 => plain (.or i (.long d s t))
  | 0x08 => plain (.xor i (.long d s t))
  | 0x0A => plain (.shl i (.long d s t))
  | 0x0C => plain (.shr i (.long d s t))
  | 0x0E => plain (.sar i (.long d s t))
  | 0x12 => plain (.max i d s t)
  | 0x13 => plain (.min i d s t)
  | 0x14 => plain (.adds i d s t)
  | 0x15 => plain (.subs i d s t)
  | 0x1B => if t = 0 then low 2 (.normx i d s (f.setWidth 2)) else none
  | 0x20 => if predsOk d cond 12 ∧ f.extractLsb' 0 6 = 0 then some (.cmp i (d.setWidth 3) pf cond s t) else none
  | 0x22 => if predsOk d cond 12 ∧ f.extractLsb' 0 6 = 0 then some (.cmpd i (d.setWidth 3) pf cond s t) else none
  | 0x24 =>
    if d.toNat < 8 ∧ s.toNat < 8 ∧ t.toNat < 8 then low 3 (.plog i (d.setWidth 3) (s.setWidth 3) (t.setWidth 3) (f.setWidth 3)) else none
  | 0x28 => plain (.maxd i d s t)
  | 0x29 => plain (.mind i d s t)
  | 0x45 =>
    if f.extractLsb' 11 2 ≠ 3 ∧ f.extractLsb' 0 8 = 0 then some (.ldx i d s t (f.extractLsb' 11 2) (f.extractLsb' 9 2) (f.getLsbD 8)) else none
  | 0x46 =>
    if f.extractLsb' 11 2 ≠ 3 ∧ f.extractLsb' 0 8 = 0 then some (.stx i d s t (f.extractLsb' 11 2) (f.extractLsb' 9 2) (f.getLsbD 8)) else none
  | 0x47 => if f = 0 then some (.axch i d s t) else if f = 1 then some (.aadd i d s t) else if f = 2 then some (.acas i d s t) else none
  | 0x50 =>
    if 4 ≤ d.toNat then none
    else (match (f.toNat % 8) with
      | 0 => low 4 (.macd i (d.setWidth 2) (f.getLsbD 3) s t)
      | 1 => low 4 (.msud i (d.setWidth 2) (f.getLsbD 3) s t)
      | 2 => low 4 (.macx i (d.setWidth 2) (f.getLsbD 3) s t)
      | 3 => low 4 (.mdif i (d.setWidth 2) (f.getLsbD 3) s t)
      | _ => none)
  | 0x51 => decodeAmov i d s t f
  | 0x60 => low 2 (.mul i (f.setWidth 2) d s t)
  | 0x61 => low 2 (.div i (f.setWidth 2) d s t)
  | 0x62 => if t = 0 then low 1 (.sqrt i (f.getLsbD 0) d s) else none
  | 0x63 => if t = 0 then low 7 (.recip i (f.setWidth 7) d s) else none
  | 0x64 => if f = 0 then some (.cordicRot i d s) else if f = 1 then some (.cordicVec i d s t) else none
  | 0x70 => low 2 (.movs i (f.getLsbD 0) (f.getLsbD 1) d s t)
  | 0x71 => low 2 (.fils i (f.getLsbD 0) (f.getLsbD 1) d s t)
  | 0x72 => low 2 (.cmps i (f.getLsbD 0) (f.getLsbD 1) d s t)
  | 0x73 => low 3 (.scns i (f.getLsbD 0) (f.getLsbD 1) (f.getLsbD 2) d s t)
  | _ => none

/-- A long instruction of form I by its opcode, fields D, S and IMM. -/
def decodeI (i : Iss) (op : Nat) (d s : BitVec 5) (m : BitVec 18) : Option Instr :=
  let cond : BitVec 4 := m.extractLsb' 14 4
  let pf : BitVec 3 := m.extractLsb' 11 3
  let low (n : Nat) (x : Instr) : Option Instr := if m.toNat < 2 ^ n then some x else none
  match op with
  | 0x01 => some (.addi i d s m)
  | 0x03 => some (.rsubi i d s m)
  | 0x05 => some (.andi i d s m)
  | 0x07 => some (.ori i d s m)
  | 0x09 => some (.xori i d s m)
  | 0x0B => low 6 (.shli i d s (m.setWidth 6))
  | 0x0D => low 6 (.shri i d s (m.setWidth 6))
  | 0x0F => low 6 (.sari i d s (m.setWidth 6))
  | 0x10 => some (.movi i d (s ++ m))
  | 0x11 => if s = 0 then low 17 (.movh i d (m.setWidth 17)) else none
  | 0x18 =>
    if m.extractLsb' 0 5 = 0 then some (.bfx i d s (m.extractLsb' 12 6) (m.extractLsb' 6 6) (m.getLsbD 5)) else none
  | 0x19 => if m.extractLsb' 0 6 = 0 then some (.bfi i d s (m.extractLsb' 12 6) (m.extractLsb' 6 6)) else none
  | 0x1A => low 15 (.perm i d s (m.setWidth 15))
  | 0x21 => if predsOk d cond 12 then some (.cmpi i (d.setWidth 3) pf cond s (m.setWidth 11)) else none
  | 0x23 => if predsOk d cond 14 ∧ s = 0 ∧ m.extractLsb' 0 11 = 0 then some (.pset i (d.setWidth 3) pf cond) else none
  | 0x2A => low 6 (.sard i d s (m.setWidth 5) (m.getLsbD 5))
  | 0x30 => if d = 0 ∧ s = 0 then some (.bra i m) else none
  | 0x31 => if s = 0 then some (.call i d m) else none
  | 0x32 => if d = 0 then some (.rep i s m) else none
  | 0x33 => some (.repi i (d ++ s) m)
  | 0x40 => some (.ldg i (.long d s m))
  | 0x41 => some (.ldgu i d s m)
  | 0x42 => some (.ldl i (.long d s m))
  | 0x43 => some (.stg i (.long d s m))
  | 0x44 => some (.stl i (.long d s m))
  | _ => none

/-- Is the instruction whose first grain is g long (R140, R141)? -/
def gitikLong (g : BitVec 20) : Bool := g.getLsbD 16

/-- The instruction that core c reads from the grain at its PC and, for a long one, the next grain; none where the encoding is
reserved (R143). Each long opcode has one tail form: at most one of the two tables holds it. -/
def decodeGitik (c : CoreSel) (first second : BitVec 20) : Option Instr :=
  let i : Iss := { core := c, guard := first.extractLsb' 17 3 }
  if gitikLong first then
    let w : BitVec 40 := first ++ second
    let op := (w.extractLsb' 28 8).toNat
    let d : BitVec 5 := w.extractLsb' 23 5
    let s : BitVec 5 := w.extractLsb' 18 5
    (decodeR i op d s (w.extractLsb' 13 5) (w.extractLsb' 0 13)).or (decodeI i op d s (w.extractLsb' 0 18))
  else decodeShort i (first.extractLsb' 10 6).toNat (first.extractLsb' 5 5) (first.extractLsb' 0 5)

end Sys2Proof
end

