-- ==== Sys2Proof/Machine/Map.lean ====
section
/-! DEFINITION. Sparse maps in one canonical form: keys strictly rising, no entry equal to what an unlisted key
reads as. Every large store of the state (grains, registers, cores, contexts, queues) is such a list. -/

namespace Sys2Proof.Machine

/-- What a key is listed with, if it is listed. -/
def lookup {α : Type} : SMap α → Nat → Option α
  | [], _ => none
  | (k', v) :: r, k => if k = k' then some v else lookup r k

/-- The value of a key: its entry, or the default of that key. -/
def mget {α : Type} (d : Nat → α) (m : SMap α) (k : Nat) : α := (lookup m k).getD (d k)

/-- The list with the key's entry replaced by (k, v), in rising order of keys. -/
def insertKey {α : Type} : SMap α → Nat → α → SMap α
  | [], k, v => [(k, v)]
  | (k', v') :: r, k, v =>
    if k < k' then (k, v) :: (k', v') :: r
    else if k = k' then (k, v) :: r
    else (k', v') :: insertKey r k v

/-- The list without the key's entries. -/
def eraseKey {α : Type} : SMap α → Nat → SMap α
  | [], _ => []
  | (k', v') :: r, k => if k = k' then eraseKey r k else (k', v') :: eraseKey r k

/-- Write a key: an entry, or none where the value is the default. -/
def mset {α : Type} [DecidableEq α] (d : Nat → α) (m : SMap α) (k : Nat) (v : α) : SMap α :=
  if v = d k then eraseKey m k else insertKey m k v

/-- Keys strictly rising. -/
def risingKeys {α : Type} : SMap α → Bool
  | [] => true
  | [_] => true
  | (k, _) :: (k', v') :: r => decide (k < k') && risingKeys ((k', v') :: r)

/-- The canonical form: keys strictly rising and no entry equal to its default. -/
def mapWf {α : Type} [DecidableEq α] (d : Nat → α) (m : SMap α) : Bool :=
  risingKeys m && m.all (fun e => decide (e.2 ≠ d e.1))

/-- The map without the entries of keys lo to hi - 1. -/
def dropRange {α : Type} (m : SMap α) (lo hi : Nat) : SMap α :=
  m.filter (fun e => decide (e.1 < lo) || decide (hi ≤ e.1))

/-- The entries with keys lo to hi - 1. -/
def keepRange {α : Type} (m : SMap α) (lo hi : Nat) : SMap α :=
  m.filter (fun e => decide (lo ≤ e.1) && decide (e.1 < hi))

/-- Replace element i of a list. -/
def listSet {α : Type} : List α → Nat → α → List α
  | [], _, _ => []
  | _ :: r, 0, v => v :: r
  | x :: r, i + 1, v => x :: listSet r i v

/-- Apply a function n times, with the index counted up from i. -/
def iterUp {α : Type} (f : Nat → α → α) : Nat → Nat → α → α
  | _, 0, a => a
  | i, n + 1, a => iterUp f (i + 1) n (f i a)

end Sys2Proof.Machine
end

