-- ==== Sys2Proof/Machine/Regs.lean ====
section
/-! DEFINITION. The BAR0 register tables of the spec (R4, R63, R64, R97, R98, R272, R273, R362, R363, R393, R394,
R425, R426, R459, R460, R494, R495, R514, R515, R528, R529, R551, R552), row by row: offset, index step and
count, reset word, and each field's bits and access code (R5). -/

namespace Sys2Proof.Machine

/-- The access codes of R5. -/
inductive Acc where
  | rw | ro | w1c | w1s | wo | rc | stg
  deriving DecidableEq, Repr

/-- A field of a BAR0 register: byte offset of the word, lowest bit, width. -/
structure Fld where
  off : Nat
  lo : Nat
  w : Nat
  deriving DecidableEq, Repr

/-- A field of a register row: lowest bit, width, access code. -/
structure RowFld where
  lo : Nat
  w : Nat
  acc : Acc
  deriving DecidableEq, Repr

/-- A register row: first byte offset, index step, count, reset word, fields (bits in no field are reserved, R6). -/
structure RegRow where
  base : Nat
  step : Nat
  count : Nat
  reset : Nat
  flds : List RowFld
  deriving DecidableEq, Repr

/-- Does the row cover a byte offset? -/
def RegRow.covers (r : RegRow) (off : Nat) : Bool :=
  if r.step = 0 then off == r.base
  else decide (r.base ≤ off) && (off - r.base) % r.step == 0 && decide ((off - r.base) / r.step < r.count)

namespace R

abbrev DEV_ID : Nat := 0x0
abbrev DEV_STEP : Nat := 0x4
abbrev FAM_CFG0 : Nat := 0x8
abbrev FAM_CFG1 : Nat := 0xC
abbrev BEAT_CTRL : Nat := 0x4000
abbrev BEAT_STAT : Nat := 0x4004
abbrev PERIOD_INT : Nat := 0x4008
abbrev PERIOD_FRAC : Nat := 0x400C
abbrev PERIOD_ACT_INT : Nat := 0x4010
abbrev PERIOD_ACT_FRAC : Nat := 0x4014
abbrev GUARD : Nat := 0x4018
abbrev BEATIO_CTRL : Nat := 0x401C
abbrev BEATIN_CTRL : Nat := 0x4020
abbrev BEAT_START_LO : Nat := 0x4024
abbrev BEAT_START_HI : Nat := 0x4028
abbrev COMMIT : Nat := 0x4030
abbrev COMMIT_STAT : Nat := 0x4034
abbrev COMMIT_AT_LO : Nat := 0x4038
abbrev COMMIT_AT_HI : Nat := 0x403C
abbrev BEAT_NUM_LO : Nat := 0x4040
abbrev BEAT_NUM_HI : Nat := 0x4044
abbrev TIME_CAP_CTRL : Nat := 0x4050
abbrev TIME_CAP_FRAC : Nat := 0x4054
abbrev TIME_CAP_NS_LO : Nat := 0x4058
abbrev TIME_CAP_NS_HI : Nat := 0x405C
abbrev TIME_CAP_BEAT_LO : Nat := 0x4060
abbrev TIME_CAP_BEAT_HI : Nat := 0x4064
abbrev EPOCH_TAI_SEC_LO : Nat := 0x4068
abbrev EPOCH_TAI_SEC_HI : Nat := 0x406C
abbrev EPOCH_TAI_NS : Nat := 0x4070
abbrev TAI_UTC : Nat := 0x4074
abbrev DISC_CTRL : Nat := 0x4078
abbrev DISC_STAT : Nat := 0x407C
abbrev RATE_ADJ : Nat := 0x4080
abbrev PPS_CTRL : Nat := 0x4084
abbrev IRIG_CTRL : Nat := 0x4088
abbrev IRIG_STAT : Nat := 0x408C
abbrev AON_CTRL : Nat := 0x4098
abbrev AON_CAL : Nat := 0x409C
abbrev AON_UNC : Nat := 0x40A0
abbrev BEAT_INT_STAT : Nat := 0x40A4
abbrev BEAT_INT_EN : Nat := 0x40A8
abbrev OVR_SUM_LO : Nat := 0x40B0
abbrev OVR_SUM_HI : Nat := 0x40B4
abbrev SLACK_LAST (i : Nat) : Nat := 0x4800 + 0x10 * i
abbrev SLACK_MIN (i : Nat) : Nat := 0x4804 + 0x10 * i
abbrev OVR_CNT (i : Nat) : Nat := 0x4808 + 0x10 * i
abbrev OVR_BEAT (i : Nat) : Nat := 0x480C + 0x10 * i
abbrev DRV_ABORT_CTRL : Nat := 0x5000
abbrev DRV_ABORT_STAT : Nat := 0x5004
abbrev SP_EVT_SUM : Nat := 0x5008
abbrev SP_CTRL (i : Nat) : Nat := 0x5100 + 0x80 * i
abbrev SP_STAT (i : Nat) : Nat := 0x5104 + 0x80 * i
abbrev SP_TIMING (i : Nat) : Nat := 0x5108 + 0x80 * i
abbrev SP_DELAY (i : Nat) : Nat := 0x510C + 0x80 * i
abbrev SP_DESC0 (i : Nat) : Nat := 0x5110 + 0x80 * i
abbrev SP_DESC1 (i : Nat) : Nat := 0x5114 + 0x80 * i
abbrev SP_DESC2 (i : Nat) : Nat := 0x5118 + 0x80 * i
abbrev SP_DESC3 (i : Nat) : Nat := 0x511C + 0x80 * i
abbrev SP_CODE_ERR (i : Nat) : Nat := 0x5120 + 0x80 * i
abbrev SP_FEC_CORR (i : Nat) : Nat := 0x5124 + 0x80 * i
abbrev SP_FEC_UNC (i : Nat) : Nat := 0x5128 + 0x80 * i
abbrev SP_CRC_ERR (i : Nat) : Nat := 0x512C + 0x80 * i
abbrev SP_LATE (i : Nat) : Nat := 0x5130 + 0x80 * i
abbrev SP_LINKDN (i : Nat) : Nat := 0x5134 + 0x80 * i
abbrev SP_EVT (i : Nat) : Nat := 0x5138 + 0x80 * i
abbrev SP_EVT_EN (i : Nat) : Nat := 0x513C + 0x80 * i
abbrev MSIX_ADDR_LO (i : Nat) : Nat := 0x1000 + 0x10 * i
abbrev MSIX_ADDR_HI (i : Nat) : Nat := 0x1004 + 0x10 * i
abbrev MSIX_DATA (i : Nat) : Nat := 0x1008 + 0x10 * i
abbrev MSIX_VCTRL (i : Nat) : Nat := 0x100C + 0x10 * i
abbrev MSIX_PBA_LO : Nat := 0x1400
abbrev MSIX_PBA_HI : Nat := 0x1404
abbrev DEV_ROUTE (i : Nat) : Nat := 0x1500 + 0x4 * i
abbrev DEV_LEVEL (i : Nat) : Nat := 0x1700 + 0x4 * i
abbrev DEV_EDGE (i : Nat) : Nat := 0x1710 + 0x4 * i
abbrev WATCH (i : Nat) : Nat := 0x1800 + 0x4 * i
abbrev WAKE_SRC : Nat := 0x1900
abbrev WAKE_TS_LO : Nat := 0x1904
abbrev WAKE_TS_HI : Nat := 0x1908
abbrev WAKE_CNT : Nat := 0x190C
abbrev PACK_CTRL : Nat := 0x6000
abbrev PACK_STAT : Nat := 0x6004
abbrev NODE_ADDR : Nat := 0x6008
abbrev MASTER_ADDR : Nat := 0x600C
abbrev MASTER_SER_LO : Nat := 0x6010
abbrev MASTER_SER_HI : Nat := 0x6014
abbrev ROOT_ADDR : Nat := 0x6018
abbrev NODES : Nat := 0x601C
abbrev ROUTE_GEN : Nat := 0x6020
abbrev ELECT_CNT : Nat := 0x6024
abbrev FP_CTRL (i : Nat) : Nat := 0x6100 + 0x80 * i
abbrev FP_STAT (i : Nat) : Nat := 0x6104 + 0x80 * i
abbrev FP_PEER_SER_LO (i : Nat) : Nat := 0x6108 + 0x80 * i
abbrev FP_PEER_SER_HI (i : Nat) : Nat := 0x610C + 0x80 * i
abbrev FP_PEER (i : Nat) : Nat := 0x6110 + 0x80 * i
abbrev FP_DELAY (i : Nat) : Nat := 0x6114 + 0x80 * i
abbrev FP_ASYM (i : Nat) : Nat := 0x6118 + 0x80 * i
abbrev FP_FEC_CORR (i : Nat) : Nat := 0x611C + 0x80 * i
abbrev FP_FEC_UNC (i : Nat) : Nat := 0x6120 + 0x80 * i
abbrev FP_CRC_ERR (i : Nat) : Nat := 0x6124 + 0x80 * i
abbrev FP_RETRY (i : Nat) : Nat := 0x6128 + 0x80 * i
abbrev FP_LINKDN (i : Nat) : Nat := 0x612C + 0x80 * i
abbrev FP_GCM_FAIL (i : Nat) : Nat := 0x6130 + 0x80 * i
abbrev FP_HELLO_LOSS (i : Nat) : Nat := 0x6134 + 0x80 * i
abbrev FP_EVT (i : Nat) : Nat := 0x6138 + 0x80 * i
abbrev FP_EVT_EN (i : Nat) : Nat := 0x613C + 0x80 * i
abbrev TR_CTRL : Nat := 0x6800
abbrev TR_STAT : Nat := 0x6804
abbrev SCHED_GEN : Nat := 0x6808
abbrev FR_CTRL : Nat := 0x680C
abbrev FR_SINK : Nat := 0x6810
abbrev FR_STAT : Nat := 0x6814
abbrev PACK_EVT : Nat := 0x6818
abbrev PACK_EVT_EN : Nat := 0x681C
abbrev VL0_LATE : Nat := 0x6820
abbrev VL0_STALE : Nat := 0x6824
abbrev VL0_NOSCHED : Nat := 0x6828
abbrev DROP_NOROUTE : Nat := 0x682C
abbrev DROP_TTL : Nat := 0x6830
abbrev TOKEN_MISS : Nat := 0x6834
abbrev STRAY_STREAM : Nat := 0x6838
abbrev QMSG_DROP : Nat := 0x683C
abbrev FR_LATE : Nat := 0x6840
abbrev FR_OVERFLOW : Nat := 0x6844
abbrev WHISTLE_LATE : Nat := 0x6848
abbrev FTYPE_ERR : Nat := 0x684C
abbrev TX_VL0 (i : Nat) : Nat := 0x6C00 + 0x20 * i
abbrev RX_VL0 (i : Nat) : Nat := 0x6C04 + 0x20 * i
abbrev TX_BE (i : Nat) : Nat := 0x6C08 + 0x20 * i
abbrev RX_BE (i : Nat) : Nat := 0x6C0C + 0x20 * i
abbrev CRED_WAIT (i : Nat) : Nat := 0x6C10 + 0x20 * i
abbrev VL0_BUSY (i : Nat) : Nat := 0x6C14 + 0x20 * i
abbrev VL0_STOMP (i : Nat) : Nat := 0x6C18 + 0x20 * i
abbrev J_STAT : Nat := 0x7000
abbrev J_CFG : Nat := 0x7004
abbrev SEAL_IVL : Nat := 0x7008
abbrev HOLDUP : Nat := 0x700C
abbrev RATE_G : Nat := 0x7010
abbrev BUF_CEIL : Nat := 0x7014
abbrev BUF_USED : Nat := 0x7018
abbrev HEAD_LO : Nat := 0x701C
abbrev HEAD_HI : Nat := 0x7020
abbrev SEALED_LO : Nat := 0x7024
abbrev SEALED_HI : Nat := 0x7028
abbrev FREE_SEG : Nat := 0x702C
abbrev J_EVT : Nat := 0x7030
abbrev J_EVT_EN : Nat := 0x7034
abbrev DROP_BULK : Nat := 0x7038
abbrev DROP_ESS : Nat := 0x703C
abbrev SEAL_SKIP : Nat := 0x7040
abbrev PF_REFUSED : Nat := 0x7044
abbrev EW_LOST : Nat := 0x7048
abbrev REC_DISCARD : Nat := 0x704C
abbrev S_STAT (i : Nat) : Nat := 0x7100 + 0x40 * i
abbrev S_RATE (i : Nat) : Nat := 0x7104 + 0x40 * i
abbrev S_WERR (i : Nat) : Nat := 0x7108 + 0x40 * i
abbrev S_RERR (i : Nat) : Nat := 0x710C + 0x40 * i
abbrev S_TMO (i : Nat) : Nat := 0x7110 + 0x40 * i
abbrev S_EVT (i : Nat) : Nat := 0x7114 + 0x40 * i
abbrev S_EVT_EN (i : Nat) : Nat := 0x7118 + 0x40 * i
abbrev KN_STAT : Nat := 0x8000
abbrev KN_ERR : Nat := 0x8004
abbrev KN_EVT : Nat := 0x8008
abbrev KN_EVT_EN : Nat := 0x800C
abbrev KN_VER : Nat := 0x8010
abbrev KN_PED : Nat := 0x8014
abbrev KN_KEYID_LO : Nat := 0x8018
abbrev KN_KEYID_HI : Nat := 0x801C
abbrev KN_AUTHFAIL : Nat := 0x8020
abbrev KN_ESFAIL : Nat := 0x8024
abbrev MB_CTRL (i : Nat) : Nat := 0x400 + 0x40 * i
abbrev MB_CMD_LO (i : Nat) : Nat := 0x404 + 0x40 * i
abbrev MB_CMD_HI (i : Nat) : Nat := 0x408 + 0x40 * i
abbrev MB_CPL_LO (i : Nat) : Nat := 0x40C + 0x40 * i
abbrev MB_CPL_HI (i : Nat) : Nat := 0x410 + 0x40 * i
abbrev MB_DB (i : Nat) : Nat := 0x414 + 0x40 * i
abbrev MB_CPL_HEAD (i : Nat) : Nat := 0x418 + 0x40 * i
abbrev MB_STAT (i : Nat) : Nat := 0x41C + 0x40 * i
abbrev MB_EVT (i : Nat) : Nat := 0x420 + 0x40 * i
abbrev MB_EVT_EN (i : Nat) : Nat := 0x424 + 0x40 * i
abbrev MB_DONE (i : Nat) : Nat := 0x428 + 0x40 * i
abbrev MBX_GSTAT : Nat := 0x800
abbrev BERTIA_VER : Nat := 0x804
abbrev EVT_LOST : Nat := 0x808
abbrev HOST_ERR : Nat := 0x80C
abbrev PCIE_EVT : Nat := 0x810
abbrev PCIE_EVT_EN : Nat := 0x814
abbrev SVC_EVT : Nat := 0x818
abbrev SVC_EVT_EN : Nat := 0x81C
abbrev SVC_STAT : Nat := 0x820
abbrev SVC_DROP : Nat := 0x824
abbrev DDR_EVT (i : Nat) : Nat := 0x830 + 0x4 * i
abbrev DDR_EVT_EN (i : Nat) : Nat := 0x840 + 0x4 * i
abbrev DDR_STAT (i : Nat) : Nat := 0x850 + 0x4 * i
abbrev DDR_CORR (i : Nat) : Nat := 0x860 + 0x4 * i
abbrev BAR2_BASE_LO : Nat := 0xC00
abbrev BAR2_BASE_HI : Nat := 0xC04
abbrev BAR4_BASE_LO : Nat := 0xC08
abbrev BAR4_BASE_HI : Nat := 0xC0C
abbrev PWR_STAT : Nat := 0x3000
abbrev PWR_EVT : Nat := 0x3004
abbrev PWR_EVT_EN : Nat := 0x3008
abbrev PWR_TJ : Nat := 0x300C
abbrev TJ_WARN : Nat := 0x3010
abbrev PD_STAT (i : Nat) : Nat := 0x3100 + 0x4 * i
abbrev CL_GOV (i : Nat) : Nat := 0x3400 + 0x10 * i
abbrev CL_LIM (i : Nat) : Nat := 0x3404 + 0x10 * i
abbrev CL_VOLT (i : Nat) : Nat := 0x3408 + 0x10 * i
abbrev CL_BOOST (i : Nat) : Nat := 0x340C + 0x10 * i
abbrev WH_CTRL : Nat := 0x2000
abbrev WH_STAT : Nat := 0x2004
abbrev WH_FIRE : Nat := 0x2008
abbrev WH_FAULT_EN : Nat := 0x200C
abbrev WH_SEQ : Nat := 0x2010
abbrev WH_BEAT_LO : Nat := 0x2014
abbrev WH_BEAT_HI : Nat := 0x2018
abbrev WH_MERGED : Nat := 0x201C
abbrev WH_SKIP : Nat := 0x2020
abbrev WH_MISSED : Nat := 0x2024
abbrev WH_PAGE : Nat := 0x2028
abbrev WH_EVT : Nat := 0x202C
abbrev WH_EVT_EN : Nat := 0x2030
abbrev WH_WIN (i : Nat) : Nat := 0x2800 + 0x4 * i
abbrev RST_CTRL : Nat := 0x9000
abbrev RST_CAUSE : Nat := 0x9004
abbrev BOOT_STAT : Nat := 0x9008
abbrev FW_VER : Nat := 0x900C
abbrev BOOT_TIME : Nat := 0x9010
abbrev STEW_WDT : Nat := 0x9014
abbrev LOCKUP_CTRL : Nat := 0x9018
abbrev BOOT_SLOTS : Nat := 0x901C

abbrev DEV_ID_VENDOR : Fld := ⟨0x0, 16, 16⟩
abbrev DEV_ID_DEVICE : Fld := ⟨0x0, 0, 16⟩
abbrev DEV_STEP_MAJOR : Fld := ⟨0x4, 8, 8⟩
abbrev DEV_STEP_MINOR : Fld := ⟨0x4, 0, 8⟩
abbrev FAM_CFG0_CLUSTERS : Fld := ⟨0x8, 24, 8⟩
abbrev FAM_CFG0_CORES : Fld := ⟨0x8, 16, 8⟩
abbrev FAM_CFG0_SAMPLE_PORTS : Fld := ⟨0x8, 8, 8⟩
abbrev FAM_CFG0_FABRIC_PORTS : Fld := ⟨0x8, 0, 8⟩
abbrev FAM_CFG1_DDR_CH : Fld := ⟨0xC, 20, 4⟩
abbrev FAM_CFG1_STORE_PORTS : Fld := ⟨0xC, 16, 4⟩
abbrev FAM_CFG1_LOG2_CONTEXTS : Fld := ⟨0xC, 8, 8⟩
abbrev FAM_CFG1_LOG2_QUEUES : Fld := ⟨0xC, 0, 8⟩
abbrev BEAT_CTRL_RUN : Fld := ⟨0x4000, 31, 1⟩
abbrev BEAT_CTRL_ALIGN_SEC : Fld := ⟨0x4000, 30, 1⟩
abbrev BEAT_CTRL_SRC_SEL : Fld := ⟨0x4000, 24, 4⟩
abbrev BEAT_STAT_ROLE : Fld := ⟨0x4004, 30, 2⟩
abbrev BEAT_STAT_RUNNING : Fld := ⟨0x4004, 29, 1⟩
abbrev BEAT_STAT_STOPPING : Fld := ⟨0x4004, 28, 1⟩
abbrev BEAT_STAT_SRC_ACT : Fld := ⟨0x4004, 24, 4⟩
abbrev BEAT_STAT_LOCK : Fld := ⟨0x4004, 20, 4⟩
abbrev BEAT_STAT_TAI_VALID : Fld := ⟨0x4004, 19, 1⟩
abbrev BEAT_STAT_DISC_PEND : Fld := ⟨0x4004, 18, 1⟩
abbrev BEAT_STAT_HOLDOVER_S : Fld := ⟨0x4004, 0, 16⟩
abbrev PERIOD_INT_V : Fld := ⟨0x4008, 0, 32⟩
abbrev PERIOD_FRAC_V : Fld := ⟨0x400C, 0, 32⟩
abbrev PERIOD_ACT_INT_V : Fld := ⟨0x4010, 0, 32⟩
abbrev PERIOD_ACT_FRAC_V : Fld := ⟨0x4014, 0, 32⟩
abbrev GUARD_V : Fld := ⟨0x4018, 0, 24⟩
abbrev BEATIO_CTRL_OUT_EN : Fld := ⟨0x401C, 31, 1⟩
abbrev BEATIO_CTRL_OUT_POL : Fld := ⟨0x401C, 30, 1⟩
abbrev BEATIO_CTRL_OUT_WIDTH : Fld := ⟨0x401C, 16, 14⟩
abbrev BEATIO_CTRL_OUT_DIV : Fld := ⟨0x401C, 0, 16⟩
abbrev BEATIN_CTRL_DIV : Fld := ⟨0x4020, 0, 16⟩
abbrev BEAT_START_LO_V : Fld := ⟨0x4024, 0, 32⟩
abbrev BEAT_START_HI_V : Fld := ⟨0x4028, 0, 16⟩
abbrev COMMIT_CANCEL : Fld := ⟨0x4030, 2, 1⟩
abbrev COMMIT_AT : Fld := ⟨0x4030, 1, 1⟩
abbrev COMMIT_GO : Fld := ⟨0x4030, 0, 1⟩
abbrev COMMIT_STAT_PENDING : Fld := ⟨0x4034, 31, 1⟩
abbrev COMMIT_STAT_DONE : Fld := ⟨0x4034, 30, 1⟩
abbrev COMMIT_STAT_ERR : Fld := ⟨0x4034, 29, 1⟩
abbrev COMMIT_STAT_IGNORED : Fld := ⟨0x4034, 28, 1⟩
abbrev COMMIT_STAT_CUTOFF : Fld := ⟨0x4034, 27, 1⟩
abbrev COMMIT_STAT_CODE : Fld := ⟨0x4034, 16, 8⟩
abbrev COMMIT_STAT_BEAT : Fld := ⟨0x4034, 0, 16⟩
abbrev COMMIT_AT_LO_V : Fld := ⟨0x4038, 0, 32⟩
abbrev COMMIT_AT_HI_V : Fld := ⟨0x403C, 0, 16⟩
abbrev BEAT_NUM_LO_V : Fld := ⟨0x4040, 0, 32⟩
abbrev BEAT_NUM_HI_V : Fld := ⟨0x4044, 0, 16⟩
abbrev TIME_CAP_CTRL_DONE : Fld := ⟨0x4050, 31, 1⟩
abbrev TIME_CAP_CTRL_EDGE : Fld := ⟨0x4050, 1, 1⟩
abbrev TIME_CAP_CTRL_REQ : Fld := ⟨0x4050, 0, 1⟩
abbrev TIME_CAP_FRAC_V : Fld := ⟨0x4054, 0, 24⟩
abbrev TIME_CAP_NS_LO_V : Fld := ⟨0x4058, 0, 32⟩
abbrev TIME_CAP_NS_HI_V : Fld := ⟨0x405C, 0, 24⟩
abbrev TIME_CAP_BEAT_LO_V : Fld := ⟨0x4060, 0, 32⟩
abbrev TIME_CAP_BEAT_HI_V : Fld := ⟨0x4064, 0, 16⟩
abbrev EPOCH_TAI_SEC_LO_V : Fld := ⟨0x4068, 0, 32⟩
abbrev EPOCH_TAI_SEC_HI_V : Fld := ⟨0x406C, 0, 16⟩
abbrev EPOCH_TAI_NS_V : Fld := ⟨0x4070, 0, 30⟩
abbrev TAI_UTC_V : Fld := ⟨0x4074, 0, 16⟩
abbrev DISC_CTRL_SLEW_MAX : Fld := ⟨0x4078, 24, 8⟩
abbrev DISC_CTRL_STEP_EXP : Fld := ⟨0x4078, 16, 8⟩
abbrev DISC_CTRL_BW : Fld := ⟨0x4078, 12, 4⟩
abbrev DISC_CTRL_LOCK_N : Fld := ⟨0x4078, 8, 4⟩
abbrev DISC_CTRL_LOCK_EXP : Fld := ⟨0x4078, 0, 8⟩
abbrev DISC_STAT_V : Fld := ⟨0x407C, 0, 32⟩
abbrev RATE_ADJ_V : Fld := ⟨0x4080, 0, 32⟩
abbrev PPS_CTRL_EN : Fld := ⟨0x4084, 31, 1⟩
abbrev PPS_CTRL_EDGE : Fld := ⟨0x4084, 30, 1⟩
abbrev PPS_CTRL_DELAY : Fld := ⟨0x4084, 0, 24⟩
abbrev IRIG_CTRL_MODE : Fld := ⟨0x4088, 30, 2⟩
abbrev IRIG_CTRL_SBS_CHECK : Fld := ⟨0x4088, 29, 1⟩
abbrev IRIG_CTRL_UTC : Fld := ⟨0x4088, 28, 1⟩
abbrev IRIG_CTRL_YEAR : Fld := ⟨0x4088, 0, 16⟩
abbrev IRIG_STAT_BAD : Fld := ⟨0x408C, 16, 16⟩
abbrev IRIG_STAT_CARRIER : Fld := ⟨0x408C, 15, 1⟩
abbrev IRIG_STAT_VALID : Fld := ⟨0x408C, 14, 1⟩
abbrev AON_CTRL_CAL_WIN : Fld := ⟨0x4098, 16, 16⟩
abbrev AON_CTRL_DRIFT_BOUND : Fld := ⟨0x4098, 0, 16⟩
abbrev AON_CAL_VALID : Fld := ⟨0x409C, 31, 1⟩
abbrev AON_CAL_TICK : Fld := ⟨0x409C, 0, 31⟩
abbrev AON_UNC_V : Fld := ⟨0x40A0, 0, 32⟩
abbrev BEAT_INT_STAT_DISC : Fld := ⟨0x40A4, 7, 1⟩
abbrev BEAT_INT_STAT_HOLDOVER : Fld := ⟨0x40A4, 6, 1⟩
abbrev BEAT_INT_STAT_LOCK_CHG : Fld := ⟨0x40A4, 5, 1⟩
abbrev BEAT_INT_STAT_OVERRUN : Fld := ⟨0x40A4, 4, 1⟩
abbrev BEAT_INT_STAT_IGNORED : Fld := ⟨0x40A4, 3, 1⟩
abbrev BEAT_INT_STAT_COMMIT_ERR : Fld := ⟨0x40A4, 2, 1⟩
abbrev BEAT_INT_STAT_COMMIT_DONE : Fld := ⟨0x40A4, 1, 1⟩
abbrev BEAT_INT_STAT_STOPPED : Fld := ⟨0x40A4, 0, 1⟩
abbrev BEAT_INT_EN_DISC : Fld := ⟨0x40A8, 7, 1⟩
abbrev BEAT_INT_EN_HOLDOVER : Fld := ⟨0x40A8, 6, 1⟩
abbrev BEAT_INT_EN_LOCK_CHG : Fld := ⟨0x40A8, 5, 1⟩
abbrev BEAT_INT_EN_OVERRUN : Fld := ⟨0x40A8, 4, 1⟩
abbrev BEAT_INT_EN_IGNORED : Fld := ⟨0x40A8, 3, 1⟩
abbrev BEAT_INT_EN_COMMIT_ERR : Fld := ⟨0x40A8, 2, 1⟩
abbrev BEAT_INT_EN_COMMIT_DONE : Fld := ⟨0x40A8, 1, 1⟩
abbrev BEAT_INT_EN_STOPPED : Fld := ⟨0x40A8, 0, 1⟩
abbrev OVR_SUM_LO_V : Fld := ⟨0x40B0, 0, 32⟩
abbrev OVR_SUM_HI_V : Fld := ⟨0x40B4, 0, 32⟩
abbrev SLACK_LAST_IDLE (i : Nat) : Fld := ⟨0x4800 + 0x10 * i, 31, 1⟩
abbrev SLACK_LAST_NOMEAS (i : Nat) : Fld := ⟨0x4800 + 0x10 * i, 30, 1⟩
abbrev SLACK_LAST_TOG (i : Nat) : Fld := ⟨0x4800 + 0x10 * i, 29, 1⟩
abbrev SLACK_LAST_SLACK (i : Nat) : Fld := ⟨0x4800 + 0x10 * i, 0, 25⟩
abbrev SLACK_MIN_V (i : Nat) : Fld := ⟨0x4804 + 0x10 * i, 0, 25⟩
abbrev OVR_CNT_V (i : Nat) : Fld := ⟨0x4808 + 0x10 * i, 0, 16⟩
abbrev OVR_BEAT_V (i : Nat) : Fld := ⟨0x480C + 0x10 * i, 0, 32⟩
abbrev DRV_ABORT_CTRL_REARM : Fld := ⟨0x5000, 31, 1⟩
abbrev DRV_ABORT_CTRL_SW : Fld := ⟨0x5000, 30, 1⟩
abbrev DRV_ABORT_CTRL_RAMP : Fld := ⟨0x5000, 0, 24⟩
abbrev DRV_ABORT_STAT_PIN : Fld := ⟨0x5004, 31, 1⟩
abbrev DRV_ABORT_STAT_LATCHED : Fld := ⟨0x5004, 30, 1⟩
abbrev DRV_ABORT_STAT_BY_SW : Fld := ⟨0x5004, 29, 1⟩
abbrev DRV_ABORT_STAT_COUNT : Fld := ⟨0x5004, 0, 16⟩
abbrev SP_EVT_SUM_V : Fld := ⟨0x5008, 0, 16⟩
abbrev SP_CTRL_EN (i : Nat) : Fld := ⟨0x5100 + 0x80 * i, 31, 1⟩
abbrev SP_CTRL_GEN_SEL (i : Nat) : Fld := ⟨0x5100 + 0x80 * i, 28, 3⟩
abbrev SP_CTRL_AUTOBIND (i : Nat) : Fld := ⟨0x5100 + 0x80 * i, 27, 1⟩
abbrev SP_CTRL_ACCEPT (i : Nat) : Fld := ⟨0x5100 + 0x80 * i, 26, 1⟩
abbrev SP_CTRL_LOOP (i : Nat) : Fld := ⟨0x5100 + 0x80 * i, 25, 1⟩
abbrev SP_STAT_STATE (i : Nat) : Fld := ⟨0x5104 + 0x80 * i, 29, 3⟩
abbrev SP_STAT_GEN_ACT (i : Nat) : Fld := ⟨0x5104 + 0x80 * i, 27, 2⟩
abbrev SP_STAT_LOCK (i : Nat) : Fld := ⟨0x5104 + 0x80 * i, 26, 1⟩
abbrev SP_STAT_ABORT (i : Nat) : Fld := ⟨0x5104 + 0x80 * i, 25, 1⟩
abbrev SP_STAT_PLAN_PEND (i : Nat) : Fld := ⟨0x5104 + 0x80 * i, 24, 1⟩
abbrev SP_STAT_PLAN_ACK (i : Nat) : Fld := ⟨0x5104 + 0x80 * i, 23, 1⟩
abbrev SP_STAT_HOLD_WHY (i : Nat) : Fld := ⟨0x5104 + 0x80 * i, 16, 4⟩
abbrev SP_STAT_PLAN_ID (i : Nat) : Fld := ⟨0x5104 + 0x80 * i, 8, 8⟩
abbrev SP_STAT_NAK_REASON (i : Nat) : Fld := ⟨0x5104 + 0x80 * i, 0, 8⟩
abbrev SP_TIMING_DL (i : Nat) : Fld := ⟨0x5108 + 0x80 * i, 0, 8⟩
abbrev SP_DELAY_TOG (i : Nat) : Fld := ⟨0x510C + 0x80 * i, 31, 1⟩
abbrev SP_DELAY_VALID (i : Nat) : Fld := ⟨0x510C + 0x80 * i, 30, 1⟩
abbrev SP_DELAY_DELAY (i : Nat) : Fld := ⟨0x510C + 0x80 * i, 0, 24⟩
abbrev SP_DESC0_VENDOR (i : Nat) : Fld := ⟨0x5110 + 0x80 * i, 16, 16⟩
abbrev SP_DESC0_TYPE (i : Nat) : Fld := ⟨0x5110 + 0x80 * i, 0, 16⟩
abbrev SP_DESC1_V (i : Nat) : Fld := ⟨0x5114 + 0x80 * i, 0, 32⟩
abbrev SP_DESC2_V (i : Nat) : Fld := ⟨0x5118 + 0x80 * i, 0, 32⟩
abbrev SP_DESC3_IN_CH (i : Nat) : Fld := ⟨0x511C + 0x80 * i, 16, 16⟩
abbrev SP_DESC3_DRV_CH (i : Nat) : Fld := ⟨0x511C + 0x80 * i, 0, 16⟩
abbrev SP_CODE_ERR_V (i : Nat) : Fld := ⟨0x5120 + 0x80 * i, 0, 32⟩
abbrev SP_FEC_CORR_V (i : Nat) : Fld := ⟨0x5124 + 0x80 * i, 0, 32⟩
abbrev SP_FEC_UNC_V (i : Nat) : Fld := ⟨0x5128 + 0x80 * i, 0, 32⟩
abbrev SP_CRC_ERR_V (i : Nat) : Fld := ⟨0x512C + 0x80 * i, 0, 32⟩
abbrev SP_LATE_V (i : Nat) : Fld := ⟨0x5130 + 0x80 * i, 0, 32⟩
abbrev SP_LINKDN_V (i : Nat) : Fld := ⟨0x5134 + 0x80 * i, 0, 32⟩
abbrev SP_EVT_PLAN_NAK (i : Nat) : Fld := ⟨0x5138 + 0x80 * i, 7, 1⟩
abbrev SP_EVT_SENSOR (i : Nat) : Fld := ⟨0x5138 + 0x80 * i, 6, 1⟩
abbrev SP_EVT_MOD_EVT (i : Nat) : Fld := ⟨0x5138 + 0x80 * i, 5, 1⟩
abbrev SP_EVT_HOLD (i : Nat) : Fld := ⟨0x5138 + 0x80 * i, 4, 1⟩
abbrev SP_EVT_LATE (i : Nat) : Fld := ⟨0x5138 + 0x80 * i, 3, 1⟩
abbrev SP_EVT_CRC (i : Nat) : Fld := ⟨0x5138 + 0x80 * i, 2, 1⟩
abbrev SP_EVT_DEPART (i : Nat) : Fld := ⟨0x5138 + 0x80 * i, 1, 1⟩
abbrev SP_EVT_ARRIVE (i : Nat) : Fld := ⟨0x5138 + 0x80 * i, 0, 1⟩
abbrev SP_EVT_EN_PLAN_NAK (i : Nat) : Fld := ⟨0x513C + 0x80 * i, 7, 1⟩
abbrev SP_EVT_EN_SENSOR (i : Nat) : Fld := ⟨0x513C + 0x80 * i, 6, 1⟩
abbrev SP_EVT_EN_MOD_EVT (i : Nat) : Fld := ⟨0x513C + 0x80 * i, 5, 1⟩
abbrev SP_EVT_EN_HOLD (i : Nat) : Fld := ⟨0x513C + 0x80 * i, 4, 1⟩
abbrev SP_EVT_EN_LATE (i : Nat) : Fld := ⟨0x513C + 0x80 * i, 3, 1⟩
abbrev SP_EVT_EN_CRC (i : Nat) : Fld := ⟨0x513C + 0x80 * i, 2, 1⟩
abbrev SP_EVT_EN_DEPART (i : Nat) : Fld := ⟨0x513C + 0x80 * i, 1, 1⟩
abbrev SP_EVT_EN_ARRIVE (i : Nat) : Fld := ⟨0x513C + 0x80 * i, 0, 1⟩
abbrev MSIX_ADDR_LO_V (i : Nat) : Fld := ⟨0x1000 + 0x10 * i, 0, 32⟩
abbrev MSIX_ADDR_HI_V (i : Nat) : Fld := ⟨0x1004 + 0x10 * i, 0, 32⟩
abbrev MSIX_DATA_V (i : Nat) : Fld := ⟨0x1008 + 0x10 * i, 0, 32⟩
abbrev MSIX_VCTRL_MASK (i : Nat) : Fld := ⟨0x100C + 0x10 * i, 0, 1⟩
abbrev MSIX_PBA_LO_V : Fld := ⟨0x1400, 0, 32⟩
abbrev MSIX_PBA_HI_V : Fld := ⟨0x1404, 0, 32⟩
abbrev DEV_ROUTE_CIC_EN (i : Nat) : Fld := ⟨0x1500 + 0x4 * i, 31, 1⟩
abbrev DEV_ROUTE_DEST (i : Nat) : Fld := ⟨0x1500 + 0x4 * i, 24, 7⟩
abbrev DEV_ROUTE_CSRC (i : Nat) : Fld := ⟨0x1500 + 0x4 * i, 16, 7⟩
abbrev DEV_ROUTE_HOST_EN (i : Nat) : Fld := ⟨0x1500 + 0x4 * i, 15, 1⟩
abbrev DEV_ROUTE_PARKED (i : Nat) : Fld := ⟨0x1500 + 0x4 * i, 14, 1⟩
abbrev DEV_ROUTE_LEVEL (i : Nat) : Fld := ⟨0x1500 + 0x4 * i, 13, 1⟩
abbrev DEV_ROUTE_VEC (i : Nat) : Fld := ⟨0x1500 + 0x4 * i, 0, 6⟩
abbrev DEV_LEVEL_V (i : Nat) : Fld := ⟨0x1700 + 0x4 * i, 0, 32⟩
abbrev DEV_EDGE_V (i : Nat) : Fld := ⟨0x1710 + 0x4 * i, 0, 32⟩
abbrev WATCH_EN (i : Nat) : Fld := ⟨0x1800 + 0x4 * i, 31, 1⟩
abbrev WATCH_SRC (i : Nat) : Fld := ⟨0x1800 + 0x4 * i, 24, 7⟩
abbrev WATCH_DOMAIN (i : Nat) : Fld := ⟨0x1800 + 0x4 * i, 0, 7⟩
abbrev WAKE_SRC_VALID : Fld := ⟨0x1900, 31, 1⟩
abbrev WAKE_SRC_SRC : Fld := ⟨0x1900, 24, 7⟩
abbrev WAKE_SRC_SLOT : Fld := ⟨0x1900, 18, 6⟩
abbrev WAKE_SRC_DOMAIN : Fld := ⟨0x1900, 0, 7⟩
abbrev WAKE_TS_LO_V : Fld := ⟨0x1904, 0, 32⟩
abbrev WAKE_TS_HI_V : Fld := ⟨0x1908, 0, 16⟩
abbrev WAKE_CNT_V : Fld := ⟨0x190C, 0, 16⟩
abbrev PACK_CTRL_AUTH_REQ : Fld := ⟨0x6000, 30, 1⟩
abbrev PACK_CTRL_ENC_REQ : Fld := ⟨0x6000, 29, 1⟩
abbrev PACK_CTRL_PRIO : Fld := ⟨0x6000, 16, 8⟩
abbrev PACK_STAT_ADDR_STATE : Fld := ⟨0x6004, 30, 2⟩
abbrev PACK_STAT_FENCED : Fld := ⟨0x6004, 29, 1⟩
abbrev PACK_STAT_TOO_DEEP : Fld := ⟨0x6004, 28, 1⟩
abbrev PACK_STAT_PARENT_VALID : Fld := ⟨0x6004, 27, 1⟩
abbrev PACK_STAT_PARENT : Fld := ⟨0x6004, 24, 3⟩
abbrev PACK_STAT_DEPTH : Fld := ⟨0x6004, 0, 6⟩
abbrev NODE_ADDR_NODE_ID : Fld := ⟨0x6008, 16, 12⟩
abbrev NODE_ADDR_ADDR : Fld := ⟨0x6008, 0, 16⟩
abbrev MASTER_ADDR_PRIO : Fld := ⟨0x600C, 24, 8⟩
abbrev MASTER_ADDR_QUAL : Fld := ⟨0x600C, 16, 8⟩
abbrev MASTER_ADDR_ADDR : Fld := ⟨0x600C, 0, 16⟩
abbrev MASTER_SER_LO_V : Fld := ⟨0x6010, 0, 32⟩
abbrev MASTER_SER_HI_V : Fld := ⟨0x6014, 0, 32⟩
abbrev ROOT_ADDR_V : Fld := ⟨0x6018, 0, 16⟩
abbrev NODES_V : Fld := ⟨0x601C, 0, 16⟩
abbrev ROUTE_GEN_V : Fld := ⟨0x6020, 0, 32⟩
abbrev ELECT_CNT_V : Fld := ⟨0x6024, 0, 16⟩
abbrev FP_CTRL_EN (i : Nat) : Fld := ⟨0x6100 + 0x80 * i, 31, 1⟩
abbrev FP_CTRL_GEN_SEL (i : Nat) : Fld := ⟨0x6100 + 0x80 * i, 28, 3⟩
abbrev FP_CTRL_LOOP (i : Nat) : Fld := ⟨0x6100 + 0x80 * i, 27, 1⟩
abbrev FP_CTRL_TIMING_OK (i : Nat) : Fld := ⟨0x6100 + 0x80 * i, 26, 1⟩
abbrev FP_STAT_STATE (i : Nat) : Fld := ⟨0x6104 + 0x80 * i, 29, 3⟩
abbrev FP_STAT_GEN_ACT (i : Nat) : Fld := ⟨0x6104 + 0x80 * i, 27, 2⟩
abbrev FP_STAT_LOCK (i : Nat) : Fld := ⟨0x6104 + 0x80 * i, 26, 1⟩
abbrev FP_STAT_ENC (i : Nat) : Fld := ⟨0x6104 + 0x80 * i, 25, 1⟩
abbrev FP_STAT_AUTHED (i : Nat) : Fld := ⟨0x6104 + 0x80 * i, 24, 1⟩
abbrev FP_STAT_PARENT (i : Nat) : Fld := ⟨0x6104 + 0x80 * i, 23, 1⟩
abbrev FP_STAT_UPLINK (i : Nat) : Fld := ⟨0x6104 + 0x80 * i, 22, 1⟩
abbrev FP_STAT_REASON (i : Nat) : Fld := ⟨0x6104 + 0x80 * i, 8, 8⟩
abbrev FP_PEER_SER_LO_V (i : Nat) : Fld := ⟨0x6108 + 0x80 * i, 0, 32⟩
abbrev FP_PEER_SER_HI_V (i : Nat) : Fld := ⟨0x610C + 0x80 * i, 0, 32⟩
abbrev FP_PEER_ADDR (i : Nat) : Fld := ⟨0x6110 + 0x80 * i, 16, 16⟩
abbrev FP_PEER_PORT (i : Nat) : Fld := ⟨0x6110 + 0x80 * i, 8, 8⟩
abbrev FP_DELAY_TOG (i : Nat) : Fld := ⟨0x6114 + 0x80 * i, 31, 1⟩
abbrev FP_DELAY_VALID (i : Nat) : Fld := ⟨0x6114 + 0x80 * i, 30, 1⟩
abbrev FP_DELAY_DELAY (i : Nat) : Fld := ⟨0x6114 + 0x80 * i, 0, 30⟩
abbrev FP_ASYM_V (i : Nat) : Fld := ⟨0x6118 + 0x80 * i, 0, 32⟩
abbrev FP_FEC_CORR_V (i : Nat) : Fld := ⟨0x611C + 0x80 * i, 0, 32⟩
abbrev FP_FEC_UNC_V (i : Nat) : Fld := ⟨0x6120 + 0x80 * i, 0, 32⟩
abbrev FP_CRC_ERR_V (i : Nat) : Fld := ⟨0x6124 + 0x80 * i, 0, 32⟩
abbrev FP_RETRY_V (i : Nat) : Fld := ⟨0x6128 + 0x80 * i, 0, 32⟩
abbrev FP_LINKDN_V (i : Nat) : Fld := ⟨0x612C + 0x80 * i, 0, 32⟩
abbrev FP_GCM_FAIL_V (i : Nat) : Fld := ⟨0x6130 + 0x80 * i, 0, 32⟩
abbrev FP_HELLO_LOSS_V (i : Nat) : Fld := ⟨0x6134 + 0x80 * i, 0, 32⟩
abbrev FP_EVT_FEC_UNC (i : Nat) : Fld := ⟨0x6138 + 0x80 * i, 5, 1⟩
abbrev FP_EVT_ADDR (i : Nat) : Fld := ⟨0x6138 + 0x80 * i, 4, 1⟩
abbrev FP_EVT_FENCED (i : Nat) : Fld := ⟨0x6138 + 0x80 * i, 3, 1⟩
abbrev FP_EVT_REFUSED (i : Nat) : Fld := ⟨0x6138 + 0x80 * i, 2, 1⟩
abbrev FP_EVT_DEPART (i : Nat) : Fld := ⟨0x6138 + 0x80 * i, 1, 1⟩
abbrev FP_EVT_ARRIVE (i : Nat) : Fld := ⟨0x6138 + 0x80 * i, 0, 1⟩
abbrev FP_EVT_EN_FEC_UNC (i : Nat) : Fld := ⟨0x613C + 0x80 * i, 5, 1⟩
abbrev FP_EVT_EN_ADDR (i : Nat) : Fld := ⟨0x613C + 0x80 * i, 4, 1⟩
abbrev FP_EVT_EN_FENCED (i : Nat) : Fld := ⟨0x613C + 0x80 * i, 3, 1⟩
abbrev FP_EVT_EN_REFUSED (i : Nat) : Fld := ⟨0x613C + 0x80 * i, 2, 1⟩
abbrev FP_EVT_EN_DEPART (i : Nat) : Fld := ⟨0x613C + 0x80 * i, 1, 1⟩
abbrev FP_EVT_EN_ARRIVE (i : Nat) : Fld := ⟨0x613C + 0x80 * i, 0, 1⟩
abbrev TR_CTRL_VL0_EN : Fld := ⟨0x6800, 31, 1⟩
abbrev TR_CTRL_WHISTLE_EN : Fld := ⟨0x6800, 30, 1⟩
abbrev TR_STAT_SCHED : Fld := ⟨0x6804, 31, 1⟩
abbrev TR_STAT_N : Fld := ⟨0x6804, 0, 13⟩
abbrev SCHED_GEN_V : Fld := ⟨0x6808, 0, 32⟩
abbrev FR_CTRL_WINDOW : Fld := ⟨0x680C, 16, 16⟩
abbrev FR_CTRL_HOPSTEP : Fld := ⟨0x680C, 8, 8⟩
abbrev FR_SINK_V : Fld := ⟨0x6810, 0, 16⟩
abbrev FR_STAT_V : Fld := ⟨0x6814, 0, 9⟩
abbrev PACK_EVT_PERIOD : Fld := ⟨0x6818, 7, 1⟩
abbrev PACK_EVT_WHISTLE_LATE : Fld := ⟨0x6818, 6, 1⟩
abbrev PACK_EVT_FR_OVERFLOW : Fld := ⟨0x6818, 5, 1⟩
abbrev PACK_EVT_STRAY : Fld := ⟨0x6818, 4, 1⟩
abbrev PACK_EVT_QMSG_DROP : Fld := ⟨0x6818, 3, 1⟩
abbrev PACK_EVT_NOROUTE : Fld := ⟨0x6818, 2, 1⟩
abbrev PACK_EVT_VL0_LOSS : Fld := ⟨0x6818, 1, 1⟩
abbrev PACK_EVT_TOKEN_MISS : Fld := ⟨0x6818, 0, 1⟩
abbrev PACK_EVT_EN_PERIOD : Fld := ⟨0x681C, 7, 1⟩
abbrev PACK_EVT_EN_WHISTLE_LATE : Fld := ⟨0x681C, 6, 1⟩
abbrev PACK_EVT_EN_FR_OVERFLOW : Fld := ⟨0x681C, 5, 1⟩
abbrev PACK_EVT_EN_STRAY : Fld := ⟨0x681C, 4, 1⟩
abbrev PACK_EVT_EN_QMSG_DROP : Fld := ⟨0x681C, 3, 1⟩
abbrev PACK_EVT_EN_NOROUTE : Fld := ⟨0x681C, 2, 1⟩
abbrev PACK_EVT_EN_VL0_LOSS : Fld := ⟨0x681C, 1, 1⟩
abbrev PACK_EVT_EN_TOKEN_MISS : Fld := ⟨0x681C, 0, 1⟩
abbrev VL0_LATE_V : Fld := ⟨0x6820, 0, 32⟩
abbrev VL0_STALE_V : Fld := ⟨0x6824, 0, 32⟩
abbrev VL0_NOSCHED_V : Fld := ⟨0x6828, 0, 32⟩
abbrev DROP_NOROUTE_V : Fld := ⟨0x682C, 0, 32⟩
abbrev DROP_TTL_V : Fld := ⟨0x6830, 0, 32⟩
abbrev TOKEN_MISS_V : Fld := ⟨0x6834, 0, 32⟩
abbrev STRAY_STREAM_V : Fld := ⟨0x6838, 0, 32⟩
abbrev QMSG_DROP_V : Fld := ⟨0x683C, 0, 32⟩
abbrev FR_LATE_V : Fld := ⟨0x6840, 0, 32⟩
abbrev FR_OVERFLOW_V : Fld := ⟨0x6844, 0, 32⟩
abbrev WHISTLE_LATE_V : Fld := ⟨0x6848, 0, 32⟩
abbrev FTYPE_ERR_V : Fld := ⟨0x684C, 0, 32⟩
abbrev TX_VL0_V (i : Nat) : Fld := ⟨0x6C00 + 0x20 * i, 0, 32⟩
abbrev RX_VL0_V (i : Nat) : Fld := ⟨0x6C04 + 0x20 * i, 0, 32⟩
abbrev TX_BE_V (i : Nat) : Fld := ⟨0x6C08 + 0x20 * i, 0, 32⟩
abbrev RX_BE_V (i : Nat) : Fld := ⟨0x6C0C + 0x20 * i, 0, 32⟩
abbrev CRED_WAIT_V (i : Nat) : Fld := ⟨0x6C10 + 0x20 * i, 0, 32⟩
abbrev VL0_BUSY_TOG (i : Nat) : Fld := ⟨0x6C14 + 0x20 * i, 31, 1⟩
abbrev VL0_BUSY_VL0 (i : Nat) : Fld := ⟨0x6C14 + 0x20 * i, 0, 24⟩
abbrev VL0_STOMP_V (i : Nat) : Fld := ⟨0x6C18 + 0x20 * i, 0, 32⟩
abbrev J_STAT_STATE : Fld := ⟨0x7000, 28, 4⟩
abbrev J_STAT_RING : Fld := ⟨0x7000, 27, 1⟩
abbrev J_STAT_SEAL_STALL : Fld := ⟨0x7000, 26, 1⟩
abbrev J_STAT_PF_PIN : Fld := ⟨0x7000, 25, 1⟩
abbrev J_STAT_EW_ACTIVE : Fld := ⟨0x7000, 24, 1⟩
abbrev J_STAT_NS_USE : Fld := ⟨0x7000, 20, 4⟩
abbrev J_STAT_NS_LOST : Fld := ⟨0x7000, 16, 4⟩
abbrev J_CFG_JBEATS : Fld := ⟨0x7004, 16, 13⟩
abbrev SEAL_IVL_V : Fld := ⟨0x7008, 0, 32⟩
abbrev HOLDUP_V : Fld := ⟨0x700C, 0, 32⟩
abbrev RATE_G_V : Fld := ⟨0x7010, 0, 32⟩
abbrev BUF_CEIL_V : Fld := ⟨0x7014, 0, 16⟩
abbrev BUF_USED_TOG : Fld := ⟨0x7018, 31, 1⟩
abbrev BUF_USED_V : Fld := ⟨0x7018, 0, 16⟩
abbrev HEAD_LO_V : Fld := ⟨0x701C, 0, 32⟩
abbrev HEAD_HI_V : Fld := ⟨0x7020, 0, 32⟩
abbrev SEALED_LO_V : Fld := ⟨0x7024, 0, 32⟩
abbrev SEALED_HI_V : Fld := ⟨0x7028, 0, 32⟩
abbrev FREE_SEG_V : Fld := ⟨0x702C, 0, 18⟩
abbrev J_EVT_PF : Fld := ⟨0x7030, 7, 1⟩
abbrev J_EVT_FULL : Fld := ⟨0x7030, 6, 1⟩
abbrev J_EVT_NS_LOST : Fld := ⟨0x7030, 5, 1⟩
abbrev J_EVT_SEAL_STALL : Fld := ⟨0x7030, 4, 1⟩
abbrev J_EVT_DROP : Fld := ⟨0x7030, 3, 1⟩
abbrev J_EVT_EW_DONE : Fld := ⟨0x7030, 2, 1⟩
abbrev J_EVT_COMPACT : Fld := ⟨0x7030, 1, 1⟩
abbrev J_EVT_STATE : Fld := ⟨0x7030, 0, 1⟩
abbrev J_EVT_EN_PF : Fld := ⟨0x7034, 7, 1⟩
abbrev J_EVT_EN_FULL : Fld := ⟨0x7034, 6, 1⟩
abbrev J_EVT_EN_NS_LOST : Fld := ⟨0x7034, 5, 1⟩
abbrev J_EVT_EN_SEAL_STALL : Fld := ⟨0x7034, 4, 1⟩
abbrev J_EVT_EN_DROP : Fld := ⟨0x7034, 3, 1⟩
abbrev J_EVT_EN_EW_DONE : Fld := ⟨0x7034, 2, 1⟩
abbrev J_EVT_EN_COMPACT : Fld := ⟨0x7034, 1, 1⟩
abbrev J_EVT_EN_STATE : Fld := ⟨0x7034, 0, 1⟩
abbrev DROP_BULK_V : Fld := ⟨0x7038, 0, 32⟩
abbrev DROP_ESS_V : Fld := ⟨0x703C, 0, 32⟩
abbrev SEAL_SKIP_V : Fld := ⟨0x7040, 0, 32⟩
abbrev PF_REFUSED_V : Fld := ⟨0x7044, 0, 32⟩
abbrev EW_LOST_V : Fld := ⟨0x7048, 0, 32⟩
abbrev REC_DISCARD_V : Fld := ⟨0x704C, 0, 32⟩
abbrev S_STAT_LINK (i : Nat) : Fld := ⟨0x7100 + 0x40 * i, 29, 3⟩
abbrev S_STAT_WIDTH (i : Nat) : Fld := ⟨0x7100 + 0x40 * i, 27, 2⟩
abbrev S_STAT_READY (i : Nat) : Fld := ⟨0x7100 + 0x40 * i, 26, 1⟩
abbrev S_STAT_VWC (i : Nat) : Fld := ⟨0x7100 + 0x40 * i, 25, 1⟩
abbrev S_STAT_NSSTATE (i : Nat) : Fld := ⟨0x7100 + 0x40 * i, 23, 2⟩
abbrev S_STAT_NSIDX (i : Nat) : Fld := ⟨0x7100 + 0x40 * i, 21, 2⟩
abbrev S_RATE_V (i : Nat) : Fld := ⟨0x7104 + 0x40 * i, 0, 32⟩
abbrev S_WERR_V (i : Nat) : Fld := ⟨0x7108 + 0x40 * i, 0, 32⟩
abbrev S_RERR_V (i : Nat) : Fld := ⟨0x710C + 0x40 * i, 0, 32⟩
abbrev S_TMO_V (i : Nat) : Fld := ⟨0x7110 + 0x40 * i, 0, 32⟩
abbrev S_EVT_LOST (i : Nat) : Fld := ⟨0x7114 + 0x40 * i, 4, 1⟩
abbrev S_EVT_TIMEOUT (i : Nat) : Fld := ⟨0x7114 + 0x40 * i, 3, 1⟩
abbrev S_EVT_WERR (i : Nat) : Fld := ⟨0x7114 + 0x40 * i, 2, 1⟩
abbrev S_EVT_LINKDN (i : Nat) : Fld := ⟨0x7114 + 0x40 * i, 1, 1⟩
abbrev S_EVT_LINKUP (i : Nat) : Fld := ⟨0x7114 + 0x40 * i, 0, 1⟩
abbrev S_EVT_EN_LOST (i : Nat) : Fld := ⟨0x7118 + 0x40 * i, 4, 1⟩
abbrev S_EVT_EN_TIMEOUT (i : Nat) : Fld := ⟨0x7118 + 0x40 * i, 3, 1⟩
abbrev S_EVT_EN_WERR (i : Nat) : Fld := ⟨0x7118 + 0x40 * i, 2, 1⟩
abbrev S_EVT_EN_LINKDN (i : Nat) : Fld := ⟨0x7118 + 0x40 * i, 1, 1⟩
abbrev S_EVT_EN_LINKUP (i : Nat) : Fld := ⟨0x7118 + 0x40 * i, 0, 1⟩
abbrev KN_STAT_STATE : Fld := ⟨0x8000, 28, 4⟩
abbrev KN_STAT_ZPIN : Fld := ⟨0x8000, 27, 1⟩
abbrev KN_STAT_ZBUSY : Fld := ⟨0x8000, 26, 1⟩
abbrev KN_STAT_SEAL : Fld := ⟨0x8000, 25, 1⟩
abbrev KN_STAT_JOIN : Fld := ⟨0x8000, 24, 1⟩
abbrev KN_STAT_TESTED : Fld := ⟨0x8000, 23, 1⟩
abbrev KN_STAT_SESSIONS : Fld := ⟨0x8000, 8, 8⟩
abbrev KN_ERR_CAUSE : Fld := ⟨0x8004, 24, 8⟩
abbrev KN_ERR_DETAIL : Fld := ⟨0x8004, 0, 24⟩
abbrev KN_EVT_LOCKUP : Fld := ⟨0x8008, 5, 1⟩
abbrev KN_EVT_AUTHFAIL : Fld := ⟨0x8008, 4, 1⟩
abbrev KN_EVT_TAMPER : Fld := ⟨0x8008, 3, 1⟩
abbrev KN_EVT_ZEROIZED : Fld := ⟨0x8008, 2, 1⟩
abbrev KN_EVT_ERROR : Fld := ⟨0x8008, 1, 1⟩
abbrev KN_EVT_STATE : Fld := ⟨0x8008, 0, 1⟩
abbrev KN_EVT_EN_LOCKUP : Fld := ⟨0x800C, 5, 1⟩
abbrev KN_EVT_EN_AUTHFAIL : Fld := ⟨0x800C, 4, 1⟩
abbrev KN_EVT_EN_TAMPER : Fld := ⟨0x800C, 3, 1⟩
abbrev KN_EVT_EN_ZEROIZED : Fld := ⟨0x800C, 2, 1⟩
abbrev KN_EVT_EN_ERROR : Fld := ⟨0x800C, 1, 1⟩
abbrev KN_EVT_EN_STATE : Fld := ⟨0x800C, 0, 1⟩
abbrev KN_VER_MAJOR : Fld := ⟨0x8010, 24, 8⟩
abbrev KN_VER_MINOR : Fld := ⟨0x8010, 16, 8⟩
abbrev KN_VER_BUILD : Fld := ⟨0x8010, 0, 16⟩
abbrev KN_PED_SLOT : Fld := ⟨0x8014, 4, 4⟩
abbrev KN_PED_SLOTS_LEFT : Fld := ⟨0x8014, 0, 4⟩
abbrev KN_KEYID_LO_V : Fld := ⟨0x8018, 0, 32⟩
abbrev KN_KEYID_HI_V : Fld := ⟨0x801C, 0, 32⟩
abbrev KN_AUTHFAIL_V : Fld := ⟨0x8020, 0, 16⟩
abbrev KN_ESFAIL_V : Fld := ⟨0x8024, 0, 16⟩
abbrev MB_CTRL_EN (i : Nat) : Fld := ⟨0x400 + 0x40 * i, 31, 1⟩
abbrev MB_CTRL_RESET (i : Nat) : Fld := ⟨0x400 + 0x40 * i, 30, 1⟩
abbrev MB_CTRL_CMD_LOG2 (i : Nat) : Fld := ⟨0x400 + 0x40 * i, 12, 4⟩
abbrev MB_CTRL_CPL_LOG2 (i : Nat) : Fld := ⟨0x400 + 0x40 * i, 8, 4⟩
abbrev MB_CMD_LO_V (i : Nat) : Fld := ⟨0x404 + 0x40 * i, 7, 25⟩
abbrev MB_CMD_HI_V (i : Nat) : Fld := ⟨0x408 + 0x40 * i, 0, 32⟩
abbrev MB_CPL_LO_V (i : Nat) : Fld := ⟨0x40C + 0x40 * i, 6, 26⟩
abbrev MB_CPL_HI_V (i : Nat) : Fld := ⟨0x410 + 0x40 * i, 0, 32⟩
abbrev MB_DB_TAIL (i : Nat) : Fld := ⟨0x414 + 0x40 * i, 0, 12⟩
abbrev MB_CPL_HEAD_V (i : Nat) : Fld := ⟨0x418 + 0x40 * i, 0, 12⟩
abbrev MB_STAT_STATE (i : Nat) : Fld := ⟨0x41C + 0x40 * i, 29, 3⟩
abbrev MB_STAT_ERR (i : Nat) : Fld := ⟨0x41C + 0x40 * i, 24, 5⟩
abbrev MB_STAT_CHEAD (i : Nat) : Fld := ⟨0x41C + 0x40 * i, 12, 12⟩
abbrev MB_STAT_CTAIL (i : Nat) : Fld := ⟨0x41C + 0x40 * i, 0, 12⟩
abbrev MB_EVT_HALT (i : Nat) : Fld := ⟨0x420 + 0x40 * i, 2, 1⟩
abbrev MB_EVT_EVENT (i : Nat) : Fld := ⟨0x420 + 0x40 * i, 1, 1⟩
abbrev MB_EVT_CPL (i : Nat) : Fld := ⟨0x420 + 0x40 * i, 0, 1⟩
abbrev MB_EVT_EN_HALT (i : Nat) : Fld := ⟨0x424 + 0x40 * i, 2, 1⟩
abbrev MB_EVT_EN_EVENT (i : Nat) : Fld := ⟨0x424 + 0x40 * i, 1, 1⟩
abbrev MB_EVT_EN_CPL (i : Nat) : Fld := ⟨0x424 + 0x40 * i, 0, 1⟩
abbrev MB_DONE_V (i : Nat) : Fld := ⟨0x428 + 0x40 * i, 0, 32⟩
abbrev MBX_GSTAT_READY : Fld := ⟨0x800, 31, 1⟩
abbrev MBX_GSTAT_EVT_ON : Fld := ⟨0x800, 30, 1⟩
abbrev MBX_GSTAT_EVT_MBX : Fld := ⟨0x800, 16, 4⟩
abbrev BERTIA_VER_MAJOR : Fld := ⟨0x804, 24, 8⟩
abbrev BERTIA_VER_MINOR : Fld := ⟨0x804, 16, 8⟩
abbrev EVT_LOST_V : Fld := ⟨0x808, 0, 32⟩
abbrev HOST_ERR_UNC : Fld := ⟨0x80C, 4, 1⟩
abbrev HOST_ERR_DMA : Fld := ⟨0x80C, 3, 1⟩
abbrev HOST_ERR_WIN : Fld := ⟨0x80C, 2, 1⟩
abbrev HOST_ERR_CTXWR : Fld := ⟨0x80C, 1, 1⟩
abbrev HOST_ERR_SIZE : Fld := ⟨0x80C, 0, 1⟩
abbrev PCIE_EVT_AER_UNC : Fld := ⟨0x810, 3, 1⟩
abbrev PCIE_EVT_LINKDN : Fld := ⟨0x810, 2, 1⟩
abbrev PCIE_EVT_HOTRST : Fld := ⟨0x810, 1, 1⟩
abbrev PCIE_EVT_FLR : Fld := ⟨0x810, 0, 1⟩
abbrev PCIE_EVT_EN_AER_UNC : Fld := ⟨0x814, 3, 1⟩
abbrev PCIE_EVT_EN_LINKDN : Fld := ⟨0x814, 2, 1⟩
abbrev PCIE_EVT_EN_HOTRST : Fld := ⟨0x814, 1, 1⟩
abbrev PCIE_EVT_EN_FLR : Fld := ⟨0x814, 0, 1⟩
abbrev SVC_EVT_AUTHFAIL : Fld := ⟨0x818, 3, 1⟩
abbrev SVC_EVT_SESSION : Fld := ⟨0x818, 2, 1⟩
abbrev SVC_EVT_LINKDN : Fld := ⟨0x818, 1, 1⟩
abbrev SVC_EVT_LINKUP : Fld := ⟨0x818, 0, 1⟩
abbrev SVC_EVT_EN_AUTHFAIL : Fld := ⟨0x81C, 3, 1⟩
abbrev SVC_EVT_EN_SESSION : Fld := ⟨0x81C, 2, 1⟩
abbrev SVC_EVT_EN_LINKDN : Fld := ⟨0x81C, 1, 1⟩
abbrev SVC_EVT_EN_LINKUP : Fld := ⟨0x81C, 0, 1⟩
abbrev SVC_STAT_LINK : Fld := ⟨0x820, 31, 1⟩
abbrev SVC_STAT_SPEED : Fld := ⟨0x820, 29, 2⟩
abbrev SVC_STAT_SESS : Fld := ⟨0x820, 0, 4⟩
abbrev SVC_DROP_V : Fld := ⟨0x824, 0, 32⟩
abbrev DDR_EVT_UNC (i : Nat) : Fld := ⟨0x830 + 0x4 * i, 2, 1⟩
abbrev DDR_EVT_CORR (i : Nat) : Fld := ⟨0x830 + 0x4 * i, 1, 1⟩
abbrev DDR_EVT_TRAIN_FAIL (i : Nat) : Fld := ⟨0x830 + 0x4 * i, 0, 1⟩
abbrev DDR_EVT_EN_UNC (i : Nat) : Fld := ⟨0x840 + 0x4 * i, 2, 1⟩
abbrev DDR_EVT_EN_CORR (i : Nat) : Fld := ⟨0x840 + 0x4 * i, 1, 1⟩
abbrev DDR_EVT_EN_TRAIN_FAIL (i : Nat) : Fld := ⟨0x840 + 0x4 * i, 0, 1⟩
abbrev DDR_STAT_STATE (i : Nat) : Fld := ⟨0x850 + 0x4 * i, 30, 2⟩
abbrev DDR_STAT_TYPE (i : Nat) : Fld := ⟨0x850 + 0x4 * i, 28, 2⟩
abbrev DDR_STAT_V (i : Nat) : Fld := ⟨0x850 + 0x4 * i, 0, 16⟩
abbrev DDR_CORR_V (i : Nat) : Fld := ⟨0x860 + 0x4 * i, 0, 32⟩
abbrev BAR2_BASE_LO_V : Fld := ⟨0xC00, 27, 5⟩
abbrev BAR2_BASE_HI_V : Fld := ⟨0xC04, 0, 8⟩
abbrev BAR4_BASE_LO_V : Fld := ⟨0xC08, 1, 31⟩
abbrev BAR4_BASE_HI_V : Fld := ⟨0xC0C, 0, 8⟩
abbrev PWR_STAT_DPL : Fld := ⟨0x3000, 30, 2⟩
abbrev PWR_STAT_ON : Fld := ⟨0x3000, 0, 7⟩
abbrev PWR_EVT_TJ : Fld := ⟨0x3004, 4, 1⟩
abbrev PWR_EVT_SPEED : Fld := ⟨0x3004, 3, 1⟩
abbrev PWR_EVT_CEIL : Fld := ⟨0x3004, 2, 1⟩
abbrev PWR_EVT_REPLACED : Fld := ⟨0x3004, 1, 1⟩
abbrev PWR_EVT_DONE : Fld := ⟨0x3004, 0, 1⟩
abbrev PWR_EVT_EN_TJ : Fld := ⟨0x3008, 4, 1⟩
abbrev PWR_EVT_EN_SPEED : Fld := ⟨0x3008, 3, 1⟩
abbrev PWR_EVT_EN_CEIL : Fld := ⟨0x3008, 2, 1⟩
abbrev PWR_EVT_EN_REPLACED : Fld := ⟨0x3008, 1, 1⟩
abbrev PWR_EVT_EN_DONE : Fld := ⟨0x3008, 0, 1⟩
abbrev PWR_TJ_HOT : Fld := ⟨0x300C, 16, 8⟩
abbrev PWR_TJ_TJ : Fld := ⟨0x300C, 0, 16⟩
abbrev TJ_WARN_V : Fld := ⟨0x3010, 0, 16⟩
abbrev PD_STAT_STATE (i : Nat) : Fld := ⟨0x3100 + 0x4 * i, 30, 2⟩
abbrev PD_STAT_BUSY (i : Nat) : Fld := ⟨0x3100 + 0x4 * i, 29, 1⟩
abbrev PD_STAT_PEND (i : Nat) : Fld := ⟨0x3100 + 0x4 * i, 28, 1⟩
abbrev PD_STAT_PEND_STATE (i : Nat) : Fld := ⟨0x3100 + 0x4 * i, 26, 2⟩
abbrev PD_STAT_WAIT (i : Nat) : Fld := ⟨0x3100 + 0x4 * i, 25, 1⟩
abbrev PD_STAT_LAST_SRC (i : Nat) : Fld := ⟨0x3100 + 0x4 * i, 16, 4⟩
abbrev PD_STAT_TRANS (i : Nat) : Fld := ⟨0x3100 + 0x4 * i, 0, 16⟩
abbrev CL_GOV_PIN (i : Nat) : Fld := ⟨0x3400 + 0x10 * i, 29, 3⟩
abbrev CL_GOV_GROUP (i : Nat) : Fld := ⟨0x3400 + 0x10 * i, 16, 12⟩
abbrev CL_GOV_TARGET (i : Nat) : Fld := ⟨0x3400 + 0x10 * i, 8, 8⟩
abbrev CL_GOV_DB (i : Nat) : Fld := ⟨0x3400 + 0x10 * i, 0, 8⟩
abbrev CL_LIM_CEIL (i : Nat) : Fld := ⟨0x3404 + 0x10 * i, 8, 8⟩
abbrev CL_LIM_FLOOR (i : Nat) : Fld := ⟨0x3404 + 0x10 * i, 0, 8⟩
abbrev CL_VOLT_TOG (i : Nat) : Fld := ⟨0x3408 + 0x10 * i, 31, 1⟩
abbrev CL_VOLT_PINNED (i : Nat) : Fld := ⟨0x3408 + 0x10 * i, 30, 1⟩
abbrev CL_VOLT_AT_FLOOR (i : Nat) : Fld := ⟨0x3408 + 0x10 * i, 29, 1⟩
abbrev CL_VOLT_AT_CEIL (i : Nat) : Fld := ⟨0x3408 + 0x10 * i, 28, 1⟩
abbrev CL_VOLT_RED_FLOOR (i : Nat) : Fld := ⟨0x3408 + 0x10 * i, 27, 1⟩
abbrev CL_VOLT_V (i : Nat) : Fld := ⟨0x3408 + 0x10 * i, 16, 8⟩
abbrev CL_VOLT_S_LAST (i : Nat) : Fld := ⟨0x3408 + 0x10 * i, 8, 8⟩
abbrev CL_BOOST_V (i : Nat) : Fld := ⟨0x340C + 0x10 * i, 0, 16⟩
abbrev WH_CTRL_FREEZE : Fld := ⟨0x2000, 31, 1⟩
abbrev WH_CTRL_PIN_MODE : Fld := ⟨0x2000, 29, 2⟩
abbrev WH_CTRL_CORE_EN : Fld := ⟨0x2000, 28, 1⟩
abbrev WH_STAT_PENDING : Fld := ⟨0x2004, 31, 1⟩
abbrev WH_STAT_BUSY : Fld := ⟨0x2004, 29, 2⟩
abbrev WH_STAT_ARMED : Fld := ⟨0x2004, 24, 5⟩
abbrev WH_STAT_SRC : Fld := ⟨0x2004, 16, 8⟩
abbrev WH_STAT_WORDS : Fld := ⟨0x2004, 0, 16⟩
abbrev WH_FIRE_TAG : Fld := ⟨0x2008, 0, 16⟩
abbrev WH_FAULT_EN_R523 : Fld := ⟨0x200C, 0, 8⟩
abbrev WH_SEQ_V : Fld := ⟨0x2010, 0, 32⟩
abbrev WH_BEAT_LO_V : Fld := ⟨0x2014, 0, 32⟩
abbrev WH_BEAT_HI_TAG : Fld := ⟨0x2018, 16, 16⟩
abbrev WH_BEAT_HI_V : Fld := ⟨0x2018, 0, 16⟩
abbrev WH_MERGED_V : Fld := ⟨0x201C, 0, 32⟩
abbrev WH_SKIP_V : Fld := ⟨0x2020, 0, 32⟩
abbrev WH_MISSED_V : Fld := ⟨0x2024, 0, 32⟩
abbrev WH_PAGE_V : Fld := ⟨0x2028, 0, 4⟩
abbrev WH_EVT_MISSED : Fld := ⟨0x202C, 2, 1⟩
abbrev WH_EVT_DEFERRED : Fld := ⟨0x202C, 1, 1⟩
abbrev WH_EVT_LATCHED : Fld := ⟨0x202C, 0, 1⟩
abbrev WH_EVT_EN_MISSED : Fld := ⟨0x2030, 2, 1⟩
abbrev WH_EVT_EN_DEFERRED : Fld := ⟨0x2030, 1, 1⟩
abbrev WH_EVT_EN_LATCHED : Fld := ⟨0x2030, 0, 1⟩
abbrev WH_WIN_V (i : Nat) : Fld := ⟨0x2800 + 0x4 * i, 0, 32⟩
abbrev RST_CTRL_KEY : Fld := ⟨0x9000, 16, 16⟩
abbrev RST_CTRL_KENNEL : Fld := ⟨0x9000, 2, 1⟩
abbrev RST_CTRL_STEWARD : Fld := ⟨0x9000, 1, 1⟩
abbrev RST_CTRL_DEVICE : Fld := ⟨0x9000, 0, 1⟩
abbrev RST_CAUSE_HOT : Fld := ⟨0x9004, 8, 1⟩
abbrev RST_CAUSE_FLR : Fld := ⟨0x9004, 7, 1⟩
abbrev RST_CAUSE_KEN_LOCK : Fld := ⟨0x9004, 6, 1⟩
abbrev RST_CAUSE_STEW_LOCK : Fld := ⟨0x9004, 5, 1⟩
abbrev RST_CAUSE_STEW_WDT : Fld := ⟨0x9004, 4, 1⟩
abbrev RST_CAUSE_STEW_SW : Fld := ⟨0x9004, 3, 1⟩
abbrev RST_CAUSE_DEV_SW : Fld := ⟨0x9004, 2, 1⟩
abbrev RST_CAUSE_PIN : Fld := ⟨0x9004, 1, 1⟩
abbrev RST_CAUSE_POR : Fld := ⟨0x9004, 0, 1⟩
abbrev BOOT_STAT_MODE : Fld := ⟨0x9008, 30, 2⟩
abbrev BOOT_STAT_PHASE : Fld := ⟨0x9008, 27, 3⟩
abbrev BOOT_STAT_SLOT : Fld := ⟨0x9008, 25, 2⟩
abbrev BOOT_STAT_TRIAL : Fld := ⟨0x9008, 24, 1⟩
abbrev BOOT_STAT_FALLBACK : Fld := ⟨0x9008, 23, 1⟩
abbrev BOOT_STAT_LOCKUP : Fld := ⟨0x9008, 22, 1⟩
abbrev BOOT_STAT_BRINGUP : Fld := ⟨0x9008, 21, 1⟩
abbrev BOOT_STAT_SVN : Fld := ⟨0x9008, 8, 8⟩
abbrev BOOT_STAT_ERR : Fld := ⟨0x9008, 0, 8⟩
abbrev FW_VER_V : Fld := ⟨0x900C, 0, 32⟩
abbrev BOOT_TIME_READY : Fld := ⟨0x9010, 0, 16⟩
abbrev STEW_WDT_EN : Fld := ⟨0x9014, 31, 1⟩
abbrev STEW_WDT_KICK : Fld := ⟨0x9014, 30, 1⟩
abbrev STEW_WDT_TIMEOUT : Fld := ⟨0x9014, 0, 16⟩
abbrev LOCKUP_CTRL_AUTO : Fld := ⟨0x9018, 31, 1⟩
abbrev LOCKUP_CTRL_DELAY : Fld := ⟨0x9018, 0, 16⟩
abbrev BOOT_SLOTS_B : Fld := ⟨0x901C, 8, 8⟩
abbrev BOOT_SLOTS_A : Fld := ⟨0x901C, 0, 8⟩

end R

/-- Register rows at h:0x0000, part 1. -/
def rows0a : List RegRow := [
  ⟨0x0, 0x0, 1, 0x2B1D9640, [⟨16, 16, .ro⟩, ⟨0, 16, .ro⟩]⟩,
  ⟨0x4, 0x0, 1, 0x101, [⟨8, 8, .ro⟩, ⟨0, 8, .ro⟩]⟩,
  ⟨0x8, 0x0, 1, 0x40101008, [⟨24, 8, .ro⟩, ⟨16, 8, .ro⟩, ⟨8, 8, .ro⟩, ⟨0, 8, .ro⟩]⟩,
  ⟨0xC, 0x0, 1, 0x441210, [⟨20, 4, .ro⟩, ⟨16, 4, .ro⟩, ⟨8, 8, .ro⟩, ⟨0, 8, .ro⟩]⟩,
  ⟨0x400, 0x40, 16, 0x0, [⟨31, 1, .rw⟩, ⟨30, 1, .w1s⟩, ⟨12, 4, .rw⟩, ⟨8, 4, .rw⟩]⟩,
  ⟨0x404, 0x40, 16, 0x0, [⟨7, 25, .rw⟩]⟩,
  ⟨0x408, 0x40, 16, 0x0, [⟨0, 32, .rw⟩]⟩,
  ⟨0x40C, 0x40, 16, 0x0, [⟨6, 26, .rw⟩]⟩,
  ⟨0x410, 0x40, 16, 0x0, [⟨0, 32, .rw⟩]⟩,
  ⟨0x414, 0x40, 16, 0x0, [⟨0, 12, .rw⟩]⟩,
  ⟨0x418, 0x40, 16, 0x0, [⟨0, 12, .rw⟩]⟩,
  ⟨0x41C, 0x40, 16, 0x0, [⟨29, 3, .ro⟩, ⟨24, 5, .ro⟩, ⟨12, 12, .ro⟩, ⟨0, 12, .ro⟩]⟩,
  ⟨0x420, 0x40, 16, 0x0, [⟨2, 1, .w1c⟩, ⟨1, 1, .w1c⟩, ⟨0, 1, .w1c⟩]⟩,
  ⟨0x424, 0x40, 16, 0x0, [⟨2, 1, .rw⟩, ⟨1, 1, .rw⟩, ⟨0, 1, .rw⟩]⟩,
  ⟨0x428, 0x40, 16, 0x0, [⟨0, 32, .rc⟩]⟩,
  ⟨0x800, 0x0, 1, 0x0, [⟨31, 1, .ro⟩, ⟨30, 1, .ro⟩, ⟨16, 4, .ro⟩]⟩,
  ⟨0x804, 0x0, 1, 0x0, [⟨24, 8, .ro⟩, ⟨16, 8, .ro⟩]⟩,
  ⟨0x808, 0x0, 1, 0x0, [⟨0, 32, .rc⟩]⟩,
  ⟨0x80C, 0x0, 1, 0x0, [⟨4, 1, .w1c⟩, ⟨3, 1, .w1c⟩, ⟨2, 1, .w1c⟩, ⟨1, 1, .w1c⟩, ⟨0, 1, .w1c⟩]⟩,
  ⟨0x810, 0x0, 1, 0x0, [⟨3, 1, .w1c⟩, ⟨2, 1, .w1c⟩, ⟨1, 1, .w1c⟩, ⟨0, 1, .w1c⟩]⟩,
  ⟨0x814, 0x0, 1, 0x0, [⟨3, 1, .rw⟩, ⟨2, 1, .rw⟩, ⟨1, 1, .rw⟩, ⟨0, 1, .rw⟩]⟩,
  ⟨0x818, 0x0, 1, 0x0, [⟨3, 1, .w1c⟩, ⟨2, 1, .w1c⟩, ⟨1, 1, .w1c⟩, ⟨0, 1, .w1c⟩]⟩,
  ⟨0x81C, 0x0, 1, 0x0, [⟨3, 1, .rw⟩, ⟨2, 1, .rw⟩, ⟨1, 1, .rw⟩, ⟨0, 1, .rw⟩]⟩,
  ⟨0x820, 0x0, 1, 0x0, [⟨31, 1, .ro⟩, ⟨29, 2, .ro⟩, ⟨0, 4, .ro⟩]⟩,
  ⟨0x824, 0x0, 1, 0x0, [⟨0, 32, .rc⟩]⟩]

/-- Register rows at h:0x0000, part 2. -/
def rows0b : List RegRow := [
  ⟨0x830, 0x4, 4, 0x0, [⟨2, 1, .w1c⟩, ⟨1, 1, .w1c⟩, ⟨0, 1, .w1c⟩]⟩,
  ⟨0x840, 0x4, 4, 0x0, [⟨2, 1, .rw⟩, ⟨1, 1, .rw⟩, ⟨0, 1, .rw⟩]⟩,
  ⟨0x850, 0x4, 4, 0x0, [⟨30, 2, .ro⟩, ⟨28, 2, .ro⟩, ⟨0, 16, .ro⟩]⟩,
  ⟨0x860, 0x4, 4, 0x0, [⟨0, 32, .rc⟩]⟩,
  ⟨0xC00, 0x0, 1, 0x40000000, [⟨27, 5, .rw⟩]⟩,
  ⟨0xC04, 0x0, 1, 0x0, [⟨0, 8, .rw⟩]⟩,
  ⟨0xC08, 0x0, 1, 0x50000000, [⟨1, 31, .rw⟩]⟩,
  ⟨0xC0C, 0x0, 1, 0x0, [⟨0, 8, .rw⟩]⟩]

/-- Register rows at h:0x4000, part 1. -/
def rows4a : List RegRow := [
  ⟨0x4000, 0x0, 1, 0x0, [⟨31, 1, .rw⟩, ⟨30, 1, .rw⟩, ⟨24, 4, .rw⟩]⟩,
  ⟨0x4004, 0x0, 1, 0x0, [⟨30, 2, .ro⟩, ⟨29, 1, .ro⟩, ⟨28, 1, .ro⟩, ⟨24, 4, .ro⟩, ⟨20, 4, .ro⟩, ⟨19, 1, .ro⟩, ⟨18, 1, .ro⟩, ⟨0, 16, .ro⟩]⟩,
  ⟨0x4008, 0x0, 1, 0xF4240, [⟨0, 32, .stg⟩]⟩,
  ⟨0x400C, 0x0, 1, 0x0, [⟨0, 32, .stg⟩]⟩,
  ⟨0x4010, 0x0, 1, 0xF4240, [⟨0, 32, .ro⟩]⟩,
  ⟨0x4014, 0x0, 1, 0x0, [⟨0, 32, .ro⟩]⟩,
  ⟨0x4018, 0x0, 1, 0x3E8, [⟨0, 24, .stg⟩]⟩,
  ⟨0x401C, 0x0, 1, 0x100001, [⟨31, 1, .stg⟩, ⟨30, 1, .stg⟩, ⟨16, 14, .stg⟩, ⟨0, 16, .stg⟩]⟩,
  ⟨0x4020, 0x0, 1, 0x1, [⟨0, 16, .stg⟩]⟩,
  ⟨0x4024, 0x0, 1, 0x0, [⟨0, 32, .rw⟩]⟩,
  ⟨0x4028, 0x0, 1, 0x0, [⟨0, 16, .rw⟩]⟩,
  ⟨0x4030, 0x0, 1, 0x0, [⟨2, 1, .wo⟩, ⟨1, 1, .wo⟩, ⟨0, 1, .wo⟩]⟩,
  ⟨0x4034, 0x0, 1, 0x0, [⟨31, 1, .ro⟩, ⟨30, 1, .w1c⟩, ⟨29, 1, .w1c⟩, ⟨28, 1, .w1c⟩, ⟨27, 1, .ro⟩, ⟨16, 8, .ro⟩, ⟨0, 16, .ro⟩]⟩,
  ⟨0x4038, 0x0, 1, 0x0, [⟨0, 32, .rw⟩]⟩,
  ⟨0x403C, 0x0, 1, 0x0, [⟨0, 16, .rw⟩]⟩,
  ⟨0x4040, 0x0, 1, 0x0, [⟨0, 32, .ro⟩]⟩,
  ⟨0x4044, 0x0, 1, 0x0, [⟨0, 16, .ro⟩]⟩,
  ⟨0x4050, 0x0, 1, 0x0, [⟨31, 1, .ro⟩, ⟨1, 1, .rw⟩, ⟨0, 1, .w1s⟩]⟩,
  ⟨0x4054, 0x0, 1, 0x0, [⟨0, 24, .ro⟩]⟩,
  ⟨0x4058, 0x0, 1, 0x0, [⟨0, 32, .ro⟩]⟩,
  ⟨0x405C, 0x0, 1, 0x0, [⟨0, 24, .ro⟩]⟩,
  ⟨0x4060, 0x0, 1, 0x0, [⟨0, 32, .ro⟩]⟩,
  ⟨0x4064, 0x0, 1, 0x0, [⟨0, 16, .ro⟩]⟩,
  ⟨0x4068, 0x0, 1, 0x0, [⟨0, 32, .ro⟩]⟩,
  ⟨0x406C, 0x0, 1, 0x0, [⟨0, 16, .ro⟩]⟩]

/-- Register rows at h:0x4000, part 2. -/
def rows4b : List RegRow := [
  ⟨0x4070, 0x0, 1, 0x0, [⟨0, 30, .ro⟩]⟩,
  ⟨0x4074, 0x0, 1, 0x25, [⟨0, 16, .ro⟩]⟩,
  ⟨0x4078, 0x0, 1, 0xA0D4807, [⟨24, 8, .rw⟩, ⟨16, 8, .rw⟩, ⟨12, 4, .rw⟩, ⟨8, 4, .rw⟩, ⟨0, 8, .rw⟩]⟩,
  ⟨0x407C, 0x0, 1, 0x0, [⟨0, 32, .ro⟩]⟩,
  ⟨0x4080, 0x0, 1, 0x0, [⟨0, 32, .ro⟩]⟩,
  ⟨0x4084, 0x0, 1, 0x0, [⟨31, 1, .rw⟩, ⟨30, 1, .rw⟩, ⟨0, 24, .rw⟩]⟩,
  ⟨0x4088, 0x0, 1, 0x0, [⟨30, 2, .rw⟩, ⟨29, 1, .rw⟩, ⟨28, 1, .rw⟩, ⟨0, 16, .rw⟩]⟩,
  ⟨0x408C, 0x0, 1, 0x0, [⟨16, 16, .rc⟩, ⟨15, 1, .ro⟩, ⟨14, 1, .ro⟩]⟩,
  ⟨0x4098, 0x0, 1, 0x407D0, [⟨16, 16, .rw⟩, ⟨0, 16, .rw⟩]⟩,
  ⟨0x409C, 0x0, 1, 0x0, [⟨31, 1, .ro⟩, ⟨0, 31, .ro⟩]⟩,
  ⟨0x40A0, 0x0, 1, 0x0, [⟨0, 32, .ro⟩]⟩,
  ⟨0x40A4, 0x0, 1, 0x0, [⟨7, 1, .w1c⟩, ⟨6, 1, .w1c⟩, ⟨5, 1, .w1c⟩, ⟨4, 1, .w1c⟩, ⟨3, 1, .w1c⟩, ⟨2, 1, .w1c⟩, ⟨1, 1, .w1c⟩, ⟨0, 1, .w1c⟩]⟩,
  ⟨0x40A8, 0x0, 1, 0x0, [⟨7, 1, .rw⟩, ⟨6, 1, .rw⟩, ⟨5, 1, .rw⟩, ⟨4, 1, .rw⟩, ⟨3, 1, .rw⟩, ⟨2, 1, .rw⟩, ⟨1, 1, .rw⟩, ⟨0, 1, .rw⟩]⟩,
  ⟨0x40B0, 0x0, 1, 0x0, [⟨0, 32, .w1c⟩]⟩,
  ⟨0x40B4, 0x0, 1, 0x0, [⟨0, 32, .w1c⟩]⟩,
  ⟨0x4800, 0x10, 64, 0x0, [⟨31, 1, .ro⟩, ⟨30, 1, .ro⟩, ⟨29, 1, .ro⟩, ⟨0, 25, .ro⟩]⟩,
  ⟨0x4804, 0x10, 64, 0xFFFFFF, [⟨0, 25, .rc⟩]⟩,
  ⟨0x4808, 0x10, 64, 0x0, [⟨0, 16, .rc⟩]⟩,
  ⟨0x480C, 0x10, 64, 0x0, [⟨0, 32, .ro⟩]⟩]

/-- Register rows at h:0x5000, part 1. -/
def rows5a : List RegRow := [
  ⟨0x5000, 0x0, 1, 0x40, [⟨31, 1, .w1s⟩, ⟨30, 1, .w1s⟩, ⟨0, 24, .rw⟩]⟩,
  ⟨0x5004, 0x0, 1, 0x0, [⟨31, 1, .ro⟩, ⟨30, 1, .ro⟩, ⟨29, 1, .ro⟩, ⟨0, 16, .rc⟩]⟩,
  ⟨0x5008, 0x0, 1, 0x0, [⟨0, 16, .ro⟩]⟩,
  ⟨0x5100, 0x80, 16, 0x0, [⟨31, 1, .rw⟩, ⟨28, 3, .rw⟩, ⟨27, 1, .rw⟩, ⟨26, 1, .w1s⟩, ⟨25, 1, .rw⟩]⟩,
  ⟨0x5104, 0x80, 16, 0x0, [⟨29, 3, .ro⟩, ⟨27, 2, .ro⟩, ⟨26, 1, .ro⟩, ⟨25, 1, .ro⟩, ⟨24, 1, .ro⟩, ⟨23, 1, .ro⟩, ⟨16, 4, .ro⟩, ⟨8, 8, .ro⟩, ⟨0, 8, .ro⟩]⟩,
  ⟨0x5108, 0x80, 16, 0x80, [⟨0, 8, .stg⟩]⟩,
  ⟨0x510C, 0x80, 16, 0x0, [⟨31, 1, .ro⟩, ⟨30, 1, .ro⟩, ⟨0, 24, .ro⟩]⟩,
  ⟨0x5110, 0x80, 16, 0x0, [⟨16, 16, .ro⟩, ⟨0, 16, .ro⟩]⟩,
  ⟨0x5114, 0x80, 16, 0x0, [⟨0, 32, .ro⟩]⟩,
  ⟨0x5118, 0x80, 16, 0x0, [⟨0, 32, .ro⟩]⟩,
  ⟨0x511C, 0x80, 16, 0x0, [⟨16, 16, .ro⟩, ⟨0, 16, .ro⟩]⟩,
  ⟨0x5120, 0x80, 16, 0x0, [⟨0, 32, .rc⟩]⟩,
  ⟨0x5124, 0x80, 16, 0x0, [⟨0, 32, .rc⟩]⟩,
  ⟨0x5128, 0x80, 16, 0x0, [⟨0, 32, .rc⟩]⟩,
  ⟨0x512C, 0x80, 16, 0x0, [⟨0, 32, .rc⟩]⟩,
  ⟨0x5130, 0x80, 16, 0x0, [⟨0, 32, .rc⟩]⟩,
  ⟨0x5134, 0x80, 16, 0x0, [⟨0, 32, .rc⟩]⟩,
  ⟨0x5138, 0x80, 16, 0x0, [⟨7, 1, .w1c⟩, ⟨6, 1, .w1c⟩, ⟨5, 1, .w1c⟩, ⟨4, 1, .w1c⟩, ⟨3, 1, .w1c⟩, ⟨2, 1, .w1c⟩, ⟨1, 1, .w1c⟩, ⟨0, 1, .w1c⟩]⟩,
  ⟨0x513C, 0x80, 16, 0x0, [⟨7, 1, .rw⟩, ⟨6, 1, .rw⟩, ⟨5, 1, .rw⟩, ⟨4, 1, .rw⟩, ⟨3, 1, .rw⟩, ⟨2, 1, .rw⟩, ⟨1, 1, .rw⟩, ⟨0, 1, .rw⟩]⟩]

/-- Register rows at h:0x1000, part 1. -/
def rows1a : List RegRow := [
  ⟨0x1000, 0x10, 64, 0x0, [⟨0, 32, .rw⟩]⟩,
  ⟨0x1004, 0x10, 64, 0x0, [⟨0, 32, .rw⟩]⟩,
  ⟨0x1008, 0x10, 64, 0x0, [⟨0, 32, .rw⟩]⟩,
  ⟨0x100C, 0x10, 64, 0x1, [⟨0, 1, .rw⟩]⟩,
  ⟨0x1400, 0x0, 1, 0x0, [⟨0, 32, .ro⟩]⟩,
  ⟨0x1404, 0x0, 1, 0x0, [⟨0, 32, .ro⟩]⟩,
  ⟨0x1500, 0x4, 128, 0x0, [⟨31, 1, .rw⟩, ⟨24, 7, .rw⟩, ⟨16, 7, .rw⟩, ⟨15, 1, .rw⟩, ⟨14, 1, .ro⟩, ⟨13, 1, .ro⟩, ⟨0, 6, .rw⟩]⟩,
  ⟨0x1700, 0x4, 4, 0x0, [⟨0, 32, .ro⟩]⟩,
  ⟨0x1710, 0x4, 4, 0x0, [⟨0, 32, .w1c⟩]⟩,
  ⟨0x1800, 0x4, 64, 0x0, [⟨31, 1, .rw⟩, ⟨24, 7, .rw⟩, ⟨0, 7, .rw⟩]⟩,
  ⟨0x1900, 0x0, 1, 0x0, [⟨31, 1, .ro⟩, ⟨24, 7, .ro⟩, ⟨18, 6, .ro⟩, ⟨0, 7, .ro⟩]⟩,
  ⟨0x1904, 0x0, 1, 0x0, [⟨0, 32, .ro⟩]⟩,
  ⟨0x1908, 0x0, 1, 0x0, [⟨0, 16, .ro⟩]⟩,
  ⟨0x190C, 0x0, 1, 0x0, [⟨0, 16, .rc⟩]⟩]

/-- Register rows at h:0x6000, part 1. -/
def rows6a : List RegRow := [
  ⟨0x6000, 0x0, 1, 0x800000, [⟨30, 1, .rw⟩, ⟨29, 1, .rw⟩, ⟨16, 8, .rw⟩]⟩,
  ⟨0x6004, 0x0, 1, 0x3F, [⟨30, 2, .ro⟩, ⟨29, 1, .ro⟩, ⟨28, 1, .ro⟩, ⟨27, 1, .ro⟩, ⟨24, 3, .ro⟩, ⟨0, 6, .ro⟩]⟩,
  ⟨0x6008, 0x0, 1, 0x0, [⟨16, 12, .ro⟩, ⟨0, 16, .ro⟩]⟩,
  ⟨0x600C, 0x0, 1, 0x0, [⟨24, 8, .ro⟩, ⟨16, 8, .ro⟩, ⟨0, 16, .ro⟩]⟩,
  ⟨0x6010, 0x0, 1, 0x0, [⟨0, 32, .ro⟩]⟩,
  ⟨0x6014, 0x0, 1, 0x0, [⟨0, 32, .ro⟩]⟩,
  ⟨0x6018, 0x0, 1, 0x0, [⟨0, 16, .ro⟩]⟩,
  ⟨0x601C, 0x0, 1, 0x0, [⟨0, 16, .ro⟩]⟩,
  ⟨0x6020, 0x0, 1, 0x0, [⟨0, 32, .ro⟩]⟩,
  ⟨0x6024, 0x0, 1, 0x0, [⟨0, 16, .rc⟩]⟩,
  ⟨0x6100, 0x80, 8, 0x4000000, [⟨31, 1, .rw⟩, ⟨28, 3, .rw⟩, ⟨27, 1, .rw⟩, ⟨26, 1, .rw⟩]⟩,
  ⟨0x6104, 0x80, 8, 0x0, [⟨29, 3, .ro⟩, ⟨27, 2, .ro⟩, ⟨26, 1, .ro⟩, ⟨25, 1, .ro⟩, ⟨24, 1, .ro⟩, ⟨23, 1, .ro⟩, ⟨22, 1, .ro⟩, ⟨8, 8, .ro⟩]⟩,
  ⟨0x6108, 0x80, 8, 0x0, [⟨0, 32, .ro⟩]⟩,
  ⟨0x610C, 0x80, 8, 0x0, [⟨0, 32, .ro⟩]⟩,
  ⟨0x6110, 0x80, 8, 0x0, [⟨16, 16, .ro⟩, ⟨8, 8, .ro⟩]⟩,
  ⟨0x6114, 0x80, 8, 0x0, [⟨31, 1, .ro⟩, ⟨30, 1, .ro⟩, ⟨0, 30, .ro⟩]⟩,
  ⟨0x6118, 0x80, 8, 0x0, [⟨0, 32, .rw⟩]⟩,
  ⟨0x611C, 0x80, 8, 0x0, [⟨0, 32, .rc⟩]⟩,
  ⟨0x6120, 0x80, 8, 0x0, [⟨0, 32, .rc⟩]⟩,
  ⟨0x6124, 0x80, 8, 0x0, [⟨0, 32, .rc⟩]⟩,
  ⟨0x6128, 0x80, 8, 0x0, [⟨0, 32, .rc⟩]⟩,
  ⟨0x612C, 0x80, 8, 0x0, [⟨0, 32, .rc⟩]⟩,
  ⟨0x6130, 0x80, 8, 0x0, [⟨0, 32, .rc⟩]⟩,
  ⟨0x6134, 0x80, 8, 0x0, [⟨0, 32, .rc⟩]⟩,
  ⟨0x6138, 0x80, 8, 0x0, [⟨5, 1, .w1c⟩, ⟨4, 1, .w1c⟩, ⟨3, 1, .w1c⟩, ⟨2, 1, .w1c⟩, ⟨1, 1, .w1c⟩, ⟨0, 1, .w1c⟩]⟩]

/-- Register rows at h:0x6000, part 2. -/
def rows6b : List RegRow := [
  ⟨0x613C, 0x80, 8, 0x0, [⟨5, 1, .rw⟩, ⟨4, 1, .rw⟩, ⟨3, 1, .rw⟩, ⟨2, 1, .rw⟩, ⟨1, 1, .rw⟩, ⟨0, 1, .rw⟩]⟩,
  ⟨0x6800, 0x0, 1, 0xC0000000, [⟨31, 1, .rw⟩, ⟨30, 1, .rw⟩]⟩,
  ⟨0x6804, 0x0, 1, 0x0, [⟨31, 1, .ro⟩, ⟨0, 13, .ro⟩]⟩,
  ⟨0x6808, 0x0, 1, 0x0, [⟨0, 32, .ro⟩]⟩,
  ⟨0x680C, 0x0, 1, 0x3E81400, [⟨16, 16, .rw⟩, ⟨8, 8, .rw⟩]⟩,
  ⟨0x6810, 0x0, 1, 0x0, [⟨0, 16, .rw⟩]⟩,
  ⟨0x6814, 0x0, 1, 0x0, [⟨0, 9, .ro⟩]⟩,
  ⟨0x6818, 0x0, 1, 0x0, [⟨7, 1, .w1c⟩, ⟨6, 1, .w1c⟩, ⟨5, 1, .w1c⟩, ⟨4, 1, .w1c⟩, ⟨3, 1, .w1c⟩, ⟨2, 1, .w1c⟩, ⟨1, 1, .w1c⟩, ⟨0, 1, .w1c⟩]⟩,
  ⟨0x681C, 0x0, 1, 0x0, [⟨7, 1, .rw⟩, ⟨6, 1, .rw⟩, ⟨5, 1, .rw⟩, ⟨4, 1, .rw⟩, ⟨3, 1, .rw⟩, ⟨2, 1, .rw⟩, ⟨1, 1, .rw⟩, ⟨0, 1, .rw⟩]⟩,
  ⟨0x6820, 0x0, 1, 0x0, [⟨0, 32, .rc⟩]⟩,
  ⟨0x6824, 0x0, 1, 0x0, [⟨0, 32, .rc⟩]⟩,
  ⟨0x6828, 0x0, 1, 0x0, [⟨0, 32, .rc⟩]⟩,
  ⟨0x682C, 0x0, 1, 0x0, [⟨0, 32, .rc⟩]⟩,
  ⟨0x6830, 0x0, 1, 0x0, [⟨0, 32, .rc⟩]⟩,
  ⟨0x6834, 0x0, 1, 0x0, [⟨0, 32, .rc⟩]⟩,
  ⟨0x6838, 0x0, 1, 0x0, [⟨0, 32, .rc⟩]⟩,
  ⟨0x683C, 0x0, 1, 0x0, [⟨0, 32, .rc⟩]⟩,
  ⟨0x6840, 0x0, 1, 0x0, [⟨0, 32, .rc⟩]⟩,
  ⟨0x6844, 0x0, 1, 0x0, [⟨0, 32, .rc⟩]⟩,
  ⟨0x6848, 0x0, 1, 0x0, [⟨0, 32, .rc⟩]⟩,
  ⟨0x684C, 0x0, 1, 0x0, [⟨0, 32, .rc⟩]⟩,
  ⟨0x6C00, 0x20, 8, 0x0, [⟨0, 32, .rc⟩]⟩,
  ⟨0x6C04, 0x20, 8, 0x0, [⟨0, 32, .rc⟩]⟩,
  ⟨0x6C08, 0x20, 8, 0x0, [⟨0, 32, .rc⟩]⟩,
  ⟨0x6C0C, 0x20, 8, 0x0, [⟨0, 32, .rc⟩]⟩]

/-- Register rows at h:0x6000, part 3. -/
def rows6c : List RegRow := [
  ⟨0x6C10, 0x20, 8, 0x0, [⟨0, 32, .rc⟩]⟩,
  ⟨0x6C14, 0x20, 8, 0x0, [⟨31, 1, .ro⟩, ⟨0, 24, .ro⟩]⟩,
  ⟨0x6C18, 0x20, 8, 0x0, [⟨0, 32, .rc⟩]⟩]

/-- Register rows at h:0x7000, part 1. -/
def rows7a : List RegRow := [
  ⟨0x7000, 0x0, 1, 0x0, [⟨28, 4, .ro⟩, ⟨27, 1, .ro⟩, ⟨26, 1, .ro⟩, ⟨25, 1, .ro⟩, ⟨24, 1, .ro⟩, ⟨20, 4, .ro⟩, ⟨16, 4, .ro⟩]⟩,
  ⟨0x7004, 0x0, 1, 0x400000, [⟨16, 13, .stg⟩]⟩,
  ⟨0x7008, 0x0, 1, 0xF4240, [⟨0, 32, .ro⟩]⟩,
  ⟨0x700C, 0x0, 1, 0x3A98, [⟨0, 32, .ro⟩]⟩,
  ⟨0x7010, 0x0, 1, 0x0, [⟨0, 32, .ro⟩]⟩,
  ⟨0x7014, 0x0, 1, 0x0, [⟨0, 16, .ro⟩]⟩,
  ⟨0x7018, 0x0, 1, 0x0, [⟨31, 1, .ro⟩, ⟨0, 16, .ro⟩]⟩,
  ⟨0x701C, 0x0, 1, 0x0, [⟨0, 32, .ro⟩]⟩,
  ⟨0x7020, 0x0, 1, 0x0, [⟨0, 32, .ro⟩]⟩,
  ⟨0x7024, 0x0, 1, 0x0, [⟨0, 32, .ro⟩]⟩,
  ⟨0x7028, 0x0, 1, 0x0, [⟨0, 32, .ro⟩]⟩,
  ⟨0x702C, 0x0, 1, 0x0, [⟨0, 18, .ro⟩]⟩,
  ⟨0x7030, 0x0, 1, 0x0, [⟨7, 1, .w1c⟩, ⟨6, 1, .w1c⟩, ⟨5, 1, .w1c⟩, ⟨4, 1, .w1c⟩, ⟨3, 1, .w1c⟩, ⟨2, 1, .w1c⟩, ⟨1, 1, .w1c⟩, ⟨0, 1, .w1c⟩]⟩,
  ⟨0x7034, 0x0, 1, 0x0, [⟨7, 1, .rw⟩, ⟨6, 1, .rw⟩, ⟨5, 1, .rw⟩, ⟨4, 1, .rw⟩, ⟨3, 1, .rw⟩, ⟨2, 1, .rw⟩, ⟨1, 1, .rw⟩, ⟨0, 1, .rw⟩]⟩,
  ⟨0x7038, 0x0, 1, 0x0, [⟨0, 32, .rc⟩]⟩,
  ⟨0x703C, 0x0, 1, 0x0, [⟨0, 32, .rc⟩]⟩,
  ⟨0x7040, 0x0, 1, 0x0, [⟨0, 32, .rc⟩]⟩,
  ⟨0x7044, 0x0, 1, 0x0, [⟨0, 32, .rc⟩]⟩,
  ⟨0x7048, 0x0, 1, 0x0, [⟨0, 32, .rc⟩]⟩,
  ⟨0x704C, 0x0, 1, 0x0, [⟨0, 32, .rc⟩]⟩,
  ⟨0x7100, 0x40, 4, 0x0, [⟨29, 3, .ro⟩, ⟨27, 2, .ro⟩, ⟨26, 1, .ro⟩, ⟨25, 1, .ro⟩, ⟨23, 2, .ro⟩, ⟨21, 2, .ro⟩]⟩,
  ⟨0x7104, 0x40, 4, 0x0, [⟨0, 32, .ro⟩]⟩,
  ⟨0x7108, 0x40, 4, 0x0, [⟨0, 32, .rc⟩]⟩,
  ⟨0x710C, 0x40, 4, 0x0, [⟨0, 32, .rc⟩]⟩,
  ⟨0x7110, 0x40, 4, 0x0, [⟨0, 32, .rc⟩]⟩]

/-- Register rows at h:0x7000, part 2. -/
def rows7b : List RegRow := [
  ⟨0x7114, 0x40, 4, 0x0, [⟨4, 1, .w1c⟩, ⟨3, 1, .w1c⟩, ⟨2, 1, .w1c⟩, ⟨1, 1, .w1c⟩, ⟨0, 1, .w1c⟩]⟩,
  ⟨0x7118, 0x40, 4, 0x0, [⟨4, 1, .rw⟩, ⟨3, 1, .rw⟩, ⟨2, 1, .rw⟩, ⟨1, 1, .rw⟩, ⟨0, 1, .rw⟩]⟩]

/-- Register rows at h:0x8000, part 1. -/
def rows8a : List RegRow := [
  ⟨0x8000, 0x0, 1, 0x0, [⟨28, 4, .ro⟩, ⟨27, 1, .ro⟩, ⟨26, 1, .ro⟩, ⟨25, 1, .ro⟩, ⟨24, 1, .ro⟩, ⟨23, 1, .ro⟩, ⟨8, 8, .ro⟩]⟩,
  ⟨0x8004, 0x0, 1, 0x0, [⟨24, 8, .ro⟩, ⟨0, 24, .ro⟩]⟩,
  ⟨0x8008, 0x0, 1, 0x0, [⟨5, 1, .w1c⟩, ⟨4, 1, .w1c⟩, ⟨3, 1, .w1c⟩, ⟨2, 1, .w1c⟩, ⟨1, 1, .w1c⟩, ⟨0, 1, .w1c⟩]⟩,
  ⟨0x800C, 0x0, 1, 0x0, [⟨5, 1, .rw⟩, ⟨4, 1, .rw⟩, ⟨3, 1, .rw⟩, ⟨2, 1, .rw⟩, ⟨1, 1, .rw⟩, ⟨0, 1, .rw⟩]⟩,
  ⟨0x8010, 0x0, 1, 0x0, [⟨24, 8, .ro⟩, ⟨16, 8, .ro⟩, ⟨0, 16, .ro⟩]⟩,
  ⟨0x8014, 0x0, 1, 0x0, [⟨4, 4, .ro⟩, ⟨0, 4, .ro⟩]⟩,
  ⟨0x8018, 0x0, 1, 0x0, [⟨0, 32, .ro⟩]⟩,
  ⟨0x801C, 0x0, 1, 0x0, [⟨0, 32, .ro⟩]⟩,
  ⟨0x8020, 0x0, 1, 0x0, [⟨0, 16, .rc⟩]⟩,
  ⟨0x8024, 0x0, 1, 0x0, [⟨0, 16, .rc⟩]⟩]

/-- Register rows at h:0x3000, part 1. -/
def rows3a : List RegRow := [
  ⟨0x3000, 0x0, 1, 0x0, [⟨30, 2, .ro⟩, ⟨0, 7, .ro⟩]⟩,
  ⟨0x3004, 0x0, 1, 0x0, [⟨4, 1, .w1c⟩, ⟨3, 1, .w1c⟩, ⟨2, 1, .w1c⟩, ⟨1, 1, .w1c⟩, ⟨0, 1, .w1c⟩]⟩,
  ⟨0x3008, 0x0, 1, 0x0, [⟨4, 1, .rw⟩, ⟨3, 1, .rw⟩, ⟨2, 1, .rw⟩, ⟨1, 1, .rw⟩, ⟨0, 1, .rw⟩]⟩,
  ⟨0x300C, 0x0, 1, 0x0, [⟨16, 8, .ro⟩, ⟨0, 16, .ro⟩]⟩,
  ⟨0x3010, 0x0, 1, 0x640, [⟨0, 16, .rw⟩]⟩,
  ⟨0x3100, 0x4, 128, 0x0, [⟨30, 2, .ro⟩, ⟨29, 1, .ro⟩, ⟨28, 1, .ro⟩, ⟨26, 2, .ro⟩, ⟨25, 1, .ro⟩, ⟨16, 4, .ro⟩, ⟨0, 16, .ro⟩]⟩,
  ⟨0x3400, 0x10, 64, 0x20401402, [⟨29, 3, .stg⟩, ⟨16, 12, .stg⟩, ⟨8, 8, .stg⟩, ⟨0, 8, .stg⟩]⟩,
  ⟨0x3404, 0x10, 64, 0x553C, [⟨8, 8, .stg⟩, ⟨0, 8, .stg⟩]⟩,
  ⟨0x3408, 0x10, 64, 0x403C0000, [⟨31, 1, .ro⟩, ⟨30, 1, .ro⟩, ⟨29, 1, .ro⟩, ⟨28, 1, .ro⟩, ⟨27, 1, .ro⟩, ⟨16, 8, .ro⟩, ⟨8, 8, .ro⟩]⟩,
  ⟨0x340C, 0x10, 64, 0x0, [⟨0, 16, .rc⟩]⟩]

/-- Register rows at h:0x2000, part 1. -/
def rows2a : List RegRow := [
  ⟨0x2000, 0x0, 1, 0x10000000, [⟨31, 1, .rw⟩, ⟨29, 2, .rw⟩, ⟨28, 1, .rw⟩]⟩,
  ⟨0x2004, 0x0, 1, 0x0, [⟨31, 1, .ro⟩, ⟨29, 2, .ro⟩, ⟨24, 5, .ro⟩, ⟨16, 8, .ro⟩, ⟨0, 16, .ro⟩]⟩,
  ⟨0x2008, 0x0, 1, 0x0, [⟨0, 16, .wo⟩]⟩,
  ⟨0x200C, 0x0, 1, 0x0, [⟨0, 8, .rw⟩]⟩,
  ⟨0x2010, 0x0, 1, 0x0, [⟨0, 32, .ro⟩]⟩,
  ⟨0x2014, 0x0, 1, 0x0, [⟨0, 32, .ro⟩]⟩,
  ⟨0x2018, 0x0, 1, 0x0, [⟨16, 16, .ro⟩, ⟨0, 16, .ro⟩]⟩,
  ⟨0x201C, 0x0, 1, 0x0, [⟨0, 32, .rc⟩]⟩,
  ⟨0x2020, 0x0, 1, 0x0, [⟨0, 32, .rc⟩]⟩,
  ⟨0x2024, 0x0, 1, 0x0, [⟨0, 32, .rc⟩]⟩,
  ⟨0x2028, 0x0, 1, 0x0, [⟨0, 4, .rw⟩]⟩,
  ⟨0x202C, 0x0, 1, 0x0, [⟨2, 1, .w1c⟩, ⟨1, 1, .w1c⟩, ⟨0, 1, .w1c⟩]⟩,
  ⟨0x2030, 0x0, 1, 0x0, [⟨2, 1, .rw⟩, ⟨1, 1, .rw⟩, ⟨0, 1, .rw⟩]⟩,
  ⟨0x2800, 0x4, 512, 0x0, [⟨0, 32, .ro⟩]⟩]

/-- Register rows at h:0x9000, part 1. -/
def rows9a : List RegRow := [
  ⟨0x9000, 0x0, 1, 0x0, [⟨16, 16, .wo⟩, ⟨2, 1, .wo⟩, ⟨1, 1, .wo⟩, ⟨0, 1, .wo⟩]⟩,
  ⟨0x9004, 0x0, 1, 0x1, [⟨8, 1, .w1c⟩, ⟨7, 1, .w1c⟩, ⟨6, 1, .w1c⟩, ⟨5, 1, .w1c⟩, ⟨4, 1, .w1c⟩, ⟨3, 1, .w1c⟩, ⟨2, 1, .w1c⟩, ⟨1, 1, .w1c⟩, ⟨0, 1, .w1c⟩]⟩,
  ⟨0x9008, 0x0, 1, 0x0, [⟨30, 2, .ro⟩, ⟨27, 3, .ro⟩, ⟨25, 2, .ro⟩, ⟨24, 1, .ro⟩, ⟨23, 1, .ro⟩, ⟨22, 1, .ro⟩, ⟨21, 1, .ro⟩, ⟨8, 8, .ro⟩, ⟨0, 8, .ro⟩]⟩,
  ⟨0x900C, 0x0, 1, 0x0, [⟨0, 32, .ro⟩]⟩,
  ⟨0x9010, 0x0, 1, 0x0, [⟨0, 16, .ro⟩]⟩,
  ⟨0x9014, 0x0, 1, 0x7D0, [⟨31, 1, .rw⟩, ⟨30, 1, .w1s⟩, ⟨0, 16, .rw⟩]⟩,
  ⟨0x9018, 0x0, 1, 0xA, [⟨31, 1, .rw⟩, ⟨0, 16, .rw⟩]⟩,
  ⟨0x901C, 0x0, 1, 0x0, [⟨8, 8, .ro⟩, ⟨0, 8, .ro⟩]⟩]

/-- Every register row. -/
def regRows : List RegRow :=
  rows0a ++ rows0b ++ rows4a ++ rows4b ++ rows5a ++ rows1a ++ rows6a ++ rows6b ++ rows6c ++ rows7a ++ rows7b ++ rows8a ++ rows3a ++ rows2a ++ rows9a

/-- The row of a byte offset. -/
def rowOf (off : Nat) : Option RegRow := regRows.find? (·.covers off)

/-- The reset word of a byte offset; 0 where no register stands (R3, R9). -/
def resetWord (off : Nat) : Reg32 := ((rowOf off).map (fun r => BitVec.ofNat 32 r.reset)).getD 0

/-- The mask of the bits with one access code. -/
def accMask (off : Nat) (a : Acc) : Reg32 :=
  (((rowOf off).map (·.flds)).getD []).foldl
    (fun m f => if f.acc = a then m ||| (BitVec.ofNat 32 ((2 ^ f.w - 1) * 2 ^ f.lo)) else m) 0

end Sys2Proof.Machine
end

