-- ==== Sys2Proof/Machine/State.lean ====
section
/-! DEFINITION. The state of the 9640 as plain data: every piece of state the spec names (INVENTORY.md, State),
the queue of waiting commands, and what has left the block. -/

namespace Sys2Proof.Machine

/-! ### Beat and time (02) -/

/-- Where the beat stands (R33 to R35): stopped, started with edges produced, or in the stop sequence before edge e
or before edge e + 1. -/
inductive BeatPhase where
  | stopped
  | running
  | stopRamp
  | stopLast
  deriving DecidableEq, Repr

/-- An outstanding commit request (R46 to R51): its target edge, whether AT named it, whether it is immediate
(R50), the pack time at which an immediate commit stops waiting for answers. -/
structure CommitReq where
  target : BitVec 48
  byAt : Bool
  immediate : Bool
  deadline : Int
  refused : Bool
  deriving DecidableEq, Repr

/-- A time-discontinuity record (R61). -/
structure DiscRec where
  cause : Nat
  beat : BitVec 48
  before : Int
  after : Int
  stepNs : Int
  uncNs : Int
  srcSel : Nat
  deriving DecidableEq, Repr

/-- The beat synthesizer, pack time's epoch and the servo (R26 to R44, R57 to R61). Instants are clock time (State.time);
pack time is clock time plus off, which a step moves, and wraps counts the wraps of its nanosecond field (R30). -/
structure Beat where
  phase : BeatPhase := .stopped
  num : BitVec 48 := 0
  lastEdge : Int := 0
  off : Int := 0
  wraps : Nat := 0
  holdSince : Int := 0
  first : Option (BitVec 48 × Int) := none
  everStarted : Bool := false
  ran : Bool := false
  commit : Option CommitReq := none
  capEdge : Bool := false
  consec : Nat := 0
  pendStep : Option (Int × Nat) := none
  relock : Bool := false
  ppsSec : Option (Nat × Int × Nat) := none
  irigLast : Option Nat := none
  beatInLast : Option Int := none
  aon : BitVec 48 := 0
  sleep : Option (Int × BitVec 48) := none
  wakeRec : Option DiscRec := none
  startWait : Bool := false
  parentLost : Bool := false
  deriving DecidableEq, Repr

/-- What one cluster carries from beat to beat (R54, R55, R115, R508): the instant of the last BWAIT that completed each
recent beat, the beat whose slack is still owed with the instant of the edge that ended it and its period in ns, whether some
core did not count as having reached BWAIT at some time of the present beat (R13), the IN slots' state of the beat, and its governor group: the first beat that counts (none: the next edge's), beats counted, the least slack, whether
a boost was made in this beat; the voltage it had on entry to retention (R511), the edge whose guard check
last raised an overrun. -/
structure Cluster where
  bwaits : List (BitVec 48 × Int) := []
  owed : Option (BitVec 48 × Int × Int) := none
  busy : Bool := false
  blocks : Nat := 0
  gapped : Nat := 0
  deadline : Bool := false
  posted : Bool := true
  lostPrev : Bool := false
  gov : Option (BitVec 48) := none
  govCnt : Nat := 0
  govMin : Int := 0
  boosted : Bool := false
  vKeep : Nat := 0
  ovrAt : Option (BitVec 48) := none
  deriving DecidableEq, Repr
/-! ### Sample ports (03) -/

/-- An unacknowledged management message (R88): its tag, type and body, and how often it has been sent. -/
structure Mgmt where
  tag : Nat
  kind : Nat
  body : List Octet
  sends : Nat
  deriving DecidableEq, Repr

/-- A channel of a plan (R78): drive or input, number, samples per beat, format. -/
structure PlanChan where
  drive : Bool
  ch : Nat
  spb : Nat
  fmt : Nat
  deriving DecidableEq, Repr

/-- A plan on its way to its edge (R78, R79, R575): ID, target edge (none: the first edge after the beat next starts),
channels, its answer (acknowledged, or refused with a reason), and whether it belongs to a commit. -/
structure Plan where
  id : Nat
  target : Option (BitVec 48)
  chans : List PlanChan
  answer : Option (Option Nat)
  byCommit : Bool
  deriving DecidableEq, Repr

/-- A module's descriptor (R87). -/
structure ModDesc where
  vendor : Nat
  mtype : Nat
  serial : Nat
  inCh : Nat
  drvCh : Nat
  maxSpb : Nat
  gens : Nat
  formats : Nat
  inDelay : Nat
  outDelay : Nat
  minPeriod : Nat
  maxPeriod : Nat
  caps : Nat
  deriving DecidableEq, Repr

/-- An arrival that waits for auto-binding (R85, R86): when it arrived, contexts bound, and whether a commit of the
binding is under way. -/
structure BindJob where
  since : Int
  bound : Nat
  batch : Nat
  committing : Bool
  deriving DecidableEq, Repr

/-- The templates of IEEE 1451.4 that the 9640 decodes (R90): 25, 30, 33, 35; others are relayed. -/
inductive TedsKind where
  | accelForce
  | highVoltage
  | bridge
  | strain
  | relayed
  deriving DecidableEq, Repr

/-- A sensor's TEDS decoded (R90): the fields of Basic TEDS, the template, and the fields of a template that is decoded. -/
structure Teds where
  mfr : Nat
  model : Nat
  letter : Nat
  version : Nat
  serial : Nat
  kind : TedsKind
  fields : List Int
  deriving DecidableEq, Repr

/-- A sample port beside its registers: the module last ACTIVE, the descriptor present, the delay last sent, the
generation last used and the AUTO window, the pending plan, the plan in effect (ID and channels) and the one under which
the block and frame of this edge are formed, management messages, the echo measurement, known sensors and their TEDS decoded, the samples of the
beat's block received so far, how many of them the deadline found, whether the block is in and whether the deadline has
passed, the channels R80 blanks, and the module the last plan was sent to (R78). -/
structure Port where
  ident : Option Nat := none
  desc : Option ModDesc := none
  sent : Option Nat := none
  lastGen : Nat := 0
  window : Nat := 0
  plan : Option Plan := none
  inForce : Option (Nat × List PlanChan) := none
  expect : Option (Nat × List PlanChan) := none
  nextId : Nat := 1
  nextTag : Nat := 0
  mgmt : List Mgmt := []
  echo : List Nat := []
  echoTag : Nat := 0
  echoSum : Nat := 0
  sensors : List (Nat × SensorMsg) := []
  teds : List (Nat × Teds) := []
  part : Option (List (Option Grain)) := none
  had : Nat := 0
  got : Bool := false
  closed : Bool := true
  blank : List Nat := []
  bind : Option BindJob := none
  planFor : Option Nat := none
  deriving DecidableEq, Repr
/-! ### Stream contexts and the sample router (04) -/

/-- A REM slot being filled (R384, R119): its tagged beat, the fragments received, whether a block was discarded. -/
structure RemBlk where
  beat : BitVec 48
  got : List (Nat × Nat)
  bad : Bool
  deriving DecidableEq, Repr

/-- An auto-bind template (R131): first index, BASE stride, IN and OUT templates. -/
structure Template where
  first : Nat
  stride : Nat
  inT : List Long
  outT : List Long
  deriving DecidableEq, Repr

/-- The context table by long (key 16 i + long), the subscriber table, the stage buffer, beat-ready queues in force
and staged, templates, overrun hold ends (R123), contexts whose ramp has ended in the present run of missing blocks (R121), and what REM finalization looks at (R109): the edges of late with
their count, and from which count each REM context has been in force. -/
structure Streams where
  ctx : SMap Long := []
  subs : SMap Long := []
  stage : SMap (Option (List Long)) := []
  stageSub : SMap (Option (Nat × List Long)) := []
  brq : SMap Nat := []
  brqStage : SMap Nat := []
  tmpl : SMap (Option Template) := []
  holdEnd : List Nat := []
  ramped : List Nat := []
  edges : List (BitVec 48 × Nat) := []
  edgeCnt : Nat := 0
  since : SMap Nat := []
  remRx : SMap (List RemBlk) := []
  vl0Fed : List Nat := []
  inDone : List Nat := []
  deriving DecidableEq, Repr
/-! ### Gitik cores (05, 06, 07) -/

/-- How a core stands: held in core reset, running, waiting in BWAIT Gd (R182), halted with a reason (R242, R530,
R531, R533), or locked (R245). -/
inductive RunState where
  | held
  | running
  | bwait (d : GReg)
  | halted (reason : Nat)
  | locked
  deriving DecidableEq, Repr

/-- A side-unit operation that has issued and not delivered (R161, R195, R196): the registers it still has to write,
its fault cause (0 for none, R163), its sticky flags, and whether the unit has completed with its fault. -/
structure SideOp where
  unit : SideUnit
  pc : Long
  writes : List (GReg × Long)
  cause : Nat
  sv : Bool
  af : Bool
  failed : Bool
  deriving DecidableEq, Repr

/-- A hardware loop level (R134, R174). -/
structure Loop where
  cnt : Long
  beg : Long
  fin : Long
  deriving DecidableEq, Repr

/-- What dual issue looks at in an instruction (R193). -/
structure IssueInfo where
  alone : Bool
  branch : Bool
  mem : Bool
  side : Bool
  acc : Bool
  reads : List GReg
  writes : List GReg
  predR : List (BitVec 3)
  predW : List (BitVec 3)
  flagR : Bool
  flagW : Bool
  deriving DecidableEq, Repr

/-- One Gitik core: its registers (R134, R135), fault registers (R231, R232), mask level (R237), pending overrun and
entry shadow (R235, R236), wake latch, tag and work beat (R181), side units (R195), cache and branch target buffer
(R198, R200), control block (R210, R532) and unsent halt report (R243). -/
structure Core where
  g : SMap Long := []
  acc : SMap (BitVec 80) := []
  e : SMap Long := []
  pred : BitVec 8 := 1
  pc : Long := 0
  st : Grain := 0
  mode : Grain := 0x20000
  sst : Grain := 0
  leash : BitVec 10 := 0
  slim : Long := 0
  rp : Long := 0
  l0 : Loop := ⟨0, 0, 0⟩
  l1 : Loop := ⟨0, 0, 0⟩
  faddr : Long := 0
  finfo : Long := 0
  mask : BitVec 2 := 0
  ovr : Option (BitVec 48) := none
  shadow : Nat := 0
  run : RunState := .held
  report : Option (List Long) := none
  side : List SideOp := []
  wake : Bool := false
  skip : Bool := false
  tag : BitVec 36 := 0
  wakeBeat : BitVec 48 := 0
  work : BitVec 48 := 0
  completed : Option (BitVec 48) := none
  ccb : SMap Long := []
  ic : List Nat := []
  btb : SMap (Nat × Nat) := []
  prev : Option IssueInfo := none
  step : Bool := false
  brkPass : Bool := false
  watchPass : Bool := false
  haltReq : Bool := false
  deriving DecidableEq, Repr

/-- A clocked crossing of the array's edge (R221, R222): the sticky overrun flag of its queue, and whether a side has been
reset or turned off and the handshake is still to come. -/
structure Crossing where
  overrun : Bool := false
  peer : Bool := false
  deriving DecidableEq, Repr
/-! ### Cluster interrupt controllers, watcher (08) -/

/-- A hold-off timer (R259, R263): its UNIT and VALUE fields, the count left (of a timer that counts time, at its start),
the unit it counts in, and the pack time it started at. -/
structure HoldOff where
  unit : Bool := false
  value : BitVec 16 := 0
  remain : BitVec 16 := 0
  runUnit : Bool := false
  start : Int := 0
  deriving DecidableEq, Repr

/-- One CIC (R251 to R263): pending, enable and active bits, SRC_CFG, event counters, hold-off groups, the
running-priority stack of each core (top first, as priority and source), and the offers (source to core). -/
structure Cic where
  pend : BitVec 256 := 0
  en : BitVec 256 := 0
  active : BitVec 256 := 0
  cfg : SMap Long := []
  cnt : SMap (BitVec 8) := []
  hold : SMap HoldOff := []
  stray : Bool := false
  strayCnt : BitVec 16 := 0
  prios : SMap (List (Nat × Nat)) := []
  offers : List (Nat × Nat) := []
  deriving DecidableEq, Repr

/-- What the watcher captured of one edge (R268): the slot, its source, and the domain it named. -/
structure Capture where
  slot : Nat
  src : Nat
  dom : Nat
  deriving DecidableEq, Repr

/-- Device sources, MSI-X and the watcher (R265 to R273): the line levels as last seen, the DEV_EDGE bits, the edges
not yet forwarded (source and instant, oldest first), the MSI-X enable and function mask of the PCIe configuration space,
the watcher's captures, oldest first. -/
structure Dev where
  level : BitVec 128 := 0
  edge : BitVec 128 := 0
  fwd : List (Nat × Int) := []
  msixEn : Bool := false
  msixFmask : Bool := false
  captures : List Capture := []
  wakeTs : BitVec 48 := 0
  deriving DecidableEq, Repr
/-! ### Queue engine (09) -/

/-- A message in a cell (R275, R285, R286): 1 to 8 longs, the number of longs with a single-bit error and whether one is
uncorrectable, the ERR bit, whether its link or length is uncorrectable, whether its owner tag is, and the single-bit
errors of its link and length, and of its tag. -/
structure Msg where
  longs : List Long
  err : Bool := false
  corr : Nat := 0
  unc : Bool := false
  linkBad : Bool := false
  tagBad : Bool := false
  linkCorr : Nat := 0
  tagCorr : Nat := 0
  deriving DecidableEq, Repr

/-- One queue (R275 to R292): its configuration, its messages oldest first, and its sticky state; leaked cells are
those a broken list left tagged to the queue (R286), with the single-bit errors of their tags; stuck cells those whose owner
tag is uncorrectable (R288). -/
structure Queue where
  en : Bool
  priv : Bool
  limit : BitVec 18 := 0
  level : BitVec 18 := 0
  dest : BitVec 7 := 0x7F
  line : BitVec 5 := 0
  msgs : List Msg := []
  overrun : Bool := false
  broken : Bool := false
  drops : BitVec 16 := 0
  leaked : Nat := 0
  leakedCorr : Nat := 0
  stuck : Nat := 0
  sweeping : Bool := false
  deriving DecidableEq, Repr

/-- The queue engine (R275, R291). -/
structure QEngine where
  qs : SMap Queue := []
  poolMin : Nat := 262144
  rsv : BitVec 18 := 0x400
  corr : Nat := 0
  unc : Nat := 0
  exh : Nat := 0
  grpCorr : SMap Nat := []
  deriving DecidableEq, Repr
/-! ### Reduction engines (10) -/

/-- A block in an engine's intake (R296, R297): source context, tagged beat, intake beat, whether a core submitted it. -/
structure RedItem where
  src : Nat
  beat : BitVec 48
  inBeat : BitVec 48
  sub : Bool
  deriving DecidableEq, Repr

/-- A reduction state as the engine holds it in force: source context and chain slot, KIND, address, configuration
longs (long number and value), A, and of the open group what its record needs that no long of the state holds: first
beat, SAMPLES, GAPS, flags, listed points, decimated outputs, spectral frames; the first intake beat of the open group, and whether
a block of the next one was dropped (R329); the commands waiting for the close; whether its memory is not yet written, its cluster
being off, or is to be restarted (R337), with the taps staged for it. -/
structure RState where
  src : Nat
  slot : Nat
  kind : Nat
  addr : Nat
  cfg : List (Nat × Long)
  a : Option (BitVec 48) := none
  failed : Bool := false
  spoiled : Bool := false
  first : Option (BitVec 48) := none
  taken : Nat := 0
  gaps : Nat := 0
  ovf : Bool := false
  late : Bool := false
  err : Bool := false
  fresh : Bool := true
  opened : Option (BitVec 48) := none
  dropNext : Bool := false
  slept : Bool := false
  seen : Bool := false
  points : List (Long × Long) := []
  outs : List Grain := []
  t0 : Option (BitVec 48) := none
  rows : List (Nat × Nat × Option Long) := []
  firstF : Option Nat := none
  frames : List (List Long) := []
  clear : Nat := 0
  residue : Bool := false
  waits : Bool := false
  again : Bool := false
  coefs : List (Nat × Long) := []
  deriving DecidableEq, Repr

/-- A staged reduction state, or the staged removal of one (R335); ptr says that its command staged RED_PTR of the source
context, whose entry of the stage buffer is then the command's one. -/
structure RStage where
  src : Nat
  slot : Nat
  body : Option RState
  coefs : List (Nat × Long)
  ptr : Bool
  deriving DecidableEq, Repr

/-- A spectral close whose buffer and record are not yet written (R328): the state, its group's beat and GSEQ. -/
structure SpecClose where
  src : Nat
  slot : Nat
  beat : BitVec 48
  group : RState
  gseq : Nat
  gapsOf : Nat
  deriving DecidableEq, Repr

/-- A cluster's engine: intake, registers by offset (R333), spectral closes deferred, whether the last notice was
refused, whether a commit has cut groups whose RED_DONE is still to rise (R309). -/
structure RedEng where
  intake : List RedItem := []
  regs : SMap Long := []
  defer : List SpecClose := []
  lostPrev : Bool := false
  cut : Bool := false
  handed : List (Nat × BitVec 48) := []
  deriving DecidableEq, Repr

/-- The reduction engines: one per cluster, the states in force, the stage, result queues in force and staged, and the entries of the
stage buffer that repeated staging commands take besides (R335). -/
structure Red where
  engs : SMap RedEng := []
  states : List RState := []
  stage : List RStage := []
  q : SMap Nat := []
  qStage : SMap Nat := []
  extra : Nat := 0
  deriving DecidableEq, Repr
/-! ### The pack: links and discovery (11), traffic (12) -/

/-- A frame sent and not yet acknowledged (R372): its LSEQ, the frame, its words as they were sent, how often it was resent. -/
structure Sent where
  seq : BitVec 16
  frame : Frame
  words : List Word64
  tries : Nat
  deriving DecidableEq, Repr

/-- One VL of one direction pair of a port (R370 to R372): next LSEQ, frames not acknowledged, the LSEQs of those to be sent again,
credits used, the peer's CRTOT; the LSEQ expected, credits freed, whether a NAK is owed; frames that wait. -/
structure Link where
  seq : BitVec 16 := 0
  unacked : List Sent := []
  again : List (BitVec 16) := []
  used : BitVec 16 := 0
  crtot : BitVec 16 := 0
  expect : BitVec 16 := 0
  freed : BitVec 16 := 0
  nak : Bool := false
  waiting : List Frame := []
  deriving DecidableEq, Repr

/-- The key of one direction of a link (R361, R448): AES-256 key, salt, frames it has sealed. -/
structure LinkKey where
  key : BitVec 256
  salt : BitVec 32
  count : Nat
  deriving DecidableEq, Repr

/-- A fabric port beside its registers: the HELLO last taken, when the last one came (R362), its own NONCE and ephemeral secret,
whether the peer's chain and signature verified, whether it re-keys, the keys of what it sends and receives with the one received under before (R361), whether AUTO training
tries G1, delay measurement, the parent EDGE seen, token expectation (R380), VL0 blocks sent in the beat, the open VL0 window (its
entry + 1; 0 none) with the blocks sent in it, VLs. -/
structure FPort where
  peer : Option HelloMsg := none
  heard : Option Int := none
  nonce : Option Nat := none
  eph : Nat := 0
  certOk : Bool := false
  sigOk : Bool := false
  rekey : Bool := false
  tx : Option LinkKey := none
  rx : Option LinkKey := none
  rxOld : Option LinkKey := none
  genTry : Bool := false
  dreq : List Nat := []
  dreqTag : Nat := 0
  dreqSum : Nat := 0
  edge : Option (BitVec 6 × BitVec 48 × Int) := none
  expectTok : Bool := false
  gotTok : Bool := false
  vl0Blocks : Nat := 0
  window : Nat := 0
  winBlocks : Nat := 0
  vls : SMap Link := []
  deriving DecidableEq, Repr

/-- A fault report being coalesced, and when its entry closes (R391). -/
structure FrEntry where
  rep : FaultRep
  closes : Int
  deriving DecidableEq, Repr

/-- A period change announced by the master (R389): the period, its target, whether this member refused it. -/
structure PeriodChange where
  pint : Nat
  pfrac : Nat
  target : BitVec 48
  refused : Bool
  cancelled : Bool
  deriving DecidableEq, Repr

/-- The block a SEND entry holds (R378): source context, tagged beat, its elements. -/
structure SendBlk where
  src : Nat
  beat : BitVec 48
  elems : List Long
  deriving DecidableEq, Repr

/-- A VL0 frame held for a FORWARD entry's window (R379), with its arrival. -/
structure HeldFrame where
  entry : Nat
  frame : Frame
  at_ : Int
  deriving DecidableEq, Repr

/-- The fabric block: ports, database with the time of each record's last refresh, own sequence number, address try and
confirmation, routes, master and who takes over from it (R355), timing parent, its EDGEs taken and alignment count, period
change, schedule and groups in force and staged, pending blocks, held frames, transmit queues, fault coalescing. -/
structure Fabric where
  ports : SMap FPort := []
  lsdb : List (Lsr × Int) := []
  seq : Nat := 0
  try_ : Nat := 0
  confirmed : Bool := false
  conflict : Bool := false
  dirty : Bool := false
  arrived : List (BitVec 64) := []
  routes : SMap Long := []
  master : Option (BitVec 64) := none
  heir : Option (BitVec 64) := none
  parent : Option Nat := none
  edges : Nat := 0
  alignCnt : Nat := 0
  newGrid : Option Grid := none
  period : Option PeriodChange := none
  sched : SMap (Option SchedEnt) := []
  schedStage : SMap (Option (Option SchedEnt)) := []
  groups : SMap (Option (Bool × List Nat)) := []
  groupStage : SMap (Option (Bool × List Nat)) := []
  pend : SMap (Option SendBlk) := []
  held : List HeldFrame := []
  finalTok : List Nat := []
  txq : List Nat := []
  rr : Nat := 0
  open_ : List FrEntry := []
  seen : List (Nat × Nat × Nat × Int) := []
  deriving DecidableEq, Repr
/-! ### Host interface and steward (15) -/

/-- A command in progress on a channel (R475): what its completion carries. For an SVC channel raddr holds the SESSION of its
datagram, cidx the SEQ, and rcap the source to which it is answered (R491). -/
structure Busy where
  tag : BitVec 16
  raddr : BitVec 64
  rcap : Nat
  cidx : Nat
  dataOk : Bool
  ringOk : Bool
  discard : Bool
  deriving DecidableEq, Repr

/-- An undelivered event (R482). -/
structure Event where
  code : Nat
  cls : Nat
  beat : BitVec 48
  arg : List Octet
  deriving DecidableEq, Repr

/-- A kennel session (R438, R439): its ID, the role and key slot that opened it, and when it times out. -/
structure Session where
  id : Nat
  co : Bool
  slot : Nat
  expires : Int
  deriving DecidableEq, Repr

/-- A Bertia channel (R464): command in progress, kennel session, event mask, events waiting, LOST mark; for SVC
channels also the source that holds it and the datagrams accepted and not yet run (SEQ and SESSION). -/
structure Chan where
  busy : Option Busy := none
  sess : Option Session := none
  mask : BitVec 32 := 0
  events : List Event := []
  lost : Bool := false
  src : Option Nat := none
  seq : Nat := 0
  held : List (Nat × Nat) := []
  phase : Bool := true
  deriving DecidableEq, Repr

/-- An event that arose while the steward was not up, where what it reports is still there when the steward starts: a report
that queue 0xFFBF holds (R243, R286), or a time-discontinuity record with no journal (R60), whose beat the event holds. fault: a
fault report goes too (R483). -/
structure Due where
  code : Nat
  cls : Nat
  unit : Nat
  fault : Bool
  arg : List Octet
  beat : Option (BitVec 48) := none
  deriving DecidableEq, Repr

/-- Host interface state beside the registers: channels, the mailbox that last subscribed and its held events, the
SVC configuration and export table, PTP (its path delay in quarters of a nanosecond), the PCIe power state and link, and the
events that wait for the steward. -/
structure HostIf where
  chans : SMap Chan := []
  evtMbx : Option Nat := none
  events : List Event := []
  lost : Bool := false
  svc : SvcConfig := ⟨0, 0, 1500, 0, 0, 0, 0, 0, 0, 0⟩
  exports : List (ExportEntry × Nat × Nat) := []
  exportsNext : Option (List ExportEntry) := none
  ptp : PtpConfig := ⟨0, 0, 0, 0, 0, 1, 0, 128, 128⟩
  ptpOffset : Int := 0
  ptpDelay : Nat := 0
  ptpGm : BitVec 64 := 0
  ptpSteps : Nat := 0
  ptpUtc : Option (BitVec 16) := none
  d3hot : Bool := false
  linkUp : Bool := true
  ovrEvt : SMap Int := []
  startAtEdge : List Nat := []
  due : List Due := []
  deriving DecidableEq, Repr
/-! ### Journal (13) -/

/-- A record placed in a block: its octets are the 16-octet header and the body, padded (R404). -/
structure Placed where
  rtype : Nat
  flags : Nat
  subject : Nat
  beat : BitVec 48
  octets : List Octet
  deriving DecidableEq, Repr

/-- Where a block stands: open for records, closed in the buffer, written to its namespace, or durable there once the
namespace's write cache has been flushed (R402, R411, R412). -/
inductive BlockState where
  | opened
  | closed
  | written
  | durable
  deriving DecidableEq, Repr

/-- A block of a chain (R402): BSEQ, namespace and segment, its records, flags, and its header once closed. -/
structure Block where
  chain : Nat
  bseq : Nat
  ns : Nat
  seg : Nat
  recs : List Placed
  bflags : Nat
  state : BlockState
  tClose : Int
  header : List Octet
  deriving DecidableEq, Repr

/-- A segment in use (R399, R415): port and local number (2^30 port + local), chain, first and last BSEQ, whether filled,
beats and record types it holds, hash of its last header, whether its INDEX_SEG entry is written. -/
structure Segment where
  seg : Nat
  chain : Nat
  first : Nat
  last : Nat
  filled : Bool
  firstBeat : BitVec 48
  lastBeat : BitVec 48
  types : Nat
  lastHash : BitVec 384
  indexed : Bool := false
  deriving DecidableEq, Repr

/-- A command a store port has outstanding (R398): a Write with or without FUA; a label's copy at an LBA (R400). -/
inductive NvmeCmd where
  | write (chain bseq : Nat) (fua : Bool)
  | flush (chain : Nat)
  | read (chain bseq off len ch : Nat)
  | rateTest
  | dealloc (seg : Nat)
  | label (lba : Nat) (octets : List Octet)
  deriving DecidableEq, Repr

/-- An armed event window (R420): its contexts, the trigger edge, those contexts not yet captured to the end, parts written. -/
structure Window where
  wid : Nat
  mask : Nat
  pre : Nat
  post : Nat
  ctxs : List Nat
  trig : Option (BitVec 48)
  left : List Nat
  part : Nat
  deriving DecidableEq, Repr

/-- A seal under way (R412): chain, BSEQ and head it covers, its instant, beat; waiting for durability, then signed. -/
structure Seal where
  chain : Nat
  bseq : Nat
  head : BitVec 384
  t : Int
  beat : BitVec 48
  asked : Bool
  deriving DecidableEq, Repr

/-- A compaction under way (R416): chain, the checkpoint's first block, the tombstone's block, the channel that waits. -/
structure Compact where
  chain : Nat
  first : Nat
  tomb : Option Nat
  ch : Option Nat
  deriving DecidableEq, Repr

/-- A power-fail sequence under way (R421): when the pin fell, blocks to flush, the marker's block, whether sealed. -/
structure PfSeq where
  since : Int
  flushed : Nat
  mark : Option Nat
  asked : Bool
  deriving DecidableEq, Repr

/-- The journal engine (R397 to R422): segments of 256 MiB each port's namespace holds and
those in the archive, the archive's identifier and the labels on the media, per chain the next BSEQ, the head
hash and how many blocks are sealed, blocks, segments in use and released, what each chain has taken of its reserve, hold area,
losses to mark, the seal under way and chains that wait for one, commands outstanding per port (with retries), event windows,
configuration items, and the sequences under way: segments whose tombstone is to become durable, with its block, the command that
deletes and how many, a compaction that a power failure or a reset has cut off. -/
structure Journal where
  nsCap : SMap Nat := []
  nsSegs : SMap Nat := []
  archive : Option (BitVec 64) := none
  labels : SMap (List Octet) := []
  ring : Bool := false
  heads : SMap Nat := []
  headHash : SMap (BitVec 384) := []
  sealed : SMap Nat := []
  blocks : List Block := []
  segs : List Segment := []
  freed : List Segment := []
  dip : SMap Nat := []
  hold : List JRec := []
  lossOf : List (Nat × Nat) := []
  sealing : Option Seal := none
  sealTodo : List Nat := []
  cmds : SMap (List (NvmeCmd × Nat)) := []
  windows : List Window := []
  items : SMap (Option (Nat × List Octet)) := []
  recovered : Bool := false
  pf : Option PfSeq := none
  pinBack : Bool := false
  entering : Bool := false
  gather : SMap (List (BitVec 48 × Long × List Long)) := []
  stopping : Option Nat := none
  compact : Option Compact := none
  testCh : Option Nat := none
  release : List (Nat × Nat) := []
  delCh : Option (Nat × Nat) := none
  cut : Option Compact := none
  deriving DecidableEq, Repr
/-! ### The kennel (14) -/

/-- A pedigree slot of the OTP array (R444, R446): unused, holding a key pair (certified or not), or zeroized. -/
inductive OtpSlot where
  | unused
  | key (certified : Bool)
  | zeroized (certified : Bool)
  deriving DecidableEq, Repr

/-- The kennel beside its registers: OTP slots and counters, stored keys, admission list, challenges out (ID, value,
expiry), DRBG generate requests since the last reseed, the latched ZEROIZE_N request, the full zeroization under way with
the command that waits for it, programming that a lockup cut short (R458), whether an integrity or OTP failure persists
(R453), and the channels whose KN_SELFTEST waits. -/
structure Kennel where
  slots : List OtpSlot := [.key true, .unused, .unused, .unused]
  cur : Nat := 0
  counters : SMap Nat := []
  coKeys : SMap (Option (List Octet)) := []
  usrKeys : SMap (Option (List Octet)) := []
  admitted : Option (List Nat) := none
  chals : List (Nat × Nat × Int) := []
  nextChal : Nat := 0
  drbgUse : Nat := 0
  latched : Bool := false
  running : Bool := false
  cut : Bool := false
  zCmd : Option Nat := none
  hard : Bool := false
  testCmds : List Nat := []
  deriving DecidableEq, Repr
/-! ### Power (16) -/

/-- A power request (R502): the state asked (0 off, 1 retention, 2 on), its source (LAST_SRC coding, R515), and the
Bertia channel that waits for its outcome. -/
structure PwrReq where
  state : Nat
  src : Nat
  cmd : Option Nat
  deriving DecidableEq, Repr

/-- Domain transitions under way (the request, and the state left), the pending slots, clusters whose exit time has passed
and that wait for an edge, the measured speed tables with the temperature they were measured at, the clusters being
measured and those SPEED_MEASURE waits for with its channel, MEM in self-refresh for a retraining, THERMTRIP_N (R498 to
R511, R560). -/
structure Power where
  trans : SMap (Option PwrReq) := []
  slot : SMap (Option PwrReq) := []
  ripe : List Nat := []
  speed : SMap (Option (List Nat × Nat)) := []
  measuring : List Nat := []
  measCmd : Option (Nat × List Nat) := none
  retrain : Bool := false
  trip : Bool := false
  deriving DecidableEq, Repr
/-! ### Whistle and debug (17) -/

/-- A whistle request due at an edge (R518 to R520): source bit, tag, order within its source, the edge it is due at
for PACK, the earliest instant for the others, and the Bertia channel that waits. -/
structure WhReq where
  src : Nat
  tag : BitVec 16
  ord : Nat
  target : Option (BitVec 48)
  notBefore : Int
  ch : Option Nat
  deriving DecidableEq, Repr

/-- A latched image in copy-out (R521, R526, R527). -/
structure WhImage where
  seq : Nat
  words : List Nat
  tag : Nat
  src : Nat
  beat : BitVec 48
  deriving DecidableEq, Repr

/-- The whistle block: pending requests, the due edge of a deferred latch, armed pack whistles, images in copy-out,
the image in the window and the latest image, the latch number, the pin's own drive; TAP debug. -/
structure Whistle where
  reqs : List WhReq := []
  deferred : Option (BitVec 48 × List WhReq) := none
  armed : List (BitVec 48 × BitVec 16) := []
  images : List WhImage := []
  window : Option WhImage := none
  latest : Option WhImage := none
  seq : Nat := 0
  beatHi : Nat := 0
  pinQuiet : Int := 0
  tapDebug : Bool := false
  tapIr : BitVec 8 := 0
  pinsTaken : Bool := false
  haltWait : List (Nat × Nat × Nat) := []
  deriving DecidableEq, Repr
/-! ### Reset and start-up (18) -/

/-- A boot header copy (R543). -/
structure BootHdr where
  seq : Nat
  pref : Nat
  trial : Bool
  tries : Nat
  deriving DecidableEq, Repr

/-- The flash's boot header copies (none: not valid), the image last seen in each firmware slot, the octets FW_WRITE has
written to a slot since it erased it, whether the steward is in its ROM, whether the ROM serves mailbox 0 (R547), and the
instant the watchdog's count last started. -/
structure Boot where
  hdr0 : Option BootHdr := none
  hdr1 : Option BootHdr := none
  slotA : Option SlotImage := none
  slotB : Option SlotImage := none
  flash : SMap (Option (List Octet)) := []
  rom : Bool := true
  recovery : Bool := false
  wdt : Int := 0
  deriving DecidableEq, Repr
/-! ### What leaves the block -/

/-- A word a sample port sends: a control word or a data word (R67, R69). -/
inductive SpWord where
  | ctrl (w : Word64)
  | data (w : Word64)
  deriving DecidableEq, Repr

/-- What a fabric port sends: a control block (R341, R371), a frame's SOF and data blocks (R365), or a message of authentication,
whose octets R346 does not lay out. -/
inductive FabOut where
  | block (w : Word64)
  | frame (ws : List Word64)
  | authCert
  | authSig
  deriving DecidableEq, Repr

/-- A message that leaves the block. -/
inductive Out where
  | msix (hi lo data : Reg32)
  | readData (off v : Nat)
  | barData (data : List Octet)
  | dmaWrite (addr : BitVec 64) (data : List Octet)
  | datagram (ip6 : Bool) (addr port : Nat) (data : List Octet)
  | ptp (m : PtpOut) (t : Int)
  | sample (p : Nat) (ws : List SpWord)
  | fabric (p : Nat) (m : FabOut)
  | nvme (p : Nat) (c : NvmeCmd)
  | beatPulse (widthNs : Nat) (low : Bool)
  | whistlePin
  | lockupPin (low : Bool)
  | thermtripPin
  | regData (p a v : Nat)
  | moduleEvent (p code : Nat) (beat : BitVec 48) (text : List Octet)
  | tapData (v : Long)
  | flashHeader (copy : Nat) (h : BootHdr)
  deriving DecidableEq, Repr

/-! ### The state -/

/-- The state of the block. -/
structure State where
  pending : List Instr := []
  out : List Out := []
  free : Nat := 0
  time : Int := 0
  hreg : SMap Reg32 := []
  force : SMap Reg32 := []
  mem : SMap Grain := []
  eccUnc : List Nat := []
  beat : Beat := {}
  clus : SMap Cluster := []
  cores : SMap Core := []
  cics : SMap Cic := []
  dev : Dev := {}
  ports : SMap Port := []
  abortPin : Bool := false
  str : Streams := {}
  qeng : QEngine := {}
  red : Red := {}
  fab : Fabric := {}
  jrn : Journal := {}
  kn : Kennel := {}
  host : HostIf := {}
  fserial : Nat := 0
  mon : SMap Long := []
  cross : SMap Crossing := []
  pwr : Power := {}
  wh : Whistle := {}
  boot : Boot := {}
  deriving DecidableEq, Repr

/-- Why a command stops with a fault. -/
inductive Fault where
  /-- Raised by a command whose operands its row cannot carry (WellFormed.lean); safe: nothing is claimed of it. -/
  | illFormed
  deriving DecidableEq, Repr

/-- Why a command is refused. -/
inductive Refusal where
  /-- Raised by exec for a row that has no meaning yet; safe. -/
  | notModelled (mnemonic : String)
  deriving DecidableEq, Repr

/-- The machine right after a power-on reset (R62, R517, R538): every register at its reset value, AON, STEWARD,
KENNEL and HOST on, the steward in its ROM, the kennel in its power-up tests (R450), memory with nothing listed. -/
def State.reset : State := { hreg := [(0x8000, 0x10000000#32)] }

end Sys2Proof.Machine
end

