-- ==== Sys2Proof/Machine/Ops.lean ====
section
/-! DEFINITION. The named operations every meaning is written over: BAR0 words and fields, the sparse stores, grains
and longs of memory, messages out, free values, pack time. -/

namespace Sys2Proof.Machine

open Sys2Proof

/-- Bits b - 1 to 0 of the integer square root of n, r being the bits found. -/
def isqrtGo (n : Nat) : Nat → Nat → Nat
  | 0, r => r
  | b + 1, r => isqrtGo n b (if (r + 2 ^ b) * (r + 2 ^ b) ≤ n then r + 2 ^ b else r)

/-- The integer square root of n < 2^(2 b). -/
def isqrt (b n : Nat) : Nat := isqrtGo n b 0

/-- n / 2^sh rounded to nearest; which way a tie goes is open (log 1). -/
def roundShift (n : Int) (sh : Nat) : Int :=
  let q := n / 2 ^ sh
  let r := n % 2 ^ sh
  if 2 * r < 2 ^ sh then q else if 2 ^ sh < 2 * r then q + 1 else if Config.tieUp n sh then q + 1 else q

/-- a / b rounded half away from zero. -/
def roundAway (a : Int) (b : Nat) : Int :=
  if b = 0 then 0
  else if a < 0 then -(((2 * a.natAbs + b) / (2 * b) : Nat) : Int) else ((2 * a.natAbs + b) / (2 * b) : Nat)

/-! ### Updating one part of the state -/

/-- Update the journal engine alone. -/
def State.onJrn (s : State) (f : Journal → Journal) : State := { s with jrn := f s.jrn }

/-- Update the fabric block alone. -/
def State.onFab (s : State) (f : Fabric → Fabric) : State := { s with fab := f s.fab }

/-- Update the streams alone. -/
def State.onStr (s : State) (f : Streams → Streams) : State := { s with str := f s.str }

/-- Update the reduction engines alone. -/
def State.onRed (s : State) (f : Red → Red) : State := { s with red := f s.red }

/-- Update the kennel alone. -/
def State.onKn (s : State) (f : Kennel → Kennel) : State := { s with kn := f s.kn }

/-- Update the host interface alone. -/
def State.onHost (s : State) (f : HostIf → HostIf) : State := { s with host := f s.host }

/-- Update the power alone. -/
def State.onPwr (s : State) (f : Power → Power) : State := { s with pwr := f s.pwr }

/-- Update the whistle block alone. -/
def State.onWh (s : State) (f : Whistle → Whistle) : State := { s with wh := f s.wh }

/-- Update the boot state alone. -/
def State.onBoot (s : State) (f : Boot → Boot) : State := { s with boot := f s.boot }

/-- Update the beat and time alone. -/
def State.onBeat (s : State) (f : Beat → Beat) : State := { s with beat := f s.beat }

/-- Update the device sources alone. -/
def State.onDev (s : State) (f : Dev → Dev) : State := { s with dev := f s.dev }

/-- Update the queue engine alone. -/
def State.onQEng (s : State) (f : QEngine → QEngine) : State := { s with qeng := f s.qeng }

/-! ### BAR0 words and fields -/

/-- What a BAR0 word reads as before anything has changed it: the register tables' reset words, the device's
constants (R4, R459), and the domains that are on after a reset (R517). -/
def wordReset (off : Nat) : Reg32 :=
  if off = 0x10 then Config.serial.setWidth 32
  else if off = 0x14 then (Config.serial >>> 32).setWidth 32
  else if off = 0x8010 then Config.knVer
  else if 0x3100 ≤ off ∧ off < 0x3300 then
    (if off = 0x3100 ∨ off = 0x3104 ∨ off = 0x3108 ∨ off = 0x3114 then 0x80000000 else 0)
  else resetWord off

/-- A BAR0 word as held (the staged value of an STG register, R8). -/
def State.word (s : State) (off : Nat) : Reg32 := mget wordReset s.hreg off

/-- Replace a BAR0 word. -/
def State.setWord (s : State) (off : Nat) (v : Reg32) : State := { s with hreg := mset wordReset s.hreg off v }

/-- A field of a word. -/
def fieldOf (w : Reg32) (f : Fld) : Nat := w.toNat / 2 ^ f.lo % 2 ^ f.w

/-- A word with one field replaced. -/
def withField (w : Reg32) (f : Fld) (v : Nat) : Reg32 :=
  BitVec.ofNat 32 (w.toNat - fieldOf w f * 2 ^ f.lo + v % 2 ^ f.w * 2 ^ f.lo)

/-- Read a field. -/
def State.rd (s : State) (f : Fld) : Nat := fieldOf (s.word f.off) f

/-- Write a field. -/
def State.wr (s : State) (f : Fld) (v : Nat) : State := s.setWord f.off (withField (s.word f.off) f v)

/-- Is a one-bit field set? -/
def State.bit (s : State) (f : Fld) : Bool := s.rd f != 0

/-- Set or clear a one-bit field. -/
def State.wb (s : State) (f : Fld) (b : Bool) : State := s.wr f (if b then 1 else 0)

/-- Set every bit of a field (an event bit, a sticky flag). -/
def State.set1 (s : State) (f : Fld) : State := s.wr f (2 ^ f.w - 1)

/-- Count up by n, saturating at the field's largest value. -/
def State.satAdd (s : State) (f : Fld) (n : Nat) : State := s.wr f (min (s.rd f + n) (2 ^ f.w - 1))

/-- Count up by one, saturating. -/
def State.inc (s : State) (f : Fld) : State := s.satAdd f 1

/-- Count up by one, modulo the field's width. -/
def State.incWrap (s : State) (f : Fld) : State := s.wr f (s.rd f + 1)

/-- Invert a TOG bit (R220). -/
def State.toggle (s : State) (f : Fld) : State := s.wr f (s.rd f + 1)

/-- The value in force of an STG word (R5, R8). -/
def State.forceWord (s : State) (off : Nat) : Reg32 := mget wordReset s.force off

/-- A field of the value in force. -/
def State.rdF (s : State) (f : Fld) : Nat := fieldOf (s.forceWord f.off) f

/-- Put an STG word in force. -/
def State.setForce (s : State) (off : Nat) (v : Reg32) : State := { s with force := mset wordReset s.force off v }

/-- The whole word as a number. -/
def State.rdW (s : State) (off : Nat) : Nat := (s.word off).toNat

/-- A whole word from a number, modulo 2^32. -/
def State.wrW (s : State) (off : Nat) (v : Nat) : State := s.setWord off (BitVec.ofNat 32 v)

/-- A signed number as a two's complement pattern of w bits. -/
def toSigned (w : Nat) (v : Int) : Nat := (v % (2 ^ w : Int)).toNat

/-- A pattern of w bits as a signed number. -/
def ofSigned (w : Nat) (v : Nat) : Int := if v % 2 ^ w < 2 ^ (w - 1) then (v % 2 ^ w : Nat) else (v % 2 ^ w : Nat) - (2 ^ w : Int)

/-- A number limited to lo..hi. -/
def clampInt (lo hi v : Int) : Int := if v < lo then lo else if hi < v then hi else v

/-! ### The sparse stores of the state -/

/-- Core number of a core selector: 16 c + k for a sample core, 1024 the steward, 1025 the kennel. -/
def coreIdx : CoreSel → Nat
  | .sample c k => 16 * c.toNat + k.toNat
  | .steward => 1024
  | .kennel => 1025

/-- What an unlisted core is: a sample core held in core reset, the steward and kennel cores running (R517). -/
def coreReset (i : Nat) : Core := if i < 1024 then {} else { run := .running }

/-- A core. -/
def State.core (s : State) (i : Nat) : Core := mget coreReset s.cores i

/-- Replace a core. -/
def State.setCore (s : State) (i : Nat) (c : Core) : State := { s with cores := mset coreReset s.cores i c }

/-- A CIC; 0 to 63 the clusters, 64 the steward. -/
def State.cic (s : State) (c : Nat) : Cic := mget (fun _ => {}) s.cics c

/-- Replace a CIC. -/
def State.setCic (s : State) (c : Nat) (x : Cic) : State := { s with cics := mset (fun _ => {}) s.cics c x }

/-- A cluster's beat records. -/
def State.clu (s : State) (c : Nat) : Cluster := mget (fun _ => {}) s.clus c

/-- Replace a cluster's beat records. -/
def State.setClu (s : State) (c : Nat) (x : Cluster) : State := { s with clus := mset (fun _ => {}) s.clus c x }

/-- A queue at reset: enabled; PRIV for queues 0xFF00 and above (R292). -/
def queueReset (q : Nat) : Queue := { en := true, priv := decide (0xFF00 ≤ q) }

/-- A queue. -/
def State.queue (s : State) (q : Nat) : Queue := mget queueReset s.qeng.qs q

/-- Replace a queue. -/
def State.setQueue (s : State) (q : Nat) (x : Queue) : State :=
  { s with qeng := { s.qeng with qs := mset queueReset s.qeng.qs q x } }

/-! ### Messages out and free values -/

/-- A message leaves the block; a pin that the TAP has taken is not driven (R535). -/
def State.emit (s : State) (o : Out) : State :=
  let pin : Bool := match o with
    | .beatPulse _ _ => true
    | .whistlePin => true
    | .lockupPin _ => true
    | .thermtripPin => true
    | _ => false
  if pin && s.wh.pinsTaken then s else { s with out := s.out ++ [o] }

/-- The next free value: one the spec leaves open (log 1). -/
def State.freeVal (s : State) : Nat := Config.freeNat s.free

/-- The state after a free value has been taken. -/
def State.freeNext (s : State) : State := { s with free := s.free + 1 }

/-! ### Power domains -/

/-- Is domain d on? A domain in transition counts as not on (R498). -/
def State.domOn (s : State) (d : Nat) : Bool :=
  s.rd (R.PD_STAT_STATE d) == 2 && !s.bit (R.PD_STAT_BUSY d)

/-- Domain numbers of R270. -/
def domSteward : Nat := 1
def domKennel : Nat := 2
def domContext : Nat := 3
def domQueue : Nat := 4
def domHost : Nat := 5
def domMem : Nat := 6
def domStore : Nat := 7
def domFabric (p : Nat) : Nat := 8 + p
def domSp (p : Nat) : Nat := 16 + p / 4
def domCluster (c : Nat) : Nat := 64 + c

/-- The domain of CIC c: its cluster, or the steward (R264). -/
def domCic (c : Nat) : Nat := if c < 64 then domCluster c else domSteward

/-! ### Pack time -/

/-- One nanosecond in the units of State.time: 5 · 2^64, so that a REFCLK period and a period P are whole. -/
def nsU : Int := 92233720368547758080

/-- The beat period in force, in units (R25). -/
def State.periodU (s : State) : Int :=
  (s.rdW R.PERIOD_ACT_INT * 4294967296 + s.rdW R.PERIOD_ACT_FRAC : Nat) * 21474836480

/-- Pack time of a clock instant, in units (R28). -/
def State.packAt (s : State) (t : Int) : Int := t + s.beat.off

/-- Pack time now. -/
def State.packNow (s : State) : Int := s.packAt s.time

/-- Whole nanoseconds of a pack-time instant, modulo 2^56 (R28). -/
def nsOf (t : Int) : Nat := (t / nsU % 72057594037927936).toNat

/-- The 2^-24 ns fraction of a pack-time instant (R28). -/
def fracOf (t : Int) : Nat := (t % nsU / 5497558138880).toNat

/-- The 80-bit pack time value (R28). -/
def packTime (t : Int) : BitVec 80 := BitVec.ofNat 80 (nsOf t * 16777216 + fracOf t)

/-! ### Memory: physical keys, grains, longs -/

/-- Physical key of a local-store grain of sample core i. -/
def keyLocal (i a : Nat) : Nat := 0x10000000000 + i * 0x8000 + a

/-- Physical key of a grain of the steward's private memory. -/
def keySteward (a : Nat) : Nat := 0x20000000000 + a

/-- Physical key of a grain of the kennel's private memory. -/
def keyKennel (a : Nat) : Nat := 0x40000000000 + a

/-- Global grain address of cluster c's memory (R167). -/
def clusterBase (c : Nat) : Nat := 0x40000000 + c * 0x80000

/-- The canonical form of memory: grain addresses strictly rising, no listed grain 0. -/
def Memory.wf (m : SMap Grain) : Bool := mapWf (fun _ => 0) m

/-- A grain; an unlisted grain reads 0 (log 2). -/
def State.grain (s : State) (k : Nat) : Grain := mget (fun _ => 0) s.mem k

/-- Write a grain. -/
def State.setGrain (s : State) (k : Nat) (v : Grain) : State := { s with mem := mset (fun _ => 0) s.mem k v }

/-- The long at a key: the lower grain holds bits 19:0 (R141). -/
def State.long (s : State) (k : Nat) : Long := (s.grain (k + 1)) ++ (s.grain k)

/-- Write a long; a write of both grains of a protected long clears its error (R571). -/
def State.setLong (s : State) (k : Nat) (v : Long) : State :=
  let s1 := (s.setGrain k (v.setWidth 20)).setGrain (k + 1) ((v >>> 20).setWidth 20)
  if k % 2 = 0 then { s1 with eccUnc := s1.eccUnc.filter (· ≠ k) } else s1

/-- Does the protected long that holds a key carry an uncorrectable error (R571)? -/
def State.badLong (s : State) (k : Nat) : Bool := s.eccUnc.contains (k / 2 * 2)

/-- Grains that DRAM channel k has installed (R569): 0.4 of its octets, rounded down to even. -/
def State.dramInstalled (s : State) (k : Nat) : Nat := s.rd (R.DDR_STAT_V k) * 1073741824 * 2 / 5 / 2 * 2

/-- Grains at the start of channel k's window: none unless the channel is up. -/
def State.dramGrains (s : State) (k : Nat) : Nat := if s.rd (R.DDR_STAT_STATE k) = 2 then s.dramInstalled k else 0

/-- What a grain address is for an agent (R167). -/
inductive Place where
  | mem (key : Nat)
  | reg
  | off
  | none
  deriving DecidableEq, Repr

/-- Addresses every agent sees alike: cluster memory, register space, DRAM (R167, R569), each only while its domain
is on (R570). -/
def State.placeGlobal (s : State) (a : Nat) : Place :=
  if 0x40000000 ≤ a ∧ a < 0x42000000 then
    if s.domOn (domCluster ((a - 0x40000000) / 0x80000)) then .mem a else .off
  else if 0x50000000 ≤ a ∧ a < 0x80000000 then .reg
  else if 0x1000000000 ≤ a ∧ a < 0x1000000000 + 4 * 0x800000000 then
    let k := (a - 0x1000000000) / 0x800000000
    let off := (a - 0x1000000000) % 0x800000000
    if !s.domOn domMem then (if off < s.dramInstalled k then .off else .none)
    else if off < s.dramGrains k then .mem a else .none
  else .none

/-- Addresses as core i sees them: local store and its cluster's memory, or the private memory of the steward or
kennel (R167, R225, R429, R486). -/
def State.place (s : State) (i a : Nat) : Place :=
  if i < 1024 then
    if a < 0x8000 then .mem (keyLocal i a)
    else if 0x10000 ≤ a ∧ a < 0x90000 then
      (if s.domOn (domCluster (i / 16)) then .mem (clusterBase (i / 16) + (a - 0x10000)) else .off)
    else s.placeGlobal a
  else if i = 1024 then (if a < 0x90000 then .mem (keySteward a) else s.placeGlobal a)
  else (if a < 0x20000 then .mem (keyKennel a) else .none)

end Sys2Proof.Machine
end

