-- ==== Sys2Proof/Machine/Trig.lean ====
section
/-! DEFINITION. Exact arithmetic for functions of an angle (R162, R320, R324, R326): sine, cosine and the exponential as fixed-point
numbers of 100 fraction bits, each within 2^-90 of its value, far below any unit the spec rounds to. -/

namespace Sys2Proof.Machine

open Sys2Proof

/-- 2^100, the fixed point. -/
def fixOne : Int := 1267650600228229401496703205376

/-- π. -/
def fixPi : Int := 3982441812995697363688351113952

/-- The product of two fixed-point numbers. -/
def fixMul (a b : Int) : Int := a * b / fixOne

/-- t + t p / ((k+1)(k+2)) + ...: n more terms of a series each of which is the last one times p / ((k+1)(k+2)). -/
def seriesBy2 (p : Int) : Nat → Nat → Int → Int
  | 0, _, t => t
  | n + 1, k, t => t + seriesBy2 p n (k + 2) (fixMul t p / ((k + 1) * (k + 2) : Nat))

/-- Cosine and sine of an angle from 0 to π / 2. -/
def fixCosSin (a : Int) : Int × Int :=
  let m := -(fixMul a a)
  (seriesBy2 m 24 0 fixOne, seriesBy2 m 24 1 a)

/-- Cosine and sine of 2 π n / 2^k. -/
def turnCosSin (n : Int) (k : Nat) : Int × Int :=
  let u := n % (2 ^ k : Nat)
  let q := 4 * u / (2 ^ k : Nat)
  let r := 4 * u % (2 ^ k : Nat)
  let (c, s) := fixCosSin (fixPi * r / (2 * 2 ^ k : Nat))
  if q = 0 then (c, s) else if q = 1 then (-s, c) else if q = 2 then (-c, -s) else (s, -c)

/-- The whole part of the angle of a point above the x axis, in units of π / 2^39: the last k with the point not below its
direction, by halving. -/
def angleGo (x y : Int) : Nat → Int → Int
  | 0, k => k
  | n + 1, k =>
    let (c, s) := turnCosSin (k + (2 ^ n : Nat)) 40
    angleGo x y n (if 0 ≤ y * c - x * s then k + (2 ^ n : Nat) else k)

/-- atan2(y, x) in units of π / 2^39, for y ≠ 0 or 0 < x: whether it is a whole number, and its whole part. Rational tangents give
whole numbers on the axes and diagonals alone. -/
def angleUnits (x y : Int) : Bool × Int :=
  let h : Int := 137438953472
  let w := decide (y < 0)
  let t := if w then -y else y
  let e : Option Int :=
    if t = 0 then some 0 else if x = 0 then some (2 * h) else if x = t then some h else if x = -t then some (3 * h) else none
  match e with
  | some k => (true, if w then -k else k)
  | none =>
    let k := angleGo x t 39 0
    (false, if w then -(k + 1) else k)

end Sys2Proof.Machine
end

