-- ==== Sys2Proof/Machine/Flags.lean ====
section
/-! DEFINITION. Status and mode bits of a Gitik core (R136, R137) and every flag computation (R146 to R150, R153, R156,
R158, R162): the new value with the new status. -/

namespace Sys2Proof.Machine

open Sys2Proof

/-- Bit k of a status or mode word replaced. -/
def putBit (w : Grain) (k : Nat) (b : Bool) : Grain := if b then w ||| (1#20 <<< k) else w &&& ~~~(1#20 <<< k)

/-- ST bits (R136). -/
def stLX : Nat := 19
def stSV : Nat := 18
def stAF : Nat := 17
def stLA1 : Nat := 16
def stLA0 : Nat := 15
def stN : Nat := 3
def stZ : Nat := 2
def stC : Nat := 1
def stV : Nat := 0

/-- MODE bits (R137). -/
def mdHEEL : Nat := 19
def mdEXACT : Nat := 18
def mdUNAL : Nat := 17
def mdAFD : Nat := 16

/-- N and Z of a result (R146). -/
def flagsNZ (st : Grain) (r : Long) : Grain := putBit (putBit st stN (r.getLsbD 39)) stZ (r == 0)

/-- NZCV. -/
def flagsNZCV (st : Grain) (r : Long) (c v : Bool) : Grain := putBit (putBit (flagsNZ st r) stC c) stV v

/-- SV is sticky. -/
def stickSV (st : Grain) (b : Bool) : Grain := if b then putBit st stSV true else st

/-! ### Integer arithmetic (R146, R147) -/

/-- Addition with carry in. -/
def addF (st : Grain) (a b : Long) (c : Bool) : Long × Grain :=
  let k := if c then 1 else 0
  let r := a + b + BitVec.ofNat 40 k
  (r, flagsNZCV st r (decide (2 ^ 40 ≤ a.toNat + b.toNat + k))
    (a.getLsbD 39 == b.getLsbD 39 && r.getLsbD 39 != a.getLsbD 39))

/-- Subtraction with borrow in. -/
def subF (st : Grain) (a b : Long) (c : Bool) : Long × Grain :=
  let k := if c then 1 else 0
  let r := a - b - BitVec.ofNat 40 k
  (r, flagsNZCV st r (decide (a.toNat < b.toNat + k))
    (a.getLsbD 39 != b.getLsbD 39 && r.getLsbD 39 != a.getLsbD 39))

/-- The largest magnitude of a limited long (R147, R153, R162). -/
def longMax : Int := 549755813887

/-- A value limited to ± (2^39 - 1), and whether that changed it. -/
def limitLong (x : Int) : Long × Bool :=
  let y := clampInt (-longMax) longMax x
  (BitVec.ofInt 40 y, y != x)

/-- ADDS, SUBS: N, Z, V and SV of a limited result; C stays. -/
def satF (st : Grain) (x : Int) : Long × Grain :=
  let (r, lim) := limitLong x
  (r, stickSV (putBit (flagsNZ st r) stV lim) lim)

/-- AND, OR, XOR, NOT: N and Z. -/
def logicF (st : Grain) (r : Long) : Long × Grain := (r, flagsNZ st r)

/-! ### Shifts (R148) -/

/-- Which shift. -/
inductive ShiftKind where
  | left | right | arith
  deriving DecidableEq, Repr

/-- The shifted value. -/
def shiftVal (op : ShiftKind) (a : Long) (k : Nat) : Long :=
  match op with
  | .left => a <<< k
  | .right => a >>> k
  | .arith => a.sshiftRight k

/-- The carry of a shift by k, not 0. -/
def shiftCarry (op : ShiftKind) (a : Long) (k : Nat) : Bool :=
  match op with
  | .left => decide (k ≤ 40) && a.getLsbD (40 - k)
  | .right => decide (k ≤ 40) && a.getLsbD (k - 1)
  | .arith => if k ≤ 40 then a.getLsbD (k - 1) else a.getLsbD 39

/-- A shift by k in 0..63: a shift by 0 leaves the value and C; N and Z follow the result. -/
def shiftF (st : Grain) (op : ShiftKind) (a : Long) (k : Nat) : Long × Grain :=
  let r := if k = 0 then a else shiftVal op a k
  let st1 := flagsNZ st r
  (r, if k = 0 then st1 else putBit st1 stC (shiftCarry op a k))

/-! ### Bit counts (R149) -/

/-- Leading zeros of a long. -/
def clz (v : Long) : Nat := ((List.range 40).takeWhile (fun i => !v.getLsbD (39 - i))).length

/-- Bits below bit 39 that equal bit 39, from bit 38 down. -/
def cls (v : Long) : Nat := ((List.range 39).takeWhile (fun i => v.getLsbD (38 - i) == v.getLsbD 39)).length

/-! ### Dual samples (R150) -/

/-- Lanes L and H. -/
def laneL (v : Long) : Int := ofSigned 20 v.toNat
def laneH (v : Long) : Int := ofSigned 20 (v.toNat / 2 ^ 20)

/-- Two lanes together. -/
def lanes (h l : Int) : Long := (BitVec.ofInt 20 h) ++ (BitVec.ofInt 20 l)

/-- A lane limited to ± 524,287, and whether that changed it. -/
def sat20 (t : Int) : Int × Bool := let y := clampInt (-524287) 524287 t; (y, y != t)

/-- A dual wrapping operation. -/
def dualWrap (f : Int → Int → Int) (a b : Long) : Long := lanes (f (laneH a) (laneH b)) (f (laneL a) (laneL b))

/-- A dual saturating operation. -/
def dualSat (st : Grain) (f : Int → Int → Int) (a b : Long) : Long × Grain :=
  let h := sat20 (f (laneH a) (laneH b))
  let l := sat20 (f (laneL a) (laneL b))
  (lanes h.1 l.1, stickSV st (h.2 || l.2))

/-- SARD: an arithmetic shift with optional rounding, wrapping. -/
def sard (v : Long) (sh : Nat) (rnd : Bool) : Long :=
  let f (x : Int) : Int := (x + (if rnd ∧ 0 < sh then 2 ^ (sh - 1) else 0)) / 2 ^ sh
  lanes (f (laneH v)) (f (laneL v))

/-! ### Accumulators (R152, R153) -/

/-- Which sum of products. -/
inductive MacKind where
  | macd | msud | macx | mdif
  deriving DecidableEq, Repr

/-- The amount added to the accumulator. -/
def macSum (k : MacKind) (s t : Long) : Int :=
  match k with
  | .macd => laneL s * laneL t + laneH s * laneH t
  | .msud => -(laneL s * laneL t) - laneH s * laneH t
  | .macx => laneL s * laneH t + laneH s * laneL t
  | .mdif => laneL s * laneL t - laneH s * laneH t

/-- ACCR: shift, rounding, limit. -/
def accrF (st : Grain) (a : BitVec 80) (rnd w20 : Bool) (sh : Nat) : Long × Grain :=
  let t := (a.toInt + (if rnd ∧ 0 < sh then 2 ^ (sh - 1) else 0)) / 2 ^ sh
  let m : Int := if w20 then 524287 else longMax
  let y := clampInt (-m) m t
  (BitVec.ofInt 40 y, stickSV st (y != t))

/-! ### Sample formats (R156, R157) -/

/-- N, Z, V of a conversion: a gap stands for no value. -/
def normFlags (st : Grain) (neg zero v gap : Bool) : Grain :=
  putBit (putBit (putBit st stN (!gap && neg)) stZ (!gap && zero)) stV (v || gap)

/-- Modes 0 and 1: to a linear long; N and Z are those of Gd. -/
def normIn (st : Grain) (rng : Bool) (v : Long) : Long × Grain :=
  let code : Grain := v.setWidth 20
  let gap := if rng then code == 0xE0000 else code == 0x80000
  let x : Int := if rng then ofSigned 18 (code.toNat % 2 ^ 18) * 2 ^ (4 * (code.toNat / 2 ^ 18)) else code.toInt
  let r : Long := if gap then 0x8000000000 else BitVec.ofInt 40 x
  (r, normFlags st (decide (x < 0)) (decide (x = 0)) false gap)

/-- R157: the range and mantissa of a value, from range r on; none when no range up to 3 holds it. -/
def rngPick (x : Int) : Nat → Nat → Option (Nat × Int)
  | 0, _ => none
  | n + 1, r =>
    let m := roundAway x (16 ^ r)
    if -131071 ≤ m ∧ m ≤ 131071 then some (r, m) else rngPick x n (r + 1)

/-- An RNG20 code of a range and mantissa (R104). -/
def rngCode (r : Nat) (m : Int) : Nat := r * 2 ^ 18 + toSigned 18 m

/-- Mode 2: a long to RNG20. -/
def normRng (st : Grain) (v : Long) : Long × Grain :=
  if v = 0x8000000000 then (0xE0000, normFlags st false false true true)
  else
    let x := v.toInt
    match rngPick x 4 0 with
    | some (r, m) => (BitVec.ofNat 40 (rngCode r m), normFlags st (decide (m < 0)) (decide (m = 0)) false false)
    | none =>
      let m : Int := if 0 < x then 131071 else -131071
      (BitVec.ofNat 40 (rngCode 3 m), stickSV (normFlags st (decide (m < 0)) false true false) true)

/-- Mode 3: a long to LIN20. -/
def normLin (st : Grain) (v : Long) : Long × Grain :=
  if v = 0x8000000000 then (0x80000, normFlags st false false true true)
  else
    let y := clampInt (-524287) 524287 v.toInt
    let sat := y != v.toInt
    ((BitVec.ofInt 20 y).setWidth 40, stickSV (normFlags st (decide (y < 0)) (decide (y = 0)) sat false) sat)

/-- NORMX by mode. -/
def normF (st : Grain) (m : Nat) (v : Long) : Long × Grain :=
  if m = 0 then normIn st true v
  else if m = 1 then normIn st false v
  else if m = 2 then normRng st v
  else normLin st v

/-! ### Bit fields and octets (R154, R155) -/

/-- BFX. -/
def bfx (v : Long) (pos len : Nat) (sx : Bool) : Long :=
  let f := v.toNat / 2 ^ pos % 2 ^ len
  if sx then BitVec.ofInt 40 (ofSigned len f) else BitVec.ofNat 40 f

/-- BFI: the low len bits of a placed at pos in d. -/
def bfi (d a : Long) (pos len : Nat) : Long :=
  let m : Long := BitVec.ofNat 40 ((2 ^ len - 1) * 2 ^ pos)
  (d &&& ~~~m) ||| ((a <<< pos) &&& m)

/-- One octet of PERM. -/
def permOctet (v : Long) (sel : Nat) : Nat :=
  if sel < 5 then v.toNat / 2 ^ (8 * sel) % 256
  else if sel = 5 then 0
  else if sel = 6 then 255
  else if v.getLsbD 39 then 255 else 0

/-- PERM. -/
def perm (v : Long) (sel : Nat) : Long :=
  BitVec.ofNat 40 ((List.range 5).foldl (fun a k => a + permOctet v (sel / 8 ^ k % 8) * 2 ^ (8 * k)) 0)

/-! ### Conditions (R158, R159) -/

/-- CMP and CMPI conditions; none for a reserved one. -/
def cmpCond (cond : Nat) (a b : Long) : Option Bool :=
  match cond with
  | 0 => some (a == b)
  | 1 => some (a != b)
  | 2 => some (decide (a.toInt < b.toInt))
  | 3 => some (decide (b.toInt ≤ a.toInt))
  | 4 => some (decide (a.toInt ≤ b.toInt))
  | 5 => some (decide (b.toInt < a.toInt))
  | 6 => some (decide (a.toNat < b.toNat))
  | 7 => some (decide (b.toNat ≤ a.toNat))
  | 8 => some ((a &&& b) != 0)
  | 9 => some ((a &&& b) == 0)
  | 10 => some ((a.setWidth 20 : Grain) == 0x80000)
  | 11 => some ((a.setWidth 20 : Grain) == 0xE0000)
  | _ => none

/-- CMPD: the condition on 20-bit lanes, signed ones sign-extended, the others zero-extended. -/
def laneCond (cond : Nat) (a b : Grain) : Option Bool :=
  if 2 ≤ cond ∧ cond ≤ 5 then cmpCond cond (a.signExtend 40) (b.signExtend 40)
  else cmpCond cond (a.setWidth 40) (b.setWidth 40)

/-- PSET conditions on the status; none for a reserved one. -/
def flagCond (cond : Nat) (st : Grain) : Option Bool :=
  let n := st.getLsbD stN
  let z := st.getLsbD stZ
  let c := st.getLsbD stC
  let v := st.getLsbD stV
  match cond with
  | 0 => some z
  | 1 => some (!z)
  | 2 => some (n != v)
  | 3 => some (n == v)
  | 4 => some (z || n != v)
  | 5 => some (!z && n == v)
  | 6 => some c
  | 7 => some (!c)
  | 8 => some n
  | 9 => some (!n)
  | 10 => some v
  | 11 => some (!v)
  | 12 => some (st.getLsbD stSV)
  | 13 => some (st.getLsbD stAF)
  | _ => none

/-- PLOG (R160). -/
def plogOp (op : Nat) (a b : Bool) : Bool :=
  match op with
  | 0 => a && b
  | 1 => a || b
  | 2 => a != b
  | 3 => a && !b
  | 4 => a || !b
  | 5 => !(a && b)
  | 6 => !(a || b)
  | _ => a == b

/-! ### Side units (R162, R163) -/

/-- What a side unit delivers: the values, whether limiting set SV, and a fault cause (0 none). -/
structure SideRes where
  vals : List Long
  sv : Bool := false
  cause : Nat := 0

/-- MUL. -/
def mulRes (f : Nat) (a b : Long) : SideRes :=
  if f = 0 then ⟨[a * b], false, 0⟩
  else if f = 1 then ⟨[BitVec.ofInt 40 (a.toInt * b.toInt / 2 ^ 40)], false, 0⟩
  else if f = 2 then ⟨[BitVec.ofNat 40 (a.toNat * b.toNat / 2 ^ 40)], false, 0⟩
  else let (r, l) := limitLong ((a.toInt * b.toInt + 2 ^ 38) / 2 ^ 39); ⟨[r], l, 0⟩

/-- DIV: of the signed quotients -2^39 / -1 alone is limited. -/
def divRes (f : Nat) (a b : Long) : SideRes :=
  if b = 0 then
    (if f = 0 then ⟨[if a.toInt < 0 then 0x8000000001 else 0x7FFFFFFFFF], false, 1⟩
     else if f = 1 then ⟨[0xFFFFFFFFFF], false, 1⟩
     else ⟨[a], false, 1⟩)
  else if f = 0 then
    (if b.toInt = -1 then let (r, l) := limitLong (-a.toInt); ⟨[r], l, 0⟩ else ⟨[BitVec.ofInt 40 (a.toInt.tdiv b.toInt)], false, 0⟩)
  else if f = 1 then ⟨[a / b], false, 0⟩
  else if f = 2 then ⟨[BitVec.ofInt 40 (a.toInt.tmod b.toInt)], false, 0⟩
  else ⟨[a % b], false, 0⟩

/-- The integer nearest to the square root of n < 2^80; the root of an integer is never halfway. -/
def roundSqrt (n : Nat) : Nat := let r := isqrt 40 n; if r * r + r < n then r + 1 else r

/-- SQRT. -/
def sqrtRes (q39 : Bool) (a : Long) : SideRes :=
  if a.toInt < 0 then ⟨[0], false, 2⟩
  else if q39 then ⟨[BitVec.ofNat 40 (roundSqrt (a.toNat * 2 ^ 39))], false, 0⟩
  else ⟨[BitVec.ofNat 40 (isqrt 40 a.toNat)], false, 0⟩

/-- RECIP. -/
def recipRes (q : Nat) (a : Long) : SideRes :=
  if a = 0 then ⟨[0x7FFFFFFFFF], false, 1⟩
  else
    let m : Int := roundAway (2 ^ q) a.toInt.natAbs
    let (r, l) := limitLong (if a.toInt < 0 then -m else m)
    ⟨[r], l, 0⟩

/-- A whole number within 4 of the exact value, whose whole part is k: which one is open (log 1). -/
def within4 (whole : Bool) (k e : Int) : Int := k + clampInt (if whole then -4 else -3) 4 e

/-- CORDIC ROT: cosine and sine of a π / 2^39, in units of 2^-39. They are whole at multiples of a right angle alone. -/
def rotRes (a : Long) : SideRes :=
  let right := a.toNat % 274877906944 == 0
  let (c, s) := turnCosSin a.toInt 40
  let u := fixOne / 549755813888
  let x := limitLong (within4 right (c / u) (Config.cordicCos a))
  let y := limitLong (within4 right (s / u) (Config.cordicSin a))
  ⟨[x.1, y.1], x.2 || y.2, 0⟩

/-- CORDIC VEC: the magnitude, and the angle modulo 2^40; an angle of π is -2^39. -/
def vecRes (x y : Long) : SideRes :=
  if x = 0 ∧ y = 0 then ⟨[0, 0], false, 0⟩
  else
    let n := x.toInt.natAbs ^ 2 + y.toInt.natAbs ^ 2
    let r := isqrt 41 n
    let m := limitLong (within4 (r * r == n) r (Config.cordicMag x y))
    let (w, k) := angleUnits x.toInt y.toInt
    let ang : Long := if y = 0 ∧ x.toInt < 0 then 0x8000000000 else BitVec.ofInt 40 (within4 w k (Config.cordicAngle x y))
    ⟨[m.1, ang], m.2, 0⟩

end Sys2Proof.Machine
end

