-- ==== Sys2Proof/Machine/RedSpec.lean ====
section
/-! DEFINITION. The arithmetic of spectra, shock spectra and the built-in decimation filter (R320 to R322, R324, R326): what the
rules compute, with errors no larger than the bounds they give (log 35). -/

namespace Sys2Proof.Machine

open Sys2Proof

/-- a / b rounded to the nearest integer; which way a tie goes is open. -/
def roundTie (a : Int) (b : Nat) : Int :=
  let q := (2 * a + b) / (2 * b : Nat)
  if (2 * a + b) % (2 * b : Nat) = 0 ∧ !Config.tieUp a b then q - 1 else q

/-! ### Windows and transforms (R320) -/

/-- a_0 to a_4 of a window, in units of 10^-9. -/
def winCoef (win : Nat) : List Int :=
  if win = 1 then [500000000, 500000000]
  else if win = 2 then [215578950, 416631580, 277263158, 83578947, 6947368]
  else if win = 3 then [358750000, 488290000, 141280000, 11680000]
  else [1000000000]

/-- w[n] of a window of 2^k points, rounded to 24 fraction bits. -/
def winAt (win k n : Nat) : Int :=
  let l := winCoef win
  let v := ((List.range l.length).zip l).map (fun e => (if e.1 % 2 = 0 then e.2 else -e.2) * (turnCosSin (e.1 * n : Nat) k).1)
  roundTie (v.foldl (· + ·) 0 * 16777216) (1000000000 * fixOne.toNat)

/-- S1 and S2 of a window, with 23 fraction bits (R322). -/
def winSum1 (win k : Nat) : Int := roundTie (((List.range (2 ^ k)).map (winAt win k)).foldl (· + ·) 0) 2
def winSum2 (win k : Nat) : Int :=
  roundTie (((List.range (2 ^ k)).map (fun n => winAt win k n * winAt win k n)).foldl (· + ·) 0) (2 ^ 25)

/-- A member's frame of 2^k values less its mean, where DEMEAN asks for that. -/
def demeaned (on : Bool) (x : List Int) : List Int :=
  if on then (let m := roundAway (x.foldl (· + ·) 0) x.length; x.map (· - m)) else x

/-- The real (part 0) or imaginary (part 1) part of X[b] of a frame of 2^k values, with 64 fraction bits: the transform, and an
error the engine may make within the bound of R320. -/
def specX (win k : Nat) (mean : Bool) (x : List Int) (b part : Nat) : Int :=
  let y := demeaned mean x
  let terms := ((List.range y.length).zip y).map (fun e =>
    let t := turnCosSin (b * e.1 : Nat) k
    winAt win k e.1 * e.2 * (if part = 0 then t.1 else -t.2))
  let big : Int := (x.map Int.natAbs).foldl max 0
  let lim := (k + 2 : Nat) * (2 ^ k : Nat) * big * 16777216
  terms.foldl (· + ·) 0 / 2 ^ 60 + clampInt (-lim) lim (Config.dftErr x b part)

/-! ### Averages and their scale (R321, R322) -/

/-- Member i of a frame. -/
def memberOf (k : Nat) (d : List Int) (i : Nat) : List Int := (d.drop (i * 2 ^ k)).take (2 ^ k)

/-- The sum over frames of X_i conj X_j at bin b, with 128 fraction bits: real (part 0) or imaginary part. -/
def crossSum (win k : Nat) (mean : Bool) (fr : List (List Int)) (b i j part : Nat) : Int :=
  (fr.map (fun d =>
    let ri := specX win k mean (memberOf k d i) b 0
    let ii := specX win k mean (memberOf k d i) b 1
    let rj := specX win k mean (memberOf k d j) b 0
    let ij := specX win k mean (memberOf k d j) b 1
    if part = 0 then ri * rj + ii * ij else ii * rj - ri * ij)).foldl (· + ·) 0

/-- The pairs i ≤ j of c members, in the order of R322. -/
def specPairs (c : Nat) : List (Nat × Nat) := ((List.range c).map (fun i => (List.range (c - i)).map (fun d => (i, i + d)))).flatten

/-- The outputs of bin b, RE and IM of each pair, times K S2 2^80: the sums, and what rounded products and outputs may be off by. -/
def specBin (win k : Nat) (mean : Bool) (c : Nat) (fr : List (List Int)) (b : Nat) : List Int :=
  let big := ((List.range c).map (fun i => crossSum win k mean fr b i i 0)).foldl max 0
  let lim := big / 2 ^ 35
  ((specPairs c).map (fun e => (List.range 2).map (fun part =>
    if part = 1 ∧ e.1 = e.2 then 0
    else crossSum win k mean fr b e.1 e.2 part + clampInt (-lim) lim (Config.specErr fr.flatten b (e.1 * 16 + e.2) part)))).flatten

/-- A value v / den specScaled by 2^-e, e from -128 to 127, rounded. -/
def specScaled (den : Nat) (e : Int) (v : Int) : Int := if 0 ≤ e then roundTie v (den * 2 ^ e.toNat) else roundTie (v * 2 ^ (-e).toNat) den

/-- EXP: the smallest its field holds with every value below 2^38 after rounding. -/
def specExp (den : Nat) (l : List Int) : Int :=
  match (List.range 256).find? (fun i => l.all (fun v => decide ((specScaled den ((i : Int) - 128) v).natAbs < 274877906944))) with
  | some i => (i : Int) - 128
  | none => 127

/-- The buffer's EXP and its values, bin by bin, pair by pair, RE then IM. -/
def specBuffer (win k : Nat) (mean : Bool) (c : Nat) (fr : List (List Int)) : Int × List Int :=
  let s2 := ((List.range (2 ^ k)).map (fun n => winAt win k n * winAt win k n)).foldl (· + ·) 0
  let den := 2 ^ 80 * fr.length * s2.toNat
  let l := ((List.range (2 ^ k / 2 + 1)).map (specBin win k mean c fr)).flatten
  let e := specExp den l
  (e, l.map (specScaled den e))

/-! ### Shock response coefficients (R324) -/

/-- n more terms of a series each of which is the last one times p / (k+1). -/
def seriesBy1 (p : Int) : Nat → Nat → Int → Int
  | 0, _, t => t
  | n + 1, k, t => t + seriesBy1 p n (k + 1) (fixMul t p / ((k + 1 : Nat) : Int))

/-- Square n times. -/
def squares : Nat → Int → Int
  | 0, v => v
  | n + 1, v => squares n (fixMul v v)

/-- e^-x for x ≥ 0. -/
def fixExpNeg (x : Int) : Int := squares 20 (seriesBy1 (-(x / 1048576)) 24 0 fixOne)

/-- Cosine and sine of an angle ≥ 0. -/
def radCosSin (a : Int) : Int × Int :=
  let h := fixPi / 2
  let q := a / h % 4
  let (c, s) := fixCosSin (a % h)
  if q = 0 then (c, s) else if q = 1 then (-s, c) else if q = 2 then (-c, -s) else (s, -c)

/-- Coefficient i (b0, b1, b2, a1, a2) for a frequency in 2^-10 Hz, Q in 1/256, an SPB and a period in 2^-32 ns: computed in double
precision, whose error stays below 2^-48, then rounded to 37 fraction bits. -/
def srsCoef (i f q spb pq : Nat) : Int :=
  let wt := 2 * fixPi * (f * pq : Nat) / (1024 * spb * 1000000000 * 4294967296 : Nat)
  let root : Int := isqrt 101 ((q * q - 16384) * (fixOne.toNat * fixOne.toNat) / (q * q))
  let k := fixMul wt root
  let e := fixExpNeg (wt * 128 / (q : Int))
  let (cos, sin) := radCosSin k
  let c := fixMul e cos
  let s := if k = 0 then e else fixMul e sin * fixOne / k
  let e2 := fixMul e e
  let v := [fixOne - s, 2 * (s - c), e2 - s, 2 * c, -e2].getD i 0
  let lim : Int := 4503599627370496
  roundTie (v + clampInt (-lim) lim (Config.srsErr i f q spb pq)) (2 ^ 63)

/-! ### The built-in decimation filter (R326) -/

/-- Tap t of the filter for M: 36 M + 1 taps, alike from both ends, that sum to 2^38. -/
def builtinTap (m t : Nat) : Int :=
  if t = 18 * m then 274877906944 - 2 * ((List.range (18 * m)).map (Config.decimHalf m)).foldl (· + ·) 0
  else Config.decimHalf m (min t (36 * m - t))

end Sys2Proof.Machine
end

