-- ==== Sys2Proof/Machine/Octets.lean ====
section
/-! DEFINITION. Octets, bit strings, CRC-32 and 64-bit words, as messages and frames are laid out. -/

namespace Sys2Proof.Machine

open Sys2Proof

/-- A number as n little-endian octets. -/
def le (n v : Nat) : List Octet := (List.range n).map (fun i => BitVec.ofNat 8 (v / 256 ^ i))

/-- A long as 5 octets (R129). -/
def leLong (v : Long) : List Octet := le 5 v.toNat

/-- Octets padded with zeros to a multiple of n. -/
def padTo (n : Nat) (l : List Octet) : List Octet := l ++ List.replicate ((n - l.length % n) % n) 0

/-- Elements of w bits packed least significant first, padded to an octet (R383). -/
def packBits (w : Nat) (l : List Nat) : List Octet :=
  le ((w * l.length + 7) / 8) ((l.foldr (fun x acc => x % 2 ^ w + 2 ^ w * acc) 0))

/-- CRC-32 of IEEE 802.3 (reflected, polynomial 0xEDB88320), bit by bit. -/
def crcBit (c : BitVec 32) : BitVec 32 := if c.getLsbD 0 then (c >>> 1) ^^^ 0xEDB88320 else c >>> 1

def crcOctet (c : BitVec 32) (o : Octet) : BitVec 32 :=
  (List.range 8).foldl (fun x _ => crcBit x) (c ^^^ o.setWidth 32)

/-- CRC-32 of a string of octets. -/
def crc32 (l : List Octet) : Nat := ((l.foldl crcOctet 0xFFFFFFFF) ^^^ 0xFFFFFFFF).toNat

/-- A number from little-endian octets. -/
def unLe (l : List Octet) : Nat := l.foldr (fun o a => o.toNat + 256 * a) 0

/-- n octets from octet k on, as a number. -/
def octNum (l : List Octet) (k n : Nat) : Nat := unLe ((l.drop k).take n)

/-- Octets in groups of n, the first lowest in each; the last group ends in zeros. -/
def groups (n : Nat) (l : List Octet) : List Nat :=
  (List.range ((l.length + n - 1) / n)).map (fun k => ((l.drop (n * k)).take n).foldr (fun b a => b.toNat + 256 * a) 0)

/-- The octets of words, each with its bits 7:0 first (R66). -/
def wordOctets (l : List Word64) : List Octet := (l.map (fun w => le 8 w.toNat)).flatten

/-- A control word of a type with its bits 55:0. -/
def ctrlWord (ty v : Nat) : Word64 := BitVec.ofNat 64 (ty % 256 * 72057594037927936 + v % 72057594037927936)

/-- The type octet of a control word. -/
def ctrlType (w : Word64) : Nat := w.toNat / 72057594037927936

end Sys2Proof.Machine
end

