-- ==== Sys2Proof/Machine/FabWords.lean ====
section
/-! DEFINITION. What a fabric port puts on its link and takes from it: control blocks (R341, R371), the messages of chapter 11
(R344, R350), frames of chapter 12 (R365 to R368, R383, R386, R387, R390), link keys (R361, R448). -/

namespace Sys2Proof.Machine

open Sys2Proof

/-! ### Control blocks (R341, R371) -/

def edgeWord (depth : Nat) (beat : BitVec 48) : Word64 := ctrlWord 0x2D (depth % 64 * 2 ^ 48 + beat.toNat)
def tdataWord (off addr : Nat) : Word64 := ctrlWord 0x33 (off % 2 ^ 24 * 2 ^ 32 + addr % 65536 * 65536)
def dreqWord (tag : Nat) : Word64 := ctrlWord 0x55 (tag % 65536 * 2 ^ 40)
def drespWord (tag turn : Nat) : Word64 := ctrlWord 0x66 (tag % 65536 * 2 ^ 40 + turn % 2 ^ 32)
def lackWord (vl : Nat) (nak : Bool) (ack crtot : BitVec 16) : Word64 :=
  ctrlWord 0x4B (vl % 4 * 2 ^ 54 + nak.toNat * 2 ^ 53 + ack.toNat * 2 ^ 37 + crtot.toNat * 2 ^ 21)
def sofWord (vl w : Nat) : Word64 := ctrlWord 0x78 (vl % 4 * 2 ^ 54 + w % 512 * 2 ^ 45)

/-! ### The messages of chapter 11 (R343, R344, R350) -/

/-- Bit k of a flag octet. -/
def flag (b : Bool) (k : Nat) : Nat := if b then 2 ^ k else 0

/-- A HELLO's 48 octets. -/
def helloOctets (m : HelloMsg) : List Octet :=
  le 2 0x0101 ++ [m.ver] ++ le 1 (flag m.authReq 0 + flag m.encReq 1 + flag m.strapped 2 + flag m.tentative 3 + flag m.running 4
      + flag m.aligned 5 + flag m.encCap 6)
    ++ [m.port, m.gens] ++ le 8 m.serial.toNat ++ le 2 m.addr.toNat ++ [m.prio, m.qual] ++ le 8 m.mserial.toNat ++ le 6 m.beat.toNat
    ++ le 16 m.nonce.toNat

/-- n octets from octet k on, as a bit vector. -/
def octBits (w : Nat) (l : List Octet) (k n : Nat) : BitVec w := BitVec.ofNat w (octNum l k n)

/-- A HELLO from its octets. -/
def parseHello (o : List Octet) : HelloMsg :=
  let f := octNum o 3 1
  { ver := octBits 8 o 2 1, authReq := f.testBit 0, encReq := f.testBit 1, strapped := f.testBit 2, tentative := f.testBit 3
    running := f.testBit 4, aligned := f.testBit 5, encCap := f.testBit 6, port := octBits 8 o 4 1, gens := octBits 8 o 5 1
    serial := octBits 64 o 6 8, addr := octBits 16 o 14 2, prio := octBits 8 o 16 1, qual := octBits 8 o 17 1
    mserial := octBits 64 o 18 8, beat := octBits 48 o 26 6, nonce := octBits 128 o 32 16 }

/-- A link-state record's octets (R350). -/
def lsrOctets (r : Lsr) : List Octet :=
  le 2 0x0104 ++ le 8 r.serial.toNat ++ le 4 r.seq.toNat ++ le 2 r.addr.toNat
    ++ le 1 (flag r.strapped 2 + flag r.tentative 3 + flag r.running 4 + flag r.aligned 5 + flag r.grid.isSome 6)
    ++ [r.prio, r.qual, r.depth] ++ le 1 r.nbrs.length ++ le 3 0
    ++ (match r.grid with
      | some g => le 10 g.epoch.toNat ++ le 4 g.pint.toNat ++ le 4 g.pfrac.toNat ++ le 6 g.taiSec.toNat ++ le 4 g.taiNs.toNat ++ le 2 g.taiUtc.toNat
          ++ le 1 (if g.taiValid then 1 else 0) ++ le 1 0
      | none => [])
    ++ (r.nbrs.map (fun n => [n.lport, n.pport, n.gen, 0] ++ le 8 n.serial.toNat)).flatten

/-- A record from its octets. -/
def parseLsr (o : List Octet) : Lsr :=
  let f := octNum o 16 1
  let b := if f.testBit 6 then 56 else 24
  { serial := octBits 64 o 2 8, seq := octBits 32 o 10 4, addr := octBits 16 o 14 2, strapped := f.testBit 2, tentative := f.testBit 3
    running := f.testBit 4, aligned := f.testBit 5, master := f.testBit 6, prio := octBits 8 o 17 1, qual := octBits 8 o 18 1
    depth := octBits 8 o 19 1
    grid := if f.testBit 6 then some ⟨octBits 80 o 24 10, octBits 32 o 34 4, octBits 32 o 38 4, octBits 48 o 42 6, octBits 32 o 48 4,
      octBits 16 o 52 2, (octNum o 54 1).testBit 0⟩ else none
    nbrs := (List.range (octNum o 20 1)).map (fun i => let k := b + 12 * i
      ⟨octBits 8 o k 1, octBits 8 o (k + 1) 1, octBits 8 o (k + 2) 1, octBits 64 o (k + 4) 8⟩) }

/-- The code of SYNC_DONE: one of the chapter's that R343 does not give away to another message (log 12). -/
def syncDoneCode : Nat := 0x0105 + Config.syncDone % 251

/-- SYNC_DONE: its code and nothing else (log 12). -/
def syncDoneOctets : List Octet := le 2 syncDoneCode

/-! ### Payloads (R367, R383, R386, R387, R390) -/

/-- Octets of a payload before a tag. -/
def payloadOctets : Payload → Nat
  | .stream _ _ store _ _ _ l => if store = 2 then 4 + 5 * l.length else 4 + (20 * l.length + 7) / 8
  | .ctrl (.whistle _ _) => 16
  | .ctrl (.period _ _ _) => 20
  | .ctrl (.refuse _ _) => 12
  | .ctrl (.cancel _) => 12
  | .ctrl (.other o) => o.length
  | .fault _ => 32
  | .token => 0
  | .qmsg _ l => 5 * l.length
  | .reserved => 0

/-- A fault report's 32 octets (R390). -/
def repOctets (r : FaultRep) : List Octet :=
  le 2 r.origin.toNat ++ le 1 r.unit.toNat ++ le 1 ((if r.self then 1 else 0) + (if r.late then 2 else 0) + (if r.overflow then 4 else 0))
    ++ le 2 r.code.toNat ++ le 2 r.partners.toNat ++ le 4 r.fserial.toNat ++ le 10 r.t.toNat ++ le 6 r.beat.toNat
    ++ le 2 r.witness.toNat ++ le 2 0

/-- A control message's octets. -/
def ctrlOctets : Ctrl → List Octet
  | .whistle tag t => le 2 0x0201 ++ le 2 tag.toNat ++ le 4 0 ++ le 6 t.toNat ++ le 2 0
  | .period a b t => le 2 0x0202 ++ le 2 0 ++ le 4 a.toNat ++ le 4 b.toNat ++ le 6 t.toNat ++ le 2 0
  | .refuse c t => le 2 0x0203 ++ [c, 0] ++ le 6 t.toNat ++ le 2 0
  | .cancel t => le 2 0x0204 ++ le 2 0 ++ le 6 t.toNat ++ le 2 0
  | .other o => o

/-- A payload's octets, unencrypted. -/
def loadOctets : Payload → List Octet
  | .stream _ _ store _ _ src l => le 3 (src.toNat * 64) ++ [0] ++ packBits (if store = 2 then 40 else 20) (l.map (·.toNat))
  | .ctrl m => ctrlOctets m
  | .fault r => repOctets r
  | .qmsg _ l => (l.map leLong).flatten
  | _ => []

/-- FTYPE; 0, which is reserved, for what has none. -/
def ftypeOf : Payload → Nat
  | .stream _ _ _ _ _ _ _ => 1
  | .ctrl _ => 2
  | .fault _ => 3
  | .token => 4
  | .qmsg _ _ => 5
  | .reserved => 0

/-- SPEC (R367). -/
def specOf : Payload → Nat
  | .stream d f st spb offs _ _ => d.toNat * 2 ^ 30 + f.toNat * 2 ^ 28 + st.toNat * 2 ^ 26 + spb.toNat * 2 ^ 13 + offs.toNat
  | .qmsg q _ => q.toNat * 2 ^ 32
  | _ => 0

/-- Elements of w bits taken from octets, as many as they hold. -/
def unpackBits (w : Nat) (o : List Octet) : List Long :=
  let v := unLe o
  (List.range (8 * o.length / w)).map (fun j => BitVec.ofNat 40 (v / 2 ^ (w * j) % 2 ^ w))

/-- A control message from its octets. -/
def parseCtrl (o : List Octet) : Ctrl :=
  let c := octNum o 0 2
  if c = 0x0201 then .whistle (octBits 16 o 2 2) (octBits 48 o 8 6)
  else if c = 0x0202 then .period (octBits 32 o 4 4) (octBits 32 o 8 4) (octBits 48 o 12 6)
  else if c = 0x0203 then .refuse (octBits 8 o 2 1) (octBits 48 o 4 6)
  else if c = 0x0204 then .cancel (octBits 48 o 4 6)
  else .other o

/-- A fault report from its octets. -/
def parseRep (dst : BitVec 16) (o : List Octet) : FaultRep :=
  let f := octNum o 3 1
  { dst := dst, origin := octBits 16 o 0 2, unit := octBits 8 o 2 1, self := f.testBit 0, late := f.testBit 1, overflow := f.testBit 2
    code := octBits 16 o 4 2, partners := octBits 16 o 6 2, fserial := octBits 32 o 8 4, t := octBits 80 o 12 10, beat := octBits 48 o 22 6
    witness := octBits 16 o 28 2 }

/-- What a frame of an FTYPE carries. -/
def parseLoad (ftype : Nat) (dst : BitVec 16) (spec : Nat) (o : List Octet) : Payload :=
  if ftype = 1 then
    let st := spec / 2 ^ 26 % 4
    .stream (BitVec.ofNat 18 (spec / 2 ^ 30)) (BitVec.ofNat 2 (spec / 2 ^ 28)) (BitVec.ofNat 2 st) (BitVec.ofNat 13 (spec / 2 ^ 13))
      (BitVec.ofNat 13 spec) (BitVec.ofNat 18 (octNum o 0 3 / 64)) (unpackBits (if st = 2 then 40 else 20) (o.drop 4))
  else if ftype = 2 then .ctrl (parseCtrl o)
  else if ftype = 3 then .fault (parseRep dst o)
  else if ftype = 4 then .token
  else if ftype = 5 then .qmsg (BitVec.ofNat 16 (spec / 2 ^ 32)) (unpackBits 40 o)
  else .reserved

/-! ### Frames (R365, R366) -/

/-- Data blocks of a frame of LEN octets (R365). -/
def frameW (len : Nat) : Nat := (28 + len + 7) / 8

/-- The 24-octet header. -/
def headerOctets (f : Frame) : List Octet :=
  le 1 (ftypeOf f.load) ++ le 1 (f.vl.toNat * 64 + flag f.enc 5 + flag f.last 4) ++ le 2 f.dst.toNat ++ le 2 f.src.toNat ++ le 1 f.ttl.toNat ++ le 1 0
    ++ le 2 f.seq.toNat ++ le 2 f.len.toNat ++ le 6 f.beat.toNat ++ le 6 (specOf f.load)

/-- The SOF block and the data blocks of a frame whose payload is sent as octets o; octet 0 of eight in bits 7:0 (log 12). A
forwarded frame whose CRC has failed leaves with its CRC inverted (R379). -/
def frameWordsOf (f : Frame) (o : List Octet) : List Word64 :=
  let body := headerOctets f ++ o
  let crc := crc32 body
  sofWord f.vl.toNat (frameW o.length) :: (groups 8 (body ++ le 4 (if f.crcOk then crc else 4294967295 - crc))).map (BitVec.ofNat 64)

/-- The payload of frame f under a key: AES-256-GCM with the header as associated data, the tag behind it (R361). -/
def sealOctets (k : LinkKey) (f : Frame) : List Octet :=
  let o := loadOctets f.load
  (List.range (o.length + 16)).map (Config.gcmSeal k.key (BitVec.ofNat 96 (k.salt.toNat * 2 ^ 64 + k.count % 2 ^ 64)) (headerOctets f) o)

/-- The words of frame f, sealed where it is encrypted. -/
def frameWords (k : Option LinkKey) (f : Frame) : List Word64 :=
  match f.enc, k with
  | true, some x => frameWordsOf f (sealOctets x f)
  | _, _ => frameWordsOf f (loadOctets f.load)

/-- A frame from the words that arrive: its CRC and W tested, its payload opened where ENC is set. -/
def parseFrame (k : Option LinkKey) (ws : List Word64) : Frame :=
  let sof := (ws.headD 0).toNat
  let o := wordOctets ws.tail
  let len := octNum o 10 2
  let head := o.take 24
  let body := (o.drop 24).take len
  let fl := octNum o 1 1
  let plain : Option (List Octet) :=
    if fl.testBit 5 then (match k with
      | some x => Config.gcmOpen x.key x.salt head body
      | none => none)
    else some body
  { vl := BitVec.ofNat 2 (sof / 2 ^ 54)
    crcOk := decide (28 + len ≤ o.length) && crc32 (head ++ body) == octNum o (24 + len) 4
    tagOk := plain.isSome
    wOk := sof / 2 ^ 45 % 512 == frameW len && ws.tail.length == frameW len
    enc := fl.testBit 5, last := fl.testBit 4, dst := octBits 16 o 2 2, src := octBits 16 o 4 2, ttl := octBits 6 o 6 1
    seq := octBits 16 o 8 2, len := octBits 16 o 10 2, beat := octBits 48 o 12 6
    load := parseLoad (octNum o 0 1) (octBits 16 o 2 2) (octNum o 18 6) (plain.getD []) }

/-! ### Link keys (R448) -/

/-- HMAC-SHA-384 with a key of at most 128 octets. -/
def hmac384 (key msg : List Octet) : List Octet :=
  let k := key ++ List.replicate (128 - key.length) 0
  let h (l : List Octet) : List Octet := le 48 (Config.sha384 l).toNat
  h (k.map (· ^^^ 0x5C) ++ h (k.map (· ^^^ 0x36) ++ msg))

/-- The 72 octets of R448: a is the end with the lower SERIAL, as SERIAL, NONCE and port; z is Z_SS. A SERIAL and a NONCE stand as a
HELLO carries them, SP 800-108's counter with its top octet first (log 12). -/
def linkOctets (a b : BitVec 64 × BitVec 128 × Octet) (z : List Octet) : List Octet :=
  let k := hmac384 (le 16 a.2.1.toNat ++ le 16 b.2.1.toNat) z
  let info := [0x4B, 0x4C, 0x4E, 0x4B] ++ le 8 a.1.toNat ++ le 8 b.1.toNat ++ [a.2.2, b.2.2]
  (hmac384 k ((le 4 1).reverse ++ info) ++ hmac384 k ((le 4 2).reverse ++ info)).take 72

/-- The keys of a link's two directions, from the lower SERIAL and to it. -/
def linkKeys (a b : BitVec 64 × BitVec 128 × Octet) (z : List Octet) : LinkKey × LinkKey :=
  let o := linkOctets a b z
  (⟨octBits 256 o 0 32, octBits 32 o 32 4, 0⟩, ⟨octBits 256 o 36 32, octBits 32 o 68 4, 0⟩)

end Sys2Proof.Machine
end

