-- ==== Sys2Proof/Machine/Cic.lean ====
section
/-! DEFINITION. Cluster interrupt controllers, device sources, MSI-X and the wake watcher (08): edge events, offers,
acceptance, end of interrupt, hold-off, and settle, which every step ends with. -/

namespace Sys2Proof.Machine

open Sys2Proof

/-! ### SRC_CFG fields (R263) -/

def cfgTargets (w : Long) : BitVec 16 := (w >>> 24).setWidth 16
def cfgGroup (w : Long) : Nat := ((w >>> 20).setWidth 4 : BitVec 4).toNat
def cfgPrio (w : Long) : Nat := ((w >>> 16).setWidth 3 : BitVec 3).toNat
def cfgLast (w : Long) : Nat := ((w >>> 8).setWidth 4 : BitVec 4).toNat

/-- The bits of SRC_CFG a store may change: TARGETS, GROUP, PRIO (R263); only target 0 for the steward (R264). -/
def cfgMask (c : Nat) : Long := if c < 64 then 0xFFFFF70000 else 0x0001F70000

def Cic.srcCfg (x : Cic) (src : Nat) : Long := mget (fun _ => 0) x.cfg src
def Cic.stack (x : Cic) (k : Nat) : List (Nat × Nat) := mget (fun _ => []) x.prios k
def Cic.count (x : Cic) (src : Nat) : BitVec 8 := mget (fun _ => 0) x.cnt src
def Cic.holdOff (x : Cic) (g : Nat) : HoldOff := mget (fun _ => {}) x.hold g
def Cic.setStack (x : Cic) (k : Nat) (l : List (Nat × Nat)) : Cic := { x with prios := mset (fun _ => []) x.prios k l }
def Cic.setHold (x : Cic) (g : Nat) (h : HoldOff) : Cic := { x with hold := mset (fun _ => {}) x.hold g h }

/-- One bit of a source vector set or cleared. -/
def vecBit (v : BitVec 256) (i : Nat) (b : Bool) : BitVec 256 :=
  if b then v ||| (1#256 <<< i) else v &&& ~~~(1#256 <<< i)

/-- R252: an edge event on a source. -/
def Cic.edgeEvent (x : Cic) (src : Nat) : Cic :=
  let bump := mset (fun _ => 0) x.cnt src (if x.count src = 255 then 255 else x.count src + 1)
  if x.pend.getLsbD src then { x with cnt := bump }
  else if x.active.getLsbD src then { x with pend := vecBit x.pend src true, cnt := bump }
  else { x with pend := vecBit x.pend src true }

/-- May core i of the device take interrupts: not halted, locked or held in reset (R254). -/
def Core.takes (c : Core) : Bool :=
  match c.run with
  | .running => true
  | .bwait _ => true
  | _ => false

/-- The core number behind core k of CIC c. -/
def cicCore (c k : Nat) : Nat := if c < 64 then 16 * c + k else 1024

/-- R254: is source src of CIC c deliverable to core k? -/
def State.deliverable (s : State) (c src k : Nat) : Bool :=
  let x := s.cic c
  let w := x.srcCfg src
  x.pend.getLsbD src && x.en.getLsbD src && !x.active.getLsbD src
    && (cfgTargets w).getLsbD k && (s.core (cicCore c k)).takes
    && (match x.stack k with
        | [] => true
        | (p, _) :: _ => decide (p < cfgPrio w))
    && (x.holdOff (cfgGroup w)).remain == 0

/-- The cores after core k, in ascending order, wrapping from 15 to 0 (R255). -/
def coresAfter (k : Nat) : List Nat := (List.range 16).map (fun j => (k + 1 + j) % 16)

/-- R255: the core source src is offered to: it stays while deliverable there, else the next in order. -/
def State.offerFor (s : State) (c src : Nat) : Option Nat :=
  let x := s.cic c
  match lookup x.offers src with
  | some k => if s.deliverable c src k then some k else (coresAfter k).find? (fun j => s.deliverable c src j)
  | none => (coresAfter (cfgLast (x.srcCfg src))).find? (fun j => s.deliverable c src j)

/-- All offers of CIC c, by source. While its domain is not on it offers nothing (R274). -/
def State.offersOf (s : State) (c : Nat) : List (Nat × Nat) :=
  if (s.cic c).pend = 0 || !s.domOn (domCic c) then []
  else (List.range 256).filterMap (fun src => (s.offerFor c src).map (fun k => (src, k)))

/-- Bring the offers of every CIC up to date (R255, R260). -/
def State.offerAll (s : State) : State :=
  { s with cics := s.cics.map (fun e => (e.1, { e.2 with offers := s.offersOf e.1 })) }

/-- R256: the offer core k of CIC c takes: highest priority, then lowest source. -/
def State.bestOffer (s : State) (c k : Nat) : Option Nat :=
  let x := s.cic c
  ((x.offers.filter (fun e => e.2 = k)).map (·.1)).foldl
    (fun b src => match b with
      | none => some src
      | some t => if cfgPrio (x.srcCfg t) < cfgPrio (x.srcCfg src) then some src else some t) none

/-- R259: start a group's hold-off timer at pack time t. -/
def Cic.startHold (x : Cic) (g : Nat) (t : Int) : Cic :=
  let h := x.holdOff g
  x.setHold g { h with remain := h.value, runUnit := h.unit, start := if h.value = 0 then 0 else t }

/-- R259: REMAIN at pack time t. A timer that counts time has gone down once per 64 ns since its start; it reaches 0 by
HOLDOFF_EXPIRE (log 33), and shows 1 until then. -/
def HoldOff.left (h : HoldOff) (t : Int) : Nat :=
  if h.remain = 0 then 0
  else if h.runUnit then h.remain.toNat
  else max 1 (h.remain.toNat - ((t - h.start) / (64 * nsU)).toNat)

/-- R256: core k of a CIC enters for source src at pack time t. -/
def Cic.accept (x : Cic) (k src : Nat) (t : Int) : Cic :=
  let w := x.srcCfg src
  let x1 : Cic := { x with
    pend := vecBit x.pend src false
    active := vecBit x.active src true
    cfg := mset (fun _ => 0) x.cfg src ((w &&& ~~~(0xF00 : Long)) ||| (BitVec.ofNat 40 (k % 16 * 256)))
    offers := x.offers.filter (fun e => e.1 ≠ src) }
  (x1.setStack k ((cfgPrio w, src) :: x1.stack k)).startHold (cfgGroup w) t

/-- R258: end of interrupt for source src at core k. -/
def Cic.eoi (x : Cic) (k src : Nat) : Cic :=
  if (x.stack k).any (fun e => e.2 == src) then
    { x.setStack k ((x.stack k).filter (fun e => e.2 != src)) with active := vecBit x.active src false }
  else
    { x with stray := true, strayCnt := if x.strayCnt = 65535 then 65535 else x.strayCnt + 1 }

/-- R261: a core reset empties the core's stack and clears its active sources. -/
def Cic.coreReset (x : Cic) (k : Nat) : Cic :=
  { x.setStack k [] with
    active := (x.stack k).foldl (fun a e => vecBit a e.2 false) x.active
    offers := x.offers.filter (fun e => e.2 ≠ k) }

/-- The 32 bits a store to a source vector word names (R262). -/
def wordBits (w : Nat) (v : Long) : List Nat := (List.range 32).filterMap (fun j => if v.getLsbD j then some (32 * w + j) else none)

def Cic.storePendSet (x : Cic) (w : Nat) (v : Long) : Cic := (wordBits w v).foldl Cic.edgeEvent x
def Cic.storePendClr (x : Cic) (w : Nat) (v : Long) : Cic := { x with pend := (wordBits w v).foldl (fun a i => vecBit a i false) x.pend }
def Cic.storeEnSet (x : Cic) (w : Nat) (v : Long) : Cic := { x with en := (wordBits w v).foldl (fun a i => vecBit a i true) x.en }
def Cic.storeEnClr (x : Cic) (w : Nat) (v : Long) : Cic := { x with en := (wordBits w v).foldl (fun a i => vecBit a i false) x.en }

/-- A store to SRC_CFG(src) of CIC c (R263). -/
def Cic.storeCfg (x : Cic) (c src : Nat) (v : Long) : Cic :=
  { x with cfg := mset (fun _ => 0) x.cfg src ((x.srcCfg src &&& ~~~cfgMask c) ||| (v &&& cfgMask c)) }

/-- A hold-off timer that has ended (R259). -/
def HoldOff.ended (h : HoldOff) : HoldOff := { h with remain := 0, start := 0 }

/-- A store to HOLDOFF(g) (R259): writing VALUE 0 ends a running timer at once. -/
def Cic.storeHold (x : Cic) (g : Nat) (v : Long) : Cic :=
  let h : HoldOff := { x.holdOff g with unit := v.getLsbD 39, value := v.setWidth 16 }
  x.setHold g (if h.value = 0 then h.ended else h)

/-- Every hold-off group changed by f. -/
def Cic.mapHold (x : Cic) (f : HoldOff → HoldOff) : Cic :=
  { x with hold := x.hold.filterMap (fun e => let h := f e.2; if h = {} then none else some (e.1, h)) }

/-- One count, at an edge, of a running hold-off timer that counts edges (R259). -/
def HoldOff.edge (h : HoldOff) : HoldOff :=
  if h.runUnit ∧ h.remain ≠ 0 then (if h.remain = 1 then h.ended else { h with remain := h.remain - 1 }) else h

/-- Raise an edge on source src of CIC c; lost while its domain is not on (R267, for sources 0 to 127). -/
def State.cicEdge (s : State) (c src : Nat) : State :=
  if c < 65 ∧ s.domOn (domCic c) then s.setCic c ((s.cic c).edgeEvent src) else s

/-! ### Device sources (R265) -/

/-- Are the enabled bits of an event word not all clear? -/
def State.evtLine (s : State) (evt en : Nat) : Bool :=
  mget (fun _ => 0) s.hreg evt &&& mget (fun _ => 0) s.hreg en != 0

/-- Some mailbox in RUN has TAIL ≠ CHEAD (D43, R494). -/
def State.doorbell (s : State) : Bool :=
  (List.range 16).any (fun m => s.rd (R.MB_STAT_STATE m) == 1 && s.rd (R.MB_DB_TAIL m) != s.rd (R.MB_STAT_CHEAD m))

/-- Is device source d high? -/
def State.line (s : State) (d : Nat) : Bool :=
  if d = 0 then s.evtLine R.BEAT_INT_STAT R.BEAT_INT_EN
  else if d = 1 then s.bit R.DRV_ABORT_STAT_LATCHED
  else if d = 2 then s.evtLine R.WH_EVT R.WH_EVT_EN
  else if d = 3 then s.evtLine R.PWR_EVT R.PWR_EVT_EN
  else if d = 4 then s.evtLine R.J_EVT R.J_EVT_EN
  else if d = 5 then s.evtLine R.KN_EVT R.KN_EVT_EN
  else if d = 6 then s.evtLine R.PACK_EVT R.PACK_EVT_EN
  else if d = 7 then (s.core 1024).run == .locked
  else if d < 24 then s.evtLine (R.SP_EVT (d - 8)) (R.SP_EVT_EN (d - 8))
  else if d < 32 then s.evtLine (R.FP_EVT (d - 24)) (R.FP_EVT_EN (d - 24))
  else if d < 36 then s.evtLine (R.S_EVT (d - 32)) (R.S_EVT_EN (d - 32))
  else if d < 40 then s.evtLine (R.DDR_EVT (d - 36)) (R.DDR_EVT_EN (d - 36))
  else if d = 40 then s.evtLine R.SVC_EVT R.SVC_EVT_EN
  else if d = 41 then s.evtLine R.PCIE_EVT R.PCIE_EVT_EN
  else if d = 43 then s.doorbell
  else if 48 ≤ d ∧ d < 64 then s.evtLine (R.MB_EVT (d - 48)) (R.MB_EVT_EN (d - 48))
  else false

/-- Every line as one vector. -/
def State.lines (s : State) : BitVec 128 := BitVec.ofNat 128 ((List.range 128).foldl (fun a d => if s.line d then a + 2 ^ d else a) 0)

/-- Domains that the watcher and PWR_SET know, AON apart (R270). -/
def isDomain (d : Nat) : Bool := decide (1 ≤ d ∧ d < 20) || decide (64 ≤ d ∧ d < 128)

/-- What the watcher captures of a rising edge of source d: each enabled slot of that source whose domain is not on
(R268, R498). -/
def State.watchHits (s : State) (d : Nat) : List Capture :=
  (List.range 64).filterMap (fun j =>
    let dom := s.rd (R.WATCH_DOMAIN j)
    if s.bit (R.WATCH_EN j) && s.rd (R.WATCH_SRC j) == d && isDomain dom && !s.domOn dom then some ⟨j, d, dom⟩ else none)

/-- Rising edges seen (R265): the DEV_EDGE bits, edges to forward, watcher captures. -/
def State.rise (s : State) (ds : List Nat) : State :=
  (s.onDev (fun z => { z with
    edge := ds.foldl (fun a d => a ||| (1#128 <<< d)) s.dev.edge
    fwd := s.dev.fwd ++ ds.map (fun d => (d, s.time))
    captures := s.dev.captures ++ ds.flatMap s.watchHits }))

/-- A pulse on a device source: one rising edge. -/
def State.pulse (s : State) (d : Nat) : State := s.rise [d]

/-- The sources whose line is now high and was low. -/
def State.risen (s : State) : List Nat :=
  (List.range 128).filter (fun d => s.lines.getLsbD d && !s.dev.level.getLsbD d)

/-- Sense the lines: rising edges are seen, and the levels kept (R265). -/
def State.sense (s : State) : State :=
  let s1 := s.rise s.risen
  (s1.onDev (fun z => { z with level := s.lines }))

/-- What every step ends with: the device sources sensed and the offers brought up to date. -/
def State.settle (s : State) : State := s.sense.offerAll

/-- A step that goes on. -/
def done (s : State) : Host.Outcome State Fault Refusal := .next s.settle

/-- A step of a command whose operands its row can carry; any other is a fault. -/
def doneIf (ok : Bool) (s : State) : Host.Outcome State Fault Refusal := if ok then done s else .fault .illFormed

/-- R271: a request for MSI-X vector v. -/
def State.msixRequest (s : State) (v : Nat) : State :=
  if !s.dev.msixEn then s
  else
    let pba := if v < 32 then R.MSIX_PBA_LO else R.MSIX_PBA_HI
    if s.dev.msixFmask || s.bit (R.MSIX_VCTRL_MASK v) then
      s.setWord pba (s.word pba ||| (1#32 <<< (v % 32)))
    else if (s.word pba).getLsbD (v % 32) then s
    else s.emit (.msix (s.word (R.MSIX_ADDR_HI v)) (s.word (R.MSIX_ADDR_LO v)) (s.word (R.MSIX_DATA v)))

/-- R271: send the message of each pending vector that is no longer masked. -/
def State.msixRelease (s : State) : State :=
  if !s.dev.msixEn || s.dev.msixFmask then s
  else (List.range 64).foldl (fun t v =>
    let pba := if v < 32 then R.MSIX_PBA_LO else R.MSIX_PBA_HI
    if (t.word pba).getLsbD (v % 32) && !t.bit (R.MSIX_VCTRL_MASK v) then
      (t.setWord pba (t.word pba &&& ~~~(1#32 <<< (v % 32)))).emit
        (.msix (t.word (R.MSIX_ADDR_HI v)) (t.word (R.MSIX_ADDR_LO v)) (t.word (R.MSIX_DATA v)))
    else t) s

/-- R265 to R267: forward one edge of source d to its CIC, or park it, and to MSI-X. -/
def State.forward (s : State) (d : Nat) : State :=
  let dest := s.rd (R.DEV_ROUTE_DEST d)
  let s1 :=
    if s.bit (R.DEV_ROUTE_CIC_EN d) && decide (dest < 65) then
      if s.domOn (domCic dest) then s.setCic dest ((s.cic dest).edgeEvent (128 + s.rd (R.DEV_ROUTE_CSRC d)))
      else s.set1 (R.DEV_ROUTE_PARKED d)
    else s
  if s1.bit (R.DEV_ROUTE_HOST_EN d) then s1.msixRequest (s1.rd (R.DEV_ROUTE_VEC d)) else s1

/-- R267: the parked edges of CIC c become events when its domain has come on. -/
def State.unpark (s : State) (c : Nat) : State :=
  (List.range 128).foldl (fun t d =>
    if t.bit (R.DEV_ROUTE_PARKED d) && t.rd (R.DEV_ROUTE_DEST d) == c then
      (t.wr (R.DEV_ROUTE_PARKED d) 0).setCic c ((t.cic c).edgeEvent (128 + t.rd (R.DEV_ROUTE_CSRC d)))
    else t) s

/-! ### The rows of this chapter -/

/-- A store to a CIC register by a core or the steward: nothing is performed while its domain is not on (R570). -/
def State.cicStore (s : State) (c : Nat) (f : Cic → Cic) : State :=
  if s.domOn (domCic c) then s.setCic c (f (s.cic c)) else s

/-- PEND_SET (R252). -/
def execPendSet (c : BitVec 7) (w : BitVec 3) (v : Long) (s : State) : Host.Outcome State Fault Refusal :=
  doneIf (cicOk c) (s.cicStore c.toNat (·.storePendSet w.toNat v))

/-- PEND_CLR (R253). -/
def execPendClr (c : BitVec 7) (w : BitVec 3) (v : Long) (s : State) : Host.Outcome State Fault Refusal :=
  doneIf (cicOk c) (s.cicStore c.toNat (·.storePendClr w.toNat v))

/-- EN_SET (R253). -/
def execEnSet (c : BitVec 7) (w : BitVec 3) (v : Long) (s : State) : Host.Outcome State Fault Refusal :=
  doneIf (cicOk c) (s.cicStore c.toNat (·.storeEnSet w.toNat v))

/-- EN_CLR (R260). -/
def execEnClr (c : BitVec 7) (w : BitVec 3) (v : Long) (s : State) : Host.Outcome State Fault Refusal :=
  doneIf (cicOk c) (s.cicStore c.toNat (·.storeEnClr w.toNat v))

/-- EOI (R258). -/
def execEoi (c : BitVec 7) (k : BitVec 4) (v : Long) (s : State) : Host.Outcome State Fault Refusal :=
  doneIf (cicCoreOk c k) (s.cicStore c.toNat (·.eoi k.toNat (v.toNat % 256)))

/-- R265: RAISE_DEV of cluster c raises device source D64 + c for one pulse; reserved in the steward's CIC (R264). -/
def State.raiseDev (s : State) (c : Nat) (v : Long) : State :=
  if c < 64 ∧ s.domOn (domCluster c) ∧ v.getLsbD 0 then s.pulse (64 + c) else s

/-- RAISE_DEV (R265). -/
def execRaiseDev (c : BitVec 7) (v : Long) (s : State) : Host.Outcome State Fault Refusal :=
  doneIf (cicOk c) (s.raiseDev c.toNat v)

/-- SRC_CFG_WRITE (R260, R263). -/
def execSrcCfgWrite (c : BitVec 7) (src : BitVec 8) (v : Long) (s : State) : Host.Outcome State Fault Refusal :=
  doneIf (cicOk c) (s.cicStore c.toNat (·.storeCfg c.toNat src.toNat v))

/-- HOLDOFF_WRITE (R259, R260). -/
def execHoldoffWrite (c : BitVec 7) (g : BitVec 4) (v : Long) (s : State) : Host.Outcome State Fault Refusal :=
  doneIf (cicOk c) (s.cicStore c.toNat (·.storeHold g.toNat v))

/-- R259: the time of a group's running timer has passed: REMAIN reaches 0 and the timer ends. -/
def Cic.endHold (x : Cic) (g : Nat) : Cic := x.setHold g (x.holdOff g).ended

/-- HOLDOFF_EXPIRE (R259): a timer that counts edges reaches 0 only by EDGE. -/
def execHoldoffExpire (c : BitVec 7) (g : BitVec 4) (s : State) : Host.Outcome State Fault Refusal :=
  doneIf (cicOk c)
    (if ((s.cic c.toNat).holdOff g.toNat).runUnit then s else s.cicStore c.toNat (·.endHold g.toNat))

/-- R239: the mask level of core k of CIC c. -/
def State.storeMask (s : State) (c k : Nat) (v : Long) : State :=
  if s.domOn (domCic c) then
    let i := cicCore c k
    s.setCore i { s.core i with mask := v.setWidth 2 }
  else s

/-- MASK_WRITE (R239). -/
def execMaskWrite (c : BitVec 7) (k : BitVec 4) (v : Long) (s : State) : Host.Outcome State Fault Refusal :=
  doneIf (cicCoreOk c k) (s.storeMask c.toNat k.toNat v)

/-- The instant of the oldest edge of source d that is not yet forwarded. -/
def State.edgeDue (s : State) (d : Nat) : Option Int := lookup s.dev.fwd d

/-- R265: the oldest edge of d leaves the router. Another of d less than 50 ns after it may have arrived as the same one:
which of the two happens is open (log 33). -/
def State.takeEdge (s : State) (d : Nat) (t : Int) : State :=
  let rest := s.dev.fwd.erase (d, t)
  match lookup rest d with
  | some u =>
    if u - t < 50 * nsU then (s.onDev (fun z => { z with fwd := if s.freeVal % 2 = 0 then rest else rest.erase (d, u) })).freeNext
    else s.onDev (fun z => { z with fwd := rest })
  | none => s.onDev (fun z => { z with fwd := rest })

/-- R265 to R267: the oldest edge of d is forwarded. -/
def State.forwardEdge (s : State) (d : Nat) : State :=
  match s.edgeDue d with
  | some t => (s.takeEdge d t).forward d
  | none => s

/-- DEVICE_SOURCE_EDGE (R265): the router forwards a rising edge of source d that it has seen. -/
def execDeviceSourceEdge (d : BitVec 7) (s : State) : Host.Outcome State Fault Refusal := done (s.forwardEdge d.toNat)

/-- R271: a write of a vector's control word, or of the Message Control word. -/
def State.msixWrite (s : State) : MsixWrite → State
  | .vctrl v w => (s.wr (R.MSIX_VCTRL_MASK v.toNat) (w.toNat % 2)).msixRelease
  | .msgCtl e f => ((s.onDev (fun z => { z with msixEn := e, msixFmask := f }))).msixRelease

/-- MSIX_UNMASK (R271). -/
def execMsixUnmask (w : MsixWrite) (s : State) : Host.Outcome State Fault Refusal := done (s.msixWrite w)

/-- WAKE_TS_LO_READ (R272): the read latches WAKE_TS_HI. -/
def execWakeTsLoRead (s : State) : Host.Outcome State Fault Refusal :=
  done ((s.wrW R.WAKE_TS_HI (s.dev.wakeTs.toNat / 4294967296)).emit (.readData R.WAKE_TS_LO (s.dev.wakeTs.toNat % 4294967296)))

end Sys2Proof.Machine
end

