-- ==== Sys2Proof/Machine/Queue.lean ====
section
/-! DEFINITION. The queue engine (09): acceptance and refusal, the level interrupt, dequeue with its errors, the
registers' stores, RESET and its sweep. -/

namespace Sys2Proof.Machine

open Sys2Proof

/-- Cells a queue holds: its messages, those a broken list left tagged to it, those with an uncorrectable tag. -/
def Queue.cells (q : Queue) : Nat := q.msgs.length + q.leaked + q.stuck

/-- Free cells of the pool (R275, R291). -/
def State.poolFree (s : State) : Nat := 262144 - (s.qeng.qs.map (fun e => e.2.cells)).foldl (· + ·) 0

/-- The reserve in force: an RSV above 65,536 acts as 65,536 (R280). -/
def State.poolRsv (s : State) : Nat := min s.qeng.rsv.toNat 65536

/-- Why an enqueue is refused, in the order of R278. -/
inductive Refuse where
  | disabled | broken | limit | noCells | reserve
  deriving DecidableEq, Repr

/-- R278, rows 2 to 5: would an enqueue find the queue FULL, and why? A queue under sweep refuses as broken (R288). -/
def State.fullWhy (s : State) (q : Nat) : Option Refuse :=
  let x := s.queue q
  if x.broken || x.sweeping then some .broken
  else if x.limit ≠ 0 ∧ x.limit.toNat ≤ x.msgs.length then some .limit
  else if s.poolFree = 0 then some .noCells
  else if !x.priv ∧ s.poolFree ≤ s.poolRsv then some .reserve
  else none

/-- R278: the first matching row. -/
def State.refuseWhy (s : State) (q : Nat) : Option Refuse :=
  if !(s.queue q).en then some .disabled else s.fullWhy q

/-- Count a refusal (R278). -/
def State.countRefusal (s : State) (q : Nat) (w : Refuse) : State :=
  let x := s.queue q
  let x1 : Queue := { x with drops := if x.drops = 65535 then 65535 else x.drops + 1,
                             overrun := x.overrun || w != .disabled }
  let s1 := s.setQueue q x1
  if w = .noCells ∨ w = .reserve then (s1.onQEng (fun z => { z with exh := min (s1.qeng.exh + 1) 4294967295 })) else s1

/-- Keep the lowest FREE (POOL_MIN, R291). -/
def State.trackPool (s : State) : State :=
  (s.onQEng (fun z => { z with poolMin := min s.qeng.poolMin s.poolFree }))

/-- R283: the level interrupt of an accepted enqueue. -/
def State.levelEdge (s : State) (q : Nat) : State :=
  let x := s.queue q
  if x.level ≠ 0 ∧ x.msgs.length = x.level.toNat then s.cicEdge x.dest.toNat (32 + x.line.toNat) else s

/-- R277, R278, R283: enqueue a message, whole or not at all. -/
def State.enqueue (s : State) (q : Nat) (m : Msg) : State :=
  match s.refuseWhy q with
  | some w => s.countRefusal q w
  | none =>
    let x := s.queue q
    ((s.setQueue q { x with msgs := x.msgs ++ [m] }).trackPool).levelEdge q

/-- Does the engine accept an enqueue now? -/
def State.accepts (s : State) (q : Nat) : Bool := (s.refuseWhy q).isNone

/-- The queue error report (R287). -/
def queueErrorReport (q : Nat) (beat : BitVec 48) : Msg :=
  { longs := [BitVec.ofNat 40 (0x3 * 2 ^ 36 + q * 2 ^ 20 + 1 * 2 ^ 16), beat.setWidth 40] }

/-- R285: n single-bit errors corrected for queue q, in ENG_CORR and its group. -/
def QEngine.addCorr (z : QEngine) (q n : Nat) : QEngine :=
  { z with corr := min (z.corr + n) 4294967295
           grpCorr := mset (fun _ => 0) z.grpCorr (q / 256) (min (mget (fun _ => 0) z.grpCorr (q / 256) + n) 65535) }

/-- R291: n uncorrectable errors, in ENG_UNC. -/
def QEngine.addUnc (z : QEngine) (n : Nat) : QEngine := { z with unc := min (z.unc + n) 4294967295 }

/-- R285, R286: count, at a dequeue, the corrected errors of a message of queue q and of its cell, a poisoned message, and an
uncorrectable link or length. -/
def State.countEcc (s : State) (q : Nat) (m : Msg) : State :=
  s.onQEng (fun z => (z.addCorr q (m.corr + m.linkCorr + m.tagCorr)).addUnc
    ((if m.unc then 1 else 0) + (if m.linkBad then 1 else 0)))

/-- R285, R286: take the oldest message; nothing while the queue is empty or BROKEN. -/
def State.dequeue (s : State) (q : Nat) : Option Msg × State :=
  let x := s.queue q
  match x.broken, x.msgs with
  | false, m :: rest =>
    let d : Msg := { m with err := m.err || m.unc || m.linkBad }
    let s1 := s.countEcc q m
    if m.linkBad then
      let s2 := s1.setQueue q { x with msgs := [], broken := true, leaked := x.leaked + (rest.filter (!·.tagBad)).length,
                                       leakedCorr := x.leakedCorr + ((rest.filter (!·.tagBad)).map (·.tagCorr)).sum,
                                       stuck := x.stuck + (rest.filter (·.tagBad)).length }
      (some d, s2.enqueue 0xFFBF (queueErrorReport q s.beat.num))
    else (some d, s1.setQueue q { x with msgs := rest })
  | _, _ => (none, s)

/-! ### Register words (R292) -/

def Queue.cfgWord (x : Queue) : Long :=
  BitVec.ofNat 40 ((if x.en then 2 ^ 39 else 0) + (if x.priv then 2 ^ 38 else 0) + x.limit.toNat * 2 ^ 18 + x.level.toNat)

def Queue.irqWord (x : Queue) : Long := BitVec.ofNat 40 (x.dest.toNat * 128 + x.line.toNat)

/-- QSTAT(q); FULL is computed from the present state (R279). -/
def State.qstatWord (s : State) (q : Nat) : Long :=
  let x := s.queue q
  BitVec.ofNat 40 ((if (s.fullWhy q).isSome then 2 ^ 39 else 0) + (if x.overrun then 2 ^ 38 else 0)
    + (if x.broken then 2 ^ 37 else 0) + x.drops.toNat * 2 ^ 20 + x.msgs.length)

/-- R281: a store to QCFG(q). -/
def Queue.storeCfg (x : Queue) (v : Long) : Queue :=
  { x with en := v.getLsbD 39, priv := v.getLsbD 38, limit := (v >>> 18).setWidth 18, level := v.setWidth 18 }

def Queue.storeIrq (x : Queue) (v : Long) : Queue := { x with dest := (v >>> 7).setWidth 7, line := v.setWidth 5 }

/-- R292: QCTL.CLR clears DROPS and OVERRUN. -/
def Queue.clr (x : Queue) : Queue := { x with drops := 0, overrun := false }

/-- R288: QCTL.RESET frees the messages; a BROKEN queue sweeps its cells. Cells whose tag is uncorrectable stay. -/
def Queue.reset (x : Queue) : Queue :=
  { x with msgs := [], sweeping := x.broken || x.sweeping }

/-- A queue register changes while QUEUE is on (R293). -/
def State.qStore (s : State) (q : Nat) (f : Queue → Queue) : State :=
  if s.domOn domQueue then s.setQueue q (f (s.queue q)) else s

/-- The single-bit errors of the owner tags of a queue's cells, and its cells whose tag is uncorrectable. -/
def Queue.tagErrs (x : Queue) : Nat × Nat :=
  ((x.msgs.map (·.tagCorr)).sum + x.leakedCorr, (x.msgs.filter (·.tagBad)).length + x.stuck)

/-- R286, R288: a sweep reads the owner tags of all cells: it counts the errors it corrects, by the queue that holds the cell
(log 34), and every tag it cannot correct. -/
def QEngine.sweepTags (z : QEngine) : QEngine :=
  z.qs.foldl (fun y e => (y.addCorr e.1 e.2.tagErrs.1).addUnc e.2.tagErrs.2) z

/-- R288: a sweep completes: the tagged cells are free and BROKEN clears. -/
def State.sweepDone (s : State) (q : Nat) : State :=
  let x := s.queue q
  if x.sweeping then
    (s.onQEng QEngine.sweepTags).setQueue q { x with leaked := 0, leakedCorr := 0, broken := false, sweeping := false }
  else s

/-! ### The rows of this chapter -/

/-- QCFG_WRITE (R281). -/
def execQcfgWrite (q : BitVec 16) (v : Long) (s : State) : Host.Outcome State Fault Refusal :=
  done (s.qStore q.toNat (·.storeCfg v))

/-- QUEUE_RESET (R288). -/
def execQueueReset (q : BitVec 16) (s : State) : Host.Outcome State Fault Refusal := done (s.qStore q.toNat Queue.reset)

/-- QUEUE_CLR (R292). -/
def execQueueClr (q : BitVec 16) (s : State) : Host.Outcome State Fault Refusal := done (s.qStore q.toNat Queue.clr)

/-- QUEUE_SWEEP_DONE (R288). -/
def execQueueSweepDone (q : BitVec 16) (s : State) : Host.Outcome State Fault Refusal :=
  done (if s.domOn domQueue then s.sweepDone q.toNat else s)

end Sys2Proof.Machine
end

