-- ==== Sys2Proof/Machine/FabLink.lean ====
section
/-! DEFINITION. Fabric links (11, 12): this node's record, routes computed from the link-state database, and the
egress of VL1 to VL3 frames with credits, sequence numbers and windows. -/

namespace Sys2Proof.Machine

open Sys2Proof

/-! ### Ports -/

def State.fport (s : State) (p : Nat) : FPort := mget (fun _ => {}) s.fab.ports p
def State.setFport (s : State) (p : Nat) (x : FPort) : State :=
  (s.onFab (fun z => { z with ports := mset (fun _ => {}) s.fab.ports p x }))

/-- FP_STAT.STATE codes (R363). -/
def fpOff : Nat := 0
def fpTraining : Nat := 1
def fpHello : Nat := 2
def fpAuth : Nat := 3
def fpSync : Nat := 4
def fpUpSt : Nat := 5
def fpFenced : Nat := 6
def fpRefused : Nat := 7

def State.fpState (s : State) (p : Nat) : Nat := s.rd (R.FP_STAT_STATE p)

/-- Is port p UP? -/
def State.fpUp (s : State) (p : Nat) : Bool := s.fpState p == fpUpSt

/-- Is port p in SYNC or UP? -/
def State.fpLive (s : State) (p : Nat) : Bool := s.fpState p == fpSync || s.fpState p == fpUpSt

/-- The eight fabric ports. -/
def fabPorts : List Nat := [0, 1, 2, 3, 4, 5, 6, 7]

/-- This node's address (R347). -/
def State.ownAddr (s : State) : Nat := s.rd R.NODE_ADDR_ADDR

/-- BEAT_STAT.ROLE codes (R64). -/
def roleAlone : Nat := 0
def roleMaster : Nat := 1
def roleMember : Nat := 2
def roleJoining : Nat := 3

def State.role (s : State) : Nat := s.rd R.BEAT_STAT_ROLE

/-- Has the node completed beat alignment (R24, R358)? The master is aligned to itself. -/
def State.aligned (s : State) : Bool := s.role == roleMaster || s.role == roleMember

/-! ### This node's record (R350, R354) -/

/-- R354: the clock quality. -/
def State.qual (s : State) : Nat :=
  let lock := s.rd R.BEAT_STAT_LOCK
  if s.rd R.BEAT_CTRL_SRC_SEL = 0 ∨ lock = 0 then (if lock = 3 then 0x30 else 0x40)
  else if lock = 2 then 0x10 else if lock = 1 then 0x20 else 0x30

/-- BEAT_EPOCH: the pack time of edge 0 of the grid, in units (R26). -/
def State.epochU (s : State) : Int := s.packAt s.beat.lastEdge - (s.beat.num.toNat : Int) * s.periodU

/-- The GRID a master sends (R350). -/
def State.grid (s : State) : Grid :=
  ⟨packTime s.epochU, s.word R.PERIOD_ACT_INT, s.word R.PERIOD_ACT_FRAC,
    BitVec.ofNat 48 (s.rdW R.EPOCH_TAI_SEC_HI * 4294967296 + s.rdW R.EPOCH_TAI_SEC_LO), s.word R.EPOCH_TAI_NS,
    (s.word R.TAI_UTC).setWidth 16, s.bit R.BEAT_STAT_TAI_VALID⟩

/-- The neighbours on UP ports. -/
def State.nbrs (s : State) : List Nbr :=
  fabPorts.filterMap (fun p => match s.fpUp p, (s.fport p).peer with
    | true, some h => some ⟨BitVec.ofNat 8 p, h.port, BitVec.ofNat 8 (s.rd (R.FP_STAT_GEN_ACT p)), h.serial⟩
    | _, _ => none)

/-- This node's link-state record as it stands. -/
def State.ownRecord (s : State) : Lsr :=
  let master := decide (s.role = roleMaster)
  { serial := Config.serial, seq := BitVec.ofNat 32 s.fab.seq, addr := BitVec.ofNat 16 s.ownAddr
    strapped := decide (s.rd R.NODE_ADDR_NODE_ID ≠ 0), tentative := decide (s.rd R.PACK_STAT_ADDR_STATE = 1)
    running := s.bit R.BEAT_STAT_RUNNING, aligned := s.aligned, master := master
    prio := BitVec.ofNat 8 (s.rd R.PACK_CTRL_PRIO), qual := BitVec.ofNat 8 s.qual
    depth := BitVec.ofNat 8 (s.rd R.PACK_STAT_DEPTH), grid := if master then some s.grid else none, nbrs := s.nbrs }

/-- The HELLO this node sends on port p (R344). -/
def State.ownHello (s : State) (p : Nat) : HelloMsg :=
  { ver := 1, authReq := s.bit R.PACK_CTRL_AUTH_REQ, encReq := s.bit R.PACK_CTRL_ENC_REQ, encCap := true
    strapped := decide (s.rd R.NODE_ADDR_NODE_ID ≠ 0), tentative := decide (s.rd R.PACK_STAT_ADDR_STATE = 1)
    running := s.bit R.BEAT_STAT_RUNNING, aligned := s.aligned, port := BitVec.ofNat 8 p, gens := 3, serial := Config.serial, addr := BitVec.ofNat 16 s.ownAddr
    prio := BitVec.ofNat 8 (s.rd R.PACK_CTRL_PRIO), qual := BitVec.ofNat 8 s.qual
    mserial := BitVec.ofNat 64 (s.rdW R.MASTER_SER_HI * 4294967296 + s.rdW R.MASTER_SER_LO)
    beat := if s.bit R.BEAT_STAT_RUNNING then s.beat.num else 0
    nonce := BitVec.ofNat 128 ((s.fport p).nonce.getD 0) }

/-! ### The graph of the database (R351, R352) -/

/-- The record of a serial. -/
def recOf (db : List Lsr) (ser : BitVec 64) : Option Lsr := db.find? (fun r => r.serial = ser)

/-- R351: the adjacencies of x: neighbours that x lists and that list x. -/
def adj (db : List Lsr) (x : Lsr) : List (Nbr × Lsr) :=
  x.nbrs.filterMap (fun n => match recOf db n.serial with
    | some y => if y.nbrs.any (fun m => m.serial = x.serial) then some (n, y) else none
    | none => none)

/-- One round of a breadth-first search: nodes reached at distance d + 1. -/
def bfsRound (next : BitVec 64 → List (BitVec 64)) (d : Nat) (m : List (BitVec 64 × Nat)) : List (BitVec 64 × Nat) :=
  m.foldl (fun a e => if e.2 = d then
      (next e.1).foldl (fun b y => if b.any (fun f => f.1 = y) then b else b ++ [(y, d + 1)]) a
    else a) m

/-- Distances from a node, by breadth-first search over n rounds. -/
def bfs (next : BitVec 64 → List (BitVec 64)) (from_ : BitVec 64) : Nat → List (BitVec 64 × Nat)
  | 0 => [(from_, 0)]
  | n + 1 => bfsRound next n (bfs next from_ n)

/-- The distance recorded for a node. -/
def distOf (m : List (BitVec 64 × Nat)) (x : BitVec 64) : Option Nat := (m.find? (fun e => e.1 = x)).map (·.2)

/-- Serials adjacent to a serial. -/
def nextAll (db : List Lsr) (x : BitVec 64) : List (BitVec 64) :=
  match recOf db x with
  | some r => (adj db r).map (fun e => e.2.serial)
  | none => []

/-- R351: the segment of a node: every node it reaches over adjacencies. -/
def segmentOf (db : List Lsr) (x : BitVec 64) : List Lsr :=
  let m := bfs (nextAll db) x db.length
  db.filter (fun r => m.any (fun e => e.1 = r.serial))

/-- R352, step 1: the node with the lowest serial. -/
def rootOf (seg : List Lsr) : Option Lsr :=
  seg.foldl (fun a r => match a with
    | none => some r
    | some x => if r.serial < x.serial then some r else some x) none

/-- A segment with the level of each node (R352, step 2). -/
structure Graph where
  db : List Lsr
  levels : List (BitVec 64 × Nat)

def graphOf (seg : List Lsr) : Graph :=
  match rootOf seg with
  | some r => ⟨seg, bfs (nextAll seg) r.serial seg.length⟩
  | none => ⟨seg, []⟩

def Graph.level (g : Graph) (x : Lsr) : Nat := (distOf g.levels x.serial).getD 0

/-- R352, step 3: is x the up end of its adjacency with y? -/
def Graph.isUp (g : Graph) (x y : Lsr) : Bool :=
  decide (g.level x < g.level y) || (g.level x == g.level y && decide (x.addr < y.addr))

/-- Neighbours below x: across links whose up end is x. -/
def Graph.down (g : Graph) (x : BitVec 64) : List (BitVec 64) :=
  match recOf g.db x with
  | some r => ((adj g.db r).filter (fun e => g.isUp r e.2)).map (fun e => e.2.serial)
  | none => []

/-- R352, step 4: the length of the shortest down-only path. -/
def Graph.downLen (g : Graph) (x d : BitVec 64) : Option Nat := distOf (bfs g.down x g.db.length) d

/-- The smaller of two lengths, none being no path. -/
def minOpt (a b : Option Nat) : Option Nat :=
  match a, b with
  | some m, some n => some (min m n)
  | some m, none => some m
  | none, b => b

/-- R352, step 4: H(x, d), over n further up links. -/
def Graph.hops (g : Graph) (d : BitVec 64) : Nat → BitVec 64 → Option Nat
  | 0, x => g.downLen x d
  | n + 1, x =>
    match g.downLen x d with
    | some k => some k
    | none =>
      match recOf g.db x with
      | none => none
      | some r => (((adj g.db r).filter (fun e => g.isUp e.2 r)).foldl
          (fun a e => minOpt a (g.hops d n e.2.serial)) none).map (· + 1)

/-- Order candidates by length, then neighbour address, then port (R352, step 5). -/
def candLess (a b : Nat × BitVec 16 × Octet) : Bool :=
  decide (a.1 < b.1) || (a.1 == b.1 && (decide (a.2.1 < b.2.1) || (a.2.1 == b.2.1 && decide (a.2.2 < b.2.2))))

/-- The candidates of x toward d: down links on a down-only path if x has one, else up links. -/
def Graph.cands (g : Graph) (x : Lsr) (d : BitVec 64) : List (Nat × BitVec 16 × Octet) :=
  if (g.downLen x.serial d).isSome then
    ((adj g.db x).filter (fun e => g.isUp x e.2)).filterMap (fun e => (g.downLen e.2.serial d).map (fun k => (k, e.2.addr, e.1.lport)))
  else
    ((adj g.db x).filter (fun e => g.isUp e.2 x)).filterMap
      (fun e => (g.hops d g.db.length e.2.serial).map (fun k => (k, e.2.addr, e.1.lport)))

def bestCand (l : List (Nat × BitVec 16 × Octet)) : Option (Nat × BitVec 16 × Octet) :=
  l.foldl (fun a c => match a with
    | none => some c
    | some b => if candLess c b then some c else some b) none

/-- Primary and alternate ports of x toward d (R352, steps 5 and 6). -/
def Graph.ports (g : Graph) (x : Lsr) (d : BitVec 64) : Option (Nat × Nat) :=
  match bestCand (g.cands x d) with
  | none => none
  | some p =>
    let alt := (bestCand ((g.cands x d).filter (fun c => c.2.2 ≠ p.2.2))).getD p
    some (p.2.2.toNat, alt.2.2.toNat)

/-- The route entry of x for the node d (R353). -/
def Graph.entry (g : Graph) (x d : Lsr) (gen : Nat) : Long :=
  let word (loc down pri alt h : Nat) : Long :=
    BitVec.ofNat 40 (2 ^ 39 + loc * 2 ^ 38 + down * 2 ^ 37 + pri * 2 ^ 34 + alt * 2 ^ 31 + min h 63 * 2 ^ 25 + gen % 8192 * 2 ^ 12)
  if d.serial = x.serial then word 1 0 0 0 0
  else match g.ports x d.serial, g.hops d.serial g.db.length x.serial with
    | some (p, a), some h => if 63 < h then 0 else word 0 (if (g.downLen x.serial d.serial).isSome then 1 else 0) p a h
    | _, _ => 0

/-- The node's own graph. -/
def State.graph (s : State) : Graph := graphOf (segmentOf (s.fab.lsdb.map (·.1)) Config.serial)

/-- R375: the ports of the tree that joins each node to the root along the primary port of its route to the root. -/
def State.treePorts (s : State) : List Nat :=
  let g := s.graph
  match rootOf g.db, recOf g.db Config.serial with
  | some r, some me =>
    let up := if r.serial = me.serial then [] else ((g.ports me r.serial).map (fun e => [e.1])).getD []
    let downs := (adj g.db me).filterMap (fun e =>
      if e.2.serial = r.serial then none
      else match g.ports e.2 r.serial with
        | some (p, _) => if (adj g.db e.2).any (fun f => f.1.lport.toNat = p ∧ f.2.serial = me.serial ∧ f.1.pport = e.1.lport)
            then some e.1.lport.toNat else none
        | none => none)
    up ++ downs.filter (fun p => !up.contains p)
  | _, _ => []

/-- The route entry of an address (R353); a FABRIC-independent table read as 0 where nothing was installed. -/
def State.route (s : State) (a : Nat) : Long := mget (fun _ => 0) s.fab.routes a

def routeValid (w : Long) : Bool := w.getLsbD 39
def routePri (w : Long) : Nat := w.toNat / 2 ^ 34 % 8
def routeAlt (w : Long) : Nat := w.toNat / 2 ^ 31 % 8
def routeHops (w : Long) : Nat := w.toNat / 2 ^ 25 % 64

/-! ### Egress of VL1 to VL3 (R369 to R372) -/

/-- Credits of a frame (R370). -/
def frameCredits (len : Nat) : Nat := (8 * (frameW len + 1) + 63) / 64

/-- Receive buffers in credits (R370). -/
def bufCredits (vl : Nat) : Nat := if vl = 1 then 1024 else if vl = 2 then 256 else 64

/-- Duration of n blocks on port p, in units of pack time (R368): 0.64 ns each on G2, 1.28 ns on G1. -/
def State.blocksU (s : State) (p n : Nat) : Int :=
  if s.rd (R.FP_STAT_GEN_ACT p) = 2 then (n : Int) * 59029581035870565171 else (n : Int) * 118059162071741130342

def State.linkOf (s : State) (p vl : Nat) : Link := mget (fun _ => {}) (s.fport p).vls vl
def State.setLink (s : State) (p vl : Nat) (l : Link) : State :=
  let x := s.fport p
  s.setFport p { x with vls := mset (fun _ => {}) x.vls vl l }

/-- Schedule entries in force, with their numbers. -/
def State.schedIn (s : State) : List (Nat × SchedEnt) := s.fab.sched.filterMap (fun e => e.2.map (fun x => (e.1, x)))

/-- Instants from which the windows of a beat open: those of the edge to come, or of the last one and the next. -/
def State.windowEdges (s : State) : List Int :=
  match s.beat.first with
  | some f => [f.2]
  | none => [s.beat.lastEdge, s.beat.lastEdge + s.periodU]

/-- May a frame of n blocks start on port p: no VL0 window is open, and its last block leaves before the next opens
(R369)? -/
def State.egressFree (s : State) (p n : Nat) : Bool :=
  (s.fport p).window == 0 &&
  (!s.bit R.BEAT_STAT_RUNNING ||
    s.schedIn.all (fun e => e.2.port.toNat != p || s.windowEdges.all (fun (t : Int) =>
      let st : Int := t + (e.2.start.toNat : Int) * nsU
      decide (st < s.time) || decide (s.time + s.blocksU p n ≤ st))))

/-- Credits a link may use: the whole sum is taken modulo 2^16, so that credits used and not yet reported free are not
available (R371; DEDUCED, log 12). -/
def Link.avail (l : Link) (vl : Nat) : Nat := (l.crtot - l.used + BitVec.ofNat 16 (bufCredits vl)).toNat

/-- The words of a frame as port p sends it; an encrypted one takes the next number of the port's frame counter (R361). -/
def State.frameOut (s : State) (p : Nat) (f : Frame) : List Word64 × State :=
  let x := s.fport p
  (frameWords x.tx f, if f.enc then s.setFport p { x with tx := x.tx.map (fun k => { k with count := k.count + 1 }) } else s)

/-- Start a frame on port p: it takes its LSEQ and credits and is kept until it is acknowledged (R370, R372). -/
def State.startFrame (s : State) (p : Nat) (f : Frame) : State :=
  let vl := f.vl.toNat
  let l := s.linkOf p vl
  let g : Frame := { f with seq := l.seq }
  let o := s.frameOut p g
  ((o.2.setLink p vl { l with seq := l.seq + 1, unacked := l.unacked ++ [⟨l.seq, g, o.1, 0⟩]
                              used := l.used + BitVec.ofNat 16 (frameCredits g.len.toNat) }).emit (.fabric p (.frame o.1))).inc (R.TX_BE_V p)

/-- The frame as port p sends it: encrypted frames carry a 16-octet tag (R361); a TOKEN, whose LEN is 0, is not encrypted (R368;
DEDUCED, log 12). -/
def State.dress (s : State) (p : Nat) (f : Frame) : Frame :=
  let enc := s.bit (R.FP_STAT_ENC p) && f.load != .token
  { f with enc := enc, len := BitVec.ofNat 16 (payloadOctets f.load + (if enc then 16 else 0)) }

/-- May frame f start now on its VL of port p? -/
def State.canSend (s : State) (p : Nat) (f : Frame) : Bool :=
  s.egressFree p (frameW f.len.toNat + 1)
    && decide (frameCredits f.len.toNat ≤ (s.linkOf p f.vl.toNat).avail f.vl.toNat)

/-- Has a VL something it may send now: a frame to be sent again, which has its credits, or else the first that waits? -/
def State.vlReady (s : State) (p vl : Nat) : Bool :=
  let l := s.linkOf p vl
  match l.again, l.waiting with
  | q :: _, _ => (match l.unacked.find? (fun u => u.seq == q) with
      | some u => s.egressFree p u.words.length
      | none => true)
  | [], f :: _ => s.canSend p f
  | [], [] => false

/-- Send it: a frame again, exactly as it was first sent (R361, R372), or a new one. -/
def State.sendNext (s : State) (p vl : Nat) : State :=
  let l := s.linkOf p vl
  match l.again, l.waiting with
  | q :: r, _ =>
    let s1 := s.setLink p vl { l with again := r, unacked := l.unacked.map (fun u => if u.seq = q then { u with tries := u.tries + 1 } else u) }
    (match l.unacked.find? (fun u => u.seq == q) with
      | some u => (s1.emit (.fabric p (.frame u.words))).inc (R.FP_RETRY_V p)
      | none => s1)
  | [], f :: rest => (s.setLink p vl { l with waiting := rest }).startFrame p f
  | [], [] => s

/-- R369: what may leave on port p leaves, VL3 before VL2 before VL1, at most n frames. -/
def State.flushPort (p : Nat) : Nat → State → State
  | 0, s => s
  | n + 1, s =>
    match [3, 2, 1].find? (s.vlReady p) with
    | none => s
    | some vl => State.flushPort p n (s.sendNext p vl)

/-- Frames waiting on port p. -/
def State.waitingOn (s : State) (p : Nat) : Nat :=
  ([1, 2, 3].map (fun vl => (s.linkOf p vl).again.length + (s.linkOf p vl).waiting.length)).foldl (· + ·) 0

/-- Everything that may leave on port p leaves. -/
def State.flushAll (s : State) (p : Nat) : State := State.flushPort p (s.waitingOn p) s

/-- Hand a frame to port p, behind what waits on its VL. One that its link's credits do not yet cover counts in CRED_WAIT (R370). -/
def State.sendOn (s : State) (p : Nat) (f0 : Frame) : State :=
  let f := s.dress p f0
  let vl := f.vl.toNat
  let l := s.linkOf p vl
  let s1 := (s.setLink p vl { l with waiting := l.waiting ++ [f] }).flushAll p
  let l1 := s1.linkOf p vl
  let need := (l1.waiting.map (fun g => frameCredits g.len.toNat)).foldl (· + ·) 0
  if l1.avail vl < need then s1.inc (R.CRED_WAIT_V p) else s1

/-! ### Routing (R374) -/

/-- Count a drop with its PACK_EVT bit. -/
def State.countDrop (s : State) (cnt evt : Fld) : State := (s.inc cnt).set1 evt

/-- Held VL0 frames of entries named are dropped and counted in VL0_NOSCHED (R381, R382). -/
def State.dropHeld (s : State) (which : Nat → Bool) : State :=
  let gone := s.fab.held.filter (fun h => which h.entry)
  gone.foldl (fun t _ => t.countDrop R.VL0_NOSCHED_V R.PACK_EVT_VL0_LOSS) (s.onFab (fun z => { z with held := z.held.filter (fun h => !which h.entry) }))

/-- R374, last rows: route a frame toward DST. -/
def State.routeFrame (s : State) (f : Frame) : State :=
  if f.ttl = 0 then s.countDrop R.DROP_TTL_V R.PACK_EVT_NOROUTE
  else
    let e := s.route f.dst.toNat
    let g : Frame := { f with ttl := f.ttl - 1 }
    if routeValid e && s.fpUp (routePri e) then s.sendOn (routePri e) g
    else if routeValid e && s.fpUp (routeAlt e) then s.sendOn (routeAlt e) g
    else s.countDrop R.DROP_NOROUTE_V R.PACK_EVT_NOROUTE

/-- A frame this node originates: TTL 63, its own address, its beat number (R374). -/
def State.newFrame (s : State) (vl dst : Nat) (load : Payload) : Frame :=
  { vl := BitVec.ofNat 2 vl, crcOk := true, tagOk := true, wOk := true, enc := false, last := false
    dst := BitVec.ofNat 16 dst, src := BitVec.ofNat 16 s.ownAddr, ttl := 63, seq := 0
    len := BitVec.ofNat 16 (payloadOctets load), beat := s.beat.num, load := load }

/-! ### Messages of chapter 11 (R343) -/

/-- A message to the neighbour: a VL2 frame of its link in SYNC and UP, which takes its LSEQ and credits; before that, and on a
FENCED port, a frame with LSEQ 0 that no link numbers (DESIGN CHOICE, log 12). -/
def State.sendMsg (s : State) (p : Nat) (o : List Octet) : State :=
  let f := s.newFrame 2 0 (.ctrl (.other o))
  if s.fpLive p then s.sendOn p f else s.emit (.fabric p (.frame (frameWords none f)))

/-- R342, R349: flood a record on every port in SYNC or UP but one. -/
def State.flood (s : State) (r : Lsr) (but : Option Nat) : State :=
  fabPorts.foldl (fun t p => if t.fpLive p && but != some p then t.sendMsg p (lsrOctets r) else t) s

/-- R349: issue the node's record anew. -/
def State.issueRecord (s : State) : State :=
  let s1 := (s.onFab (fun z => { z with seq := (s.fab.seq + 1) % 4294967296, dirty := true }))
  let r := s1.ownRecord
  ((s1.onFab (fun z => { z with lsdb := (r, s1.time) :: s1.fab.lsdb.filter (fun e => e.1.serial ≠ Config.serial) }))).flood r none

/-! ### Origination and groups (R374 to R376) -/

/-- Send a frame on PRI, or ALT where PRI is not UP, without taking a hop: its source sends it with TTL 63. -/
def State.originate (s : State) (f : Frame) : State :=
  let e := s.route f.dst.toNat
  if routeValid e && s.fpUp (routePri e) then s.sendOn (routePri e) f
  else if routeValid e && s.fpUp (routeAlt e) then s.sendOn (routeAlt e) f
  else s.countDrop R.DROP_NOROUTE_V R.PACK_EVT_NOROUTE

/-- R375: a broadcast leaves on every tree port that is UP but the one it arrived on. -/
def State.broadcast (s : State) (f : Frame) (but : Option Nat) : State :=
  s.treePorts.foldl (fun t p => if t.fpUp p && but != some p then t.sendOn p f else t) s

/-- The members a VL1 to VL3 frame to a multicast group goes to (R376). -/
def State.groupMembers (s : State) (g : Nat) : List Nat :=
  match lookup s.fab.groups g with
  | some (some e) => e.2
  | _ => []

/-- Send to an address, or one copy to each member of a group (R376). -/
def State.sendTo (s : State) (vl dst : Nat) (load : Payload) : State :=
  if 0xF000 ≤ dst ∧ dst ≤ 0xFFFE then
    (s.groupMembers dst).foldl (fun t m => t.originate (t.newFrame vl m load)) s
  else if dst = 0xFFFF then s.broadcast (s.newFrame vl dst load) none
  else s.originate (s.newFrame vl dst load)

end Sys2Proof.Machine
end

