-- ==== Sys2Proof/Machine/HostOps.lean ====
section
/-! DEFINITION. What the steward shares between command groups (15): octet encoders, events, and the framing of a
Bertia command from its ring entry or datagram to its completion. -/

namespace Sys2Proof.Machine

open Sys2Proof

/-! ### Completion status codes (R479) -/

def stOk : Nat := 0x0000
def stNotStaged : Nat := 0x0001
def stBadOpcode : Nat := 0x0101
def stBadVersion : Nat := 0x0102
def stBadParam : Nat := 0x0103
def stBadState : Nat := 0x0104
def stBusy : Nat := 0x0105
def stNoSpace : Nat := 0x0106
def stDenied : Nat := 0x0107
def stNotFound : Nat := 0x0108
def stDeleted : Nat := 0x0109
def stTooSmall : Nat := 0x010A
def stDmaErr : Nat := 0x010B
def stInternal : Nat := 0x01FF

/-! ### Channels and events -/

def State.chan (s : State) (ch : Nat) : Chan := mget (fun _ => {}) s.host.chans ch
def State.setChan (s : State) (ch : Nat) (c : Chan) : State :=
  (s.onHost (fun z => { z with chans := mset (fun _ => {}) s.host.chans ch c }))

/-- Does the steward act: its domain on, its core running, READY (R545, R550). -/
def State.stewardUp (s : State) : Bool :=
  s.bit R.MBX_GSTAT_READY && s.domOn domSteward && (s.core 1024).takes

/-- Hold an event for one destination, at most 256 (R482). -/
def holdEvent (l : List Event) (e : Event) : List Event × Bool := if l.length < 256 then (l ++ [e], false) else (l, true)

/-- R482: an event of a beat to the subscribed mailbox (or held while none is subscribed) and to each subscribed SVC channel. -/
def State.hostEventAt (s : State) (beat : BitVec 48) (code cls : Nat) (arg : List Octet) : State :=
  if !s.stewardUp then s
  else
    let e : Event := ⟨code, cls, beat, (arg ++ List.replicate 36 0).take 36⟩
    let take := match s.host.evtMbx with
      | none => true
      | some m => (s.chan m).mask.getLsbD cls
    let s1 :=
      if take then
        let (l, lost) := holdEvent s.host.events e
        let t := (s.onHost (fun z => { z with events := l, lost := s.host.lost || lost }))
        if lost then t.inc R.EVT_LOST_V else t
      else s
    [16, 17, 18, 19].foldl (fun t ch =>
      let c := t.chan ch
      if c.mask.getLsbD cls then
        let (l, lost) := holdEvent c.events e
        let u := t.setChan ch { c with events := l, lost := c.lost || lost }
        if lost then u.inc R.EVT_LOST_V else u
      else t) s1

/-- R482: an event detected now. -/
def State.hostEvent (s : State) (code cls : Nat) (arg : List Octet) : State := s.hostEventAt s.beat.num code cls arg

/-! ### Fault reports (R390, R391) -/

/-- Is a report's destination this node: the own host (0) or the own address? -/
def State.repHere (s : State) (r : FaultRep) : Bool := r.dst == 0 || r.dst.toNat == s.ownAddr

/-- Send a report on VL3 toward its destination, or deliver it to the host as an event (R391). -/
def State.sendReport (s : State) (r : FaultRep) : State :=
  if s.repHere r then s.hostEvent 0x0040 4 (repOctets r) else s.sendTo 3 r.dst.toNat (.fault r)

/-- The key reports are coalesced by (R391). -/
def sameKey (a b : FaultRep) : Bool :=
  a.dst == b.dst && a.origin == b.origin && a.unit == b.unit && a.code == b.code && a.fserial == b.fserial

/-- R391, step 2: a report adds to an open entry. -/
def mergeRep (a b : FaultRep) : FaultRep :=
  let early := decide (b.t.toNat < a.t.toNat)
  { a with
    partners := if 65535 < a.partners.toNat + b.partners.toNat then 0xFFFF else a.partners + b.partners
    t := if early then b.t else a.t, beat := if early then b.beat else a.beat
    witness := if early then b.witness else a.witness
    self := a.self || b.self, late := a.late || b.late, overflow := a.overflow || b.overflow }

/-- When a report's entry closes: T + WINDOW + (63 - h) HOPSTEP, as a pack time (R391, step 1). -/
def State.repClose (s : State) (r : FaultRep) : Int :=
  let h := if s.repHere r then 0 else routeHops (s.route r.dst.toNat)
  let now := nsOf s.packNow
  let age : Int := (now : Int) - (r.t.toNat / 16777216 : Nat)
  s.time - age * nsU + ((s.rd R.FR_CTRL_WINDOW * 1000 + (63 - h) * s.rd R.FR_CTRL_HOPSTEP * 1000 : Nat) : Int) * nsU

/-- Keep FR_STAT up to date. -/
def State.frCount (s : State) : State := s.wr R.FR_STAT_V s.fab.open_.length

/-- R391: take a report for coalescing. While the steward core is in reset each is sent at once with OVERFLOW. -/
def State.takeReport (s : State) (r : FaultRep) : State :=
  if !(s.core 1024).takes || s.boot.rom then s.sendReport { r with overflow := true }
  else if s.rd R.FR_CTRL_WINDOW = 0 then s.sendReport r
  else if s.fab.open_.any (fun e => sameKey e.rep r) then
    (s.onFab (fun z => { z with open_ := s.fab.open_.map (fun e => if sameKey e.rep r then { e with rep := mergeRep e.rep r } else e) }))
  else
    let close := s.repClose r
    if close < s.time then ((s.countDrop R.FR_LATE_V R.PACK_EVT_FR_OVERFLOW)).sendReport { r with late := true }
    else if 256 ≤ s.fab.open_.length then ((s.countDrop R.FR_OVERFLOW_V R.PACK_EVT_FR_OVERFLOW)).sendReport { r with overflow := true }
    else ((s.onFab (fun z => { z with open_ := s.fab.open_ ++ [({ rep := r, closes := close } : FrEntry)] }))).frCount

/-- R390: a witnessed report, at most once in each 2 x WINDOW for a key (ORIGIN, UNIT, CODE). -/
def State.witness (s : State) (code origin : Nat) : State :=
  let span : Int := ((2 * s.rd R.FR_CTRL_WINDOW * 1000 : Nat) : Int) * nsU
  if s.fab.seen.any (fun e => e.1 = origin ∧ e.2.1 = 0 ∧ e.2.2.1 = code ∧ s.time < e.2.2.2 + span) then s
  else
    let kept := s.fab.seen.filter (fun e => !(e.1 == origin && e.2.1 == 0 && e.2.2.1 == code))
    let s1 : State := (s.onFab (fun z => { z with seen := (origin, 0, code, s.time) :: kept }))
    s1.takeReport { dst := BitVec.ofNat 16 (s.rd R.FR_SINK_V), origin := BitVec.ofNat 16 origin, unit := 0, self := false, late := false
                    overflow := false, code := BitVec.ofNat 16 code, partners := 1, fserial := 0, t := packTime s.packNow
                    beat := s.beat.num, witness := BitVec.ofNat 16 s.ownAddr }

/-- R483: a self-reported fault: the event, and a FAULT report when FR_SINK is not 0 and the node has an address. -/
def State.selfFault (s : State) (code unit : Nat) (arg : List Octet) : State :=
  let s1 := s.hostEvent code 6 arg
  if s.rd R.FR_SINK_V ≠ 0 ∧ s.ownAddr ≠ 0 then
    let s2 := { s1.freeNext with fserial := (s1.fserial + 1) % 4294967296 }
    s2.takeReport { dst := BitVec.ofNat 16 (s.rd R.FR_SINK_V), origin := BitVec.ofNat 16 s.ownAddr, unit := BitVec.ofNat 8 unit
                    self := true, late := false, overflow := false, code := BitVec.ofNat 16 code, partners := BitVec.ofNat 16 s.freeVal
                    fserial := BitVec.ofNat 32 s2.fserial, t := packTime s.packNow, beat := s.beat.num, witness := BitVec.ofNat 16 s.ownAddr }
  else s1

/-- R482: an event that holds a beat, or one that waits until the steward is up. -/
def State.hostEventDue (s : State) (beat : BitVec 48) (code cls : Nat) (arg : List Octet) : State :=
  if s.stewardUp then s.hostEventAt beat code cls arg
  else s.onHost (fun z => { z with due := z.due ++ [{ code := code, cls := cls, unit := 0, fault := false, arg := arg, beat := some beat }] })

/-- R571: an uncorrectable error was met at a key: event 0x0106. -/
def State.foundUnc (s : State) (k : Nat) : State :=
  if 0x1000000000 ≤ k ∧ k < 0x3000000000 then
    let ch := (k - 0x1000000000) / 0x800000000
    (s.set1 (R.DDR_EVT_UNC ch)).selfFault 0x0106 0 (le 1 ch ++ le 5 k ++ le 1 0xFF)
  else if 0x40000000 ≤ k ∧ k < 0x42000000 then
    let c := (k - 0x40000000) / 0x80000
    s.selfFault 0x0106 c (le 1 (0x40 + c) ++ le 5 k ++ le 1 0xFF)
  else if 0x10000000000 ≤ k ∧ k < 0x10000000000 + 1024 * 0x8000 then
    let i := (k - 0x10000000000) / 0x8000
    s.selfFault 0x0106 (i / 16) (le 1 (0x40 + i / 16) ++ le 5 ((k - 0x10000000000) % 0x8000) ++ le 1 (i % 16))
  else s

/-- R571: n grains of memory from key a are read by the router, the journal, a reduction engine or the steward's exports: each uncorrectable long
met raises its event; the reader takes the grains as they stand (DESIGN CHOICE, log 2). -/
def State.scan (s : State) (a n : Nat) : State :=
  (s.eccUnc.filter (fun k => decide (a ≤ k + 1 ∧ k < a + n))).foldl State.foundUnc s

/-- R483: the same of a self-reported fault. -/
def State.selfFaultDue (s : State) (code unit : Nat) (arg : List Octet) : State :=
  if s.stewardUp then s.selfFault code unit arg else s.onHost (fun z => { z with due := z.due ++ [{ code := code, cls := 6, unit := unit, fault := true, arg := arg }] })

/-- The steward is up: what waited for it is reported. -/
def State.reportDue (s : State) : State :=
  s.host.due.foldl (fun t d => if d.fault then t.selfFault d.code d.unit d.arg else t.hostEventAt (d.beat.getD t.beat.num) d.code d.cls d.arg)
    (s.onHost (fun z => { z with due := [] }))

/-- R286, R482: take the oldest message; a queue that breaks is reported to the host once queue 0xFFBF has its report. -/
def State.takeMsg (s : State) (q : Nat) : Option Msg × State :=
  let x := s.dequeue q
  if !(s.queue q).broken && (x.2.queue q).broken && decide ((s.queue 0xFFBF).msgs.length < (x.2.queue 0xFFBF).msgs.length) then
    (x.1, x.2.selfFaultDue 0x0102 0 ((queueErrorReport q s.beat.num).longs.map leLong).flatten)
  else x

/-! ### Completions (R473 to R476) -/

/-- Ring sizes of mailbox m. -/
def State.cmdSize (s : State) (m : Nat) : Nat := 2 ^ s.rd (R.MB_CTRL_CMD_LOG2 m)
def State.cplSize (s : State) (m : Nat) : Nat := 2 ^ s.rd (R.MB_CTRL_CPL_LOG2 m)

/-- R476: is the completion ring of mailbox m full? -/
def State.cplFull (s : State) (m : Nat) : Bool :=
  (s.rd (R.MB_STAT_CTAIL m) + 1) % s.cplSize m == s.rd (R.MB_CPL_HEAD_V m)

/-- R477: mailbox m halts. -/
def State.mbHalt (s : State) (m err : Nat) : State :=
  ((s.wr (R.MB_STAT_STATE m) 2).wr (R.MB_STAT_ERR m) err).set1 (R.MB_EVT_HALT m)

/-- R472: OPCODE and the Bertia header of a 128-octet command entry of channel ch; dma says how the DMA of its command ends. -/
def readEntry (ch : BitVec 5) (dma : Dma) (e : List Octet) : Nat × BHdr :=
  let f (off n : Nat) : Nat := unLe ((e.drop off).take n)
  let zero (off n : Nat) : Bool := ((e.drop off).take n).all (· = 0)
  let ind := f 8 1 % 2 == 1
  (f 0 2,
    { ch := ch, tag := BitVec.ofNat 16 (f 2 2), bver := BitVec.ofNat 8 (f 11 1), len := BitVec.ofNat 32 (f 4 4)
      zeros := f 8 3 / 2 == 0 && zero 12 4 && zero 28 4 && (!ind || zero 40 88)
      ind := ind, paddr := BitVec.ofNat 64 (if ind then f 32 8 else 0), raddr := BitVec.ofNat 64 (f 16 8)
      rcap := BitVec.ofNat 32 (f 24 4), dma := dma })

/-- R473: the 64 octets of a completion entry. -/
def cplOctets (tag status dlen cidx : Nat) (phase ext lost : Bool) (data : List Octet) : List Octet :=
  let flag (b : Bool) (v : Nat) : Nat := if b then v else 0
  le 2 tag ++ le 2 status ++ le 4 dlen ++ le 2 cidx ++ le 1 (flag phase 1 + flag ext 2 + flag lost 4) ++ le 5 0 ++ (data ++ List.replicate 48 0).take 48

/-- The host address of slot k of mailbox m's completion ring (R473, R494). -/
def State.cplAddr (s : State) (m k : Nat) : BitVec 64 :=
  BitVec.ofNat 64 (s.rdW (R.MB_CPL_HI m) * 4294967296 + s.rdW (R.MB_CPL_LO m) + 64 * k)

/-- Write a completion entry of mailbox m: phase bit and tail (R473, R474). -/
def State.ringEntry (s : State) (m : Nat) (tag status dlen cidx : Nat) (ext lost : Bool) (data : List Octet) : State :=
  let c := s.chan m
  let tail := s.rd (R.MB_STAT_CTAIL m)
  let next := (tail + 1) % s.cplSize m
  let s1 := s.emit (.dmaWrite (s.cplAddr m tail) (cplOctets tag status dlen cidx c.phase ext lost data))
  (s1.wr (R.MB_STAT_CTAIL m) next).setChan m { c with phase := if next = 0 then !c.phase else c.phase }

/-- R478: a reset mailbox ends OFF once no command is in progress. -/
def State.mbOff (s : State) (m : Nat) : State :=
  let s1 := ((((s.wr (R.MB_DB_TAIL m) 0).wr (R.MB_STAT_CHEAD m) 0).wr (R.MB_STAT_CTAIL m) 0).wr (R.MB_CPL_HEAD_V m) 0).wr (R.MB_STAT_ERR m) 0
  (s1.wr (R.MB_CTRL_EN m) 0).wr (R.MB_STAT_STATE m) 0

/-- TOO_SMALL carries the octets needed (R473). -/
def State.completeSmall (s : State) (ch need : Nat) : State :=
  let c := s.chan ch
  match c.busy with
  | none => s
  | some b =>
    let s1 := s.setChan ch { c with busy := none }
    if !b.ringOk then s1.mbHalt ch 2
    else ((s1.ringEntry ch b.tag.toNat stTooSmall need b.cidx false false []).inc (R.MB_DONE_V ch)).set1 (R.MB_EVT_CPL ch)

/-- R466: the steward's DMA to host memory runs. -/
def State.dmaUp (s : State) : Bool := s.host.linkUp && !s.host.d3hot

/-- Pieces of n octets with the offset of each, at most k of them. -/
def pieces (n : Nat) : Nat → Nat → List Octet → List (Nat × List Octet)
  | 0, _, _ => []
  | k + 1, off, l => if l.length ≤ n then [(off, l)] else (off, l.take n) :: pieces n k (off + n) (l.drop n)

/-- R491: a reply datagram: its 32-octet header, and data from offset off of dlen octets. -/
def svcReply (session seq tag status dlen off : Nat) (data : List Octet) : List Octet :=
  le 4 0x53564342 ++ le 8 session ++ le 8 seq ++ le 2 tag ++ le 2 status ++ le 4 dlen ++ le 4 off ++ data

/-- A source or destination is an address and 16 bits of port; an IPv4 address is below 2^32 (log 10). -/
def svcIp6 (peer : Nat) : Bool := decide (4294967296 ≤ peer / 65536)

/-- A datagram to a peer. -/
def datagramTo (peer : Nat) (data : List Octet) : Out := .datagram (svcIp6 peer) (peer / 65536) (peer % 65536) data

/-- R491: a reply to a peer in one datagram, or several in ascending OFFSET order. Without a link nothing leaves. -/
def State.svcSend (s : State) (peer session seq tag status : Nat) (data : List Octet) : State :=
  let room := s.host.svc.mtu.toNat - (if svcIp6 peer then 80 else 60)
  if !s.bit R.SVC_STAT_LINK then s
  else (pieces room (data.length + 1) 0 data).foldl
    (fun t x => t.emit (datagramTo peer (svcReply session seq tag status data.length x.1 x.2))) s

/-- R466, R477, R478: a mailbox's command ends with no completion written: one discarded, in HALTED, or with the host out of reach,
where the command completes all the same. -/
def State.endUnseen (s : State) (ch : Nat) (discard : Bool) : State :=
  let st := s.rd (R.MB_STAT_STATE ch)
  if st = 3 then s.mbOff ch
  else
    let s1 := if discard ∨ st = 2 then s else s.inc (R.MB_DONE_V ch)
    if st = 1 ∧ s.rd (R.MB_CTRL_EN ch) = 0 then s1.wr (R.MB_STAT_STATE ch) 0 else s1

/-- R475, R477: the command in progress on channel ch completes. A locked steward completes none (R246). -/
def State.complete (s : State) (ch status : Nat) (data : List Octet) : State :=
  let c := s.chan ch
  match c.busy with
  | none => s
  | some b =>
    let s1 := s.setChan ch { c with busy := none }
    if (s.core 1024).run = .locked then s
    else if b.discard || (ch < 16 && (!s.dmaUp || s.rd (R.MB_STAT_STATE ch) == 2)) then
      (if 16 ≤ ch then s1 else s1.endUnseen ch b.discard)
    else if ch < 16 ∧ 48 < data.length ∧ b.rcap < data.length then s.completeSmall ch data.length
    else if ch < 16 then
      let ext := decide (48 < data.length)
      let fail := ext && !b.dataOk
      let st := if fail then stDmaErr else status
      let d := if fail then [] else data
      let s2 := if fail then s1.set1 R.HOST_ERR_DMA else s1
      let s3 := if ext && !fail then s2.emit (.dmaWrite b.raddr d) else s2
      if !b.ringOk then s3.mbHalt ch 2
      else
        let s4 := s3.ringEntry ch b.tag.toNat st d.length b.cidx (ext && !fail) false (if ext then [] else d)
        let s5 := (s4.inc (R.MB_DONE_V ch)).set1 (R.MB_EVT_CPL ch)
        if s5.rd (R.MB_CTRL_EN ch) = 0 then s5.wr (R.MB_STAT_STATE ch) 0 else s5
    else s1.svcSend b.rcap b.raddr.toNat b.cidx b.tag.toNat status data

/-! ### Kennel sessions (R439) -/

/-- KN_STAT.SESSIONS and SVC_STAT: the open sessions; a change on SVC is an event (R494). -/
def State.countSessions (s : State) : State :=
  let s1 := s.wr R.KN_STAT_SESSIONS ((List.range 20).filter (fun ch => (s.chan ch).sess.isSome)).length
  let m := (List.range 4).foldl (fun a k => if (s.chan (16 + k)).sess.isSome then a + 2 ^ k else a) 0
  if s.rd R.SVC_STAT_SESS = m then s1 else (s1.wr R.SVC_STAT_SESS m).set1 R.SVC_EVT_SESSION

/-- The session on a channel closes; an SVC channel is released with it (R464, R489), a command in progress goes on. -/
def State.closeSession (s : State) (ch : Nat) : State :=
  let c := s.chan ch
  if c.sess.isNone then s
  else (s.setChan ch (if 16 ≤ ch then { busy := c.busy } else { c with sess := none })).countSessions

/-- A command on a channel: its session starts its 900 s anew, or has timed out. -/
def State.touchSession (s : State) (ch : Nat) : State :=
  match (s.chan ch).sess with
  | none => s
  | some x =>
    if x.expires ≤ s.time then s.closeSession ch
    else s.setChan ch { s.chan ch with sess := some { x with expires := s.time + 900000000000 * nsU } }

/-! ### Running a command -/

/-- What the framing asks of a command: its payload length, the most data it can return, whether it is marked CO or
User, whether SVC takes it without a session, whether the ROM takes it in RECOVERY (R461, R474, R481, R547). -/
structure CmdSpec where
  len : Nat
  maxData : Nat := 0
  co : Bool := false
  user : Bool := false
  noSession : Bool := false
  rom : Bool := false

/-- What a command answers: a status and data at once, or nothing until a later event completes it. -/
inductive Reply where
  | now (status : Nat) (data : List Octet) (s : State)
  | later (s : State)

/-- May the steward start a command on channel ch: READY, a held command, no command in progress, room for its
completion (R475, R476)? In RECOVERY the ROM serves mailbox 0 (R547). -/
def State.canStart (s : State) (ch : Nat) : Bool :=
  (s.stewardUp || (s.boot.recovery && ch == 0 && s.domOn domSteward && (s.core 1024).takes)) && (s.chan ch).busy.isNone &&
  (if ch < 16 then
    s.domOn domHost && s.rd (R.MB_STAT_STATE ch) == 1 && s.bit (R.MB_CTRL_EN ch)
      && s.rd (R.MB_DB_TAIL ch) != s.rd (R.MB_STAT_CHEAD ch) && !s.cplFull ch && !s.host.d3hot && s.host.linkUp
   else !(s.chan ch).held.isEmpty)

/-- Does channel ch hold a session in the Crypto Officer role? -/
def State.coSession (s : State) (ch : Nat) : Bool :=
  match (s.chan ch).sess with
  | some x => x.co
  | none => false

/-- Does channel ch hold a session in the User role? -/
def State.userSession (s : State) (ch : Nat) : Bool :=
  match (s.chan ch).sess with
  | some x => !x.co
  | none => false

/-- The major version in force: BERTIA_VER reads 0x0100_0000 once READY (R494). -/
def bertiaMajor : Nat := 1

/-- The status the framing alone gives, if it does not let the command act (log 9: the order of its tests). -/
def State.frameStatus (s : State) (h : BHdr) (sp : CmdSpec) : Option Nat :=
  let ch := h.ch.toNat
  if h.bver.toNat ≠ bertiaMajor then some stBadVersion
  else if h.tag = 0xFFFF ∨ h.zeros = false ∨ (ch < 16 ∧ (h.raddr.toNat % 8 ≠ 0 ∨ (h.ind ∧ h.paddr.toNat % 8 ≠ 0)
      ∨ (!h.ind ∧ 96 < h.len.toNat) ∨ (h.ind ∧ (h.len = 0 ∨ 16777216 < h.len.toNat)))) then some stBadParam
  else if h.dma = .payload ∧ ch < 16 then some stDmaErr
  else if h.len.toNat ≠ sp.len then some stBadParam
  else if 16 ≤ ch ∧ !sp.noSession ∧ (s.chan ch).sess.isNone then some stDenied
  else if (sp.co ∧ !s.coSession ch) ∨ (sp.user ∧ !s.userSession ch) then some stDenied
  else none

/-- Take the command at the head of channel ch (R475): CHEAD moves on, and the command is in progress. -/
def State.takeCmd (s : State) (h : BHdr) : State :=
  let ch := h.ch.toNat
  let c := s.chan ch
  if ch < 16 then
    let head := s.rd (R.MB_STAT_CHEAD ch)
    let s1 := s.wr (R.MB_STAT_CHEAD ch) ((head + 1) % s.cmdSize ch)
    s1.setChan ch { c with busy := some ⟨h.tag, h.raddr, h.rcap.toNat, head, h.dma != .data, h.dma != .ringWrite, false⟩ }
  else
    match c.held with
    | [] => s
    | (q, x) :: rest => s.setChan ch { c with held := rest, busy := some ⟨h.tag, BitVec.ofNat 64 x, c.src.getD 0, q, true, true, false⟩ }

/-- Run a command: nothing while the channel cannot start it; else its completion, its effect, or its start. -/
def State.bertia (s : State) (h : BHdr) (sp : CmdSpec) (act : State → Reply) : State :=
  let ch := h.ch.toNat
  if !s.canStart ch then s
  else if h.dma = .ringRead ∧ ch < 16 then s.mbHalt ch 2
  else
    let s1 := (s.takeCmd h).touchSession ch
    if s.boot.recovery && !sp.rom then s1.complete ch stBadState []
    else match s1.frameStatus h sp with
    | some st => (if st = stDmaErr then s1.set1 R.HOST_ERR_DMA else s1).complete ch st []
    | none =>
      if ch < 16 ∧ 48 < sp.maxData ∧ h.rcap.toNat < sp.maxData then s1.completeSmall ch sp.maxData
      else match act s1 with
        | .now st data t => t.complete ch st data
        | .later t => t

/-- The meaning of a Bertia row. -/
def bertiaRow (h : BHdr) (sp : CmdSpec) (act : State → Reply) (s : State) : Host.Outcome State Fault Refusal :=
  doneIf (hdrOk h) (s.bertia h sp act)

end Sys2Proof.Machine
end

