-- ==== Sys2Proof/Machine/JournalOps.lean ====
section
/-! DEFINITION. The journal's shared operations (13): records, blocks, admission, closing, the chains' heads. -/

namespace Sys2Proof.Machine

open Sys2Proof

/-- The key of a persistent setting of the journal (R415): 0 HOLDUP, 1 SEAL_IVL, 2 archive mode. -/
def settingKey (k : Nat) : Nat := Config.settingKey k % 4294967296

/-! ### States and counts -/

def jOff : Nat := 0
def jRecovering : Nat := 1
def jReady : Nat := 2
def jRunning : Nat := 3
def jFull : Nat := 4
def jPfHalt : Nat := 5
def jFailed : Nat := 6

def State.jState (s : State) : Nat := s.rd R.J_STAT_STATE

/-- R408, R426, R482: J_STAT.STATE changes. -/
def State.setJState (s : State) (n : Nat) : State :=
  if s.jState = n then s
  else ((s.wr R.J_STAT_STATE n).set1 R.J_EVT_STATE).hostEvent 0x0050 5 (le 1 n)

/-- Ports in the rotation (NS_USE), ascending. -/
def State.nsInUse (s : State) : List Nat := (List.range 4).filter (fun p => s.rd R.J_STAT_NS_USE / 2 ^ p % 2 = 1)

/-- The archive's open block of a chain. -/
def State.openBlock (s : State) (chain : Nat) : Option Block :=
  s.jrn.blocks.find? (fun b => b.chain = chain ∧ b.state = .opened)

/-- BUF_USED: blocks in the write buffer (R409). -/
def State.bufUsed (s : State) : Nat := (s.jrn.blocks.filter (fun b => b.state = .opened ∨ b.state = .closed)).length

/-- Segments of the archive in use on port p. -/
def State.segsUsed (s : State) (p : Nat) : Nat := (s.jrn.segs.filter (fun g => g.seg / 1073741824 = p)).length

/-- Free segments (FREE_SEG). -/
def State.freeSegs (s : State) : Nat :=
  ((s.nsInUse).map (fun p => mget (fun _ => 0) s.jrn.nsSegs p - s.segsUsed p)).foldl (· + ·) 0

/-- Segments of a chain's reserve that are still free: 2 for each namespace in use, less what the chain has taken (R416). -/
def State.reserve (s : State) (chain : Nat) : Nat := 2 * s.nsInUse.length - mget (fun _ => 0) s.jrn.dip chain

/-- Free segments beyond the reserves of the three chains (R416; log 13). -/
def State.commonSegs (s : State) : Nat := s.freeSegs - (s.reserve 0 + s.reserve 1 + s.reserve 2)

/-- Keep BUF_USED and FREE_SEG up to date (R425); TOG inverts on a change (R220). -/
def State.jCounts (s : State) : State :=
  let s1 := if s.rd R.BUF_USED_V = s.bufUsed then s else (s.wr R.BUF_USED_V s.bufUsed).toggle R.BUF_USED_TOG
  s1.wr R.FREE_SEG_V s.freeSegs

/-- R410: RATE_G and BUF_CEIL. -/
def State.jRates (s : State) : State :=
  let rates := s.nsInUse.map (fun p => s.rdW (R.S_RATE p))
  let g := match rates with
    | [] => 0
    | r :: rs => (r :: rs).length * rs.foldl min r
  let ceil := (s.rdW R.HOLDUP - 1000) * g / 1048576
  (s.wrW R.RATE_G g).wr R.BUF_CEIL_V ceil

/-! ### Records -/

/-- Octets of a block's payload: 1 MiB less the header (R402). -/
def blockPayload : Nat := 1048384

/-- A record with its header, padded to 8 octets (R404). -/
def recOctets (r : JRec) (flags : Nat) : List Octet :=
  let body := padTo 8 r.body
  le 1 r.rtype.toNat ++ le 1 flags ++ le 2 0 ++ le 4 (16 + body.length) ++ le 6 r.beat.toNat ++ le 2 0 ++ body

/-- Essential record types (R405): WHISTLE, CONFIG_CHANGE, SENSOR_ID, TIME_DISC, SEAL, TOMBSTONE, POWER_FAIL. -/
def essential (t : Nat) : Bool := decide (0x04 ≤ t ∧ t ≤ 0x0A)

/-- The parts of a body that exceeds one block (R404). -/
def splitParts (r : JRec) : List JRec :=
  if r.body.length ≤ blockPayload - 16 then [r]
  else
    let n := (r.body.length + 1048359) / 1048360
    (List.range n).map (fun i => { r with body := (r.body.drop (i * 1048360)).take 1048360, part := true, last := decide (i + 1 = n) })

/-- Octets a block's records take. -/
def Block.used (b : Block) : Nat := (b.recs.map (·.octets.length)).foldl (· + ·) 0

/-- The 192-octet header of a block at its close (R402). -/
def blockHeader (b : Block) (seg : Nat) (archive : BitVec 64) (prev : BitVec 384) : List Octet :=
  let pay := (b.recs.map (·.octets)).flatten
  let beats := b.recs.map (·.beat.toNat)
  let lo := match beats with
    | [] => 0
    | x :: xs => xs.foldl min x
  let h := le 4 0x4B4C424A ++ le 1 1 ++ le 1 (if b.chain = 3 then 12 else 20) ++ le 1 b.chain ++ le 1 b.bflags
    ++ le 8 Config.serial.toNat ++ le 8 archive.toNat ++ le 8 b.bseq ++ le 4 seg ++ le 4 pay.length ++ le 4 b.recs.length
    ++ le 4 0 ++ le 6 lo ++ le 6 (beats.foldl max 0) ++ le 4 0 ++ le 48 prev.toNat ++ le 48 (Config.sha384 pay).toNat
    ++ le 10 (packTime b.tClose).toNat ++ le 18 0
  h ++ le 4 (crc32 h)

/-! ### Segments and blocks -/

/-- R399: the archive-wide number of a segment held as 2^30 port + local. -/
def State.segNo (s : State) (g : Nat) : Nat := s.rd (R.S_STAT_NSIDX (g / 1073741824)) * 1073741824 + g % 1073741824


/-- Blocks of a segment in use: 65,536 LBAs of 4,096 octets (R399). -/
def segBlocks : Nat := 256

/-- The open segment of a chain on port p, if it has one. -/
def State.openSeg (s : State) (chain p : Nat) : Option Segment :=
  s.jrn.segs.find? (fun g => g.chain = chain ∧ g.seg / 1073741824 = p ∧ g.filled = false)

/-- The lowest free local segment of port p. -/
def State.freeLocal (s : State) (p : Nat) : Option Nat :=
  (List.range (mget (fun _ => 0) s.jrn.nsSegs p)).find? (fun j => !s.jrn.segs.any (fun g => g.seg = p * 1073741824 + j))

/-- R403: the ports block bseq of a chain may go to: the one its number gives, and those after it in rotation. -/
def State.blockPorts (s : State) (bseq : Nat) : List Nat :=
  let l := s.nsInUse
  l.drop (bseq % l.length) ++ l.take (bseq % l.length)

/-- The next BSEQ of a chain. -/
def State.nextBseq (s : State) (chain : Nat) : Nat := mget (fun _ => 0) s.jrn.heads chain

/-- A segment taken into use by block k of a chain. -/
def newSegment (seg chain k : Nat) : Segment :=
  { seg := seg, chain := chain, first := k, last := k, filled := false, firstBeat := 0, lastBeat := 0, types := 0, lastHash := 0 }

/-- An empty open block. -/
def newBlk (chain k p seg bflags : Nat) : Block :=
  { chain := chain, bseq := k, ns := p, seg := seg, recs := [], bflags := bflags, state := .opened, tClose := 0, header := [] }

/-- Segment seg now reaches block k. -/
def Segment.reach (seg k : Nat) (x : Segment) : Segment := if x.seg = seg then { x with last := k } else x

/-- Where block k of a chain goes on port p: the open segment, or a free one beyond the other chains' reserves (R416). -/
def State.blockSeg (s : State) (chain k p : Nat) : Option (Nat × List Segment × Bool) :=
  match s.openSeg chain p with
  | some g => some (g.seg, s.jrn.segs.map (Segment.reach g.seg k), false)
  | none =>
    if s.commonSegs = 0 ∧ s.reserve chain = 0 then none
    else (s.freeLocal p).map (fun j => (p * 1073741824 + j, s.jrn.segs ++ [newSegment (p * 1073741824 + j) chain k], s.commonSegs == 0))

/-- Open a block of a chain on its port, or on the next in rotation that has room (log 13); none where no segment is free. -/
def State.newBlock (s : State) (chain bflags : Nat) : Option State :=
  let k := s.nextBseq chain
  ((s.blockPorts k).findSome? (fun p => (s.blockSeg chain k p).map (fun x => (p, x)))).map (fun (p, seg, segs, dips) =>
    s.onJrn (fun z => { z with
      segs := segs
      dip := if dips then mset (fun _ => 0) z.dip chain (mget (fun _ => 0) z.dip chain + 1) else z.dip
      heads := mset (fun _ => 0) s.jrn.heads chain (k + 1)
      blocks := s.jrn.blocks ++ [newBlk chain k p seg bflags] }))

/-- Blocks of a segment that exist. -/
def State.segCount (s : State) (seg : Nat) : Nat := (s.jrn.blocks.filter (fun b => b.seg = seg)).length

/-- A command goes to a store port's queue (R398). -/
def State.nvme (s : State) (p : Nat) (c : NvmeCmd) : State :=
  (s.onJrn (fun z => { z with cmds := mset (fun _ => []) s.jrn.cmds p (mget (fun _ => []) s.jrn.cmds p ++ [(c, 0)]) })).emit (.nvme p c)

/-- The lowest and highest of a list of beats. -/
def beatSpan (l : List (BitVec 48)) (f lst : BitVec 48) : BitVec 48 × BitVec 48 :=
  l.foldl (fun a b => (if b < a.1 then b else a.1, if a.2 < b then b else a.2)) (f, lst)

/-- Close the open block of a chain, EARLY unless it is full: header, chain head, write command, with FUA where it is asked for and
in the power-fail sequence (R421); a segment with 256 blocks is filled (R402, R403, R415). -/
def State.closeAs (s : State) (chain flags : Nat) (filled fua : Bool) : State :=
  match s.openBlock chain with
  | none => s
  | some b =>
    let b1 := { b with tClose := s.packNow, bflags := b.bflags ||| flags ||| (if !filled && decide (b.used + 16 ≤ blockPayload) then 1 else 0) }
    let hdr := blockHeader b1 (s.segNo b.seg) (s.jrn.archive.getD 0) (mget (fun _ => 0) s.jrn.headHash chain)
    let hash := Config.sha384 hdr
    let full := decide (segBlocks ≤ s.segCount b.seg)
    let beats := b.recs.map (·.beat)
    let types := b.recs.foldl (fun m r => m ||| 2 ^ r.rtype) 0
    let s1 := (s.onJrn (fun z => { z with
      blocks := s.jrn.blocks.map (fun x => if x.chain = chain ∧ x.bseq = b.bseq then { b1 with state := .closed, header := hdr } else x)
      headHash := mset (fun _ => 0) s.jrn.headHash chain hash
      segs := s.jrn.segs.map (fun g => if g.seg = b.seg then
          let span := beatSpan beats (if g.types = 0 then beats.headD 0 else g.firstBeat) g.lastBeat
          { g with filled := full, firstBeat := span.1, lastBeat := span.2, types := g.types ||| types, lastHash := hash } else g) }))
    (s1.nvme b.ns (.write chain b.bseq (fua || s.jrn.pf.isSome || flags / 2 % 2 == 1))).jCounts

/-- Close the open block of a chain before it is full. -/
def State.closeBlock (s : State) (chain flags : Nat) (fua : Bool := false) : State := s.closeAs chain flags false fua

/-- R401, R412, R416: the chain a record belongs to: types 0x10 to 0x12 name theirs by their subject, seals and
tombstones by its upper part. -/
def recChain (r : JRec) : Nat :=
  if 0x10 ≤ r.rtype.toNat then r.subject else if r.rtype = 0x08 ∨ r.rtype = 0x09 then r.subject / 256 else 0

/-- Put a record into the open block of its chain, closing a full one; none where no block can be opened. -/
def State.putRec (s : State) (r : JRec) (flags : Nat) : Option State :=
  let oct := recOctets r flags
  let chain := recChain r
  let fits (t : State) : Bool := match t.openBlock chain with
    | some b => decide (b.used + oct.length ≤ blockPayload)
    | none => false
  let put (t : State) : State := (t.onJrn (fun z => { z with blocks := t.jrn.blocks.map (fun b =>
      if b.chain = chain ∧ b.state = .opened then
        { b with recs := b.recs ++ [⟨r.rtype.toNat, flags, r.subject, r.beat, oct⟩] } else b) }))
  if fits s then some (put s)
  else ((s.closeAs chain 0 true false).newBlock chain 0).map (fun t => (put t).jCounts)

/-! ### Admission (R409) -/

/-- The hold area's octets in use. -/
def State.holdUsed (s : State) : Nat := (s.jrn.hold.map (fun r => (recOctets r 0).length)).foldl (· + ·) 0

/-- May a record wait in the 256 KiB hold area? -/
def State.holdTakes (s : State) (r : JRec) : Bool := decide (s.holdUsed + (recOctets r 0).length ≤ 262144)

/-- R404: the next record of a type and subject carries LOSS. -/
def State.markLoss (s : State) (r : JRec) : State :=
  let key := (r.rtype.toNat, r.subject)
  s.onJrn (fun z => { z with lossOf := if s.jrn.lossOf.contains key then s.jrn.lossOf else s.jrn.lossOf ++ [key] })

/-- R409: count a refused record, and mark the next of its type and subject LOSS. -/
def State.refuseRec (s : State) (r : JRec) : State :=
  ((s.markLoss r).inc (if essential r.rtype.toNat then R.DROP_ESS_V else R.DROP_BULK_V)).set1 R.J_EVT_DROP

/-- R409, R416, R418: does the class of a record let it in now? -/
def State.admits (s : State) (r : JRec) : Bool :=
  if essential r.rtype.toNat || decide (0x10 ≤ r.rtype.toNat) then decide (s.bufUsed < s.rd R.BUF_CEIL_V)
  else decide (s.bufUsed + 4 < s.rd R.BUF_CEIL_V) && decide (0 < s.commonSegs)

/-- A TOMBSTONE record of a chain (R405, R419). -/
def tombstone (chain reason first last : Nat) (hash : BitVec 384) (sess : Nat) (beat : BitVec 48) : JRec :=
  ⟨0x09, chain * 256 + reason, beat, false, false, le 1 reason ++ le 3 0 ++ le 8 first ++ le 8 last ++ le 48 hash.toNat ++ le 8 sess⟩

/-- The oldest filled segment of a chain. -/
def State.oldestSeg (s : State) (chain : Nat) : Option Segment :=
  (s.jrn.segs.filter (fun g => g.chain = chain ∧ g.filled)).foldl
    (fun a g => match a with
      | none => some g
      | some x => if g.first < x.first then some g else some x) none

/-- What a chain has taken of its reserve is given back by a segment that becomes free: first to its own (R416; log 13). -/
def giveBack (dip : SMap Nat) (chain : Nat) : SMap Nat :=
  match [chain, 0, 1, 2].find? (fun c => decide (0 < mget (fun _ => 0) dip c)) with
  | some c => mset (fun _ => 0) dip c (mget (fun _ => 0) dip c - 1)
  | none => dip

/-- Release a segment: its blocks are gone, and the port deallocates it (R418). -/
def State.releaseSeg (s : State) (g : Segment) : State :=
  ((s.onJrn (fun z => { z with
      dip := giveBack z.dip g.chain
      segs := s.jrn.segs.filter (fun x => x.seg ≠ g.seg)
      blocks := s.jrn.blocks.filter (fun b => b.seg ≠ g.seg)
      freed := s.jrn.freed ++ [g] }))).nvme (g.seg / 1073741824) (.dealloc g.seg)

/-- R409: place a record, with LOSS if one of its type and subject was refused before; none where there is no room. -/
def State.placeRec (s : State) (r : JRec) : Option State :=
  let key := (r.rtype.toNat, r.subject)
  let flags := (if s.jrn.lossOf.contains key then 1 else 0) + (if r.part then 2 else 0) + (if r.last then 4 else 0)
  (s.putRec r flags).map (fun t => ((t.onJrn (fun z => { z with lossOf := t.jrn.lossOf.filter (· ≠ key) }))).jCounts)

/-- An admitted record is placed. Where the ARCHIVE has no segment free, a linear one is FULL (R408, R418). -/
def State.admitOne (s : State) (r : JRec) : State :=
  match s.placeRec r with
  | some t => t
  | none => if recChain r = 0 ∧ !s.jrn.ring then (s.refuseRec r).setJState jFull |>.set1 R.J_EVT_FULL else s.refuseRec r

/-- R418: the tombstone of an ARCHIVE segment to be released, with the block it stands in; none where there is no room. -/
def State.releaseAfter (s : State) (reason sess : Nat) (g : Segment) : Option State :=
  (s.placeRec (tombstone 0 reason g.first g.last g.lastHash sess s.beat.num)).map (fun t =>
    t.onJrn (fun z => { z with release := z.release ++ [(g.seg, t.nextBseq 0 - 1)] }))

/-- R418: in ring mode, as free ARCHIVE segments fall to the reserve, the tombstone of the oldest filled one is written with FUA;
the segment is released once it is durable. -/
def State.ringRelease (s : State) : State :=
  if s.jrn.ring ∧ s.commonSegs = 0 ∧ s.jrn.release.isEmpty ∧ s.bufUsed < s.rd R.BUF_CEIL_V then
    match (s.oldestSeg 0).bind (s.releaseAfter 1 0) with
    | some t => t.closeBlock 0 0 true
    | none => s
  else s

/-- R409, R421: a block offers a record to the journal. -/
def State.offerRec (s : State) (r : JRec) : State :=
  let st := s.jState
  if s.jrn.pf.isSome ∨ st = jPfHalt then
    if essential r.rtype.toNat ∨ s.jrn.pf.isSome then (s.markLoss r).inc R.PF_REFUSED_V else s.refuseRec r
  else if st = jRunning then
    let s1 := s.ringRelease
    if s1.admits r then (splitParts r).foldl State.admitOne s1
    else
      let s2 := s1.refuseRec r
      if essential r.rtype.toNat then s2 else (if 0 < s1.commonSegs then s2 else s2.set1 R.J_EVT_FULL)
  else if st = jFull then s.refuseRec r
  else if essential r.rtype.toNat ∧ s.holdTakes r then (s.onJrn (fun z => { z with hold := s.jrn.hold ++ [r] }))
  else s.refuseRec r

/-- R409, last paragraph: is a record accepted for R60? -/
def State.acceptsDisc (s : State) (r : JRec) : Bool :=
  let st := s.jState
  if s.jrn.pf.isSome then false
  else if st = jRunning then s.admits r
  else if st = jRecovering ∨ st = jReady then s.holdTakes r
  else false

/-- Does the journal count as not configured for R60: OFF, FAILED, PF_HALT, or the hold area cannot take it? -/
def State.discUnconfigured (s : State) (r : JRec) : Bool :=
  let st := s.jState
  st == jOff || st == jFailed || st == jPfHalt || ((st == jRecovering || st == jReady) && !s.holdTakes r)

/-- The body of a TIME_DISC record (R405). -/
def discBody (d : DiscRec) : List Octet :=
  le 1 d.cause ++ le 1 d.srcSel ++ le 2 0 ++ le 6 d.beat.toNat ++ le 10 (packTime d.before).toNat
    ++ le 10 (packTime d.after).toNat ++ le 8 (toSigned 64 d.stepNs) ++ le 8 (toSigned 64 d.uncNs)

/-- A time-discontinuity record as the journal takes it (R61). -/
def discRec (d : DiscRec) : JRec := ⟨0x07, d.cause, d.beat, false, false, discBody d⟩

/-- R61: emit a time-discontinuity record and set DISC. -/
def State.emitDisc (s : State) (d : DiscRec) : State := (s.offerRec (discRec d)).set1 R.BEAT_INT_STAT_DISC

/-- R482, code 0x0030: a time-discontinuity record with no journal. -/
def State.discEvent (s : State) (d : DiscRec) : State :=
  s.hostEventDue d.beat 0x0030 3 (le 1 d.cause ++ le 1 d.srcSel ++ le 2 0 ++ le 10 (packTime d.after).toNat
    ++ le 8 (toSigned 64 d.stepNs) ++ le 8 (toSigned 64 d.uncNs) ++ le 6 0)

end Sys2Proof.Machine
end

