-- ==== Sys2Proof/Machine/StreamOps.lean ====
section
/-! DEFINITION. The context table (04): its longs and fields, ring slots, calibration, the output guard's values, the
status counters. -/

namespace Sys2Proof.Machine

open Sys2Proof

/-! ### The table's longs -/

/-- Reset values of the longs of an entry (R101). -/
def ctxLongReset (k : Nat) : Long :=
  if k % 16 = 3 then 0x0040000000 else if k % 16 = 7 then 0x00000FFFFF else if k % 16 = 9 then 0x7FFFF80001 else 0

/-- Long l of context i (R99). -/
def State.ctxL (s : State) (i l : Nat) : Long := mget ctxLongReset s.str.ctx (16 * i + l)

def State.setCtxL (s : State) (i l : Nat) (v : Long) : State :=
  s.onStr (fun z => { z with ctx := mset ctxLongReset z.ctx (16 * i + l) v })

/-- Bits lo upward of a long, w of them. -/
def bitsOf (v : Long) (lo w : Nat) : Nat := v.toNat / 2 ^ lo % 2 ^ w

/-- A long with bits lo upward, w of them, replaced. -/
def withBits (v : Long) (lo w x : Nat) : Long :=
  BitVec.ofNat 40 (v.toNat - bitsOf v lo w * 2 ^ lo + x % 2 ^ w * 2 ^ lo)

/-- The configuration longs 0 to 9 of a context, taken apart (R101). -/
structure CtxCfg where
  ctype : Nat
  fmt : Nat
  store : Nat
  spb : Nat
  owner : Nat
  redEn : Bool
  subEn : Bool
  jrnl : Bool
  port : Nat
  channel : Nat
  srcNode : Nat
  srcCtx : Nat
  lat : Nat
  base : Nat
  depth : Nat
  gain : Int
  offset : Int
  redPtr : Nat
  subIdx : Nat
  subCnt : Nat
  policy : Nat
  holdBeats : Nat
  rampBeats : Nat
  clampHi : Int
  clampLo : Int
  deriving DecidableEq, Repr

/-- TYPE codes (R101). -/
def tyIn : Nat := 1
def tyOut : Nat := 2
def tyDer : Nat := 3
def tyRem : Nat := 4
def tyRed : Nat := 5
def tyTim : Nat := 6

/-- The longs of a configuration taken apart. -/
def decodeCtx (l : List Long) : CtxCfg :=
  let g (k : Nat) : Long := l.getD k 0
  { ctype := bitsOf (g 0) 37 3, fmt := bitsOf (g 0) 35 2, store := bitsOf (g 0) 33 2, spb := bitsOf (g 0) 20 13
    owner := bitsOf (g 0) 14 6, redEn := (g 0).getLsbD 13, subEn := (g 0).getLsbD 12, jrnl := (g 0).getLsbD 11
    port := bitsOf (g 1) 36 4, channel := bitsOf (g 1) 24 12, srcNode := bitsOf (g 1) 24 16, srcCtx := bitsOf (g 1) 6 18
    lat := bitsOf (g 1) 0 6, base := bitsOf (g 2) 21 19, depth := bitsOf (g 2) 9 12, gain := (g 3).toInt
    offset := (g 4).toInt, redPtr := (g 5).toNat, subIdx := bitsOf (g 6) 9 16, subCnt := bitsOf (g 6) 0 9
    policy := bitsOf (g 8) 38 2, holdBeats := bitsOf (g 8) 24 12, rampBeats := bitsOf (g 8) 12 12
    clampHi := ofSigned 20 (bitsOf (g 9) 20 20), clampLo := ofSigned 20 (bitsOf (g 9) 0 20) }

/-- Enabled: TYPE other than FREE and SPB other than 0 (R128). -/
def CtxCfg.on (c : CtxCfg) : Bool := c.ctype != 0 && c.spb != 0

/-- Longs 0 to 9 in force. -/
def State.cfgLongs (s : State) (i : Nat) : List Long := (List.range 10).map (fun l => s.ctxL i l)

/-- The configuration in force of context i. -/
def State.cfg (s : State) (i : Nat) : CtxCfg := decodeCtx (s.cfgLongs i)

/-- Is context i enabled and of a type? -/
def State.isCtx (s : State) (i ty : Nat) : Bool := (s.cfg i).on && (s.cfg i).ctype == ty

/-- Contexts whose CTL is not its reset value, in ascending order. -/
def ctlKeys (m : SMap Long) : List Nat := m.filterMap (fun e => if e.1 % 16 = 0 then some (e.1 / 16) else none)

/-- The enabled contexts in force, ascending. -/
def State.ctxOn (s : State) : List Nat := (ctlKeys s.str.ctx).filter (fun i => (s.cfg i).on)

/-- The enabled contexts of a type. -/
def State.ctxOf (s : State) (ty : Nat) : List Nat := s.ctxOn.filter (fun i => (s.cfg i).ctype = ty)

/-! ### Slots (R107 to R109) -/

/-- Grains of an element. -/
def CtxCfg.elem (c : CtxCfg) : Nat := if c.store = 2 then 2 else 1

/-- Grains of a slot. -/
def CtxCfg.slot (c : CtxCfg) : Nat := 2 * ((2 + c.spb * c.elem + 1) / 2)

/-- Global grain address of the slot of a tagged beat. -/
def CtxCfg.slotAt (c : CtxCfg) (beat : BitVec 48) : Nat :=
  clusterBase c.owner + c.base + beat.toNat % c.depth * c.slot

/-- The gap of the store form (R103 to R105). -/
def CtxCfg.gap (c : CtxCfg) : Long :=
  if c.store = 2 then 0x8000000000 else if c.store = 0 ∧ c.fmt = 1 then 0xE0000 else 0x80000

/-- A slot header (R108). -/
def slotHeader (beat : BitVec 48) (gaps : Nat) (clipped whole : Bool) : Long :=
  BitVec.ofNat 40 (beat.toNat % 16777216 * 65536 + min gaps 4095 * 16 + (if clipped then 8 else 0) + (if whole then 4 else 0) + 1)

/-- Element j of the slot at a. -/
def State.getElem (s : State) (c : CtxCfg) (a j : Nat) : Long :=
  if c.store = 2 then s.long (a + 2 + 2 * j) else (s.grain (a + 2 + j)).setWidth 40

/-- Write element j of the slot at a. -/
def State.putElem (s : State) (c : CtxCfg) (a j : Nat) (v : Long) : State :=
  if c.store = 2 then s.setLong (a + 2 + 2 * j) v else s.setGrain (a + 2 + j) (v.setWidth 20)

/-- Write elements from index j on. -/
def State.putElems (c : CtxCfg) (a : Nat) : Nat → List Long → State → State
  | _, [], s => s
  | j, v :: r, s => State.putElems c a (j + 1) r (s.putElem c a j v)

/-- The elements of a slot. -/
def State.slotElems (s : State) (c : CtxCfg) (a : Nat) : List Long := (List.range c.spb).map (s.getElem c a)

/-! ### Calibration (R103 to R106) -/

/-- Linear input of a received code (R105): sext for LIN20, the mantissa shifted by its range for RNG20. -/
def linearOf (fmt : Nat) (code : Grain) : Int :=
  if fmt = 1 then ofSigned 18 (code.toNat % 262144) * 2 ^ (4 * (code.toNat / 262144)) else code.toInt

/-- Is a code the gap code of its format (R103, R104)? -/
def isGapCode (fmt : Nat) (code : Grain) : Bool := if fmt = 1 then code == 0xE0000 else code == 0x80000

/-- (x GAIN + 2^29) >> 30, arithmetic (R105, R106). -/
def scaled (gain x : Int) : Int := (x * gain + 536870912) / 1073741824

/-- Store range of CAL20 and CAL40. -/
def storeMax (store : Nat) : Int := if store = 2 then 549755813887 else 524287

/-- R105: the stored element of a received code, and whether it was saturated. -/
def calIn (c : CtxCfg) (code : Grain) : Long × Bool :=
  if isGapCode c.fmt code then (c.gap, false)
  else if c.store = 0 then (code.setWidth 40, false)
  else
    let y := scaled c.gain (linearOf c.fmt code) + c.offset
    let m := storeMax c.store
    let z := clampInt (-m) m y
    ((if c.store = 2 then BitVec.ofInt 40 z else (BitVec.ofInt 20 z).setWidth 40), z != y)

/-- R106: the drive code of a stored element, and whether saturation or the clamps changed it. -/
def calOut (c : CtxCfg) (v : Long) : Int × Bool :=
  let raw : Int := if c.store = 2 then v.toInt else ofSigned 20 v.toNat
  let y := if c.store = 0 then raw else scaled c.gain raw + c.offset
  let z := clampInt (-524287) 524287 y
  let w := clampInt c.clampLo c.clampHi z
  (w, w != y)

/-- Is a stored element the gap of its store form? -/
def CtxCfg.isGap (c : CtxCfg) (v : Long) : Bool := if c.store = 2 then v == c.gap else v.setWidth 20 == c.gap.setWidth 20

/-! ### Status counters (R101, R126, R572) -/

/-- Add to the high or low grain of a status long, saturating at 0xF_FFFF. -/
def satHi (v : Long) (n : Nat) : Long := withBits v 20 20 (min (bitsOf v 20 20 + n) 1048575)
def satLo (v : Long) (n : Nat) : Long := withBits v 0 20 (min (bitsOf v 0 20 + n) 1048575)

/-- Count n gap samples, and with at least one (or a missing block) a gap beat b (R572, R121). -/
def State.countGaps (s : State) (i n : Nat) (b : BitVec 48) (beat : Bool) : State :=
  let s1 := s.setCtxL i 10 (satLo (s.ctxL i 10) n)
  if beat then (s1.setCtxL i 10 (satHi (s1.ctxL i 10) 1)).setCtxL i 12 (b.setWidth 40) else s1

/-- OVR counts an event (R126). -/
def State.countOvr (s : State) (i : Nat) : State := s.setCtxL i 11 (satHi (s.ctxL i 11) 1)

/-- CLIP counts n values (R105, R106). -/
def State.countClip (s : State) (i n : Nat) : State := s.setCtxL i 11 (satLo (s.ctxL i 11) n)

/-- Is the owning cluster of a context on (R22)? -/
def State.ownerOn (s : State) (c : CtxCfg) : Bool := s.domOn (domCluster c.owner)

/-! ### Subscriber entries (R117) and their matches (R119) -/

def State.subEntry (s : State) (k : Nat) : Long := mget (fun _ => 0) s.str.subs k
def subKind (e : Long) : Nat := bitsOf e 38 2
def subNode (e : Long) : Nat := bitsOf e 22 16
def subCtx (e : Long) : Nat := bitsOf e 4 18

/-- R119: does SRC_NODE name this node? -/
def State.namesSelf (s : State) (node : Nat) : Bool := node == 0 || (s.ownAddr != 0 && node == s.ownAddr)

/-- R119: is a REM configuration a match for a LOCAL delivery from context i? -/
def State.localMatch (s : State) (c : CtxCfg) (i : Nat) : Bool :=
  c.on && c.ctype == tyRem && s.namesSelf c.srcNode && c.srcCtx == i

/-! ### Staged configuration (R127, R130) -/

/-- The staged longs 0 to 9 of context i with SUB_IDX, SUB_CNT as the last SUB_SET assigned them (R130), or those in
force. -/
def State.stagedLongs (s : State) (i : Nat) : List Long :=
  let l := (mget (fun _ => none) s.str.stage i).getD (s.cfgLongs i)
  match mget (fun _ => none) s.str.stageSub i with
  | some (idx, es) => listSet l 6 (BitVec.ofNat 40 (idx * 512 + es.length))
  | none => listSet l 6 (s.ctxL i 6)

/-- The configuration that would be in force of context i. -/
def State.cfgNew (s : State) (i : Nat) : CtxCfg := decodeCtx (s.stagedLongs i)

/-- Contexts with anything staged. -/
def State.stagedCtx (s : State) : List Nat :=
  let a := s.str.stage.map (·.1)
  a ++ (s.str.stageSub.map (·.1)).filter (fun i => !a.contains i)

/-- Contexts enabled in the configuration that would be in force. -/
def State.ctxOnNew (s : State) : List Nat :=
  let a := (ctlKeys s.str.ctx)
  (a ++ (s.stagedCtx).filter (fun i => !a.contains i)).filter (fun i => (s.cfgNew i).on)

/-- A period in units of 2^-32 ns: in force, and staged. -/
def State.pqIn (s : State) : Nat := s.rdW R.PERIOD_ACT_INT * 4294967296 + s.rdW R.PERIOD_ACT_FRAC
def State.pqNew (s : State) : Nat := s.rdW R.PERIOD_INT * 4294967296 + s.rdW R.PERIOD_FRAC

/-- Entries of the stage buffer in use: contexts, one for each staging command of the reduction engines (R127, R335), RED_PTR with
the command that stages it; subscriber entries. -/
def State.stageUsed (s : State) : Nat :=
  s.str.stage.length + (s.red.stage.filter (fun x => !x.ptr)).length + s.red.qStage.length + s.red.extra
def State.stageSubUsed (s : State) : Nat :=
  (s.str.stageSub.map (fun e => match e.2 with
    | some (_, l) => l.length
    | none => 0)).foldl (· + ·) 0

/-- The stage buffer's capacities (R127). -/
def stageMax : Nat := 4096
def stageSubMax : Nat := 16384

/-- Is a commit pending, so that staging commands return BUSY (R129, R335, R395)? -/
def State.pendingCommit (s : State) : Bool := s.bit R.COMMIT_STAT_PENDING

end Sys2Proof.Machine
end

