-- ==== Sys2Proof/Machine/Gather.lean ====
section
/-! DEFINITION. Stream slots into the journal (R406, R407): SAMPLE_BLOCK and REDUCTION records. -/

namespace Sys2Proof.Machine

open Sys2Proof

/-- The slots gathered of a context: tagged beat, header, elements, oldest first. -/
def State.gathered (s : State) (i : Nat) : List (BitVec 48 × Long × List Long) := mget (fun _ => []) s.jrn.gather i

def State.setGathered (s : State) (i : Nat) (l : List (BitVec 48 × Long × List Long)) : State :=
  s.onJrn (fun z => { z with gather := mset (fun _ => []) z.gather i l })

/-- Elements packed as R383 packs them. -/
def packElems (store : Nat) (l : List Long) : List Octet :=
  if store = 2 then packBits 40 (l.map (·.toNat)) else packBits 20 (l.map (fun v => v.toNat % 1048576))

/-- A SAMPLE_BLOCK record of the gathered slots (R405); its beat is the first of them. -/
def sampleBlock (i node : Nat) (c : CtxCfg) (l : List (BitVec 48 × Long × List Long)) : JRec :=
  { rtype := 0x01, subject := i, beat := (l.map (·.1)).headD 0, part := false, last := false
    body := le 4 i ++ le 2 node ++ le 1 (c.fmt * 4 + c.store) ++ le 1 0 ++ le 2 l.length ++ le 2 c.spb ++ le 4 0
      ++ (l.map (fun e => leLong e.2.1)).flatten ++ packElems c.store (l.map (·.2.2)).flatten }

/-- The record of what is gathered of a context, if anything is. -/
def State.flushGather (s : State) (i : Nat) : State :=
  let l := s.gathered i
  if l.isEmpty then s else (s.setGathered i []).offerRec (sampleBlock i s.ownAddr (s.cfg i) l)

/-! ### Event windows (R420) -/

/-- An EVENT_WINDOW record of one slot (R405): FMT in bits 3:2 and STORE in bits 1:0. -/
def windowRec (w : Window) (trig : BitVec 48) (i : Nat) (c : CtxCfg) (b : BitVec 48) (hdr : Long) (elems : List Long) (last : Bool) : JRec :=
  { rtype := 0x03, subject := w.wid, beat := b, part := true, last := last
    body := le 4 w.wid ++ le 2 w.part ++ le 2 0 ++ le 6 trig.toNat ++ le 4 i ++ le 6 b.toNat ++ le 2 1 ++ le 2 c.spb
      ++ le 1 (c.fmt * 4 + c.store) ++ le 3 0 ++ leLong hdr ++ packElems c.store elems }

/-- A window takes a slot of context i of tagged beat b: its record, and the window after it (none once it is complete). -/
def windowTake (w : Window) (i : Nat) (c : CtxCfg) (b : BitVec 48) (hdr : Long) (elems : List Long) : Option (JRec × Option Window) :=
  match w.trig with
  | none => none
  | some n =>
    let d := (b - (n - BitVec.ofNat 48 w.pre)).toNat
    if !w.left.contains i ∨ w.pre + w.post ≤ d then none
    else
      let left := if d + 1 = w.pre + w.post then w.left.filter (· ≠ i) else w.left
      some (windowRec w n i c b hdr elems left.isEmpty, if left.isEmpty then none else some { w with left := left, part := w.part + 1 })

/-- Keep EW_ACTIVE. -/
def State.windowStat (s : State) : State := s.wb R.J_STAT_EW_ACTIVE (s.jrn.windows.any (fun w => w.trig.isSome))

/-- A slot offered to window w of those armed. -/
def State.windowOne (s : State) (wid i : Nat) (b : BitVec 48) (hdr : Long) (elems : List Long) : State :=
  match (s.jrn.windows.find? (fun x => x.wid = wid)).bind (fun w => windowTake w i (s.cfg i) b hdr elems) with
  | none => s
  | some (r, w2) =>
    let s1 := (s.offerRec r).onJrn (fun z => { z with windows := z.windows.filterMap (fun x => if x.wid = wid then w2 else some x) })
    if w2.isNone then (s1.set1 R.J_EVT_EW_DONE).windowStat else s1

/-- Has the last slot a triggered window captures of context i had its time at edge n, so that none is still to come? -/
def State.windowPassed (s : State) (w : Window) (n : BitVec 48) (i : Nat) : Bool :=
  match w.trig with
  | some t =>
    let c := s.cfg i
    let after := n - (t + BitVec.ofNat 48 (w.post - 1))
    !c.on || (decide (after.toNat < 140737488355328) && decide ((if c.ctype = tyRem then c.lat + 1 else 2) ≤ after.toNat))
  | none => false

/-- At edge n, contexts from which nothing more comes (disabled, asleep, without a slot for the last beat) leave the windows that
capture; a window that none is left of is disarmed (R420). -/
def State.windowsEnd (s : State) (n : BitVec 48) : State :=
  let ws := s.jrn.windows.map (fun w => { w with left := w.left.filter (fun i => !s.windowPassed w n i) })
  let ended (w : Window) : Bool := w.trig.isSome && w.left.isEmpty
  let s1 := s.onJrn (fun z => { z with windows := ws.filter (fun w => !ended w) })
  if ws.any ended then (s1.set1 R.J_EVT_EW_DONE).windowStat else s1

/-- R420: the windows that capture a slot. -/
def State.windowSlot (s : State) (i : Nat) (b : BitVec 48) (hdr : Long) (elems : List Long) : State :=
  s.jrn.windows.foldl (fun t w => t.windowOne w.wid i b hdr elems) s

/-- R407: the engine reads a slot of context i as it becomes readable; JBEATS consecutive beats make a record. -/
def State.gatherSlot (s0 : State) (i : Nat) (b : BitVec 48) (hdr : Long) (elems : List Long) : State :=
  let s := s0.windowSlot i b hdr elems
  if !(s.cfg i).jrnl then s
  else
    let gap := match (s.gathered i).getLast? with
      | some e => e.1 + 1 != b
      | none => false
    let s1 := if gap then s.flushGather i else s
    let s2 := s1.setGathered i (s1.gathered i ++ [(b, hdr, elems)])
    if s.rdF R.J_CFG_JBEATS ≤ (s2.gathered i).length then s2.flushGather i else s2

/-- The REDUCTION record of RED context i (R406). -/
def State.redRecord (s : State) (i : Nat) (b : BitVec 48) (longs : List Long) : State :=
  if (s.cfg i).jrnl && !longs.isEmpty then
    s.offerRec { rtype := 0x02, subject := i, beat := b, part := false, last := false
                 body := le 4 i ++ le 4 0 ++ (longs.map leLong).flatten }
  else s

end Sys2Proof.Machine
end

