-- ==== Sys2Proof/Machine/Subs.lean ====
section
/-! DEFINITION. Stream delivery (04, 12): a block to its context's subscribers, and a fragment into a REM slot. -/

namespace Sys2Proof.Machine

open Sys2Proof

/-- Is beat a at or after beat b, modulo 2^48? -/
def atOrAfter (a b : BitVec 48) : Bool := decide ((a - b).toNat < 140737488355328)

/-! ### A fragment into a REM slot (R119, R126, R384) -/

def State.remBlocks (s : State) (i : Nat) : List RemBlk := mget (fun _ => []) s.str.remRx i
def State.setRemBlocks (s : State) (i : Nat) (l : List RemBlk) : State :=
  s.onStr (fun z => { z with remRx := mset (fun _ => []) z.remRx i l })

/-- A fragment noted in the record of its slot. -/
def noteFrag (l : List RemBlk) (b : BitVec 48) (off n : Nat) (bad : Bool) : List RemBlk :=
  if l.any (fun x => x.beat = b) then
    l.map (fun x => if x.beat = b then { x with got := if bad then x.got else x.got ++ [(off, n)], bad := x.bad || bad } else x)
  else l ++ [⟨b, if bad then [] else [(off, n)], bad⟩]

/-- Deliver elements to REM context d, whose match with the source has been tested (R384): a mismatch of form discards
the block (R119), a fragment after its edge is discarded (R126), the rest is written at its offset. -/
def State.remTake (s : State) (d fmt store spb offs : Nat) (b : BitVec 48) (elems : List Long) : State :=
  let c := s.cfg d
  if c.fmt ≠ fmt ∨ c.store ≠ store ∨ c.spb ≠ spb then
    (s.countOvr d).setRemBlocks d (noteFrag (s.remBlocks d) b 0 0 true)
  else if s.str.edges.any (fun e => atOrAfter e.1 (b + BitVec.ofNat 48 c.lat)) then s.countOvr d
  else
    let l := elems.take (c.spb - offs)
    let s1 := s.setRemBlocks d (noteFrag (s.remBlocks d) b offs l.length false)
    if s.ownerOn c then State.putElems c (c.slotAt b) offs l s1 else s1

/-- R384: deliver a STREAM fragment from the fabric, or count it as stray. -/
def State.streamFrame (s : State) (src dctx srcCtx fmt store spb offs : Nat) (b : BitVec 48) (elems : List Long) (vl0 : Bool) : State :=
  let c := s.cfg dctx
  if s.domOn domContext ∧ c.on ∧ c.ctype = tyRem ∧ c.srcNode = src ∧ src ≠ 0 ∧ c.srcCtx = srcCtx then
    let s1 := if vl0 ∧ !s.str.vl0Fed.contains dctx then s.onStr (fun z => { z with vl0Fed := z.vl0Fed ++ [dctx] }) else s
    s1.remTake dctx fmt store spb offs b elems
  else s.countDrop R.STRAY_STREAM_V R.PACK_EVT_STRAY

/-- R119: a LOCAL delivery; one that no longer matches is discarded and counts in OVR. -/
def State.localDeliver (s : State) (d i : Nat) (c : CtxCfg) (b : BitVec 48) (elems : List Long) : State :=
  let r := s.cfg d
  if s.localMatch r i then s.remTake d c.fmt c.store c.spb 0 b elems
  else if r.on ∧ r.ctype = tyRem then s.countOvr d
  else s

/-! ### A block to its subscribers (R118, R378) -/

/-- Elements per fragment (R378, R383). -/
def fragLen (store : Nat) : Nat := if store = 2 then 400 else 800

/-- The fragments of a block from offset o on: offset, elements, LAST. At most n of them. -/
def fragments (k : Nat) : Nat → Nat → List Long → List (Nat × List Long × Bool)
  | 0, _, _ => []
  | n + 1, o, l =>
    if l.length ≤ k then [(o, l, true)] else (o, l.take k, false) :: fragments k n (o + k) (l.drop k)

/-- The stream payload of a fragment. -/
def streamLoad (i dctx : Nat) (c : CtxCfg) (o : Nat) (l : List Long) : Payload :=
  .stream (BitVec.ofNat 18 dctx) (BitVec.ofNat 2 c.fmt) (BitVec.ofNat 2 c.store) (BitVec.ofNat 13 c.spb) (BitVec.ofNat 13 o)
    (BitVec.ofNat 18 i) l

/-- SEND entries in force that name subscriber entry k. -/
def State.sendEntries (s : State) (k : Nat) : List Nat :=
  (s.schedIn.filter (fun e => e.2.kind = 1 ∧ e.2.sub.toNat = k)).map (·.1)

/-- A block becomes eligible for a SEND entry; an older one still unsent is replaced (R378). -/
def State.eligible (s : State) (e : Nat) (b : SendBlk) : State :=
  let old := mget (fun _ => none) s.fab.pend e
  let s1 := s.onFab (fun z => { z with pend := mset (fun _ => none) z.pend e (some b) })
  if old.isSome then s1.countDrop R.VL0_STALE_V R.PACK_EVT_VL0_LOSS else s1

/-- A VL1 copy of a block to one node or group. -/
def State.sendVl1 (s : State) (i : Nat) (c : CtxCfg) (node dctx : Nat) (b : BitVec 48) (elems : List Long) : State :=
  let dsts := if 0xF000 ≤ node ∧ node ≤ 0xFFFE then s.groupMembers node else [node]
  dsts.foldl (fun t d =>
    (fragments (fragLen c.store) (elems.length + 1) 0 elems).foldl
      (fun u f => u.originate { u.newFrame 1 d (streamLoad i dctx c f.1 f.2.1) with beat := b, last := f.2.2 }) t) s

/-- R118: send the block of tagged beat b of context i to its subscribers. -/
def State.sendBlock (s : State) (i : Nat) (b : BitVec 48) (elems : List Long) : State :=
  let c := s.cfg i
  if c.subEn then
    (List.range c.subCnt).foldl (fun t j =>
      let k := c.subIdx + j
      let e := t.subEntry k
      if subKind e = 0 then (t.sendEntries k).foldl (fun u n => u.eligible n ⟨i, b, elems⟩) t
      else if subKind e = 1 then t.sendVl1 i c (subNode e) (subCtx e) b elems
      else if subKind e = 2 then t.localDeliver (subCtx e) i c b elems
      else t) s
  else s

/-- The elements a block is sent with: those stored, or gap codes for a block that is missing (R118). -/
def State.blockElems (s : State) (c : CtxCfg) (b : BitVec 48) (whole : Bool) : List Long :=
  if whole then List.replicate c.spb c.gap else s.slotElems c (c.slotAt b)

end Sys2Proof.Machine
end

