-- ==== Sys2Proof/Machine/RedOps.lean ====
section
/-! DEFINITION. Reduction engines (10): intake, the seven kinds of state, closing a group, notices and errors. -/

namespace Sys2Proof.Machine

open Sys2Proof

/-! ### Engines and states -/

def State.eng (s : State) (c : Nat) : RedEng := mget (fun _ => {}) s.red.engs c
def State.setEng (s : State) (c : Nat) (x : RedEng) : State :=
  s.onRed (fun z => { z with engs := mset (fun _ => {}) z.engs c x })

/-- KIND codes (R301). -/
def kStats : Nat := 1
def kRflow : Nat := 2
def kPkvl : Nat := 3
def kSpec : Nat := 4
def kMember : Nat := 5
def kSrs : Nat := 6
def kDecim : Nat := 7

/-- Configuration long l of a state in force. -/
def RState.cl (r : RState) (l : Nat) : Long := ((r.cfg.find? (fun e => e.1 = l)).map (·.2)).getD 0

def RState.feed (r : RState) : Bool := (r.cl 0).getLsbD 36
def RState.outCtx (r : RState) : Nat := bitsOf (r.cl 0) 18 18
def RState.align (r : RState) : Bool := (r.cl 0).getLsbD 17
def RState.note (r : RState) : Bool := (r.cl 0).getLsbD 16
def RState.glen (r : RState) : Nat := bitsOf (r.cl 0) 0 16 + 1

/-- Replace the state of the same context and slot. -/
def putState (l : List RState) (r : RState) : List RState :=
  l.map (fun x => if x.src = r.src ∧ x.slot = r.slot then r else x)

def State.setRState (s : State) (r : RState) : State := s.onRed (fun z => { z with states := putState z.states r })

/-- The state of a chain slot. -/
def State.rstate (s : State) (src slot : Nat) : Option RState := s.red.states.find? (fun r => r.src = src ∧ r.slot = slot)

/-- The states of a context's chain, by slot; none where RED_PTR does not name the first. -/
def State.chain (s : State) (src : Nat) : List RState :=
  match [0, 1, 2, 3].filterMap (fun k => s.rstate src k) with
  | h :: l => if (s.cfg src).redPtr = h.addr then h :: l else []
  | [] => []

/-- The cluster that owns a state. -/
def State.rowner (s : State) (r : RState) : Nat := (s.cfg r.src).owner

/-- State longs in memory. -/
def State.rl (s : State) (r : RState) (l : Nat) : Long := s.long (r.addr + 2 * l)
def State.wl (s : State) (r : RState) (l : Nat) (v : Long) : State := s.setLong (r.addr + 2 * l) v

/-- RSTATE codes (R301). -/
def rsRun : Nat := 1
def rsFailed : Nat := 2

/-! ### Errors and registers (R332 to R334) -/

/-- An engine register by its offset (R333). -/
def State.reReg (s : State) (c off : Nat) : Long := mget (fun _ => 0) (s.eng c).regs off
def State.setReReg (s : State) (c off : Nat) (v : Long) : State :=
  let e := s.eng c
  s.setEng c { e with regs := mset (fun _ => 0) e.regs off v }

def State.reErr (s : State) (c : Nat) : Long := s.reReg c 0x00A

/-- RE_STAT: items in the intake, states in RUN. -/
def State.reStat (s : State) (c : Nat) : Long :=
  BitVec.ofNat 40 (min 256 (s.eng c).intake.length * 2 ^ 20 + (s.red.states.filter (fun r => s.rowner r = c ∧ !r.failed ∧ r.a.isSome)).length)

/-- Write RE_ERR; RED_ERR (source 65) rises when RE_ERR AND RE_ERR_EN becomes non-zero (R332). -/
def State.writeReErr (s : State) (c : Nat) (err en : Long) : State :=
  let before := s.reErr c &&& s.reReg c 0x00C
  let s1 := (s.setReReg c 0x00A err).setReReg c 0x00C en
  if before = 0 ∧ err &&& en ≠ 0 then s1.cicEdge c 65 else s1

/-- Set a bit of RE_ERR (R334). -/
def State.setReErr (s : State) (c bit : Nat) : State := s.writeReErr c (s.reErr c ||| (1#40 <<< bit)) (s.reReg c 0x00C)

/-- The result queue in force (R309). -/
def State.noteQ (s : State) (c : Nat) : Nat := mget (fun k => 0xFF40 + k) s.red.q c

/-! ### Where a state's memory lies (R300, R332) -/

/-- Longs or grains a state and its buffers occupy: first grain and length. -/
def RState.regions (r : RState) : List (Nat × Nat) :=
  let at_ (l : Nat) : Nat := (r.cl l).toNat
  if r.kind = kStats then [(r.addr, 34)]
  else if r.kind = kRflow then
    let n := (bitsOf (r.cl 5) 33 6 + 1) * (bitsOf (r.cl 5) 27 6 + 1)
    [(r.addr, 164), (at_ 9, 2 * n)] ++ (if (r.cl 5).getLsbD 26 then [(at_ 10, n)] else [])
      ++ (if bitsOf (r.cl 12) 20 20 = 0 then [] else [(at_ 11, 2 * bitsOf (r.cl 12) 20 20)])
  else if r.kind = kPkvl then [(r.addr, 18)]
  else if r.kind = kSpec then
    let n := 2 ^ bitsOf (r.cl 4) 35 5
    let c := bitsOf (r.cl 4) 27 4 + 1
    let e := c * (c + 1) / 2
    [(r.addr, 70), (at_ 5, 2 * c * n), (at_ 6, 8 * e * (n / 2 + 1)), (at_ 7, 2 * (16 + 4 * e * (n / 2 + 1)))]
  else if r.kind = kMember then [(r.addr, 12)]
  else if r.kind = kSrs then [(r.addr, 16 + 22 * (bitsOf (r.cl 4) 33 7 + 1))]
  else if r.kind = kDecim then
    let t := if (r.cl 4).getLsbD 34 then bitsOf (r.cl 4) 23 11 + 1 else 36 * (bitsOf (r.cl 4) 35 5 + 1) + 1
    (if (r.cl 4).getLsbD 34 then [(at_ 5, 2 * t)] else []) ++ [(r.addr, 18), (at_ 6, 2 * t)]
  else []

/-- Is a run of grains memory at both ends, so that a write of it meets no bus error? -/
def State.there (s : State) (e : Nat × Nat) : Bool :=
  match s.placeGlobal e.1, s.placeGlobal (e.1 + e.2 - 1) with
  | .mem _, .mem _ => true
  | _, _ => false

/-- Is a run of grains readable: there, no uncorrectable error in it? -/
def State.regionOk (s : State) (e : Nat × Nat) : Bool :=
  s.there e && !s.eccUnc.any (fun k => decide (e.1 ≤ k + 1 ∧ k < e.1 + e.2))

/-- Longs of a state (R301, R310 to R326). -/
def RState.longCount (r : RState) : Nat :=
  if r.kind = kStats then 17 else if r.kind = kRflow then 82 else if r.kind = kPkvl then 9 else if r.kind = kSpec then 35
  else if r.kind = kMember then 6 else if r.kind = kSrs then 8 + 11 * (bitsOf (r.cl 4) 33 7 + 1) else 9

/-- The longs of the state itself, which every work on it reads. -/
def RState.bodyAt (r : RState) : Nat × Nat := (r.addr, 2 * r.longCount)

def State.bodyOk (s : State) (r : RState) : Bool := s.regionOk r.bodyAt

/-- R332: a state enters FAILED on an access to grains e, whose uncorrectable errors are reported (R571). -/
def State.failState (s : State) (r : RState) (e : Nat × Nat) : State :=
  let c := s.rowner r
  let s1 := (s.setRState { r with failed := true }).setReReg c 0x010 (BitVec.ofNat 40 (r.src * 2 ^ 22 + r.slot * 2 ^ 20))
  let s2 := if s.there (r.addr, 6) then s1.wl r 2 (withBits (s1.rl r 2) 38 2 rsFailed) else s1
  (s2.scan e.1 e.2).setReErr c 3

/-- R302: grains from a to a + n - 1 were stored to by an agent other than the engine: the results of a state that
holds one of them are undefined until it next starts. -/
def State.spoil (s : State) (a n : Nat) : State :=
  if s.red.states.any (fun r => r.regions.any (fun e => decide (e.1 < a + n ∧ a < e.1 + e.2))) then
    s.onRed (fun z => { z with states := z.states.map (fun r =>
      if r.regions.any (fun e => decide (e.1 < a + n ∧ a < e.1 + e.2)) then { r with spoiled := true } else r) })
  else s

/-! ### Values (R299) -/

/-- The linear value of an element, none for a gap. -/
def redValue (c : CtxCfg) (v : Long) : Option Int :=
  if c.isGap v then none
  else if c.store = 2 then some v.toInt
  else if c.store = 0 ∧ c.fmt = 1 then some (linearOf 1 (v.setWidth 20))
  else some (ofSigned 20 v.toNat)

/-- The values of a list. -/
def values (l : List (Option Int)) : List Int := l.filterMap id

/-- A signed number as a long. -/
def longI (x : Int) : Long := BitVec.ofInt 40 x

/-! ### STATS (R310) -/

/-- The run longs of a STATS state, taken apart. -/
structure StatsRun where
  n : Nat
  mn : Int
  mx : Int
  sum : Int
  sq : Nat
  cr0 : Nat
  cr1 : Nat
  arm0 : Bool
  arm1 : Bool
  sqovf : Bool
  ovf : Bool

/-- A level crossing with hysteresis: count, armed, counter saturated. -/
def crossing (lvl hys x : Int) (cr : Nat) (arm : Bool) : Nat × Bool × Bool :=
  if arm ∧ lvl ≤ x then (min (cr + 1) 1048575, false, decide (1048575 < cr + 1))
  else if x < lvl - hys then (cr, true, false)
  else (cr, arm, false)

/-- One value taken. -/
def StatsRun.take (lvl0 lvl1 hys : Int) (sqsh : Nat) (r : StatsRun) (x : Int) : StatsRun :=
  let q := ((x * x).toNat + (if 0 < sqsh then 2 ^ (sqsh - 1) else 0)) / 2 ^ sqsh
  let lim := 2 ^ 80 - 1
  let big := decide (lim < r.sq + q)
  let sum := r.sum + x
  let sumC := clampInt (-(2 ^ 79)) (2 ^ 79 - 1) sum
  let c0 := crossing lvl0 hys x r.cr0 r.arm0
  let c1 := crossing lvl1 hys x r.cr1 r.arm1
  { n := r.n + 1, mn := if r.n = 0 then x else min r.mn x, mx := if r.n = 0 then x else max r.mx x
    sum := sumC, sq := min (r.sq + q) lim, cr0 := c0.1, cr1 := c1.1, arm0 := c0.2.1, arm1 := c1.2.1
    sqovf := r.sqovf || big, ovf := r.ovf || big || sumC != sum || c0.2.2 || c1.2.2 }

def State.loadStats (s : State) (r : RState) : StatsRun :=
  let g (l : Nat) : Long := s.rl r l
  { n := (g 14).toNat, mn := (g 8).toInt, mx := (g 9).toInt, sum := ofSigned 80 ((g 10).toNat * 2 ^ 40 + (g 11).toNat)
    sq := (g 12).toNat * 2 ^ 40 + (g 13).toNat, cr0 := bitsOf (g 15) 20 20, cr1 := bitsOf (g 15) 0 20
    arm0 := (g 16).getLsbD 39, arm1 := (g 16).getLsbD 38, sqovf := (g 16).getLsbD 37, ovf := r.ovf }

def State.storeStats (s : State) (r : RState) (x : StatsRun) : State :=
  let sum := toSigned 80 x.sum
  [(8, longI x.mn), (9, longI x.mx), (10, BitVec.ofNat 40 (sum / 2 ^ 40)), (11, BitVec.ofNat 40 sum),
    (12, BitVec.ofNat 40 (x.sq / 2 ^ 40)), (13, BitVec.ofNat 40 x.sq), (14, BitVec.ofNat 40 x.n),
    (15, BitVec.ofNat 40 (x.cr0 * 2 ^ 20 + x.cr1)),
    (16, BitVec.ofNat 40 ((if x.arm0 then 2 ^ 39 else 0) + (if x.arm1 then 2 ^ 38 else 0) + (if x.sqovf then 2 ^ 37 else 0)))].foldl
    (fun t e => t.wl r e.1 e.2) s

/-- A STATS state takes values. -/
def State.takeStats (s : State) (r : RState) (l : List Int) : State :=
  let x := l.foldl (StatsRun.take (r.cl 4).toInt (r.cl 5).toInt (r.cl 6).toNat (bitsOf (r.cl 7) 34 6)) (s.loadStats r)
  (s.storeStats r x).setRState { r with ovf := x.ovf }

/-- RMS: the square root of SUMSQ 2^SQSH / N rounded to nearest. -/
def rmsOf (sq sqsh n : Nat) : Nat :=
  let a := sq * 2 ^ sqsh
  let q := isqrt 72 (a / n)
  if (2 * q + 1) * (2 * q + 1) * n < 4 * a then q + 1
  else if (2 * q + 1) * (2 * q + 1) * n = 4 * a ∧ Config.tieUp a n then q + 1 else q

/-- The body of a STATS record, whether a value was limited, and the run after the close. -/
def StatsRun.close (x : StatsRun) (sqsh : Nat) : List Long × Bool × StatsRun :=
  let none_ : Long := 0x8000000000
  let m : Int := 2 ^ 39 - 1
  let mean := roundAway x.sum x.n
  let rms : Int := if x.sqovf then m else rmsOf x.sq sqsh x.n
  let sum := toSigned 80 x.sum
  let head := if x.n = 0 then [none_, none_, none_, none_]
    else [longI x.mn, longI x.mx, longI (clampInt (-m) m mean), longI (min rms m)]
  (head ++ [BitVec.ofNat 40 (x.cr0 * 2 ^ 20 + x.cr1), BitVec.ofNat 40 (sum / 2 ^ 40), BitVec.ofNat 40 sum,
      BitVec.ofNat 40 (x.sq / 2 ^ 40), BitVec.ofNat 40 x.sq],
    x.n ≠ 0 && (mean != clampInt (-m) m mean || decide (m < rms)),
    { x with n := 0, sum := 0, sq := 0, cr0 := 0, cr1 := 0, sqovf := false })

/-! ### Turning points (R311) -/

/-- The front end: DIR (0 START, 1 NONE, 2 UP, 3 DOWN), REF, CAND with its position. -/
structure Front where
  dir : Nat
  ref : Int
  cand : Int
  cpos : Nat

/-- One value: the front end after it, and the turning point it emits. -/
def Front.take (hys : Int) (f : Front) (x : Int) (p : Nat) : Front × Option (Int × Nat) :=
  if f.dir = 0 then ({ f with dir := 1, ref := x, cand := x }, some (x, p))
  else if f.dir = 1 then
    if f.ref + hys ≤ x then ({ f with dir := 2, cand := x, cpos := p }, none)
    else if x ≤ f.ref - hys then ({ f with dir := 3, cand := x, cpos := p }, none)
    else (f, none)
  else if f.dir = 2 then
    if f.cand < x then ({ f with cand := x, cpos := p }, none)
    else if hys ≤ f.cand - x then ({ dir := 3, ref := f.cand, cand := x, cpos := p }, some (f.cand, f.cpos))
    else (f, none)
  else
    if x < f.cand then ({ f with cand := x, cpos := p }, none)
    else if hys ≤ x - f.cand then ({ dir := 2, ref := f.cand, cand := x, cpos := p }, some (f.cand, f.cpos))
    else (f, none)

/-- HYS = 0 acts as 1. -/
def hysOf (v : Long) : Int := if v = 0 then 1 else v.toNat

/-! ### RFLOW (R312 to R315) -/

/-- Add n to a matrix long; true where it saturates. -/
def State.addMat (s : State) (r : RState) (i n : Nat) : State × Bool :=
  let a := (r.cl 9).toNat + 2 * i
  let v := (s.long a).toNat + n
  (s.setLong a (BitVec.ofNat 40 (min v 1099511627775)), decide (1099511627775 < v))

/-- Add n to a delta grain. -/
def State.addDelta (s : State) (r : RState) (i n : Nat) : State × Bool :=
  if (r.cl 5).getLsbD 26 then
    let a := (r.cl 10).toNat + i
    let v := (s.grain a).toNat + n
    (s.setGrain a (BitVec.ofNat 20 (min v 1048575)), decide (1048575 < v))
  else (s, false)

/-- Add to the matrix and the delta matrix. -/
def State.addBin (s : State) (r : RState) (i n : Nat) : State × Bool :=
  let m := s.addMat r i n
  let d := m.1.addDelta r i n
  (d.1, m.2 || d.2)

/-- The bins a cycle or half cycle between u and v increments, and whether one was clamped (R313). -/
def rflowBins (r : RState) (u v : Int) (full : Bool) : List (Nat × Nat) × Bool :=
  let nb1 : Int := bitsOf (r.cl 5) 33 6 + 1
  let nb2 : Int := bitsOf (r.cl 5) 27 6 + 1
  let w1 : Int := (r.cl 6).toNat
  let org : Int := (r.cl 7).toInt
  if (r.cl 5).getLsbD 39 then
    let f (y : Int) : Int := (y - org) / w1
    let g (y : Int) : Int := clampInt 0 (nb1 - 1) (f y)
    let ix (a b : Int) : Nat := (g a * nb2 + g b).toNat
    (if full then [(ix u v, 1), (ix v u, 1)] else [(ix u v, 1)], f u != g u || f v != g v)
  else
    let w2 : Int := (r.cl 8).toNat
    let j1 := (u - v).natAbs / w1
    let j2 := (u + v - 2 * org) / (2 * w2)
    let i1 := min j1 (nb1 - 1)
    let i2 := clampInt 0 (nb2 - 1) j2
    ([((i1 * nb2 + i2).toNat, if full then 2 else 1)], j1 != i1 || j2 != i2)

/-- Are the matrix long and the delta grain of bin i readable; what is not (R332)? -/
def State.binBad (s : State) (r : RState) (i : Nat) : Option (Nat × Nat) :=
  let m := ((r.cl 9).toNat + 2 * i, 2)
  let d := ((r.cl 10).toNat + i, 1)
  if !s.regionOk m then some m else if (r.cl 5).getLsbD 26 && !s.regionOk d then some d else none

/-- What a RFLOW state counts in its group: FULL, HALF, MAXR, OVF; the access that has failed (R332). -/
structure Flow where
  front : Front
  stack : List Int
  sdep : Nat
  shead : Nat
  maxr : Nat
  full : Nat
  half : Nat
  ovf : Bool
  bad : Option (Nat × Nat) := none

/-- Count a full or half cycle. -/
def State.countCycle (s : State) (r : RState) (f : Flow) (u v : Int) (full : Bool) : State × Flow :=
  let b := rflowBins r u v full
  match f.bad, (b.1.filterMap (fun e => s.binBad r e.1)).head? with
  | none, none =>
    let m := b.1.foldl (fun a e => let x := a.1.addBin r e.1 e.2; (x.1, a.2 || x.2)) (s, false)
    let nf := f.full + (if full then 1 else 0)
    let nh := f.half + (if full then 0 else 1)
    (m.1, { f with maxr := max f.maxr (u - v).natAbs, full := min nf 1048575, half := min nh 1048575
                   ovf := f.ovf || b.2 || m.2 || decide (1048575 < nf) || decide (1048575 < nh) })
  | none, some e => (s, { f with bad := some e })
  | some _, _ => (s, f)

/-- Where entry k of the spill area lies, counted from the oldest, and its value. -/
def RState.spillPos (r : RState) (f : Flow) (k : Nat) : Nat × Nat :=
  ((r.cl 11).toNat + 2 * ((f.shead + k) % bitsOf (r.cl 12) 20 20), 2)
def State.spillAt (s : State) (r : RState) (f : Flow) (k : Nat) : Int := (s.long (r.spillPos f k).1).toInt

/-- The first of n spill entries from entry k on that cannot be read, or the failure met before (R332). -/
def State.spillBad (s : State) (r : RState) (f : Flow) (k n : Nat) : Option (Nat × Nat) :=
  match f.bad with
  | some e => some e
  | none => (List.range n).findSome? (fun j => if s.regionOk (r.spillPos f (k + j)) then none else some (r.spillPos f (k + j)))

/-- Move the oldest stack entry to the spill tail (R314). -/
def State.spillOut (s : State) (r : RState) (f : Flow) : State × Flow :=
  let len := bitsOf (r.cl 12) 20 20
  match f.stack with
  | x :: rest =>
    if len = 0 then
      match rest with
      | y :: _ => let c := s.countCycle r f x y false; (c.1, { c.2 with stack := rest, ovf := true })
      | [] => (s, { f with stack := rest, ovf := true })
    else
      let c := if f.sdep = len then
          let h := { f with bad := s.spillBad r f 0 (min len 2) }
          let a := s.spillAt r f 0
          let b := if len = 1 then x else s.spillAt r f 1
          let d := s.countCycle r h a b false
          (d.1, { d.2 with shead := (d.2.shead + 1) % len, sdep := d.2.sdep - 1, ovf := true })
        else (s, f)
      let g := c.2
      let w := r.spillPos g g.sdep
      if g.bad.isNone ∧ s.there w then (c.1.setLong w.1 (longI x), { g with stack := rest, sdep := g.sdep + 1 })
      else (c.1, { g with bad := some (g.bad.getD w) })
  | [] => (s, f)

/-- Bring back the newest spilled entries until the stack holds 4 (R314), at most n. -/
def State.spillIn (r : RState) : Nat → State × Flow → State × Flow
  | 0, a => a
  | n + 1, (s, f) =>
    if f.stack.length < 4 ∧ 0 < f.sdep then
      State.spillIn r n (s, { f with stack := s.spillAt r f (f.sdep - 1) :: f.stack, sdep := f.sdep - 1, bad := s.spillBad r f (f.sdep - 1) 1 })
    else (s, f)

/-- The four-point test, repeated while it closes cycles (R312), at most n times. -/
def State.fourPoint (r : RState) : Nat → State × Flow → State × Flow
  | 0, a => a
  | n + 1, (s, f) =>
    match f.stack.reverse with
    | d :: c :: b :: a :: rest =>
      if (b - c).natAbs ≤ (a - b).natAbs ∧ (b - c).natAbs ≤ (c - d).natAbs then
        let x := s.countCycle r f b c true
        State.fourPoint r n (State.spillIn r 4 (x.1, { x.2 with stack := (d :: a :: rest).reverse }))
      else (s, f)
    | _ => (s, f)

/-- An emitted turning point (R312, R314). -/
def State.pushPoint (s : State) (r : RState) (f : Flow) (x : Int) : State × Flow :=
  if f.bad.isSome then (s, f)
  else
    let a := if 64 ≤ f.stack.length then s.spillOut r f else (s, f)
    State.fourPoint r (a.2.stack.length + a.2.sdep + 1) (a.1, { a.2 with stack := a.2.stack ++ [x] })

def State.loadFlow (s : State) (r : RState) : Flow :=
  let d := s.rl r 14
  let n := bitsOf d 31 7
  let st := (List.range n).map (fun k => (s.rl r (18 + k)).toInt)
  { front := ⟨bitsOf d 38 2, st.getLastD 0, (s.rl r 13).toInt, 0⟩, stack := st, sdep := bitsOf d 11 20
    shead := bitsOf (s.rl r 15) 20 20, maxr := (s.rl r 16).toNat, full := bitsOf (s.rl r 17) 20 20, half := bitsOf (s.rl r 17) 0 20
    ovf := r.ovf }

/-- Write stack entries from STACK(k) on. -/
def State.putStack (r : RState) : Nat → List Int → State → State
  | _, [], s => s
  | k, x :: l, s => State.putStack r (k + 1) l (s.wl r (18 + k) (longI x))

/-- A run's end: its longs are written back, or the state fails on the access that stopped it (R332). -/
def State.storeFlow (s : State) (r : RState) (f : Flow) : State :=
  if let some e := f.bad then s.failState r e else
  let s1 := [(13, longI f.front.cand), (14, BitVec.ofNat 40 (f.front.dir * 2 ^ 38 + f.stack.length * 2 ^ 31 + f.sdep * 2 ^ 11)),
    (15, BitVec.ofNat 40 (f.shead * 2 ^ 20)), (16, BitVec.ofNat 40 f.maxr), (17, BitVec.ofNat 40 (f.full * 2 ^ 20 + f.half))].foldl
    (fun t e => t.wl r e.1 e.2) s
  (State.putStack r 0 f.stack s1).setRState { r with ovf := f.ovf }

/-- An RFLOW state takes values. -/
def State.takeFlow (s : State) (r : RState) (l : List Int) : State :=
  let a := l.foldl (fun (a : State × Flow) x =>
    let y := a.2.front.take (hysOf (r.cl 4)) x 0
    match y.2 with
    | some p => a.1.pushPoint r { a.2 with front := y.1 } p.1
    | none => (a.1, { a.2 with front := y.1 })) (s, s.loadFlow r)
  a.1.storeFlow r a.2

/-- Half cycles between consecutive points. -/
def State.halfPairs (r : RState) : List Int → State × Flow → State × Flow
  | a :: b :: l, (s, f) => State.halfPairs r (b :: l) (s.countCycle r f a b false)
  | _, x => x

/-- R315: the residue is closed. -/
def State.closeResidue (s : State) (r : RState) : State :=
  let f := s.loadFlow r
  let pts := (List.range f.sdep).map (s.spillAt r f) ++ f.stack ++ (if 2 ≤ f.front.dir then [f.front.cand] else [])
  let a := State.halfPairs r pts (s, { f with bad := s.spillBad r f 0 f.sdep })
  a.1.storeFlow r { a.2 with stack := [], sdep := 0, front := { a.2.front with dir := 0 } }

/-! ### PKVL (R317) -/

/-- The position of element j of the block tagged b. -/
def posOf (b : BitVec 48) (j : Nat) : Nat := b.toNat % 268435456 * 4096 + j

def State.takePkvl (s : State) (r : RState) (l : List (Int × Nat)) : State :=
  let f0 : Front := ⟨bitsOf (s.rl r 8) 38 2, (s.rl r 7).toInt, (s.rl r 5).toInt, (s.rl r 6).toNat⟩
  let a := l.foldl (fun (a : Front × List (Long × Long)) x =>
    let y := a.1.take (hysOf (r.cl 4)) x.1 x.2
    (y.1, match y.2 with
      | some p => a.2 ++ [(longI p.1, BitVec.ofNat 40 p.2)]
      | none => a.2)) (f0, r.points)
  let s1 := [(5, longI a.1.cand), (6, BitVec.ofNat 40 a.1.cpos), (7, longI a.1.ref), (8, BitVec.ofNat 40 (a.1.dir * 2 ^ 38))].foldl
    (fun t e => t.wl r e.1 e.2) s
  s1.setRState { r with points := a.2 }

/-! ### SPEC and MEMBER (R318 to R322) -/

def RState.specN (r : RState) : Nat := 2 ^ bitsOf (r.cl 4) 35 5
def RState.specC (r : RState) : Nat := bitsOf (r.cl 4) 27 4 + 1
def RState.specE (r : RState) : Nat := r.specC * (r.specC + 1) / 2
def RState.specH (r : RState) : Nat := r.specN / 2 ^ bitsOf (r.cl 4) 31 2
def RState.bsz (r : RState) : Nat := 16 + 4 * r.specE * (r.specN / 2 + 1)

/-- Member i of a SPEC set (R323). -/
def RState.memberCtx (r : RState) (i : Nat) : Nat := bitsOf (r.cl (8 + i / 2)) (if i % 2 = 0 then 22 else 4) 18

/-- The values of a member's row that lie in a frame. -/
def frameOf (rows : List (Nat × Nat × Option Long)) (m lo n : Nat) : List (Option Long) :=
  (rows.filter (fun e => e.1 = m ∧ lo ≤ e.2.1 ∧ e.2.1 < lo + n)).map (·.2.2)

/-- The frame buffer, the accumulator, and output buffer g mod 2 (R322, R323). -/
def RState.frameAt (r : RState) : Nat × Nat := ((r.cl 5).toNat, 2 * r.specC * r.specN)
def RState.accAt (r : RState) : Nat × Nat := ((r.cl 6).toNat, 8 * r.specE * (r.specN / 2 + 1))
def RState.outAt (r : RState) (g : Nat) : Nat × Nat := ((r.cl 7).toNat + g % 2 * r.bsz, r.bsz)

/-- Write a member's values, at their positions, into its row of the frame buffer. -/
def State.putRow (s : State) (r : RState) (t0pos : Nat) (l : List (Nat × Nat × Option Long)) : State :=
  l.foldl (fun t e => match e.2.2 with
    | some v => if t0pos ≤ e.2.1 then t.setLong ((r.cl 5).toNat + 2 * e.1 * r.specN + 2 * ((e.2.1 - t0pos) % r.specN)) v else t
    | none => t) s

/-- Write n accumulator longs: sums of products, whose layout the spec does not give (log 35). -/
def State.putAcc (a : Nat) (d : List Long) : Nat → State → State
  | 0, s => s
  | n + 1, s => State.putAcc a d n (s.setLong (a + 2 * n) (BitVec.ofInt 40 (Config.specAcc d n)))

/-- R319: frames that are complete, at most n of them, are averaged or discarded. -/
def State.specFrames : Nat → RState → State → State
  | 0, _, s => s
  | n + 1, r, s =>
    match r.t0 with
    | none => s
    | some b0 =>
      let f := (s.rl r 18).toNat
      let spb := (s.cfg r.src).spb
      let lo := b0.toNat * spb + f * r.specH
      let ms := List.range r.specC
      if ms.all (fun m => decide (f * r.specH + r.specN ≤ (s.rl r (19 + m)).toNat)) then
        let fr := (ms.map (fun m => frameOf r.rows m lo r.specN)).flatten
        let gap := fr.any (·.isNone)
        if !gap && !s.regionOk r.frameAt then s.failState r r.frameAt
        else if !gap && !s.regionOk r.accAt then s.failState r r.accAt
        else
        let k := s.rl r 17
        let d := fr.filterMap id
        let r1 : RState := { r with
          rows := r.rows.filter (fun e => lo + r.specH ≤ e.2.1)
          firstF := some (r.firstF.getD f)
          frames := if gap then r.frames else r.frames ++ [d] }
        let s1 := (s.wl r 17 (if gap then satLo k 1 else satHi k 1)).wl r 18 (BitVec.ofNat 40 (f + 1))
        let s2 := if gap then s1 else State.putAcc (r.cl 6).toNat r1.frames.flatten (4 * r.specE * (r.specN / 2 + 1)) s1
        State.specFrames n r1 (s2.setRState r1)
      else s

/-- Member m of lead r delivers the block tagged b (R319). -/
def State.takeSpec (s : State) (r0 : RState) (m : Nat) (b : BitVec 48) (l : List (Option Int)) : State :=
  let spb := (s.cfg r0.src).spb
  let r : RState := if m = 0 ∧ r0.t0.isNone then { r0 with t0 := some b } else r0
  let pos := (List.range l.length).map (fun j => b.toNat * spb + j)
  let vals := pos.zip (l.map (fun x => x.map longI))
  let t0 := match r.t0 with
    | some x => x.toNat * spb
    | none => 0
  let keep (e : Nat × Nat × Option Long) : Bool := r.t0.isNone || decide (t0 ≤ e.2.1)
  let rows := (r.rows ++ vals.map (fun e => (m, e.1, e.2))).filter keep
  let r1 : RState := { r with rows := rows }
  let s1 := if m = 0 ∧ r0.t0.isNone then s.wl r 16 (b.setWidth 40) else s
  let fill (t : State) (k : Nat) : State :=
    match (rows.filter (fun e => e.1 = k)).map (·.2.1) with
    | [] => t
    | x :: xs => t.wl r (19 + k) (BitVec.ofNat 40 (xs.foldl max x + 1 - t0))
  if r.t0.isNone then State.specFrames (l.length + 1) r1 (s1.setRState r1)
  else if !s.there r.frameAt then s1.failState r1 r.frameAt
  else
    let new := if r0.t0.isNone then rows else vals.map (fun e => (m, e.1, e.2))
    State.specFrames (rows.length + 1) r1 (((List.range r.specC).foldl fill (s1.putRow r t0 new)).setRState r1)

/-! ### SRS (R324) -/

/-- The filter state of one frequency: y[n-1], y[n-2], PMAX, PMIN. -/
def srsY (s : State) (r : RState) (l : Nat) : Int := ofSigned 80 ((s.rl r l).toNat * 2 ^ 40 + (s.rl r (l + 1)).toNat)

def State.putY (s : State) (r : RState) (l : Nat) (y : Int) : State :=
  let v := toSigned 80 y
  (s.wl r l (BitVec.ofNat 40 (v / 2 ^ 40))).wl r (l + 1) (BitVec.ofNat 40 v)

/-- One value through frequency i: the state after it and whether y saturated or a peak was limited. -/
def State.srsStep (s : State) (r : RState) (x x1 x2 : Int) (first : Bool) (i : Nat) : State × Bool :=
  let c (k : Nat) : Int := (s.rl r (8 + 11 * i + k)).toInt
  let y1 := srsY s r (13 + 11 * i)
  let y2 := srsY s r (15 + 11 * i)
  let e := (c 0 * x + c 1 * x1 + c 2 * x2) * 16777216 + c 3 * y1 + c 4 * y2
  let y0 := roundShift e 37
  let y := clampInt (-(2 ^ 79)) (2 ^ 79 - 1) y0
  let m : Int := 2 ^ 39 - 1
  let p0 := roundShift y 24
  let p := clampInt (-m) m p0
  let pmx := if first then p else max (s.rl r (17 + 11 * i)).toInt p
  let pmn := if first then p else min (s.rl r (18 + 11 * i)).toInt p
  ((((s.putY r (15 + 11 * i) y1).putY r (13 + 11 * i) y).wl r (17 + 11 * i) (longI pmx)).wl r (18 + 11 * i) (longI pmn), y != y0 || p != p0)

/-- An SRS state takes a block; a gap repeats the previous x. -/
def State.takeSrs (s : State) (r : RState) (l : List (Option Int)) : State :=
  let n := bitsOf (r.cl 4) 33 7 + 1
  let a := l.foldl (fun (a : State × Bool × Bool) v =>
    let x1 := (a.1.rl r 5).toInt
    let x2 := (a.1.rl r 6).toInt
    let x := v.getD x1
    let b := (List.range n).foldl (fun (b : State × Bool) i =>
      let y := b.1.srsStep r x x1 x2 (!a.2.2) i
      (y.1, b.2 || y.2)) (a.1, a.2.1)
    ((b.1.wl r 5 (longI x)).wl r 6 (longI x1), b.2, true)) (s, r.ovf, r.seen)
  a.1.setRState { r with ovf := a.2.1, seen := a.2.2 }

/-! ### DECIM (R325, R326) -/

def RState.decM (r : RState) : Nat := bitsOf (r.cl 4) 35 5 + 1
def RState.decUser (r : RState) : Bool := (r.cl 4).getLsbD 34
def RState.decT (r : RState) : Nat := if r.decUser then bitsOf (r.cl 4) 23 11 + 1 else 36 * r.decM + 1

/-- Tap t of the filter. -/
def State.tap (s : State) (r : RState) (t : Nat) : Int :=
  if r.decUser then (s.long ((r.cl 5).toNat + 2 * t)).toInt else builtinTap r.decM t

/-- The sum of taps against the ring whose newest entry is at position h, over taps n - 1 to 0. -/
def State.firSum (s : State) (r : RState) (h : Nat) : Nat → Int
  | 0 => 0
  | n + 1 => s.firSum r h n + s.tap r n * (s.long ((r.cl 6).toNat + 2 * ((h + r.decT - n) % r.decT))).toInt

/-- The ring of past values, and the taps given (R326). -/
def RState.histAt (r : RState) : Nat × Nat := ((r.cl 6).toNat, 2 * r.decT)
def RState.coefAt (r : RState) : Nat × Nat := ((r.cl 5).toNat, 2 * r.decT)

/-- The access of an output that fails (R332). -/
def State.firBad (s : State) (r : RState) : Option (Nat × Nat) :=
  if !s.regionOk r.histAt then some r.histAt else if r.decUser && !s.regionOk r.coefAt then some r.coefAt else none

/-- A DECIM state takes a block; a gap repeats LASTX. -/
def State.takeDecim (s : State) (r : RState) (l : List (Option Int)) : State :=
  let osh := bitsOf (r.cl 4) 17 6
  if !s.there r.histAt then s.failState r r.histAt else
  let a := l.foldl (fun (a : State × RState) v =>
    if a.2.failed then a else
    let x : Int := v.getD (a.1.rl r 8).toInt
    let w := a.1.rl r 7
    let ph := bitsOf w 35 5
    let h := bitsOf w 24 11
    let s1 := (a.1.setLong ((r.cl 6).toNat + 2 * h) (longI x)).wl r 8 (longI x)
    let s2 := s1.wl r 7 (BitVec.ofNat 40 ((ph + 1) % r.decM * 2 ^ 35 + (h + 1) % r.decT * 2 ^ 24))
    if let (true, some e) := (ph == 0, s1.firBad r) then (s2.failState a.2 e, { a.2 with failed := true })
    else if ph = 0 then
      let y := roundAway (s1.firSum r h r.decT) (2 ^ (38 + osh))
      let z := clampInt (-524287) 524287 y
      (s2, { a.2 with outs := a.2.outs ++ [BitVec.ofInt 20 z], ovf := a.2.ovf || z != y })
    else (s2, a.2)) (s, r)
  a.1.setRState a.2

/-! ### An intake item (R296, R299, R319) -/

/-- The lead a MEMBER state feeds: the SPEC state at its LEAD address. -/
def State.leadOf (s : State) (r : RState) : Option RState :=
  s.red.states.find? (fun x => x.kind = kSpec ∧ x.addr = (r.cl 4).toNat)

/-- Process a block's elements through one state. -/
def State.redState (s : State) (it : RedItem) (l : List (Option Int)) (r0 : RState) : State :=
  match s.rstate r0.src r0.slot with
  | none => s
  | some r =>
    if r.failed ∨ !(match r.a with
      | some a => atOrAfter it.inBeat a
      | none => false) then s
    else if !s.bodyOk r then s.failState r r.bodyAt
    else
      let v := values l
      let g := l.length - v.length
      let r1 : RState := { r with first := some (r.first.getD it.beat), taken := r.taken + v.length, gaps := min (r.gaps + g) 1048575 }
      let s1 := (s.wl r 3 (satHi (s.rl r 3) g)).setRState r1
      if r.spoiled then s1
      else if r.kind = kStats then s1.takeStats r1 v
      else if r.kind = kRflow then s1.takeFlow r1 v
      else if r.kind = kPkvl then
        s1.takePkvl r1 ((l.zip (List.range l.length)).filterMap (fun e => e.1.map (fun x => (x, posOf it.beat e.2))))
      else if r.kind = kSpec then s1.takeSpec r1 0 it.beat l
      else if r.kind = kMember then
        match s1.leadOf r1 with
        | some ld => if ld.failed ∨ ld.spoiled ∨ ld.a.isNone then s1
          else if !s1.bodyOk ld then s1.failState ld ld.bodyAt
          else s1.takeSpec ld (bitsOf (r.cl 5) 36 4) it.beat l
        | none => s1
      else if r.kind = kSrs then s1.takeSrs r1 l
      else s1.takeDecim r1 l

/-- Process one intake item through the chain of its context. -/
def State.redItem (s : State) (it : RedItem) : State :=
  let c := s.cfg it.src
  let a := c.slotAt it.beat
  let whole := !it.sub && (s.long a).getLsbD 2
  let l := if whole then List.replicate c.spb none else (s.slotElems c a).map (redValue c)
  (s.chain it.src).foldl (fun t r => t.redState it l r) s

/-- Is edge n a close of state r (R303)? -/
def RState.closesAt (r : RState) (n : BitVec 48) : Bool :=
  match r.a with
  | none => false
  | some a => (if r.align then n.toNat else (n - a).toNat) % r.glen == 0 && n != a

/-- Does intake beat n open a group of state r that it has not begun yet: r's open group closes first? -/
def RState.ahead (r : RState) (n : BitVec 48) : Bool := r.closesAt n && r.opened != some n

/-- R329: an item that meets a full buffer is dropped; ERR and LATE go to the group of its intake beat. -/
def State.intakeDrop (s : State) (c : Nat) (it : RedItem) : State :=
  let s1 := (s.chain it.src).foldl (fun t r => (t.wl r 3 (satLo (t.rl r 3) 1)).setRState
    (if r.ahead it.inBeat then { r with dropNext := true } else { r with err := true, late := true })) s
  let n := (s1.reReg c 0x00E).toNat
  (s1.setReReg c 0x00E (BitVec.ofNat 40 (min (n + 1) 4294967295))).setReErr c 2

/-- Has cluster c the voltage that R295 asks for? -/
def State.engineFull (s : State) (c : Nat) : Bool := decide (72 ≤ s.rd (R.CL_VOLT_V c))

/-- May the intake of cluster c fill: a state or buffer of it lies in DRAM, or its voltage is too low (R295, R329)? -/
def State.mayStall (s : State) (c : Nat) : Bool :=
  !s.engineFull c || s.red.states.any (fun r => s.rowner r = c && r.regions.any (fun e => decide (0x1000000000 ≤ e.1)))

/-- An item arrives at cluster c's engine (R329). Where 256 wait in the model and no DRAM access can have stalled, the engine has
worked the oldest off by then; where one can, which of the two it is is open (log 35). -/
def State.intake (s : State) (c : Nat) (it : RedItem) : State :=
  let put (t : State) : State := t.setEng c { t.eng c with intake := (t.eng c).intake ++ [it] }
  let drop := s.mayStall c && s.freeVal % 2 == 0
  if (s.eng c).intake.length < 256 then put s
  else if drop then s.freeNext.intakeDrop c it
  else match (s.eng c).intake with
    | x :: l =>
      if (s.chain x.src).any (·.ahead x.inBeat) then put s.freeNext
      else put ((s.freeNext.setEng c { s.eng c with intake := l }).redItem x)
    | [] => put s.freeNext

/-- R120, R297, R298: the router hands the block of tagged beat b of context i, in intake beat n. -/
def State.redHand (s : State) (i : Nat) (b n : BitVec 48) : State :=
  let c := s.cfg i
  if c.redEn ∧ s.ownerOn c then
    match s.chain i with
    | [] => s
    | h :: _ => if c.ctype = tyDer ∧ h.feed then s else s.intake c.owner ⟨i, b, n, false⟩
  else s

/-! ### Closing a group (R303 to R309) -/

/-- Write a record's longs as grains of a RED slot that holds spb elements (R307). -/
def State.putRecord (a spb : Nat) : Nat → List Long → State → State
  | _, [], s => s
  | i, v :: l, s =>
    let s1 := if 2 * i < spb then s.setGrain (a + 2 + 2 * i) (v.setWidth 20) else s
    let s2 := if 2 * i + 1 < spb then s1.setGrain (a + 3 + 2 * i) ((v >>> 20).setWidth 20) else s1
    State.putRecord a spb (i + 1) l s2

/-- Record header longs (R308). -/
def recHeader (kind rlen : Nat) (part ovf late err : Bool) (gseq : Nat) (first samples gaps : Nat) : List Long :=
  [BitVec.ofNat 40 (kind * 2 ^ 37 + rlen % 4096 * 2 ^ 25 + (if part then 2 ^ 24 else 0) + (if ovf then 2 ^ 23 else 0)
      + (if late then 2 ^ 22 else 0) + (if err then 2 ^ 21 else 0) + gseq % 2 ^ 20),
    BitVec.ofNat 40 first, BitVec.ofNat 40 samples, BitVec.ofNat 40 (gaps * 2 ^ 20)]

/-- The notice of a record (R309). -/
def redNotice (kind out : Nat) (err lost : Bool) (b : BitVec 48) (gseq : Nat) : Msg :=
  { longs := [BitVec.ofNat 40 (4 * 2 ^ 36 + kind * 2 ^ 33 + out * 2 ^ 15 + (if err then 2 ^ 14 else 0) + (if lost then 2 ^ 13 else 0)),
      b.setWidth 40, BitVec.ofNat 40 (gseq % 2 ^ 36)] }

/-- Post a notice (R309). -/
def State.postNote (s : State) (c : Nat) (r : RState) (err : Bool) (b : BitVec 48) (gseq : Nat) : State :=
  if !r.note then s
  else
    let q := s.noteQ c
    let ok := s.domOn domQueue && s.accepts q
    let m := redNotice r.kind r.outCtx err (s.eng c).lostPrev b gseq
    let s1 := if s.domOn domQueue then s.enqueue q m else s
    let s2 := s1.setEng c { s1.eng c with lostPrev := !ok }
    if ok then s2 else s2.setReErr c 4

/-- Write a record with its slot header, and send it to subscribers (R307, R118). -/
def State.writeRecord (s : State) (r : RState) (b : BitVec 48) (whole : Bool) (longs : List Long) : State :=
  let o := s.cfg r.outCtx
  if o.on ∧ o.ctype = tyRed ∧ s.ownerOn o then
    let a := o.slotAt b
    let s1 := if whole then s else State.putRecord a o.spb 0 longs s
    let s2 := s1.setLong a (slotHeader b 0 false whole)
    let l := s2.blockElems o b whole
    ((s2.sendBlock r.outCtx b l).windowSlot r.outCtx b (slotHeader b 0 false whole) l).redRecord r.outCtx b (if whole then [] else longs)
  else s

/-- Entries that fit in a RED slot behind n longs, of w longs each. -/
def fits (spb n w : Nat) : Nat := (spb / 2 - n) / w

/-- The delta entries of a close (R316): (bin, count), ascending, and the grains cleared. -/
def State.scanDelta (s : State) (r : RState) : List (Nat × Nat) :=
  if (r.cl 5).getLsbD 26 then
    (List.range ((bitsOf (r.cl 5) 33 6 + 1) * (bitsOf (r.cl 5) 27 6 + 1))).filterMap (fun i =>
      let g := (s.grain ((r.cl 10).toNat + i)).toNat
      if g = 0 then none else some (i, g))
  else []

/-- What a close of a kind gives: the record's longs behind its header, OVF, and the state after it. -/
structure Closed where
  body : List Long
  ovf : Bool
  st : State

/-- The largest record of a state in longs, as check 0x84 counts it. -/
def RState.rlen (r : RState) (spb : Nat) : Nat :=
  if r.kind = kStats then 13
  else if r.kind = kRflow then 9
  else if r.kind = kPkvl then 7
  else if r.kind = kSpec then 6
  else if r.kind = kSrs then 5 + 2 * (bitsOf (r.cl 4) 33 7 + 1)
  else if r.kind = kDecim then 4 + (spb * r.glen + 2 * r.decM - 1) / (2 * r.decM)
  else 0

/-- A group's free body, where a store has spoiled the state (R302). -/
def State.freeBody (n : Nat) (s : State) : Closed :=
  (List.range n).foldl (fun c _ => { c with body := c.body ++ [BitVec.ofNat 40 c.st.freeVal], st := c.st.freeNext }) ⟨[], false, s⟩

/-- Close a STATS group. -/
def State.closeStats (s : State) (r : RState) : Closed :=
  let x := (s.loadStats r).close (bitsOf (r.cl 7) 34 6)
  ⟨x.1, r.ovf || x.2.1, s.storeStats r x.2.2⟩

/-- Close an RFLOW group (R316). -/
def State.closeFlow (s : State) (r : RState) (spb : Nat) : Closed :=
  let f := s.loadFlow r
  let es := s.scanDelta r
  let n := fits spb 8 1
  let nb2 := bitsOf (r.cl 5) 27 6 + 1
  let head := [BitVec.ofNat 40 f.maxr, BitVec.ofNat 40 (f.full * 2 ^ 20 + f.half), BitVec.ofNat 40 (f.stack.length * 2 ^ 33 + f.sdep * 2 ^ 13),
    BitVec.ofNat 40 ((es.take n).length * 2 ^ 20)]
  let body := (es.take n).map (fun e => BitVec.ofNat 40 (e.1 / nb2 * 2 ^ 34 + e.1 % nb2 * 2 ^ 28 + e.2))
  let s1 := es.foldl (fun t e => t.setGrain ((r.cl 10).toNat + e.1) 0) s
  let s2 := (s1.wl r 16 0).wl r 17 0
  ⟨head ++ body, r.ovf || decide (n < es.length), s2⟩

/-- Close a PKVL group (R317). -/
def State.closePkvl (s : State) (r : RState) (spb : Nat) : Closed :=
  let n := fits spb 5 2
  let l := r.points.take n
  ⟨BitVec.ofNat 40 (l.length * 2 ^ 20) :: (l.map (fun e => [e.1, e.2])).flatten, r.ovf || decide (n < r.points.length), s⟩

/-- Close an SRS group (R324): PMAX and PMIN of a group in which no y was formed are open. -/
def State.closeSrs (s : State) (r : RState) : Closed :=
  let n := bitsOf (r.cl 4) 33 7 + 1
  let head : Long := BitVec.ofNat 40 ((n - 1) * 2 ^ 33)
  if r.seen then
    ⟨head :: ((List.range n).map (fun i => [s.rl r (17 + 11 * i), s.rl r (18 + 11 * i)])).flatten, r.ovf, s⟩
  else
    let c := State.freeBody (2 * n) s
    { c with body := head :: c.body, ovf := r.ovf }

/-- Grains packed two to a long, the lower first. -/
def packGrains : List Grain → List Long
  | [] => []
  | [a] => [a.setWidth 40]
  | a :: b :: l => (b ++ a) :: packGrains l

/-- Close a DECIM group (R325, R326): the record has its fixed length; outputs past it, of a group that a sleep has lengthened, are
dropped, and places a shortened group does not fill are open (log 35). -/
def State.closeDecim (s : State) (r : RState) (spb : Nat) : Closed :=
  let n := 2 * (r.rlen spb - 4)
  let f := (List.range (n - r.outs.length)).foldl (fun (a : List Grain × State) _ => (a.1 ++ [BitVec.ofNat 20 a.2.freeVal], a.2.freeNext)) ([], s)
  ⟨packGrains (r.outs.take n ++ f.1), r.ovf || decide (n < r.outs.length), f.2⟩

/-- The matrix's longs. -/
def RState.matAt (r : RState) : Nat × Nat := ((r.cl 9).toNat, 2 * ((bitsOf (r.cl 5) 33 6 + 1) * (bitsOf (r.cl 5) 27 6 + 1)))

/-- Apply a RED_CLEAR after the record (R305, R335): bit 0 the matrix, bit 1 the residue without counting. -/
def State.applyClear (s : State) (r : RState) : State :=
  let n := (bitsOf (r.cl 5) 33 6 + 1) * (bitsOf (r.cl 5) 27 6 + 1)
  if r.kind = kRflow && r.clear % 2 == 1 && !s.there r.matAt then s.failState r r.matAt else
  let s1 := if r.kind = kRflow ∧ r.clear % 2 = 1 then (List.range n).foldl (fun t i => t.setLong ((r.cl 9).toNat + 2 * i) 0) s else s
  if r.kind = kRflow ∧ r.clear / 2 % 2 = 1 then
    let f := s1.loadFlow r
    s1.storeFlow r { f with stack := [], sdep := 0, front := { f.front with dir := 0 } }
  else s1

/-- The state's group starts anew after a close at edge n. -/
def RState.newGroup (r : RState) (n : BitVec 48) : RState :=
  { r with first := none, taken := 0, gaps := 0, ovf := false, late := r.dropNext, err := r.dropNext, dropNext := false, opened := some n
           fresh := false, slept := false, seen := false, points := [], outs := [], firstF := none, frames := [], clear := 0, residue := false }

/-- WIN and LOG2N of a SPEC state, and its group's frames as signed values. -/
def RState.win (r : RState) : Nat := bitsOf (r.cl 4) 33 2
def RState.logN (r : RState) : Nat := bitsOf (r.cl 4) 35 5
def RState.signedFrames (r : RState) : List (List Int) := r.frames.map (fun d => d.map (·.toInt))

/-- The output buffer of a SPEC group (R322), from its group as it stood at the close. -/
def State.putSpec (s : State) (r : RState) (gseq k kg : Nat) : State :=
  let base := (r.outAt gseq).1
  let out := specBuffer r.win r.logN ((r.cl 4).getLsbD 26) r.specC r.signedFrames
  let firstBeat := match r.t0 with
    | some b => b.toNat + (r.firstF.getD 0) * r.specH / (s.cfg r.src).spb
    | none => 0
  let head : List Long := [BitVec.ofNat 40 (4 * 2 ^ 37 + gseq % 2 ^ 36), BitVec.ofNat 40 firstBeat, BitVec.ofNat 40 (k * 2 ^ 20 + kg),
    BitVec.ofNat 40 (toSigned 8 out.1 * 2 ^ 32 + r.logN * 2 ^ 27 + (r.specC - 1) * 2 ^ 23 + r.win * 2 ^ 21 + bitsOf (r.cl 4) 31 2 * 2 ^ 19),
    BitVec.ofInt 40 (winSum1 r.win r.logN), BitVec.ofInt 40 (winSum2 r.win r.logN), 0, 0]
  let longs := head ++ out.2.map longI
  (longs.zip (List.range longs.length)).foldl (fun t e => t.setLong (base + 2 * e.2) e.1) s

/-- The record of a group: header, body, slot header, notice. -/
def State.putGroup (s : State) (r : RState) (b : BitVec 48) (gseq : Nat) (part ovf : Bool) (body : List Long) : State :=
  let c := s.rowner r
  let hdr := recHeader r.kind (4 + body.length) part ovf r.late r.err gseq (match r.first with
    | some x => x.toNat
    | none => 0) r.taken r.gaps
  let s1 := s.writeRecord r b false (hdr ++ body)
  let s2 := if ovf then s1.setReErr c 0 else s1
  s2.postNote c r r.err b gseq

/-- A state fails at its close or its record's writing: a WHOLE_GAP header in place of the record (R307, R332). -/
def State.failClose (s : State) (r : RState) (at_ : Nat × Nat) (e : BitVec 48) (quiet : Bool) : State :=
  let t := s.failState r at_
  if quiet then t else t.writeRecord r e true []

/-- R321, R322, R328: write a deferred spectral close; an access that fails puts the state in FAILED (R332). -/
def State.writeSpec (s : State) (x : SpecClose) : State :=
  let k := x.group.frames.length
  let out := x.group.outAt x.gseq
  match s.rstate x.src x.slot with
  | none => s
  | some r =>
    if r.failed then s.writeRecord r x.beat true []
    else if k ≠ 0 ∧ !s.regionOk x.group.accAt then s.failClose r x.group.accAt x.beat false
    else if k ≠ 0 ∧ !s.there out then s.failClose r out x.beat false
    else
      let s1 := if k = 0 then s else s.putSpec x.group x.gseq k x.gapsOf
      s1.putGroup x.group x.beat x.gseq (x.group.fresh || x.group.slept) x.group.ovf
        [BitVec.ofNat 40 (k * 2 ^ 20 + x.gapsOf), BitVec.ofNat 40 (if k = 0 then 0 else out.1)]

/-- The grains a close reads besides the state's own: those that cannot be (R332). -/
def State.closeBad (s : State) (r : RState) : Option (Nat × Nat) :=
  let d := ((r.cl 10).toNat, (bitsOf (r.cl 5) 33 6 + 1) * (bitsOf (r.cl 5) 27 6 + 1))
  if !s.bodyOk r then some r.bodyAt
  else if r.kind = kRflow ∧ (r.cl 5).getLsbD 26 ∧ !s.regionOk d then some d
  else none

/-- Close the open group of a state at edge e + 1; e is the tagged beat of its record, part marks one cut short. A SPEC
state's buffer and record are written later (R328). No record where quiet (R304). -/
def State.closeGroup (s0 : State) (r0 : RState) (e : BitVec 48) (part quiet : Bool) : State :=
  let c := s0.rowner r0
  let s := if r0.residue ∧ r0.kind = kRflow ∧ !r0.failed ∧ !r0.spoiled ∧ s0.bodyOk r0 then s0.closeResidue r0 else s0
  let r := (s.rstate r0.src r0.slot).getD r0
  if r.failed then (if quiet ∨ r.kind = kMember then s else s.writeRecord r e true [])
  else match s.closeBad r with
  | some b => s.failClose r b e (quiet || r.kind == kMember)
  | none =>
    let gseq := bitsOf (s.rl r 2) 0 36 + 1
    let s1 := s.wl r 2 (withBits (s.rl r 2) 0 36 gseq)
    let spb := (s.cfg r.outCtx).spb
    if r.kind = kMember then s1.setRState (r.newGroup (e + 1))
    else if r.kind = kSpec ∧ !r.spoiled then
      let kg := bitsOf (s1.rl r 17) 0 20
      let x : SpecClose := ⟨r.src, r.slot, e, { r with fresh := r.fresh || part }, gseq, kg⟩
      let s2 := (s1.wl r 17 0).setRState (r.newGroup (e + 1))
      if quiet then s2.postNote c r true e gseq else s2.setEng c { s2.eng c with defer := (s2.eng c).defer ++ [x] }
    else
      let cl := if r.spoiled then State.freeBody (r.rlen (s.cfg r.src).spb - 4) s1
        else if r.kind = kStats then s1.closeStats r
        else if r.kind = kRflow then s1.closeFlow r spb
        else if r.kind = kPkvl then s1.closePkvl r spb
        else if r.kind = kSrs then s1.closeSrs r
        else s1.closeDecim r (s.cfg r.src).spb
      let r1 := (cl.st.rstate r.src r.slot).getD r
      let s2 := if quiet then cl.st.postNote c r true e gseq
        else cl.st.putGroup r e gseq (r.fresh || r.slept || part) cl.ovf cl.body
      let s3 := s2.applyClear r1
      s3.setRState (((s3.rstate r.src r.slot).getD r1).newGroup (e + 1))

/-- Process the items of cluster c whose intake beat is before n, at most k of them. -/
def State.drainIntake (c : Nat) (n : BitVec 48) : Nat → State → State
  | 0, s => s
  | k + 1, s =>
    match (s.eng c).intake.find? (fun it => !atOrAfter it.inBeat n) with
    | none => s
    | some it =>
      let l := (s.eng c).intake.erase it
      State.drainIntake c n k ((s.setEng c { s.eng c with intake := l }).redItem it)

/-- The deferred spectral closes of a state are written at once: a commit cuts it (R304). -/
def State.flushSpec (s : State) (c src slot : Nat) : State :=
  let l := (s.eng c).defer
  let mine (x : SpecClose) : Bool := x.src == src && x.slot == slot
  (l.filter mine).foldl State.writeSpec (s.setEng c { s.eng c with defer := l.filter (fun x => !mine x) })

/-- R309: one edge of RED_DONE, once the records that fell due together at the close tagged e are written. -/
def State.redDone (s : State) (c : Nat) (e : BitVec 48) : State :=
  if (s.eng c).defer.any (fun x => x.beat == e) then s else s.cicEdge c 64

/-- R303, step 5 of R18: the closes of edge n in cluster c. In retention or off every close is skipped (R306). -/
def State.closeCluster (s : State) (c : Nat) (n : BitVec 48) : State :=
  if !s.domOn (domCluster c) then s
  else
    let s1 := State.drainIntake c n (s.eng c).intake.length s
    let due := s1.red.states.filter (fun r => s1.rowner r = c ∧ r.closesAt n)
    if due.isEmpty ∧ !(s1.eng c).cut then s1
    else
      let s2 := due.foldl (fun t r => match t.rstate r.src r.slot with
        | some x => t.closeGroup x (n - 1) false false
        | none => t) s1
      let wrote := due.any (fun r => r.kind ≠ kMember && (match s2.rstate r.src r.slot with
        | some x => !x.failed
        | none => false))
      let s3 := s2.setEng c { s2.eng c with cut := false }
      if wrote || (s1.eng c).cut then s3.redDone c (n - 1) else s3

/-- Clusters that own reduction states, or whose states a commit has just removed. -/
def State.redClusters (s : State) : List Nat :=
  (List.range 64).filter (fun c => s.red.states.any (fun r => s.rowner r = c) || (s.eng c).cut)

/-- Step 5 of R18. -/
def State.redClose (s : State) (n : BitVec 48) : State := s.redClusters.foldl (fun t c => t.closeCluster c n) s

/-- RE_BUSY after an edge, p the ns of the beat that ends: open up to that, 0 where no state is in force (R333). -/
def State.redBusy (s : State) (p : Nat) : State :=
  (List.range 64).foldl (fun t c =>
    if !t.domOn (domCluster c) then t
    else if t.red.states.any (fun r => t.rowner r = c) then (t.setReReg c 0x006 (BitVec.ofNat 40 (t.freeVal % (p + 1)))).freeNext
    else t.setReReg c 0x006 0) s

/-! ### The engine's own steps (R296, R328) -/

/-- The oldest item of the intake goes through its chain, once its intake beat has begun. -/
def State.redNext (s : State) (c : Nat) : State :=
  if !s.domOn (domCluster c) then s
  else match (s.eng c).intake with
    | [] => s
    | it :: l => if (s.chain it.src).any (·.ahead it.inBeat) then s else (s.setEng c { s.eng c with intake := l }).redItem it

/-- The oldest deferred spectral close is written. -/
def State.specNext (s : State) (c : Nat) : State :=
  if !s.domOn (domCluster c) then s
  else match (s.eng c).defer with
    | [] => s
    | x :: l => ((s.setEng c { s.eng c with defer := l }).writeSpec x).redDone c x.beat

/-! ### Submissions (R297, R298) -/

/-- Has a core reached BWAIT for beat n (R13, R183)? -/
def State.reached (s : State) (i : Nat) (n : BitVec 48) : Bool :=
  let c := s.core i
  !c.takes || !s.domOn (domCluster (i / 16)) ||
    (match c.completed with
      | some b => atOrAfter b n
      | none => false)

/-- Every core of a cluster has reached BWAIT for beat n. -/
def State.allReached (s : State) (c : Nat) (n : BitVec 48) : Bool := (List.range 16).all (fun k => s.reached (16 * c + k) n)

/-- The first beat for which core i has not reached BWAIT, none where it counts as having reached it (R13, R183). -/
def State.nextBeat (s : State) (i : Nat) : Option (BitVec 48) :=
  let c := s.core i
  if c.takes && s.domOn (domCluster (i / 16)) then
    (match c.completed with
      | some b => some (b + 1)
      | none => some c.work)
  else none

/-- R297: the cluster's open beat: the earliest for which some core has not reached BWAIT. -/
def State.openBeat (s : State) (c : Nat) : BitVec 48 :=
  ((List.range 16).filterMap (fun k => s.nextBeat (16 * c + k))).foldl (fun a b => if atOrAfter a b then b else a) (s.beat.num + 1)

/-- Has a group of state r closed at an edge after ob, up to edge m (R298, R303)? -/
def RState.closedSince (r : RState) (ob m : BitVec 48) : Bool :=
  match r.a with
  | none => false
  | some a =>
    let lo := if atOrAfter ob a then ob else a
    !atOrAfter lo m && (if r.align then decide (lo.toNat / r.glen < m.toNat / r.glen)
      else decide ((lo - a).toNat / r.glen < (m - a).toNat / r.glen))

/-- R298: a store to RE_SUBMIT of cluster c by core i; a slot handed is remembered while the ring still holds it. -/
def State.reSubmit (s : State) (i c : Nat) (v : Long) : State :=
  let src := bitsOf v 22 18
  let x := s.cfg src
  let b := (s.core i).work
  let feed := match s.chain src with
    | h :: _ => h.feed
    | [] => false
  if 1024 ≤ i ∨ i / 16 ≠ c ∨ !x.on ∨ x.ctype ≠ tyDer ∨ x.owner ≠ c ∨ !x.redEn ∨ !feed ∨ (s.eng c).handed.contains (src, b) then
    s.setReErr c 5
  else
    let ob := s.openBeat c
    let m := s.beat.num
    let lateOf (r : RState) : Bool := r.closedSince ob m
    let late := (s.chain src).any lateOf
    let s1 := (s.chain src).foldl (fun t r => if lateOf r then (t.wl r 3 (satLo (t.rl r 3) 1)).setRState { r with late := true } else t) s
    let s2 := if late then s1.setReErr c 1 else s1
    let e := s2.eng c
    let s3 := s2.setEng c { e with handed := e.handed.filter (fun h => h.1 != src || decide ((b - h.2).toNat < x.depth ∨ (h.2 - b).toNat < x.depth)) ++ [(src, b)] }
    s3.intake c ⟨src, b, if atOrAfter ob m then ob else m, true⟩

/-! ### Load (R327) -/

/-- Value cost of a state in units. -/
def RState.valueCost (r : RState) : Nat :=
  if r.kind = kSrs then (bitsOf (r.cl 4) 33 7 + 1 + 7) / 8
  else if r.kind = kDecim then max 1 ((r.decT + 16 * r.decM - 1) / (16 * r.decM))
  else 1

/-- U_s of a list of states with the SPB of their sources. -/
def loadUs (l : List (RState × Nat)) : ℚ :=
  (l.map (fun e => ((e.1.valueCost * e.2 : Nat) : ℚ) +
    (if e.1.kind = kRflow ∧ (e.1.cl 5).getLsbD 26 then
      (((bitsOf (e.1.cl 5) 33 6 + 1) * (bitsOf (e.1.cl 5) 27 6 + 1) : Nat) : ℚ) / 16 / (e.1.glen : ℚ) else 0))).foldl (· + ·) 0

/-- The cost of one frame of a SPEC lead. -/
def RState.frameCost (r : RState) : ℚ :=
  ((r.specC * r.specN * (bitsOf (r.cl 4) 35 5 + 2) : Nat) : ℚ) / 16 + ((r.specE * (r.specN / 2 + 1) : Nat) : ℚ) / 4

/-- U_f of a list of states with the SPB of their sources. -/
def loadUf (l : List (RState × Nat)) : ℚ :=
  (l.map (fun e => if e.1.kind = kSpec then
      e.1.frameCost * (e.2 : ℚ) / (e.1.specH : ℚ) + ((e.1.specE * (e.1.specN / 2 + 1) : Nat) : ℚ) / 2 / (e.1.glen : ℚ)
    else 0)).foldl (· + ·) 0

/-- The states of cluster c in force, with the SPB of their sources. -/
def State.loadOf (s : State) (c : Nat) : List (RState × Nat) :=
  (s.red.states.filter (fun r => s.rowner r = c)).map (fun r => (r, (s.cfg r.src).spb))

/-- The units of a spectral lead's close. -/
def RState.closeCost (r : RState) : ℚ := ((r.specE * (r.specN / 2 + 1) : Nat) : ℚ) / 2

/-- R328: beats a SPEC record may take past the edge behind its close, none where the bound does not hold. -/
def State.specBeats (s : State) (c : Nat) : Option Nat :=
  let l := s.loadOf c
  let room : ℚ := (s.pqIn : ℚ) * 6 / 42949672960 - loadUs l
  let w := (l.map (fun e => if e.1.kind = kSpec then e.1.frameCost + e.1.closeCost else 0)).foldl (· + ·) 0
  if s.engineFull c ∧ 0 < room then some ⌈w / room⌉.toNat else none

/-- Write the oldest deferred closes of cluster c that R328 has written before edge n, at most k. -/
def State.specDueGo (c : Nat) (n : BitVec 48) (k : Nat) : Nat → State → State
  | 0, s => s
  | m + 1, s => match (s.eng c).defer with
    | [] => s
    | x :: _ => if atOrAfter n (x.beat + 2 + BitVec.ofNat 48 k) then State.specDueGo c n k m (s.specNext c) else s

/-- R328: what must be written before edge n. -/
def State.specDue (s : State) (n : BitVec 48) : State :=
  (List.range 64).foldl (fun t c =>
    if !t.domOn (domCluster c) || (t.eng c).defer.isEmpty then t
    else match t.specBeats c with
      | some k => State.specDueGo c n k (t.eng c).defer.length t
      | none => t) s

/-- An amount of units rounded up to a long. -/
def unitsLong (q : ℚ) : Long := BitVec.ofInt 40 ⌈q⌉

end Sys2Proof.Machine
end

