-- ==== Sys2Proof/Machine/Whistle.lean ====
section
/-! DEFINITION. Whistle snapshots (17): requests, latches, the image, and what BAR0 words read as. -/

namespace Sys2Proof.Machine

open Sys2Proof

/-! ### What BAR0 words read as -/

/-- Is a commit request within 2,000 ns of its edge (R47)? The target edge is the next one here. -/
def State.cutoff (s : State) : Bool :=
  match s.beat.commit with
  | none => false
  | some c =>
    !c.immediate && s.beat.phase != .stopped &&
      (let next := match s.beat.first with
        | some (_, t) => t
        | none => s.beat.lastEdge + s.periodU
       let nn := match s.beat.first with
        | some (n, _) => n
        | none => s.beat.num + 1
       let at_ : Int := next + ((c.target - nn).toNat : Int) * s.periodU
       decide (at_ - s.time ≤ 2000 * nsU))

/-- Words of BAR0 that show other state of the device (R32, R47, R97, R265, R272, R494, R514, R528). -/
def State.readWord (s : State) (off : Nat) : Reg32 :=
  if off = R.BEAT_NUM_LO then s.beat.num.setWidth 32
  else if off = R.COMMIT_STAT then withField (s.word off) R.COMMIT_STAT_CUTOFF (if s.cutoff then 1 else 0)
  else if off = R.SP_EVT_SUM then
    BitVec.ofNat 32 ((List.range 16).foldl (fun a p => if s.evtLine (R.SP_EVT p) (R.SP_EVT_EN p) then a + 2 ^ p else a) 0)
  else if 0x1500 ≤ off ∧ off < 0x1700 then
    withField (s.word off) ⟨off, 13, 1⟩ (if s.dev.level.getLsbD ((off - 0x1500) / 4) then 1 else 0)
  else if 0x1700 ≤ off ∧ off < 0x1710 then (s.dev.level >>> (8 * (off - 0x1700))).setWidth 32
  else if 0x1710 ≤ off ∧ off < 0x1720 then (s.dev.edge >>> (8 * (off - 0x1710))).setWidth 32
  else if off = R.PWR_STAT then
    withField (s.word off) R.PWR_STAT_ON ((List.range 64).filter (fun c => s.domOn (domCluster c))).length
  else if off = R.WH_STAT then
    let w1 := withField (s.word off) R.WH_STAT_PENDING (if s.wh.reqs.isEmpty && s.wh.deferred.isNone then 0 else 1)
    withField (withField w1 R.WH_STAT_BUSY s.wh.images.length) R.WH_STAT_ARMED s.wh.armed.length
  else if off = R.BEAT_STAT ∧ s.rd R.BEAT_STAT_LOCK = 3 then
    withField (s.word off) R.BEAT_STAT_HOLDOVER_S (min 65535 ((s.time - s.beat.holdSince) / (1000000000 * nsU)).toNat)
  else if off = R.WH_SEQ then BitVec.ofNat 32 ((s.wh.window.map (·.seq)).getD 0)
  else if 0x2800 ≤ off ∧ off < 0x3000 then
    BitVec.ofNat 32 ((((s.wh.window.map (·.words)).getD [])[512 * s.rd R.WH_PAGE_V + (off - 0x2800) / 4]?).getD 0)
  else s.word off

/-! ### The image (R525 to R527) -/

/-- A core's state as CORE_STATE codes it (R488). -/
def State.coreState (s : State) (i : Nat) : Nat :=
  if i < 1024 ∧ !s.domOn (domCluster (i / 16)) then 4
  else match (s.core i).run with
    | .running => 0
    | .bwait _ => 1
    | .halted _ => 2
    | .held => 3
    | .locked => 2

/-- The words of a run of BAR0 offsets. -/
def State.words (s : State) (base n : Nat) : List Nat := (List.range n).map (fun i => (s.readWord (base + 4 * i)).toNat)

/-- A section of the image: its header word and its words. -/
def section32 (id idx : Nat) (w : List Nat) : List Nat := (id * 2 ^ 24 + idx * 2 ^ 16 + w.length) :: w

/-- The three words of core i (R526). -/
def State.coreWords (s : State) (i : Nat) : List Nat :=
  let c := s.core i
  [c.pc.toNat % 2 ^ 32, s.coreState i * 2 ^ 29 + c.mask.toNat * 2 ^ 27 + c.pc.toNat / 2 ^ 32, c.work.toNat % 2 ^ 32]

/-- The section of cluster c. -/
def State.clusterWords (s : State) (c : Nat) : List Nat :=
  s.words (R.SLACK_LAST c) 4 ++ [s.rdW (R.CL_VOLT c), s.rdW (R.CL_BOOST c), (s.reStat c).toNat % 2 ^ 32, (s.reErr c).toNat % 2 ^ 32]
    ++ ((List.range 16).map (fun k => s.coreWords (16 * c + k))).flatten

/-- The whole image, header words given. -/
def State.imageOf (s : State) (hdr : List Nat) : List Nat :=
  section32 1 0 hdr ++ section32 2 0 (s.words 0x4000 64)
    ++ ((List.range 64).map (fun c => section32 3 c (s.clusterWords c))).flatten
    ++ section32 4 0 (s.words 0x5000 576) ++ section32 5 0 (s.words 0x6000 832) ++ section32 6 0 (s.words 0x7000 128)
    ++ section32 7 0 (s.words 0x3000 512) ++ section32 8 0 (s.words 0x8000 16)
    ++ section32 9 0 [s.poolFree, s.qeng.corr, s.qeng.unc, s.qeng.exh] ++ section32 0xFF 0 []

/-! ### Requests and latches (R518 to R524) -/

/-- R520: sources in the order that gives the tag: PACK, COMMAND, HOST, CORE, PIN, FAULT. -/
def srcOrder : List Nat := [4, 1, 0, 2, 3, 5]

/-- The tag of a latch: the first source present; the lowest order within CORE and FAULT, else the first received. -/
def latchTag (l : List WhReq) : BitVec 16 :=
  match srcOrder.find? (fun k => l.any (fun r => r.src = k)) with
  | none => 0
  | some k =>
    match l.filter (fun r => r.src = k) with
    | [] => 0
    | r :: rs => if k = 2 ∨ k = 5 then (rs.foldl (fun a b => if b.ord < a.ord then b else a) r).tag else r.tag

/-- The SRC mask of a latch. -/
def latchSrc (l : List WhReq) : Nat := l.foldl (fun m r => m ||| 2 ^ r.src) 0

/-- R420: a trigger at edge n starts every armed window whose mask names its kind. -/
def State.triggerWindows (s : State) (p : Window → Bool) (n : BitVec 48) : State :=
  let hit (w : Window) : Bool := p w && w.trig.isNone
  if s.jrn.windows.any hit then
    ((s.onJrn (fun z => { z with windows := s.jrn.windows.map (fun w => if hit w then { w with trig := some n } else w) }))).set1 R.J_STAT_EW_ACTIVE
  else s

/-- R519 to R524: latch the requests l at edge n (pack time t); due names the edge a deferred latch was due at. -/
def State.latch (s : State) (l : List WhReq) (n : BitVec 48) (t : Int) (stopped : Bool) (due : Option (BitVec 48)) : State :=
  let seq := s.wh.seq + 1
  let tag := latchTag l
  let src := latchSrc l
  let hdr := [seq % 2 ^ 32,
    tag.toNat * 2 ^ 16 + src * 2 ^ 8 + (if 1 < l.length then 4 else 0) + (if due.isSome then 2 else 0) + (if stopped then 1 else 0),
    n.toNat % 2 ^ 32, n.toNat / 2 ^ 32, fracOf (s.packAt t), nsOf (s.packAt t) % 2 ^ 32, nsOf (s.packAt t) / 2 ^ 32,
    Config.serial.toNat % 2 ^ 32, Config.serial.toNat / 2 ^ 32, (due.getD n).toNat % 2 ^ 32,
    0x9640 * 2 ^ 16 + s.rd R.NODE_ADDR_ADDR, l.length]
  let words := s.imageOf hdr
  let img : WhImage := ⟨seq, words, tag.toNat, src, n⟩
  let s1 := (s.onWh (fun z => { z with seq := seq, images := s.wh.images ++ [img], deferred := none }))
  let s2 := (((s1.satAdd R.WH_MERGED_V (l.length - 1)).set1 R.WH_EVT_LATCHED).wr R.WH_STAT_SRC src).wr R.WH_STAT_WORDS words.length
  let s3 := if due.isSome then s2.set1 R.WH_EVT_DEFERRED else s2
  let s4 := (s3.wrW R.WH_BEAT_LO (n.toNat % 2 ^ 32))
  let s5 := (s4.onWh (fun z => { z with beatHi := tag.toNat * 2 ^ 16 + n.toNat / 2 ^ 32 }))
  let s6 := s5.offerRec ⟨0x04, 0, n, false, false,
    le 2 tag.toNat ++ le 1 src ++ le 1 0 ++ le 4 (4 * words.length) ++ (words.map (le 4)).flatten⟩
  let s7 := s6.triggerWindows (fun w => w.mask % 2 = 1) n
  let pm := s7.rd R.WH_CTRL_PIN_MODE
  let s8 := if pm = 2 ∨ pm = 3 then
      (s7.onWh (fun z => { z with pinQuiet := t + 1000 * nsU + s7.periodU })).emit .whistlePin else s7
  (l.filterMap (·.ch)).foldl (fun u ch => u.complete ch stOk (le 4 seq ++ le 6 n.toNat ++ le 2 0)) s8

/-- The requests l fall due at edge n, whose pack time is t: they latch with those of a deferred latch, or wait for a free image
(R521). -/
def State.latchDue (s : State) (l : List WhReq) (n : BitVec 48) (t : Int) (stopped : Bool) : State :=
  let due := (s.wh.deferred.map (·.2)).getD [] ++ l
  if due.isEmpty then s
  else if s.wh.images.length < 2 then s.latch due n t stopped (s.wh.deferred.map (·.1))
  else match s.wh.deferred with
    | some (d, _) => s.onWh (fun z => { z with deferred := some (d, due) })
    | none => (s.onWh (fun z => { z with deferred := some (n, due) })).inc R.WH_SKIP_V

/-- R519: while the beat is stopped what waits for an edge latches at once. -/
def State.whStopped (s : State) : State := (s.onWh (fun z => { z with reqs := [] })).latchDue s.wh.reqs s.beat.num s.time true

/-- R518, R519, R523: a request reaches the whistle block. -/
def State.whRequest (s : State) (r : WhReq) : State :=
  if r.src = 5 ∧ s.wh.reqs.any (fun x => x.src = 5 ∧ x.ord = r.ord) then s
  else
    let s1 := s.onWh (fun z => { z with reqs := s.wh.reqs ++ [r] })
    if s.bit R.BEAT_STAT_RUNNING then s1 else s1.whStopped

/-- R518, R523: a fault event whose bit is enabled requests a whistle. -/
def State.whFault (s : State) (bit : Nat) : State :=
  if s.rd R.WH_FAULT_EN_R523 / 2 ^ bit % 2 = 1 then
    s.whRequest ⟨5, BitVec.ofNat 16 (0xFF00 + bit), bit, none, s.time, none⟩
  else s

/-- R518, step 2 of R18: the latch of edge n, whose pack time is t. -/
def State.latchEdge (s : State) (n : BitVec 48) (t : Int) : State :=
  let isDue (r : WhReq) : Bool := match r.target with
    | some x => x == n
    | none => decide (r.notBefore + 100 * nsU ≤ t)
  let pack := (s.wh.armed.filter (fun a => a.1 = n)).map (fun a => (⟨4, a.2, 0, some n, 0, none⟩ : WhReq))
  let due := s.wh.reqs.filter isDue ++ pack
  (s.onWh (fun z => { z with reqs := s.wh.reqs.filter (fun r => !isDue r), armed := s.wh.armed.filter (fun a => a.1 ≠ n) })).latchDue due n t false

end Sys2Proof.Machine
end

