-- ==== Sys2Proof/Machine/BeatOps.lean ====
section
/-! DEFINITION. Beat and time (02): the discipline servo, references, time of day, discontinuity records, the start and
stop of the beat, capture. -/

namespace Sys2Proof.Machine

open Sys2Proof

/-! ### TAI (R31) -/

/-- One second in the units of pack time. -/
def secU : Int := 1000000000 * nsU

/-- The TAI instant of pack time zero, in ns. -/
def State.epochTai (s : State) : Int :=
  ((s.rdW R.EPOCH_TAI_SEC_HI * 4294967296 + s.rdW R.EPOCH_TAI_SEC_LO) * 1000000000 + s.rdW R.EPOCH_TAI_NS : Nat)

/-- Set EPOCH_TAI_SEC and EPOCH_TAI_NS from an instant in ns. -/
def State.setEpochTai (s : State) (ns : Int) : State :=
  let sec := (ns / 1000000000 % 281474976710656).toNat
  ((s.wrW R.EPOCH_TAI_SEC_LO sec).wrW R.EPOCH_TAI_SEC_HI (sec / 4294967296)).wrW R.EPOCH_TAI_NS (ns % 1000000000).toNat

/-- 2^56 ns, after which pack time wraps (R30). -/
def wrapU : Int := 72057594037927936 * nsU

/-- Pack time of a clock instant since the wrap EPOCH_TAI counts from. -/
def State.packRel (s : State) (t : Int) : Int := s.packAt t - (s.beat.wraps : Int) * wrapU

/-- TAI of a clock instant, in units. -/
def State.taiAt (s : State) (t : Int) : Int := s.epochTai * nsU + s.packRel t

/-- A discontinuity record at the present edge (R61). -/
def State.disc (s : State) (cause : Nat) (before after step unc : Int) : State :=
  s.emitDisc ⟨cause, s.beat.num, before, after, step, unc, s.rd R.BEAT_CTRL_SRC_SEL⟩

/-! ### The servo (R37, R38) -/

/-- LOCK codes (R64). -/
def lockFree : Nat := 0
def lockAcquiring : Nat := 1
def lockLocked : Nat := 2
def lockHoldover : Nat := 3

/-- R38, R61: LOCK changes. -/
def State.setLock (s : State) (n : Nat) : State :=
  let old := s.rd R.BEAT_STAT_LOCK
  if old = n then s
  else
    let s1 := (s.wr R.BEAT_STAT_LOCK n).set1 R.BEAT_INT_STAT_LOCK_CHG
    let s2 := if old = lockHoldover then
        s1.disc 7 s.packNow s.packNow 0 ((s.time - s.beat.holdSince) / secU * 1000) else s1
    if n = lockHoldover then
      ((s2.onBeat (fun z => { z with holdSince := s.time })).set1 R.BEAT_INT_STAT_HOLDOVER).whFault 3
    else s2

/-- Is the role ALONE or MASTER? -/
def State.leads (s : State) : Bool := s.role == roleAlone || s.role == roleMaster

/-- May the servo act: it leads, has a source, and no SLEEP_WAKE record waits (R37, R60)? -/
def State.servoOn (s : State) : Bool := s.leads && s.rd R.BEAT_CTRL_SRC_SEL != 0 && !s.bit R.BEAT_STAT_DISC_PEND

/-- The servo starts or restarts (R38). -/
def State.servoStart (s : State) : State :=
  if s.rd R.BEAT_CTRL_SRC_SEL ≠ 0 ∧ s.leads then
    ((s.onBeat (fun z => { z with consec := 0, parentLost := false })).wr R.BEAT_STAT_SRC_ACT (s.rd R.BEAT_CTRL_SRC_SEL)).setLock lockAcquiring
  else s.wr R.BEAT_STAT_SRC_ACT 0

/-- R38: SRC_SEL = 0 turns the servo off. -/
def State.servoOff (s : State) : State :=
  ((((s.onBeat (fun z => { z with consec := 0, parentLost := false })).wrW R.RATE_ADJ 0).wr R.BEAT_STAT_SRC_ACT 0)).setLock lockFree

/-- R37: slewing: RATE_ADJ takes a new value no larger than SLEW_MAX; the loop's law beyond its time constant is
open, so the value is free (log 1). -/
def State.slew (s : State) : State :=
  let lim : Int := s.rd R.DISC_CTRL_SLEW_MAX * 1099511627776 / 1000000
  if s.rd R.DISC_CTRL_SLEW_MAX = 0 then s
  else s.freeNext.wrW R.RATE_ADJ (toSigned 32 (clampInt (-lim) lim (ofSigned 32 s.freeVal)))

/-- A reference update: the offset of pack time from the reference, in units (R37, R38). -/
def State.refUpdate (s : State) (off : Int) : State :=
  if !s.servoOn then s
  else
    let s0 := s.wrW R.DISC_STAT (toSigned 32 (clampInt (-2147483648) 2147483647 (roundAway off nsU.toNat)))
    let s1 := if s0.rd R.BEAT_STAT_LOCK = lockHoldover then (s0.onBeat (fun z => { z with consec := 0 })).setLock lockAcquiring else s0
    let mag : Int := off.natAbs
    if 2 ^ min (s.rd R.DISC_CTRL_STEP_EXP) 30 * nsU ≤ mag then
      let s2 := s1.onBeat (fun z => { z with consec := 0, pendStep := some (-off, 1) })
      if s2.rd R.BEAT_STAT_LOCK = lockLocked then s2.setLock lockAcquiring else s2
    else
      let n := if mag < 2 ^ s.rd R.DISC_CTRL_LOCK_EXP * nsU then s1.beat.consec + 1 else 0
      let s2 := (s1.slew).onBeat (fun z => { z with consec := n })
      if s2.rd R.BEAT_STAT_LOCK = lockAcquiring ∧ max 1 (s.rd R.DISC_CTRL_LOCK_N) ≤ n then s2.setLock lockLocked else s2

/-- A step of pack time by d has been made; before: pack time before it. The first step after SLEEP_WAKE is a RELOCK (R61),
whoever makes it, but one of a Bertia command keeps its own cause (DESIGN CHOICE, log 32). What the record's uncertainty is, is
open. -/
def State.stepRec (s : State) (cause : Nat) (before d : Int) : State :=
  let c := if s.beat.relock && cause != 2 then 4 else cause
  (s.onBeat (fun z => { z with relock := false })).freeNext.disc c before s.packNow (roundAway d nsU.toNat) s.freeVal

/-- R37, R487: a step due at an edge: pack time and BEAT_EPOCH move together, and a record is emitted. -/
def State.applyStep (s : State) : State :=
  match s.beat.pendStep with
  | none => s
  | some (d, cause) => (s.onBeat (fun z => { z with pendStep := none, off := z.off + d })).stepRec cause s.packNow d

/-- R38: SRC_SEL changes. -/
def State.srcSelWrite (s : State) (sel : Nat) : State :=
  if 4 < sel then s
  else
    let old := s.rd R.BEAT_CTRL_SRC_SEL
    let s0 := if sel = 2 then s else s.wr R.IRIG_STAT_VALID 0
    let s1 := (s0.wr R.BEAT_CTRL_SRC_SEL sel).onBeat (fun z => { z with irigLast := none, beatInLast := none })
    let s2 := if old ≠ sel ∧ s.bit R.BEAT_STAT_RUNNING then s1.freeNext.disc 6 s.packNow s.packNow 0 s1.freeVal else s1
    if sel = 0 then s2.servoOff else s2.servoStart

/-! ### References (R40 to R44) -/

/-- A remainder brought into the half period around zero. -/
def centered (x p : Int) : Int := if 2 * (x % p) < p then x % p else x % p - p

/-- A clock instant t is the start of a TAI second, number sec where it is known (R31, R40, R41). -/
def State.secondMark (s : State) (t : Int) (sec : Option Nat) : State :=
  match sec with
  | some n =>
    let s1 := if s.bit R.BEAT_STAT_TAI_VALID then s
      else (s.setEpochTai ((n : Int) * 1000000000 - s.packRel t / nsU)).set1 R.BEAT_STAT_TAI_VALID
    s1.refUpdate (s1.taiAt t - (n : Int) * secU)
  | none => s.refUpdate (centered (if s.bit R.BEAT_STAT_TAI_VALID then s.taiAt t else s.packAt t) secU)

/-- Complete PPS_SECOND where its 2 s have passed with no pulse (R487). -/
def State.ppsExpire (s : State) : State :=
  match s.beat.ppsSec with
  | some (_, nb, ch) =>
    if nb + 1999000000 * nsU < s.time then (s.onBeat (fun z => { z with ppsSec := none })).complete ch stNotFound [] else s
  | none => s

/-- R40: a pulse on PPS_IN, its timestamp in steps of 0.1 ns (the nearest below or above is open), less DELAY. A pulse that is
accepted raises device source D42 (R265), whatever SRC_SEL is. -/
def State.ppsPulse (s0 : State) (falling : Bool) (width : Nat) : State :=
  let s := s0.ppsExpire
  if !s.bit R.PPS_CTRL_EN || s.bit R.PPS_CTRL_EDGE != falling || decide (width < 100) || !s.domOn domSteward then s
  else
    let q : Int := 9223372036854775808
    let t := (s.time / q + (s.freeVal % 2 : Nat)) * q - (s.rd R.PPS_CTRL_DELAY : Int) * (nsU / 8)
    let s1 := s.freeNext.pulse 42
    let used := s1.rd R.BEAT_CTRL_SRC_SEL = 1
    match s1.beat.ppsSec with
    | some (n, nb, ch) =>
      if nb ≤ s.time then
        let s2 := (s1.onBeat (fun z => { z with ppsSec := none })).complete ch stOk []
        if used then s2.secondMark t (some n) else s2
      else if used then s1.secondMark t none else s1
    | none => if used then s1.secondMark t none else s1

/-- Days from 1970-01-01 to the first day of a year from 1970 on. -/
def daysTo (y : Nat) : Nat := (y - 1970) * 365 + ((y - 1969) / 4 - (y - 1901) / 100 + (y - 1601) / 400)

/-- The TAI second an IRIG frame names, where its year is known (R41): a two-digit year is one of 2000 to 2099. -/
def State.irigSec (s : State) (f : IrigFrame) : Option Nat :=
  let y := match f.year with
    | some v => some (2000 + v.toNat)
    | none => if s.rd R.IRIG_CTRL_YEAR = 0 then none else some (s.rd R.IRIG_CTRL_YEAR)
  let tod := (f.hour.toNat * 60 + f.minute.toNat) * 60 + f.sec.toNat
  y.map (fun v => ((daysTo v + f.doy.toNat - 1) * 86400 + tod : Nat) +
    (if s.bit R.IRIG_CTRL_UTC then ofSigned 16 (s.rdW R.TAI_UTC) else 0) |>.toNat)

/-- Seconds by which two frames are compared (R42). -/
def irigCount (f : IrigFrame) : Nat := f.doy.toNat * 86400 + (f.hour.toNat * 60 + f.minute.toNat) * 60 + f.sec.toNat

/-- A write of IRIG_CTRL: a change of MODE ends what the old one received (log 32). -/
def State.irigCtrl (s : State) (mode : Nat) : State :=
  if s.rd R.IRIG_CTRL_MODE = mode then s
  else ((s.wr R.IRIG_STAT_CARRIER 0).wr R.IRIG_STAT_VALID 0).onBeat (fun z => { z with irigLast := none })

/-- R41, R42: an IRIG frame whose on-time marker passes now. VALID: time of day is taken from it. -/
def State.irigFrame (s : State) (f : IrigFrame) : State :=
  let mode := s.rd R.IRIG_CTRL_MODE
  if mode = 0 ∨ mode = 3 ∨ !s.domOn domSteward then s
  else
    let s0 := if mode = 2 then s.wr R.IRIG_STAT_CARRIER 1 else s
    let tod := (f.hour.toNat * 60 + f.minute.toNat) * 60 + f.sec.toNat
    let sbsBad := s.bit R.IRIG_CTRL_SBS_CHECK && (match f.sbs with
      | some x => x.toNat != tod
      | none => false)
    if !f.refOk || !f.bcdOk || sbsBad then (s0.inc R.IRIG_STAT_BAD).onBeat (fun z => { z with irigLast := none })
    else
      let n := (s0.irigSec f).getD (irigCount f)
      let s1 := s0.onBeat (fun z => { z with irigLast := some n })
      let two := match s.beat.irigLast with
        | some l => l + 1 == n
        | none => false
      if two && s.rd R.BEAT_CTRL_SRC_SEL == 2 then (s1.wb R.IRIG_STAT_VALID (s0.irigSec f).isSome).secondMark s.time (s0.irigSec f)
      else s1

/-- An instant as the SVC MAC stamps it: in quarters of a nanosecond, the nearest below or above (open). -/
def State.macStamp (s : State) (t : Int) : Int := (t / (nsU / 4) + (s.freeVal % 2 : Nat)) * (nsU / 4)

/-- R43: what an IEEE 1588 message of the configured domain brings. -/
def State.ptpIn (s : State) (domain : Nat) (m : PtpIn) : State :=
  if domain ≠ s.host.ptp.domain.toNat ∨ !s.domOn domSteward then s
  else match m with
    | .announce gm steps utc =>
      let s1 := s.onHost (fun z => { z with ptpGm := gm, ptpSteps := steps.toNat, ptpUtc := utc })
      match utc with
      | some u => s1.wrW R.TAI_UTC u.toNat
      | none => s1
    | .pathDelay ns q => s.onHost (fun z => { z with ptpDelay := 4 * ns.toNat + q.toNat })
    | .sync sec ns q =>
      if s.rd R.BEAT_CTRL_SRC_SEL ≠ 3 then s
      else
        let t := s.macStamp s.time
        let ref : Int := ((4 * (sec.toNat * 1000000000 + ns.toNat) + q.toNat + s.host.ptpDelay : Nat) : Int) * (nsU / 4)
        let s0 := s.freeNext
        let s1 := if s.bit R.BEAT_STAT_TAI_VALID then s0
          else (s0.setEpochTai ((ref - s.packRel t) / nsU)).set1 R.BEAT_STAT_TAI_VALID
        let off := s1.taiAt t - ref
        (s1.onHost (fun z => { z with ptpOffset := roundAway off nsU.toNat })).refUpdate off

/-- Which messages the ordinary clock may send (R43): Delay_Req as a slave; Sync, Announce and Delay_Resp as a master,
with another source locked and MASTER_OK. -/
def State.ptpMay (s : State) (m : PtpOut) : Bool :=
  match m with
  | .delayReq => s.rd R.BEAT_CTRL_SRC_SEL == 3
  | _ => s.rd R.BEAT_CTRL_SRC_SEL != 3 && s.leads && s.rd R.BEAT_STAT_LOCK == lockLocked && s.host.ptp.flags.getLsbD 1

/-- R44: the grid edge of a number that is a multiple of DIV nearest to a clock instant. -/
def State.nearestMultiple (s : State) (t : Int) (div : Nat) : Int :=
  let p := s.periodU
  let base : Int := s.beat.lastEdge - ((s.beat.num.toNat % div : Nat) : Int) * p
  let w := (div : Int) * p
  base + (t - base + w / 2) / w * w

/-- R44: a rising edge of BEAT_IN. DESIGN CHOICE (log 32): the first one after SRC_SEL is written only starts the interval, and
the servo has no update of it. -/
def State.beatInPulse (s : State) : State :=
  let div := s.rdF R.BEATIN_CTRL_DIV
  if s.rd R.BEAT_CTRL_SRC_SEL ≠ 4 ∨ !s.beat.ran ∨ div = 0 ∨ !s.domOn domSteward then s
  else
    let s1 := s.onBeat (fun z => { z with beatInLast := some s.time })
    let w := (div : Int) * s.periodU
    match s.beat.beatInLast with
    | none => s1
    | some l =>
      if w < 5000 * ((s.time - l - w).natAbs : Int) then
        if s.servoOn then (s1.onBeat (fun z => { z with consec := 0 })).setLock lockAcquiring else s1
      else s1.refUpdate (s.time - s.nearestMultiple s.time div)

/-- R38: three intervals without an update, or the carrier lost. DESIGN CHOICE (log 32): IRIG_STAT.VALID clears where SRC_SEL = 2
and no time of day has come for three intervals, on a lost carrier, and on a change of SRC_SEL or MODE; a bad frame leaves it. -/
def State.refTimeout (s : State) (carrier : Bool) : State :=
  let s0 := if carrier ∧ s.rd R.IRIG_CTRL_MODE = 2 then (s.wr R.IRIG_STAT_CARRIER 0).wr R.IRIG_STAT_VALID 0 else s
  let s1 := if !carrier ∧ s.rd R.BEAT_CTRL_SRC_SEL = 2 then s0.wr R.IRIG_STAT_VALID 0 else s0
  let lock := s.rd R.BEAT_STAT_LOCK
  let applies := !carrier || (s.rd R.BEAT_CTRL_SRC_SEL == 2 && s.rd R.IRIG_CTRL_MODE == 2)
  if s.servoOn ∧ applies ∧ (lock = lockAcquiring ∨ lock = lockLocked) then s1.setLock lockHoldover else s1

/-- R30: the nanosecond field wraps: clock time reaches the wrap, the TAI epoch advances by 2^56 ns. -/
def State.epochAdvance (s : State) : State :=
  let next : Int := ((s.beat.wraps + 1 : Nat) : Int) * wrapU - s.beat.off
  let s1 := { s with time := max s.time next }
  let s2 := (s1.onBeat (fun z => { z with wraps := z.wraps + 1 })).setEpochTai (s.epochTai + 72057594037927936)
  s2.disc 5 s2.packNow s2.packNow 0 0

/-- R57: a calibration window ends. -/
def State.aonCalibration (s : State) (tick : BitVec 31) : State :=
  if s.bit R.BEAT_STAT_RUNNING ∧ s.rd R.BEAT_STAT_LOCK ≠ lockHoldover then
    (s.wr R.AON_CAL_TICK tick.toNat).wr R.AON_CAL_VALID 1 else s

/-- R60: the SLEEP_WAKE record goes to the journal once it accepts it, or to the host where it counts as not
configured; then the servo and alignment may act. -/
def State.servoResume (s : State) : State :=
  match s.beat.wakeRec with
  | none => s
  | some d =>
    let fin (t : State) : State := (t.onBeat (fun z => { z with wakeRec := none })).wr R.BEAT_STAT_DISC_PEND 0
    if s.discUnconfigured (discRec d) then fin ((s.discEvent d).set1 R.BEAT_INT_STAT_DISC)
    else if s.acceptsDisc (discRec d) then fin (s.emitDisc d)
    else s

/-! ### Capture (R32) -/

/-- A pack period in force (R53, R358): a staged period follows it unless a change of its own is staged. -/
def State.takePeriod (s : State) (pint pfrac : Nat) : State :=
  let s1 := (s.wrW R.PERIOD_ACT_INT pint).wrW R.PERIOD_ACT_FRAC pfrac
  if s.word R.PERIOD_INT = s.forceWord R.PERIOD_INT ∧ s.word R.PERIOD_FRAC = s.forceWord R.PERIOD_FRAC then
    let a := BitVec.ofNat 32 pint
    let b := BitVec.ofNat 32 pfrac
    (((s1.setWord R.PERIOD_INT a).setWord R.PERIOD_FRAC b).setForce R.PERIOD_INT a).setForce R.PERIOD_FRAC b
  else s1

/-- Latch a pack time and beat number into the capture registers. -/
def State.capture (s : State) (t : Int) (n : BitVec 48) : State :=
  let ns := nsOf (s.packAt t)
  (((((s.wrW R.TIME_CAP_FRAC (fracOf (s.packAt t))).wrW R.TIME_CAP_NS_LO ns).wrW R.TIME_CAP_NS_HI (ns / 4294967296)).wrW
    R.TIME_CAP_BEAT_LO n.toNat).wrW R.TIME_CAP_BEAT_HI (n.toNat / 4294967296)).wr R.TIME_CAP_CTRL_DONE 1

/-- A write of TIME_CAP_CTRL. -/
def State.timeCapture (s : State) (v : Reg32) : State :=
  let s1 := s.wr R.TIME_CAP_CTRL_EDGE (if v.getLsbD 1 then 1 else 0)
  if v.getLsbD 0 then
    let s2 := s1.wr R.TIME_CAP_CTRL_DONE 0
    if v.getLsbD 1 then s2.onBeat (fun z => { z with capEdge := true })
    else (s2.onBeat (fun z => { z with capEdge := false })).capture s.time s.beat.num
  else s1

/-! ### Start and stop (R33 to R35) -/

/-- The first edge of the present grid at or after an instant: its number and instant. -/
def State.gridFrom (s : State) (t : Int) : BitVec 48 × Int :=
  let p := s.periodU
  let k := max 1 ((t - s.beat.lastEdge + p - 1) / p)
  (s.beat.num + BitVec.ofInt 48 k, s.beat.lastEdge + k * p)

/-- The first edge of the first start since reset (R33). -/
def State.freshStart (s : State) (align : Bool) : BitVec 48 × Int :=
  let t := s.time + 20000 * nsU
  (BitVec.ofNat 48 (s.rdW R.BEAT_START_HI * 4294967296 + s.rdW R.BEAT_START_LO),
    if align ∧ s.bit R.BEAT_STAT_TAI_VALID then t + (-(s.taiAt t)) % secU else t)

/-- The beat starts (R33): the beat counts as running from the write. -/
def State.startBeat (s : State) (align : Bool) : State :=
  let first := if s.beat.everStarted then s.gridFrom (s.time + 20000 * nsU) else s.freshStart align
  (s.onBeat (fun z => { z with phase := .running, first := some first, everStarted := true })).wr R.BEAT_STAT_RUNNING 1

/-- R34: a member's edges start at the first pack edge. -/
def State.startMember (s : State) : State :=
  (s.onBeat (fun z => { z with phase := .running, first := some (s.gridFrom s.time), everStarted := true, startWait := false })).wr
    R.BEAT_STAT_RUNNING 1

/-- A write of BEAT_CTRL apart from RUN: ALIGN_SEC, and SRC_SEL where it changes. -/
def State.beatCtrlRest (s : State) (v : Reg32) : State :=
  let s1 := s.wr R.BEAT_CTRL_ALIGN_SEC (v.toNat / 2 ^ 30 % 2)
  let sel := v.toNat / 2 ^ 24 % 16
  if sel = s.rd R.BEAT_CTRL_SRC_SEL then s1 else s1.srcSelWrite sel

/-- A write of BEAT_CTRL with RUN = 1. -/
def State.beatRunStart (s : State) (v : Reg32) : State :=
  let s1 := s.beatCtrlRest v
  if s.beat.phase = .stopRamp ∨ s.beat.phase = .stopLast then s1
  else
    let s2 := (s1.wr R.BEAT_CTRL_RUN 1).servoStart
    if s.beat.phase = .running ∨ !s.domOn domSteward then s2
    else if s.leads then s2.startBeat (v.getLsbD 30)
    else if s.role = roleMember then s2.startMember
    else s2.onBeat (fun z => { z with startWait := true })

/-- The stop sequence begins (R35). -/
def State.stopBeat (s : State) : State :=
  if s.beat.phase = .running then (s.onBeat (fun z => { z with phase := .stopRamp })).wr R.BEAT_STAT_STOPPING 1
  else s.onBeat (fun z => { z with startWait := false })

/-- A write of BEAT_CTRL with RUN = 0. -/
def State.beatRunStop (s : State) (v : Reg32) : State := ((s.beatCtrlRest v).wr R.BEAT_CTRL_RUN 0).stopBeat

/-! ### Bertia time commands (R487) -/

/-- TIME_SET_TAI: EPOCH_TAI and TAI_UTC set, and a STEP_CMD record with the change of the epoch's TAI. -/
def State.timeSetTai (s : State) (sec ns utc : Nat) : Reply :=
  if !s.leads then .now stBadState [] s
  else if 1000000000 ≤ ns then .now stBadParam [] s
  else
    let new : Int := (sec * 1000000000 + ns : Nat)
    let s1 := ((s.setEpochTai new).wrW R.TAI_UTC utc).set1 R.BEAT_STAT_TAI_VALID
    .now stOk [] (s1.freeNext.disc 2 s.packNow s.packNow (new - s.epochTai) s1.freeVal)

/-- TIME_STEP: a step at the next edge. -/
def State.timeStep (s : State) (step : BitVec 64) : Reply :=
  if !s.leads then .now stBadState [] s
  else if 36028797018963968 ≤ step.toInt.natAbs then .now stBadParam [] s
  else .now stOk [] (s.onBeat (fun z => { z with pendStep := some (step.toInt * nsU, 2) }))

/-- PPS_SECOND: names the first pulse accepted at least 1 ms after the command; one already waiting gives way. -/
def State.ppsSecond (s : State) (ch sec : Nat) : Reply :=
  let s1 := match s.beat.ppsSec with
    | some (_, _, c) => s.complete c stNotFound []
    | none => s
  .later (s1.onBeat (fun z => { z with ppsSec := some (sec, s.time + 1000000 * nsU, ch) }))

/-- Is a PTP configuration within R487's ranges? -/
def ptpOk (c : PtpConfig) : Bool :=
  let rng (o : Octet) (lo hi : Int) : Bool := decide (lo ≤ o.toInt) && decide (o.toInt ≤ hi)
  decide (c.profile.toNat ≤ 1) && decide (c.transport.toNat ≤ 2) && decide (c.domain.toNat ≤ 127) && decide (c.flags.toNat < 4)
    && rng c.logSync (-7) 1 && rng c.logAnnounce (-3) 4 && rng c.logDelayReq (-7) 5

/-- PTP_STATUS data: the port state of IEEE 1588 is open here. -/
def State.ptpStatusData (s : State) : List Octet :=
  le 1 (s.freeVal % 10) ++ le 3 0 ++ le 8 (toSigned 64 s.host.ptpOffset) ++ le 8 (s.host.ptpDelay / 4) ++ le 8 s.host.ptpGm.toNat
    ++ le 2 s.host.ptpSteps ++ le 2 ((s.host.ptpUtc.map (·.toNat)).getD 0) ++ le 1 (if s.host.ptpUtc.isSome then 1 else 0) ++ le 3 0

end Sys2Proof.Machine
end

