-- ==== Sys2Proof/Machine/FabOps.lean ====
section
/-! DEFINITION. The pack (11): port states, authentication, addresses, the database, election, the timing tree. -/

namespace Sys2Proof.Machine

open Sys2Proof

/-- Update a fabric port. -/
def State.onFp (s : State) (p : Nat) (f : FPort → FPort) : State := s.setFport p (f (s.fport p))

def State.setFpState (s : State) (p n : Nat) : State := s.wr (R.FP_STAT_STATE p) n

/-- The database with this node's record as it now stands. -/
def State.liveDb (s : State) : List Lsr :=
  s.ownRecord :: (s.fab.lsdb.map (·.1)).filter (fun r => r.serial ≠ Config.serial)

/-- The segment of this node (R351). -/
def State.segment (s : State) : List Lsr := segmentOf s.liveDb Config.serial

/-- Is any port UP? -/
def State.anyUp (s : State) : Bool := fabPorts.any s.fpUp

/-! ### Addresses (R347, R348) -/

/-- The claim of try k. -/
def claimAddr (k : Nat) : Nat := (crc32 (le 8 Config.serial.toNat) % 4095 + k) % 4095 + 1

/-- Is the node STRAPPED? -/
def State.strapped (s : State) : Bool := s.rd R.NODE_ADDR_NODE_ID != 0

/-- Bring ADDR and ADDR_STATE up to date with straps, conflict and links. -/
def State.fixAddr (s : State) : State :=
  let set (a st : Nat) : State := (s.wr R.NODE_ADDR_ADDR a).wr R.PACK_STAT_ADDR_STATE st
  if s.strapped then (if s.fab.conflict then set 0 3 else set (s.rd R.NODE_ADDR_NODE_ID) 2)
  else if s.anyUp then set (claimAddr s.fab.try_) (if s.fab.confirmed then 2 else 1)
  else set 0 0

/-- Records that hold this node's address and keep it against this node (R348). -/
def State.addrLost (s : State) : Bool :=
  s.ownAddr != 0 && s.fab.lsdb.any (fun e => e.1.serial != Config.serial && e.1.addr.toNat == s.ownAddr
    && (if s.strapped then e.1.strapped && decide (e.1.serial < Config.serial)
        else e.1.strapped || decide (e.1.serial < Config.serial)))

/-- R348: give up the address while a record keeps it, at most n times. -/
def State.resolveAddr (p : Nat) : Nat → State → State
  | 0, s => s
  | n + 1, s =>
    if !s.addrLost then s
    else
      let old := s.ownAddr
      let s1 := (s.set1 (R.FP_EVT_ADDR p)).witness 5 old
      let s2 := (s1.onFab (fun z => if s.strapped then { z with conflict := true }
        else { z with try_ := (z.try_ + 1) % 4095, confirmed := false })).fixAddr
      let s3 := if s.rd R.PACK_STAT_ADDR_STATE = 2 then s2.hostEvent 0x0023 2 (le 2 old ++ le 2 s2.ownAddr) else s2
      State.resolveAddr p n s3

/-! ### Roles and election (R354 to R356) -/

/-- R39: a MEMBER loses the pack beat: LOCK reads HOLDOVER, and with no source it does so also where the node is then ALONE. -/
def State.losesBeat (s : State) : State :=
  ((s.onBeat (fun z => { z with parentLost := true })).onFab (fun z => { z with alignCnt := 0 })).setLock lockHoldover

/-- R39: a master is elected, or the node is aligned anew (the latter DEDUCED, log 12): the holdover ends. -/
def State.regainsBeat (s : State) : State :=
  if s.beat.parentLost then
    (s.onBeat (fun z => { z with parentLost := false })).setLock (if s.rd R.BEAT_CTRL_SRC_SEL = 0 then lockFree else lockAcquiring)
  else s

/-- The timing parent changes. -/
def State.setParent (s : State) (p : Option Nat) : State :=
  let s1 := fabPorts.foldl (fun t q => t.wb (R.FP_STAT_PARENT q) (p == some q)) s
  let s2 := (s1.wb R.PACK_STAT_PARENT_VALID p.isSome).wr R.PACK_STAT_PARENT (p.getD 0)
  if s.fab.parent = p then s2 else s2.onFab (fun z => { z with parent := p, alignCnt := 0, edges := 0 })

/-- R356: ROLE changes, with what waited for it. A node that is no longer aligned drops the VL0 frames it holds (R381). -/
def State.setRole (s0 : State) (r : Nat) : State :=
  let old := s0.role
  if old = r then s0
  else
    let s := if r = roleMaster ∨ r = roleMember then s0 else s0.dropHeld (fun _ => true)
    let s1 := (s.wr R.BEAT_STAT_ROLE r).wr R.BEAT_STAT_SRC_ACT (if r = roleAlone ∨ r = roleMaster then s.rd R.BEAT_CTRL_SRC_SEL else 0)
    let s2 := if r = roleMember then s1 else s1.wr R.PACK_STAT_DEPTH (if r = roleMaster then 0 else 63)
    if r = roleAlone ∨ r = roleMaster then
      let s3 := s2.setParent none
      let s4 := if s3.rd R.BEAT_CTRL_SRC_SEL = 0 then (if s3.beat.parentLost then s3 else s3.setLock lockFree)
        else if old = roleMember ∨ old = roleJoining then s3.servoStart else s3
      if s4.beat.startWait ∧ s4.beat.phase = .stopped then
        (s4.onBeat (fun z => { z with startWait := false })).startBeat (s4.bit R.BEAT_CTRL_ALIGN_SEC) else s4
    else if r = roleMember ∧ s2.beat.startWait ∧ s2.beat.phase = .stopped then s2.startMember
    else s2

/-- The election key (PRIO, QUAL, SERIAL). -/
def electKey (r : Lsr) : Nat := (r.prio.toNat * 256 + r.qual.toNat) * 2 ^ 64 + r.serial.toNat

/-- The record with the lowest key. -/
def lowest (l : List Lsr) : Option Lsr :=
  l.foldl (fun a r => match a with
    | none => some r
    | some x => if electKey r < electKey x then some r else some x) none

/-- R355: the master of a segment. -/
def masterOf (seg : List Lsr) : Option Lsr :=
  let cands := seg.filter (fun r => r.prio ≠ 0xFF)
  let inc := cands.filter (fun r => r.master && r.running)
  lowest (if inc.isEmpty then cands else inc)

/-- R355, rule 2: who has displaced the incumbent and whose record does not say so yet. -/
def State.heirIn (s : State) (seg : List Lsr) : Option Lsr :=
  match s.fab.heir.bind (recOf seg) with
  | some b => if b.running && b.prio != 0xFF && !b.master then some b else none
  | none => none

/-- The master of this node's segment (R355). -/
def State.electedMaster (s : State) : Option Lsr :=
  if s.anyUp then (match s.heirIn s.segment with
    | some b => some b
    | none => masterOf s.segment)
  else none

/-- The elected master is recorded, and a change counted and reported. A new master's GRID, where its record has one, is adopted at
the next edge (R358); the holdover of R39 ends. -/
def State.setMaster (s : State) (m : Option Lsr) : State :=
  let ser := m.map (·.serial)
  let w (t : State) : State :=
    let x := (ser.getD 0).toNat
    (((((t.wr R.MASTER_ADDR_PRIO ((m.map (·.prio.toNat)).getD 0)).wr R.MASTER_ADDR_QUAL ((m.map (·.qual.toNat)).getD 0)).wr
      R.MASTER_ADDR_ADDR ((m.map (·.addr.toNat)).getD 0)).wrW R.MASTER_SER_LO x).wrW R.MASTER_SER_HI (x / 4294967296))
  if s.fab.master = ser then w s
  else
    let s1 := w (s.onFab (fun z => { z with master := ser }))
    let s2 := (s1.inc R.ELECT_CNT_V).hostEvent 0x0022 2 (le 8 (ser.getD 0).toNat ++ le 2 ((m.map (·.addr.toNat)).getD 0))
    match m with
    | some r => (s2.onFab (fun z => { z with newGrid := if r.serial = Config.serial then none else r.grid })).regainsBeat
    | none => s2

/-- The role that follows from a master (R356). -/
def State.roleFor (s : State) (m : Option Lsr) : Nat :=
  if !s.anyUp then roleAlone
  else match m with
    | none => roleJoining
    | some r => if r.serial = Config.serial then roleMaster
        else if s.role = roleMember ∧ s.fab.parent.isSome then roleMember else roleJoining

/-- R355: elect. -/
def State.elect (s : State) : State :=
  let m := s.electedMaster
  ((s.onFab (fun z => { z with heir := if (s.heirIn s.segment).isSome then z.heir else none })).setMaster m).setRole (s.roleFor m)

/-- R345: members that now have a two-way adjacency arrive. -/
def State.arrivals (s : State) : State :=
  s.segment.foldl (fun t r =>
    if r.serial = Config.serial ∨ t.fab.arrived.contains r.serial then t
    else (t.onFab (fun z => { z with arrived := z.arrived ++ [r.serial] })).hostEvent 0x0020 2 (le 8 r.serial.toNat ++ le 2 r.addr.toNat)) s

/-- R349: the node's record is issued anew where it has changed; by the steward, so not while it is in reset. -/
def State.refreshOwn (s : State) : State :=
  let r := s.ownRecord
  if !s.stewardUp || s.fab.lsdb.any (fun e => e.1 = r) then s else s.issueRecord

/-- After a change of links or records: address, election, arrivals, the own record. -/
def State.packUpdate (s : State) : State :=
  let s1 := s.fixAddr.elect.arrivals
  let s2 := s1.refreshOwn
  (s2.wr R.NODES_V s2.fab.lsdb.length).wb R.PACK_STAT_FENCED (fabPorts.any (fun p => s2.fpState p == fpFenced))


/-- R349: while the steward is in reset, the fabric block reissues the node's last record. -/
def State.reissue (s : State) : State :=
  match s.fab.lsdb.find? (fun e => e.1.serial = Config.serial) with
  | some e =>
    let n := (s.fab.seq + 1) % 4294967296
    let r : Lsr := { e.1 with seq := BitVec.ofNat 32 n }
    (s.onFab (fun z => { z with
      seq := n
      lsdb := (r, s.time) :: z.lsdb.filter (fun x => x.1.serial ≠ Config.serial) })).flood r none
  | none => s

/-! ### Leaving a link (R343, R373) -/

/-- R373: frames not acknowledged when a port leaves UP are routed again. -/
def State.reroute (s : State) (p : Nat) : State :=
  let fs := ([3, 2, 1].map (fun vl => (s.linkOf p vl).unacked.map (·.frame) ++ (s.linkOf p vl).waiting)).flatten
  let mine (h : HeldFrame) : Bool := (s.schedIn.any (fun e => e.1 = h.entry ∧ e.2.port.toNat = p))
  let s1 := (s.onFp p (fun x => { x with vls := [] })).onFab (fun z => { z with held := z.held.filter (fun h => !mine h) })
  fs.foldl (fun t f =>
    if f.dst = 0 then t
    else match f.load with
      | .fault r => t.takeReport { r with dst := f.dst }
      | _ => if f.dst = 0xFFFF then t.broadcast f (some p) else t.routeFrame f) s1

/-- The timing parent's port leaves UP: a MEMBER loses the pack beat (R39). -/
def State.parentGone (s : State) (p : Nat) : State :=
  if s.fab.parent = some p then
    let s1 := s.setParent none
    if s.role = roleMember then s1.losesBeat else s1
  else s

/-- The lock of a port ends: LOCK, GEN_ACT and the delay with it. -/
def State.fpUnlock (s : State) (p : Nat) : State :=
  ((s.wr (R.FP_STAT_LOCK p) 0).wr (R.FP_STAT_GEN_ACT p) 0).wr (R.FP_DELAY_VALID p) 0

/-- A port leaves its link for state n: keys, frames, parent; for TRAINING the departure of R343. A refused port keeps its lock and
what it knows of its peer. The node's record goes out anew (R349). -/
def State.fpLeave (s : State) (p n : Nat) : State :=
  let old := s.fpState p
  let x := s.fport p
  let peer := (x.peer.map (·.addr.toNat)).getD 0
  let was := decide (old = fpSync ∨ old = fpUpSt ∨ old = fpFenced)
  let s0 := (((s.setFpState p n).wr (R.FP_STAT_ENC p) 0).wr (R.FP_STAT_AUTHED p) 0).wr (R.FP_STAT_UPLINK p) 0
  let s1 := if n = fpRefused then s0 else s0.fpUnlock p
  let s2 := if was ∧ n = fpTraining then (s1.set1 (R.FP_EVT_DEPART p)).inc (R.FP_LINKDN_V p) else s1
  let s3 := if old = fpUpSt then (s2.reroute p).witness 1 peer else s2
  let s4 := s3.setFport p (if n = fpRefused then { peer := x.peer, heard := x.heard, nonce := x.nonce, dreq := x.dreq, dreqTag := x.dreqTag, dreqSum := x.dreqSum } else {})
  let s5 := (s4.parentGone p).packUpdate
  if was && s5.stewardUp && s5.fab.seq == s.fab.seq then s5.issueRecord else s5

/-- R343: a port enters REFUSED. -/
def State.fpRefuse (s : State) (p reason : Nat) : State :=
  let s2 := ((s.fpLeave p fpRefused).wr (R.FP_STAT_REASON p) reason).set1 (R.FP_EVT_REFUSED p)
  (s2.selfFault 0x0108 p (le 1 p ++ le 1 reason))

/-- A link goes on to SYNC: its numbering starts, and the whole database is sent, then SYNC_DONE (R343, R372). -/
def State.fpSyncIn (s : State) (p : Nat) : State :=
  let s1 := (s.setFpState p fpSync).onFp p (fun x => { x with vls := [] })
  (s1.liveDb.foldl (fun t r => t.sendMsg p (lsrOctets r)) s1).sendMsg p syncDoneOctets

/-- Is the kennel ready to authenticate links: OPERATIONAL with JOIN (R441, R443)? -/
def State.joinOk (s : State) : Bool := s.rd R.KN_STAT_STATE == 3 && s.bit R.KN_STAT_JOIN

/-- Is encryption required on a port: ENC_REQ on either side (R361)? -/
def State.encReq (s : State) (p : Nat) : Bool :=
  s.bit R.PACK_CTRL_ENC_REQ || ((s.fport p).peer.map (·.encReq)).getD false

/-- R346, step 1: authentication starts: the certificate chain is sent. -/
def State.authStart (s : State) (p : Nat) : State :=
  if !s.joinOk then s.fpRefuse p 1
  else (s.onFp p (fun x => { x with certOk := false, sigOk := false })).emit (.fabric p .authCert)

/-- A generate request of the DRBG, which reseeds after 65,536 of them (R436). -/
def State.useDrbg (s : State) : State := s.onKn (fun z => { z with drbgUse := (z.drbgUse + 1) % 65536 })

/-- R346, step 3: an ephemeral key of the DRBG (R436), and AUTH_SIG. -/
def State.sendAuthSig (s : State) (p : Nat) : State :=
  (s.freeNext.onFp p (fun x => { x with certOk := true, eph := s.freeVal })).useDrbg.emit (.fabric p .authSig)

/-- A fresh nonce from the kennel's DRBG (R344, R436). -/
def State.newNonce (s : State) (p : Nat) : State :=
  (s.freeNext.onFp p (fun x => { x with nonce := some s.freeVal })).useDrbg

/-- R357: 16 DREQ blocks. -/
def State.sendDreqs (s : State) (p : Nat) : State :=
  let t0 := (s.fport p).dreqTag
  let tags := (List.range 16).map (fun i => (t0 + i) % 65536)
  let s1 := s.onFp p (fun x => { x with dreq := tags, dreqSum := 0, dreqTag := (t0 + 16) % 65536 })
  tags.foldl (fun t g => t.emit (.fabric p (.block (dreqWord g)))) s1

/-- Is a port in HELLO or a later state (R343, R357)? REFUSED is one of them: HELLO and delay measurement go on in it (DESIGN CHOICE,
log 12). -/
def State.fpTalks (s : State) (p : Nat) : Bool := decide (2 ≤ s.fpState p)

/-- FP_CTRL.LOOP: the receiver takes what the port itself sends, and hears no peer (R363). -/
def State.fpLoop (s : State) (p : Nat) : Bool := s.bit (R.FP_CTRL_LOOP p)

/-- FP_CTRL.EN written. -/
def State.fpEnable (s : State) (p : Nat) (en : Bool) : State :=
  let s1 := s.wb (R.FP_CTRL_EN p) en
  if en then (if s.fpState p = fpOff ∧ s.domOn (domFabric p) then (s1.setFport p {}).setFpState p fpTraining else s1)
  else if s.fpState p = fpOff then s1 else s1.fpLeave p fpOff

/-- The generation a port in TRAINING tries: 1 G1, 2 G2 (R340). -/
def State.fpTries (s : State) (p : Nat) : Nat :=
  let g := s.rd (R.FP_CTRL_GEN_SEL p)
  if g = 1 ∨ g = 2 then g else if (s.fport p).genTry then 1 else 2

/-- R343: codeword lock and deskew. -/
def State.fpLock (s : State) (p gen : Nat) : State :=
  if s.fpState p = fpTraining ∧ gen = s.fpTries p then
    (((((s.setFpState p fpHello).wr (R.FP_STAT_GEN_ACT p) gen).wr (R.FP_STAT_LOCK p) 1).wr (R.FP_STAT_REASON p) 0).newNonce p).sendDreqs p
  else s

/-- R362: HELLOs missed since the last one, at 10 ms each; a third one missed is HELLO_TIMEOUT's. -/
def State.hellosMissed (s : State) (p : Nat) : Nat :=
  match (s.fport p).heard with
  | some t => min 2 (((s.time - t + 5000000 * nsU) / (10000000 * nsU)).toNat - 1)
  | none => 0

/-- The peer of a HELLO is noted, with the HELLOs missed before it. -/
def State.notePeer (s : State) (p : Nat) (m : HelloMsg) : State :=
  (((((s.satAdd (R.FP_HELLO_LOSS_V p) (s.hellosMissed p)).onFp p (fun x => { x with peer := some m, heard := some s.time })).wrW (R.FP_PEER_SER_LO p) m.serial.toNat).wrW (R.FP_PEER_SER_HI p)
    (m.serial.toNat / 4294967296)).wr (R.FP_PEER_ADDR p) m.addr.toNat).wr (R.FP_PEER_PORT p) m.port.toNat

/-- The running master's record of a segment. -/
def runningMaster (seg : List Lsr) : Option Lsr := (masterOf (seg.filter (fun r => r.master && r.running)))

/-- R360, third condition: do the edges of equal number lie within 1 us? The last EDGE seen on the port, less the link's delay,
against this node's own edge of that number; where there is none to compare, the answer is open (log 12). -/
def State.edgesNear (s : State) (p : Nat) : Bool :=
  match (s.fport p).edge with
  | some (_, n, t) =>
    if s.beat.phase != .stopped && s.beat.first.isNone then
      let d2 : Int := 2 * (s.rd (R.FP_DELAY_DELAY p) : Int) - ofSigned 32 (s.rdW (R.FP_ASYM p))
      let e := t - d2 * 45035996273704960 - (s.beat.lastEdge + (n - s.beat.num).toInt * s.periodU)
      decide ((e.natAbs : Int) ≤ 1000 * nsU)
    else s.freeVal % 2 == 0
  | none => s.freeVal % 2 == 0

/-- R360: do the segments joined by port p merge? -/
def State.merges (s : State) (p : Nat) : Bool :=
  match (s.fport p).peer with
  | none => true
  | some h =>
    let db := s.liveDb
    match runningMaster (segmentOf db Config.serial), runningMaster (segmentOf db h.serial) with
    | some a, some b => a.serial == b.serial ||
        (match a.grid, b.grid with
          | some x, some y => x.pint == y.pint && x.pfrac == y.pfrac && x.epoch == y.epoch && s.edgesNear p
          | _, _ => false)
    | _, _ => true

/-- R360: a port is fenced. -/
def State.fence (s : State) (p : Nat) : State :=
  let was := s.fpState p = fpUpSt
  let s1 := ((s.setFpState p fpFenced).set1 (R.FP_EVT_FENCED p)).wr (R.FP_STAT_UPLINK p) 0
  let s2 := if was then (s1.reroute p).witness 1 (((s.fport p).peer.map (·.addr.toNat)).getD 0) else s1
  ((s2.parentGone p).hostEvent 0x0024 2 (le 1 p)).packUpdate

/-- Both databases are exchanged: the port enters UP, the node's address meets the records it holds (R347, R348), and the delay is
measured (R357); or the port is fenced. -/
def State.fpGoUp (s0 : State) (p : Nat) : State :=
  if s0.fpState p ≠ fpSync then s0
  else
    let s := s0.freeNext
    if !s0.merges p then s.fence p
    else
      let s1 := State.resolveAddr p 4096 (((s.setFpState p fpUpSt).set1 (R.FP_EVT_ARRIVE p)).fixAddr)
      s1.packUpdate.sendDreqs p

/-- Has the peer's segment a running master, by its HELLO and the database (R360)? -/
def State.peerRuns (s : State) (m : HelloMsg) : Bool :=
  m.mserial != 0 && (if m.mserial = m.serial then m.running else match s.fab.lsdb.find? (fun e => e.1.serial = m.mserial) with
    | some e => e.1.running
    | none => m.running)

/-- A HELLO received (R343, R344, R360). -/
def State.hello (s : State) (p : Nat) (m : HelloMsg) : State :=
  if !s.fpTalks p then s
  else if ((s.fport p).peer.map (fun h => h.serial != m.serial)).getD false then s.fpLeave p fpTraining
  else
    let s1 := s.notePeer p m
    if s.fpState p = fpRefused then s1
    else if m.serial = Config.serial then s1.fpRefuse p 4
    else if m.ver ≠ 1 then s1.fpRefuse p 3
    else if s.fpState p = fpHello then
      if s1.encReq p ∧ !m.encCap then s1.fpRefuse p 2
      else if s.bit R.PACK_CTRL_AUTH_REQ ∨ s.bit R.PACK_CTRL_ENC_REQ ∨ m.authReq ∨ m.encReq then (s1.setFpState p fpAuth).authStart p
      else s1.fpSyncIn p
    else if s.fpState p = fpFenced ∧ (!s.peerRuns m ∨ (runningMaster s.segment).isNone) then (s1.fpSyncIn p).packUpdate
    else s1

/-- A message that a row of its own brings came as the next VL2 frame of the link: it is taken in order and its credits are freed.
Before SYNC, and in SYNC before the first numbered frame, the peer numbers nothing (log 12). -/
def State.msgTook (s : State) (p n : Nat) : State :=
  let l := s.linkOf p 2
  if s.fpUp p || (s.fpState p == fpSync && l.expect != 0) then
    (s.setLink p 2 { l with expect := l.expect + 1, nak := false
                            freed := l.freed + BitVec.ofNat 16 (frameCredits (n + (if s.bit (R.FP_STAT_ENC p) then 16 else 0))) }).inc (R.RX_BE_V p)
  else s

/-- R448: the keys of a port's link, of what it sends and receives: z is the ECDH result, and the lower SERIAL comes first. -/
def State.portKeys (s : State) (p : Nat) (h : HelloMsg) (z : List Octet) : LinkKey × LinkKey :=
  let me := (Config.serial, BitVec.ofNat 128 ((s.fport p).nonce.getD 0), BitVec.ofNat 8 p)
  let you := (h.serial, h.nonce, h.port)
  if Config.serial < h.serial then linkKeys me you z else (linkKeys you me z).swap

/-- R361: the kennel loads the keys; the port sends under the new one from the next frame on. -/
def State.loadKeys (s : State) (p : Nat) (peerKey : List Octet) : State :=
  match (s.fport p).peer with
  | some h =>
    let k := s.portKeys p h (le 48 (Config.ecdhX (s.fport p).eph peerKey).toNat)
    (s.onFp p (fun x => { x with tx := some k.1, rx := some k.2, rxOld := x.rx })).wr (R.FP_STAT_ENC p) 1
  | none => s

/-- R346: both halves of an authentication have verified: keys are loaded where the link is to be encrypted, and the ephemeral key
goes (R447); a re-key ends, else SYNC follows. -/
def State.authEnd (s : State) (p : Nat) (peerKey : List Octet) : State :=
  let s1 := s.wr (R.FP_STAT_AUTHED p) 1
  let s2 := (if s.encReq p then s1.loadKeys p peerKey else s1).onFp p (fun x => { x with eph := 0 })
  if s.fpState p = fpAuth then s2.fpSyncIn p else s2.onFp p (fun y => { y with rekey := false })

/-- Is an authentication under way on a port? -/
def State.authing (s : State) (p : Nat) : Bool := s.fpState p == fpAuth || (s.fport p).rekey

/-- Is the peer on the admission list, where one is loaded (R346)? -/
def State.admitted (s : State) (p : Nat) : Bool :=
  match s.kn.admitted with
  | none => true
  | some l => l.contains (((s.fport p).peer.map (·.serial.toNat)).getD 0)

/-- AUTH_CERT: the peer's chain verifies or not (R346, step 2); the node's own signature follows. -/
def State.authCert (s : State) (p : Nat) (ok : Bool) : State :=
  if !s.authing p then s
  else if !ok ∨ !s.joinOk ∨ !s.admitted p then s.fpRefuse p 1
  else if (s.fport p).certOk then s
  else s.sendAuthSig p

/-- AUTH_SIG (R346, step 4): tested only against a chain that has verified. -/
def State.authSig (s : State) (p : Nat) (m : AuthSig) : State :=
  if !s.authing p ∨ !(s.fport p).certOk then s
  else if !m.ok ∨ !s.joinOk then s.fpRefuse p 1
  else (s.onFp p (fun x => { x with sigOk := true })).authEnd p m.key

/-- R361: a port that encrypts starts a new authentication. -/
def State.rekey (s : State) (p : Nat) : State :=
  if s.fpUp p ∧ s.bit (R.FP_STAT_ENC p) then (s.onFp p (fun x => { x with rekey := true })).authStart p else s

/-- R361: a port re-keys after 2^40 frames under one key. -/
def State.keysWorn (s : State) (p : Nat) : Bool :=
  !(s.fport p).rekey && s.fpUp p && (((s.fport p).tx.map (fun k => decide (2 ^ 40 ≤ k.count))).getD false)

/-- R349, R355, R361: what a command has changed in the node's record goes out at once, and the segment elects on it; a port whose
key is worn out re-keys. -/
def State.packSettle (s : State) : State :=
  let s1 := if s.stewardUp && fabPorts.any s.fpLive && !s.fab.lsdb.any (fun e => e.1 = s.ownRecord) then s.packUpdate else s
  match fabPorts.find? s1.keysWorn with
  | some p => s1.rekey p
  | none => s1

/-- R449, R453, R455: link keys are zeroized: every port that encrypts leaves UP; an authentication fails. -/
def State.dropLinkKeys (s : State) : State :=
  fabPorts.foldl (fun t p =>
    if t.authing p then (t.fpRefuse p 1).onFp p (fun x => { x with eph := 0 })
    else if t.bit (R.FP_STAT_ENC p) then t.fpLeave p fpTraining else t) s

/-! ### The database (R349) -/

/-- Is sequence number a later than b, modulo 2^32? -/
def laterSeq (a b : Reg32) : Bool := a != b && decide ((a - b).toNat < 2147483648)

/-- Is a received record taken? -/
def State.takesRecord (s : State) (r : Lsr) : Bool :=
  r.serial != Config.serial &&
  (match s.fab.lsdb.find? (fun e => e.1.serial = r.serial) with
    | some e => laterSeq r.seq e.1.seq
    | none => decide (s.fab.lsdb.length < 4095))

/-- Every port whose link joins segments that cannot merge is fenced (R360). -/
def State.fenceCheck (s : State) : State :=
  (fabPorts.foldl (fun t p => if t.fpLive p && !t.merges p && (t.fport p).peer.isSome then t.fence p else t) s).freeNext

/-- LINK_STATE_RECORD. -/
def State.lsrIn (s : State) (p : Nat) (r : Lsr) : State :=
  if !s.fpLive p ∨ !s.takesRecord r then s
  else
    let s1 := s.onFab (fun z => { z with lsdb := z.lsdb.filter (fun e => e.1.serial ≠ r.serial) ++ [(r, s.time)], dirty := true })
    let s2 := (s1.flood r (some p)).packUpdate
    let s3 := (State.resolveAddr p 4096 s2).fenceCheck.packUpdate
    if !s3.leads ∧ s3.fab.master = some r.serial ∧ r.grid.isSome then s3.onFab (fun z => { z with newGrid := r.grid }) else s3

/-- A message of this chapter from the neighbour (R343). The kennel's finding on AUTH_CERT and AUTH_SIG comes by rows of its own. -/
def State.chapterMsg (s : State) (p : Nat) (o : List Octet) : State :=
  let c := octNum o 0 2
  if c = 0x0101 then s.hello p (parseHello o)
  else if c = 0x0104 then s.lsrIn p (parseLsr o)
  else if c = syncDoneCode then s.fpGoUp p
  else s

/-- LSR_AGE_OUT: a record not refreshed leaves; a member departs (R345, R390). -/
def State.lsrAgeOut (s : State) (ser : BitVec 64) : State :=
  match s.fab.lsdb.find? (fun e => e.1.serial = ser) with
  | none => s
  | some e =>
    if ser = Config.serial then s
    else
      let s1 := s.onFab (fun z => { z with
        lsdb := z.lsdb.filter (fun x => x.1.serial ≠ ser)
        dirty := true
        arrived := z.arrived.filter (· ≠ ser) })
      let s2 := (s1.hostEvent 0x0021 2 (le 8 ser.toNat ++ le 2 e.1.addr.toNat)).witness 2 e.1.addr.toNat
      s2.packUpdate

/-- ADDR_CONFIRM (R347). -/
def State.addrConfirm (s : State) : State :=
  if s.anyUp ∧ s.rd R.PACK_STAT_ADDR_STATE = 1 ∧ !s.fab.lsdb.any (fun e => e.1.serial != Config.serial && e.1.addr.toNat == s.ownAddr) then
    (s.onFab (fun z => { z with confirmed := true })).packUpdate
  else s

/-- ROUTE_COMPUTE (R352, R353): the whole table is installed in one step. -/
def State.routeCompute (s : State) : State :=
  if !s.stewardUp ∨ !s.fab.dirty then s
  else
    let g := graphOf s.segment
    let gen := (s.rdW R.ROUTE_GEN + 1) % 4294967296
    let me := s.ownRecord
    let table := g.db.foldl (fun m d => if d.addr = 0 ∨ 4095 < d.addr.toNat then m
      else mset (fun _ => 0) m d.addr.toNat (g.entry me d gen)) ([] : SMap Long)
    let s1 := (s.onFab (fun z => { z with routes := table, dirty := false })).wrW R.ROUTE_GEN gen
    let s2 := s1.wr R.ROOT_ADDR_V (((rootOf g.db).map (·.addr.toNat)).getD 0)
    fabPorts.foldl (fun t p => t.wb (R.FP_STAT_UPLINK p) ((adj g.db me).any (fun e => e.1.lport.toNat == p && g.isUp e.2 me))) s2

/-- MASTER_HANDOVER (R355, rule 2): a running, aligned candidate with a lower (PRIO, QUAL) displaces the incumbent. -/
def State.masterHandover (s : State) : State :=
  let seg := s.segment
  match seg.find? (fun r => s.fab.master = some r.serial) with
  | none => s
  | some m =>
    match lowest (seg.filter (fun r => r.prio ≠ 0xFF && r.running && r.aligned && decide (electKey r / 2 ^ 64 < electKey m / 2 ^ 64))) with
    | none => s
    | some b =>
      let s1 := (s.onFab (fun z => { z with heir := some b.serial })).setMaster (some b)
      (s1.setRole (s1.roleFor (some b))).refreshOwn

/-! ### Delay and the timing tree (R357, R358) -/

/-- DRESP: one of the 16 samples; the sixteenth writes FP_DELAY. -/
def State.dresp (s : State) (p tag turn rt : Nat) : State :=
  let x := s.fport p
  if !x.dreq.contains tag then s
  else
    let sum := x.dreqSum + (rt - turn)
    let left := x.dreq.filter (· ≠ tag)
    let s1 := s.onFp p (fun y => { y with dreq := left, dreqSum := sum })
    if left.isEmpty then ((s1.wr (R.FP_DELAY_DELAY p) (sum / 32)).wr (R.FP_DELAY_VALID p) 1).toggle (R.FP_DELAY_TOG p) else s1

/-- Is the peer of port p ALIGNED: by its record, or where there is none by its HELLO? -/
def State.peerAligned (s : State) (p : Nat) : Bool :=
  match (s.fport p).peer with
  | some h => (match s.fab.lsdb.find? (fun e => e.1.serial = h.serial) with
      | some e => e.1.aligned
      | none => h.aligned)
  | none => false

/-- The port that R358 chooses as parent. -/
def State.bestParent (s : State) : Option Nat :=
  let cand := fabPorts.filter (fun p => s.fpUp p && s.bit (R.FP_CTRL_TIMING_OK p) && (s.fport p).edge.isSome && s.peerAligned p)
  let key (p : Nat) : Nat := (((s.fport p).edge.map (·.1.toNat)).getD 63) * 65536 + (((s.fport p).peer.map (·.addr.toNat)).getD 0)
  cand.foldl (fun a p => match a with
    | none => some p
    | some q => if key p < key q then some p else some q) none

/-- R358: RATE_ADJ from the interval since the parent's EDGE before: the rate at which the pack clock would have counted as many
periods over it as the parent's edges are apart. It is exact to 0.01 ppm, and within 16 beats of the first EDGE open within the
tracking range (log 12). -/
def State.trackRate (s : State) (old : Option (BitVec 6 × BitVec 48 × Int)) (n : BitVec 48) : State :=
  let s1 := s.onFab (fun z => { z with edges := z.edges + 1 })
  match old with
  | some (_, m, t) =>
    let span := (n - m).toInt * s.periodU
    let v := ofSigned 32 s.freeVal
    if s.time ≤ t ∨ span ≤ 0 then s1
    else
      let rate := (1099511627776 + ofSigned 32 (s.rdW R.RATE_ADJ)) * span / (s.time - t) - 1099511627776
      s1.freeNext.wrW R.RATE_ADJ (toSigned 32 (clampInt (-109951162) 109951162 (if s.fab.edges < 16 then v else rate + clampInt (-10995) 10995 v)))
  | none => s1

/-- EDGE_BLOCK: an EDGE is noted; a node that follows tracks its parent's rate. -/
def State.edgeBlock (s : State) (p : Nat) (depth : BitVec 6) (beat : BitVec 48) : State :=
  if !s.fpLive p then s
  else
    let s1 := s.onFp p (fun x => { x with edge := some (depth, beat, s.time) })
    if s.leads ∨ s.bit R.BEAT_STAT_DISC_PEND then s1
    else
      let s2 := if s1.fab.parent.isNone then s1.setParent s1.bestParent else s1
      if s2.fab.parent = some p then s2.trackRate (s.fport p).edge beat else s2

/-- R358: the GRID of the master goes into force: period, epoch, time of day; a change of pack time leaves a record. -/
def State.applyGrid (s : State) : State :=
  match s.fab.newGrid with
  | none => s
  | some g =>
    let s1 := ((((((s.onFab (fun z => { z with newGrid := none })).takePeriod g.pint.toNat g.pfrac.toNat).wrW R.EPOCH_TAI_SEC_LO g.taiSec.toNat).wrW R.EPOCH_TAI_SEC_HI (g.taiSec.toNat / 4294967296)).wrW R.EPOCH_TAI_NS
      g.taiNs.toNat).wrW R.TAI_UTC g.taiUtc.toNat).wb R.BEAT_STAT_TAI_VALID g.taiValid
    let want : Int := (g.epoch.toNat : Int) * 5497558138880 + (s1.beat.num.toNat : Int) * s1.periodU - s1.beat.lastEdge
    let d := centered (want - s.beat.off) wrapU
    if d = 0 then s1
    else
      (s1.onBeat (fun z => { z with off := z.off + d })).stepRec 1 s.packNow d

/-- R358: the phase error of the node's own edge n against its parent's, in units. -/
def State.phaseError (s : State) (target : Int) (n : BitVec 48) : Int :=
  s.beat.lastEdge + (n - s.beat.num).toInt * s.periodU - target

/-- R358: the grid moves: a step with a record, or at most 0.25 ns. -/
def State.steer (s : State) (target : Int) (n : BitVec 48) : State :=
  let e := s.phaseError target n
  if 2 ^ min (s.rd R.DISC_CTRL_STEP_EXP) 30 * nsU ≤ (e.natAbs : Int) then
    (s.onBeat (fun z => { z with
      num := n
      lastEdge := target
      first := z.first.map (fun _ => (n + 1, target + s.periodU))
      off := z.off + e })).stepRec 1 s.packNow e
  else
    let d := clampInt (-(nsU / 4)) (nsU / 4) e
    s.onBeat (fun z => { z with lastEdge := z.lastEdge - d, first := z.first.map (fun f => (f.1, f.2 - d)), off := z.off + d })

/-- R358: is the master's GRID in force here? -/
def State.gridOk (s : State) : Bool :=
  s.fab.newGrid.isNone && s.fab.lsdb.any (fun e => s.fab.master == some e.1.serial && e.1.grid.isSome)

/-- R358: is the node aligned to the parent on port p? Then it is MEMBER with its depth, or TOO_DEEP. A MEMBER whose edge lies
outside 1 ns, or whose parent is no longer aligned or measured, is JOINING. -/
def State.alignCheck (s : State) (p depth : Nat) : State :=
  let may := s.bit (R.FP_DELAY_VALID p) && s.peerAligned p
  if may && decide (8 ≤ s.fab.alignCnt) && s.gridOk then
    if 32 < depth + 1 then (s.wr R.PACK_STAT_TOO_DEEP 1).setRole roleJoining
    else ((((s.wr R.PACK_STAT_TOO_DEEP 0).setRole roleMember).wr R.PACK_STAT_DEPTH (depth + 1)).regainsBeat).refreshOwn
  else if s.role = roleMember ∧ (!may ∨ s.fab.alignCnt = 0) then (s.setRole roleJoining).refreshOwn
  else s

/-- TDATA: the offset completes the parent's EDGE (R358). -/
def State.tdata (s : State) (p offset : Nat) : State :=
  match (s.fport p).edge with
  | none => s
  | some (depth, n, t) =>
    if s.leads ∨ s.fab.parent ≠ some p ∨ s.bit R.BEAT_STAT_DISC_PEND then s
    else
      let d2 : Int := 2 * (s.rd (R.FP_DELAY_DELAY p) : Int) - ofSigned 32 (s.rdW (R.FP_ASYM p))
      let target := t - d2 * 45035996273704960 - (offset : Int) * 90071992547409920
      let e := s.phaseError target n
      let s1 := s.steer target n
      let s2 := s1.onFab (fun z => { z with alignCnt := if (e.natAbs : Int) ≤ nsU then z.alignCnt + 1 else 0 })
      let s3 := if s2.beat.phase = .stopped then s2.applyGrid else s2
      s3.alignCheck p depth.toNat

/-- PARENT_EDGE_TIMEOUT: a member whose parent's EDGE blocks stop runs in holdover (R39, R358). -/
def State.parentTimeout (s : State) : State :=
  match s.fab.parent with
  | some p => if s.leads then s else (s.onFp p (fun x => { x with edge := none })).losesBeat
  | none => s

/-- PARENT_SWITCH: a port with a DEPTH at least 2 lower takes over (R358). -/
def State.parentSwitch (s : State) : State :=
  match s.fab.parent, s.bestParent with
  | some p, some q =>
    let dep (x : Nat) : Nat := ((s.fport x).edge.map (·.1.toNat)).getD 63
    if dep q + 2 ≤ dep p then s.setParent (some q) else s
  | _, _ => s

/-! ### The rows -/

/-- A fabric row acts while the port's domain is on. -/
def State.fabRow (s : State) (p : BitVec 3) (f : Nat → State → State) : State := if s.domOn (domFabric p.toNat) then f p.toNat s else s

/-- FP_CTRL_EN (R343). -/
def execFpCtrlEn (p : BitVec 3) (en : Bool) (s : State) : Host.Outcome State Fault Refusal := done (s.fpEnable p.toNat en)

/-- FABRIC_GEN_WINDOW (R340). -/
def execFabricGenWindow (p : BitVec 3) (s : State) : Host.Outcome State Fault Refusal :=
  done (s.fabRow p (fun p t => if t.fpState p = fpTraining then t.onFp p (fun x => { x with genTry := !x.genTry }) else t))

/-- FABRIC_LOCK (R343). -/
def execFabricLock (p : BitVec 3) (gen : BitVec 2) (s : State) : Host.Outcome State Fault Refusal :=
  done (s.fabRow p (fun p t => t.fpLock p gen.toNat))

/-- A row that brings what the peer sends acts only while the port does not loop. -/
def State.peerRow (s : State) (p : BitVec 3) (f : Nat → State → State) : State :=
  s.fabRow p (fun p t => if t.fpLoop p then t else f p t)

/-- R339, R340, R362: lock is lost to 8 consecutive uncorrectable codewords, or to the deskew of the lanes; which, is open. -/
def State.lockLost (s : State) (p : Nat) : State :=
  let s1 := if s.freeVal % 2 = 0 then ((s.satAdd (R.FP_FEC_UNC_V p) 8).set1 (R.FP_EVT_FEC_UNC p)).whFault 7 else s
  s1.freeNext.fpLeave p fpTraining

/-- The HELLO of port p leaves (R344); with LOOP it comes back to the port itself. -/
def State.sendHello (s : State) (p : Nat) : State :=
  let s1 := s.sendMsg p (helloOctets (s.ownHello p))
  if s.fpLoop p then s1.hello p (s.ownHello p) else s1

/-- FABRIC_LOCK_LOSS (R343). -/
def execFabricLockLoss (p : BitVec 3) (s : State) : Host.Outcome State Fault Refusal :=
  done (s.fabRow p (fun p t => if t.fpTalks p then t.lockLost p else t))

/-- HELLO_SEND (R343, R344). -/
def execHelloSend (p : BitVec 3) (s : State) : Host.Outcome State Fault Refusal :=
  done (s.fabRow p (fun p t => if t.fpTalks p then t.sendHello p else t))

/-- HELLO (R343). -/
def execHello (p : BitVec 3) (m : HelloMsg) (s : State) : Host.Outcome State Fault Refusal :=
  done (s.peerRow p (fun p t => (t.msgTook p 48).hello p m))

/-- HELLO_TIMEOUT (R343): three HELLOs are missed. -/
def execHelloTimeout (p : BitVec 3) (s : State) : Host.Outcome State Fault Refusal :=
  done (s.fabRow p (fun p t => if t.fpTalks p then (t.satAdd (R.FP_HELLO_LOSS_V p) 3).fpLeave p fpTraining else t))

/-- AUTH_CERT (R346). -/
def execAuthCert (p : BitVec 3) (ok : Bool) (s : State) : Host.Outcome State Fault Refusal :=
  done (s.peerRow p (fun p t => t.authCert p ok))

/-- AUTH_SIG (R346). -/
def execAuthSig (p : BitVec 3) (ok : AuthSig) (s : State) : Host.Outcome State Fault Refusal :=
  done (s.peerRow p (fun p t => t.authSig p ok))

/-- AUTH_TIMEOUT (R346). -/
def execAuthTimeout (p : BitVec 3) (s : State) : Host.Outcome State Fault Refusal :=
  done (s.fabRow p (fun p t => if t.authing p then t.fpRefuse p 1 else t))

/-- REFUSED_TIMEOUT (R343). -/
def execRefusedTimeout (p : BitVec 3) (s : State) : Host.Outcome State Fault Refusal :=
  done (s.fabRow p (fun p t => if t.fpState p = fpRefused then t.fpLeave p fpTraining else t))

/-- SYNC_DONE (R343, R360). -/
def execSyncDone (p : BitVec 3) (s : State) : Host.Outcome State Fault Refusal := done (s.peerRow p (fun p t => (t.msgTook p 2).fpGoUp p))

/-- LINK_STATE_RECORD (R348, R349, R355, R360). -/
def execLinkStateRecord (p : BitVec 3) (r : Lsr) (s : State) : Host.Outcome State Fault Refusal :=
  done (s.peerRow p (fun p t => (t.msgTook p (lsrOctets r).length).lsrIn p r))

/-- LSR_REFRESH (R349). -/
def execLsrRefresh (s : State) : Host.Outcome State Fault Refusal := done (if !fabPorts.any s.fpLive then s else if s.stewardUp then s.packSettle.issueRecord else s.reissue)

/-- LSR_AGE_OUT (R349, R345). -/
def execLsrAgeOut (serial : BitVec 64) (s : State) : Host.Outcome State Fault Refusal := done (s.lsrAgeOut serial)

/-- ADDR_CONFIRM (R347). -/
def execAddrConfirm (s : State) : Host.Outcome State Fault Refusal := done s.addrConfirm

/-- ROUTE_COMPUTE (R352). -/
def execRouteCompute (s : State) : Host.Outcome State Fault Refusal := done s.routeCompute

/-- MASTER_HANDOVER (R355). -/
def execMasterHandover (s : State) : Host.Outcome State Fault Refusal := done s.masterHandover

/-- DELAY_MEASURE_FP (R357). -/
def execDelayMeasureFp (p : BitVec 3) (s : State) : Host.Outcome State Fault Refusal :=
  done (s.fabRow p (fun p t => if t.fpTalks p then t.sendDreqs p else t))

/-- DREQ (R357). -/
def execDreq (p : BitVec 3) (tag : BitVec 16) (s : State) : Host.Outcome State Fault Refusal :=
  done (s.fabRow p (fun p t => if t.fpTalks p then (t.emit (.fabric p (.block (drespWord tag.toNat t.freeVal)))).freeNext else t))

/-- DRESP (R357). -/
def execDresp (p : BitVec 3) (tag : BitVec 16) (turn roundTrip : Reg32) (s : State) : Host.Outcome State Fault Refusal :=
  done (s.fabRow p (fun p t => if t.fpTalks p then t.dresp p tag.toNat turn.toNat roundTrip.toNat else t))

/-- EDGE_BLOCK (R358). -/
def execEdgeBlock (p : BitVec 3) (depth : BitVec 6) (beat : BitVec 48) (s : State) : Host.Outcome State Fault Refusal :=
  done (s.peerRow p (fun p t => t.edgeBlock p depth beat))

/-- TDATA (R341, R358). -/
def execTdata (p : BitVec 3) (offset : BitVec 24) (_addr : BitVec 16) (s : State) : Host.Outcome State Fault Refusal :=
  done (s.peerRow p (fun p t => t.tdata p offset.toNat))

/-- PARENT_EDGE_TIMEOUT (R358). -/
def execParentEdgeTimeout (s : State) : Host.Outcome State Fault Refusal := done s.parentTimeout

/-- PARENT_SWITCH (R358). -/
def execParentSwitch (s : State) : Host.Outcome State Fault Refusal := done s.parentSwitch

/-- REKEY (R361). -/
def execRekey (p : BitVec 3) (s : State) : Host.Outcome State Fault Refusal := done (s.fabRow p (fun p t => t.rekey p))

/-- FP_ASYM_WRITE (R359). -/
def execFpAsymWrite (p : BitVec 3) (v : Reg32) (s : State) : Host.Outcome State Fault Refusal := done (s.wrW (R.FP_ASYM p.toNat) v.toNat)

end Sys2Proof.Machine
end

