-- ==== Sys2Proof/Machine/BeatRows.lean ====
section
/-! DEFINITION. The rows of the beat and of time (02); what changes this node's record goes out at once (R349). -/

namespace Sys2Proof.Machine

open Sys2Proof

/-- The reply with the node's record brought up to date in the state it leaves (R349). -/
def Reply.packSettle : Reply → Reply
  | .now st d s => .now st d s.packSettle
  | .later s => .later s.packSettle

/-! ### The rows -/

/-- BEAT_RUN_START (R33, R34): the word written has RUN = 1. -/
def execBeatRunStart (v : Reg32) (s : State) : Host.Outcome State Fault Refusal := doneIf (v.getLsbD 31) (s.beatRunStart v).packSettle

/-- BEAT_RUN_STOP (R35): the word written has RUN = 0. -/
def execBeatRunStop (v : Reg32) (s : State) : Host.Outcome State Fault Refusal := doneIf (!v.getLsbD 31) (s.beatRunStop v).packSettle

/-- SRC_SEL_WRITE (R38, R61); a write of 5 to 15 is ignored. -/
def execSrcSelWrite (sel : BitVec 4) (s : State) : Host.Outcome State Fault Refusal := done (s.srcSelWrite sel.toNat).packSettle

/-- PPS_PULSE (R40). -/
def execPpsPulse (falling : Bool) (width : BitVec 16) (s : State) : Host.Outcome State Fault Refusal :=
  done (s.ppsPulse falling width.toNat).packSettle

/-- IRIG_FRAME (R41, R42). -/
def execIrigFrame (f : IrigFrame) (s : State) : Host.Outcome State Fault Refusal := done (s.irigFrame f).packSettle

/-- PTP_MESSAGE (R43). -/
def execPtpMessage (domain : Octet) (m : PtpIn) (s : State) : Host.Outcome State Fault Refusal := done (s.ptpIn domain.toNat m).packSettle

/-- PTP_MESSAGE_TRANSMIT (R43): sent while SVC is up, with pack time offered as TAI, stamped by the MAC. -/
def execPtpMessageTransmit (m : PtpOut) (s : State) : Host.Outcome State Fault Refusal :=
  done (if s.ptpMay m && s.domOn domSteward && s.bit R.SVC_STAT_LINK then s.freeNext.emit (.ptp m (s.macStamp (s.taiAt s.time))) else s)

/-- BEAT_IN_PULSE (R44). -/
def execBeatInPulse (s : State) : Host.Outcome State Fault Refusal := done s.beatInPulse.packSettle

/-- REFERENCE_TIMEOUT (R38). -/
def execReferenceTimeout (carrierLost : Bool) (s : State) : Host.Outcome State Fault Refusal := done (s.refTimeout carrierLost).packSettle

/-- EPOCH_ADVANCE (R30): only while the synthesizer is on. -/
def execEpochAdvance (s : State) : Host.Outcome State Fault Refusal := done (if s.domOn domSteward then s.epochAdvance else s)

/-- AON_CALIBRATION (R57). -/
def execAonCalibration (tick : BitVec 31) (s : State) : Host.Outcome State Fault Refusal := done (s.aonCalibration tick)

/-- SERVO_RESUME (R60). -/
def execServoResume (s : State) : Host.Outcome State Fault Refusal := done s.servoResume.packSettle

/-- TIME_CAPTURE (R32). -/
def execTimeCapture (v : Reg32) (s : State) : Host.Outcome State Fault Refusal := done (s.timeCapture v)

/-- BEAT_NUM_LO_READ (R32): the read latches bits 47:32. -/
def execBeatNumLoRead (s : State) : Host.Outcome State Fault Refusal :=
  done ((s.wrW R.BEAT_NUM_HI (s.beat.num.toNat / 4294967296)).emit (.readData R.BEAT_NUM_LO (s.beat.num.toNat % 4294967296)))

/-- TIME_SET_TAI (R487). -/
def execTimeSetTai (h : BHdr) (sec : BitVec 48) (ns : Reg32) (utc : BitVec 16) (s : State) : Host.Outcome State Fault Refusal :=
  bertiaRow h { len := 12 } (fun t => (t.timeSetTai sec.toNat ns.toNat utc.toNat).packSettle) s

/-- TIME_STEP (R487). -/
def execTimeStep (h : BHdr) (step : BitVec 64) (s : State) : Host.Outcome State Fault Refusal :=
  bertiaRow h { len := 8 } (fun t => (t.timeStep step).packSettle) s

/-- PPS_SECOND (R487). -/
def execPpsSecond (h : BHdr) (sec : BitVec 48) (s : State) : Host.Outcome State Fault Refusal :=
  bertiaRow h { len := 8 } (·.ppsSecond h.ch.toNat sec.toNat) s

/-- PTP_CFG (R487): acts at once. -/
def execPtpCfg (h : BHdr) (c : PtpConfig) (s : State) : Host.Outcome State Fault Refusal :=
  bertiaRow h { len := 12 } (fun t => if ptpOk c then .now stOk [] (t.onHost (fun z => { z with ptp := c })) else .now stBadParam [] t) s

/-- PTP_STATUS (R487). -/
def execPtpStatus (h : BHdr) (s : State) : Host.Outcome State Fault Refusal :=
  bertiaRow h { len := 0, maxData := 36 } (fun t => .now stOk t.ptpStatusData t.freeNext) s

end Sys2Proof.Machine
end

