-- ==== Sys2Proof/Machine/KennelOps.lean ====
section
/-! DEFINITION. The kennel (14): states, sessions, zeroization, self-tests, the Bertia 0x06xx commands. -/

namespace Sys2Proof.Machine

open Sys2Proof

/-! ### States (R450, R459, R460) -/

def knOff : Nat := 0
def knSelftest : Nat := 1
def knUninit : Nat := 2
def knOperational : Nat := 3
def knPending : Nat := 4
def knError : Nat := 5
def knZeroized : Nat := 6
def knLocked : Nat := 7

def State.knState (s : State) : Nat := s.rd R.KN_STAT_STATE

/-- KN_PED and KEYID of the slot in force: KEYID reads 0 while it holds no key pair. -/
def State.knShow (s : State) : State :=
  let left := (s.kn.slots.filter (· = .unused)).length
  let id := match s.kn.slots.getD s.kn.cur .unused with
    | .key _ => (Config.keyId s.kn.cur).toNat
    | _ => 0
  ((s.wr R.KN_PED_SLOT s.kn.cur).wr R.KN_PED_SLOTS_LEFT left).wrW R.KN_KEYID_LO id

/-- STATE changes: KN_EVT.STATE and event 0x0060 (R482). -/
def State.setKnState (s : State) (n : Nat) : State :=
  if s.knState = n then s
  else
    let s1 := ((s.wr R.KN_STAT_STATE n).set1 R.KN_EVT_STATE).knShow
    s1.hostEvent 0x0060 5 (le 4 (s1.rdW R.KN_STAT) ++ le 4 (s1.rdW R.KN_ERR))

/-- Does the kennel run: its domain on, not locked up? -/
def State.knLive (s : State) : Bool := s.domOn domKennel && s.knState != knOff && s.knState != knLocked

/-! ### Zeroization (R453, R455 to R458) -/

/-- R413: the kennel does not sign. -/
def State.sealRefused (s : State) : State :=
  let s1 := s.onJrn (fun z => { z with sealing := none })
  if s.bit R.J_STAT_SEAL_STALL then s1 else (s1.wr R.J_STAT_SEAL_STALL 1).set1 R.J_EVT_SEAL_STALL

/-- R458: a seal signature in progress is abandoned. -/
def State.abandonSeal (s : State) : State :=
  match s.jrn.sealing with
  | some x => if x.asked then s.sealRefused else s
  | none => s

/-- R455: every CSP in RAM, DRBG state and link keys are overwritten; every session closes. -/
def State.volatileZero (s : State) : State :=
  let s1 := (List.range 20).foldl (fun t ch => t.closeSession ch) s
  ((s1.onKn (fun z => { z with chals := [], drbgUse := 0 })).dropLinkKeys).abandonSeal

/-- Every KN_SELFTEST that waits completes with CAUSE. -/
def State.endTests (s : State) (cause : Nat) : State :=
  let s1 := s.onKn (fun z => { z with testCmds := [] })
  s.kn.testCmds.foldl (fun t ch => t.complete ch stOk (le 1 cause ++ le 3 0)) s1

/-- R452, R453: entry to ERROR. -/
def State.knFail (s : State) (cause detail : Nat) : State :=
  let s1 := (((s.volatileZero.wr R.KN_ERR_CAUSE cause).wr R.KN_ERR_DETAIL detail).set1 R.KN_EVT_ERROR).onKn
    (fun z => { z with hard := z.hard || cause == 1 || cause == 9 })
  (((s1.setKnState knError).whFault 5).endTests cause)

/-- R456: the slot in force is programmed to ones; the SSP store is empty. -/
def State.burnSlot (s : State) : State :=
  let burn (x : OtpSlot) : OtpSlot := match x with
    | .key c => .zeroized c
    | y => y
  ((s.onKn (fun z => { z with
      slots := listSet z.slots z.cur (burn (z.slots.getD z.cur .unused))
      coKeys := []
      usrKeys := []
      admitted := none
      cut := false })).wr R.KN_STAT_SEAL 0).wr R.KN_STAT_JOIN 0

/-- A zeroization has ended: the latch opens, KN_ZEROIZE completes. -/
def State.zeroEnd (s : State) : State :=
  let s1 := (s.onKn (fun z => { z with latched := false, running := false, zCmd := none })).wr R.KN_STAT_ZBUSY 0
  match s.kn.zCmd with
  | some ch => s1.complete ch stOk []
  | none => s1

/-- R456, R457: a zeroization starts: volatile, and unless ZEROIZED already the slot's programming. -/
def State.zeroStart (s : State) : State :=
  let s1 := s.volatileZero.wr R.KN_STAT_ZBUSY 1
  if s.knState = knZeroized then s1.zeroEnd else s1.onKn (fun z => { z with running := true })

/-- R456: a full zeroization completes; tests it cut short end with it (log 11). -/
def State.zeroDone (s : State) : State :=
  if s.kn.running ∧ s.knLive then
    (((s.burnSlot.set1 R.KN_EVT_ZEROIZED).zeroEnd).setKnState knZeroized).endTests 0
  else s

/-- KENNEL is turned on by the AON domain, bypassing and clearing its slot (R457, R502). -/
def State.kennelOn (s : State) : State :=
  let s1 := ((s.wr (R.PD_STAT_PEND domKennel) 0).wr (R.PD_STAT_PEND_STATE domKennel) 0).wr (R.PD_STAT_WAIT domKennel) 0
  let s2 := s1.onPwr (fun z => { z with slot := mset (fun _ => none) z.slot domKennel none })
  if s.bit (R.PD_STAT_BUSY domKennel) then s2
  else ((s2.wr (R.PD_STAT_BUSY domKennel) 1).wr (R.PD_STAT_LAST_SRC domKennel) 5).onPwr
    (fun z => { z with trans := mset (fun _ => none) z.trans domKennel (some ⟨2, 5, none⟩) })

/-- R457: ZEROIZE_N falls through its filter. -/
def State.zeroPin (s : State) : State :=
  let s1 := ((s.wr R.KN_STAT_ZPIN 1).wr R.KN_STAT_ZBUSY 1).onKn (fun z => { z with latched := true })
  if s.kn.running then s1
  else if s.domOn domKennel then (if s.knState = knLocked ∨ s.knState = knOff then s1 else s1.zeroStart)
  else s1.kennelOn

/-! ### Self-tests and start (R450, R451, R463) -/

/-- Slot programming that a lockup or a reset cut short is done first at the next start (R458, R538). -/
def State.finishCut (s : State) : State := if s.kn.cut ∨ s.kn.running then (s.burnSlot.set1 R.KN_EVT_ZEROIZED).zeroEnd else s

/-- The kennel starts: its core from reset, volatile zeroization, sessions closed, power-up tests; an integrity or OTP
failure persists until a power-on reset, and a latched zeroization then waits for no test (R453, R457, R458, R463, R538). -/
def State.kennelStart (s : State) : State :=
  let s2 := ((s.finishCut.volatileZero).setCore 1025 (Machine.coreReset 1025)).wr R.KN_STAT_TESTED 0
  let s3 := ((s2.wr R.KN_AUTHFAIL_V 0).wr R.KN_ESFAIL_V 0).setKnState (if s.kn.hard then knError else knSelftest)
  if s.kn.hard && s3.kn.latched then s3.zeroStart else s3

/-- KENNEL has left the on state (R450, R455). -/
def State.kennelStop (s : State) : State := ((s.volatileZero.wr R.KN_STAT_TESTED 0).setKnState knOff).endTests 0

/-- The state in which the tests leave the kennel (R450): without a pedigree it is ZEROIZED, whatever keys it holds. -/
def State.testedState (s : State) : Nat :=
  match s.kn.slots.getD s.kn.cur .unused with
  | .key c => if s.kn.coKeys = [] then knUninit else if c then knOperational else knPending
  | _ => knZeroized

/-- R451: the power-up tests end, unless a zeroization has aborted them (R457); a latched zeroization runs before any service. A
health test that failed among them counts in KN_ESFAIL (R459). -/
def State.testsDone (s : State) (r : SelfTest) : State :=
  if s.knState ≠ knSelftest ∨ !s.knLive ∨ s.kn.running then s
  else
    let s1 := match r with
      | .passed => ((s.wr R.KN_STAT_TESTED 1).setKnState s.testedState).endTests 0
      | .failed c d => (if c = 3 ∨ c = 4 then s.inc R.KN_ESFAIL_V else s).knFail c.toNat d.toNat
    if s.kn.latched then s1.zeroStart else s1

/-- R454: a sensor trips. During a zeroization it is recorded and the zeroization goes on (R458). -/
def State.sensorTrip (s : State) (temperature : Bool) : State :=
  let cause := if temperature then 7 else 6
  if !s.knLive then s
  else if s.kn.running then
    ((s.wr R.KN_ERR_CAUSE cause).wr R.KN_ERR_DETAIL s.freeVal).freeNext.set1 R.KN_EVT_TAMPER
  else (s.set1 R.KN_EVT_TAMPER).freeNext.knFail cause s.freeVal

/-- R452: a running test fails. The entropy start-up test runs in SELFTEST only. -/
def State.testFails (s : State) (t : KnTest) : State :=
  let cause := match t with
    | .startUp => 3
    | .continuous => 4
    | .pairwise => 5
  if !s.knLive ∨ s.knState = knError ∨ (t = .startUp ∧ s.knState ≠ knSelftest) then s
  else (if t = .pairwise then s else s.inc R.KN_ESFAIL_V).freeNext.knFail cause s.freeVal

/-- R247, R450: the kennel core locks up: the secrets are zeroized, then the core stops. -/
def State.kennelLock (s : State) : State :=
  let s1 := s.volatileZero.onKn (fun z => { z with cut := z.cut || z.running, running := false })
  let s2 := (((s1.wr R.KN_ERR_CAUSE 8).wr R.KN_ERR_DETAIL 0).set1 R.KN_EVT_LOCKUP).setKnState knLocked
  (s2.selfFault 0x0105 0 (le 4 (s2.rdW R.KN_ERR))).endTests 8

/-! ### Commands (R443, R461) -/

/-- States in which the kennel serves every command under its role. -/
def knOpen : List Nat := [knOperational]
def knCerted : List Nat := [knOperational, knPending]

/-- A kennel command: it waits while a zeroization runs (R443), and completes with BAD_STATE in a state that does not
serve it. -/
def kennelRow (ok : Bool) (states : List Nat) (h : BHdr) (sp : CmdSpec) (act : State → Reply) (s : State) :
    Host.Outcome State Fault Refusal :=
  doneIf (hdrOk h && ok)
    (if s.kn.running then s
     else s.bertia h sp (fun t => if t.domOn domKennel && states.contains t.knState then act t else .now stBadState [] t))


/-- A stored operator key (R437): role 1 CO, 2 User. -/
def State.opKey (s : State) (role key : Nat) : Option (List Octet) :=
  if role = 1 then mget (fun _ => none) s.kn.coKeys key else mget (fun _ => none) s.kn.usrKeys key

/-- Is a role and key index one that R437 gives? -/
def opOk (role key : Nat) : Bool := (role == 1 && decide (key < 4)) || (role == 2 && decide (key < 16))

def State.setOpKey (s : State) (role key : Nat) (v : Option (List Octet)) : State :=
  s.onKn (fun z => if role = 1 then { z with coKeys := mset (fun _ => none) z.coKeys key v }
    else { z with usrKeys := mset (fun _ => none) z.usrKeys key v })

/-- KN_INFO (R461). -/
def State.knInfo (s : State) : List Octet :=
  le 1 s.knState ++ le 3 0 ++ le 4 (s.rdW R.KN_VER) ++ le 4 (s.rdW R.DEV_STEP) ++ (Config.validationCert ++ List.replicate 16 0).take 16

/-- KN_CERTS (R445, R446). -/
def State.knCerts (s : State) (slot : Nat) : Reply :=
  if 4 ≤ slot then .now stBadParam [] s
  else
    let give (c : Bool) : Reply := let d := Config.pedigreeDer slot c; .now stOk (le 4 d.length ++ d) s
    match s.kn.slots.getD slot .unused with
    | .key true => give true
    | .zeroized true => give true
    | .key false => if s.knState = knPending ∧ slot = s.kn.cur then give false else .now stNotFound [] s
    | _ => .now stNotFound [] s

/-- KN_CHALLENGE (R438): the challenge is the DRBG's. -/
def State.knChallenge (s : State) : Reply :=
  let id := s.kn.nextChal % 4294967296
  let v := s.freeVal % 2 ^ 384
  .now stOk (le 4 id ++ le 48 v) ((s.freeNext.onKn (fun z => { z with
    chals := z.chals ++ [(id, v, s.time + 10000000000 * nsU)], nextChal := id + 1 })).useDrbg)

/-- The 68-octet message an operator signs (R438): KN_AUTH's operand sigOk says that its signature over this message verifies with
the named key. -/
def State.authMessage (s : State) (ch id role key : Nat) : List Octet :=
  let chal := ((s.kn.chals.find? (fun c => c.1 == id)).map (·.2.1)).getD 0
  [0x4B, 0x41, 0x55, 0x54] ++ le 8 Config.serial.toNat ++ le 48 chal ++ le 4 id ++ le 1 role ++ le 1 key ++ le 1 ch ++ [0]

/-- KN_AUTH (R438 to R440): one use of the challenge; a session on the channel, or a counted failure. -/
def State.knAuth (s : State) (ch id role key : Nat) (sigOk : Bool) : Reply :=
  if !opOk role key then .now stBadParam [] s
  else
    let live := s.kn.chals.any (fun c => c.1 == id && decide (s.time ≤ c.2.2))
    let s1 := s.onKn (fun z => { z with chals := z.chals.filter (fun c => c.1 ≠ id) })
    if live && sigOk && (s.opKey role key).isSome then
      let sid := s.freeVal % 2 ^ 64
      let s2 := s1.freeNext.setChan ch { s1.chan ch with sess := some ⟨sid, role == 1, key, s.time + 900000000000 * nsU⟩, seq := 0 }
      .now stOk (le 8 sid) ((if 16 ≤ ch then s2.set1 R.SVC_EVT_SESSION else s2).countSessions.useDrbg)
    else .now stDenied [] ((s1.inc R.KN_AUTHFAIL_V).set1 R.KN_EVT_AUTHFAIL)

/-- KN_INIT (R446, R450, R457): stores CO key 0; in ZEROIZED with a new pedigree in the next unused slot. -/
def State.knInit (s : State) (key : List Octet) : Reply :=
  if s.bit R.KN_STAT_ZPIN then .now stBadState [] s
  else if s.knState = knUninit then .now stOk [] ((s.setOpKey 1 0 (some key)).setKnState knOperational)
  else match s.kn.slots.findIdx? (· = .unused) with
    | none => .now stBadState [] s
    | some k =>
      let s1 := (s.setOpKey 1 0 (some key)).onKn (fun z => { z with slots := listSet z.slots k (.key false), cur := k })
      .now stOk [] (s1.useDrbg.setKnState knPending)

/-- Every session opened with a key closes (R439). -/
def State.closeKey (s : State) (role key : Nat) : State :=
  (List.range 20).foldl (fun t ch =>
    match (t.chan ch).sess with
    | some x => if x.co = (role == 1) ∧ x.slot = key then t.closeSession ch else t
    | none => t) s

/-- KN_KEY_DEL: the last CO key stays. -/
def State.knKeyDel (s : State) (role key : Nat) : Reply :=
  if !opOk role key then .now stBadParam [] s
  else if (s.opKey role key).isNone then .now stNotFound [] s
  else if role = 1 ∧ s.kn.coKeys.length = 1 then .now stBadParam [] s
  else .now stOk [] ((s.setOpKey role key none).closeKey role key)

/-- KN_AUTHZ (R441). -/
def State.knAuthz (s : State) (bits : Nat) : Reply :=
  if 4 ≤ bits then .now stBadParam [] s
  else .now stOk [] ((s.wr R.KN_STAT_SEAL (bits % 2)).wr R.KN_STAT_JOIN (bits / 2))

/-- KN_ADMIT. -/
def State.knAdmit (s : State) (l : List (BitVec 64)) : Reply :=
  if 4095 < l.length then .now stBadParam [] s
  else .now stOk [] (s.onKn (fun z => { z with admitted := if l = [] then none else some (l.map (·.toNat)) }))

/-- KN_CERT_LOAD (R446). -/
def State.knCertLoad (s : State) (ok : Bool) : Reply :=
  if !ok then .now stBadParam [] s
  else .now stOk [] ((s.onKn (fun z => { z with slots := listSet z.slots z.cur (.key true) })).setKnState knOperational)

/-- KN_RANDOM. -/
def State.knRandom (s : State) (n : Nat) : Reply :=
  if n = 0 ∨ 1024 < n then .now stBadParam [] s else .now stOk (le n s.freeVal) s.freeNext.useDrbg

/-- A signature of 96 octets, r and s (R461). -/
def sigOctets (slot : Nat) (msg : List Octet) (n : Nat) : List Octet := (Config.signature slot msg n ++ List.replicate 96 0).take 96

/-- The attestation statement (R462). -/
def State.statement (s : State) (nonce : List Octet) : List Octet :=
  [0x4B, 0x41, 0x54, 0x54] ++ le 8 Config.serial.toNat ++ nonce ++ le 8 (Config.keyId s.kn.cur).toNat
    ++ le 10 (packTime s.packNow).toNat ++ le 6 s.beat.num.toNat ++ le 4 (s.rdW R.KN_STAT) ++ le 4 (s.rdW R.DEV_STEP)
    ++ le 4 (s.rdW R.KN_VER)

/-- KN_ATTEST (R462). -/
def State.knAttest (s : State) (nonce : List Octet) : Reply :=
  let m := s.statement nonce
  .now stOk (m ++ sigOctets s.kn.cur m s.free) s.freeNext

/-- KN_SELFTEST (R450, R453): completes when the tests end; in ERROR by integrity or OTP at once with its cause. -/
def State.knSelftestCmd (s : State) (ch : Nat) : Reply :=
  if s.kn.hard then .now stOk (le 1 (s.rd R.KN_ERR_CAUSE) ++ le 3 0) s
  else .later ((s.onKn (fun z => { z with testCmds := z.testCmds ++ [ch] })).setKnState knSelftest)

/-- KN_ZEROIZE (R456 to R458). -/
def State.knZeroize (s : State) (ch confirm : Nat) : Reply :=
  if confirm ≠ 0x5A45524F then .now stBadParam [] s
  else .later ((s.onKn (fun z => { z with zCmd := some ch })).zeroStart)

/-- KN_COUNTER: an advance asks for the CO role and stops at 127. -/
def State.knCounter (s : State) (ch ctr op : Nat) : Reply :=
  let v := mget (fun _ => 0) s.kn.counters ctr
  if 8 ≤ ctr ∨ 2 ≤ op then .now stBadParam [] s
  else if op = 0 then .now stOk (le 1 v ++ le 3 0) s
  else if !s.coSession ch then .now stDenied [] s
  else if !knCerted.contains s.knState ∨ 127 ≤ v then .now stBadState [] s
  else .now stOk (le 1 (v + 1) ++ le 3 0) (s.onKn (fun z => { z with counters := mset (fun _ => 0) z.counters ctr (v + 1) }))

/-! ### The rows -/

/-- ZEROIZE_N_RELEASE (R457). -/
def execZeroizeNRelease (s : State) : Host.Outcome State Fault Refusal := done (s.wr R.KN_STAT_ZPIN 0)

/-- SENSOR_TRIP (R454). -/
def execSensorTrip (temperature : Bool) (s : State) : Host.Outcome State Fault Refusal := done (s.sensorTrip temperature)

/-- ENTROPY_FAIL (R452). -/
def execEntropyFail (t : KnTest) (s : State) : Host.Outcome State Fault Refusal := done (s.testFails t)

/-- SELFTEST_DONE (R451). -/
def execSelftestDone (r : SelfTest) (s : State) : Host.Outcome State Fault Refusal := done (s.testsDone r)

/-- DRBG_RESEED (R436): the count of generate requests starts anew. -/
def execDrbgReseed (s : State) : Host.Outcome State Fault Refusal :=
  done (if s.knLive then s.onKn (fun z => { z with drbgUse := 0 }) else s)

/-- CHALLENGE_EXPIRE (R438). -/
def execChallengeExpire (id : Reg32) (s : State) : Host.Outcome State Fault Refusal :=
  done (s.onKn (fun z => { z with chals := z.chals.filter (fun c => c.1 ≠ id.toNat) }))

/-- SESSION_TIMEOUT (R439). -/
def execSessionTimeout (ch : BitVec 5) (s : State) : Host.Outcome State Fault Refusal :=
  done (if (s.chan ch.toNat).sess.isSome then s.closeSession ch.toNat else s)

/-- KN_KEYID_LO_READ (R459): the read latches KN_KEYID_HI. -/
def execKnKeyidLoRead (s : State) : Host.Outcome State Fault Refusal :=
  let id := if s.word R.KN_KEYID_LO = 0 then 0 else (Config.keyId s.kn.cur).toNat
  done ((s.wrW R.KN_KEYID_HI (id / 4294967296)).emit (.readData R.KN_KEYID_LO (s.rdW R.KN_KEYID_LO)))

/-- KN_INFO (R461): in every state, LOCKED and OFF included. -/
def execKnInfo (h : BHdr) (s : State) : Host.Outcome State Fault Refusal :=
  bertiaRow h { len := 0, noSession := true } (fun t => .now stOk t.knInfo t) s

/-- KN_CERTS (R445, R446). -/
def execKnCerts (h : BHdr) (slot : Octet) (s : State) : Host.Outcome State Fault Refusal :=
  kennelRow true [1, 2, 3, 4, 5, 6] h { len := 4, noSession := true } (·.knCerts slot.toNat) s

/-- KN_CHALLENGE (R438). -/
def execKnChallenge (h : BHdr) (s : State) : Host.Outcome State Fault Refusal :=
  kennelRow true [3, 4, 6] h { len := 0, maxData := 52, noSession := true } (·.knChallenge) s

/-- KN_AUTH (R438). -/
def execKnAuth (h : BHdr) (id : Reg32) (role key : Octet) (sigOk : Bool) (s : State) : Host.Outcome State Fault Refusal :=
  kennelRow true [3, 4, 6] h { len := 104, noSession := true } (·.knAuth h.ch.toNat id.toNat role.toNat key.toNat sigOk) s

/-- KN_LOGOUT (R439). -/
def execKnLogout (h : BHdr) (s : State) : Host.Outcome State Fault Refusal :=
  kennelRow true [3, 4, 6] h { len := 0 } (fun t => .now stOk [] (t.closeSession h.ch.toNat)) s

/-- KN_INIT (R446). -/
def execKnInit (h : BHdr) (key : List Octet) (s : State) : Host.Outcome State Fault Refusal :=
  kennelRow (key.length == 97) [2, 6] h { len := 100 } (·.knInit key) s

/-- KN_KEY_SET (R442). -/
def execKnKeySet (h : BHdr) (role idx : Octet) (key : List Octet) (s : State) : Host.Outcome State Fault Refusal :=
  kennelRow (key.length == 97) knCerted h { len := 104, co := true }
    (fun t => if opOk role.toNat idx.toNat then .now stOk [] (t.setOpKey role.toNat idx.toNat (some key)) else .now stBadParam [] t) s

/-- KN_KEY_DEL (R442). -/
def execKnKeyDel (h : BHdr) (role idx : Octet) (s : State) : Host.Outcome State Fault Refusal :=
  kennelRow true knCerted h { len := 4, co := true } (·.knKeyDel role.toNat idx.toNat) s

/-- KN_AUTHZ (R441). -/
def execKnAuthz (h : BHdr) (bits : Octet) (s : State) : Host.Outcome State Fault Refusal :=
  kennelRow true knCerted h { len := 4, co := true } (·.knAuthz bits.toNat) s

/-- KN_ADMIT (R442). -/
def execKnAdmit (h : BHdr) (serials : List (BitVec 64)) (s : State) : Host.Outcome State Fault Refusal :=
  kennelRow true knCerted h { len := 4 + 8 * serials.length, co := true } (·.knAdmit serials) s

/-- KN_CERT_LOAD (R446). -/
def execKnCertLoad (h : BHdr) (der : List Octet) (chains namesKey : Bool) (s : State) : Host.Outcome State Fault Refusal :=
  kennelRow true knCerted h { len := 4 + der.length, co := true } (·.knCertLoad (chains && namesKey)) s

/-- KN_RANDOM (R442). -/
def execKnRandom (h : BHdr) (count : BitVec 16) (s : State) : Host.Outcome State Fault Refusal :=
  kennelRow true knCerted h { len := 4, user := true, maxData := if count.toNat ≤ 1024 then count.toNat else 0 } (·.knRandom count.toNat) s

/-- KN_ATTEST (R462). -/
def execKnAttest (h : BHdr) (nonce : List Octet) (s : State) : Host.Outcome State Fault Refusal :=
  kennelRow (nonce.length == 48) knOpen h { len := 48, user := true, maxData := 192 } (·.knAttest nonce) s

/-- KN_SELFTEST (R450). -/
def execKnSelftest (h : BHdr) (s : State) : Host.Outcome State Fault Refusal :=
  kennelRow true [1, 2, 3, 4, 5, 6] h { len := 0 } (·.knSelftestCmd h.ch.toNat) s

/-- KN_ZEROIZE (R456). -/
def execKnZeroize (h : BHdr) (confirm : Reg32) (s : State) : Host.Outcome State Fault Refusal :=
  kennelRow true [3, 4, 6] h { len := 4, co := true } (·.knZeroize h.ch.toNat confirm.toNat) s

/-- KN_COUNTER (R461). -/
def execKnCounter (h : BHdr) (ctr op : Octet) (s : State) : Host.Outcome State Fault Refusal :=
  kennelRow true [2, 3, 4, 6] h { len := 4 } (·.knCounter h.ch.toNat ctr.toNat op.toNat) s

end Sys2Proof.Machine
end

