-- ==== Sys2Proof/Machine/SpWords.lean ====
section
/-! DEFINITION. The words of a sample port's link (R67, R69, R71, R75, R88): control words, management messages and beat
blocks as 64-bit words, formed for what the port sends and taken apart for what it receives. -/

namespace Sys2Proof.Machine

open Sys2Proof

/-! ### Control words (R69, R71) -/

/-- The control types of R69. -/
def ctrlKnown (w : Word64) : Bool := [0x1E, 0x2D, 0x33, 0x4B, 0x55, 0x66].contains (ctrlType w)

/-- MARK (R71): its flags, the edge's beat number, the time from the edge to the word in units of 2^-5 ns. -/
def markWord (abort plan stop : Bool) (beat off : Nat) : Word64 :=
  ctrlWord 0x2D (abort.toNat * 2 ^ 55 + plan.toNat * 2 ^ 54 + stop.toNat * 2 ^ 53 + beat % 68719476736 * 65536 + off % 65536)

/-- ABORT: the ramp time in ns. -/
def abortWord (ns : Nat) : Word64 := ctrlWord 0x33 (ns % 4294967296)

/-- ECHO: the tag. -/
def echoWord (tag : Nat) : Word64 := ctrlWord 0x55 (tag % 65536 * 1099511627776)

/-! ### Management messages (R88) -/

/-- The header of a message: type, tag, length of the body, three zero octets. -/
def mgmtHeader (kind tag len : Nat) : List Octet := le 1 kind ++ le 1 tag ++ le 2 len ++ le 3 0

/-- CRC-32 over header and body. -/
def mgmtCrc (kind tag : Nat) (body : List Octet) : Nat := crc32 (mgmtHeader kind tag body.length ++ body)

/-- The MGMT words of a message: the header in the first, then body and CRC, seven octets a word (their order is log 8). -/
def mgmtWords (tag kind : Nat) (body : List Octet) : List Word64 :=
  (groups 7 (mgmtHeader kind tag body.length ++ body ++ le 4 (mgmtCrc kind tag body))).map (ctrlWord 0x4B)

/-! ### What a port sends -/

def spMark (abort plan stop : Bool) (beat off : Nat) : List SpWord := [.ctrl (markWord abort plan stop beat off)]
def spAbort (ns : Nat) : List SpWord := [.ctrl (abortWord ns)]
def spEcho (tag : Nat) : List SpWord := [.ctrl (echoWord tag)]
def spMgmt (tag kind : Nat) (body : List Octet) : List SpWord := (mgmtWords tag kind body).map .ctrl

/-- Is this what a port sends a MARK? -/
def isMark (ws : List SpWord) : Bool :=
  match ws with
  | .ctrl w :: _ => ctrlType w == 0x2D
  | _ => false

/-- Does it begin with a data word: a beat block? -/
def isBlock (ws : List SpWord) : Bool :=
  match ws with
  | .data _ :: _ => true
  | _ => false

/-! ### Beat blocks (R75) -/

/-- The header word of a block of n sample words. -/
def sampleHeader (beat plan n : Nat) : Word64 :=
  BitVec.ofNat 64 (0xB5 * 2 ^ 56 + beat % 65536 * 2 ^ 40 + plan % 256 * 2 ^ 32 + n % 4294967296)

/-- Samples packed as one stream of 20-bit fields, the last word padded with zeros. -/
def packSamples (codes : List Grain) : List Word64 :=
  let v := codes.foldr (fun g a => g.toNat + 1048576 * a) 0
  (List.range ((20 * codes.length + 63) / 64)).map (fun k => BitVec.ofNat 64 (v / 2 ^ (64 * k)))

/-- The words of a beat block: header, sample words, trailer. -/
def beatBlockWords (beat plan : Nat) (codes : List Grain) : List Word64 :=
  let ws := packSamples codes
  let h := sampleHeader beat plan ws.length
  h :: ws ++ [BitVec.ofNat 64 (crc32 (wordOctets (h :: ws)) * 4294967296)]

def spDrive (beat plan : Nat) (codes : List Grain) : List SpWord := (beatBlockWords beat plan codes).map .data

/-- Fields of a header word: SYNC, BEAT, PLAN_ID, WORDS. -/
def hdrSync (w : Word64) : Nat := w.toNat / 2 ^ 56
def hdrBeat (w : Word64) : Nat := w.toNat / 2 ^ 40 % 65536
def hdrPlan (w : Word64) : Nat := w.toNat / 2 ^ 32 % 256
def hdrWords (w : Word64) : Nat := w.toNat % 4294967296

end Sys2Proof.Machine

namespace Sys2Proof

open Sys2Proof.Machine

/-- Does the CRC received with a management message hold (R88)? -/
def MgmtTag.holds (m : MgmtTag) (kind : Nat) (body : List Octet) : Bool := m.crc.toNat == mgmtCrc kind m.tag.toNat body

/-- The header of a received block: none where no block has started, or where an uncorrectable codeword carried it. -/
def InBlock.header (b : InBlock) : Option Word64 := b.words.head?.join

/-- Has an uncorrectable codeword hit the block? -/
def InBlock.unc (b : InBlock) : Bool := b.fecUnc != 0 || b.words.any (·.isNone)

/-- Has all of the block arrived: its header, the sample words it announces, and its trailer? Where the header is lost, n
sample words are awaited. -/
def InBlock.complete (b : InBlock) (n : Nat) : Bool := !b.words.isEmpty && decide ((b.header.map hdrWords).getD n + 2 ≤ b.words.length)

/-- Does the trailer's CRC hold over the header and the sample words? -/
def InBlock.crcOk (b : InBlock) : Bool :=
  let l := b.words.filterMap id
  let n := l.length - 1
  (l.getD n 0).toNat / 4294967296 == crc32 (wordOctets (l.take n))

/-- Sample j of the block, where every word that holds a bit of it has arrived whole (none: not so). -/
def InBlock.sample (b : InBlock) (j : Nat) : Option Grain :=
  match b.words[1 + 20 * j / 64]?.join, b.words[1 + (20 * j + 19) / 64]?.join with
  | some x, some y =>
    let o := 20 * j % 64
    some (BitVec.ofNat 20 ((x.toNat + (if 44 < o then y.toNat * 2 ^ 64 else 0)) / 2 ^ o))
  | _, _ => none

/-- Sample words of the block that have arrived so far, its trailer apart; where the header is lost, at most n. -/
def InBlock.sampleWords (b : InBlock) (n : Nat) : Nat := min (b.words.length - 1) ((b.header.map hdrWords).getD n)

/-- The samples of the block that have arrived, in order, at most m. -/
def InBlock.samples (b : InBlock) (n m : Nat) : List (Option Grain) :=
  (List.range (min m (64 * b.sampleWords n / 20))).map b.sample

end Sys2Proof
end

