-- ==== Sys2Proof/Machine/CoreOps.lean ====
section
/-! DEFINITION. Gitik cores (05 to 07): registers, side units, regions, taking an exception, halts, core reset. -/

namespace Sys2Proof.Machine

open Sys2Proof

/-- Update a core. -/
def State.onCore (s : State) (i : Nat) (f : Core → Core) : State := s.setCore i (f (s.core i))

/-! ### Registers (R134) -/

/-- Read a general register: G0 reads 0. -/
def Core.gr (c : Core) (r : GReg) : Long := if r = 0 then 0 else mget (fun _ => 0) c.g r.toNat

/-- Put a value into a general register: a write to G0 is discarded. -/
def Core.putG (c : Core) (r : GReg) (v : Long) : Core :=
  if r = 0 then c else { c with g := mset (fun _ => 0) c.g r.toNat v }

/-- A pending result for a register is discarded (R161). -/
def Core.dropPending (c : Core) (r : GReg) : Core :=
  { c with side := c.side.map (fun o => { o with writes := o.writes.filter (fun w => w.1 ≠ r) }) }

/-- An instruction writes a general register. -/
def Core.setG (c : Core) (r : GReg) (v : Long) : Core := (c.dropPending r).putG r v

/-- A predicate: P0 reads 1. -/
def Core.p (c : Core) (k : BitVec 3) : Bool := k == 0 || c.pred.getLsbD k.toNat

/-- Write a predicate: a write to P0 is discarded. -/
def Core.setP (c : Core) (k : BitVec 3) (b : Bool) : Core :=
  if k = 0 then c
  else { c with pred := if b then c.pred ||| (1#8 <<< k.toNat) else c.pred &&& ~~~(1#8 <<< k.toNat) }

/-- An accumulator. -/
def Core.ac (c : Core) (a : BitVec 2) : BitVec 80 := mget (fun _ => 0) c.acc a.toNat
def Core.setAc (c : Core) (a : BitVec 2) (v : BitVec 80) : Core := { c with acc := mset (fun _ => 0) c.acc a.toNat v }

/-- An entry register. -/
def Core.en (c : Core) (k : Nat) : Long := mget (fun _ => 0) c.e k
def Core.setEn (c : Core) (k : Nat) (v : Long) : Core := { c with e := mset (fun _ => 0) c.e k v }

/-- The stack pointer by convention. -/
def Core.sp (c : Core) : Long := c.gr 31

/-- Put the status. -/
def Core.setSt (c : Core) (w : Grain) : Core := { c with st := w }

/-- Is a loop level active? -/
def Core.la0 (c : Core) : Bool := c.st.getLsbD stLA0
def Core.la1 (c : Core) : Bool := c.st.getLsbD stLA1

/-! ### The core control block (R205 to R211, R532) -/

def Core.ccbL (c : Core) (off : Nat) : Long := mget (fun _ => 0) c.ccb off
def Core.setCcb (c : Core) (off : Nat) (v : Long) : Core := { c with ccb := mset (fun _ => 0) c.ccb off v }

/-- Count up a performance counter, modulo 2^40. -/
def Core.count (c : Core) (off : Nat) (n : Nat) : Core := c.setCcb off (c.ccbL off + BitVec.ofNat 40 n)

def ccbRetired : Nat := 0x36
def ccbPaired : Nat := 0x38
def ccbKills : Nat := 0x3A
def ccbIcMiss : Nat := 0x3C
def ccbIcPerr : Nat := 0x3E

/-- Does an offset of a core control block hold a register (R210, R532)? -/
def ccbReg (o : Nat) : Bool := o % 2 == 0 && decide (o < 0x4A)

/-- A kill event (R201): fetched successors go, so the next instruction pairs with nothing. -/
def Core.kill (c : Core) : Core := { c.count ccbKills 1 with prev := none }

/-- The union of the attributes of every region that holds a grain address (R206): bit 0 NX, 1 RO, 2 DEV. -/
def Core.attr (c : Core) (a : Nat) (k : Nat) : Bool :=
  (List.range 8).any (fun r =>
    let w := c.ccbL (6 * r + 4)
    w.getLsbD 3 && w.getLsbD k && decide ((c.ccbL (6 * r)).toNat ≤ a) && decide (a ≤ (c.ccbL (6 * r + 2)).toNat))

/-! ### Grain addresses -/

/-- Address a + n modulo 2^40. -/
def addrAdd (a n : Nat) : Nat := (a + n) % 1099511627776

/-- Does the core see plain memory at a grain address: mapped, not register space, not a DEV region? -/
def State.memKey (s : State) (i a : Nat) : Option Nat :=
  match s.place i a with
  | .mem k => if (s.core i).attr a 2 then none else some k
  | _ => none

/-! ### Side units (R161, R195 to R197) -/

/-- A side operation delivers: registers and sticky flags. -/
def Core.deliver (c : Core) (o : SideOp) : Core :=
  let c1 := o.writes.foldl (fun x w => x.putG w.1 w.2) c
  c1.setSt (stickSV (if o.af then putBit c1.st stAF true else c1.st) o.sv)

/-- Every pending operation delivers or raises its fault: the first fault in program order as PC and cause, and
whether another faulted too (R234). -/
def Core.waitSide (c : Core) : Core × Option (Long × Nat × Bool) :=
  let c1 := (c.side.filter (fun o => o.cause = 0)).foldl Core.deliver { c with side := [] }
  match c.side.filter (fun o => o.cause ≠ 0) with
  | [] => (c1, none)
  | o :: rest => (c1, some (o.pc, o.cause, !rest.isEmpty))

/-! ### Faults and their record (R225, R231, R232) -/

/-- A fault as raised. -/
structure Flt where
  vec : Nat
  cause : Nat
  addr : Long
  impr : Bool := false
  multi : Bool := false
  split : Bool := false
  half : Bool := false
  fetch : Bool := false
  write : Bool := false
  deriving DecidableEq, Repr

/-- FINFO of a fault under a mask level. -/
def finfoOf (f : Flt) (esc : Bool) (mask : Nat) : Long :=
  let b (x : Bool) (k : Nat) : Nat := if x then 2 ^ k else 0
  BitVec.ofNat 40 (f.vec * 2 ^ 34 + f.cause * 2 ^ 30 + b esc 29 + b f.impr 28 + b f.multi 27 + b f.split 26 + b f.half 25
    + b f.fetch 24 + b f.write 23 + mask * 2 ^ 20)

/-- The fault of a side-unit operation. -/
def sideFlt (x : Long × Nat × Bool) (impr : Bool) : Flt := { vec := 6, cause := x.2.1, addr := x.1, impr := impr, multi := x.2.2 }

/-- The level of a vector (R225). -/
def vecLevel (v : Nat) : Nat := if v = 6 ∨ v = 10 then 1 else if v = 8 then 3 else 2

/-! ### Halts (R242, R243, R245 to R247) -/

/-- Halt reasons (R243, R531). -/
def whyEsc : Nat := 1
def whyOvf : Nat := 2
def whyEntry : Nat := 3
def whyDebug : Nat := 4
def whyBreak : Nat := 5
def whyStep : Nat := 6
def whyWatch : Nat := 7

/-- The halt report of a core (R243). -/
def haltReport (i reason : Nat) (c : Core) (beat : BitVec 48) : List Long :=
  [BitVec.ofNat 40 (0x2 * 2 ^ 36 + i * 2 ^ 26 + reason * 2 ^ 22), c.pc, c.faddr, c.finfo, c.sp, beat.setWidth 40]

/-- A steward lockup drives LOCKUP_N low (R246). -/
def State.stewardLock (s : State) : State :=
  (((s.onCore 1024 (fun c => { c with run := .locked })).wr R.BOOT_STAT_LOCKUP 1).emit (.lockupPin true))

/-- Is a core halted? -/
def Core.isHalted (c : Core) : Bool :=
  match c.run with
  | .halted _ => true
  | _ => false

/-- DBG_HALT completes once every core of its mask is halted (R536). -/
def State.haltDone (s : State) : State :=
  s.wh.haltWait.foldl (fun t w =>
    if (List.range 16).all (fun k => w.2.2 / 2 ^ k % 2 == 0 || (t.core (16 * w.2.1 + k)).isHalted) then
      (t.onWh (fun z => { z with haltWait := z.haltWait.filter (fun x => x ≠ w) })).complete w.1 stOk []
    else t) s

/-- A core halts, or locks (R242, R245): registers stay; FADDR and FINFO take the values given, if any. -/
def State.halt (s : State) (i reason : Nat) (rec : Option (Long × Long)) : State :=
  let c0 := s.core i
  let c := match rec with
    | some (a, f) => { c0 with faddr := a, finfo := f }
    | none => c0
  let s1 := s.setCore i { c with step := false, prev := none }
  if i = 1024 then s1.stewardLock
  else if i = 1025 then (s1.onCore 1025 (fun x => { x with run := .locked })).kennelLock
  else
    (s1.setCore i { c with
      run := .halted reason
      report := some (haltReport i reason c s.beat.num)
      step := false
      haltReq := false
      prev := none }).cicEdge (i / 16) 67 |>.whFault 1 |>.haltDone

/-! ### Taking an exception (R227 to R232, R237) -/

/-- What is entered: a fault, a beat overrun at the edge that raised it, or an interrupt. -/
inductive CoreEvent where
  | fault (f : Flt)
  | overrun (edge : BitVec 48)
  | irq (src prio : Nat)
  deriving DecidableEq, Repr

/-- The fault record an event writes; an interrupt writes none but on a halt. -/
def eventFlt : CoreEvent → Flt
  | .fault f => f
  | .overrun e => { vec := 10, cause := 0, addr := e.setWidth 40 }
  | .irq _ p => { vec := 16 + p, cause := 0, addr := 0 }

/-- R237: the vector and new mask level of an event; none for the halt. -/
def maskRule (e : CoreEvent) (m : Nat) : Option (Nat × Nat × Bool) :=
  match e with
  | .irq _ p => some (16 + p, m, false)
  | .overrun _ => some (10, 1, false)
  | .fault f =>
    if m < vecLevel f.vec then some (f.vec, vecLevel f.vec, false)
    else if m < 3 then some (8, 3, true)
    else none

/-- The 16 grain addresses of a frame. -/
def frameGrains (sp : Nat) : List Nat := (List.range 16).map (addrAdd sp)

/-- R227, step 3: the first frame grain that is unmapped, register space or read-only. -/
def State.badFrame (s : State) (i sp : Nat) : Option Nat :=
  (frameGrains sp).find? (fun a => (s.memKey i a).isNone || (s.core i).attr a 1)

/-- R227, step 4: the grain of the vector whose fetch fails. -/
def State.badVector (s : State) (i vec : Nat) : Option Nat :=
  [8 * vec, 8 * vec + 1].find? (fun a => (s.core i).attr a 0 ||
    (match s.memKey i a with
      | none => true
      | some k => s.badLong k))

/-- R571: a fetch of the grain at a that met an uncorrectable error has found it. -/
def State.metAt (s : State) (i a : Nat) : State :=
  match s.memKey i a with
  | some k => if s.badLong k then s.foundUnc k else s
  | none => s

/-- The frame's longs (R228). -/
def frameLongs (c : Core) (vec : Nat) : List Long :=
  let l := if c.la1 then c.l1 else c.l0
  [c.pc, BitVec.ofNat 40 (c.mode.toNat * 2 ^ 20 + c.st.toNat),
   BitVec.ofNat 40 (vec * 2 ^ 34 + c.mask.toNat * 2 ^ 32 + (if c.la1 then 2 ^ 31 else 0) + c.leash.toNat * 2 ^ 20 + c.pred.toNat),
   l.cnt, l.beg, l.fin, c.gr 1, c.gr 2]

/-- The instruction cache line of a grain address, and a line dropped from a core's cache (R198, R202). -/
def icLine (a : Nat) : Nat := a / 16
def Core.dropLine (c : Core) (a : Nat) : Core := { c with ic := c.ic.filter (fun l => l ≠ icLine a) }

/-- The addresses at which core i sees the grain it sees at a: cluster memory has two (R167). -/
def views (i a : Nat) : List Nat :=
  let b := clusterBase (i / 16)
  if 1024 ≤ i then [a]
  else if 0x10000 ≤ a ∧ a < 0x90000 then [a, b + (a - 0x10000)]
  else if b ≤ a ∧ a < b + 0x80000 then [a, a - b + 0x10000]
  else [a]

/-- R202: a store of core i to a grain drops every cached line that holds it. -/
def State.icDrop (s : State) (i a : Nat) : State := s.onCore i (fun c => (views i a).foldl Core.dropLine c)

/-- Write a frame's longs from an address on, by a core that sees memory there. -/
def State.pushFrame (i sp : Nat) : Nat → List Long → State → State
  | _, [], s => s
  | j, v :: r, s =>
    let a := addrAdd sp (2 * j)
    let s1 := match s.memKey i a with
      | some k => (s.setLong k v).spoil k 2
      | none => s
    State.pushFrame i sp (j + 1) r (s1.icDrop i a)

/-- R229: the registers after entry. -/
def entered (c : Core) (e : CoreEvent) (vec mask : Nat) (esc : Bool) : Core :=
  let f := eventFlt e
  let c1 : Core := (c.putG 31 (c.sp - 16)).kill
  let c2 : Core := { c1 with
    pc := BitVec.ofNat 40 (8 * vec)
    st := putBit (putBit c1.st stLA0 false) stLA1 false
    leash := 0
    mask := BitVec.ofNat 2 mask
    shadow := 2
    run := .running
    brkPass := false
    watchPass := false }
  match e with
  | .irq _ _ => c2
  | .overrun _ => { c2 with ovr := none, faddr := f.addr, finfo := finfoOf f false c.mask.toNat }
  | .fault _ => { c2 with faddr := f.addr, finfo := finfoOf f esc c.mask.toNat }

/-- The CIC of a core and the core's number in it (R264). -/
def coreCic (i : Nat) : Nat := if i < 1024 then i / 16 else 64
def coreNo (i : Nat) : Nat := if i < 1024 then i % 16 else 0

/-- R533: a step that an event ends halts at the first instruction of the handler. -/
def State.stepEnd (s : State) (i : Nat) : State := if (s.core i).step then s.halt i whyStep none else s

/-- Exception entry (R227), the pending side-unit operations having delivered. On a halt by R242's OVERFLOW and ENTRY, FINFO
has what R231's table gives: VEC and CAUSE of the event being entered, with FETCH or WRITE for the check that failed. -/
def State.enter (s : State) (i : Nat) (e : CoreEvent) : State :=
  let c := s.core i
  let f := eventFlt e
  let m := c.mask.toNat
  let brief (fetch write : Bool) : Long := finfoOf { vec := f.vec, cause := f.cause, addr := 0, fetch := fetch, write := write } false m
  match maskRule e m with
  | none => s.halt i whyEsc (some (f.addr, finfoOf f true m))
  | some (vec, mask, esc) =>
    let sp := c.sp - 16
    if c.sp.toNat < c.slim.toNat + 16 then s.halt i whyOvf (some (sp, brief false false))
    else if c.sp.getLsbD 0 then s.halt i whyEntry (some (sp, brief false true))
    else match s.badFrame i sp.toNat with
      | some a => s.halt i whyEntry (some (BitVec.ofNat 40 a, brief false true))
      | none =>
        match s.badVector i vec with
        | some a => (if c.attr a 0 then s else s.metAt i a).halt i whyEntry (some (BitVec.ofNat 40 a, brief true false))
        | none =>
          let s1 := State.pushFrame i sp.toNat 0 (frameLongs c vec) s
          let s2 := s1.onCore i (fun x => entered x e vec mask esc)
          let s3 := match e with
            | .irq src _ => s2.setCic (coreCic i) ((s2.cic (coreCic i)).accept (coreNo i) src s2.time)
            | _ => s2
          s3.stepEnd i

/-- Taking an exception (R227, step 1): every pending side-unit operation delivers first; one that faults is entered
for in place of the event, which stays pending or, a synchronous fault, is dropped. -/
def State.takeException (s : State) (i : Nat) (e : CoreEvent) : State :=
  let (c, sf) := (s.core i).waitSide
  let s1 := s.setCore i c
  match sf with
  | some x => s1.enter i (.fault (sideFlt x true))
  | none => s1.enter i e

/-! ### What is taken at a boundary (R226) -/

/-- The interrupt delivered to a core, where nothing holds it off (order 3). -/
def State.irqEvent (s : State) (i : Nat) (held : Bool) : Option CoreEvent :=
  if held || decide (1025 ≤ i) then none
  else (s.bestOffer (coreCic i) (coreNo i)).map (fun src => .irq src (cfgPrio ((s.cic (coreCic i)).srcCfg src)))

/-- The first applicable event of orders 1 to 3. -/
def State.boundaryEvent (s : State) (i : Nat) : Option CoreEvent :=
  let c := s.core i
  let held := c.leash != 0 || c.shadow != 0
  match c.side.find? (fun o => o.failed) with
  | some o => some (.fault (sideFlt (o.pc, o.cause, false) true))
  | none =>
    match c.ovr with
    | some e => if !held && c.mask == 0 then some (.overrun e) else s.irqEvent i held
    | none => s.irqEvent i held

/-- Is a core's domain on? -/
def State.coreOn (s : State) (i : Nat) : Bool :=
  if i < 1024 then s.domOn (domCluster (i / 16)) else if i = 1024 then s.domOn domSteward else s.domOn domKennel

/-- Does the core issue instructions or wait in BWAIT? -/
def State.active (s : State) (i : Nat) : Bool := (s.core i).takes && s.coreOn i

/-! ### Core reset, notices, overrun -/

/-- R139, R224, R250, R261, R537: a core reset leaves the core in a run state; an unsent halt report stays with the
cluster. -/
def State.coreReset (s : State) (i : Nat) (r : RunState) : State :=
  let s1 := s.setCore i { run := r, work := s.beat.num, report := (s.core i).report }
  if i < 1025 then s1.setCic (coreCic i) ((s1.cic (coreCic i)).coreReset (coreNo i)) else s1

/-- R181: a notice is posted to cluster c, with its tag and the beat of the post. -/
def State.noticeTo (s : State) (c : Nat) (tag : BitVec 36) (beat : BitVec 48) : State :=
  (List.range 16).foldl (fun t k => t.onCore (16 * c + k) (fun x =>
    { x with wake := true, skip := x.skip || x.wake, tag := tag, wakeBeat := beat })) s

/-- R13, R54: a sample core goes on in this beat, so its cluster has a core that has to reach BWAIT. -/
def State.coreBusy (s : State) (i : Nat) : State :=
  if i < 1024 then s.setClu (i / 16) { s.clu (i / 16) with busy := true } else s

/-- R236: the overrun pending bit of a core keeps the edge that first set it. -/
def Core.setOvr (c : Core) (edge : BitVec 48) : Core :=
  match c.ovr with
  | some _ => c
  | none => { c with ovr := some edge }

/-! ### The rows -/

/-- R161, R164: the oldest operation of a unit completes. An unsuppressed fault is taken at once where the core runs,
and else at its next boundary. -/
def State.sideDeliver (s : State) (i : Nat) (u : SideUnit) : State :=
  let c := s.core i
  match c.side.find? (fun o => o.unit = u ∧ !o.failed) with
  | none => s
  | some o =>
    if o.cause = 0 then s.setCore i ({ c with side := c.side.erase o }.deliver o)
    else if s.active i then s.takeException i (.fault (sideFlt (o.pc, o.cause, false) true))
    else s.setCore i { c with side := c.side.map (fun x => if x = o then { x with failed := true } else x) }

/-- SIDE_UNIT_DELIVER (R161). -/
def execSideUnitDeliver (core : CoreSel) (u : SideUnit) (s : State) : Host.Outcome State Fault Refusal :=
  done (s.sideDeliver (coreIdx core) u)

/-- R243: the report is offered to queue 0xFFBF; accepted, the steward reports the halt (R482). While QUEUE is not on it
waits (R293). -/
def State.offerReport (s : State) (i : Nat) : State :=
  match (s.core i).report with
  | none => s
  | some l =>
    if !s.domOn domQueue then s
    else
      let ok := s.accepts 0xFFBF
      let s1 := s.enqueue 0xFFBF { longs := l }
      if ok then (s1.onCore i (fun c => { c with report := none })).selfFaultDue 0x0101 (i / 16) (l.map leLong).flatten else s1

/-- HALT_REPORT (R243). -/
def execHaltReport (core : CoreSel) (s : State) : Host.Outcome State Fault Refusal := done (s.offerReport (coreIdx core))

/-- LEASH_EXPIRE (R240): a leash of 1 reaches 0 by decrement. A leash of more has more retirements to count (log 23). -/
def execLeashExpire (core : CoreSel) (s : State) : Host.Outcome State Fault Refusal :=
  let i := coreIdx core
  done (if s.active i && (s.core i).leash == 1 then s.onCore i (fun c => { c with leash := 0, st := putBit c.st stLX true }) else s)

/-- ENTRY_SHADOW_END (R235): the second handler instruction retires, the first having done so (log 23). -/
def execEntryShadowEnd (core : CoreSel) (s : State) : Host.Outcome State Fault Refusal :=
  let i := coreIdx core
  done (if s.active i && (s.core i).shadow == 1 then s.onCore i (fun c => { c with shadow := 0 }) else s)

/-- R204: a line of the instruction cache is invalidated; fetched successors are killed (R201). -/
def Core.icInvLine (c : Core) (a : Nat) : Core := (c.dropLine a).kill

/-- R204: the whole cache and the branch target buffer. -/
def Core.icInvAll (c : Core) : Core := { c.kill with ic := [], btb := [] }

/-- ICINV_LINE (R204): the store to the core's own control block. -/
def execIcinvLine (core : CoreSel) (a : Long) (s : State) : Host.Outcome State Fault Refusal :=
  let i := coreIdx core
  done (if s.coreOn i then s.onCore i (·.icInvLine a.toNat) else s)

/-- ICINV_ALL (R204). -/
def execIcinvAll (core : CoreSel) (s : State) : Host.Outcome State Fault Refusal :=
  let i := coreIdx core
  done (if s.coreOn i then s.onCore i Core.icInvAll else s)

/-- R530, R531: a core asked to halt does so at its next boundary; a held one keeps the request. -/
def State.haltReq (s : State) (i : Nat) : State :=
  if !s.coreOn i then s
  else if (s.core i).takes then s.halt i whyDebug none
  else if (s.core i).run = .held then s.onCore i (fun c => { c with haltReq := true })
  else s

/-- A store to the debug halt long 0 of a cluster. -/
def State.debugHalt (s : State) (c : Nat) (mask : BitVec 16) : State :=
  (List.range 16).foldl (fun t k => if mask.getLsbD k then t.haltReq (16 * c + k) else t) s

/-- HALT_REQ (R530). -/
def execHaltReq (c : BitVec 6) (mask : BitVec 16) (s : State) : Host.Outcome State Fault Refusal :=
  done (s.debugHalt c.toNat mask)

/-- RE_SUBMIT (R298): a store by a core; the cluster's registers are reached only while it is on (R570). -/
def execReSubmit (core : CoreSel) (c : BitVec 6) (v : Long) (s : State) : Host.Outcome State Fault Refusal :=
  done (if s.domOn (domCluster c.toNat) then s.reSubmit (coreIdx core) c.toNat v else s)

end Sys2Proof.Machine
end

