-- ==== Sys2Proof/Machine/PortOps.lean ====
section
/-! DEFINITION. Sample ports (03): plans, management messages, delay measurement, modules that arrive and leave, the
port checks of a commit, DRIVE_ABORT_N. -/

namespace Sys2Proof.Machine

open Sys2Proof

/-! ### Ports -/

def State.port (s : State) (p : Nat) : Port := mget (fun _ => {}) s.ports p
def State.onPort (s : State) (p : Nat) (f : Port → Port) : State := { s with ports := mset (fun _ => {}) s.ports p (f (s.port p)) }

/-- SP_STAT.STATE codes (R98). -/
def spOffSt : Nat := 0
def spTraining : Nat := 1
def spIdent : Nat := 2
def spActive : Nat := 3
def spHold : Nat := 4

def State.spState (s : State) (p : Nat) : Nat := s.rd (R.SP_STAT_STATE p)
def State.setSpState (s : State) (p n : Nat) : State := s.wr (R.SP_STAT_STATE p) n

/-- The sixteen sample ports. -/
def spPorts : List Nat := List.range 16

/-- Does a module talk on port p: IDENT, ACTIVE or HOLD? -/
def State.spTalks (s : State) (p : Nat) : Bool := s.spState p == spIdent || s.spState p == spActive || s.spState p == spHold

/-! ### Management messages (R88) -/

/-- Does port p loop its transmitter to its receiver (R98), so that it hears itself and not the module? -/
def State.spLoop (s : State) (p : Nat) : Bool := s.bit (R.SP_CTRL_LOOP p)

/-- Does port p hear a module? -/
def State.spHears (s : State) (p : Nat) : Bool := s.spTalks p && !s.spLoop p

/-- Answer a message with an ACK that names its tag. -/
def State.mgmtAck (s : State) (p tag : Nat) : State := s.emit (.sample p (spMgmt tag 0x0D (le 1 tag)))

/-- Send a management message, kept until it is acknowledged. With LOOP it comes back to the port's own receiver, which
answers it with an ACK; that comes back too, and acknowledges it (log 19). -/
def State.mgmtSend (s : State) (p kind : Nat) (body : List Octet) : State :=
  let t := (s.port p).nextTag
  let s1 := (s.onPort p (fun x => { x with nextTag := (t + 1) % 256 })).emit (.sample p (spMgmt t kind body))
  if s.spLoop p then s1.mgmtAck p t
  else s1.onPort p (fun x => { x with mgmt := x.mgmt ++ [(⟨t, kind, body, 1⟩ : Mgmt)] })

/-- A message of a module, of a type with its body: acknowledged, and acted on, where the port hears a module and the CRC-32
holds. One whose CRC fails is not acknowledged, so its sender repeats it (DEDUCED, log 8). -/
def State.mgmtIn (s : State) (p : BitVec 4) (m : MgmtTag) (kind : Nat) (body : List Octet) (act : Nat → State → State) : State :=
  if s.spHears p.toNat && m.holds kind body then act p.toNat (s.mgmtAck p.toNat m.tag.toNat) else s

/-- R88: a message not acknowledged within 1 ms is repeated, the fourth time dropped. -/
def State.mgmtRetry (s : State) (p tag : Nat) : State :=
  match (s.port p).mgmt.find? (fun m => m.tag = tag) with
  | none => s
  | some m =>
    if m.sends < 4 then
      (s.onPort p (fun x => { x with mgmt := x.mgmt.map (fun y => if y.tag = tag then { y with sends := y.sends + 1 } else y) })).emit
        (.sample p (spMgmt m.tag m.kind m.body))
    else (s.onPort p (fun x => { x with mgmt := x.mgmt.filter (fun y => y.tag ≠ tag) })).set1 (R.SP_EVT_MOD_EVT p)

/-! ### Plans (R78) -/

/-- Channels in ascending order of number. -/
def insertChan (c : PlanChan) : List PlanChan → List PlanChan
  | [] => [c]
  | d :: r => if c.ch ≤ d.ch then c :: d :: r else d :: insertChan c r

/-- The channels with a non-zero rate that a configuration binds to port p: inputs, then drives. -/
def planOf (p : Nat) (cs : List CtxCfg) : List PlanChan :=
  let of (ty : Nat) (drive : Bool) : List PlanChan :=
    ((cs.filter (fun c => c.on && c.ctype == ty && c.port == p)).map (fun c => (⟨drive, c.channel, c.spb, c.fmt⟩ : PlanChan))).foldr insertChan []
  of tyIn false ++ of tyOut true

/-- The contexts in force, and those of the staged set, taken apart. -/
def State.cfgsIn (s : State) : List CtxCfg := s.ctxOn.map s.cfg
def State.cfgsNew (s : State) : List CtxCfg := s.ctxOnNew.map s.cfgNew


/-- The beat number that names the first edge after the beat next starts (R78). -/
def planNext : BitVec 48 := 0xFFFFFFFFFFFF

/-- The body of a PLAN: ID, period, target edge, channels. -/
def planBody (id pq : Nat) (target : BitVec 48) (l : List PlanChan) : List Octet :=
  le 1 id ++ le 4 (pq / 4294967296) ++ le 4 (pq % 4294967296) ++ le 6 target.toNat ++ le 2 l.length
    ++ (l.map (fun c => le 1 (if c.drive then 1 else 0) ++ le 2 c.ch ++ le 2 c.spb ++ le 1 c.fmt)).flatten

/-- The identity of a descriptor (R82). -/
def ModDesc.ident (d : ModDesc) : Nat := (d.vendor * 65536 + d.mtype) * 18446744073709551616 + d.serial

/-- Send a plan to port p under a new ID. DESIGN CHOICE (log 8): IDs count from 1 after reset, modulo 256; the spec asks for "a
new 8-bit plan ID" only. -/
def State.sendPlan (s : State) (p pq : Nat) (target : Option (BitVec 48)) (l : List PlanChan) (byCommit : Bool) : State :=
  let id := (s.port p).nextId
  let s1 := s.onPort p (fun x => { x with
    nextId := (id + 1) % 256
    plan := some ⟨id, target, l, none, byCommit⟩
    planFor := x.desc.map ModDesc.ident })
  (((s1.wr (R.SP_STAT_PLAN_PEND p) 1).wr (R.SP_STAT_PLAN_ACK p) 0)).mgmtSend p 0x03 (planBody id pq (target.getD planNext) l)

/-- The first edge at or after an instant: its number and instant. -/
def State.edgeFrom (s : State) (t : Int) : BitVec 48 × Int :=
  match s.beat.first with
  | some (n, tf) =>
    let k := max 0 ((t - tf + s.periodU - 1) / s.periodU)
    (n + BitVec.ofInt 48 k, tf + k * s.periodU)
  | none => s.gridFrom t

/-- Does the beat have a next edge? -/
def State.hasEdges (s : State) : Bool := s.beat.phase != .stopped

/-- R575: the plan of the configuration in force, to a module that enters ACTIVE. -/
def State.arrivalPlan (s : State) (p : Nat) : State :=
  let lead : Int := max (64 * s.periodU) (10000000 * nsU)
  s.sendPlan p s.pqIn (if s.hasEdges then some (s.edgeFrom (s.time + lead)).1 else none) (planOf p s.cfgsIn) false

/-- A plan no longer pends. -/
def State.dropPlan (s : State) (p : Nat) : State :=
  ((s.onPort p (fun x => { x with plan := none })).wr (R.SP_STAT_PLAN_PEND p) 0).wr (R.SP_STAT_PLAN_ACK p) 0

/-! ### The checks of R81 -/

/-- A link cycle in ns (R65). -/
def cycleNs (gen : Nat) : Nat := if gen = 1 then 640 else if gen = 2 then 160 else 64

/-- Words of a block of n samples (R75). -/
def blockWords (n : Nat) : Nat := (20 * n + 63) / 64 + 2

/-- Samples a beat of the input or drive channels of a plan. -/
def planSamples (drive : Bool) (l : List PlanChan) : Nat := ((l.filter (fun c => c.drive == drive)).map (·.spb)).foldl (· + ·) 0

/-- The generation the checks use. -/
def State.checkGen (s : State) (p : Nat) : Nat :=
  let sel := s.rd (R.SP_CTRL_GEN_SEL p)
  if s.spTalks p then s.rd (R.SP_STAT_GEN_ACT p)
  else if 1 ≤ sel ∧ sel ≤ 3 then sel
  else if (s.port p).lastGen = 0 then 3 else (s.port p).lastGen

/-- Checks 0x40 to 0x46 of port p for a configuration, a period and a deadline: the codes that fail. Times in 1/768 ns. -/
def State.portChecks (s : State) (p : Nat) (cs : List CtxCfg) (pq dl : Nat) : List Nat :=
  let l := planOf p cs
  let cyc := cycleNs (s.checkGen p)
  let delay := 24 * s.rd (R.SP_DELAY_DELAY p)
  let bound := cs.filter (fun c => c.on && (c.ctype == tyIn || c.ctype == tyOut) && c.port == p)
  let a := if (delay + 32 * cyc * blockWords (planSamples false l) + 1536 * cyc) * 1099511627776 > 768 * dl * pq then [0x40] else []
  let b := if dl = 0 then [0x42] else []
  match s.spTalks p, (s.port p).desc with
  | true, some d =>
    a ++ (if l.any (·.drive) ∧ 32 * cyc * blockWords (planSamples true l) + delay + 768 * cyc > 768 * d.outDelay then [0x41] else []) ++ b
      ++ (if bound.any (fun c => decide (d.maxSpb < c.spb)) then [0x43] else [])
      ++ (if bound.any (fun c => d.formats / 2 ^ c.fmt % 2 == 0) then [0x44] else [])
      ++ (if pq < d.minPeriod * 4294967296 ∨ d.maxPeriod * 4294967296 < pq then [0x45] else [])
      ++ (if bound.any (fun c => decide ((if c.ctype = tyIn then d.inCh else d.drvCh) ≤ c.channel)) then [0x46] else [])
  | _, _ => a ++ b

/-- Does the configuration in force fail a check against the module on port p (R82)? -/
def State.portConflict (s : State) (p : Nat) : Bool := !(s.portChecks p s.cfgsIn s.pqIn (s.rdF (R.SP_TIMING_DL p))).isEmpty

/-! ### Sensors (R89, R91) -/

/-- The IN contexts in force bound to a channel of a port. -/
def State.inOf (s : State) (p ch : Nat) : List Nat := (s.ctxOf tyIn).filter (fun i => (s.cfg i).port = p ∧ (s.cfg i).channel = ch)

/-- A SENSOR_ID record (R405). -/
def sensorRec (p ev : Nat) (m : SensorMsg) (ctx : Option Nat) (serial : Nat) : JRec :=
  { rtype := 0x06, subject := p * 65536 + m.channel.toNat, beat := m.beat, part := false, last := false
    body := le 1 p ++ le 1 ev ++ le 2 m.channel.toNat ++ le 6 m.beat.toNat ++ le 4 (ctx.getD 0xFFFFFFFF) ++ le 8 serial
      ++ le 8 m.basic.toNat ++ le 1 m.template.toNat ++ le 1 0 ++ le 2 m.data.length ++ m.data }

/-- Journal a sensor identity, and keep TEDS_REF of its context; the place in the steward's sensor table is open. -/
def State.sensorId (s : State) (p ev : Nat) (m : SensorMsg) (known : Bool) : State :=
  let l := s.inOf p m.channel.toNat
  let serial := ((s.port p).desc.map (·.serial)).getD 0
  let s1 := l.foldl (fun t i =>
    (t.setCtxL i 7 (withBits (t.ctxL i 7) 0 20 (if known then t.freeVal % 1048575 else 1048575))).freeNext) s
  s1.offerRec (sensorRec p ev m l.head? serial)

/-- R91: a port leaves ACTIVE: each known sensor becomes UNKNOWN. -/
def State.forgetSensors (s : State) (p : Nat) : State :=
  let l := (s.port p).sensors
  (l.foldl (fun t e => t.sensorId p 6 { e.2 with beat := s.beat.num } false) s).onPort p (fun x => { x with sensors := [], teds := [] })

/-- R90: the kind of a template. -/
def tedsKind (template : Nat) : TedsKind :=
  if template = 25 then .accelForce
  else if template = 30 then .highVoltage
  else if template = 33 then .bridge
  else if template = 35 then .strain
  else .relayed

/-- R90: Basic TEDS (14, 15, 5, 6 and 24 bits from bit 0: PRESUMED, IEEE 1451.4, log 8) and the template decoded. -/
def decodeTeds (m : SensorMsg) : Teds :=
  let f (lo n : Nat) : Nat := m.basic.toNat / 2 ^ lo % 2 ^ n
  let k := tedsKind m.template.toNat
  ⟨f 0 14, f 14 15, f 29 5, f 34 6, f 40 24, k, if k = .relayed then [] else Config.tedsFields m.template.toNat m.data⟩

/-- The body of a SENSOR message (R89). -/
def sensorBody (m : SensorMsg) : List Octet :=
  le 2 m.channel.toNat ++ [m.event] ++ le 6 m.beat.toNat ++ le 8 m.basic.toNat ++ [m.template] ++ m.data

/-- SENSOR (R89, R91). DESIGN CHOICE (log 8): READ_ERR leaves whether the sensor counts as known as it was; ATTACH, CHANGE and
PRESENT make it known. -/
def State.sensor (s : State) (p : Nat) (m : SensorMsg) : State :=
  let ch := m.channel.toNat
  let was := (s.port p).sensors.any (fun e => e.1 = ch)
  let ev := m.event.toNat
  let known := if ev = 2 then false else if ev = 4 then was else true
  let rest := (s.port p).sensors.filter (fun e => e.1 ≠ ch)
  let teds := (s.port p).teds.filter (fun e => e.1 ≠ ch)
  let s1 := s.onPort p (fun x => { x with
    sensors := if known then rest ++ [(ch, m)] else rest
    teds := if known then teds ++ [(ch, decodeTeds m)] else teds })
  ((s1.set1 (R.SP_EVT_SENSOR p)).hostEvent 0x0013 1 (le 1 p ++ le 1 ev ++ le 2 ch)).sensorId p ev m known

/-! ### One-way delay (R72) -/

/-- 16 ECHO words with distinct tags. -/
def State.sendEchos (s : State) (p : Nat) : State :=
  let t := (s.port p).echoTag
  let tags := (List.range 16).map (fun k => (t + k) % 65536)
  tags.foldl (fun u k => u.emit (.sample p (spEcho k)))
    (s.onPort p (fun x => { x with echo := tags, echoTag := (t + 16) % 65536, echoSum := 0 }))

/-- The measured delay is written, and sent where it is the first or differs by more than 0.5 ns. -/
def State.setDelay (s : State) (p d : Nat) : State :=
  let s1 := (((s.wr (R.SP_DELAY_DELAY p) d).wr (R.SP_DELAY_VALID p) 1)).toggle (R.SP_DELAY_TOG p)
  let send := match (s.port p).sent with
    | none => true
    | some x => decide (x + 16 < d ∨ d + 16 < x)
  if send then (s1.onPort p (fun x => { x with sent := some d })).mgmtSend p 0x06 (le 4 d) else s1

/-- An ECHO_REPLY: the sixteenth gives the average, rounded to the nearest unit; which way a value halfway goes is free (DESIGN
CHOICE, log 8). -/
def State.echoReply (s : State) (p tag turn rt : Nat) : State :=
  let x := s.port p
  if !(s.spHears p && x.echo.contains tag) then s
  else
    let sum := x.echoSum + (rt - turn)
    let left := x.echo.erase tag
    let s1 := s.onPort p (fun y => { y with echo := left, echoSum := sum })
    if left.isEmpty then s1.setDelay p (min (roundShift sum 5).toNat 16777215) else s1

/-! ### Arriving and leaving (R82 to R85) -/

/-- Training starts: AUTO begins with SL3. -/
def State.spTrain (s : State) (p : Nat) : State :=
  let sel := s.rd (R.SP_CTRL_GEN_SEL p)
  (s.setSpState p spTraining).onPort p (fun x => { x with window := if 1 ≤ sel ∧ sel ≤ 3 then sel else 3 })

/-- The arrival event (R482, R86). -/
def State.arrivalEvent (s : State) (p code : Nat) : State :=
  match (s.port p).desc with
  | none => s
  | some d => s.hostEvent 0x0010 1 (le 1 p ++ le 1 (s.spState p) ++ le 2 d.vendor ++ le 2 d.mtype ++ le 8 d.serial ++ le 1 code)

/-- R85: a module that goes before its binding has ended is reported all the same, with 0xFF (log 19). -/
def State.bindLost (s : State) (p : Nat) : State :=
  if (s.port p).bind.isSome then (s.arrivalEvent p 0xFF).onPort p (fun x => { x with bind := none }) else s

/-- What ends with a module's link. -/
def State.spClear (s0 : State) (p : Nat) : State :=
  let s := s0.bindLost p
  let s1 := s.onPort p (fun x => { x with
    desc := none
    sent := none
    plan := none
    inForce := none
    expect := none
    mgmt := []
    echo := []
    part := none
    blank := [] })
  [R.SP_STAT_GEN_ACT p, R.SP_STAT_LOCK p, R.SP_STAT_ABORT p, R.SP_STAT_PLAN_PEND p, R.SP_STAT_PLAN_ACK p, R.SP_STAT_HOLD_WHY p,
    R.SP_STAT_PLAN_ID p].foldl (fun t f => t.wr f 0) s1

/-- A port leaves the state it is in for TRAINING or OFF: to TRAINING from past IDENT the module departs. -/
def State.spLeave (s : State) (p : Nat) (train : Bool) : State :=
  let st := s.spState p
  let s1 := if st = spActive then s.forgetSensors p else s
  let s2 := if train ∧ spIdent ≤ st then s1.inc (R.SP_LINKDN_V p) else s1
  let s3 := if train ∧ spActive ≤ st then ((s2.set1 (R.SP_EVT_DEPART p)).hostEvent 0x0011 1 (le 1 p)).whFault 4 else s2
  let s4 := s3.spClear p
  if train then s4.spTrain p else s4.setSpState p spOffSt

/-- Does the steward try to bind the module of port p (R85)? -/
def State.autobinds (s : State) (p : Nat) : Bool :=
  s.bit (R.SP_CTRL_AUTOBIND p) && (mget (fun _ => none) s.str.tmpl p).isSome
    && !s.cfgsIn.any (fun c => (c.ctype == tyIn || c.ctype == tyOut) && c.port == p)
    && (match (s.port p).desc with
      | some d => decide (0 < d.inCh + d.drvCh)
      | none => false)


/-- A port enters HOLD. -/
def State.holdPort (s0 : State) (p why : Nat) : State :=
  let s := s0.bindLost p
  let s1 := if s.spState p = spActive then s.forgetSensors p else s
  let s2 := ((s1.dropPlan p).onPort p (fun x => { x with inForce := none, expect := none, part := none, blank := [] }))
  (((((s2.setSpState p spHold).wr (R.SP_STAT_PLAN_ID p) 0).wr (R.SP_STAT_HOLD_WHY p) why).wr (R.SP_STAT_ABORT p) 0).set1 (R.SP_EVT_HOLD p)).hostEvent 0x0012 1 (le 1 p ++ le 1 why)

/-- A port becomes ACTIVE, without its plan: blocks flow from that plan's edge, whatever was agreed before (R84, R575). -/
def State.becomeActive (s : State) (p : Nat) : State :=
  let s1 := ((s.setSpState p spActive).wr (R.SP_STAT_HOLD_WHY p) 0).wb (R.SP_STAT_ABORT p) (s.bit R.DRV_ABORT_STAT_LATCHED)
  s1.onPort p (fun x => { x with ident := x.desc.map ModDesc.ident, inForce := none, expect := none })

/-- The binding is tried, or the arrival reported at once (R85, R86). -/
def State.arrive (s : State) (p : Nat) : State :=
  if s.autobinds p then s.onPort p (fun x => { x with bind := some ⟨s.time, 0, 0, false⟩ }) else s.arrivalEvent p 0

/-- A port enters ACTIVE (R82, R575). -/
def State.enterActive (s : State) (p : Nat) : State := ((s.becomeActive p).arrivalPlan p).arrive p

/-- A little-endian number from an octet of a string on. -/
def leAt (l : List Octet) (o n : Nat) : Nat := ((l.drop o).take n).foldr (fun b a => b.toNat + 256 * a) 0

/-- A descriptor's fields (R87). -/
def parseDesc (l : List Octet) : ModDesc :=
  { vendor := leAt l 0 2, mtype := leAt l 2 2, serial := leAt l 4 8, inCh := leAt l 16 2, drvCh := leAt l 18 2, maxSpb := leAt l 20 2
    gens := leAt l 22 1, formats := leAt l 23 1, inDelay := leAt l 24 4, outDelay := leAt l 28 4, minPeriod := leAt l 32 4
    maxPeriod := leAt l 36 4, caps := leAt l 40 2 }

/-- R87: is a descriptor valid? -/
def descOk (l : List Octet) : Bool := l.length == 64 && leAt l 13 1 == 1 && leAt l 60 4 == crc32 (l.take 60)

/-- DESC (R82, R87). -/
def State.desc (s : State) (p : Nat) (l : List Octet) : State :=
  if s.spState p ≠ spIdent then s
  else if !descOk l then s.spLeave p true
  else
    let d := parseDesc l
    let s1 := s.onPort p (fun x => { x with desc := some d })
    let s2 := (((((s1.wr (R.SP_DESC0_VENDOR p) d.vendor).wr (R.SP_DESC0_TYPE p) d.mtype).wr (R.SP_DESC1_V p) (d.serial % 4294967296)).wr
      (R.SP_DESC2_V p) (d.serial / 4294967296)).wr (R.SP_DESC3_IN_CH p) d.inCh).wr (R.SP_DESC3_DRV_CH p) d.drvCh
    let s3 := s2.set1 (R.SP_EVT_ARRIVE p)
    let same := match (s.port p).ident with
      | none => true
      | some k => k == d.ident
    if !same then (s3.holdPort p 1).arrivalEvent p 0
    else if s3.portConflict p then (s3.holdPort p 2).arrivalEvent p 0
    else s3.enterActive p

/-- SP_CTRL.ACCEPT (R82). -/
def State.spAccept (s : State) (p : Nat) : State :=
  if s.spState p = spHold ∧ s.rd (R.SP_STAT_HOLD_WHY p) = 1 then s.enterActive p else s

/-- SP_CTRL.EN (R82). -/
def State.spEnable (s : State) (p : Nat) (en : Bool) : State :=
  let s1 := s.wb (R.SP_CTRL_EN p) en
  if !en then (if s.spState p = spOffSt then s1 else s1.spLeave p false)
  else if s.domOn (domSp p) ∧ s.spState p = spOffSt then s1.spTrain p
  else s1

/-- SP_CTRL.GEN_SEL (R82). -/
def State.spGenSel (s : State) (p g : Nat) : State :=
  let s1 := s.wr (R.SP_CTRL_GEN_SEL p) g
  if s.rd (R.SP_CTRL_GEN_SEL p) ≠ g ∧ s.spState p = spTraining then s1.spTrain p else s1

/-- Lock is reached at the generation tried (R82). -/
def State.spLock (s : State) (p gen : Nat) : State :=
  if s.spState p = spTraining ∧ gen = (s.port p).window then
    ((((s.setSpState p spIdent).wr (R.SP_STAT_GEN_ACT p) gen).wr (R.SP_STAT_LOCK p) 1).onPort p (fun x => { x with lastGen := gen })).sendEchos p
      |>.mgmtSend p 0x01 []
  else s

/-- An AUTO window ends: SL3, SL2, SL1 in turn. -/
def State.spWindow (s : State) (p : Nat) : State :=
  let sel := s.rd (R.SP_CTRL_GEN_SEL p)
  if s.spState p = spTraining ∧ ¬(1 ≤ sel ∧ sel ≤ 3) then
    s.onPort p (fun x => { x with window := if x.window ≤ 1 then 3 else x.window - 1 })
  else s

/-! ### Answers to plans (R78, R81, R575) -/

/-- Beats from the present edge to a target. -/
def State.beatsTo (s : State) (t : BitVec 48) : Nat := (t - s.beat.num).toNat

/-- The address of the elected master, where its record is known. -/
def State.masterAddr (s : State) : Option Nat :=
  s.fab.master.bind (fun m => (recOf s.liveDb m).map (fun r => r.addr.toNat))

/-- R53, R389: this member refuses the period change before it. -/
def State.periodRefuse (s : State) (code : Nat) : State :=
  match s.fab.period with
  | some c =>
    if c.refused then s
    else
      let s1 := (s.onFab (fun z => { z with period := some { c with refused := true } })).set1 R.PACK_EVT_PERIOD
      match s.masterAddr with
      | some a => s1.sendTo 3 a (.ctrl (.refuse (BitVec.ofNat 8 code) c.target))
      | none => s1
  | none => s

/-- Is a plan's answer still in time? -/
def State.inTime (s : State) (x : Plan) : Bool :=
  if x.byCommit then
    (if s.pendingCommit then !s.cutoff
     else match x.target with
      | some t => decide (16 ≤ s.beatsTo t)
      | none => true)
  else match x.target with
    | some t => !s.hasEdges || decide (16 ≤ s.beatsTo t)
    | none => true

/-- PLAN_ACK. -/
def State.planAck (s : State) (p id : Nat) : State :=
  match (s.port p).plan with
  | some x =>
    if x.id = id ∧ x.answer.isNone ∧ s.inTime x then
      (s.onPort p (fun y => { y with plan := some { x with answer := some none } })).wr (R.SP_STAT_PLAN_ACK p) 1
    else s
  | none => s

/-- PLAN_NAK: outside a commit the port enters HOLD; within one, or a pack period change, that fails. -/
def State.planNak (s : State) (p id reason : Nat) : State :=
  let s0 := (s.set1 (R.SP_EVT_PLAN_NAK p)).wr (R.SP_STAT_NAK_REASON p) reason
  match (s.port p).plan with
  | some x =>
    if x.id ≠ id ∨ x.answer.isSome then s0
    else if x.byCommit then
      (if s.inTime x then
        let s1 := s0.onPort p (fun y => { y with plan := some { x with answer := some (some reason) } })
        if s.pendingCommit then s1 else s1.periodRefuse 0x48
      else s0)
    else s0.holdPort p 2
  | none => s0

/-- R575: no answer 16 beats before the edge: the plan goes out again with a new target. -/
def State.planResend (s : State) (p : Nat) : State :=
  match (s.port p).plan with
  | some x =>
    match x.target with
    | some t => if !x.byCommit ∧ x.answer.isNone ∧ (!s.hasEdges ∨ s.beatsTo t ≤ 16) then s.arrivalPlan p else s
    | none => s
  | none => s

/-! ### DRIVE_ABORT_N (R92 to R94) -/

/-- The ramp of port p in ns: min(RAMP x 64, P - 1000 - delay), the second rounded down (R93). -/
def State.abortRamp (s : State) (p : Nat) : Nat :=
  min (s.rd R.DRV_ABORT_CTRL_RAMP * 64) ((s.pqIn * 32 - (32000 + s.rd (R.SP_DELAY_DELAY p)) * 4294967296) / 137438953472)

/-- A latch event: the count and its source; the first latches, and every ACTIVE port sends ABORT. -/
def State.abortEvent (s : State) (bySw : Bool) : State :=
  let s1 := (s.inc R.DRV_ABORT_STAT_COUNT).wb R.DRV_ABORT_STAT_BY_SW bySw
  if s.bit R.DRV_ABORT_STAT_LATCHED then s1
  else
    (spPorts.foldl (fun t p =>
      if t.spState p = spActive then (t.wr (R.SP_STAT_ABORT p) 1).emit (.sample p (spAbort (t.abortRamp p))) else t)
      (s1.wr R.DRV_ABORT_STAT_LATCHED 1)).whFault 2

/-- DRIVE_ABORT_N low past its filter. -/
def State.abortAssert (s : State) : State := ({ s with abortPin := true }.wr R.DRV_ABORT_STAT_PIN 1).abortEvent false

/-- The filtered pin rises. -/
def State.abortRelease (s : State) : State := { s with abortPin := false }.wr R.DRV_ABORT_STAT_PIN 0

/-- REARM, effective while the pin is high. -/
def State.abortRearm (s : State) : State :=
  if s.abortPin then s
  else spPorts.foldl (fun t p => t.wr (R.SP_STAT_ABORT p) 0) (s.wr R.DRV_ABORT_STAT_LATCHED 0)

/-! ### The SPGRP domains (R96, R573) -/

/-- Ports of group g. -/
def groupPorts (g : Nat) : List Nat := [4 * g, 4 * g + 1, 4 * g + 2, 4 * g + 3]

/-- The domain of group g has left the on state: links go, and registers but SP_CTRL, SP_TIMING, SP_EVT_EN reset. -/
def State.spGroupOff (s : State) (g : Nat) : State :=
  (groupPorts g).foldl (fun t p =>
    let t1 := (t.spLeave p false).onPort p (fun x => { ident := x.ident, lastGen := x.lastGen })
    [R.SP_STAT p, R.SP_DELAY p, R.SP_DESC0 p, R.SP_DESC1 p, R.SP_DESC2 p, R.SP_DESC3 p, R.SP_CODE_ERR p, R.SP_FEC_CORR p, R.SP_FEC_UNC p,
      R.SP_CRC_ERR p, R.SP_LATE p, R.SP_LINKDN p, R.SP_EVT p].foldl (fun u o => u.setWord o (wordReset o)) t1) s

/-- The domain of group g comes on: enabled ports train. -/
def State.spGroupOn (s : State) (g : Nat) : State :=
  (groupPorts g).foldl (fun t p => if t.bit (R.SP_CTRL_EN p) then t.spTrain p else t) s

/-- A write of SP_CTRL(p). -/
def State.spCtrlWrite (s : State) (p : Nat) (v : Reg32) : State :=
  let f (x : Fld) : Nat := fieldOf v x
  let s1 := (((s.spGenSel p (f (R.SP_CTRL_GEN_SEL p))).wr (R.SP_CTRL_AUTOBIND p) (f (R.SP_CTRL_AUTOBIND p))).wr (R.SP_CTRL_LOOP p) (f (R.SP_CTRL_LOOP p)))
  let s2 := s1.spEnable p (f (R.SP_CTRL_EN p) = 1)
  if f (R.SP_CTRL_ACCEPT p) = 1 then s2.spAccept p else s2

/-! ### The rows -/

/-- SP_CTRL_EN (R82). -/
def execSpCtrlEn (p : BitVec 4) (en : Bool) (s : State) : Host.Outcome State Fault Refusal := done (s.spEnable p.toNat en)

/-- SP_GEN_SEL_WRITE (R82). -/
def execSpGenSelWrite (p : BitVec 4) (g : BitVec 3) (s : State) : Host.Outcome State Fault Refusal := done (s.spGenSel p.toNat g.toNat)

/-- SP_CTRL_ACCEPT (R82). -/
def execSpCtrlAccept (p : BitVec 4) (s : State) : Host.Outcome State Fault Refusal := done (s.spAccept p.toNat)

/-- SP_LINK_LOCK (R82, R72). -/
def execSpLinkLock (p : BitVec 4) (gen : BitVec 2) (s : State) : Host.Outcome State Fault Refusal := done (s.spLock p.toNat gen.toNat)

/-- SP_LINK_LOSS (R82, R68). -/
def execSpLinkLoss (p : BitVec 4) (s : State) : Host.Outcome State Fault Refusal :=
  done (if s.spTalks p.toNat then s.spLeave p.toNat true else s)

/-- SP_GEN_WINDOW (R82). -/
def execSpGenWindow (p : BitVec 4) (s : State) : Host.Outcome State Fault Refusal := done (s.spWindow p.toNat)

/-- DESC_TIMEOUT (R82). -/
def execDescTimeout (p : BitVec 4) (s : State) : Host.Outcome State Fault Refusal :=
  done (if s.spState p.toNat = spIdent then s.spLeave p.toNat true else s)

/-- MGMT_SILENCE (R82). -/
def execMgmtSilence (p : BitVec 4) (s : State) : Host.Outcome State Fault Refusal :=
  done (if s.spTalks p.toNat then s.spLeave p.toNat true else s)

/-- DESC (R87). -/
def execDesc (p : BitVec 4) (tag : MgmtTag) (d : List Octet) (s : State) : Host.Outcome State Fault Refusal :=
  done (s.mgmtIn p tag 0x02 d (fun p t => t.desc p d))

/-- DELAY_MEASURE_SP (R72): once per second while ACTIVE. -/
def execDelayMeasureSp (p : BitVec 4) (s : State) : Host.Outcome State Fault Refusal :=
  done (if s.spState p.toNat = spActive then s.sendEchos p.toNat else s)

/-- ECHO_REPLY (R72). -/
def execEchoReply (p : BitVec 4) (tag : BitVec 16) (turn roundTrip : BitVec 24) (s : State) : Host.Outcome State Fault Refusal :=
  done (s.echoReply p.toNat tag.toNat turn.toNat roundTrip.toNat)

/-- MGMT_RETRY (R88). -/
def execMgmtRetry (p : BitVec 4) (tag : Octet) (s : State) : Host.Outcome State Fault Refusal := done (s.mgmtRetry p.toNat tag.toNat)

/-- PLAN_ACK (R78). -/
def execPlanAck (p : BitVec 4) (tag : MgmtTag) (id : Octet) (s : State) : Host.Outcome State Fault Refusal :=
  done (s.mgmtIn p tag 0x04 [id] (fun p t => t.planAck p id.toNat))

/-- PLAN_NAK (R78). -/
def execPlanNak (p : BitVec 4) (tag : MgmtTag) (id reason : Octet) (s : State) : Host.Outcome State Fault Refusal :=
  done (s.mgmtIn p tag 0x05 [id, reason] (fun p t => t.planNak p id.toNat reason.toNat))

/-- REG_DATA (R88): the value goes to whom asked for it. -/
def execRegData (p : BitVec 4) (tag : MgmtTag) (a : BitVec 16) (v : Reg32) (s : State) : Host.Outcome State Fault Refusal :=
  done (s.mgmtIn p tag 0x09 (le 2 a.toNat ++ le 4 v.toNat) (fun p t => t.emit (.regData p a.toNat v.toNat)))

/-- SENSOR (R89, R91). -/
def execSensor (p : BitVec 4) (tag : MgmtTag) (m : SensorMsg) (s : State) : Host.Outcome State Fault Refusal :=
  done (s.mgmtIn p tag 0x0A (sensorBody m) (fun p t => t.sensor p m))

/-- MODULE_EVT (R88). -/
def execModuleEvt (p : BitVec 4) (tag : MgmtTag) (code : BitVec 16) (beat : BitVec 48) (text : List Octet) (s : State) :
    Host.Outcome State Fault Refusal :=
  done (s.mgmtIn p tag 0x0B (le 2 code.toNat ++ le 6 beat.toNat ++ text) (fun p t => (t.set1 (R.SP_EVT_MOD_EVT p)).emit (.moduleEvent p code.toNat beat text)))

/-- HEARTBEAT (R88). -/
def execHeartbeat (p : BitVec 4) (tag : MgmtTag) (s : State) : Host.Outcome State Fault Refusal :=
  done (s.mgmtIn p tag 0x0C [] (fun _ t => t))

/-- ACK (R88): the message it names is acknowledged. Its own tag is the one it names (log 8), and nothing answers it. -/
def execAck (p : BitVec 4) (tag : MgmtTag) (s : State) : Host.Outcome State Fault Refusal :=
  done (if s.spHears p.toNat && tag.holds 0x0D [tag.tag] then
    s.onPort p.toNat (fun x => { x with mgmt := x.mgmt.filter (fun m => m.tag ≠ tag.tag.toNat) }) else s)

/-- PLAN_RESEND (R575). -/
def execPlanResend (p : BitVec 4) (s : State) : Host.Outcome State Fault Refusal := done (s.planResend p.toNat)

/-- DRIVE_ABORT_ASSERT (R92). -/
def execDriveAbortAssert (s : State) : Host.Outcome State Fault Refusal := done s.abortAssert

/-- DRV_ABORT_SW (R92). -/
def execDrvAbortSw (s : State) : Host.Outcome State Fault Refusal := done (s.abortEvent true)

/-- DRV_ABORT_REARM (R94). -/
def execDrvAbortRearm (s : State) : Host.Outcome State Fault Refusal := done s.abortRearm

/-- DRIVE_ABORT_N_RELEASE (R94). -/
def execDriveAbortNRelease (s : State) : Host.Outcome State Fault Refusal := done s.abortRelease

end Sys2Proof.Machine
end

