-- ==== Sys2Proof/Machine/Router.lean ====
section
/-! DEFINITION. The sample router (04): input blocks into slots, the output guard and the drive frames, DER, REM and
TIM slots, beat-ready notices. -/

namespace Sys2Proof.Machine

open Sys2Proof

/-! ### Slots -/

/-- Write a slot: its elements, then its header as one long (R109). -/
def State.writeSlot (s : State) (c : CtxCfg) (b : BitVec 48) (elems : List Long) (hdr : Long) : State :=
  let a := c.slotAt b
  ((State.putElems c a 0 elems s).setLong a hdr).spoil a c.slot

/-- Write the header of a slot alone. -/
def State.writeHeader (s : State) (c : CtxCfg) (b : BitVec 48) (hdr : Long) : State := (s.setLong (c.slotAt b) hdr).spoil (c.slotAt b) 2

/-- The gap code of a received format (R76). -/
def gapCode (fmt : Nat) : Grain := if fmt = 1 then 0xE0000 else 0x80000

/-- Gaps among stored elements. -/
def CtxCfg.gapsIn (c : CtxCfg) (l : List Long) : Nat := (l.filter c.isGap).length

/-! ### IN (R105, R572) -/

/-- A cluster counts a finalized IN block for its notice (R115). -/
def State.noteIn (s : State) (c : CtxCfg) (gaps : Nat) (deadline : Bool) : State :=
  let x := s.clu c.owner
  s.setClu c.owner { x with
    blocks := x.blocks + 1
    gapped := x.gapped + (if 0 < gaps then 1 else 0)
    deadline := x.deadline || deadline }

/-- The slot of tagged beat b of IN context i is final: its samples in order (none: not passed); whether the port
deadline made it so. -/
def State.inFinal (s : State) (i : Nat) (b : BitVec 48) (l : List (Option Grain)) (deadline : Bool) : State :=
  let c := s.cfg i
  let s0 := s.onStr (fun z => { z with inDone := z.inDone ++ [i] })
  let miss := l.length != c.spb || l.all (·.isNone)
  if !s.ownerOn c then s0.countGaps i c.spb b true
  else
    let codes := l.map (fun x => x.getD (gapCode c.fmt))
    let vals := codes.map (calIn c)
    let elems := if miss then List.replicate c.spb c.gap else vals.map (·.1)
    let gaps := if miss then c.spb else (codes.filter (isGapCode c.fmt)).length
    let clips := if miss then 0 else (vals.filter (·.2)).length
    let hdr := slotHeader b gaps (0 < clips) miss
    let s1 := ((s0.countGaps i gaps b (0 < gaps)).countClip i clips).writeSlot c b elems hdr
    ((((s1.noteIn c gaps deadline).sendBlock i b elems).redHand i b (b + 1)).gatherSlot i b hdr elems)

/-- The samples of a channel in a block formed under a plan; those the block does not hold were not passed. -/
def chanSamples (l : List (Option Grain)) (ch : Nat) : List PlanChan → Nat → List (Option Grain)
  | [], _ => []
  | c :: r, o =>
    if c.drive then chanSamples l ch r o
    else if c.ch = ch then (List.range c.spb).map (fun j => (l[o + j]?).getD none)
    else chanSamples l ch r (o + c.spb)

/-- IN contexts bound to port p. -/
def State.inOfPort (s : State) (p : Nat) : List Nat := (s.ctxOf tyIn).filter (fun i => (s.cfg i).port = p)

/-- The samples of IN context i that its port has passed for the beat (R76, R80, R84). -/
def State.inSamples (s : State) (p i : Nat) : List (Option Grain) :=
  let x := s.port p
  match x.expect, x.part with
  | some (_, l), some v =>
    if s.spState p = spActive ∧ !x.blank.contains (s.cfg i).channel then chanSamples v (s.cfg i).channel l 0 else []
  | _, _ => []

/-- Finalize the IN slots of port p of which a sample has passed; those of a cluster that is not on wait for the port deadline
(R572). -/
def State.passIn (s : State) (p : Nat) (b : BitVec 48) : State :=
  (s.inOfPort p).foldl (fun t i =>
    let l := t.inSamples p i
    if t.str.inDone.contains i || l.all (·.isNone) || !t.ownerOn (t.cfg i) then t else t.inFinal i b l false) s

/-- A block that fails (R76). -/
def State.badBlock (s : State) (p : Nat) : State := (s.inc (R.SP_CRC_ERR_V p)).set1 (R.SP_EVT_CRC p)

/-- R68, R69, R76, R97: what the receiver of a locked port counts: invalid sync headers and code errors, control words of a type
it does not know, codewords corrected, and codewords uncorrectable, which are always flagged. -/
def State.lineCount (s : State) (p : Nat) (k : InBlock) : State :=
  let unc := k.fecUnc.toNat + k.line.fecUnc.toNat
  let err := k.codeErr.toNat + k.line.codeErr.toNat + (k.line.ctrl.filter (fun w => !ctrlKnown w)).length
  let s1 := ((s.satAdd (R.SP_FEC_CORR_V p) (k.fecCorr.toNat + k.line.fecCorr.toNat)).satAdd (R.SP_FEC_UNC_V p) unc).satAdd (R.SP_CODE_ERR_V p) err
  if unc = 0 then s1 else (s1.set1 (R.SP_EVT_CRC p)).whFault 7

/-- R126: samples that arrive after their slot is final count in OVR of each context they hold data of; the first n have arrived
before. -/
def State.lateData (s : State) (p n : Nat) (l : List (Option Grain)) : State :=
  match (s.port p).expect with
  | none => s
  | some (_, cs) =>
    let new := List.replicate n none ++ l.drop n
    ((s.inOfPort p).filter (fun i => s.str.inDone.contains i && (chanSamples new (s.cfg i).channel cs 0).any (·.isSome))).foldl State.countOvr s

/-- Is a block not as expected, or has it failed (R76)? A header whose SYNC is not 0xB5 is taken as one not as expected; of a
header that an uncorrectable codeword carried nothing is tested (DESIGN CHOICE, log 8). -/
def State.blockFails (s : State) (p id n : Nat) (k : InBlock) : Bool :=
  (match k.header with
    | some h => hdrSync h != 0xB5 || hdrBeat h != (s.beat.num - 1).toNat % 65536 || hdrPlan h != id
    | none => false)
    || (!k.unc && ((k.complete n && !k.crcOk) || (k.codeErr != 0 && s.rd (R.SP_STAT_GEN_ACT p) != 3)))

/-- The words of a block that a port receives (R76, R126). DESIGN CHOICE (log 8): a block on an ACTIVE port with no plan in force,
and a second one in a beat after a complete one, count in SP_CRC_ERR and pass nothing. -/
def State.takeBlock (s : State) (p : Nat) (k : InBlock) : State :=
  let x := s.port p
  if s.spState p ≠ spActive ∨ k.words.isEmpty then s
  else match x.expect with
    | none => if x.closed then s else s.badBlock p
    | some (id, cs) =>
      let m := planSamples false cs
      let n := (20 * m + 63) / 64
      let l := k.samples n m
      if x.closed then s.lateData p (if x.got then 0 else x.had) l
      else if x.got then (s.badBlock p).lateData p 0 l
      else if s.blockFails p id n k then (s.badBlock p).onPort p (fun y => { y with got := true, part := none })
      else
        let s2 := s.onPort p (fun y => { y with got := k.complete n, part := some l })
        if k.complete n then s2.passIn p (s.beat.num - 1) else s2

/-- BEAT_BLOCK: what a port that hears a module receives, the block and what the line brought beside it. -/
def State.beatBlock (s : State) (p : Nat) (k : InBlock) : State :=
  if s.spHears p then (s.lineCount p k).takeBlock p k else s

/-- The port deadline (R76, R572): what has not been finalized is, with gap codes for what is missing. A plan in force without
an input channel has no block to be late (DESIGN CHOICE, log 8). -/
def State.portDeadline (s : State) (p : Nat) : State :=
  let x := s.port p
  if x.closed then s
  else
    let b := s.beat.num - 1
    let due := match x.expect with
      | some (_, l) => s.spState p == spActive && !x.got && decide (0 < planSamples false l)
      | none => false
    let s1 := if due then (s.inc (R.SP_LATE_V p)).set1 (R.SP_EVT_LATE p) else s
    let s2 := (s1.inOfPort p).foldl (fun t i => if t.str.inDone.contains i then t else t.inFinal i b (t.inSamples p i) true) s1
    s2.onPort p (fun y => { y with closed := true, part := none, had := ((y.part.map (·.length)).getD 0) })

/-! ### OUT: the guard and the drive frames (R110, R121 to R125, R35) -/

/-- GSTATE codes. -/
def gNormal : Nat := 0
def gHolding : Nat := 1
def gRamping : Nat := 2
def gZeroed : Nat := 3

/-- R122: beat k of a ramp over r beats from a code. -/
def rampCodes (rf : Int) (r s k : Nat) : List Int :=
  (List.range s).map (fun j => Int.tdiv (rf * ((r * s - ((k - 1) * s + j + 1) : Nat) : Int)) ((r * s : Nat) : Int))

/-- The codes of a slot taken: gaps repeat the code before them; with the values changed and the gaps. -/
def takeCodes (c : CtxCfg) : List Long → Int → List Int × Nat × Nat
  | [], _ => ([], 0, 0)
  | v :: r, last =>
    if c.isGap v then
      let x := takeCodes c r last
      (last :: x.1, x.2.1, x.2.2 + 1)
    else
      let y := calOut c v
      let x := takeCodes c r y.1
      (y.1 :: x.1, x.2.1 + (if y.2 then 1 else 0), x.2.2)

/-- The guard of an OUT context: longs 13 and 14 taken apart. -/
structure Guard where
  missRun : Nat
  rampFrom : Int
  gstate : Nat
  rampK : Nat
  lastDrive : Int
  deriving DecidableEq, Repr

def State.guard (s : State) (i : Nat) : Guard :=
  ⟨bitsOf (s.ctxL i 13) 28 12, ofSigned 20 (bitsOf (s.ctxL i 13) 0 20), bitsOf (s.ctxL i 14) 38 2, bitsOf (s.ctxL i 14) 26 12,
    ofSigned 20 (bitsOf (s.ctxL i 14) 0 20)⟩

def State.setGuard (s : State) (i : Nat) (g : Guard) : State :=
  (s.setCtxL i 13 (BitVec.ofNat 40 (g.missRun * 2 ^ 28 + toSigned 20 g.rampFrom))).setCtxL i 14
    (BitVec.ofNat 40 (g.gstate * 2 ^ 38 + g.rampK * 2 ^ 26 + toSigned 20 g.lastDrive))

/-- A missing block formed by POLICY (R121, R122); ended says that an overrun has ended the hold (R123), ramped that the ramp
of this run of missing blocks is over. -/
def guardPolicy (c : CtxCfg) (ended ramped : Bool) (g : Guard) : Guard × List Int :=
  let r := max c.rampBeats 1
  let zeros := List.replicate c.spb (0 : Int)
  let held := List.replicate c.spb g.lastDrive
  if c.policy = 1 then ({ g with gstate := gZeroed }, zeros)
  else if c.policy = 2 then ({ g with gstate := gHolding }, held)
  else if ramped then ({ g with gstate := gZeroed }, zeros)
  else if g.gstate = gRamping then
    (if g.rampK < r then ({ g with rampK := g.rampK + 1 }, rampCodes g.rampFrom r c.spb (g.rampK + 1))
     else ({ g with gstate := gZeroed }, zeros))
  else if g.missRun ≤ c.holdBeats ∧ !ended then ({ g with gstate := gHolding }, held)
  else ({ g with gstate := gRamping, rampFrom := g.lastDrive, rampK := 1 }, rampCodes g.lastDrive r c.spb 1)

/-- Does port p's plan carry drive frames for its contexts now (R83, R121, R575)? -/
def State.driveFlows (s : State) (p : Nat) : Bool := s.spState p == spActive && (s.port p).inForce.isSome

/-- Does the router take cluster c's blocks of beat b (R14, R22)? -/
def State.takes14 (s : State) (c : Nat) (b : BitVec 48) : Bool := s.domOn (domCluster c) && s.allReached c b

/-- R121, R110, R35: the drive block of beat b of OUT context i, with its slot's header. -/
def State.outBlock (s0 : State) (i : Nat) (b : BitVec 48) : State × List Int :=
  let c := s0.cfg i
  let r14 := s0.takes14 c.owner b
  let s := if r14 then s0.scan (c.slotAt b) c.slot else s0
  let g := s.guard i
  let elems := if r14 then s.slotElems c (c.slotAt b) else []
  let (codes, clips, gaps) := takeCodes c elems g.lastDrive
  let hdr := if r14 then slotHeader b gaps (0 < clips) false else slotHeader b c.spb false true
  let s1 := if s.ownerOn c then (s.writeHeader c b hdr).gatherSlot i b hdr (s.slotElems c (c.slotAt b)) else s
  let latched := s.bit R.DRV_ABORT_STAT_LATCHED
  let zeros := List.replicate c.spb (0 : Int)
  if s.beat.phase = .stopRamp ∨ s.beat.phase = .stopLast then
    (s1.setGuard i { g with gstate := gZeroed, lastDrive := 0 },
      if latched ∨ s.beat.phase = .stopLast then zeros else rampCodes g.lastDrive 1 c.spb 1)
  else
    let (s2, g2, out) :=
      if r14 ∧ s.driveFlows c.port then
        (((s1.countClip i clips).countGaps i gaps b (0 < gaps)).onStr (fun z =>
            { z with holdEnd := z.holdEnd.filter (· ≠ i), ramped := z.ramped.filter (· ≠ i) }),
          { g with gstate := gNormal, missRun := 0 }, codes)
      else
        let x := guardPolicy c (s.str.holdEnd.contains i) (s.str.ramped.contains i) { g with missRun := min (g.missRun + 1) 4095 }
        let spent := g.gstate = gRamping ∧ x.1.gstate = gZeroed ∧ c.policy ≠ 1
        ((s1.countGaps i 0 b true).onStr (fun z => { z with ramped := if spent then z.ramped.filter (· ≠ i) ++ [i] else z.ramped }), x.1, x.2)
    let sent := if latched then zeros else out
    (s2.setGuard i { g2 with lastDrive := sent.getLastD 0 }, sent)

/-- All OUT blocks of beat b, in ascending context order. -/
def State.outBlocks (b : BitVec 48) : List Nat → State × List (Nat × List Int) → State × List (Nat × List Int)
  | [], a => a
  | i :: r, (s, l) =>
    let x := s.outBlock i b
    State.outBlocks b r (x.1, l ++ [(i, x.2)])

/-- The drive frame of port p from the blocks formed (R75, R92): plan and codes, where the port sends one. -/
def State.driveFrame (s : State) (p : Nat) (l : List (Nat × List Int)) : Option (Nat × List Grain) :=
  match s.spState p == spActive, (s.port p).inForce with
  | true, some (id, cs) =>
    let ds := cs.filter (·.drive)
    if ds.isEmpty then none
    else some (id, (ds.map (fun d =>
      match l.find? (fun e => (s.cfg e.1).port = p ∧ (s.cfg e.1).channel = d.ch) with
      | some e => e.2.map (fun x => BitVec.ofInt 20 x)
      | none => List.replicate d.spb 0)).flatten)
  | _, _ => none

/-- Step 4 of R18 for OUT contexts, under the configuration before a commit at the edge (R20): the drive frames by port. -/
def State.driveEdge (s : State) (b : BitVec 48) : State × List (Nat × Nat × List Grain) :=
  let x := State.outBlocks b (s.ctxOf tyOut) (s, [])
  (x.1, spPorts.filterMap (fun p => (s.driveFrame p x.2).map (fun f => (p, f))))

/-! ### DER, REM, TIM (R109 to R111, R118 to R120) -/

/-- The DER slot of beat b of context i at edge b + 1. -/
def State.derEdge (s : State) (i : Nat) (b : BitVec 48) : State :=
  let c := s.cfg i
  if !s.ownerOn c then s
  else
    let took := s.takes14 c.owner b
    let l := s.slotElems c (c.slotAt b)
    let gaps := if took then c.gapsIn l else c.spb
    let hdr := slotHeader b gaps false (!took)
    let s1 := ((if took then s.scan (c.slotAt b) c.slot else s).writeHeader c b hdr).countGaps i gaps b (!took || decide (0 < gaps))
    ((s1.sendBlock i b (if took then l else List.replicate c.spb c.gap)).redHand i b (b + 1)).gatherSlot i b hdr l

/-- Elements of a slot a REM block has not received. -/
def missingElems (spb : Nat) (got : List (Nat × Nat)) : List Nat :=
  (List.range spb).filter (fun j => !got.any (fun f => decide (f.1 ≤ j ∧ j < f.1 + f.2)))

/-- R109, R119: the REM slot of tagged beat n - L of context i at edge n, where edge n - L + 1 occurred with the
context in force. -/
def State.remEdge (s : State) (i : Nat) (n : BitVec 48) : State :=
  let c := s.cfg i
  let b := n - BitVec.ofNat 48 c.lat
  let blk := (s.remBlocks i).find? (fun x => x.beat = b)
  let s0 := s.setRemBlocks i ((s.remBlocks i).filter (fun x => !atOrAfter b x.beat))
  let was := s.str.edges.any (fun e => e.1 = b + 1 ∧ mget (fun _ => 0) s.str.since i ≤ e.2)
  if !was || !s.ownerOn c then s0
  else
    let whole := match blk with
      | some x => x.bad || x.got.isEmpty
      | none => true
    let miss := if whole then List.range c.spb else missingElems c.spb ((blk.map (·.got)).getD [])
    let s1 := miss.foldl (fun t j => t.putElem c (c.slotAt b) j c.gap) s0
    let l := s1.slotElems c (c.slotAt b)
    let gaps := if whole then c.spb else c.gapsIn l
    let hdr := slotHeader b gaps false whole
    let s2 := (((s1.setLong (c.slotAt b) hdr).spoil (c.slotAt b) c.slot).countGaps i gaps b (0 < gaps))
    let s3 := if whole && s.str.vl0Fed.contains i then s2.witness 0x0003 c.srcNode else s2
    (s3.redHand i b n).gatherSlot i b hdr l

/-- Step 4 of R18 for DER and REM contexts. -/
def State.slotEdge (s : State) (n : BitVec 48) : State :=
  let s1 := (s.ctxOf tyDer).foldl (fun t i => t.derEdge i (n - 1)) s
  (s1.ctxOf tyRem).foldl (fun t i => t.remEdge i n) s1

/-- The eight grains of a TIM slot (R111). -/
def State.timElems (s : State) (n : BitVec 48) (t : Int) : List Long :=
  let p := (packTime (s.packAt t)).toNat
  let g (x k : Nat) : Long := BitVec.ofNat 40 (x / 2 ^ (20 * k) % 1048576)
  [g p 0, g p 1, g p 2, g p 3, g n.toNat 0, g n.toNat 1, g n.toNat 2,
    BitVec.ofNat 40 (s.rd R.BEAT_STAT_LOCK + (if s.bit R.BEAT_STAT_TAI_VALID then 16 else 0))]

/-- Step 1 of R18: the TIM slots of edge n at instant t. -/
def State.timEdge (s : State) (n : BitVec 48) (t : Int) : State :=
  (s.ctxOf tyTim).foldl (fun u i =>
    let c := u.cfg i
    if u.ownerOn c then
      ((u.writeSlot c n (u.timElems n t) (slotHeader n 0 false false)).sendBlock i n (u.timElems n t)).windowSlot i n
        (slotHeader n 0 false false) (u.timElems n t)
    else u) s

/-! ### Beat-ready notices (R114 to R116) -/

/-- The beat-ready queue of a cluster in force. -/
def State.readyQ (s : State) (c : Nat) : Nat := mget (fun k => 0xFFC0 + k) s.str.brq c

/-- Enabled IN contexts of a cluster. -/
def State.inOfCluster (s : State) (c : Nat) : List Nat := (s.ctxOf tyIn).filter (fun i => (s.cfg i).owner = c)

/-- Are the IN slots of cluster c final for the beat? -/
def State.inReady (s : State) (c : Nat) : Bool := (s.inOfCluster c).all (fun i => s.str.inDone.contains i)

/-- The notice of cluster c (R115). -/
def State.readyNotice (s : State) (c : Nat) : Msg :=
  let x := s.clu c
  let b := s.beat.num - 1
  { longs := [BitVec.ofNat 40 (2 ^ 36 + b.toNat % 2 ^ 36), BitVec.ofNat 40 (x.blocks * 2 ^ 20 + x.gapped),
      BitVec.ofNat 40 ((if x.deadline then 2 ^ 39 else 0) + (if x.lostPrev then 2 ^ 38 else 0)
        + ((s.time - s.beat.lastEdge) / nsU).toNat % 2 ^ 32)] }

/-- R114, R181: the notice is posted, once a beat, to a cluster that is on; while QUEUE is not on none is (R293), and the
cores see none. -/
def State.postReady (s : State) (c : Nat) : State :=
  if (s.clu c).posted || !s.domOn (domCluster c) || !s.inReady c then s
  else
    let q := s.readyQ c
    let ok := s.domOn domQueue && s.accepts q
    let s1 := if s.domOn domQueue then s.enqueue q (s.readyNotice c) else s
    let s2 := s1.setClu c { s1.clu c with posted := true, lostPrev := !ok }
    if s.domOn domQueue then s2.noticeTo c (BitVec.ofNat 36 (s.beat.num - 1).toNat) s.beat.num else s2

/-- Step 6 of R18: beat-ready delivery opens; the deadlines of this beat are ahead. -/
def State.openReady (s : State) : State :=
  (List.range 64).foldl (fun t c => if t.domOn (domCluster c) then t.setClu c { t.clu c with posted := false } else t) s

/-- Before an edge acts: what was due in the beat and has not been commanded happens now, at the latest. -/
def State.endBeat (s : State) : State :=
  let s1 := spPorts.foldl (fun t p => t.portDeadline p) s
  (List.range 64).foldl (fun t c => t.postReady c) s1

/-- The counts of a new beat start. -/
def State.newBeat (s : State) : State :=
  let s1 := s.onStr (fun z => { z with inDone := [] })
  let s2 := (List.range 64).foldl (fun t c =>
    if t.domOn (domCluster c) then t.setClu c { t.clu c with blocks := 0, gapped := 0, deadline := false } else t) s1
  spPorts.foldl (fun t p => t.onPort p (fun y => { y with part := none, had := 0, got := false, closed := false, blank := [] })) s2

/-! ### The rows -/

/-- BEAT_BLOCK (R76). -/
def execBeatBlock (p : BitVec 4) (b : InBlock) (s : State) : Host.Outcome State Fault Refusal := done (s.beatBlock p.toNat b)

/-- PORT_DEADLINE (R572). -/
def execPortDeadline (p : BitVec 4) (s : State) : Host.Outcome State Fault Refusal := done (s.portDeadline p.toNat)

/-- BEAT_READY_POST (R114). -/
def execBeatReadyPost (c : BitVec 6) (s : State) : Host.Outcome State Fault Refusal := done (s.postReady c.toNat)

end Sys2Proof.Machine
end

