-- ==== Sys2Proof/Machine/Checks.lean ====
section
/-! DEFINITION. The checks of a commit (R53, R81, R128, R331, R392, R424, R513): the staged set as it would be in force,
and every code that fails. -/

namespace Sys2Proof.Machine

open Sys2Proof

/-! ### The staged set -/

/-- One code where a condition holds. -/
def failIf (b : Bool) (code : Nat) : List Nat := if b then [code] else []

/-- Has a list an element twice? -/
def hasDup {α : Type} [DecidableEq α] : List α → Bool
  | [] => false
  | x :: r => r.contains x || hasDup r

/-- A store with staged changes laid over it. -/
def overlay {α : Type} [DecidableEq α] (d : Nat → α) (base : SMap α) (st : SMap (Option α)) : SMap α :=
  st.foldl (fun m e => match e.2 with
    | some v => mset d m e.1 v
    | none => m) base

/-- Schedule and groups as they would be in force. -/
def State.schedNew (s : State) : List (Nat × SchedEnt) :=
  (overlay (fun _ => none) s.fab.sched s.fab.schedStage).filterMap (fun e => e.2.map (fun x => (e.1, x)))
def State.groupsNew (s : State) : SMap (Option (Bool × List Nat)) :=
  s.fab.groupStage.foldl (fun m e => mset (fun _ => none) m e.1 (match e.2 with
    | some (false, []) => none
    | x => x)) s.fab.groups

/-- Beat-ready and result queues as they would be in force. -/
def State.readyQNew (s : State) (c : Nat) : Nat := (lookup s.str.brqStage c).getD (s.readyQ c)
def State.noteQNew (s : State) (c : Nat) : Nat := (lookup s.red.qStage c).getD (s.noteQ c)

/-- The subscriber entries a context would own, with their indices. -/
def State.subsNew (s : State) (i : Nat) : List (Nat × Long) :=
  let c := s.cfgNew i
  if c.on ∧ c.subEn then
    match lookup s.str.stageSub i with
    | some (some (k, l)) => (List.range l.length).zip l |>.map (fun e => (k + e.1, e.2))
    | _ => (List.range c.subCnt).map (fun j => (c.subIdx + j, s.subEntry (c.subIdx + j)))
  else []

/-- Every owned subscriber entry with its context. -/
def State.allSubs (s : State) : List (Nat × Nat × Long) := (s.ctxOnNew.map (fun i => (s.subsNew i).map (fun e => (i, e.1, e.2)))).flatten

/-- Does a SPEC lead of a set, at MEMBER state r's LEAD, list r's source as member IDX (R318)? -/
def leadLists (l : List RState) (r : RState) : Bool :=
  let i := bitsOf (r.cl 5) 36 4
  l.any (fun x => x.kind == kSpec && x.addr == (r.cl 4).toNat && decide (i < x.specC) && x.memberCtx i == r.src)

/-- The configuration longs of a state with NEXT as the chain has it, and a MEMBER's LEAD. -/
def linkState (all : List RState) (memberOf : Nat → Nat → Option Nat) (r : RState) : RState :=
  let next := (([1, 2, 3].filter (fun k => r.slot < k)).filterMap (fun k => all.find? (fun x => x.src = r.src ∧ x.slot = k))).head?
  let c1 := r.cfg.filter (fun e => e.1 ≠ 1 ∧ (r.kind ≠ kMember ∨ e.1 ≠ 4 ∨ (memberOf r.src (bitsOf (r.cl 5) 36 4)).isNone))
  let c2 := (1, BitVec.ofNat 40 ((next.map (·.addr)).getD 0)) :: c1
  { r with cfg := if r.kind = kMember then
      (match memberOf r.src (bitsOf (r.cl 5) 36 4) with
        | some a => (4, BitVec.ofNat 40 a) :: c2
        | none => c2) else c2 }

/-- The coefficients of an SRS state for a rate and a period (R324); its frequencies and Qs are kept from long 0x1000. -/
def srsLongs (r : RState) (spb pq : Nat) : RState :=
  let n := bitsOf (r.cl 4) 33 7 + 1
  let f (i : Nat) : Nat := (r.cl (0x1000 + 2 * i)).toNat
  let q (i : Nat) : Nat := (r.cl (0x1001 + 2 * i)).toNat
  let cs := ((List.range n).map (fun i => (List.range 5).map (fun k => (8 + 11 * i + k, BitVec.ofInt 40 (srsCoef k (f i) (q i) spb pq))))).flatten
  { r with cfg := r.cfg.filter (fun e => e.1 ≤ 7 ∨ 0x1000 ≤ e.1) ++ cs }

/-- The reduction states that would be in force: staged ones laid over those in force, linked. -/
def State.statesNew (s : State) : List RState :=
  let kept := s.red.states.filter (fun r => !s.red.stage.any (fun x => x.src = r.src ∧ x.slot = r.slot))
  let all := kept ++ s.red.stage.filterMap (·.body)
  let leadOf (src idx : Nat) : Option Nat :=
    (all.find? (fun x => x.kind = kSpec ∧ x.memberCtx idx = src ∧ idx < x.specC)).map (·.addr)
  all.map (fun r =>
    let r1 := linkState all leadOf r
    if r.kind = kSrs then srsLongs r1 (s.cfgNew r.src).spb s.pqNew else r1)

/-! ### Beat and time (R53) -/

/-- Is a change of the beat period staged? -/
def State.periodStaged (s : State) : Bool := s.pqNew != s.pqIn

def State.beatChecks (s : State) : List Nat :=
  let pq := s.pqNew
  let u := 4294967296
  failIf (pq < 5000 * u || 10000000 * u < pq) 0x01
    ++ failIf (s.role == roleMember && s.periodStaged) 0x02
    ++ failIf (pq < 2 * s.rdW R.GUARD * u) 0x03
    ++ failIf (s.rd R.BEATIO_CTRL_OUT_DIV == 0 || decide (s.rd R.BEATIO_CTRL_OUT_DIV * pq ≤ s.rd R.BEATIO_CTRL_OUT_WIDTH * 64 * u)) 0x04
    ++ failIf (s.rdW R.BEATIN_CTRL == 0) 0x05
    ++ failIf (s.role == roleMaster && s.periodStaged && !((s.beat.commit.map (·.byAt)).getD false)) 0x07
    ++ failIf ((s.beat.commit.map (·.refused)).getD false) 0x08

/-! ### Stream contexts (R128) -/

/-- The checks of every entry of the table. -/
def entryChecks (c : CtxCfg) : List Nat :=
  failIf (c.ctype == 7 || decide (2 ≤ c.fmt) || c.store == 3 || c.policy == 3) 0x10
    ++ failIf (4096 < c.spb) 0x11
    ++ failIf (c.clampHi < c.clampLo || c.clampLo == -524288 || c.clampHi == -524288) 0x1D

/-- The checks of one enabled context. -/
def ctxChecks (c : CtxCfg) : List Nat :=
  failIf ((c.ctype == tyOut && c.fmt != 0) || (c.ctype == tyTim && (c.fmt != 0 || c.store != 0)) || (c.ctype == tyRed && c.store != 0)) 0x10
    ++ failIf (c.ctype == tyTim && c.spb != 8) 0x11
    ++ failIf (64 ≤ c.owner) 0x12
    ++ failIf (c.depth < 2 || (c.ctype == tyRem && decide (c.depth < c.lat + 1))) 0x13
    ++ failIf (c.base % 2 == 1 || decide (0x80000 < c.base + c.depth * c.slot)) 0x14
    ++ failIf ((c.ctype == tyIn || c.ctype == tyOut) && decide (16 ≤ c.port)) 0x15
    ++ failIf (c.ctype == tyRem && decide (c.lat < 2)) 0x18
    ++ failIf ((c.subEn && (c.ctype == tyOut || c.ctype == tyRem)) || (c.redEn && (c.ctype == tyOut || c.ctype == tyRed || c.ctype == tyTim))) 0x19

/-- The checks of the whole table. -/
def State.streamChecks (s : State) : List Nat :=
  let on := s.ctxOnNew
  let cs := on.map s.cfgNew
  let bound (ty : Nat) : List (Nat × Nat) := (cs.filter (fun c => c.ctype == ty)).map (fun c => (c.port, c.channel))
  let written (c : Nat) : Nat :=
    ((cs.filter (fun x => x.owner == c && x.ctype != tyOut)).map (·.slot)).foldl (· + ·) 0
  (s.stagedCtx.map (fun i => entryChecks (s.cfgNew i))).flatten ++ (cs.map ctxChecks).flatten
    ++ failIf (hasDup (bound tyIn) || hasDup (bound tyOut)) 0x16
    ++ failIf (16384 < (bound tyIn).length || 4096 < (bound tyOut).length) 0x17
    ++ failIf (s.allSubs.any (fun e => subKind e.2.2 == 3 || (subKind e.2.2 == 2 && !s.localMatch (s.cfgNew (subCtx e.2.2)) e.1))) 0x1A
    ++ failIf ((List.range 64).any (fun c => decide (24 * s.pqNew < written c * 42949672960))) 0x1B
    ++ failIf (hasDup ((List.range 64).map s.readyQNew)) 0x1C

/-! ### Sample ports (R81) -/

/-- Does the staged set change the plan of port p, or has its module changed since the last plan (R78)? -/
def State.planChanges (s : State) (p : Nat) : Bool :=
  s.spTalks p && (planOf p s.cfgsNew != planOf p s.cfgsIn || s.periodStaged
    || (match (s.port p).desc with
      | some d => (s.port p).planFor != some d.ident
      | none => false))

/-- Does port p have part in the commit: its plan has been sent, or would be? -/
def State.planInCommit (s : State) (p : Nat) : Bool :=
  s.planChanges p || (s.spTalks p && (match (s.port p).plan, s.fab.period with
    | some x, some c => x.byCommit && x.target != some c.target
    | some x, none => x.byCommit
    | none, _ => false))

def State.spChecks (s : State) : List Nat :=
  ((spPorts.filter (fun p => s.bit (R.SP_CTRL_EN p))).map (fun p =>
    s.portChecks p s.cfgsNew s.pqNew (s.rd (R.SP_TIMING_DL p)) ++
    (if s.planInCommit p then
      (match (s.port p).plan with
        | some x =>
          (match x.byCommit, x.answer with
            | true, some none => []
            | true, some (some _) => [0x48]
            | _, _ => [0x47])
        | none => [0x47])
    else []))).flatten

/-! ### Fabric (R392) -/

/-- Do two windows of a list overlap? -/
def windowsOverlap : List (Nat × Nat) → Bool
  | [] => false
  | w :: r => r.any (fun v => decide (w.1 < v.1 + v.2 ∧ v.1 < w.1 + w.2)) || windowsOverlap r

/-- Wire blocks of a block of n elements (R368, R383). -/
def wireBlocks (store n : Nat) (tag : Bool) : Nat :=
  ((fragments (fragLen store) (n + 1) 0 (List.replicate n 0)).map (fun f =>
    frameW (4 + (if store = 2 then 5 * f.2.1.length else (20 * f.2.1.length + 7) / 8) + (if tag then 16 else 0)) + 1)).foldl (· + ·) 0

def State.fabChecks (s : State) : List Nat :=
  let es := s.schedNew.map (·.2)
  let u := 4294967296
  let subs := s.allSubs
  let groups := s.groupsNew
  let sends := es.filter (fun e => e.kind = 1)
  let short (e : SchedEnt) : Bool :=
    match subs.find? (fun x => x.2.1 = e.sub.toNat) with
    | some (i, _, _) =>
      let c := s.cfgNew i
      let p := e.port.toNat
      let g2 := s.fpUp p && s.rd (R.FP_STAT_GEN_ACT p) == 2
      let tag := s.bit (R.FP_STAT_ENC p) || s.bit R.PACK_CTRL_ENC_REQ
      decide (e.length.toNat * 100 < 1600 + wireBlocks c.store c.spb tag * (if g2 then 64 else 128))
    | none => false
  failIf (es.any (fun e => decide (8 ≤ e.port.toNat) || decide (8 ≤ e.inp.toNat) || (e.kind != 1 && e.kind != 2) || (e.kind == 2 && e.inp == e.port))) 0x60
    ++ failIf (es.any (fun e => decide (s.pqNew < (e.start.toNat + e.length.toNat) * u))) 0x61
    ++ failIf (fabPorts.any (fun p => windowsOverlap ((es.filter (fun e => e.port.toNat = p)).map (fun e => (e.start.toNat, e.length.toNat))))) 0x62
    ++ failIf (fabPorts.any (fun p =>
        let l := es.filter (fun e => e.port.toNat = p)
        !l.isEmpty && decide (8 * s.pqNew < ((l.map (·.length.toNat)).foldl (· + ·) 0 + 16) * 10 * u))) 0x63
    ++ failIf (sends.any short) 0x64
    ++ failIf (sends.any (fun e => !subs.any (fun x => x.2.1 = e.sub.toNat ∧ subKind x.2.2 = 0))
        || subs.any (fun x => subKind x.2.2 == 0 && (sends.filter (fun e => e.sub.toNat = x.2.1)).length != 1)) 0x65
    ++ failIf (hasDup (sends.map (·.flow))) 0x66
    ++ failIf (4096 < es.length || 256 < groups.length) 0x67
    ++ failIf (groups.any (fun g => decide (g.1 < 0xF000 ∨ 0xFFFE < g.1))
        || subs.any (fun x => subKind x.2.2 == 1 && decide (0xF000 ≤ subNode x.2.2 ∧ subNode x.2.2 ≤ 0xFFFE)
          && (match lookup groups (subNode x.2.2) with
            | some (some (_, l)) => l.isEmpty
            | _ => true))) 0x68

/-! ### Reductions (R331) -/


/-- Does a run of grains lie, from an even address, in the owner's cluster memory or in installed DRAM? -/
def State.redPlaced (s : State) (owner : Nat) (e : Nat × Nat) : Bool :=
  e.1 % 2 == 0 &&
  (decide (clusterBase owner ≤ e.1 ∧ e.1 + e.2 ≤ clusterBase owner + 0x80000) ||
    (List.range 4).any (fun k => decide (0x1000000000 + k * 0x800000000 ≤ e.1 ∧ e.1 + e.2 ≤ 0x1000000000 + k * 0x800000000 + s.dramGrains k)))

/-- The members of a SPEC lead keep R318. -/
def State.membersOk (s : State) (l : List RState) (r : RState) : Bool :=
  let c := s.cfgNew r.src
  let ms := (List.range r.specC).map r.memberCtx
  r.memberCtx 0 == r.src && !hasDup ms && (List.range r.specC).all (fun i =>
    let m := s.cfgNew (r.memberCtx i)
    m.on && m.owner == c.owner && m.spb == c.spb &&
      (i == 0 || l.any (fun x => x.kind == kMember && x.src == r.memberCtx i && (x.cl 4).toNat == r.addr && bitsOf (x.cl 5) 36 4 == i)))

def State.redChecks (s : State) : List Nat :=
  let l := s.statesNew
  let u := 4294967296
  let capQ : ℚ := (s.pqNew : ℚ) * 6 / 10 / u
  let load (c : Nat) : List (RState × Nat) := (l.filter (fun r => (s.cfgNew r.src).owner = c)).map (fun r => (r, (s.cfgNew r.src).spb))
  let owners := (l.map (fun r => (s.cfgNew r.src).owner)).eraseDups
  let outs := (l.filter (fun r => r.kind ≠ kMember)).map (·.outCtx)
  (l.map (fun r =>
    let c := s.cfgNew r.src
    let o := s.cfgNew r.outCtx
    let chain := (l.filter (fun x => x.src = r.src)).map (·.addr)
    failIf (r.kind == 0 || (r.feed && (l.any (fun x => x.src == r.src && decide (x.slot < r.slot)) || c.ctype != tyDer)) || (r.kind == kMember && !leadLists l r)) 0x80
      ++ failIf (r.kind != kMember && !(o.on && o.ctype == tyRed && o.owner == c.owner && o.srcCtx == r.src)) 0x81
      ++ failIf (!r.regions.all (s.redPlaced c.owner)) 0x82
      ++ failIf (hasDup chain) 0x83
      ++ failIf (r.kind != kMember && decide (o.spb < 2 * r.rlen c.spb)) 0x84
      ++ failIf (r.kind != kMember && Nat.gcd o.depth r.glen != 1) 0x85
      ++ failIf (r.kind == kRflow && (r.cl 6 == 0 || (!(r.cl 5).getLsbD 39 && r.cl 8 == 0)
          || ((r.cl 5).getLsbD 39 && bitsOf (r.cl 5) 33 6 != bitsOf (r.cl 5) 27 6) || ((r.cl 5).getLsbD 26 && r.cl 10 == 0))) 0x86
      ++ failIf (r.kind == kSpec && !s.membersOk l r) 0x87
      ++ failIf (r.kind == kSrs && (List.range (bitsOf (r.cl 4) 33 7 + 1)).any (fun i =>
          decide (1024 * c.spb * 1000000000 * u ≤ (r.cl (0x1000 + 2 * i)).toNat * 8 * s.pqNew))) 0x88
      ++ failIf (r.kind == kDecim && c.spb * r.glen % r.decM != 0) 0x89)).flatten
    ++ failIf (hasDup outs) 0x81
    ++ failIf (owners.any (fun c => decide (capQ * 8 / 10 < loadUs (load c)))) 0x8A
    ++ failIf (owners.any (fun c => decide (capQ * 9 / 10 < loadUs (load c) + loadUf (load c)))) 0x8B

/-! ### Power (R513) and journal (R424) -/

def State.pwrChecks (s : State) : List Nat :=
  ((List.range 64).map (fun c =>
    let fl := s.rd (R.CL_LIM_FLOOR c)
    let ce := s.rd (R.CL_LIM_CEIL c)
    let pin := s.rd (R.CL_GOV_PIN c)
    let tg := s.rd (R.CL_GOV_TARGET c)
    failIf (fl < 50 || 90 < fl || ce < 50 || 90 < ce || ce < fl) 0xA0
      ++ failIf (5 ≤ pin) 0xA1
      ++ failIf (s.rd (R.CL_GOV_GROUP c) == 0) 0xA2
      ++ failIf (tg == 0 || decide (95 < tg + s.rd (R.CL_GOV_DB c))) 0xA3
      ++ failIf (pin == 0 && decide (ce < 72) && s.statesNew.any (fun r => (s.cfgNew r.src).owner == c)) 0xA4)).flatten

/-- Octets of a slot's elements. -/
def CtxCfg.octets (c : CtxCfg) : Nat := (c.spb * c.elem * 20 + 7) / 8

def State.jrnlChecks (s : State) : List Nat :=
  let cs := (s.ctxOnNew.map (fun i => (i, s.cfgNew i))).filter (fun e => e.2.jrnl)
  let blocks := cs.filter (fun e => e.2.ctype ≠ tyRed ∧ e.2.ctype ≠ tyTim)
  let jb := s.rd R.J_CFG_JBEATS
  let beat : ℚ := (blocks.map (fun e => ((e.2.octets + 5 : Nat) : ℚ))).foldl (· + ·) 0
  let red : ℚ := (s.statesNew.map (fun r =>
    if cs.any (fun e => e.1 = r.outCtx) ∧ r.kind ≠ kMember then ((24 + 5 * r.rlen (s.cfgNew r.src).spb : Nat) : ℚ) / (r.glen : ℚ) else 0)).foldl (· + ·) 0
  failIf (s.jState == jRunning && decide (((s.rdW R.RATE_G * 800000 : Nat) : ℚ) < (beat + red) * 1000000000 * 4294967296 / (s.pqNew : ℚ))) 0xC0
    ++ failIf (blocks.any (fun e => decide (1048384 < 32 + 5 * jb + (20 * (jb * e.2.spb * e.2.elem) + 7) / 8))) 0xC1
    ++ failIf (jb == 0 || decide (4096 < jb)) 0xC2

/-! ### All of them -/

/-- Every check code that fails for the staged set. -/
def State.commitFails (s : State) : List Nat :=
  s.beatChecks ++ s.streamChecks ++ s.spChecks ++ s.fabChecks ++ s.redChecks ++ s.pwrChecks ++ s.jrnlChecks

/-- The lowest, or 0 (R48). -/
def lowestCode : List Nat → Nat
  | [] => 0
  | x :: r => r.foldl min x

end Sys2Proof.Machine
end

