-- ==== Sys2Proof/Machine/JournalFlow.lean ====
section
/-! DEFINITION. What the journal engine has under way (13): writes, flushes, seals, the stop, the power-fail sequence,
compaction, loss of a namespace, entry to RUNNING. -/

namespace Sys2Proof.Machine

open Sys2Proof

/-! ### Commands to the namespaces (R398, R411) -/

/-- Commands outstanding on a port, oldest first, with their retries. -/
def State.cmdsOf (s : State) (p : Nat) : List (NvmeCmd × Nat) := mget (fun _ => []) s.jrn.cmds p

def State.setCmds (s : State) (p : Nat) (l : List (NvmeCmd × Nat)) : State :=
  s.onJrn (fun z => { z with cmds := mset (fun _ => []) z.cmds p l })

/-- Change the blocks of the archive. -/
def State.mapBlocks (s : State) (f : Block → Block) : State := s.onJrn (fun z => { z with blocks := z.blocks.map f })

/-- Does a block of the archive wait for its write? -/
def inFlight (b : Block) : Bool := b.state == .closed && b.chain != 3

/-- Has a block been written and not flushed? -/
def unflushed (b : Block) : Bool := b.state == .written

/-- Blocks that a seal or a stop waits for, up to block k of a chain. -/
def State.notDurable (s : State) (f : Block → Bool) : List Block := s.jrn.blocks.filter (fun b => f b && b.state != .durable)

/-- R412, step 2: issue Flush to each port that holds written blocks among those waited for, none of which it still writes,
and that has no Flush outstanding. -/
def State.flushFor (s : State) (f : Block → Bool) : State :=
  (List.range 4).foldl (fun t p =>
    let l := (t.notDurable f).filter (fun b => b.ns = p)
    if !l.isEmpty && l.all unflushed && !(t.cmdsOf p).any (fun e => match e.1 with
        | .flush _ => true
        | _ => false) then t.nvme p (.flush 0) else t) s

/-! ### The engine's own records -/

/-- A record the engine writes itself: admitted while BUF_CEIL lets it, and always during the power-fail sequence. -/
def State.ownRec (s : State) (r : JRec) : State :=
  if s.jrn.pf.isSome || decide (s.bufUsed < s.rd R.BUF_CEIL_V) then (splitParts r).foldl State.admitOne s else s.refuseRec r

/-- R415: an INDEX_SEG entry. -/
def State.indexBody (s : State) (g : Segment) : List Octet :=
  le 4 (s.segNo g.seg) ++ le 8 g.first ++ le 8 g.last ++ le 6 g.firstBeat.toNat ++ le 6 g.lastBeat.toNat ++ le 2 g.types ++ le 48 g.lastHash.toNat

/-- R415: write the INDEX_SEG entries of ARCHIVE segments filled since the last. -/
def State.indexSegs (s : State) : State :=
  let l := s.jrn.segs.filter (fun g => g.chain = 0 ∧ g.filled ∧ !g.indexed)
  let s1 := s.onJrn (fun z => { z with segs := z.segs.map (fun g => if g.chain = 0 ∧ g.filled then { g with indexed := true } else g) })
  if l.isEmpty then s else l.foldl (fun t g => t.ownRec ⟨0x10, 1, s.beat.num, false, false, t.indexBody g⟩) s1

/-- The body of a POWER_FAIL record (R405). -/
def State.pfBody (s : State) (flags good discarded flushed : Nat) : List Octet :=
  le 1 flags ++ le 3 0 ++ le 10 (packTime s.packNow).toNat ++ le 6 s.beat.num.toNat ++ le 8 good ++ le 4 discarded
    ++ le 4 (s.rdW R.PF_REFUSED) ++ le 4 flushed

/-- A block of the ARCHIVE chain that holds one record, closed at once with flags. -/
def State.blockOf (s : State) (r : JRec) (flags : Nat) : State :=
  match (s.closeBlock 0 flags).newBlock 0 flags with
  | none => s
  | some t =>
    match t.putRec r 0 with
    | some u => (u.closeBlock 0 flags).jCounts
    | none => t

/-! ### Seals (R412, R413) -/

/-- Blocks of a chain that are sealed. -/
def State.sealedOf (s : State) (c : Nat) : Nat := mget (fun _ => 0) s.jrn.sealed c

/-- Blocks up to the head a seal covers. -/
def Seal.covers (x : Seal) (b : Block) : Bool := b.chain == x.chain && decide (b.bseq ≤ x.bseq)

/-- A seal of chain c starts: the open block closes, and the head is fixed; nothing where the head is sealed already. -/
def State.startSeal (s : State) (c flags : Nat) : State :=
  let s1 := match s.openBlock c with
    | some b => if b.recs.isEmpty then s else s.closeBlock c flags
    | none => s
  let k := (s1.jrn.blocks.filter (fun b => b.chain = c ∧ b.state ≠ .opened)).foldl (fun a b => max a (b.bseq + 1)) 0
  if k ≤ s1.sealedOf c then s1
  else
    let x : Seal := ⟨c, k - 1, mget (fun _ => 0) s1.jrn.headHash c, s1.packNow, s1.beat.num, false⟩
    (s1.onJrn (fun z => { z with sealing := some x })).flushFor x.covers

/-- Does the seal under way wait only for the kennel? -/
def State.sealReady (s : State) : Bool :=
  match s.jrn.sealing with
  | some x => !x.asked && (s.notDurable x.covers).isEmpty
  | none => false

/-- The message M of a seal (R412). -/
def State.sealMsg (s : State) (x : Seal) : List Octet :=
  [0x4A, 0x53, 0x45, 0x4C] ++ le 8 Config.serial.toNat ++ le 8 (s.jrn.archive.getD 0).toNat ++ le 1 x.chain ++ le 3 0 ++ le 8 x.bseq
    ++ le 48 x.head.toNat ++ le 10 (packTime x.t).toNat ++ le 6 x.beat.toNat

/-- The kennel returns the signature: the SEAL record goes into a later block of the chain. -/
def State.sealSigned (s : State) (x : Seal) : State :=
  let sig := Config.signature s.kn.cur (s.sealMsg x) s.free
  let s1 := (s.freeNext.onJrn (fun z => { z with sealing := none, sealed := mset (fun _ => 0) z.sealed x.chain (x.bseq + 1) })).wr
    R.J_STAT_SEAL_STALL 0
  s1.ownRec ⟨0x08, x.chain * 256, s.beat.num, false, false,
    le 1 x.chain ++ le 3 0 ++ le 8 x.bseq ++ le 48 x.head.toNat ++ le 10 (packTime x.t).toNat ++ le 6 x.beat.toNat
      ++ le 8 (Config.keyId s.kn.cur).toNat ++ (sig ++ List.replicate 96 0).take 96⟩

/-! ### Compaction (R416) -/

/-- The live state of a chain, as checkpoint entries. -/
def State.liveEntries (s : State) (c : Nat) : List (List Octet) :=
  if c = 1 then (s.jrn.segs.filter (fun g => g.chain = 0 ∧ g.filled)).map s.indexBody
  else s.jrn.items.filterMap (fun e => e.2.map (fun v => le 4 e.1 ++ le 1 v.1 ++ le 1 0 ++ le 2 v.2.length ++ v.2))

/-- A CHECKPOINT record (R405). -/
def State.checkpoint (s : State) (c upto : Nat) : JRec :=
  let l := s.liveEntries c
  ⟨0x12, c, s.beat.num, false, false, le 1 c ++ le 3 0 ++ le 8 upto ++ le 4 l.length ++ le 4 0 ++ l.flatten⟩

/-- R416, steps 1 to 3: UPTO, the checkpoint, the block closed with FUA and the chain to be sealed. -/
def State.startCompact (s : State) (c : Nat) (ch : Option Nat) : State :=
  let s1 := s.closeBlock c 0
  let first := s1.nextBseq c
  let s2 := (s1.ownRec (s1.checkpoint c (first - 1))).closeBlock c 0 true
  s2.onJrn (fun z => { z with compact := some ⟨c, first, none, ch⟩, sealTodo := z.sealTodo ++ [c] })

/-- Segments of a chain that hold only blocks below one. -/
def State.below (s : State) (c first : Nat) : List Segment := s.jrn.segs.filter (fun g => g.chain = c ∧ g.last < first)

/-- A compaction ends. -/
def State.compactEnd (s : State) (x : Compact) : State :=
  let s1 := (s.onJrn (fun z => { z with compact := none })).set1 R.J_EVT_COMPACT
  match x.ch with
  | some ch => s1.complete ch stOk []
  | none => s1

/-- R416, steps 4 and 5. -/
def State.compactStep (s : State) (x : Compact) : State :=
  match x.tomb with
  | none =>
    if s.jrn.sealing.isSome ∨ s.sealedOf x.chain ≤ x.first then s
    else
      let l := s.below x.chain x.first
      match l.foldl (fun a g => match a with
          | none => some g
          | some y => if y.last < g.last then some g else some y) (none : Option Segment) with
      | none => s.compactEnd x
      | some g =>
        let lo := l.foldl (fun a y => min a y.first) g.first
        let s1 := (s.ownRec (tombstone x.chain 4 lo g.last g.lastHash 0 s.beat.num))
        let k := s1.nextBseq x.chain - 1
        (s1.closeBlock x.chain 0 true).onJrn (fun z => { z with compact := some { x with tomb := some k } })
  | some k =>
    let f (b : Block) : Bool := b.chain == x.chain && b.bseq == k
    if (s.notDurable f).isEmpty then ((s.below x.chain x.first).foldl State.releaseSeg s).compactEnd x else s.flushFor f

/-! ### Segments to be released (R418, R419) -/

/-- Segments whose tombstone is durable are released; a deletion then completes, and ends FULL. -/
def State.releaseStep (s : State) : State :=
  let ready (e : Nat × Nat) : Bool := !s.jrn.blocks.any (fun b => b.chain == 0 && b.bseq == e.2 && b.state != .durable)
  if s.jrn.release.isEmpty then s
  else
    let gone := s.jrn.segs.filter (fun g => s.jrn.release.any (fun e => e.1 == g.seg && ready e))
    let s1 := gone.foldl State.releaseSeg (s.onJrn (fun z => { z with release := z.release.filter (fun e => !ready e) }))
    if !s1.jrn.release.isEmpty then s1.flushFor (fun b => b.chain == 0 && s1.jrn.release.any (fun e => decide (b.bseq ≤ e.2)))
    else match s1.jrn.delCh with
      | some (ch, n) =>
        let s2 := s1.onJrn (fun z => { z with delCh := none })
        ((if s2.jState = jFull then s2.setJState jRunning else s2).jCounts).complete ch stOk (le 4 n)
      | none => s1

/-! ### The power-fail sequence (R421) -/

/-- Microseconds a block takes at the lowest S_RATE. -/
def State.blockUs (s : State) : Nat :=
  match s.nsInUse.map (fun p => s.rdW (R.S_RATE p)) with
  | [] => 0
  | r :: rs => 1048576 / max 1 (rs.foldl min r) + 1

/-- Commands that wait for what the journal no longer does complete with INTERNAL. A compaction cut off keeps its old blocks, and
may go on after recovery (R416); a deletion cut off keeps what it has not released. -/
def State.dropWaits (s : State) : State :=
  ([s.jrn.stopping, s.jrn.testCh, s.jrn.compact.bind (·.ch), s.jrn.delCh.map (·.1)].filterMap id).foldl (fun t ch => t.complete ch stInternal [])
    (s.onJrn (fun z => { z with
      stopping := none, testCh := none, compact := none, release := [], delCh := none
      cut := match z.compact with
        | some x => some { x with tomb := none, ch := none }
        | none => z.cut }))

/-- The sequence ends: PF_HALT. -/
def State.pfEnd (s : State) : State := ((s.dropWaits.onJrn (fun z => { z with pf := none, pinBack := false })).setJState jPfHalt).set1 R.J_EVT_PF

/-- Steps 3 to 5, each once what it waits for is durable. -/
def State.pfStep (s : State) (x : PfSeq) : State :=
  let any (_ : Block) : Bool := true
  if s.jrn.sealing.isSome then s
  else if s.jrn.blocks.any inFlight then s
  else if s.jrn.blocks.any unflushed then s.flushFor any
  else match x.mark with
    | none =>
      let k := s.nextBseq 0
      let flags := 1 + (if s.jrn.pinBack then 4 else 0)
      let s1 := s.blockOf ⟨0x0A, 0, s.beat.num, false, false, s.pfBody flags (k - 1) 0 x.flushed⟩ 2
      s1.onJrn (fun z => { z with pf := some { x with mark := some k } })
    | some _ =>
      if !x.asked then
        let left : Int := (s.rdW R.HOLDUP : Int) - (s.time - x.since) / (1000 * nsU)
        if 2000 + (s.blockUs : Int) ≤ left then
          (s.onJrn (fun z => { z with pf := some { x with asked := true } })).startSeal 0 2
        else s.pfEnd
      else if (match s.openBlock 0 with
          | some b => !b.recs.isEmpty
          | none => false) then s.closeBlock 0 2
      else s.pfEnd

/-- Steps 1 and 2. -/
def State.pfStart (s : State) : State :=
  let n := s.bufUsed
  let s1 := [0, 1, 2].foldl (fun t c => t.closeBlock c 2) s
  s1.onJrn (fun z => { z with pf := some ⟨s.time, n, none, false⟩, sealTodo := [], pinBack := false })

/-! ### The stop (R408) -/

/-- JRNL_STOP begins: buffered samples and open blocks go out, every chain is sealed. -/
def State.stopBegin (s : State) (ch : Nat) : State :=
  let s1 := s.ctxOn.foldl State.flushGather s
  s1.onJrn (fun z => { z with stopping := some ch, sealTodo := z.sealTodo ++ [1, 2, 0] })

/-- The buffer is flushed to its end, then READY. -/
def State.stopStep (s : State) (ch : Nat) : State :=
  if s.jrn.sealing.isSome ∨ !s.jrn.sealTodo.isEmpty ∨ !s.jrn.release.isEmpty then s
  else if s.jrn.blocks.any (fun b => b.state = .opened ∧ b.chain ≠ 3) then [0, 1, 2].foldl (fun t c => t.closeBlock c 0) s
  else if s.jrn.blocks.any inFlight then s
  else if s.jrn.blocks.any unflushed then s.flushFor (fun _ => true)
  else ((s.onJrn (fun z => { z with stopping := none })).setJState jReady).complete ch stOk []

/-! ### Progress -/

/-- One thing the engine can do next. -/
def State.jrnStep (s0 : State) : State :=
  let s := if s0.jrn.pf.isSome then s0.indexSegs else s0.indexSegs.releaseStep.ringRelease
  match s.jrn.sealing with
  | some x => if x.asked then s else s.flushFor x.covers
  | none =>
    match s.jrn.sealTodo, s.jrn.pf with
    | c :: r, none => (s.onJrn (fun z => { z with sealTodo := r })).startSeal c 0
    | _, some x => s.pfStep x
    | [], none =>
      match s.jrn.compact, s.jrn.stopping with
      | some x, _ => s.compactStep x
      | none, some ch => s.stopStep ch
      | none, none =>
        match [1, 2].find? (fun c => 8 < (s.jrn.segs.filter (fun g => g.chain = c)).length) with
        | some c => if s.jState = jRunning then s.startCompact c none else s
        | none => s

/-- What the engine does until it waits. -/
def State.jrnGo : Nat → State → State
  | 0, s => s
  | n + 1, s => State.jrnGo n s.jrnStep

/-- Progress after an event of the journal. -/
def State.jrnFlow (s : State) : State := if s.jState = jRunning ∨ s.jState = jFull then (s.jrnGo 8).jCounts else s.jCounts

/-- JRNL_STOP begun and taken as far as it goes without waiting. -/
def State.jrnStop (s : State) (ch : Nat) : State := (s.stopBegin ch).jrnFlow

/-! ### Entry to RUNNING (R408, R409, R422) -/

/-- The hold area is admitted in order. -/
def State.admitHold (s : State) : State := s.jrn.hold.foldl State.offerRec (s.onJrn (fun z => { z with hold := [] }))

/-- R406: SENSOR_ID of each known sensor, event 5. -/
def State.sensorsIn (s : State) : State :=
  spPorts.foldl (fun t p => (t.port p).sensors.foldl (fun u e =>
    u.offerRec (sensorRec p 5 { e.2 with beat := s.beat.num } (u.inOf p e.1).head? (((u.port p).desc.map (·.serial)).getD 0))) t) s

/-! ### Configuration items on the media (R405, R415, R417) -/

/-- An item from its octets: key, flags and value. -/
def parseItem (o : List Octet) : Nat × Nat × List Octet := (octNum o 0 4, octNum o 4 1, (o.drop 8).take (octNum o 6 2))

/-- n items, one after another, laid over a store. -/
def parseItems : Nat → List Octet → SMap (Option (Nat × List Octet)) → SMap (Option (Nat × List Octet))
  | 0, _, m => m
  | n + 1, o, m =>
    let (k, f, v) := parseItem o
    parseItems n (o.drop (8 + v.length)) (mset (fun _ => none) m k (if v.isEmpty then none else some (f, v)))

/-- A record of a CONFIG chain laid over the items before it, with the parts of a checkpoint still to be completed. -/
def itemRec (a : SMap (Option (Nat × List Octet)) × List Octet) (x : Placed) : SMap (Option (Nat × List Octet)) × List Octet :=
  let body := x.octets.drop 16
  if x.rtype = 0x11 then (parseItems 1 body a.1, [])
  else if x.rtype = 0x12 then
    let o := a.2 ++ body
    if x.flags / 2 % 2 = 1 ∧ x.flags / 4 % 2 = 0 then (a.1, o) else (parseItems (octNum o 12 4) (o.drop 20) a.1, [])
  else a

/-- The items in force by the durable blocks of the CONFIG chain c, laid over others. -/
def State.itemsIn (s : State) (c : Nat) (m : SMap (Option (Nat × List Octet))) : SMap (Option (Nat × List Octet)) :=
  (((s.jrn.blocks.filter (fun b => b.chain = c ∧ b.state = .durable)).map (·.recs)).flatten.foldl itemRec (m, [])).1

/-- The items after recovery: those of the CONFIG chain, of the flash, and those that wait in the hold area. -/
def State.itemsBack (s : State) : SMap (Option (Nat × List Octet)) :=
  (s.jrn.hold.filter (fun r => r.rtype = 0x11)).foldl (fun m r => parseItems 1 r.body m) (s.itemsIn 3 (s.itemsIn 2 []))

/-- A persistent setting of the journal in force by its item: its key is open (log 13). -/
def State.kept (s : State) (k : Nat) : Option Nat :=
  match mget (fun _ => none) s.jrn.items (settingKey k) with
  | some (_, v) => if v.length = 4 then some (octNum v 0 4) else none
  | none => none

/-- HOLDUP and SEAL_IVL as the CONFIG chain keeps them (R415). -/
def State.settingsBack (s : State) : State :=
  let s1 := match s.kept 0 with
    | some v => s.wrW R.HOLDUP v
    | none => s
  match s1.kept 1 with
  | some v => s1.wrW R.SEAL_IVL v
  | none => s1

/-! ### What the media show (R412, R416, R422) -/

/-- Blocks of a chain that its durable SEAL records cover. -/
def State.sealsIn (s : State) (c : Nat) : Nat :=
  (((s.jrn.blocks.filter (fun b => b.chain = c ∧ b.state = .durable)).map (·.recs)).flatten.filter (fun x => x.rtype = 8)).foldl
    (fun a x => max a (octNum x.octets 20 8 + 1)) 0

/-- A compaction cut off goes on where its seal is durable (R416). -/
def State.compactBack (s : State) : Option Compact := s.jrn.cut.bind (fun x => if x.first < s.sealsIn x.chain then some x else none)

/-- RUNNING is entered. -/
def State.runningIn (s : State) : State :=
  ((s.onJrn (fun z => { z with entering := false })).jRates.setJState jRunning).admitHold.sensorsIn

/-- S_RATE of a namespace from its measured rate (R410). -/
def State.setRate (s : State) (p mbs : Nat) : State := s.wrW (R.S_RATE p) (mbs * 9 / 10)

/-- A rate test starts on every namespace in use. -/
def State.rateTests (s : State) : State := s.nsInUse.foldl (fun t p => t.nvme p .rateTest) s

/-- Is a rate test outstanding? -/
def State.testing (s : State) : Bool := (List.range 4).any (fun p => (s.cmdsOf p).any (fun e => e.1 == .rateTest))

/-- The rate tests have ended: RUNNING is entered, or JRNL_RATE_TEST completes. -/
def State.rateEnd (s : State) : State :=
  if s.testing then s
  else if s.jrn.entering then s.runningIn
  else match s.jrn.testCh with
    | some ch => ((s.onJrn (fun z => { z with testCh := none })).jRates).complete ch stOk ((List.range 4).map (fun p => le 4 (s.rdW (R.S_RATE p)))).flatten
    | none => s

/-- R422: the recovery scan completes. -/
def State.recoveryDone (s : State) (r : RecoveryScan) : State :=
  let use := (List.range 4).filter (fun p => r.usable.getLsbD p && s.rd (R.S_STAT_NSSTATE p) != 3 && (s.jrn.archive.isSome && mget (fun _ => 0) s.jrn.nsSegs p != 0))
  if use.isEmpty then s.setJState jFailed
  else
    let n := match r.lastGood with
      | some k => min (k.toNat + 1) (s.nextBseq 0)
      | none => 0
    let keep (b : Block) : Bool := b.chain == 3 || (b.state == .durable && (b.chain != 0 || decide (b.bseq < n)))
    let blocks := s.jrn.blocks.filter keep
    let head (c : Nat) : Nat := if c = 0 then n else (blocks.filter (fun b => b.chain = c)).foldl (fun a b => max a (b.bseq + 1)) 0
    let hash (c : Nat) : BitVec 384 := match blocks.find? (fun b => b.chain = c ∧ b.bseq + 1 = head c) with
      | some b => Config.sha384 b.header
      | none => 0
    let s1 := s.onJrn (fun z => { z with
      recovered := true
      blocks := blocks
      segs := z.segs.filter (fun g => g.chain ≠ 0 ∨ g.first < n ∨ g.filled)
      heads := [0, 1, 2].foldl (fun m c => mset (fun _ => 0) m c (head c)) z.heads
      headHash := [0, 1, 2].foldl (fun m c => mset (fun _ => 0) m c (hash c)) z.headHash
      sealed := [0, 1, 2].foldl (fun m c => mset (fun _ => 0) m c (min (s.sealsIn c) (head c))) z.sealed
      compact := s.compactBack
      cut := none
      items := s.itemsBack
      sealTodo := [0] })
    let s2 := use.foldl (fun t p => (t.wr (R.S_STAT_NSSTATE p) 1).setRate p ((r.rates.getD p 0).toNat))
      ((s1.settingsBack.wr R.J_STAT_NS_USE (use.foldl (fun m p => m + 2 ^ p) 0)).wb R.J_STAT_RING s.jrn.ring)
    let s3 := (s2.satAdd R.REC_DISCARD_V r.discarded.toNat).jRates
    let s4 := s3.blockOf ⟨0x0A, 0, s.beat.num, false, false, s3.pfBody 2 (n - 1) r.discarded.toNat 0⟩ 4
    s4.runningIn.jrnFlow

/-! ### Loss of a namespace (R411) -/

/-- The port a failed write goes to: the next in rotation. -/
def State.nextPort (s : State) (p : Nat) : Option Nat :=
  match s.nsInUse.find? (fun q => p < q) with
  | some q => some q
  | none => s.nsInUse.head?

/-- What waits for a namespace that is gone, or for the journal, completes with INTERNAL. -/
def State.dropReads (s : State) (p : Nat) : State :=
  (s.cmdsOf p).foldl (fun t e => match e.1 with
    | .read _ _ _ _ ch => t.complete ch stInternal []
    | _ => t) s

/-- No namespace is left: FAILED. -/
def State.jrnFail (s : State) : State :=
  (s.dropWaits.onJrn (fun z => { z with sealing := none, sealTodo := [], pf := none, entering := false })).setJState jFailed

/-- A write that fails after retries: the namespace is lost, its blocks go to the next in rotation, and a tombstone is
written for each of its closed segments. -/
def State.loseNs (s : State) (p : Nat) : State :=
  let s0 := (s.dropReads p).setCmds p []
  let s1 := ((((s0.wr (R.S_STAT_NSSTATE p) 3).set1 (R.S_EVT_LOST p)).set1 R.J_EVT_NS_LOST).wr R.J_STAT_NS_USE
    (s.rd R.J_STAT_NS_USE - (if s.nsInUse.contains p then 2 ^ p else 0))).wr R.J_STAT_NS_LOST
    (s.rd R.J_STAT_NS_LOST + (if s.rd R.J_STAT_NS_LOST / 2 ^ p % 2 = 0 then 2 ^ p else 0))
  let s2 := (s1.whFault 6).selfFault 0x0107 p (le 1 p)
  match s2.nextPort p with
  | none => s2.jrnFail
  | some q =>
    let moved := s2.jrn.blocks.filter (fun b => b.ns = p ∧ b.state ≠ .durable ∧ b.chain ≠ 3)
    let s3 := s2.mapBlocks (fun b => if b.ns = p ∧ b.state ≠ .durable ∧ b.chain ≠ 3 then
      { b with ns := q, state := if b.state = .written then .closed else b.state } else b)
    let s4 := moved.foldl (fun t b => if b.state = .opened then t else t.nvme q (.write b.chain b.bseq s.jrn.pf.isSome)) s3
    let gone := (s4.jrn.segs.filter (fun g => g.seg / 1073741824 = p ∧ g.filled)).mergeSort (fun a b => decide (a.first ≤ b.first))
    let s5 := gone.foldl (fun t g => t.ownRec (tombstone g.chain 3 g.first g.last g.lastHash 0 s.beat.num)) s4
    let s6 := s5.onJrn (fun z => { z with
      segs := z.segs.filter (fun g => !(g.seg / 1073741824 == p && g.filled))
      freed := z.freed ++ gone
      blocks := z.blocks.filter (fun b => !gone.any (fun g => g.seg = b.seg ∧ b.state = .durable)) })
    s6.jRates.rateEnd

/-! ### How a command ends -/

/-- Block bseq of a chain has been written to port p: durable at once with FUA, or where nothing caches the write (R412, R421). -/
def State.written (s : State) (p chain bseq : Nat) (fua : Bool) : State :=
  let d : BlockState := if s.bit (R.S_STAT_VWC p) ∧ !fua then .written else .durable
  s.mapBlocks (fun b => if b.chain = chain ∧ b.bseq = bseq ∧ b.state = .closed then { b with state := d } else b)

/-- A command is retried, or has failed for good (R411). -/
def State.cmdFail (s : State) (p : Nat) : State :=
  match s.cmdsOf p with
  | [] => s
  | (c, n) :: rest =>
    if n < 3 then (s.setCmds p ((c, n + 1) :: rest)).emit (.nvme p c)
    else
      let s1 := s.setCmds p rest
      match c with
      | .write _ _ _ => s.loseNs p
      | .flush _ => s.loseNs p
      | .read _ _ _ _ ch => s1.complete ch stInternal []
      | .rateTest => s1.rateEnd
      | .dealloc _ => s1
      | .label _ _ => s1

/-- The oldest command of port p ends. -/
def State.cmdDone (s : State) (p : Nat) (r : NvmeResult) : State :=
  match s.cmdsOf p with
  | [] => s
  | (c, _) :: rest =>
    let s1 := s.setCmds p rest
    match c, r with
    | .write chain bseq fua, .done => s1.written p chain bseq fua
    | .flush _, .done => s1.mapBlocks (fun b => if b.ns = p ∧ b.state = .written then { b with state := .durable } else b)
    | .dealloc _, .done => s1
    | .label _ _, .done => s1
    | .read _ _ _ len ch, .readData d => s1.complete ch stOk ((d ++ List.replicate len 0).take len)
    | .read _ _ _ _ _, .readFailed => (s.inc (R.S_RERR_V p)).cmdFail p
    | .rateTest, .rate m => (s1.setRate p m.toNat).rateEnd
    | .read _ _ _ _ _, _ => s
    | _, .writeFailed => ((s.inc (R.S_WERR_V p)).set1 (R.S_EVT_WERR p)).cmdFail p
    | _, _ => s

/-- A command did not complete within 2 s (R411). -/
def State.cmdTimeout (s : State) (p : Nat) : State :=
  if (s.cmdsOf p).isEmpty then s else ((s.inc (R.S_TMO_V p)).set1 (R.S_EVT_TIMEOUT p)).cmdFail p

/-! ### Reset (R428) -/

/-- The first block of the ARCHIVE that is not on the media. -/
def State.onMedia (s : State) : Nat :=
  (s.jrn.blocks.filter (fun b => b.chain = 0 ∧ b.state ≠ .durable)).foldl (fun a b => min a b.bseq) (s.nextBseq 0)

/-- What the media keep; every register of the journal at its Reset value. -/
def State.jrnReset (s : State) : State :=
  let s2 := ((List.range 4).foldl (fun t p => t.dropReads p) s).dropWaits
  let s3 := { s2 with hreg := dropRange s2.hreg 0x7000 0x7200, force := dropRange s2.force 0x7000 0x7200 }
  s3.onJrn (fun z => { ({} : Journal) with
    nsCap := z.nsCap, nsSegs := z.nsSegs, archive := z.archive, labels := z.labels, ring := z.ring
    heads := mset (fun _ => 0) z.heads 0 s3.onMedia, headHash := z.headHash, sealed := z.sealed
    blocks := z.blocks.filter (fun b => b.state = .durable), segs := z.segs, freed := z.freed, dip := z.dip, cut := z.cut
    items := s3.itemsIn 3 [] })

end Sys2Proof.Machine
end

