-- ==== Sys2Proof/Machine/ResetOps.lean ====
section
/-! DEFINITION. Resets narrower than the device (R464, R497, R538): a Bertia channel, the host function, the steward core. -/

namespace Sys2Proof.Machine

open Sys2Proof

/-- Put BAR0 words lo to hi - 1 at their Reset values. -/
def State.wordsReset (s : State) (lo hi : Nat) : State := { s with hreg := dropRange s.hreg lo hi, force := dropRange s.force lo hi }

/-! ### Crossings (R221, R222) -/

def State.crossAt (s : State) (x : Nat) : Crossing := mget (fun _ => {}) s.cross x
def State.setCross (s : State) (x : Nat) (c : Crossing) : State := { s with cross := mset (fun _ => {}) s.cross x c }

/-- R222: a side of each crossing in xs is reset or turned off: the other sees PEER_RESET until CROSSING_RESYNC. -/
def State.peerReset (s : State) (xs : List Nat) : State := xs.foldl (fun t x => t.setCross x { t.crossAt x with peer := true }) s

/-- The crossings whose clocked side lies in domain d (R216, R499). -/
def domCrossings (d : Nat) : List Nat :=
  if d = domHost then [29]
  else if d = domMem then [25, 26, 27, 28]
  else if d = domStore then [30, 31, 32, 33]
  else if 8 ≤ d ∧ d < 16 then [9 + d]
  else if 16 ≤ d ∧ d < 20 then (List.range 4).map (fun j => 1 + 4 * (d - 16) + j)
  else []

/-- A subscription of the mailbox ends. -/
def State.unsubscribe (s : State) (ch : Nat) : State :=
  if s.host.evtMbx = some ch then
    ((s.onHost (fun z => { z with evtMbx := none })).wr R.MBX_GSTAT_EVT_ON 0).wr R.MBX_GSTAT_EVT_MBX 0
  else s

/-- R464: a channel is reset; a command in progress runs to its end with its completion discarded (lost: it has none). -/
def State.chanReset (s : State) (ch : Nat) (lost : Bool) : State :=
  let c := s.chan ch
  let busy := if lost then none else c.busy.map (fun b => { b with discard := true })
  ((s.setChan ch { busy := busy }).unsubscribe ch).countSessions

/-- R497, R224: the host function is reset, by a function-level or a hot reset; its crossing meets R222. -/
def State.hostReset (s : State) : State :=
  let s1 := (List.range 16).foldl (fun t ch => t.chanReset ch false) s
  let s2 := ((s1.wordsReset 0x400 0x800).wordsReset 0x808 0x810).wordsReset 0xC00 0xC10
  let s3 := (s2.wordsReset 0x1000 0x1408).onDev (fun z => { z with msixEn := false, msixFmask := false })
  (s3.onHost (fun z => { z with d3hot := false })).peerReset [29]

/-- R497, R517: the steward has lost the commands in progress: what they set going goes on, and no channel (0xFFFF) waits for it. -/
def State.forgetWaits (s : State) : State :=
  let none' (c : Option Nat) : Option Nat := c.map (fun _ => 0xFFFF)
  let s1 := s.onPwr (fun z => { z with trans := z.trans.map (fun e => (e.1, e.2.map (fun r => { r with cmd := none }))), measCmd := none })
  let s2 := s1.onWh (fun z => { z with
    reqs := z.reqs.map (fun r => { r with ch := none })
    deferred := z.deferred.map (fun d => (d.1, d.2.map (fun r => { r with ch := none })))
    haltWait := [] })
  let s3 := s2.onJrn (fun z => { z with
    stopping := none' z.stopping
    testCh := none' z.testCh
    delCh := z.delCh.map (fun x => (0xFFFF, x.2))
    compact := z.compact.map (fun x => { x with ch := none })
    cmds := z.cmds.map (fun e => (e.1, e.2.map (fun c => match c with
      | (.read a b o l _, n) => (.read a b o l 0xFFFF, n)
      | y => y))) })
  (s3.onKn (fun z => { z with zCmd := none, testCmds := [] })).onBeat (fun z => { z with ppsSec := z.ppsSec.map (fun x => (x.1, x.2.1, 0xFFFF)) })

/-- R538, R497, R224: the steward core is reset and starts its ROM; the PCIe crossing meets R222. -/
def State.stewardReset (s : State) : State :=
  let s1 := (List.range 20).foldl (fun t ch => t.chanReset ch true) s.forgetWaits
  let s2 := (List.range 16).foldl (fun t m =>
    if t.rd (R.MB_STAT_STATE m) = 1 then t.mbHalt m 3 else if t.rd (R.MB_STAT_STATE m) = 3 then t.mbOff m else t) s1
  let s3 := ((s2.wr R.MBX_GSTAT_READY 0).wrW R.BERTIA_VER 0).onHost (fun z => { z with events := [], lost := false, exports := [], exportsNext := none })
  let s4 := (s3.onFab (fun z => { z with open_ := [] })).frCount
  let s5 := { (s4.coreReset 1024 .running) with mem := dropRange s4.mem (keySteward 0) (keySteward 0x90000) }
  let s6 := if s.bit R.BOOT_STAT_LOCKUP then (s5.wr R.BOOT_STAT_LOCKUP 0).emit (.lockupPin false) else s5
  ((s6.wr R.BOOT_STAT_PHASE 0).onBoot (fun z => { z with rom := true, recovery := false })).peerReset [29]

end Sys2Proof.Machine
end

