-- ==== Sys2Proof/Machine/PowerOps.lean ====
section
/-! DEFINITION. Power (16): domain transitions and their slots, the slack measurement (R54) and the slack governor, the
speed tables, the Bertia 0x07xx commands. -/

namespace Sys2Proof.Machine

open Sys2Proof

/-! ### The governor (R504 to R511) -/

/-- The always-on counter (R57): 48 bits. -/
def State.aonNow (s : State) : BitVec 48 := Config.aonTicks s.time + s.beat.aon

/-- Voltages of PL0 to PL3, 10 mV (R504). -/
def plVolt (k : Nat) : Nat := [60, 72, 85, 90].getD k 60

/-- The pin in force of a cluster: 0 governed, 1 to 4 PL0 to PL3. -/
def State.pinOf (s : State) (c : Nat) : Nat := s.rdF (R.CL_GOV_PIN c)

/-- Does a cluster hold a reduction state in RUN (R295)? -/
def State.redRuns (s : State) (c : Nat) : Bool :=
  s.red.states.any (fun r => s.rowner r == c && r.a.isSome && !r.failed)

/-- FLOOR_EFF (R508). -/
def State.floorEff (s : State) (c : Nat) : Nat :=
  let f := s.rdF (R.CL_LIM_FLOOR c)
  if s.redRuns c then max f 72 else f

/-- The set voltage changes: TOG inverts. -/
def State.setVolt (s : State) (c v : Nat) : State :=
  if s.rd (R.CL_VOLT_V c) = v then s else (s.wr (R.CL_VOLT_V c) v).toggle (R.CL_VOLT_TOG c)

/-- Keep RED_FLOOR and PINNED; a pinned cluster that is on takes its level's voltage (R506). -/
def State.voltKeep (s : State) (c : Nat) : State :=
  let s1 := (s.wb (R.CL_VOLT_RED_FLOOR c) (s.redRuns c && decide (s.rdF (R.CL_LIM_FLOOR c) < 72))).wb (R.CL_VOLT_PINNED c) (s.pinOf c != 0)
  if s.pinOf c = 0 ∨ !s.domOn (domCluster c) then s1
  else ((s1.setVolt c (plVolt (s.pinOf c - 1))).wr (R.CL_VOLT_AT_FLOOR c) 0).wr (R.CL_VOLT_AT_CEIL c) 0

/-- The governor's group is discarded; the next starts at the next edge, or at beat n. -/
def State.govClear (s : State) (c : Nat) (n : Option (BitVec 48)) : State :=
  let x := s.clu c
  s.setClu c { x with gov := n, govCnt := 0, govMin := 0 }

/-- Twice the speed at V, between neighbouring points of the table (R509). -/
def speed2 (t : List Nat) (v : Nat) : Nat :=
  let k := (v - 50) / 2
  if v % 2 = 0 then 2 * t.getD k 0 else t.getD k 0 + t.getD (k + 1) 0

/-- R509: boost(V); DESIGN CHOICE (log 14): 0.90 V while no table has been measured. -/
def boost (t : List Nat) (v : Nat) : Nat :=
  match (List.range 21).find? (fun k => !t.isEmpty ∧ v < 50 + 2 * k ∧ 5 * speed2 t v ≤ 8 * t.getD k 0) with
  | some k => 50 + 2 * k
  | none => 90

/-- R508: a boost, at most one in a beat. -/
def State.govBoost (s : State) (c : Nat) : State :=
  let x := s.clu c
  if s.pinOf c ≠ 0 ∨ !s.domOn (domCluster c) ∨ x.boosted then s
  else
    let t := match mget (fun _ => none) s.pwr.speed c with
      | some e => e.1
      | none => []
    let want := boost t (s.rd (R.CL_VOLT_V c))
    let ceil := s.rdF (R.CL_LIM_CEIL c)
    let s1 := if ceil < want then s.set1 R.PWR_EVT_CEIL else s
    let s2 := (((s1.setVolt c (min want ceil)).inc (R.CL_BOOST_V c)).wb (R.CL_VOLT_AT_CEIL c) (decide (ceil ≤ want))).wr (R.CL_VOLT_AT_FLOOR c) 0
    (s2.setClu c { x with boosted := true }).govClear c none

/-- The end of a group whose least slack is m ns (R508). -/
def State.govStep (s : State) (c : Nat) (m : Int) : State :=
  let p := s.periodU
  let target : Int := s.rdF (R.CL_GOV_TARGET c)
  let db : Int := s.rdF (R.CL_GOV_DB c)
  let pc := m * nsU * 100
  let s1 := s.wr (R.CL_VOLT_S_LAST c) (if m < 0 then 255 else min 254 (pc / p).toNat)
  if s.pwr.measuring.contains c then s1
  else
    let v := s.rd (R.CL_VOLT_V c)
    let want := if pc < target * p then v + 1 else if (target + db) * p < pc then v - 1 else v
    let lo := s.floorEff c
    let hi := s.rdF (R.CL_LIM_CEIL c)
    let s2 := if hi < want then s1.set1 R.PWR_EVT_CEIL else s1
    let v2 := if want < lo then lo else if hi < want then hi else want
    ((s2.setVolt c v2).wb (R.CL_VOLT_AT_FLOOR c) (decide (want ≤ lo))).wb (R.CL_VOLT_AT_CEIL c) (decide (hi ≤ want))

/-- A measured slack of beat n counts in the group. -/
def State.govCount (s : State) (c : Nat) (n : BitVec 48) (slack : Int) : State :=
  let x := s.clu c
  if s.pinOf c ≠ 0 then s
  else if slack < 0 then s.govBoost c
  else match x.gov with
    | none => s
    | some a =>
      if !atOrAfter n a then s
      else
        let m := if x.govCnt = 0 then slack else min x.govMin slack
        if s.rdF (R.CL_GOV_GROUP c) ≤ x.govCnt + 1 then (s.setClu c { x with govCnt := 0, govMin := 0 }).govStep c m
        else s.setClu c { x with govCnt := x.govCnt + 1, govMin := m }

/-! ### Slack (R54) -/

/-- SLACK_LAST takes the slack of beat n, in ns. -/
def State.slackPut (s : State) (c : Nat) (n : BitVec 48) (v : Int) (idle : Bool) : State :=
  let w := clampInt (-16777216) 16777215 v
  let s1 := (((s.wr (R.SLACK_LAST_SLACK c) (toSigned 25 w)).wb (R.SLACK_LAST_IDLE c) idle).wr (R.SLACK_LAST_NOMEAS c) 0).toggle (R.SLACK_LAST_TOG c)
  let s2 := if w < ofSigned 25 (s.rd (R.SLACK_MIN_V c)) then s1.wr (R.SLACK_MIN_V c) (toSigned 25 w) else s1
  s2.govCount c n v

/-- A measured time in ns, accurate to 5 ns: the error is open. -/
def State.slackTime (s : State) (c : Nat) (n : BitVec 48) (t : Int) : State :=
  s.freeNext.slackPut c n (t / nsU + (s.freeVal % 11 : Nat) - 5) false

/-- The last BWAIT that completed beat n in a cluster. -/
def Cluster.lastBwait (x : Cluster) (n : BitVec 48) : Option Int := (x.bwaits.find? (fun e => e.1 = n)).map (·.2)

/-- The period in whole ns, rounded. -/
def State.periodNs (s : State) : Int := roundAway s.periodU nsU.toNat

/-- Is some core of a cluster on to count: neither disabled, held, halted nor off (R13)? -/
def State.anyTakes (s : State) (c : Nat) : Bool :=
  s.domOn (domCluster c) && (List.range 16).any (fun k => (s.core (16 * c + k)).takes)

/-- The slack of beat n - 2 still owed at edge n: by its last BWAIT, or by none. -/
def State.slackOwed (s : State) (c : Nat) : State :=
  let x := s.clu c
  match x.owed with
  | none => s
  | some (m, te, p) =>
    let s1 := s.setClu c { x with owed := none }
    match x.lastBwait m with
    | some t => s1.slackTime c m (te - t)
    | none => s1.slackPut c m (-p) false

/-- The slack of beat n - 1 at edge n, at instant t, its period p in ns: known where no core had to reach BWAIT throughout the
beat, or where every one has. -/
def State.slackNow (s : State) (c : Nat) (n : BitVec 48) (t p : Int) : State :=
  let x := s.clu c
  if !x.busy then s.slackPut c (n - 1) p true
  else match x.lastBwait (n - 1) with
    | some b => if s.allReached c (n - 1) then s.slackTime c (n - 1) (t - b) else s.setClu c { x with owed := some (n - 1, t, p) }
    | none => s.setClu c { x with owed := some (n - 1, t, p) }

/-- R54, R508 at edge n, p the period in ns of the beat it ends; beat says that beat n - 1 ran. DESIGN CHOICE (log 32): TOG does
not invert for a beat reported with NOMEAS, whose value is not updated. -/
def State.slackEdge (s : State) (n : BitVec 48) (t p : Int) (beat : Bool) : State :=
  (List.range 64).foldl (fun u c =>
    if !u.domOn (domCluster c) then u.wr (R.SLACK_LAST_NOMEAS c) 1
    else
      let u1 := u.slackOwed c
      let u2 := if beat then u1.slackNow c n t p else u1
      let x := u2.clu c
      u2.setClu c { x with
        boosted := false
        busy := u2.anyTakes c
        gov := some (x.gov.getD n)
        bwaits := x.bwaits.filter (fun e => atOrAfter e.1 (n - 1)) }) s

/-- A BWAIT of a core of cluster c completes beat n now: a late one that completes the beat gives a slack below 0. -/
def State.bwaitDone (s : State) (c : Nat) (n : BitVec 48) : State :=
  let x := s.clu c
  let s1 := s.setClu c { x with bwaits := (n, s.time) :: x.bwaits.filter (fun e => e.1 ≠ n) }
  match x.owed with
  | some (m, te, _) =>
    if m = n ∧ s1.allReached c m then (s1.setClu c { s1.clu c with owed := none }).slackTime c m (te - s.time) else s1
  | none => s1

/-! ### Suppliers and conditions (R499 to R501) -/

/-- What a domain needs on (R501). -/
def suppliers (d : Nat) : List Nat :=
  if 64 ≤ d then [domContext, domQueue] else if 8 ≤ d ∧ d < 20 then [domContext] else if d = domStore then [domMem] else []


/-- Domains that depend on one. -/
def dependents (d : Nat) : List Nat := (List.range 128).filter (fun e => isDomain e && (suppliers e).contains d)

/-- Has a core stopped, for a cluster that leaves on while there are no edges (R500)? -/
def State.coreRests (s : State) (i : Nat) : Bool :=
  !s.domOn (domCluster (i / 16)) ||
    (match (s.core i).run with
      | .running => false
      | _ => true)

/-- May a transition of domain d out of its present state start (R499, R500)? edge names an edge that acts. -/
def State.mayMove (s : State) (d : Nat) (edge : Option (BitVec 48)) : Bool :=
  let on := s.rd (R.PD_STAT_STATE d) == 2
  let running := s.bit R.BEAT_STAT_RUNNING
  if 64 ≤ d then
    (if running then
      (match edge with
        | some n => !on || s.allReached (d - 64) (n - 1)
        | none => false)
     else !on || (List.range 16).all (fun k => s.coreRests (16 * (d - 64) + k)))
  else if !on then true
  else if d = domContext ∨ d = domQueue ∨ d = domSteward then !running
  else if d = domKennel then !s.kn.latched && !s.kn.running
  else if d = domMem ∨ d = domStore then
    !(s.jState == jRunning || s.jState == jFull || s.jState == jRecovering || s.jrn.pf.isSome || s.jrn.stopping.isSome)
  else true

/-- May a request of domain d for state dst start: its own condition, and a domain that comes on waits for its suppliers (R501;
DEDUCED, log 14). -/
def State.mayGo (s : State) (d dst : Nat) (edge : Option (BitVec 48)) : Bool :=
  s.mayMove d edge && (dst != 2 || (suppliers d).all (fun x => s.domOn x))

/-! ### What a domain loses and finds (R499) -/

/-- Grains of memory with keys lo to hi - 1 are lost; what they read as is log 2. -/
def State.dropMem (s : State) (lo hi : Nat) : State :=
  { s with
    mem := dropRange s.mem lo hi
    eccUnc := s.eccUnc.filter (fun k => !(decide (lo ≤ k) && decide (k < hi))) }

/-- A cluster goes off: memory, CIC and engine registers, cores (R274, R337, R499). -/
def State.clusterOff (s : State) (c : Nat) : State :=
  let s1 := (s.dropMem (clusterBase c) (clusterBase (c + 1))).dropMem (keyLocal (16 * c) 0) (keyLocal (16 * c + 16) 0)
  let s2 := (List.range 16).foldl (fun t k => t.coreReset (16 * c + k) .held) s1
  let s3 := s2.setCic c {}
  let s4 := s3.setEng c {}
  s4.onRed (fun z => { z with q := mset (fun k => 0xFF40 + k) z.q c (0xFF40 + c), states := z.states.map (fun r => if s.rowner r = c then
      { src := r.src, slot := r.slot, kind := r.kind, addr := r.addr, cfg := r.cfg, waits := true, coefs := r.coefs
        again := r.again || (r.a.isSome && !r.failed && !r.spoiled) } else r) })

/-- A store port's link is down. -/
def State.storeDown (s : State) (p : Nat) : State :=
  let s1 := if s.rd (R.S_STAT_LINK p) = 0 then s else s.set1 (R.S_EVT_LINKDN p)
  (((s1.wr (R.S_STAT_LINK p) 0).wr (R.S_STAT_WIDTH p) 0).wr (R.S_STAT_READY p) 0)

/-- Cluster c is measured no longer; the SPEED_MEASURE that waited for it last completes (R510). -/
def State.measEnd (s : State) (c : Nat) : State :=
  let s1 := s.onPwr (fun z => { z with measuring := z.measuring.filter (· ≠ c) })
  match s.pwr.measCmd with
  | none => s1
  | some (ch, l) =>
    let rest := l.filter (· ≠ c)
    if rest.isEmpty then (s1.onPwr (fun z => { z with measCmd := none })).complete ch stOk []
    else s1.onPwr (fun z => { z with measCmd := some (ch, rest) })

/-- A domain leaves the on state for a state: what stops at once; the crossings of one that is turned off meet R222. The
measurement of a cluster's speed table ends without a table (DESIGN CHOICE, log 14). -/
def State.pwrLeave (s0 : State) (d dst : Nat) : State :=
  let s := if dst = 0 then s0.peerReset (domCrossings d) else s0
  if 64 ≤ d then
    let c := d - 64
    let s1 := if s.pwr.measuring.contains c then s.measEnd c else s
    if dst = 1 then (s1.setClu c { s1.clu c with vKeep := s1.rd (R.CL_VOLT_V c) }).setVolt c 0x2D else s1
  else if 8 ≤ d ∧ d < 16 then (if s.fpState (d - 8) = fpOff then s else s.fpLeave (d - 8) fpOff)
  else if 16 ≤ d ∧ d < 20 then s.spGroupOff (d - 16)
  else if d = domStore then (List.range 4).foldl State.storeDown s
  else if d = domKennel then s.kennelStop
  else if d = domHost then s.onHost (fun z => { z with linkUp := false })
  else if d = domSteward then s.onBeat (fun z => { z with sleep := some (s.packNow, s.aonNow) })
  else s

/-- A domain has reached off: what it held is lost. -/
def State.pwrLost (s : State) (d : Nat) : State :=
  if 64 ≤ d then s.clusterOff (d - 64)
  else if 8 ≤ d ∧ d < 16 then
    let p := d - 8
    (((s.wordsReset (R.FP_STAT p) (R.FP_ASYM p)).wordsReset (R.FP_FEC_CORR p) (R.FP_EVT_EN p)).wordsReset (0x6C00 + 0x20 * p) (0x6C20 + 0x20 * p)).setFport p {}
  else if d = domContext then
    (s.onStr (fun z => { ({} : Streams) with edges := z.edges, edgeCnt := z.edgeCnt })).onRed (fun z => { z with states := [], stage := [], qStage := [], extra := 0 })
  else if d = domQueue then { s.onHost (fun z => { z with due := z.due.filter (fun x => !x.fault) }) with qeng := {} }
  else if d = domHost then s.hostReset
  else if d = domMem then
    let s1 := (s.dropMem 0x1000000000 0x3000000000).jrnReset
    (List.range 4).foldl (fun t k => t.wr (R.DDR_STAT_STATE k) 0) s1
  else if d = domStore then s.jrnReset
  else if d = domKennel then (if s.kn.latched then s.kennelOn else s)
  else s

/-- What DRAM training gave (R548, R555, R569). -/
def State.ddrTrained (s : State) (trained : BitVec 4) (gib : List (BitVec 16)) (ddr5 : BitVec 4) : State :=
  (List.range 4).foldl (fun t k =>
    let g := (gib.getD k 0).toNat
    if g = 0 then t.wrW (R.DDR_STAT k) 0
    else
      let t1 := ((t.wr (R.DDR_STAT_STATE k) (if trained.getLsbD k then 2 else 3)).wr (R.DDR_STAT_TYPE k) (if ddr5.getLsbD k then 2 else 1)).wr (R.DDR_STAT_V k) g
      if trained.getLsbD k then t1 else t1.set1 (R.DDR_EVT_TRAIN_FAIL k)) s

/-- R58, R60: pack time after a sleep, its uncertainty, and the SLEEP_WAKE record. DESIGN CHOICE (log 32): U is rounded down to
whole ns for AON_UNC and the record. -/
def State.wake (s : State) : State :=
  match s.beat.sleep with
  | none => s
  | some (before, count) =>
    let cal := s.bit R.AON_CAL_VALID
    let ticks : Int := ((s.aonNow - count).toNat : Int)
    let el : Int := if cal then ticks * (s.rd R.AON_CAL_TICK : Int) * (nsU / 65536) else ticks * 30517578 * nsU / 1000
    let tick : Int := if cal then (s.rd R.AON_CAL_TICK : Int) * (nsU / 65536) else 30517578 * nsU / 1000
    -- U in whole ns, rounded down
    let unc := (2 * tick + el * (1 + (s.rd R.AON_CTRL_DRIFT_BOUND : Int)) / 100000000 + (if cal then 0 else el / 10000)) / nsU
    let t := s.time + el
    let s1 := { s with time := t }
    let s2 := s1.onBeat (fun z => { z with sleep := none, aon := s.aonNow - Config.aonTicks t, relock := true })
    let d : DiscRec := ⟨3, s.beat.num, before, s2.packNow, roundAway (s2.packNow - before) nsU.toNat, unc, s.rd R.BEAT_CTRL_SRC_SEL⟩
    (((s2.wrW R.AON_UNC (min unc 4294967295).toNat).onBeat (fun z => { z with wakeRec := some d })).wr R.BEAT_STAT_DISC_PEND 1).servoResume

/-- A domain has come on from retention (1) or off (0). -/
def State.pwrFound (s : State) (d was : Nat) : State :=
  if 64 ≤ d then
    let c := d - 64
    let s1 := (List.range 16).foldl (fun t k => t.onCore (16 * c + k) (fun x => { x with ic := [], btb := [], prev := none, ovr := none })) s
    let v := if s.pinOf c ≠ 0 then plVolt (s.pinOf c - 1) else if was = 1 then (s.clu c).vKeep else s.floorEff c
    let s2 := if was = 1 then (s1.setCic c ((s1.cic c).mapHold (·.ended))).onRed (fun z => { z with
        states := z.states.map (fun r => if s.rowner r = c then { r with slept := true } else r) }) else s1
    (((s2.setVolt c v).govClear c none).setClu c { (s2.clu c) with owed := none, bwaits := [], busy := s.anyTakes c, gov := none, govCnt := 0 }).voltKeep c |>.unpark c
  else if 8 ≤ d ∧ d < 16 then (if s.bit (R.FP_CTRL_EN (d - 8)) then s.fpEnable (d - 8) true else s)
  else if 16 ≤ d ∧ d < 20 then s.spGroupOn (d - 16)
  else if d = domKennel then s.kennelStart
  else if d = domSteward then
    (if was = 0 then s.stewardReset else s).wake.unpark 64
  else s

/-! ### Transitions (R498, R502) -/

/-- PWR_STAT.ON: the clusters that are on. -/
def State.pwrCount (s : State) : State :=
  s.wr R.PWR_STAT_ON ((List.range 64).filter (fun c => s.domOn (domCluster c))).length

/-- The slot of domain d, with its bits of PD_STAT. -/
def State.slotPut (s : State) (d : Nat) (r : Option PwrReq) : State :=
  let s1 := s.onPwr (fun z => { z with slot := mset (fun _ => none) z.slot d r })
  match r with
  | some x => ((s1.wr (R.PD_STAT_PEND d) 1).wr (R.PD_STAT_PEND_STATE d) x.state).wb (R.PD_STAT_WAIT d) (!s.bit (R.PD_STAT_BUSY d))
  | none => ((s1.wr (R.PD_STAT_PEND d) 0).wr (R.PD_STAT_PEND_STATE d) 0).wr (R.PD_STAT_WAIT d) 0

/-- The request waiting for domain d. -/
def State.slotOf (s : State) (d : Nat) : Option PwrReq := mget (fun _ => none) s.pwr.slot d

/-- A transition starts. -/
def State.pwrStart (s : State) (d : Nat) (r : PwrReq) : State :=
  let s0 := s.slotPut d none
  let s1 := if s.rd (R.PD_STAT_STATE d) = 2 then s0.pwrLeave d r.state else s0
  (((s1.wr (R.PD_STAT_BUSY d) 1).wr (R.PD_STAT_LAST_SRC d) r.src).onPwr (fun z => { z with trans := mset (fun _ => none) z.trans d (some r) })).pwrCount

/-- What a waiting request sets going: the stop sequence (R36), JRNL_STOP (R428). -/
def State.pwrPrepare (s : State) (d dst : Nat) : State :=
  if s.rd (R.PD_STAT_STATE d) ≠ 2 ∨ dst = 2 then s
  else if d = domSteward ∧ s.bit R.BEAT_STAT_RUNNING then (s.wr R.BEAT_CTRL_RUN 0).stopBeat
  else if (d = domMem ∨ d = domStore) ∧ (s.jState = jRunning ∨ s.jState = jFull) ∧ s.jrn.pf.isNone ∧ s.jrn.stopping.isNone then s.jrnStop 0xFFFF
  else s

/-- The request in the slot starts, is discarded, or waits on. -/
def State.pwrTry (s : State) (d : Nat) (edge : Option (BitVec 48)) : State :=
  match s.slotOf d with
  | none => s
  | some r =>
    if s.bit (R.PD_STAT_BUSY d) then s
    else if s.rd (R.PD_STAT_STATE d) = r.state then s.slotPut d none
    else if s.mayGo d r.state edge then s.pwrStart d r
    else s.wr (R.PD_STAT_WAIT d) 1

/-- Every slot whose condition may have come to hold. -/
def State.pwrSweep (s : State) : State := s.pwr.slot.foldl (fun t e => t.pwrTry e.1 none) s

/-- A step that may let a waiting transition start. -/
def doneP (s : State) : Host.Outcome State Fault Refusal := done s.pwrSweep

/-- R502: a request; the outcome is 0 done at once, 1 in the slot, none started. -/
def State.pwrRequest (s : State) (d dst src : Nat) (cmd : Option Nat) : State × Option Nat :=
  let st := if d = domKennel ∧ dst = 1 then 0 else dst
  let r : PwrReq := ⟨st, if d = domSteward ∧ s.bit R.BEAT_STAT_RUNNING ∧ st ≠ 2 then 4 else src, none⟩
  let s1 := if (s.slotOf d).isSome then (s.slotPut d none).set1 R.PWR_EVT_REPLACED else s
  if s1.bit (R.PD_STAT_BUSY d) then (s1.slotPut d (some r), some 1)
  else if s1.rd (R.PD_STAT_STATE d) = st then (s1, some 0)
  else if s1.mayGo d st none then (s1.pwrStart d { r with cmd := cmd }, none)
  else ((s1.pwrPrepare d st).slotPut d (some r)).pwrTry d none |> fun t => (t, some 1)

/-- Domain d reaches the state of its transition; what waits in the slot then starts. -/
def State.pwrArrive (s : State) (d : Nat) (e : TransitionEnd) : State :=
  match mget (fun _ => none) s.pwr.trans d with
  | none => s
  | some r =>
    let was := s.rd (R.PD_STAT_STATE d)
    let s1 := ((s.wr (R.PD_STAT_STATE d) r.state).wr (R.PD_STAT_BUSY d) 0).incWrap (R.PD_STAT_TRANS d)
    let s2 := (s1.set1 R.PWR_EVT_DONE).onPwr (fun z => { z with trans := mset (fun _ => none) z.trans d none, ripe := z.ripe.filter (· ≠ d) })
    let s3 := if r.state = 0 then s2.pwrLost d else if r.state = 2 then s2.pwrFound d was else s2
    let s4 := match e with
      | .ddr t g k => if d = domMem ∧ r.state = 2 ∧ was = 0 then s3.ddrTrained t g k else s3
      | .plain => s3
    let s5 := match r.cmd with
      | some ch => s4.complete ch stOk (le 1 0 ++ le 1 r.state ++ le 2 0)
      | none => s4
    (s5.pwrCount).pwrTry d none

/-- R499, R500: the transition of domain d has run its time; a cluster that comes on does so at an edge while the beat
runs. -/
def State.pwrDone (s : State) (d : Nat) (e : TransitionEnd) : State :=
  match mget (fun _ => none) s.pwr.trans d with
  | none => s
  | some r =>
    if 64 ≤ d ∧ r.state = 2 ∧ s.bit R.BEAT_STAT_RUNNING then s.onPwr (fun z => { z with ripe := z.ripe.filter (· ≠ d) ++ [d] })
    else s.pwrArrive d e

/-- Step 6 of R18: cluster transitions at edge n. -/
def State.pwrEdge (s : State) (n : BitVec 48) : State :=
  let s1 := s.pwr.slot.foldl (fun t e => if 64 ≤ e.1 then t.pwrTry e.1 (some n) else t) s
  s1.pwr.ripe.foldl (fun t d => t.pwrArrive d .plain) s1

/-- R421, step 5: retention is requested for every cluster. -/
def State.retainAll (s : State) : State := (List.range 64).foldl (fun t c => (t.pwrRequest (domCluster c) 1 3 none).1) s

/-- The journal's flow, and the retention that the end of a power-fail sequence asks for. -/
def State.jrnRun (s : State) : State :=
  let t := s.jrnFlow
  if s.jrn.pf.isSome ∧ t.jrn.pf.isNone ∧ t.jState = jPfHalt then t.retainAll else t

/-! ### The watcher (R268, R269) -/

/-- The domain a slot names is asked on, its suppliers first. -/
def State.wakeDomain (s : State) (d : Nat) : State :=
  let ask (t : State) (x : Nat) : State := if t.rd (R.PD_STAT_STATE x) = 2 ∧ !t.bit (R.PD_STAT_BUSY x) then t else (t.pwrRequest x 2 2 none).1
  let s1 := ((suppliers d).foldl (fun t x => ((suppliers x).foldl ask t) |> fun u => ask u x) s)
  (s1.pwrRequest d 2 2 none).1

/-- The capture of the lowest slot. -/
def lowCapture (l : List Capture) (x : Capture) : Capture := l.foldl (fun a y => if y.slot < a.slot then y else a) x

/-- The captures of a tick reach the power controller (R268, R269). -/
def State.watcherWake (s : State) : State :=
  match s.dev.captures with
  | [] => s
  | x :: l =>
    let low := lowCapture l x
    let s1 := s.onDev (fun z => { z with captures := [], wakeTs := s.aonNow })
    let s2 := (((s1.wr R.WAKE_SRC_VALID 1).wr R.WAKE_SRC_SRC low.src).wr R.WAKE_SRC_SLOT low.slot).wr R.WAKE_SRC_DOMAIN low.dom
    ((x :: l).map (·.dom)).eraseDups.foldl State.wakeDomain (s2.satAdd R.WAKE_CNT_V (l.length + 1))

/-! ### Bertia (R516) -/

/-- PWR_SET. -/
def State.pwrSet (s : State) (ch d dst : Nat) : Reply :=
  let leaves := dst != 2 && s.rd (R.PD_STAT_STATE d) == 2
  if !isDomain d ∨ 2 < dst then .now stBadParam [] s
  else if d = domHost ∧ dst ≠ 2 ∧ ch < 16 then .now stDenied [] s
  else if (dst = 2 ∧ !(suppliers d).all (fun x => s.domOn x)) ∨ (leaves ∧ (dependents d).any (fun x => s.domOn x)) then .now stBadState [] s
  else match s.pwrRequest d dst 1 (some ch) with
    | (t, some o) => .now stOk (le 1 o ++ le 1 (t.rd (R.PD_STAT_STATE d)) ++ le 2 0) t
    | (t, none) => .later t

/-- PWR_DPL (R505). -/
def State.pwrDpl (s : State) (k : Nat) : Reply :=
  if 3 < k then .now stBadParam [] s
  else
    let old := s.rd R.PWR_STAT_DPL
    let fast := (List.range 4).any (fun c => s.rd (R.DDR_STAT_STATE c) == 2 && s.rd (R.DDR_STAT_TYPE c) == 2)
    let s1 := s.wr R.PWR_STAT_DPL k
    if old ≠ k ∧ (old = 0 ∨ k = 0) ∧ fast ∧ s.domOn domMem then
      let s2 := (s1.wr (R.PD_STAT_BUSY domMem) 1).onPwr (fun z => { z with retrain := true })
      .now stOk [] ((List.range 4).foldl (fun t c =>
        if t.rd (R.DDR_STAT_STATE c) = 2 ∧ t.rd (R.DDR_STAT_TYPE c) = 2 then t.wr (R.DDR_STAT_STATE c) 1 else t) s2)
    else .now stOk [] s1

/-- DDR_RETRAIN_DONE (R505): MEM leaves its self-refresh. -/
def State.retrainDone (s : State) (ok : List Bool) : State :=
  if !s.pwr.retrain then s
  else
    let s1 := (List.range 4).foldl (fun t c =>
      if t.rd (R.DDR_STAT_STATE c) ≠ 1 then t
      else if ok.getD c true then t.wr (R.DDR_STAT_STATE c) 2
      else (t.wr (R.DDR_STAT_STATE c) 3).set1 (R.DDR_EVT_TRAIN_FAIL c)) s
    ((s1.wr (R.PD_STAT_BUSY domMem) 0).onPwr (fun z => { z with retrain := false })).pwrTry domMem none

/-- SPEED_READ. -/
def State.speedRead (s : State) (c : Nat) : Reply :=
  if 64 ≤ c then .now stBadParam [] s
  else match mget (fun _ => none) s.pwr.speed c with
    | none => .now stBadState [] s
    | some (t, tj) => .now stOk (le 2 tj ++ le 2 0 ++ ((List.range 21).map (fun k => le 2 (t.getD k 0))).flatten) s

/-- SPEED_MEASURE: the named cluster, or all, that are on. -/
def State.speedMeasure (s : State) (ch c : Nat) : Reply :=
  if 64 ≤ c ∧ c ≠ 255 then .now stBadParam [] s
  else if s.pwr.measCmd.isSome then .now stBusy [] s
  else
    let l := (if c = 255 then List.range 64 else [c]).filter (fun k => s.domOn (domCluster k))
    if l.isEmpty then .now stBadState [] s
    else .later (s.onPwr (fun z => { z with measuring := z.measuring ++ l.filter (fun k => !z.measuring.contains k), measCmd := some (ch, l) }))

/-- SPEED_TABLE_MEASURED (R510). -/
def State.speedMeasured (s : State) (c : Nat) (t : List Nat) (tj : Nat) : State :=
  if !s.domOn (domCluster c) then s
  else
    ((s.onPwr (fun z => { z with speed := mset (fun _ => none) z.speed c (some (t, tj)) })).set1 R.PWR_EVT_SPEED).measEnd c

/-! ### The rows -/

/-- PWR_SET (R502). -/
def execPwrSet (h : BHdr) (dom st : BitVec 8) (s : State) : Host.Outcome State Fault Refusal :=
  bertiaRow h { len := 4, maxData := 4 } (·.pwrSet h.ch.toNat dom.toNat st.toNat) s

/-- PWR_STATUS (R516). -/
def execPwrStatus (h : BHdr) (first count : BitVec 8) (s : State) : Host.Outcome State Fault Refusal :=
  bertiaRow h { len := 4, maxData := 4 * count.toNat } (fun t =>
    if count = 0 ∨ 128 < count.toNat ∨ 128 < first.toNat + count.toNat
        ∨ (List.range count.toNat).any (fun k => decide (20 ≤ first.toNat + k) && decide (first.toNat + k < 64)) then .now stBadParam [] t
    else .now stOk ((List.range count.toNat).map (fun k => le 4 (t.rdW (R.PD_STAT (first.toNat + k))))).flatten t) s

/-- PWR_DPL (R505). -/
def execPwrDpl (h : BHdr) (level : BitVec 8) (s : State) : Host.Outcome State Fault Refusal :=
  bertiaRow h { len := 4 } (·.pwrDpl level.toNat) s

/-- SPEED_READ (R516). -/
def execSpeedRead (h : BHdr) (cluster : BitVec 8) (s : State) : Host.Outcome State Fault Refusal :=
  bertiaRow h { len := 4, maxData := 46 } (·.speedRead cluster.toNat) s

/-- SPEED_MEASURE (R510). -/
def execSpeedMeasure (h : BHdr) (cluster : BitVec 8) (s : State) : Host.Outcome State Fault Refusal :=
  bertiaRow h { len := 4 } (·.speedMeasure h.ch.toNat cluster.toNat) s

/-- DOMAIN_TRANSITION_DONE (R499). -/
def execDomainTransitionDone (d : BitVec 7) (e : TransitionEnd) (s : State) : Host.Outcome State Fault Refusal := doneP (s.pwrDone d.toNat e)

/-- SPEED_REMEASURE (R510). -/
def execSpeedRemeasure (c : BitVec 6) (s : State) : Host.Outcome State Fault Refusal :=
  done (if s.domOn (domCluster c.toNat) && !s.pwr.measuring.contains c.toNat then s.onPwr (fun z => { z with measuring := z.measuring ++ [c.toNat] }) else s)

/-- SPEED_TABLE_MEASURED (R510): 21 points. -/
def execSpeedTableMeasured (c : BitVec 6) (table : List (BitVec 16)) (tj : BitVec 16) (s : State) : Host.Outcome State Fault Refusal :=
  doneIf (table.length == 21) (s.speedMeasured c.toNat (table.map (·.toNat)) tj.toNat)

/-- TJ_WARN_CROSS (R515). -/
def execTjWarnCross (tj : BitVec 16) (hot : BitVec 8) (s : State) : Host.Outcome State Fault Refusal :=
  let s1 := (s.wr R.PWR_TJ_TJ tj.toNat).wr R.PWR_TJ_HOT hot.toNat
  done (if ofSigned 16 (s.rd R.TJ_WARN_V) ≤ tj.toInt then s1.set1 R.PWR_EVT_TJ else s1)

/-- THERMTRIP (R560): the pin is driven low until a power-on reset. -/
def execThermtrip (s : State) : Host.Outcome State Fault Refusal :=
  done (if s.pwr.trip then s else (s.onPwr (fun z => { z with trip := true })).emit .thermtripPin)

/-- DDR_RETRAIN_DONE (R505). -/
def execDdrRetrainDone (ok : List Bool) (s : State) : Host.Outcome State Fault Refusal := doneP (s.retrainDone ok)

/-- WATCHER_WAKE (R268). -/
def execWatcherWake (s : State) : Host.Outcome State Fault Refusal := doneP s.watcherWake

/-- ZEROIZE_N_ASSERT (R457). -/
def execZeroizeNAssert (s : State) : Host.Outcome State Fault Refusal := doneP s.zeroPin

/-- FULL_ZEROIZATION_DONE (R456). -/
def execFullZeroizationDone (s : State) : Host.Outcome State Fault Refusal := doneP s.zeroDone

end Sys2Proof.Machine
end

