-- ==== Sys2Proof/Machine/Journal.lean ====
section
/-! DEFINITION. The journal's commands (13): seals, NVMe completions, power failure, windows, configuration items and the
Bertia 0x05xx commands. -/

namespace Sys2Proof.Machine

open Sys2Proof

/-! ### Seals (R412, R413, R443) -/

/-- Does the steward core run its firmware? -/
def State.stewardRuns (s : State) : Bool := s.domOn domSteward && (s.core 1024).takes && !s.boot.rom

/-- SEAL_TICK. -/
def State.sealTick (s : State) : State :=
  if (s.jState ≠ jRunning ∧ s.jState ≠ jFull) ∨ s.jrn.pf.isSome then s
  else
    let s1 := s.ctxOn.foldl State.flushGather s
    let s2 :=
      if !s.stewardRuns then s1.inc R.SEAL_SKIP_V
      else if s.jrn.sealing.isSome ∨ !s.jrn.sealTodo.isEmpty ∨ s.jrn.stopping.isSome then (s1.closeBlock 0 0).inc R.SEAL_SKIP_V
      else
        let again := match s.jrn.compact with
          | some x => if x.tomb.isNone then [x.chain] else []
          | none => []
        (s1.startSeal 0 0).onJrn (fun z => { z with sealTodo := z.sealTodo ++ again })
    s2.jrnRun

/-- SEAL_REQUEST: the kennel serves a seal that waits for it, or refuses (R413, R443). -/
def State.sealRequest (s : State) : State :=
  if !s.sealReady ∨ !s.stewardRuns then s
  else if s.knLive ∧ s.knState = knOperational ∧ s.bit R.KN_STAT_SEAL then
    s.onJrn (fun z => { z with sealing := z.sealing.map (fun x => { x with asked := true }) })
  else s.sealRefused.jrnRun

/-- SEAL_SIGNED: the answer to a seal asked for. -/
def State.sealAnswer (s : State) (ok : Bool) : State :=
  match s.jrn.sealing with
  | some x => if !x.asked then s else if ok then (s.sealSigned x).jrnRun else s.sealRefused.jrnRun
  | none => s

/-! ### Power failure (R421) -/

/-- PWRFAIL_N falls. -/
def State.pwrFail (s : State) : State :=
  let s1 := s.wr R.J_STAT_PF_PIN 1
  if s.jrn.pf.isSome then s1
  else if s.jState = jRunning ∨ s.jState = jFull then s1.pfStart.jrnRun
  else s1.retainAll

/-- PWRFAIL_N rises. -/
def State.pwrBack (s : State) : State :=
  (s.wr R.J_STAT_PF_PIN 0).onJrn (fun z => { z with pinBack := z.pf.isSome })

/-! ### Store ports (R410, R425) -/

/-- RATE_WINDOW: S_RATE falls to the completed rate, in MB/s. -/
def State.rateWindow (s : State) (p octets : Nat) (waited : Bool) : State :=
  if s.jState = jRunning ∧ waited ∧ s.nsInUse.contains p ∧ octets < s.rdW (R.S_RATE p) * 1000000 then
    (s.wrW (R.S_RATE p) (octets / 1000000)).jRates
  else s

/-- STORE_LINK_CHANGE. -/
def State.storeLink (s : State) (p : Nat) (l : StoreLink) : State :=
  if !s.domOn domStore then s
  else if l.gen = 0 then s.storeDown p
  else
    let st := s.rd (R.S_STAT_NSSTATE p)
    let s1 := if s.rd (R.S_STAT_LINK p) = 0 then s.set1 (R.S_EVT_LINKUP p) else s
    let s2 := (((s1.wr (R.S_STAT_LINK p) l.gen.toNat).wr (R.S_STAT_WIDTH p) l.width.toNat).wb (R.S_STAT_READY p) l.ready).wb (R.S_STAT_VWC p) l.vwc
    let s3 := s2.onJrn (fun z => { z with nsCap := mset (fun _ => 0) z.nsCap p l.segs.toNat })
    if st = 1 ∨ st = 3 then s3 else s3.wr (R.S_STAT_NSSTATE p) (if l.formatOk then 0 else 2)

/-! ### Configuration items (R415, R417) -/

/-- A block of the flash configuration journal, holding one record. -/
def State.flashBlock (s : State) (rtype : Nat) (body : List Octet) : State :=
  let k := s.nextBseq 3
  let r : Placed := ⟨rtype, 0, 3, s.beat.num, recOctets ⟨BitVec.ofNat 8 rtype, 3, s.beat.num, false, false, body⟩ 0⟩
  let b : Block := { chain := 3, bseq := k, ns := 4, seg := 0, recs := [r], bflags := 1, state := .durable, tClose := s.packNow, header := [] }
  let h := blockHeader b 0 (s.jrn.archive.getD 0) (mget (fun _ => 0) s.jrn.headHash 3)
  s.onJrn (fun z => { z with
    heads := mset (fun _ => 0) z.heads 3 (k + 1)
    headHash := mset (fun _ => 0) z.headHash 3 (Config.sha384 h)
    blocks := z.blocks ++ [{ b with header := h }] })

/-- The body of a CONFIG_ITEM record. -/
def itemBody (key flags : Nat) (v : List Octet) : List Octet := le 4 key ++ le 1 flags ++ le 1 0 ++ le 2 v.length ++ v

/-- A BOOT item goes to the flash; a full half is replaced by checkpoints in the other. -/
def State.flashPut (s : State) (key : Nat) (v : List Octet) : State :=
  let half := (s.jrn.blocks.filter (fun b => b.chain = 3)).length
  let s1 :=
    if half < 128 then s
    else
      let upto := s.nextBseq 3 - 1
      let items := s.jrn.items.filterMap (fun e => e.2.bind (fun x => if x.1 % 2 = 1 then some (itemBody e.1 x.1 x.2) else none))
      let s0 := s.onJrn (fun z => { z with blocks := z.blocks.filter (fun b => b.chain ≠ 3) })
      items.foldl (fun t e => t.flashBlock 0x12 (le 1 3 ++ le 3 0 ++ le 8 upto ++ le 4 1 ++ le 4 0 ++ e)) s0
  s1.flashBlock 0x11 (itemBody key 1 v)

/-- The record of an item. -/
def State.itemJRec (s : State) (key flags : Nat) (v : List Octet) : JRec := ⟨0x11, 2, s.beat.num, false, false, itemBody key flags v⟩

/-- Is there room for an item: in the chain while the journal runs, else in the hold area (R409)? -/
def State.itemFits (s : State) (key flags : Nat) (v : List Octet) : Bool := s.jState == jRunning || s.holdTakes (s.itemJRec key flags v)

/-- An item is put: the last one for a key is in force, length 0 deletes it; BOOT items go to the flash too (R415). -/
def State.putItem (s : State) (key flags : Nat) (v : List Octet) : State :=
  let r := s.itemJRec key flags v
  let wasBoot := match mget (fun _ => none) s.jrn.items key with
    | some x => decide (x.1 % 2 = 1)
    | none => false
  let s1 := s.onJrn (fun z => { z with items := mset (fun _ => none) z.items key (if v.isEmpty then none else some (flags, v)) })
  let s2 := if flags = 1 || wasBoot then s1.flashPut key v else s1
  if s.jState = jRunning then s2.ownRec r else s2.onJrn (fun z => { z with hold := z.hold ++ [r] })

/-- R415: a persistent setting k of the journal becomes an item, where there is room for one. -/
def State.setting (s : State) (k v : Nat) : State :=
  if s.itemFits (settingKey k) 0 (le 4 v) then s.putItem (settingKey k) 0 (le 4 v) else s

/-- CFG_PUT. -/
def State.cfgPut (s : State) (key flags : Nat) (v : List Octet) : Reply :=
  if 1 < flags ∨ (flags = 1 ∧ 3856 < v.length) then .now stBadParam [] s
  else if !s.itemFits key flags v then .now stNoSpace [] s
  else .now stOk [] (s.putItem key flags v)

/-- CFG_GET. -/
def State.cfgGet (s : State) (key : Nat) : Reply :=
  match mget (fun _ => none) s.jrn.items key with
  | none => .now stNotFound [] s
  | some (_, v) => .now stOk (le 2 v.length ++ le 2 0 ++ v) s

/-! ### Formatting, starting, stopping (R399, R400, R408) -/

/-- The level at which segment counts in ascending order share out n segments, and what is then left over. -/
def fillLevel : List Nat → Nat → Nat × Nat
  | [], n => (n, 0)
  | x :: r, n => if x * (r.length + 1) ≤ n then fillLevel r (n - x) else (n / (r.length + 1), n % (r.length + 1))

/-- R399: the local segments in use of namespaces of some sizes: at most 131,072, those with the highest local numbers left unused;
of equal ones those of the higher ports (log 13). -/
def segsOf (sizes : List Nat) : List Nat :=
  let (level, rest) := fillLevel ((sizes.filter (fun x => 0 < x)).mergeSort (fun a b => decide (a ≤ b))) 131072
  (List.range sizes.length).map (fun p =>
    let x := sizes.getD p 0
    if level < x ∧ ((sizes.take p).filter (fun y => level < y)).length < rest then level + 1 else min level x)

/-- The label of the namespace on port p of an archive on ports l (R400): its octets before the zeros. -/
def State.labelOctets (s : State) (l : List Nat) (p mode segs : Nat) (archive : BitVec 64) : List Octet :=
  let h := le 4 0x4C424C4A ++ le 1 1 ++ le 1 (l.filter (· < p)).length ++ le 1 l.length ++ le 1 mode ++ le 8 Config.serial.toNat ++ le 8 archive.toNat
    ++ le 4 segs ++ le 10 (packTime s.packNow).toNat ++ le 14 0
  h ++ le 4 (crc32 h)

/-- May the kennel draw random values (R436, R450)? -/
def State.drbgOk (s : State) : Bool :=
  s.knLive && (s.knState == knOperational || s.knState == knPending || s.knState == knUninit)

/-- JRNL_FORMAT: labels, a new ARCHIVE_ID, empty chains. -/
def State.jrnFormat (s : State) (ports mode : Nat) (nsid : List Reg32) : Reply :=
  let l := (List.range 4).filter (fun p => ports / 2 ^ p % 2 = 1)
  if ports = 0 ∨ 15 < ports ∨ 1 < mode ∨ l.any (fun p => nsid.getD p 0 = 0) then .now stBadParam [] s
  else if (s.jState ≠ jOff ∧ s.jState ≠ jReady) ∨ l.any (fun p => !s.bit (R.S_STAT_READY p) || s.rd (R.S_STAT_NSSTATE p) == 2) ∨ !s.drbgOk then
    .now stBadState [] s
  else
    let sizes := (List.range 4).map (fun p => if l.contains p then mget (fun _ => 0) s.jrn.nsCap p else 0)
    let segs := segsOf sizes
    let idOf := BitVec.ofNat 64 s.freeVal
    let label (p : Nat) : List Octet := s.labelOctets l p mode (segs.getD p 0) idOf
    let s2 := s.freeNext.useDrbg.onJrn (fun z => { z with
      nsSegs := (List.range 4).foldl (fun m p => mset (fun _ => 0) m p (segs.getD p 0)) []
      archive := some idOf
      labels := l.foldl (fun m p => mset (fun _ => []) m p (label p)) z.labels
      ring := mode = 1
      heads := z.heads.filter (fun e => e.1 = 3)
      headHash := z.headHash.filter (fun e => e.1 = 3)
      sealed := []
      blocks := z.blocks.filter (fun b => b.chain = 3)
      segs := []
      freed := []
      dip := []
      cut := none
      items := s.itemsIn 3 [] })
    let s3 := s2.wb R.J_STAT_RING (mode = 1)
    let s4 := (s3.wr R.J_STAT_NS_USE ports).wr R.J_STAT_NS_LOST 0
    let s5 := (List.range 4).foldl (fun t p =>
      if l.contains p then
        (((t.wr (R.S_STAT_NSSTATE p) 1).wr (R.S_STAT_NSIDX p) (l.filter (· < p)).length).nvme p (.label 0 (label p))).nvme p (.label 1 (label p))
      else if t.rd (R.S_STAT_NSSTATE p) = 2 then t else t.wr (R.S_STAT_NSSTATE p) 0) s4
    .now stOk (le 8 idOf.toNat) (s5.setting 2 mode).jCounts

/-- JRNL_START: RECOVERING, until the scan or, where one has completed since reset, the rate tests end. -/
def State.jrnStart (s : State) : Reply :=
  let st := s.jState
  if (st ≠ jOff ∧ st ≠ jReady ∧ st ≠ jPfHalt) ∨ !s.domOn domMem ∨ !s.domOn domStore then .now stBadState [] s
  else
    let s1 := if s.jrn.archive.isNone ∨ (s.jrn.recovered ∧ s.nsInUse.isEmpty) then s.setJState jFailed
      else if s.jrn.recovered then ((s.setJState jRecovering).onJrn (fun z => { z with entering := true })).rateTests
      else s.setJState jRecovering
    .now stOk (le 1 s1.jState) s1

/-- RECOVERY_DONE. -/
def State.recovered (s : State) (r : RecoveryScan) : State :=
  if s.jState = jRecovering ∧ !s.jrn.entering then s.recoveryDone r else s

/-- JRNL_STOP. -/
def State.jrnStopCmd (s : State) (ch : Nat) : Reply :=
  if (s.jState ≠ jRunning ∧ s.jState ≠ jFull) ∨ s.jrn.pf.isSome ∨ s.jrn.stopping.isSome then .now stBadState [] s
  else .later (s.jrnStop ch)

/-! ### Status, settings, reading -/

/-- The highest closed BSEQ of a chain. -/
def State.headOf (s : State) (c : Nat) : Nat := s.nextBseq c - (if (s.openBlock c).isSome then 1 else 0) - 1

/-- The last sealed BSEQ of a chain. -/
def State.sealedHead (s : State) (c : Nat) : Nat := s.sealedOf c - 1

/-- JRNL_STATUS. -/
def State.jrnStatus (s : State) : List Octet :=
  le 1 s.jState ++ le 3 0 ++ le 8 (s.headOf 0) ++ le 8 (s.sealedHead 0) ++ le 4 (s.rd R.FREE_SEG_V) ++ le 4 (s.rdW R.RATE_G)
    ++ le 2 (s.rd R.BUF_CEIL_V) ++ le 2 (s.rd R.BUF_USED_V)


/-- The octets of a block: header, payload, zeros. -/
def Block.octets (b : Block) : List Octet :=
  let l := b.header ++ (b.recs.map (·.octets)).flatten
  l ++ List.replicate ((if b.chain = 3 then 4096 else 1048576) - l.length) 0

/-- JRNL_READ. -/
def State.jrnRead (s : State) (ch c k off len : Nat) : Reply :=
  if 3 < c ∨ len = 0 ∨ 65536 < len ∨ 1048576 < off + len then .now stBadParam [] s
  else match s.jrn.blocks.find? (fun b => b.chain = c ∧ b.bseq = k ∧ b.state ≠ .opened) with
    | none => .now (if s.jrn.freed.any (fun g => g.chain = c ∧ g.first ≤ k ∧ k ≤ g.last) ∨ (c = 3 ∧ k < s.nextBseq 3) then stDeleted else stNotFound) [] s
    | some b =>
      if b.state = .closed ∨ c = 3 then .now stOk ((b.octets.drop off).take len) s
      else .later (s.nvme b.ns (.read c k off len ch))

/-- Is a beat within a span of beats? -/
def inSpan (b lo hi : BitVec 48) : Bool := decide (lo ≤ b) && decide (b ≤ hi)

/-- JRNL_FIND (R415). -/
def State.jrnFind (s : State) (c : Nat) (beat : BitVec 48) : Reply :=
  if 2 < c then .now stBadParam [] s
  else
    let holds (b : Block) : Bool :=
      let sp := beatSpan (b.recs.map (·.beat)) ((b.recs.map (·.beat)).headD 0) 0
      b.chain == c && b.state != .opened && !b.recs.isEmpty && inSpan beat sp.1 sp.2
    match s.jrn.blocks.find? holds with
    | some b => .now stOk (le 8 b.bseq ++ le 4 (s.segNo b.seg)) s
    | none => .now (if s.jrn.freed.any (fun g => g.chain = c ∧ inSpan beat g.firstBeat g.lastBeat) then stDeleted else stNotFound) [] s

/-- JRNL_DELETE (R418): each segment is released once its tombstone is durable, and then the command completes. A tombstone for
which there is no room (FULL) is placed in what its segment frees (log 13). -/
def State.jrnDelete (s : State) (ch sess last : Nat) : Reply :=
  if s.jState ≠ jRunning ∧ s.jState ≠ jFull ∨ s.jrn.pf.isSome ∨ s.jrn.stopping.isSome then .now stBadState [] s
  else if s.sealedOf 0 ≤ last ∨ s.jrn.segs.any (fun g => g.chain = 0 ∧ !g.filled ∧ g.first ≤ last) then .now stBadParam [] s
  else if s.jrn.delCh.isSome then .now stBusy [] s
  else
    let l := (s.jrn.segs.filter (fun g => g.chain = 0 ∧ g.last ≤ last ∧ !s.jrn.release.any (fun e => e.1 = g.seg))).mergeSort
      (fun a b => decide (a.first ≤ b.first))
    let one (t : State) (g : Segment) : State :=
      match t.releaseAfter 2 sess g with
      | some u => u
      | none => (t.releaseSeg g).admitOne (tombstone 0 2 g.first g.last g.lastHash sess s.beat.num)
    if l.isEmpty then .now stOk (le 4 0) s
    else
      let s1 := (l.foldl one s).closeBlock 0 0 true
      if s1.jrn.release.isEmpty then .now stOk (le 4 l.length) ((if s1.jState = jFull then s1.setJState jRunning else s1).jCounts)
      else .later ((s1.onJrn (fun z => { z with delCh := some (ch, l.length) })).jrnRun)

/-- JRNL_COMPACT (R416). -/
def State.jrnCompact (s : State) (ch c : Nat) : Reply :=
  if c ≠ 1 ∧ c ≠ 2 then .now stBadParam [] s
  else if s.jState ≠ jRunning ∨ s.jrn.pf.isSome ∨ s.jrn.stopping.isSome then .now stBadState [] s
  else if s.jrn.compact.isSome then .now stBusy [] s
  else .later ((s.startCompact c (some ch)).jrnRun)

/-- JRNL_RATE_TEST (R410). -/
def State.jrnRateTest (s : State) (ch : Nat) : Reply :=
  if (s.jState ≠ jReady ∧ s.jState ≠ jRunning) ∨ s.jrn.pf.isSome then .now stBadState [] s
  else if s.jrn.testCh.isSome then .now stBusy [] s
  else .later ((s.onJrn (fun z => { z with testCh := some ch })).rateTests.rateEnd)

/-! ### Event windows (R420) -/

/-- Octets per second of a list of contexts as journaled slots, per beat. -/
def State.journaled (s : State) : ℚ :=
  let cs := s.ctxOn.filter (fun i => (s.cfg i).jrnl)
  let blocks := cs.filter (fun i => (s.cfg i).ctype ≠ tyRed ∧ (s.cfg i).ctype ≠ tyTim)
  (blocks.map (fun i => (((s.cfg i).octets + 5 : Nat) : ℚ))).foldl (· + ·) 0 + (s.red.states.map (fun r =>
    if cs.contains r.outCtx ∧ r.kind ≠ kMember then ((24 + 5 * r.rlen (s.cfg r.src).spb : Nat) : ℚ) / (r.glen : ℚ) else 0)).foldl (· + ·) 0

/-- EW_ARM. -/
def State.ewArm (s : State) (wid mask pre post : Nat) (ctxs : List Nat) : Reply :=
  let cs := ctxs.map s.cfg
  let stores := cs.map (·.store)
  let rate : ℚ := (cs.map (fun c => ((c.octets : Nat) : ℚ))).foldl (· + ·) 0 + s.journaled
  let limit : ℚ := (min 16000000000 (s.rdW R.RATE_G * 1000000) : Nat)
  let secs : ℚ := ((s.rdW R.PERIOD_ACT_INT * 4294967296 + s.rdW R.PERIOD_ACT_FRAC : Nat) : ℚ) / 4294967296000000000
  if ctxs.isEmpty ∨ 4096 < ctxs.length ∨ cs.any (fun c => !c.on) ∨ stores.any (fun x => x ≠ stores.headD 0) ∨ post = 0 ∨ 3 < mask
      ∨ cs.any (fun c => c.depth < pre + 3) ∨ s.jrn.windows.any (fun w => w.wid = wid) ∨ limit * secs < rate then .now stBadParam [] s
  else if 4 ≤ s.jrn.windows.length then .now stNoSpace [] s
  else .now stOk [] (s.onJrn (fun z => { z with windows := z.windows ++ [⟨wid, mask, pre, post, ctxs, none, ctxs, 0⟩] }))

/-- EW_TRIGGER: the window's trigger latches at the next edge. -/
def State.ewTrigger (s : State) (wid : Nat) : Reply :=
  match s.jrn.windows.find? (fun w => w.wid = wid) with
  | none => .now stNotFound [] s
  | some w =>
    if w.mask / 2 % 2 = 0 ∨ w.trig.isSome then .now stBadState [] s
    else .now stOk [] (s.triggerWindows (fun x => x.wid = wid) (s.beat.num + 1))

/-- EW_DISARM. -/
def State.ewDisarm (s : State) (wid : Nat) : Reply :=
  if s.jrn.windows.any (fun w => w.wid = wid) then
    .now stOk [] ((s.onJrn (fun z => { z with windows := z.windows.filter (fun w => w.wid ≠ wid) })).windowStat)
  else .now stNotFound [] s

/-- R420: the slots before the trigger edge n of a context that are readable now; one already overwritten is recorded as
gaps. -/
def State.windowPast (s : State) (w : Window) (n : BitVec 48) (i : Nat) : State :=
  (List.range w.pre).foldl (fun t k =>
    let b := n - BitVec.ofNat 48 (w.pre - k)
    let c := t.cfg i
    let hdr := t.long (c.slotAt b)
    if !t.ownerOn c then t
    else if hdr.getLsbD 0 ∧ bitsOf hdr 16 24 = b.toNat % 16777216 then (t.scan (c.slotAt b) c.slot).windowOne w.wid i b hdr (t.slotElems c (c.slotAt b))
    else if w.pre - k ≤ 2 ∨ c.ctype = tyRem then t
    else ((t.inc R.EW_LOST_V).set1 R.J_EVT_DROP).windowOne w.wid i b (slotHeader b c.spb false true) (List.replicate c.spb c.gap)) s

/-- The windows triggered at edge n take what is readable; those that can take nothing more end. -/
def State.windowsOpen (s : State) (n : BitVec 48) : State :=
  let s1 := s.windowsEnd n
  (s1.jrn.windows.filter (fun w => w.trig = some n)).foldl (fun t w => w.ctxs.foldl (fun u i => u.windowPast w n i) t) s1

/-! ### The rows -/

/-- RECORD_ADMIT (R409). -/
def execRecordAdmit (r : JRec) (s : State) : Host.Outcome State Fault Refusal := doneP ((s.offerRec r).jCounts)

/-- SEAL_TICK (R412). -/
def execSealTick (s : State) : Host.Outcome State Fault Refusal := doneP s.sealTick

/-- SEAL_SIGNED (R412). -/
def execSealSigned (ok : Bool) (s : State) : Host.Outcome State Fault Refusal := doneP (s.sealAnswer ok)

/-- SEAL_REQUEST (R443). -/
def execSealRequest (s : State) : Host.Outcome State Fault Refusal := doneP s.sealRequest

/-- NVME_COMPLETION (R411). -/
def execNvmeCompletion (port : BitVec 2) (r : NvmeResult) (s : State) : Host.Outcome State Fault Refusal :=
  doneP ((s.cmdDone port.toNat r).jrnRun)

/-- NVME_TIMEOUT (R411). -/
def execNvmeTimeout (port : BitVec 2) (s : State) : Host.Outcome State Fault Refusal := doneP ((s.cmdTimeout port.toNat).jrnRun)

/-- RATE_WINDOW (R410). -/
def execRateWindow (port : BitVec 2) (octets : BitVec 40) (waited : Bool) (s : State) : Host.Outcome State Fault Refusal :=
  done (s.rateWindow port.toNat octets.toNat waited)

/-- RECOVERY_DONE (R422). -/
def execRecoveryDone (r : RecoveryScan) (s : State) : Host.Outcome State Fault Refusal := doneP (s.recovered r)

/-- PWRFAIL_N_ASSERT (R421). -/
def execPwrfailNAssert (s : State) : Host.Outcome State Fault Refusal := doneP s.pwrFail

/-- PWRFAIL_N_RELEASE (R421). -/
def execPwrfailNRelease (s : State) : Host.Outcome State Fault Refusal := done s.pwrBack

/-- STORE_LINK_CHANGE (R425): LINK is 0 to 3. -/
def execStoreLinkChange (port : BitVec 2) (l : StoreLink) (s : State) : Host.Outcome State Fault Refusal :=
  doneIf (decide (l.gen.toNat < 4)) (s.storeLink port.toNat l)

/-- HEAD_LO_READ (R425). -/
def execHeadLoRead (s : State) : Host.Outcome State Fault Refusal :=
  done ((s.wrW R.HEAD_HI (s.headOf 0 / 4294967296)).emit (.readData R.HEAD_LO (s.headOf 0 % 4294967296)))

/-- SEALED_LO_READ (R425). -/
def execSealedLoRead (s : State) : Host.Outcome State Fault Refusal :=
  done ((s.wrW R.SEALED_HI (s.sealedHead 0 / 4294967296)).emit (.readData R.SEALED_LO (s.sealedHead 0 % 4294967296)))

/-- JRNL_FORMAT (R427). -/
def execJrnlFormat (h : BHdr) (ports mode : BitVec 8) (nsid : List Reg32) (s : State) : Host.Outcome State Fault Refusal :=
  bertiaRow h { len := 20, maxData := 8, co := true } (·.jrnFormat ports.toNat mode.toNat nsid) s

/-- JRNL_START (R408). -/
def execJrnlStart (h : BHdr) (s : State) : Host.Outcome State Fault Refusal := bertiaRow h { len := 0, maxData := 1 } (·.jrnStart) s

/-- JRNL_STOP (R408). -/
def execJrnlStop (h : BHdr) (s : State) : Host.Outcome State Fault Refusal := bertiaRow h { len := 0 } (·.jrnStopCmd h.ch.toNat) s

/-- JRNL_STATUS (R427). -/
def execJrnlStatus (h : BHdr) (s : State) : Host.Outcome State Fault Refusal :=
  bertiaRow h { len := 0, maxData := 32 } (fun t => .now stOk t.jrnStatus t) s

/-- JRNL_SEAL_CFG (R414). -/
def execJrnlSealCfg (h : BHdr) (ivl : Reg32) (s : State) : Host.Outcome State Fault Refusal :=
  bertiaRow h { len := 4 } (fun t =>
    if ivl.toNat < 10000 ∨ 3600000000 < ivl.toNat then .now stBadParam [] t else .now stOk [] ((t.setWord R.SEAL_IVL ivl).setting 1 ivl.toNat)) s

/-- JRNL_HOLDUP (R427). -/
def execJrnlHoldup (h : BHdr) (us : Reg32) (s : State) : Host.Outcome State Fault Refusal :=
  bertiaRow h { len := 4, maxData := 2 } (fun t =>
    if us.toNat < 2000 ∨ 1000000 < us.toNat then .now stBadParam [] t
    else let u := ((t.setWord R.HOLDUP us).jRates).setting 0 us.toNat; .now stOk (le 2 (u.rd R.BUF_CEIL_V)) u) s

/-- JRNL_READ (R427). -/
def execJrnlRead (h : BHdr) (chain : BitVec 8) (bseq : BitVec 64) (off len : Reg32) (s : State) : Host.Outcome State Fault Refusal :=
  bertiaRow h { len := 20, maxData := len.toNat } (·.jrnRead h.ch.toNat chain.toNat bseq.toNat off.toNat len.toNat) s

/-- JRNL_FIND (R415). -/
def execJrnlFind (h : BHdr) (chain : BitVec 8) (beat : BitVec 48) (s : State) : Host.Outcome State Fault Refusal :=
  bertiaRow h { len := 12, maxData := 12 } (·.jrnFind chain.toNat beat) s

/-- JRNL_DELETE (R418). -/
def execJrnlDelete (h : BHdr) (last : BitVec 64) (s : State) : Host.Outcome State Fault Refusal :=
  bertiaRow h { len := 8, maxData := 4, co := true } (fun t => t.jrnDelete h.ch.toNat (((t.chan h.ch.toNat).sess.map (·.id)).getD 0) last.toNat) s

/-- JRNL_COMPACT (R416). -/
def execJrnlCompact (h : BHdr) (chain : BitVec 8) (s : State) : Host.Outcome State Fault Refusal :=
  bertiaRow h { len := 4 } (·.jrnCompact h.ch.toNat chain.toNat) s

/-- EW_ARM (R420): the count is that of the contexts. -/
def execEwArm (h : BHdr) (wid : Reg32) (mask : BitVec 8) (pre post : BitVec 16) (ctxs : List Reg32) (s : State) : Host.Outcome State Fault Refusal :=
  bertiaRow h { len := 12 + 4 * ctxs.length } (·.ewArm wid.toNat mask.toNat pre.toNat post.toNat (ctxs.map (·.toNat))) s

/-- EW_TRIGGER (R420). -/
def execEwTrigger (h : BHdr) (wid : Reg32) (s : State) : Host.Outcome State Fault Refusal := bertiaRow h { len := 4 } (·.ewTrigger wid.toNat) s

/-- EW_DISARM (R427). -/
def execEwDisarm (h : BHdr) (wid : Reg32) (s : State) : Host.Outcome State Fault Refusal := bertiaRow h { len := 4 } (·.ewDisarm wid.toNat) s

/-- JRNL_RATE_TEST (R410). -/
def execJrnlRateTest (h : BHdr) (s : State) : Host.Outcome State Fault Refusal :=
  bertiaRow h { len := 0, maxData := 16 } (·.jrnRateTest h.ch.toNat) s

/-- CFG_PUT (R415): the value's length has 16 bits. -/
def execCfgPut (h : BHdr) (key : Reg32) (flags : BitVec 8) (value : List Octet) (s : State) : Host.Outcome State Fault Refusal :=
  if value.length < 65536 then bertiaRow h { len := 8 + value.length } (·.cfgPut key.toNat flags.toNat value) s else .fault .illFormed

/-- CFG_GET (R427). -/
def execCfgGet (h : BHdr) (key : Reg32) (s : State) : Host.Outcome State Fault Refusal :=
  bertiaRow h { len := 4, maxData := 4 } (·.cfgGet key.toNat) s

end Sys2Proof.Machine
end

