-- ==== Sys2Proof/Machine/Commit.lean ====
section
/-! DEFINITION. Commits (R46 to R53, R127, R304, R574): requests, what a set that passes puts in force, the pack period. -/

namespace Sys2Proof.Machine

open Sys2Proof

/-! ### The CONFIG_CHANGE record (R405, R406) -/

/-- The STG words of BAR0 (R5, R63, R97, R425, R514). -/
def stgWords : List Nat :=
  [R.PERIOD_INT, R.PERIOD_FRAC, R.GUARD, R.BEATIO_CTRL, R.BEATIN_CTRL, R.J_CFG] ++ (List.range 16).map R.SP_TIMING
    ++ (List.range 64).map R.CL_GOV ++ (List.range 64).map R.CL_LIM

/-- A schedule entry's 16 octets (R377). -/
def schedOctets (e : SchedEnt) : List Octet :=
  le 2 e.flow.toNat ++ [e.port, e.kind] ++ le 4 e.start.toNat ++ le 4 e.length.toNat ++ [e.inp] ++ le 2 e.sub.toNat ++ [0]

/-- The items of the staged set: area, index, value. -/
def State.stagedItems (s : State) : List (Nat × Nat × List Octet) :=
  let ctx := s.stagedCtx.map (fun i => (1, i, ((s.stagedLongs i).map leLong).flatten))
  let subs := (s.str.stageSub.map (fun e => match e.2 with
    | some (k, l) => ((List.range l.length).zip l).map (fun x => (2, k + x.1, leLong x.2))
    | none => [])).flatten
  let red := s.red.stage.map (fun x => (3, x.src * 4 + x.slot, ((x.body.map (fun r => (r.cfg.map (fun e => leLong e.2)).flatten)).getD [])))
  let sched := s.fab.schedStage.filterMap (fun e => e.2.map (fun x => (4, e.1, (x.map schedOctets).getD [])))
  let groups := s.fab.groupStage.map (fun e => (5, e.1, match e.2 with
    | some (b, l) => le 1 (if b then 1 else 0) ++ (l.map (le 2)).flatten
    | none => []))
  let regs := (stgWords.filter (fun o => s.word o != s.forceWord o)).map (fun o => (6, o, le 4 (s.rdW o)))
  let plans := (spPorts.filter s.planInCommit).map (fun p =>
    (7, p, planBody (((s.port p).plan.map (·.id)).getD 0) s.pqNew (((s.port p).plan.bind (·.target)).getD planNext) (planOf p s.cfgsNew)))
  ctx ++ subs ++ red ++ sched ++ groups ++ regs ++ plans

/-- The record of a commit; who asked for it is open (log 1). -/
def State.configRec (s : State) (items : List (Nat × Nat × List Octet)) : State :=
  let o := (items.map (fun e => le 1 e.1 ++ le 1 0 ++ le 4 e.2.1 ++ le 2 e.2.2.length ++ e.2.2)).flatten
  (s.offerRec ⟨0x05, 0, s.beat.num, false, false,
    le 4 (s.readWord R.COMMIT_STAT).toNat ++ le 1 (s.freeVal % 3) ++ le 3 0 ++ le 48 (Config.sha384 o).toNat
      ++ le 4 items.length ++ o⟩).freeNext

/-! ### Reduction states (R302, R304, R574) -/

/-- Does the staged set restart state r, which x replaces? NEXT is part of a state's configuration (DEDUCED, log 35). -/
def State.restarts (s : State) (r x : RState) : Bool :=
  let c := s.cfg r.src
  let d := s.cfgNew r.src
  s.red.stage.any (fun y => y.src == r.src && y.slot == r.slot) || r.addr != x.addr || r.cfg != x.cfg
    || c.fmt != d.fmt || c.store != d.store || c.spb != d.spb
    || (r.kind != kMember && s.stagedLongs r.outCtx != s.cfgLongs r.outCtx)

/-- Does the commit disable the OUT_CTX of r or change its ring, so that no final record is written (R304)? -/
def State.outMoves (s : State) (r : RState) : Bool :=
  let o := s.cfg r.outCtx
  let d := s.cfgNew r.outCtx
  !d.on || d.ctype != tyRed || d.owner != o.owner || d.base != o.base || d.depth != o.depth || d.slot != o.slot

/-- The open group of a state that a commit at edge n (none: an immediate one) restarts or removes closes; a SPEC state's closes are
written at once, under the configuration before the commit. -/
def State.cutState (s : State) (n : Option (BitVec 48)) (src slot : Nat) : State :=
  match s.rstate src slot with
  | none => s
  | some r =>
    let c := s.rowner r
    if r.a.isNone || !s.domOn (domCluster c) then s
    else
      let due := match n with
        | some m => r.closesAt m
        | none => false
      let e := match n with
        | some m => m - 1
        | none => s.beat.num
      let s1 := ((s.flushSpec c src slot).closeGroup r e (!due) (s.outMoves r)).flushSpec c src slot
      let wrote := r.kind != kMember && !s.outMoves r && (match s1.rstate src slot with
        | some x => !x.failed
        | none => false)
      if wrote then s1.setEng c { s1.eng c with cut := true } else s1

/-- Close what the commit restarts or removes, under the configuration before it; RFLOW then counts its residue (R315). -/
def State.redCut (s : State) (n : Option (BitVec 48)) (all : List RState) : State :=
  let isOf (r x : RState) : Bool := x.src == r.src && x.slot == r.slot
  let gone := s.red.states.filter (fun r => !all.any (isOf r))
  let again := s.red.states.filter (fun r => all.any (fun x => isOf r x && s.restarts r x))
  let cs := ((gone ++ again).map s.rowner).eraseDups
  let s1 := cs.foldl (fun t c => if t.domOn (domCluster c) then State.drainIntake c (n.getD (s.beat.num + 1)) (t.eng c).intake.length t else t) s
  let s2 := (gone ++ again).foldl (fun t r => t.cutState n r.src r.slot) s1
  let s3 := again.foldl (fun t r => match t.rstate r.src r.slot with
    | some y => if y.kind = kRflow ∧ y.a.isSome ∧ !y.failed ∧ !y.spoiled ∧ t.domOn (domCluster (t.rowner y)) ∧ t.bodyOk y then t.closeResidue y else t
    | none => t) s2
  if n.isSome then s3
  else cs.foldl (fun t c => if (t.eng c).cut then (t.setEng c { t.eng c with cut := false }).cicEdge c 64 else t) s3

/-- The run longs that a start clears. -/
def RState.runLongs (r : RState) : List Nat :=
  let upTo (a n : Nat) : List Nat := (List.range n).map (a + ·)
  if r.kind = kStats then upTo 8 9
  else if r.kind = kRflow then upTo 13 69
  else if r.kind = kPkvl then upTo 5 4
  else if r.kind = kSpec then upTo 16 19
  else if r.kind = kSrs then [5, 6] ++ ((List.range (bitsOf (r.cl 4) 33 7 + 1)).map (fun i => upTo (13 + 11 * i) 6)).flatten
  else if r.kind = kDecim then [7, 8]
  else []

/-- A state starts: its configuration is written, its run longs are cleared, it is in RUN. -/
def State.writeState (s : State) (r : RState) (coefs : List (Nat × Long)) : State :=
  let hist := if r.kind = kDecim then [r.histAt] else []
  let coef := if coefs.isEmpty then [] else [r.coefAt]
  if let some e := (r.bodyAt :: (hist ++ coef)).find? (fun e => !s.there e) then s.failState r e
  else
    let s1 := (r.cfg.filter (fun e => e.1 < 0x1000)).foldl (fun t e => t.wl r e.1 e.2) s
    let s2 := r.runLongs.foldl (fun t l => t.wl r l 0) s1
    let s3 := if r.kind = kDecim then (List.range r.decT).foldl (fun t i => t.setLong ((r.cl 6).toNat + 2 * i) 0) s2 else s2
    let s4 := coefs.foldl (fun t e => t.setLong ((r.cl 5).toNat + 2 * e.1) e.2) s3
    (s4.wl r 2 (BitVec.ofNat 40 (rsRun * 2 ^ 38))).wl r 3 0

/-- A state as it starts at edge n, or at the next edge; taps wait with a state that waits. -/
def RState.started (r : RState) (n : Option (BitVec 48)) (waits : Bool) (coefs : List (Nat × Long)) : RState :=
  { src := r.src, slot := r.slot, kind := r.kind, addr := r.addr, cfg := r.cfg, a := if waits then none else n
    opened := if waits then none else n, waits := waits, coefs := if waits then coefs else [] }

/-- The taps staged for a slot (R335). -/
def coefsOf (stage : List RStage) (src slot : Nat) : List (Nat × Long) :=
  ((stage.find? (fun y => y.src = src ∧ y.slot = slot)).map (·.coefs)).getD []

/-- The states of the new set: those that go on, and those that start; a cluster that is not on starts its states at the
first edge after it has come on (R337). -/
def State.redStart (s : State) (n : Option (BitVec 48)) (new : List (RState × Bool)) (stage : List RStage) : State :=
  let s1 := s.onRed (fun z => { z with stage := [], extra := 0, states := new.map (fun e =>
    if e.2 then e.1.started n (!s.domOn (domCluster (s.rowner e.1))) (coefsOf stage e.1.src e.1.slot)
    else (s.rstate e.1.src e.1.slot).getD e.1) })
  new.foldl (fun t e =>
    if e.2 && t.domOn (domCluster (t.rowner e.1)) then
      (match t.rstate e.1.src e.1.slot with
        | some r => t.writeState r (coefsOf stage r.src r.slot)
        | none => t)
    else t) s1

/-- At edge n: states that wait for an edge take it as their start, and states of a cluster that has come on restart, RFLOW counting
a residue that its memory still holds (R304, R337). -/
def State.redBegin (s : State) (n : BitVec 48) : State :=
  s.red.states.foldl (fun t r =>
    if r.a.isSome then t
    else if !r.waits then t.setRState { r with a := some n, opened := some n }
    else if t.domOn (domCluster (t.rowner r)) then
      let u := if r.again ∧ r.kind = kRflow ∧ t.bodyOk r then t.closeResidue r else t
      let x := r.started (some n) false []
      (u.setRState x).writeState x r.coefs
    else t) s

/-! ### A set that passes -/

/-- The words of BAR0 and the beat period take effect (R27, R48). -/
def State.applyWords (s : State) (n : Option (BitVec 48)) : State :=
  let gov := (List.range 64).filter (fun c => s.word (R.CL_GOV c) != s.forceWord (R.CL_GOV c) || s.word (R.CL_LIM c) != s.forceWord (R.CL_LIM c))
  let s1 := stgWords.foldl (fun t o => t.setForce o (t.word o)) s
  let s2 := (s1.setWord R.PERIOD_ACT_INT (s1.word R.PERIOD_INT)).setWord R.PERIOD_ACT_FRAC (s1.word R.PERIOD_FRAC)
  gov.foldl (fun t c => t.govClear c n) s2

/-- A staged context takes effect; with a ring that changes, its slot headers read 0 (R112), also where the owning cluster is not
on and returns later. A REM context is in force anew (R109) where what it takes, or where it puts it, changes. -/
def State.applyCtx (s : State) (i since : Nat) (l : List Long) : State :=
  let keep := bitsOf (s.ctxL i 7) 0 20
  let c := s.cfg i
  let d := decodeCtx l
  let s1 := ((List.range 10).zip l).foldl (fun t e => t.setCtxL i e.1 (if e.1 = 7 then withBits e.2 0 20 keep else e.2)) s
  let ring := c.ctype != d.ctype || c.spb != d.spb || c.store != d.store || c.base != d.base || c.depth != d.depth
  let s2 := if ring && d.on then
      (List.range d.depth).foldl (fun t k => (t.setLong (clusterBase d.owner + d.base + k * d.slot) 0).spoil (clusterBase d.owner + d.base + k * d.slot) 2) s1
    else s1
  let other := ring || !c.on || c.owner != d.owner || c.fmt != d.fmt || c.lat != d.lat || c.srcNode != d.srcNode || c.srcCtx != d.srcCtx
  let s3 := if other then (s2.setRemBlocks i []).onStr (fun z => { z with
      since := mset (fun _ => 0) z.since i since
      vl0Fed := z.vl0Fed.filter (· ≠ i) }) else s2
  if c.ctype = d.ctype ∧ c.on then s3
  else s3.onStr (fun z => { z with holdEnd := z.holdEnd.filter (· ≠ i), ramped := z.ramped.filter (· ≠ i) })

/-- The staged subscriber lists and beat-ready queues take effect. -/
def State.applySubs (s : State) : State :=
  let s1 := s.str.stageSub.foldl (fun t e => match e.2 with
    | some (k, l) => t.onStr (fun z => { z with subs := ((List.range l.length).zip l).foldl (fun m x => mset (fun _ => 0) m (k + x.1) x.2) z.subs })
    | none => t) s
  s1.onStr (fun z => { z with brq := z.brqStage.foldl (fun m e => mset (fun k => 0xFFC0 + k) m e.1 e.2) z.brq })

/-- The staged schedule and groups take effect (R377, R380); frames held for an entry that goes are dropped. -/
def State.applySched (s : State) : State :=
  if s.fab.schedStage.isEmpty ∧ s.fab.groupStage.isEmpty then s
  else
    let had := s.schedIn.map (·.2.port.toNat)
    let changed := s.fab.schedStage.filterMap (fun e => e.2.bind (fun x => if x = mget (fun _ => none) s.fab.sched e.1 then none else some e.1))
    let lost := s.fab.held.filter (fun h => changed.contains h.entry)
    let s1 := s.onFab (fun z => { z with
      sched := overlay (fun _ => none) z.sched z.schedStage
      groups := s.groupsNew
      schedStage := []
      groupStage := []
      pend := z.pend.filter (fun e => !changed.contains e.1)
      held := z.held.filter (fun h => !changed.contains h.entry) })
    let now := s1.schedIn
    let last := (had.eraseDups).filter (fun p => !now.any (fun e => e.2.port.toNat = p))
    let s2 := s1.onFab (fun z => { z with finalTok := z.finalTok.filter (fun p => last.contains p) ++ last.filter (fun p => !z.finalTok.contains p) })
    let s3 := lost.foldl (fun t _ => t.countDrop R.VL0_NOSCHED_V R.PACK_EVT_VL0_LOSS) s2
    ((s3.incWrap R.SCHED_GEN_V).wb R.TR_STAT_SCHED (!now.isEmpty)).wr R.TR_STAT_N now.length

/-- R82: a port in HOLD by conflict that the new configuration agrees with becomes ACTIVE; its plan is the commit's, or
the one of R575. -/
def State.holdLift (s : State) (p : Nat) : State :=
  if s.spState p = spHold ∧ s.rd (R.SP_STAT_HOLD_WHY p) = 2 ∧ !s.portConflict p then
    let s1 := s.becomeActive p
    let s2 := if ((s1.port p).plan.map (·.byCommit)).getD false then s1 else s1.arrivalPlan p
    if s2.autobinds p then s2.arrive p else s2
  else s

/-- The staged set takes effect (R48, R112, R127, R302, R304), at edge n, or at once with what counts from an edge
counted from the next (R574). -/
def State.applySet (s : State) (n : Option (BitVec 48)) : State :=
  let all := s.statesNew
  let new := all.map (fun x => (x, match s.rstate x.src x.slot with
    | some r => s.restarts r x
    | none => true))
  let ctxs := s.stagedCtx.map (fun i => (i, s.stagedLongs i))
  let stage := s.red.stage
  let since := s.str.edgeCnt + (if n.isSome then 0 else 1)
  let s1 := ctxs.foldl (fun t e => t.flushGather e.1) (s.redCut n all)
  let s2 := s1.applyWords n
  let s3 := (ctxs.filter (fun e => s.cfgLongs e.1 ≠ e.2)).foldl (fun t e => t.applyCtx e.1 since e.2) s2
  let s4 := (s3.applySubs).onStr (fun z => { z with stage := [], stageSub := [], brqStage := [] })
  let s5 := s4.onRed (fun z => { z with q := z.qStage.foldl (fun m e => mset (fun k => 0xFF40 + k) m e.1 e.2) z.q, qStage := [] })
  let s6 := (s5.redStart n new stage).applySched
  let s7 := (List.range 64).foldl (fun t c => t.voltKeep c) s6
  spPorts.foldl (fun t p => t.holdLift p) s7

/-! ### Requests (R46 to R51) -/

/-- A write is ignored while a commit is pending (R47). -/
def State.ignoredWrite (s : State) : State := (s.set1 R.COMMIT_STAT_IGNORED).set1 R.BEAT_INT_STAT_IGNORED

/-- The plans of a commit that does not take effect are void (R79); a port whose first plan it replaced gets that again
(R575). -/
def State.dropCommitPlans (s : State) : State :=
  spPorts.foldl (fun t p =>
    if ((t.port p).plan.map (·.byCommit)).getD false then
      let u := t.dropPlan p
      if u.spState p = spActive ∧ (u.port p).inForce.isNone then u.arrivalPlan p else u
    else t) s

/-- Does the request announce a pack period (R53)? -/
def State.announces (s : State) (c : CommitReq) : Bool := s.role == roleMaster && c.byAt && s.periodStaged

/-- R389: PERIOD_CANCEL for a target. -/
def State.cancelPeriod (s : State) (t : BitVec 48) : State := (s.set1 R.PACK_EVT_PERIOD).sendTo 2 0xFFFF (.ctrl (.cancel t))

/-- R86: a binding whose commit has ended: it goes on or completes, or fails with a code. -/
def State.bindOver (s : State) (code : Option Nat) : State :=
  spPorts.foldl (fun t p =>
    match (t.port p).bind, (t.port p).desc with
    | some b, some d =>
      if !b.committing then t
      else match code with
        | some k => (t.onPort p (fun x => { x with bind := none })).arrivalEvent p k
        | none =>
          if d.inCh + d.drvCh ≤ b.bound + b.batch then (t.onPort p (fun x => { x with bind := none })).arrivalEvent p 0
          else t.onPort p (fun x => { x with bind := some { b with bound := b.bound + b.batch, batch := 0, committing := false } })
    | _, _ => t) s

/-- The request ends. -/
def State.commitOver (s : State) : State := (s.onBeat (fun z => { z with commit := none })).wr R.COMMIT_STAT_PENDING 0 |>.wr R.COMMIT_STAT_CUTOFF 0

/-- A commit fails with a code (R48, R51). -/
def State.commitFailed (s : State) (code : Nat) : State :=
  ((s.set1 R.COMMIT_STAT_ERR).set1 R.BEAT_INT_STAT_COMMIT_ERR).wr R.COMMIT_STAT_CODE code

/-- R48, R50: the checks, at edge n or at once, and what follows from them. -/
def State.commitRun (s : State) (n : Option (BitVec 48)) : State :=
  let codes := s.commitFails
  let items := s.stagedItems
  let s0 := s.wr R.COMMIT_STAT_BEAT (s.beat.num.toNat)
  if codes.isEmpty then
    let s1 := (s0.applySet n).commitOver
    let s2 := (((s1.set1 R.COMMIT_STAT_DONE).set1 R.BEAT_INT_STAT_COMMIT_DONE).configRec items).bindOver none
    if n.isNone then
      spPorts.foldl (fun t p => t.onPort p (fun x => { x with plan := x.plan.map (fun y => { y with byCommit := false }) })) s2
    else s2
  else (((s0.commitFailed (lowestCode codes)).commitOver.configRec items).dropCommitPlans).bindOver (some (lowestCode codes))

/-- R51: a request still pending as the beat stops, an immediate one that still waits for answers among them. -/
def State.commitStopped (s : State) : State :=
  match s.beat.commit with
  | none => s
  | some c =>
    let s1 := if s.announces c then s.cancelPeriod c.target else s
    ((((s1.wr R.COMMIT_STAT_BEAT s.beat.num.toNat).commitFailed 0x09).commitOver).dropCommitPlans).bindOver (some 0x09)

/-- The instant of an edge of the present grid by its number; numbers behind the next edge's lie in the past. -/
def State.edgeAt (s : State) (n : BitVec 48) : Int :=
  let e := s.edgeFrom s.time
  e.2 + (n - e.1).toInt * s.periodU

/-- R46, R49, R50: GO. -/
def State.commitGo (s : State) (at1 : Bool) : State :=
  if s.pendingCommit then s.ignoredWrite
  else
    let lead := s.time + 2000 * nsU
    let named := BitVec.ofNat 48 (s.rdW R.COMMIT_AT_HI % 65536 * 4294967296 + s.rdW R.COMMIT_AT_LO)
    let talks := spPorts.filter s.planChanges
    let plans (t : State) (target : Option (BitVec 48)) : State :=
      talks.foldl (fun u p => u.sendPlan p s.pqNew target (planOf p s.cfgsNew) true) t
    let start (c : CommitReq) : State := (s.onBeat (fun z => { z with commit := some c })).wr R.COMMIT_STAT_PENDING 1
    if !s.hasEdges then
      plans (start ⟨planNext, false, true, s.time + (if talks.isEmpty then 0 else 100000000 * nsU), false⟩) none
    else if at1 && decide (s.edgeAt named < lead) then (s.commitFailed 0x06).wr R.COMMIT_STAT_BEAT s.beat.num.toNat
    else
      let target := if at1 then named else (s.edgeFrom lead).1
      let c : CommitReq := ⟨target, at1 && decide (64 ≤ (target - s.beat.num).toNat), false, 0, false⟩
      let s1 := plans (start c) (some target)
      if s.announces c then s1.sendTo 2 0xFFFF (.ctrl (.period (s.word R.PERIOD_INT) (s.word R.PERIOD_FRAC) target)) else s1

/-- R47: CANCEL; true where it is ignored. -/
def State.commitCancel (s : State) : State × Bool :=
  match s.beat.commit with
  | none => (s, false)
  | some c =>
    if s.cutoff then (s.ignoredWrite, true)
    else
      let s1 := if s.announces c then s.cancelPeriod c.target else s
      ((s1.commitOver.dropCommitPlans).bindOver (some 0xFF), false)

/-- A write of COMMIT: CANCEL, then GO (R47). -/
def State.commitWrite (s : State) (v : Reg32) : State :=
  let x := if v.getLsbD 2 then s.commitCancel else (s, false)
  if v.getLsbD 0 && !x.2 then x.1.commitGo (v.getLsbD 1) else x.1

/-- R47: clock time reaches the cutoff, 2,000 ns before the target, once every edge before it has acted; CUTOFF sets. -/
def State.reachCutoff (s : State) : State :=
  match s.beat.commit with
  | none => s
  | some c =>
    let next := (s.edgeFrom s.beat.lastEdge)
    let cut := s.edgeAt c.target - 2000 * nsU
    if c.immediate || !s.hasEdges || (decide (next.2 ≤ cut) && next.1 != c.target) then s
    else { s with time := max s.time cut }.set1 R.COMMIT_STAT_CUTOFF

/-- R50: may the checks of an immediate commit run? -/
def State.immediateDue (s : State) : Bool :=
  match s.beat.commit with
  | some c => c.immediate && (decide (c.deadline ≤ s.time) || spPorts.all (fun p =>
      match (s.port p).plan with
      | some x => !x.byCommit || x.answer.isSome
      | none => true))
  | none => false

/-! ### The pack period (R53, R389) -/

/-- What a member's configuration in force fails with another period. -/
def State.periodConflicts (s : State) (pint pfrac : Reg32) : List Nat :=
  let t0 := stgWords.foldl (fun t o => t.setWord o (t.forceWord o)) s
  let t1 := ((t0.setWord R.PERIOD_INT pint).setWord R.PERIOD_FRAC pfrac)
  let t := { t1 with
    str := { s.str with stage := [], stageSub := [], brqStage := [] }
    red := { s.red with stage := [], qStage := [], extra := 0 }
    fab := { s.fab with schedStage := [], groupStage := [] } }
  (t.beatChecks.filter (fun c => c ≠ 0x02)) ++ t.streamChecks ++ t.fabChecks ++ t.redChecks ++ t.pwrChecks ++ t.jrnlChecks
    ++ ((spPorts.filter (fun p => t.bit (R.SP_CTRL_EN p))).map (fun p => t.portChecks p t.cfgsIn t.pqNew (t.rdF (R.SP_TIMING_DL p)))).flatten

/-- PERIOD: a member checks the period, and its modules get a plan that changes only the period (R81). -/
def State.periodIn (s : State) (pint pfrac : Reg32) (target : BitVec 48) : State :=
  if s.role ≠ roleMember then s
  else
    let s1 := s.onFab (fun z => { z with period := some ⟨pint.toNat, pfrac.toNat, target, false, false⟩ })
    let codes := s1.periodConflicts pint pfrac
    if codes.isEmpty then
      (spPorts.filter s1.spTalks).foldl (fun t p => t.sendPlan p (pint.toNat * 4294967296 + pfrac.toNat) (some target) (planOf p s.cfgsIn) true) s1
    else s1.periodRefuse (lowestCode codes)

/-- Before edge n: a member whose modules have not all answered 16 beats before the target refuses; the master that holds
a refusal cancels 8 beats before it. -/
def State.periodWatch (s : State) (n : BitVec 48) : State :=
  let s1 := match s.fab.period with
    | some c =>
      if c.target = n + 16 ∧ spPorts.any (fun p => match (s.port p).plan with
          | some x => x.byCommit && x.answer.isNone && x.target == some c.target
          | none => false) then s.periodRefuse 0x47 else s
    | none => s
  match s1.beat.commit with
  | some c => if c.target = n + 8 ∧ c.refused ∧ s1.announces c then s1.cancelPeriod c.target else s1
  | none => s1

/-- A member applies the period at its target, where it is neither refused nor cancelled. -/
def State.periodEdge (s : State) (n : BitVec 48) : State :=
  match s.fab.period with
  | some c =>
    if c.target ≠ n then s
    else
      let s1 := s.onFab (fun z => { z with period := none })
      if c.refused ∨ c.cancelled then s1.dropCommitPlans else s1.takePeriod c.pint c.pfrac
  | none => s

/-- PERIOD_REFUSE at the master. -/
def State.periodRefused (s : State) (target : BitVec 48) : State :=
  match s.beat.commit with
  | some c =>
    if s.role = roleMaster ∧ c.target = target then
      (s.onBeat (fun z => { z with commit := some { c with refused := true } })).set1 R.PACK_EVT_PERIOD
    else s
  | none => s

/-- PERIOD_CANCEL at a member. -/
def State.periodCancelled (s : State) (target : BitVec 48) : State :=
  match s.fab.period with
  | some c => if c.target = target then (s.onFab (fun z => { z with period := some { c with cancelled := true } })).set1 R.PACK_EVT_PERIOD else s
  | none => s

/-- A staging command: its parameters hold, no commit is pending (R129). -/
def State.staging (s : State) (ok : Bool) (act : Reply) : Reply :=
  if !ok then .now stBadParam [] s else if s.pendingCommit then .now stBusy [] s else act

/-! ### The rows -/

/-- COMMIT_GO (R46): the word written has GO = 1. -/
def execCommitGo (v : Reg32) (s : State) : Host.Outcome State Fault Refusal := doneIf (v.getLsbD 0) (s.commitWrite v)

/-- COMMIT_CANCEL (R47): the word written has CANCEL = 1. -/
def execCommitCancel (v : Reg32) (s : State) : Host.Outcome State Fault Refusal := doneIf (v.getLsbD 2) (s.commitWrite v)

/-- COMMIT_CUTOFF (R47). -/
def execCommitCutoff (s : State) : Host.Outcome State Fault Refusal := done s.reachCutoff

/-- IMMEDIATE_COMMIT (R50). -/
def execImmediateCommit (s : State) : Host.Outcome State Fault Refusal := doneP (if s.immediateDue then (s.commitRun none).packSettle else s)

/-- PERIOD (R389). -/
def execPeriod (pint pfrac : Reg32) (target : BitVec 48) (s : State) : Host.Outcome State Fault Refusal := done (s.periodIn pint pfrac target)

/-- PERIOD_REFUSE (R389). -/
def execPeriodRefuse (_code : Octet) (target : BitVec 48) (s : State) : Host.Outcome State Fault Refusal := done (s.periodRefused target)

/-- PERIOD_CANCEL (R389). -/
def execPeriodCancel (target : BitVec 48) (s : State) : Host.Outcome State Fault Refusal := done (s.periodCancelled target)

end Sys2Proof.Machine
end

