-- ==== Sys2Proof/Machine/Traffic.lean ====
section
/-! DEFINITION. The pack's traffic (12): VL1 to VL3 in and out, VL0 windows, tokens, fault reports, the Bertia 0x04xx
commands. -/

namespace Sys2Proof.Machine

open Sys2Proof

/-! ### Delivery (R374, R384, R386 to R388) -/

/-- R386: may a queue message be sent under its long 0? -/
def qmsgOk (l0 : Long) : Bool :=
  let dq := bitsOf l0 6 16
  bitsOf l0 38 2 != 0 && (decide (dq ≤ 0xFEFF) || decide (0xFF00 ≤ dq ∧ dq ≤ 0xFF3F))

/-- A queue message reaches its queue; refused, it is lost. -/
def State.qmsgIn (s : State) (src vl dq : Nat) (l : List Long) : State :=
  let m : Msg := { longs := BitVec.ofNat 40 (5 * 2 ^ 36 + src * 2 ^ 20 + vl * 2 ^ 18) :: l }
  if !s.domOn domQueue then s.countDrop R.QMSG_DROP_V R.PACK_EVT_QMSG_DROP
  else if s.accepts dq then s.enqueue dq m
  else (s.enqueue dq m).countDrop R.QMSG_DROP_V R.PACK_EVT_QMSG_DROP

/-- R388: a pack whistle arms a snapshot, or is late. -/
def State.whistleIn (s : State) (tag : BitVec 16) (target : BitVec 48) : State :=
  if s.aligned && s.bit R.TR_CTRL_WHISTLE_EN && s.hasEdges && decide (s.time + 2000 * nsU ≤ s.edgeAt target) && decide (s.wh.armed.length < 16) then
    s.onWh (fun z => { z with armed := z.armed ++ [(target, tag)] })
  else s.countDrop R.WHISTLE_LATE_V R.PACK_EVT_WHISTLE_LATE

/-- A control message (R387). -/
def State.ctrlIn (s : State) : Ctrl → State
  | .whistle tag target => s.whistleIn tag target
  | .period a b target => s.periodIn a b target
  | .refuse _ target => s.periodRefused target
  | .cancel target => s.periodCancelled target
  | .other _ => s

/-- A frame delivered here. -/
def State.deliverFrame (s : State) (f : Frame) : State :=
  match f.load with
  | .stream dctx fmt store spb offs srcCtx elems =>
    s.streamFrame f.src.toNat dctx.toNat srcCtx.toNat fmt.toNat store.toNat spb.toNat offs.toNat f.beat elems (f.vl == 0)
  | .ctrl m => s.ctrlIn m
  | .fault r => s.takeReport { r with dst := f.dst }
  | .qmsg dq l => s.qmsgIn f.src.toNat f.vl.toNat dq.toNat l
  | .token => s
  | .reserved => s

/-- R368: do FTYPE and VL agree? -/
def ftypeOk (f : Frame) : Bool :=
  match f.load with
  | .stream _ _ _ _ _ _ _ => f.vl == 0 || f.vl == 1
  | .ctrl _ => f.vl == 2 || f.vl == 3
  | .fault _ => f.vl == 3
  | .qmsg _ _ => f.vl != 0
  | .token => f.vl == 0 && f.len == 0
  | .reserved => false

/-- The octets of a message of chapter 11: a VL2 frame to the neighbour with a code from 0x0101 to 0x01FF (R343). -/
def msgOf (f : Frame) : Option (List Octet) :=
  match f.load with
  | .ctrl (.other o) => if f.vl = 2 ∧ f.dst = 0 ∧ 0x0101 ≤ octNum o 0 2 ∧ octNum o 0 2 ≤ 0x01FF then some o else none
  | _ => none

/-- R374, for a frame that is no message of chapter 11; a port in SYNC carries none (R343). -/
def State.handleLoad (s : State) (p : Nat) (f : Frame) : State :=
  match f.load with
  | .fault r => s.takeReport { r with dst := f.dst }
  | _ =>
    if f.dst = 0 then s.deliverFrame f
    else if s.ownAddr ≠ 0 ∧ f.dst.toNat = s.ownAddr then s.deliverFrame f
    else if f.dst = 0xFFFF then
      let s1 := s.deliverFrame f
      s1.broadcast f (some p)
    else if 0xF000 ≤ f.dst.toNat then s.countDrop R.DROP_NOROUTE_V R.PACK_EVT_NOROUTE
    else s.routeFrame f

/-- An accepted VL1 to VL3 frame (R343, R374). -/
def State.handleFrame (s : State) (p : Nat) (f : Frame) : State :=
  match msgOf f with
  | some o => s.chapterMsg p o
  | none => if s.fpUp p then s.handleLoad p f else s

/-- A LACK of a VL (R371). -/
def State.sendLack (s : State) (p vl : Nat) (nak : Bool) : State :=
  let l := s.linkOf p vl
  s.emit (.fabric p (.block (lackWord vl nak (l.expect - 1) l.freed)))

/-- R372: a frame that cannot be taken: the receiver asks for the expected one again. -/
def State.nakFrame (s : State) (p vl : Nat) : State :=
  if (s.linkOf p vl).nak then s else (s.setLink p vl { s.linkOf p vl with nak := true }).sendLack p vl true

/-- The line under a frame: codewords corrected and uncorrectable, unknown control blocks (R339, R341, R362, R523). -/
def State.fabLine (s : State) (p : Nat) (x : FabLine) : State :=
  let s1 := (s.satAdd (R.FP_FEC_CORR_V p) x.fecCorr.toNat).satAdd (R.FP_CRC_ERR_V p) x.unknown.toNat
  if x.fecUnc = 0 then s1 else ((s1.satAdd (R.FP_FEC_UNC_V p) x.fecUnc.toNat).set1 (R.FP_EVT_FEC_UNC p)).whFault 7

/-- The frame that words spell at port p, under its key or the one before (R361, R365). -/
def State.frameAt (s : State) (p : Nat) (ws : List Word64) : Frame :=
  let x := s.fport p
  let f := parseFrame x.rx ws
  if f.tagOk then f else parseFrame x.rxOld ws

/-- Does a frame fail its tag? One without encryption on a port that encrypts does, and the reverse; a TOKEN has no payload (R361,
R368; log 12). -/
def State.tagFails (s : State) (p : Nat) (f : Frame) : Bool :=
  f.load != .token && (!f.tagOk || f.enc != s.bit (R.FP_STAT_ENC p))

/-- What a port outside SYNC and UP takes of a frame: a HELLO (R343). -/
def State.helloFrame (s : State) (p : Nat) (f : Frame) : State :=
  match msgOf f with
  | some o => if f.crcOk && octNum o 0 2 == 0x0101 then s.hello p (parseHello o) else s
  | none => s

/-- A HELLO that the peer sent before it entered SYNC (log 12). -/
def State.earlyHello (s : State) (p : Nat) (f : Frame) : Bool :=
  s.fpState p == fpSync && f.crcOk && (s.linkOf p 2).expect == 0 && (((msgOf f).map (fun o => octNum o 0 2 == 0x0101)).getD false)

/-- VL_FRAME_RX: a VL1 to VL3 frame arrives. -/
def State.vlFrame (s : State) (p : Nat) (f : Frame) : State :=
  let vl := f.vl.toNat
  if vl = 0 then s
  else if !s.fpLive p ∨ s.earlyHello p f then s.helloFrame p f
  else if !f.crcOk then (s.inc (R.FP_CRC_ERR_V p)).nakFrame p vl
  else if f.seq ≠ (s.linkOf p vl).expect then s.nakFrame p vl
  else if s.tagFails p f then (s.inc (R.FP_GCM_FAIL_V p)).nakFrame p vl
  else
    let l := s.linkOf p vl
    let s1 := (s.setLink p vl { l with expect := l.expect + 1, nak := false
                                       freed := l.freed + BitVec.ofNat 16 (frameCredits f.len.toNat) }).inc (R.RX_BE_V p)
    if !ftypeOk f || !f.wOk || decide (2048 < f.len.toNat) then s1.countDrop R.FTYPE_ERR_V R.PACK_EVT_STRAY
    else s1.handleFrame p f

/-! ### Acknowledgements (R371, R372) -/

/-- The sender resends every frame not acknowledged, oldest first, as the port's windows let it; one resent 16 times takes the port
into TRAINING. -/
def State.resend (s : State) (p vl : Nat) : State :=
  let l := s.linkOf p vl
  if l.unacked.any (fun u => decide (16 ≤ u.tries)) then s.fpLeave p fpTraining
  else (s.setLink p vl { l with again := l.unacked.map (·.seq) }).flushAll p

/-- LACK. -/
def State.lack (s : State) (p vl : Nat) (nak : Bool) (ack crtot : BitVec 16) : State :=
  if vl = 0 ∨ !s.fpLive p then s
  else
    let l := s.linkOf p vl
    let kept (q : BitVec 16) : Bool := !(decide ((ack - q).toNat < 32768))
    let s1 := s.setLink p vl { l with unacked := l.unacked.filter (fun u => kept u.seq), again := l.again.filter kept, crtot := crtot }
    (if nak then s1.resend p vl else s1).flushAll p

/-- RETRY_TIMEOUT. -/
def State.retryTimeout (s : State) (p vl : Nat) : State :=
  if vl = 0 ∨ !s.fpLive p ∨ (s.linkOf p vl).unacked.isEmpty then s else s.resend p vl

/-! ### VL0 (R376 to R382) -/

/-- May this node send and forward VL0 (R381)? -/
def State.vl0Ok (s : State) : Bool := s.bit R.TR_CTRL_VL0_EN && s.aligned

/-- A schedule entry in force. -/
def State.entry (s : State) (e : Nat) : Option SchedEnt := mget (fun _ => none) s.fab.sched e


/-- Can a frame of n blocks finish in the open window of entry x on its port? -/
def State.fitsWindow (s : State) (x : SchedEnt) (n : Nat) : Bool :=
  let p := x.port.toNat
  let open_ := s.beat.lastEdge + (x.start.toNat : Int) * nsU
  let from_ := max s.time (open_ + s.blocksU p (s.fport p).winBlocks)
  decide (from_ + s.blocksU p n ≤ open_ + (x.length.toNat : Int) * nsU)

/-- A VL0 frame leaves on port p. -/
def State.startVl0 (s : State) (p : Nat) (f0 : Frame) : State :=
  let f := s.dress p f0
  let n := frameW f.len.toNat + 1
  let s1 := s.onFp p (fun x => { x with vl0Blocks := x.vl0Blocks + n, winBlocks := x.winBlocks + n })
  let o := s1.frameOut p f
  let s2 := (o.2.emit (.fabric p (.frame o.1))).inc (R.TX_VL0_V p)
  if f.crcOk then s2 else (s2.inc (R.VL0_STOMP_V p)).set1 R.PACK_EVT_VL0_LOSS

/-- Blocks of a frame on port p. -/
def State.blocksOn (s : State) (p : Nat) (f : Frame) : Nat := frameW (s.dress p f).len.toNat + 1

/-- A frame meets FORWARD entry e: cut through in its open window, or held; a bad CRC is known only behind a cut-through. -/
def State.forwardVl0 (s : State) (e : Nat) (x : SchedEnt) (f : Frame) : State :=
  let p := x.port.toNat
  if (s.fport p).window = e + 1 ∧ s.fpUp p ∧ s.fitsWindow x (s.blocksOn p f) then s.startVl0 p f
  else if f.crcOk then s.onFab (fun z => { z with held := z.held ++ [⟨e, f, s.time⟩] })
  else s

/-- Is a VL0 frame delivered here (R376)? -/
def State.vl0Here (s : State) (f : Frame) : Bool :=
  (s.ownAddr != 0 && f.dst.toNat == s.ownAddr) || (match lookup s.fab.groups f.dst.toNat with
    | some (some (b, _)) => b
    | _ => false)

/-- TOKEN: the port expects one in every beat, until one with LAST. -/
def State.tokenIn (s : State) (p : Nat) (last : Bool) : State :=
  if s.fpUp p then s.onFp p (fun x => { x with expectTok := !last, gotTok := true }) else s

/-- VL0_FRAME_RX. -/
def State.vl0Frame (s : State) (p : Nat) (f : Frame) : State :=
  if f.vl ≠ 0 ∨ !s.fpUp p then s
  else
    let s0 := (s.inc (R.RX_VL0_V p))
    let s1 := if f.crcOk then s0 else s0.inc (R.FP_CRC_ERR_V p)
    if s.tagFails p f then s1.inc (R.FP_GCM_FAIL_V p)
    else if f.crcOk && (!ftypeOk f || !f.wOk || decide (2048 < f.len.toNat)) then s1.countDrop R.FTYPE_ERR_V R.PACK_EVT_STRAY
    else if f.load = .token then (if f.crcOk then s1.tokenIn p f.last else s1)
    else if !s.vl0Ok then s1.countDrop R.VL0_NOSCHED_V R.PACK_EVT_VL0_LOSS
    else
      let es := s.schedIn.filter (fun e => e.2.kind = 2 ∧ e.2.flow = f.seq ∧ e.2.inp.toNat = p)
      let here := s.vl0Here f
      let s2 := es.foldl (fun t e => t.forwardVl0 e.1 e.2 f) s1
      if here && f.crcOk then s2.deliverFrame f
      else if es.isEmpty && !here then s2.countDrop R.VL0_NOSCHED_V R.PACK_EVT_VL0_LOSS
      else s2

/-- The frames of a pending block of SEND entry x (R378). -/
def State.sendFrames (s : State) (x : SchedEnt) (b : SendBlk) : List Frame :=
  let c := s.cfg b.src
  let e := s.subEntry x.sub.toNat
  (fragments (fragLen c.store) (b.elems.length + 1) 0 b.elems).map (fun f =>
    { s.newFrame 0 (subNode e) (streamLoad b.src (subCtx e) c f.1 f.2.1) with beat := b.beat, last := f.2.2, seq := x.flow })

/-- Held frames of entry e that fit leave in order. -/
def State.sendHeld (e : Nat) (x : SchedEnt) : Nat → State → State
  | 0, s => s
  | n + 1, s =>
    match s.fab.held.find? (fun h => h.entry = e) with
    | none => s
    | some h =>
      if s.fitsWindow x (s.blocksOn x.port.toNat h.frame) then
        State.sendHeld e x n ((s.onFab (fun z => { z with held := z.held.erase h })).startVl0 x.port.toNat h.frame)
      else s

/-- VL0_WINDOW_OPEN. -/
def State.windowOpen (s : State) (e : Nat) : State :=
  match s.entry e with
  | none => s
  | some x =>
    let p := x.port.toNat
    if !s.hasEdges || s.beat.first.isSome then s
    else if !s.vl0Ok then s.dropHeld (fun k => k == e)
    else if !s.fpUp p then s
    else
      let s1 := { s with time := max s.time (s.beat.lastEdge + (x.start.toNat : Int) * nsU) }.onFp p (fun y => { y with window := e + 1, winBlocks := 0 })
      if x.kind = 1 then
        (match mget (fun _ => none) s.fab.pend e with
          | none => s1
          | some b =>
            let fs := s1.sendFrames x b
            if s1.fitsWindow x ((fs.map (s1.blocksOn p)).foldl (· + ·) 0) then
              fs.foldl (fun t f => t.startVl0 p f) (s1.onFab (fun z => { z with pend := mset (fun _ => none) z.pend e none }))
            else s1)
      else State.sendHeld e x s1.fab.held.length s1

/-- A TOKEN frame leaves on port p (R380). -/
def State.sendToken (s : State) (p : Nat) (last : Bool) : State :=
  if s.vl0Ok ∧ s.fpUp p then s.startVl0 p { s.newFrame 0 0 .token with last := last } else s

/-- VL0_WINDOW_CLOSE: behind the port's last window of the beat the token leaves; VL1 to VL3 go on. -/
def State.windowClose (s : State) (e : Nat) : State :=
  match s.entry e with
  | none => s
  | some x =>
    let p := x.port.toNat
    if (s.fport p).window ≠ e + 1 then s.flushAll p
    else
      let fin := s.beat.lastEdge + ((x.start.toNat + x.length.toNat : Nat) : Int) * nsU
      let s1 := { s with time := max s.time fin }.onFp p (fun y => { y with window := 0 })
      let last := s.schedIn.all (fun k => decide (k.2.port.toNat ≠ p ∨ k.2.start.toNat ≤ x.start.toNat))
      let s2 := if last then s1.sendToken p false else s1
      s2.flushAll p

/-- VL0_LATE: the oldest frame held for entry e was not sent within a beat period. -/
def State.vl0Late (s : State) (e : Nat) : State :=
  match s.fab.held.find? (fun h => h.entry = e) with
  | none => s
  | some h => (s.onFab (fun z => { z with held := z.held.erase h })).countDrop R.VL0_LATE_V R.PACK_EVT_VL0_LOSS

/-- TOKEN_MISS: the beat's token has not come. -/
def State.tokenMiss (s : State) (p : Nat) : State :=
  let x := s.fport p
  if x.expectTok && !x.gotTok && s.fpUp p then
    ((s.onFp p (fun y => { y with gotTok := true })).countDrop R.TOKEN_MISS_V R.PACK_EVT_TOKEN_MISS).witness 4 ((x.peer.map (·.addr.toNat)).getD 0)
  else s

/-- As a beat ends, the tokens it missed. -/
def State.tokensEnd (s : State) : State := fabPorts.foldl (fun t p => t.tokenMiss p) s

/-- At an edge: VL0_BUSY of the beat that ended, a new beat's tokens, the final token of a port without windows. -/
def State.fabEdge (s : State) : State :=
  let s1 := (fabPorts.filter (fun p => s.domOn (domFabric p))).foldl (fun t p =>
    ((t.wr (R.VL0_BUSY_VL0 p) ((t.blocksU p (t.fport p).vl0Blocks) / nsU).toNat).toggle (R.VL0_BUSY_TOG p)).onFp p (fun x =>
      { x with vl0Blocks := 0, gotTok := false, window := 0 })) s
  s1.fab.finalTok.foldl (fun t p => t.sendToken p true) (s1.onFab (fun z => { z with finalTok := [] }))

/-! ### Queue messages out (R386) -/

/-- A queue message toward its destination: here, to one node, or to each member of a group. -/
def State.qmsgOut (s : State) (l : List Long) : State :=
  let l0 := l.headD 0
  let vl := bitsOf l0 38 2
  let dst := bitsOf l0 22 16
  let dq := bitsOf l0 6 16
  let one (t : State) (d : Nat) : State :=
    if t.ownAddr ≠ 0 ∧ d = t.ownAddr then t.qmsgIn d vl dq l.tail else t.originate (t.newFrame vl d (.qmsg (BitVec.ofNat 16 dq) l.tail))
  if 0xF000 ≤ dst ∧ dst ≤ 0xFFFE then (s.groupMembers dst).foldl one s
  else if dst = 0xFFFF then s.broadcast (s.newFrame vl dst (.qmsg (BitVec.ofNat 16 dq) l.tail)) none
  else one s dst

/-- The next bound queue with a message, from the one after the last served. -/
def State.nextTxq (s : State) : Option (Nat × Nat) :=
  let n := s.fab.txq.length
  ((List.range n).map (fun k => (s.fab.rr + k) % n)).findSome? (fun k =>
    match s.fab.txq[k]? with
    | some q => if (s.queue q).broken || (s.queue q).msgs.isEmpty then none else some (k, q)
    | none => none)

/-- QMSG_TX. -/
def State.qmsgTx (s : State) : State :=
  if !s.domOn domQueue then s
  else match s.nextTxq with
    | none => s
    | some (k, q) =>
      match s.takeMsg q with
      | (some m, s1) =>
        let s2 := s1.onFab (fun z => { z with rr := k + 1 })
        if qmsgOk (m.longs.headD 0) then s2.qmsgOut m.longs else s2.countDrop R.QMSG_DROP_V R.PACK_EVT_QMSG_DROP
      | (none, s1) => s1

/-! ### Fault reports (R391) -/

/-- FR_ENTRY_CLOSE: entry k closes, and its one report goes on. -/
def State.frClose (s : State) (k : Nat) : State :=
  match s.fab.open_[k]? with
  | none => s
  | some e => ((s.onFab (fun z => { z with open_ := z.open_.eraseIdx k })).frCount).sendReport e.rep

/-! ### Bertia 0x04xx (R395) -/

/-- PACK_STATUS. -/
def State.packStatus (s : State) : List Octet :=
  le 2 s.ownAddr ++ le 1 (s.rd R.PACK_STAT_ADDR_STATE) ++ le 1 s.role ++ le 1 (s.rd R.PACK_STAT_DEPTH) ++ le 1 0
    ++ le 2 (((rootOf s.segment).map (·.addr.toNat)).getD 0) ++ le 8 ((s.fab.master.map (·.toNat)).getD 0)
    ++ le 2 s.liveDb.length ++ le 2 0 ++ le 4 (s.rdW R.ROUTE_GEN)

/-- ROUTE_READ. -/
def State.routeRead (s : State) (first count : Nat) : Reply :=
  if count = 0 ∨ 4096 < first + count then .now stBadParam [] s
  else .now stOk ((List.range count).map (fun k => leLong (s.route (first + k)))).flatten s

/-- LSDB_READ. -/
def State.lsdbRead (s : State) (first count : Nat) : Reply :=
  if count = 0 ∨ 64 < count then .now stBadParam [] s
  else
    let l := (s.liveDb.drop first).take count
    .now stOk (le 2 l.length ++ le 2 0 ++ (l.map (fun r => le 2 (lsrOctets r).length ++ lsrOctets r)).flatten) s

/-- Stage changes of schedule entries. -/
def State.schedPut (s : State) (l : List (Nat × Option SchedEnt)) : State :=
  s.onFab (fun z => { z with schedStage := l.foldl (fun m e => mset (fun _ => none) m e.1 (some e.2)) z.schedStage })

/-- SCHED_STAGE. -/
def State.schedStageCmd (s : State) (first : Nat) (es : List SchedEnt) : Reply :=
  s.staging (decide (1 ≤ es.length ∧ es.length ≤ 256 ∧ first + es.length ≤ 4096))
    (.now stOk [] (s.schedPut ((List.range es.length).zip es |>.map (fun e => (first + e.1, some e.2)))))

/-- SCHED_DROP. -/
def State.schedDrop (s : State) (first count : Nat) : Reply :=
  s.staging (decide (1 ≤ count ∧ count ≤ 4096 ∧ first + count ≤ 4096))
    (.now stOk [] (s.schedPut ((List.range count).map (fun k => (first + k, none)))))

/-- SCHED_READ: an entry that is not there reads as zeros. -/
def State.schedRead (s : State) (first count which : Nat) : Reply :=
  if count = 0 ∨ 256 < count ∨ 4096 < first + count ∨ 1 < which then .now stBadParam [] s
  else
    let m := if which = 0 then s.fab.sched else overlay (fun _ => none) s.fab.sched s.fab.schedStage
    .now stOk ((List.range count).map (fun k => match mget (fun _ => none) m (first + k) with
      | some e => schedOctets e
      | none => List.replicate 16 0)).flatten s

/-- GROUP_STAGE. -/
def State.groupStageCmd (s : State) (g flags : Nat) (ms : List Nat) : Reply :=
  s.staging (decide (flags ≤ 1 ∧ ms.length ≤ 64))
    (let t := s.onFab (fun z => { z with groupStage := insertKey z.groupStage g (some (flags == 1, ms)) })
     if 256 < t.fab.groupStage.length then .now stNoSpace [] s else .now stOk [] t)

/-- ASYM_SAVE: the value acts at once and is kept as the BOOT item of R549. -/
def State.asymSave (s : State) (p v : Nat) : Reply :=
  if 8 ≤ p then .now stBadParam [] s else (s.wrW (R.FP_ASYM p) v).cfgPut (0x00010010 + p) 1 (le 4 v)

/-- FAB_TXQ. -/
def State.fabTxq (s : State) (q bind : Nat) : Reply :=
  if bind = 0 then .now stOk [] (s.onFab (fun z => { z with txq := z.txq.filter (· ≠ q) }))
  else if bind ≠ 1 then .now stBadParam [] s
  else if s.fab.txq.contains q then .now stOk [] s
  else if 64 ≤ s.fab.txq.length then .now stNoSpace [] s
  else .now stOk [] (s.onFab (fun z => { z with txq := z.txq ++ [q] }))

/-- FAB_SEND. -/
def State.fabSend (s : State) (l : List Long) : Reply :=
  if l.isEmpty ∨ 8 < l.length ∨ !qmsgOk (l.headD 0) ∨ bitsOf (l.headD 0) 0 6 ≠ 0 then .now stBadParam [] s
  else .now stOk [] (s.qmsgOut l)

/-! ### The rows -/

/-- A traffic row acts while the port's domain is on. -/
def fabDone (s : State) (p : BitVec 3) (f : Nat → State → State) : Host.Outcome State Fault Refusal := done (s.fabRow p f)

/-- A frame row: the line is counted, then the frame is taken apart and taken (R365). -/
def State.frameRow (s : State) (p : BitVec 3) (f : RxFrame) (g : Nat → Frame → State → State) : State :=
  s.peerRow p (fun p t =>
    if t.fpState p = fpOff then t
    else
      let t1 := t.fabLine p f.line
      g p (t1.frameAt p f.words) t1)

/-- VL_FRAME_RX (R365, R368, R372, R374). -/
def execVlFrameRx (p : BitVec 3) (f : RxFrame) (s : State) : Host.Outcome State Fault Refusal :=
  done (s.frameRow p f (fun p g t => t.vlFrame p g))

/-- VL0_FRAME_RX (R365, R379). -/
def execVl0FrameRx (p : BitVec 3) (f : RxFrame) (s : State) : Host.Outcome State Fault Refusal :=
  done (s.frameRow p f (fun p g t => t.vl0Frame p g))

/-- VL0_WINDOW_OPEN (R378, R379). -/
def execVl0WindowOpen (e : BitVec 12) (s : State) : Host.Outcome State Fault Refusal := done (s.windowOpen e.toNat)

/-- VL0_WINDOW_CLOSE (R380). -/
def execVl0WindowClose (e : BitVec 12) (s : State) : Host.Outcome State Fault Refusal := done (s.windowClose e.toNat)

/-- TOKEN (R380). -/
def execToken (p : BitVec 3) (_beat : BitVec 48) (last : Bool) (s : State) : Host.Outcome State Fault Refusal :=
  done (s.peerRow p (fun p t => if t.fpUp p then (t.inc (R.RX_VL0_V p)).tokenIn p last else t))

/-- TOKEN_MISS (R380). -/
def execTokenMiss (p : BitVec 3) (s : State) : Host.Outcome State Fault Refusal := fabDone s p (fun p t => t.tokenMiss p)

/-- VL0_LATE (R379). -/
def execVl0Late (e : BitVec 12) (s : State) : Host.Outcome State Fault Refusal := done (s.vl0Late e.toNat)

/-- LACK (R371). -/
def execLack (p : BitVec 3) (vl : BitVec 2) (nak : Bool) (ack crtot : BitVec 16) (s : State) : Host.Outcome State Fault Refusal :=
  done (s.peerRow p (fun p t => t.lack p vl.toNat nak ack crtot))

/-- LACK_SEND (R371). -/
def execLackSend (p : BitVec 3) (vl : BitVec 2) (s : State) : Host.Outcome State Fault Refusal :=
  fabDone s p (fun p t => if vl ≠ 0 ∧ t.fpLive p then t.sendLack p vl.toNat (t.linkOf p vl.toNat).nak else t)

/-- RETRY_TIMEOUT (R372). -/
def execRetryTimeout (p : BitVec 3) (vl : BitVec 2) (s : State) : Host.Outcome State Fault Refusal :=
  fabDone s p (fun p t => t.retryTimeout p vl.toNat)

/-- QMSG_TX (R386). -/
def execQmsgTx (s : State) : Host.Outcome State Fault Refusal := done s.qmsgTx

/-- WHISTLE (R388). -/
def execWhistle (tag : BitVec 16) (target : BitVec 48) (s : State) : Host.Outcome State Fault Refusal := done (s.whistleIn tag target)

/-- FAULT_REPORT (R391). -/
def execFaultReport (r : FaultRep) (s : State) : Host.Outcome State Fault Refusal := done (s.takeReport r)

/-- FR_ENTRY_CLOSE (R391). -/
def execFrEntryClose (k : Octet) (s : State) : Host.Outcome State Fault Refusal := done (s.frClose k.toNat)

/-- PACK_STATUS (R395). -/
def execPackStatus (h : BHdr) (s : State) : Host.Outcome State Fault Refusal :=
  bertiaRow h { len := 0, maxData := 24 } (fun t => .now stOk t.packStatus t) s

/-- ROUTE_READ (R395). -/
def execRouteRead (h : BHdr) (first count : BitVec 16) (s : State) : Host.Outcome State Fault Refusal :=
  bertiaRow h { len := 4, maxData := 5 * count.toNat } (·.routeRead first.toNat count.toNat) s

/-- LSDB_READ (R395): a record has at most 152 octets. -/
def execLsdbRead (h : BHdr) (first count : BitVec 16) (s : State) : Host.Outcome State Fault Refusal :=
  bertiaRow h { len := 4, maxData := 4 + 154 * count.toNat } (·.lsdbRead first.toNat count.toNat) s

/-- SCHED_STAGE (R395). -/
def execSchedStage (h : BHdr) (first : BitVec 16) (es : List SchedEnt) (s : State) : Host.Outcome State Fault Refusal :=
  bertiaRow h { len := 4 + 16 * es.length } (·.schedStageCmd first.toNat es) s

/-- SCHED_DROP (R395). -/
def execSchedDrop (h : BHdr) (first count : BitVec 16) (s : State) : Host.Outcome State Fault Refusal :=
  bertiaRow h { len := 4 } (·.schedDrop first.toNat count.toNat) s

/-- SCHED_READ (R395). -/
def execSchedRead (h : BHdr) (first count : BitVec 16) (which : Octet) (s : State) : Host.Outcome State Fault Refusal :=
  bertiaRow h { len := 8, maxData := 16 * count.toNat } (·.schedRead first.toNat count.toNat which.toNat) s

/-- GROUP_STAGE (R395). -/
def execGroupStage (h : BHdr) (group : BitVec 16) (flags : Octet) (members : List (BitVec 16)) (s : State) : Host.Outcome State Fault Refusal :=
  bertiaRow h { len := 4 + 2 * members.length } (·.groupStageCmd group.toNat flags.toNat (members.map (·.toNat))) s

/-- ASYM_SAVE (R395). -/
def execAsymSave (h : BHdr) (port : Octet) (v : Reg32) (s : State) : Host.Outcome State Fault Refusal :=
  bertiaRow h { len := 8 } (·.asymSave port.toNat v.toNat) s

/-- FAB_TXQ (R395). -/
def execFabTxq (h : BHdr) (q : BitVec 16) (bind : Octet) (s : State) : Host.Outcome State Fault Refusal :=
  bertiaRow h { len := 4 } (·.fabTxq q.toNat bind.toNat) s

/-- FAB_SEND (R395). -/
def execFabSend (h : BHdr) (longs : List Long) (s : State) : Host.Outcome State Fault Refusal :=
  bertiaRow h { len := 5 * longs.length } (·.fabSend longs) s

end Sys2Proof.Machine
end

