-- ==== Sys2Proof/Machine/Edge.lean ====
section
/-! DEFINITION. The beat edge (R18): its actions in their order, the stop sequence's end (R35), BEAT_OVERRUN (R55, R123, R236). -/

namespace Sys2Proof.Machine

open Sys2Proof

/-! ### Step 1: number, time, TIM -/

/-- The beat number becomes n at instant t: a step of pack time due here (R37), a member's new GRID (R358), the capture of
R32, then the TIM slots. -/
def State.edgeTime (s : State) (n : BitVec 48) (t : Int) : State :=
  let s1 := { s with time := max s.time t }.onBeat (fun z => { z with num := n, lastEdge := t, first := none, ran := true })
  let s2 := s1.onStr (fun z => { z with edgeCnt := z.edgeCnt + 1, edges := ((n, z.edgeCnt + 1) :: z.edges).take 64 })
  let s3 := (s2.applyStep).ppsExpire.applyGrid
  let s4 := if s3.beat.capEdge then (s3.onBeat (fun z => { z with capEdge := false })).capture t n else s3
  s4.timEdge n t

/-! ### Step 3: commit and plans (R48, R79, R575) -/

/-- Does the plan that pends on port p take effect at edge n? -/
def State.planDue (s : State) (p : Nat) (n : BitVec 48) : Bool :=
  match (s.port p).plan with
  | some x => x.answer == some none && (match x.target with
      | some t => t == n
      | none => !x.byCommit)
  | none => false

/-- A plan of R575 whose edge has come without an answer. -/
def State.planLapsed (s : State) (p : Nat) (n : BitVec 48) : Bool :=
  match (s.port p).plan with
  | some x => !x.byCommit && x.answer.isNone && (match x.target with
      | some t => t == n
      | none => true)
  | none => false

/-- The plan of port p takes effect (R79): channels that are new or change give a beat of gap codes (R80). -/
def State.planInForce (s : State) (p : Nat) : State :=
  match (s.port p).plan with
  | some x =>
    let old := ((s.port p).inForce.map (·.2)).getD []
    ((s.dropPlan p).wr (R.SP_STAT_PLAN_ID p) x.id).onPort p (fun y => { y with
      inForce := some (x.id, x.chans)
      blank := (x.chans.filter (fun c => !c.drive && !old.contains c)).map (·.ch) })
  | none => s

/-- Plans at edge n. -/
def State.plansEdge (s : State) (n : BitVec 48) (due : List Nat) : State :=
  let s1 := spPorts.foldl (fun t p => t.onPort p (fun y => { y with expect := y.inForce })) s
  let s2 := due.foldl (fun t p => t.planInForce p) s1
  (spPorts.filter (fun p => s2.planLapsed p n)).foldl (fun t p => t.arrivalPlan p) s2

/-- The commit and the pack period that name edge n. -/
def State.commitEdge (s : State) (n : BitVec 48) : State :=
  let s1 := match s.beat.commit with
    | some c => if !c.immediate && c.target = n then s.commitRun (some n) else s
    | none => s
  s1.periodEdge n

/-! ### What leaves at the edge (R71, R75, R45, R341) -/

/-- The MARK of port p: it leaves in the first control slot after the edge, so its OFFSET is open up to one link cycle (R71). -/
def State.markPort (s : State) (n : BitVec 48) (plan : Bool) (p : Nat) : State :=
  (s.emit (.sample p (spMark (s.bit R.DRV_ABORT_STAT_LATCHED) plan (s.beat.phase == .stopLast) (n.toNat % 2 ^ 36)
    (s.freeVal % (32 * cycleNs (s.rd (R.SP_STAT_GEN_ACT p)) + 1))))).freeNext

/-- A drive frame leaves; with LOOP it comes back to the port's own receiver (R98). -/
def State.sendDrive (s : State) (p beat plan : Nat) (codes : List Grain) : State :=
  let s1 := s.emit (.sample p (spDrive beat plan codes))
  if s.spLoop p then s1.takeBlock p { words := (beatBlockWords beat plan codes).map some } else s1

/-- MARK on every port whose module talks, then the drive frames formed. -/
def State.markPorts (s : State) (n : BitVec 48) (due : List Nat) (frames : List (Nat × Nat × List Grain)) : State :=
  let s1 := (spPorts.filter s.spTalks).foldl (fun t p => t.markPort n (due.contains p) p) s
  frames.foldl (fun t f => if t.spState f.1 = spActive then t.sendDrive f.1 ((n - 1).toNat % 65536) f.2.1 f.2.2 else t) s1

/-- Is this a MARK, or a drive block? -/
def Out.isMark : Out → Bool
  | .sample _ ws => Sys2Proof.Machine.isMark ws
  | _ => false
def Out.isBlock : Out → Bool
  | .sample _ ws => Sys2Proof.Machine.isBlock ws
  | _ => false

/-- R70, R76: of what has become due at an edge, past the first k messages, the MARKs leave first, then the drive blocks; the
management words of the ports follow in their order. -/
def State.arbitrate (s : State) (k : Nat) : State :=
  let l := s.out.drop k
  { s with out := s.out.take k ++ l.filter Out.isMark ++ l.filter Out.isBlock ++ l.filter (fun o => !o.isMark && !o.isBlock) }

/-- BEAT_OUT drives its pulse at every OUT_DIV-th number, of its width and polarity (R45). -/
def State.beatOut (s : State) (n : BitVec 48) : State :=
  if s.rdF R.BEATIO_CTRL_OUT_EN = 1 ∧ n.toNat % s.rdF R.BEATIO_CTRL_OUT_DIV = 0 then
    s.emit (.beatPulse (64 * s.rdF R.BEATIO_CTRL_OUT_WIDTH) (s.rdF R.BEATIO_CTRL_OUT_POL == 1))
  else s

/-- An aligned node sends its edge on every live port, EDGE and directly after it TDATA (R342). OFFSET, from the edge to the EDGE
block at the serializer, is open (log 12). -/
def State.edgeBlocks (s : State) (n : BitVec 48) : State :=
  if s.aligned then
    (fabPorts.filter s.fpLive).foldl (fun t p =>
      ((t.emit (.fabric p (.block (edgeWord (t.rd R.PACK_STAT_DEPTH) n)))).emit (.fabric p (.block (tdataWord t.freeVal t.ownAddr)))).freeNext) s
  else s

/-! ### Cores and controllers -/

/-- A held core leaves core reset at vector 0 (R488); one asked to halt does so at once (R530). -/
def State.coreGo (s : State) (i : Nat) : State :=
  if (s.core i).run = .held ∧ s.coreOn i then
    let s1 := (s.onCore i (fun c => { c with run := .running, work := s.beat.num })).coreBusy i
    if (s1.core i).haltReq then (s1.onCore i (fun c => { c with haltReq := false })).halt i whyDebug none else s1
  else s

/-- Cores that CORE_START released. -/
def State.startCores (s : State) : State :=
  s.host.startAtEdge.foldl (fun t i => t.coreGo i) (s.onHost (fun z => { z with startAtEdge := [] }))

/-- Hold-off timers that count edges (R259). -/
def State.holdEdge (s : State) : State :=
  s.cics.foldl (fun t e => if t.domOn (domCic e.1) then t.setCic e.1 ((t.cic e.1).mapHold (·.edge)) else t) s

/-- A new export table takes over (R493). -/
def State.exportEdge (s : State) : State :=
  match s.host.exportsNext with
  | some l => s.onHost (fun z => { z with exports := l.map (fun e => (e, 0, s.beat.num.toNat)), exportsNext := none })
  | none => s

/-! ### The end of the stop sequence (R35) -/

/-- After an edge of the stop sequence; RUNNING clears after the last, and what waited for an edge goes on at once: whistle requests
(R519), clusters that come on (R500). -/
def State.stopEdge (s : State) : State :=
  match s.beat.phase with
  | .stopRamp => s.onBeat (fun z => { z with phase := .stopLast })
  | .stopLast =>
    let s1 := ((s.onBeat (fun z => { z with phase := .stopped })).wr R.BEAT_STAT_RUNNING 0).wr R.BEAT_STAT_STOPPING 0
    let s2 := (s1.set1 R.BEAT_INT_STAT_STOPPED).commitStopped
    s2.pwr.ripe.foldl (fun t d => t.pwrArrive d .plain) s2.packUpdate.whStopped
  | _ => s

/-! ### The edge -/

/-- Source EDGE of every cluster (R251). -/
def State.edgeSources (s : State) : State := (List.range 64).foldl (fun (u : State) c => u.cicEdge c 68) s

/-- The actions of edge n at instant t, in the order of R18. -/
def State.edgeAct (s0 : State) (n : BitVec 48) (t : Int) (ran : Bool) : State :=
  let s1 := ((s0.edgeTime n t).edgeBlocks n).edgeSources
  let s2 := (s1.latchEdge n t).windowsOpen n
  let d := s2.driveEdge (n - 1)
  let s3 := (d.1.periodWatch n).commitEdge n
  let due := spPorts.filter (fun p => s3.planDue p n)
  let s4 := (((s3.newBeat).plansEdge n due).fabEdge).slotEdge n
  let s5 := (s4.markPorts n due d.2).arbitrate s0.out.length
  let s6 := ((s5.redBegin n).redClose n).redBusy s0.periodNs.toNat
  let s7 := (s6.slackEdge n t s0.periodNs ran).pwrEdge n
  let s8 := ((List.range 64).foldl (fun u c => u.voltKeep c) s7).openReady
  (((s8.holdEdge).beatOut n).startCores).exportEdge.stopEdge.packSettle

/-- EDGE: the next edge is reached; what was due in the beat before has happened by then. -/
def State.edge (s : State) : State :=
  if !s.hasEdges || !s.domOn domSteward then s
  else
    let ran := s.beat.first.isNone
    let s1 := if ran then s.endBeat.tokensEnd else s
    let e := s1.edgeFrom s1.beat.lastEdge
    (s1.specDue e.1).edgeAct e.1 e.2 ran

/-! ### BEAT_OVERRUN (R55, R123, R236, R508) -/

/-- Does cluster c raise BEAT_OVERRUN for the last edge? -/
def State.overrunDue (s : State) (c : Nat) : Bool :=
  s.hasEdges && s.beat.first.isNone && s.domOn (domCluster c) && !s.allReached c (s.beat.num - 1)
    && (s.clu c).ovrAt != some s.beat.num

/-- The event and fault report, at most once in a second for a cluster (R482, R483). -/
def State.overrunEvent (s : State) (c : Nat) : State :=
  let recent := match lookup s.host.ovrEvt c with
    | some t => decide (s.time - t < 1000000000 * nsU)
    | none => false
  if recent then s
  else (s.onHost (fun z => { z with ovrEvt := insertKey z.ovrEvt c s.time })).selfFault 0x0104 c
    (le 1 c ++ le 2 (s.rd (R.OVR_CNT_V c)))

/-- Cluster c raises BEAT_OVERRUN at GUARD after the last edge. -/
def State.overrun (s : State) (c : Nat) : State :=
  if !s.overrunDue c then s
  else
    let n := s.beat.num
    let s1 := { s with time := max s.time (s.beat.lastEdge + s.rdF ⟨R.GUARD, 0, 32⟩ * nsU) }
    let s2 := (s1.inc (R.OVR_CNT_V c)).wr (R.OVR_BEAT_V c) n.toNat
    let sum := if c < 32 then R.OVR_SUM_LO else R.OVR_SUM_HI
    let s3 := (s2.wr ⟨sum, c % 32, 1⟩ 1).set1 R.BEAT_INT_STAT_OVERRUN
    let s4 := s3.setClu c { s3.clu c with ovrAt := some n }
    let s5 := (List.range 16).foldl (fun t k =>
      if t.reached (16 * c + k) (n - 1) then t else t.onCore (16 * c + k) (fun x => x.setOvr n)) s4
    let mine := (s.ctxOn).filter (fun i => (s.cfg i).owner = c ∧ ((s.cfg i).ctype = tyOut ∨ (s.cfg i).ctype = tyDer))
    let s6 := mine.foldl (fun t i => t.countOvr i) s5
    let ends := mine.filter (fun i => (s.cfg i).ctype = tyOut ∧ (s.cfg i).policy = 0 ∧ (s.guard i).gstate = gHolding ∧ !s.str.holdEnd.contains i)
    let s7 := s6.onStr (fun z => { z with holdEnd := z.holdEnd ++ ends })
    ((s7.govBoost c).cicEdge c 66).whFault 0 |>.overrunEvent c

/-! ### The rows -/

/-- EDGE (R18). -/
def execEdge (s : State) : Host.Outcome State Fault Refusal := doneP s.edge

/-- BEAT_OVERRUN (R55). -/
def execBeatOverrun (c : BitVec 6) (s : State) : Host.Outcome State Fault Refusal := done (s.overrun c.toNat)

end Sys2Proof.Machine
end

