-- ==== Sys2Proof/Machine/Stage.lean ====
section
/-! DEFINITION. Bertia 0x02xx and 0x09xx (R129 to R131, R335, R336), auto-binding (R85, R86), the reduction engine's own
steps (R296, R328). -/

namespace Sys2Proof.Machine

open Sys2Proof

/-- Contexts of the table (R99). -/
def ctxCount : Nat := 262144

/-! ### Contexts (R129, R130) -/

/-- Stage longs 0 to 9 of context i; SUB_IDX, SUB_CNT and TEDS_REF are not the payload's. -/
def State.stageCtx (s : State) (i : Nat) (l : List Long) : State :=
  let m := listSet (listSet l 6 (s.ctxL i 6)) 7 (s.ctxL i 7)
  (s.onStr (fun z => { z with stage := mset (fun _ => none) z.stage i (some m) })).onRed (fun z => { z with
    stage := z.stage.map (fun x => if x.src = i then { x with ptr := false } else x) })

/-- CTX_STAGE. -/
def State.ctxStage (s : State) (i : Nat) (l : List Long) : Reply :=
  s.staging (decide (i < ctxCount) && l.length == 10)
    (let t := s.stageCtx i l
     if stageMax < t.stageUsed then .now stNoSpace [] s else .now stOk [] t)

/-- CTX_STAGE_RANGE. -/
def State.ctxStageRange (s : State) (first count stride ch : Nat) (l : List Long) : Reply :=
  let c := decodeCtx l
  let io := c.ctype = tyIn ∨ c.ctype = tyOut
  let at_ (k : Nat) : List Long :=
    let l2 := listSet l 2 (withBits (l.getD 2 0) 21 19 (c.base + k * stride))
    if io then listSet l2 1 (withBits (l.getD 1 0) 24 12 (c.channel + k * ch)) else l2
  s.staging (l.length == 10 && decide (1 ≤ count ∧ count ≤ 4096 ∧ first + count ≤ ctxCount)
      && !(decide io && decide (4095 < c.channel + (count - 1) * ch)) && decide (c.base + (count - 1) * stride < 524288))
    (let t := (List.range count).foldl (fun u k => u.stageCtx (first + k) (at_ k)) s
     if stageMax < t.stageUsed then .now stNoSpace [] s else .now stOk [] t)

/-- The subscriber ranges in force and staged, those of context i staged before left out. -/
def State.subRanges (s : State) (i : Nat) : List (Nat × Nat) :=
  (s.str.ctx.filterMap (fun e => if e.1 % 16 = 6 ∧ bitsOf e.2 0 9 ≠ 0 then some (bitsOf e.2 9 16, bitsOf e.2 0 9) else none))
    ++ s.str.stageSub.filterMap (fun e => if e.1 = i then none else e.2.bind (fun x => if x.2.isEmpty then none else some (x.1, x.2.length)))

/-- The lowest run of n entries that no range occupies. -/
def lowestRun (used : List (Nat × Nat)) (n : Nat) : Option Nat :=
  let free (a : Nat) : Bool := decide (a + n ≤ 65536) && used.all (fun u => decide (a + n ≤ u.1 ∨ u.1 + u.2 ≤ a))
  ((0 :: used.map (fun u => u.1 + u.2)).filter free).foldl (fun m a => match m with
    | some b => some (min a b)
    | none => some a) none

/-- SUB_SET. -/
def State.subSet (s : State) (i : Nat) (l : List Long) : Reply :=
  let put (k : Nat) : Reply :=
    let t := s.onStr (fun z => { z with stageSub := mset (fun _ => none) z.stageSub i (some (k, l)) })
    if stageSubMax < t.stageSubUsed then .now stNoSpace [] s else .now stOk (le 4 k) t
  s.staging (decide (i < ctxCount) && decide (l.length ≤ 256))
    (if l.isEmpty then put 0
     else if l.length ≤ (s.cfg i).subCnt then put (s.cfg i).subIdx
     else match lowestRun (s.subRanges i) l.length with
       | some k => put k
       | none => .now stNoSpace [] s)

/-- CTX_READ. -/
def State.ctxRead (s : State) (i which : Nat) : Reply :=
  let rest := (List.range 6).map (fun k => s.ctxL i (10 + k))
  let staged := s.stagedCtx.contains i
  if ctxCount ≤ i ∨ 1 < which then .now stBadParam [] s
  else .now (if which = 1 ∧ !staged then stNotStaged else stOk)
    (((if which = 1 then s.stagedLongs i else s.cfgLongs i) ++ rest).map leLong).flatten s

/-- Is a range of the table named? -/
def ctxRange (first count : Nat) : Bool := decide (1 ≤ count ∧ count ≤ ctxCount ∧ first + count ≤ ctxCount)

/-- CTX_CLEAR: longs 10 to 12 read 0. -/
def State.ctxClear (s : State) (first count : Nat) : Reply :=
  if !ctxRange first count then .now stBadParam [] s
  else .now stOk [] (s.onStr (fun z => { z with ctx := z.ctx.filter (fun e =>
    !(decide (first ≤ e.1 / 16 ∧ e.1 / 16 < first + count ∧ 10 ≤ e.1 % 16 ∧ e.1 % 16 ≤ 12))) }))

/-- STAGE_DROP. -/
def State.stageDrop (s : State) : Reply :=
  s.staging true (.now stOk [] ((s.onStr (fun z => { z with stage := [], stageSub := [], brqStage := [] })).onRed (fun z =>
    { z with stage := [], qStage := [], extra := 0 })))

/-- STAGE_INFO. -/
def State.stageInfo (s : State) : List Octet :=
  le 4 s.str.stage.length ++ le 4 (stageMax - s.stageUsed) ++ le 4 (stageSubMax - s.stageSubUsed)

/-- BEATREADY_QUEUE. -/
def State.beatreadyQueue (s : State) (c q : Nat) : Reply :=
  s.staging (decide (c < 64)) (.now stOk [] (s.onStr (fun z => { z with brqStage := insertKey z.brqStage c q })))

/-- AUTOBIND_TEMPLATE (R131). -/
def State.autobindTemplate (s : State) (p first stride : Nat) (a b : List Long) : Reply :=
  if 16 ≤ p ∨ ctxCount ≤ first ∨ a.length ≠ 10 ∨ b.length ≠ 10 then .now stBadParam [] s
  else .now stOk [] (s.onStr (fun z => { z with tmpl := mset (fun _ => none) z.tmpl p (some ⟨first, stride, a, b⟩) }))

/-- GAP_SCAN. -/
def State.gapScan (s : State) (first count most : Nat) : Reply :=
  if !ctxRange first count ∨ most = 0 ∨ 1024 < most then .now stBadParam [] s
  else
    let l := s.str.ctx.filterMap (fun e =>
      if e.1 % 16 = 10 ∧ first ≤ e.1 / 16 ∧ e.1 / 16 < first + count ∧ bitsOf e.2 20 20 ≠ 0 then some (e.1 / 16, bitsOf e.2 20 20) else none)
    .now stOk (le 4 l.length ++ ((l.take most).map (fun e => le 4 e.1 ++ le 3 e.2)).flatten) s

/-! ### Auto-binding (R85, R86, R131) -/

/-- Does the steward find nothing staged, neither in the buffers of R127 and R395 nor in a word of BAR0, and no commit pending
(R86)? -/
def State.stageFree (s : State) : Bool :=
  !s.pendingCommit && s.str.stage.isEmpty && s.str.stageSub.isEmpty && s.str.brqStage.isEmpty && s.red.stage.isEmpty && s.red.qStage.isEmpty
    && s.fab.schedStage.isEmpty && s.fab.groupStage.isEmpty && stgWords.all (fun o => s.word o == s.forceWord o)

/-- The longs of bound context number k of a module with n input channels on port p. DESIGN CHOICE (log 18): a BASE past the 19
bits of its field wraps modulo 2^19. -/
def bindLongs (t : Template) (p n k : Nat) : List Long :=
  let l := if k < n then t.inT else t.outT
  let l1 := listSet l 1 (withBits (withBits (l.getD 1 0) 36 4 p) 24 12 (if k < n then k else k - n))
  listSet l1 2 (withBits (l.getD 2 0) 21 19 (bitsOf (l.getD 2 0) 21 19 + k * t.stride))

/-- AUTOBIND: stage the next contexts, at most 4,096, and commit them 64 beats ahead. DESIGN CHOICE (log 18): an index past the
context table wraps modulo 262,144. -/
def State.autobind (s : State) (p : Nat) : State :=
  match (s.port p).bind, (s.port p).desc, mget (fun _ => none) s.str.tmpl p with
  | some b, some d, some t =>
    if b.committing || !s.stageFree then s
    else
      let n := min 4096 (d.inCh + d.drvCh - b.bound)
      let s1 := (List.range n).foldl (fun u j => u.stageCtx ((t.first + b.bound + j) % ctxCount) (bindLongs t p d.inCh (b.bound + j))) s
      let at_ := (s.beat.num + 64).toNat
      let s2 := (s1.wrW R.COMMIT_AT_LO at_).wrW R.COMMIT_AT_HI (at_ / 4294967296)
      (s2.onPort p (fun x => { x with bind := some { b with batch := n, committing := true } })).commitGo true
  | _, _, _ => s

/-- AUTOBIND_GIVE_UP. -/
def State.autobindGiveUp (s : State) (p : Nat) : State :=
  match (s.port p).bind with
  | some b => if b.committing then s else (s.onPort p (fun x => { x with bind := none })).arrivalEvent p 0xFF
  | none => s

/-! ### Reduction commands (R335, R336) -/

/-- The kind and longs of a RED_STAGE payload, with frequencies and Qs of SRS from long 0x1000; none: BAD_PARAM. -/
def redPart : RedPart → Option (Nat × List (Nat × Long))
  | .stats l => if l.length = 4 then some (kStats, (List.range 4).zip l |>.map (fun e => (4 + e.1, e.2))) else none
  | .rflow l => if l.length = 9 then some (kRflow, (List.range 9).zip l |>.map (fun e => (4 + e.1, e.2))) else none
  | .pkvl h => some (kPkvl, [(4, h)])
  | .spec n l4 bufs ms =>
    let k := Nat.log2 n.toNat
    if n.toNat = 2 ^ k ∧ 6 ≤ k ∧ k ≤ 16 ∧ bufs.length = 3 ∧ ms.length = bitsOf l4 27 4 + 1 ∧ ms.all (fun m => decide (m.toNat < ctxCount)) then
      some (kSpec, (4, withBits l4 35 5 k) :: ((List.range 3).zip bufs |>.map (fun e => (5 + e.1, e.2)))
        ++ (List.range 8).map (fun j => (8 + j, BitVec.ofNat 40 (((ms.getD (2 * j) 0).toNat * 2 ^ 22 + (ms.getD (2 * j + 1) 0).toNat * 2 ^ 4)))))
    else none
  | .member i => if 1 ≤ i.toNat ∧ i.toNat ≤ 15 then some (kMember, [(4, 0), (5, BitVec.ofNat 40 (i.toNat * 2 ^ 36))]) else none
  | .srs l =>
    if 1 ≤ l.length ∧ l.length ≤ 128 ∧ l.all (fun e => e.1 != 0 && decide (256 ≤ e.2.toNat)) then
      some (kSrs, (4, BitVec.ofNat 40 ((l.length - 1) * 2 ^ 33)) ::
        (((List.range l.length).zip l).map (fun e => [(0x1000 + 2 * e.1, e.2.1.setWidth 40), (0x1001 + 2 * e.1, e.2.2.setWidth 40)])).flatten)
    else none
  | .decim l =>
    if l.length = 3 ∧ 1 ≤ bitsOf (l.getD 0 0) 35 5 then some (kDecim, (List.range 3).zip l |>.map (fun e => (4 + e.1, e.2))) else none

/-- Octets of the kind part. -/
def redPartLen : RedPart → Nat
  | .stats l => 5 * l.length
  | .rflow l => 5 * l.length
  | .pkvl _ => 5
  | .spec _ _ bufs ms => 9 + 5 * bufs.length + 4 * ms.length
  | .member _ => 4
  | .srs l => 4 + 6 * l.length
  | .decim l => 5 * l.length

/-- The states a context would have, staged ones laid over those in force, by slot. -/
def State.chainNew (s : State) (src : Nat) : List RState :=
  [0, 1, 2, 3].filterMap (fun k => match s.red.stage.find? (fun x => x.src = src ∧ x.slot = k) with
    | some x => x.body
    | none => s.rstate src k)

/-- Stage a state or a removal, and RED_PTR of its source where the chain's first state changes; a slot staged before takes one
entry more. -/
def State.stageRed (s : State) (x : RStage) : Reply :=
  let again := if s.red.stage.any (fun y => y.src = x.src ∧ y.slot = x.slot) then 1 else 0
  let s1 := s.onRed (fun z => { z with extra := z.extra + again, stage := z.stage.filter (fun y => !(y.src = x.src ∧ y.slot = x.slot)) ++ [x] })
  let head := ((s1.chainNew x.src).head?.map (·.addr)).getD 0
  let l := s1.stagedLongs x.src
  let s2 := if l.getD 5 0 = BitVec.ofNat 40 head then s1
    else
      let fresh := (mget (fun _ => none) s.str.stage x.src).isNone
      (s1.onStr (fun z => { z with stage := mset (fun _ => none) z.stage x.src (some (listSet l 5 (BitVec.ofNat 40 head))) })).onRed (fun z =>
        { z with stage := z.stage.map (fun y => if y.src = x.src ∧ y.slot = x.slot then { y with ptr := fresh } else y) })
  if stageMax < s2.stageUsed then .now stNoSpace [] s else .now stOk [] s2

/-- RED_STAGE. -/
def State.redStage (s : State) (src slot kind flags g out addr : Nat) (part : RedPart) : Reply :=
  match redPart part with
  | none => .now stBadParam [] s
  | some (k, l) =>
    s.staging (k == kind && decide (src < ctxCount ∧ out < ctxCount ∧ slot ≤ 3 ∧ flags < 8 ∧ 1 ≤ g ∧ g ≤ 65536))
      (let long0 := kind * 2 ^ 37 + flags % 2 * 2 ^ 36 + out * 2 ^ 18 + flags / 2 % 2 * 2 ^ 17 + flags / 4 % 2 * 2 ^ 16 + (g - 1)
       s.stageRed ⟨src, slot, some { src := src, slot := slot, kind := kind, addr := addr, cfg := (0, BitVec.ofNat 40 long0) :: l }, [], false⟩)

/-- The state of a slot as it would be in force. -/
def State.rstateNew (s : State) (src slot : Nat) : Option RState := (s.chainNew src).find? (fun r => r.slot = slot)

/-- RED_REMOVE. -/
def State.redRemove (s : State) (src slot : Nat) : Reply :=
  s.staging (decide (src < ctxCount ∧ slot ≤ 3))
    (if (s.rstateNew src slot).isNone then .now stNotFound [] s else s.stageRed ⟨src, slot, none, [], false⟩)

/-- RED_CLEAR: acts at the state's next close. -/
def State.redClear (s : State) (src slot what : Nat) : Reply :=
  if ctxCount ≤ src ∨ 3 < slot ∨ 3 < what then .now stBadParam [] s
  else match s.rstate src slot with
    | some r => .now stOk [] (s.setRState { r with clear := r.clear ||| what })
    | none => .now stNotFound [] s

/-- RED_RESIDUE: acts at the state's next close. -/
def State.redResidue (s : State) (src slot : Nat) : Reply :=
  if ctxCount ≤ src ∨ 3 < slot then .now stBadParam [] s
  else match s.rstate src slot with
    | some r => if r.kind = kRflow then .now stOk [] (s.setRState { r with residue := true }) else .now stBadParam [] s
    | none => .now stNotFound [] s


/-- RED_READ: longs in force from memory; staged ones as the commit would write them. -/
def State.redRead (s : State) (src slot first count which : Nat) : Reply :=
  let staged := s.red.stage.any (fun x => x.src = src ∧ x.slot = slot)
  let fits (r : RState) : Bool := decide (first + count ≤ r.longCount)
  if ctxCount ≤ src ∨ 3 < slot ∨ count = 0 ∨ 512 < count ∨ 1 < which then .now stBadParam [] s
  else if which = 1 ∧ staged then
    (match s.statesNew.find? (fun r => r.src = src ∧ r.slot = slot) with
      | some r => if fits r then .now stOk ((List.range count).map (fun k => leLong (r.cl (first + k)))).flatten s else .now stBadParam [] s
      | none => .now stNotFound [] s)
  else match s.rstate src slot with
    | none => .now stNotFound [] s
    | some r =>
      if !fits r then .now stBadParam [] s
      else if !s.regionOk (r.addr, 2 * r.longCount) then .now stBadState [] s
      else .now (if which = 1 then stNotStaged else stOk) ((List.range count).map (fun k => leLong (s.rl r (first + k)))).flatten s

/-- RED_MATRIX_READ. -/
def State.redMatrixRead (s : State) (src slot first count : Nat) : Reply :=
  if ctxCount ≤ src ∨ 3 < slot ∨ count = 0 ∨ 4096 < count then .now stBadParam [] s
  else match s.rstate src slot with
    | none => .now stNotFound [] s
    | some r =>
      let n := (bitsOf (r.cl 5) 33 6 + 1) * (bitsOf (r.cl 5) 27 6 + 1)
      if r.kind ≠ kRflow ∨ n < first + count then .now stBadParam [] s
      else if !s.regionOk ((r.cl 9).toNat, 2 * n) then .now stBadState [] s
      else .now stOk ((List.range count).map (fun k => leLong (s.long ((r.cl 9).toNat + 2 * (first + k))))).flatten s

/-- RED_QUEUE. -/
def State.redQueue (s : State) (c q : Nat) : Reply :=
  s.staging (decide (c < 64))
    (let t := s.onRed (fun z => { z with
       extra := z.extra + (if (lookup z.qStage c).isSome then 1 else 0)
       qStage := insertKey z.qStage c q })
     if stageMax < t.stageUsed then .now stNoSpace [] s else .now stOk [] t)

/-- RED_LOAD. -/
def State.redLoad (s : State) (c which : Nat) : Reply :=
  if 64 ≤ c ∨ 1 < which then .now stBadParam [] s
  else
    let l := if which = 0 then s.loadOf c
      else (s.statesNew.filter (fun r => (s.cfgNew r.src).owner = c)).map (fun r => (r, (s.cfgNew r.src).spb))
    let pq := if which = 0 then s.pqIn else s.pqNew
    .now stOk (leLong (unitsLong (loadUs l)) ++ leLong (unitsLong (loadUf l)) ++ leLong (BitVec.ofNat 40 (6 * pq / 42949672960))) s

/-- DECIM_COEF: taps of a DECIM state with USER = 1, staged with it. -/
def State.decimCoef (s : State) (src slot first : Nat) (taps : List Long) : Reply :=
  let new := (List.range taps.length).zip taps |>.map (fun e => (first + e.1, e.2))
  s.staging (decide (src < ctxCount ∧ slot ≤ 3 ∧ 1 ≤ taps.length ∧ taps.length ≤ 512))
    (match s.rstateNew src slot with
      | none => .now stNotFound [] s
      | some r =>
        if r.kind ≠ kDecim ∨ !(r.cl 4).getLsbD 34 ∨ bitsOf (r.cl 4) 23 11 + 1 < first + taps.length then .now stBadParam [] s
        else match s.red.stage.find? (fun x => x.src = src ∧ x.slot = slot) with
          | some x =>
            let t := s.onRed (fun z => { z with extra := z.extra + 1, stage := z.stage.map (fun y =>
              if y.src = src ∧ y.slot = slot then { x with coefs := x.coefs ++ new } else y) })
            if stageMax < t.stageUsed then .now stNoSpace [] s else .now stOk [] t
          | none => s.stageRed ⟨src, slot, some { src := src, slot := slot, kind := r.kind, addr := r.addr, cfg := r.cfg }, new, false⟩)


/-! ### The rows -/

/-- AUTOBIND (R86). -/
def execAutobind (p : BitVec 4) (s : State) : Host.Outcome State Fault Refusal := done (s.autobind p.toNat)

/-- AUTOBIND_GIVE_UP (R86). -/
def execAutobindGiveUp (p : BitVec 4) (s : State) : Host.Outcome State Fault Refusal := done (s.autobindGiveUp p.toNat)

/-- CTX_STAGE (R129). -/
def execCtxStage (h : BHdr) (idx : Reg32) (longs : List Long) (s : State) : Host.Outcome State Fault Refusal :=
  bertiaRow h { len := 4 + 5 * longs.length } (·.ctxStage idx.toNat longs) s

/-- CTX_STAGE_RANGE (R130). -/
def execCtxStageRange (h : BHdr) (first count stride : Reg32) (ch : BitVec 16) (longs : List Long) (s : State) :
    Host.Outcome State Fault Refusal :=
  bertiaRow h { len := 16 + 5 * longs.length } (·.ctxStageRange first.toNat count.toNat stride.toNat ch.toNat longs) s

/-- SUB_SET (R130). -/
def execSubSet (h : BHdr) (idx : Reg32) (entries : List Long) (s : State) : Host.Outcome State Fault Refusal :=
  bertiaRow h { len := 8 + 5 * entries.length, maxData := 4 } (·.subSet idx.toNat entries) s

/-- CTX_READ (R129). -/
def execCtxRead (h : BHdr) (idx : Reg32) (which : Octet) (s : State) : Host.Outcome State Fault Refusal :=
  bertiaRow h { len := 8, maxData := 80 } (·.ctxRead idx.toNat which.toNat) s

/-- CTX_CLEAR (R129). -/
def execCtxClear (h : BHdr) (first count : Reg32) (s : State) : Host.Outcome State Fault Refusal :=
  bertiaRow h { len := 8 } (·.ctxClear first.toNat count.toNat) s

/-- STAGE_DROP (R129). -/
def execStageDrop (h : BHdr) (s : State) : Host.Outcome State Fault Refusal := bertiaRow h { len := 0 } (·.stageDrop) s

/-- STAGE_INFO (R129). -/
def execStageInfo (h : BHdr) (s : State) : Host.Outcome State Fault Refusal :=
  bertiaRow h { len := 0, maxData := 12 } (fun t => .now stOk t.stageInfo t) s

/-- BEATREADY_QUEUE (R114). -/
def execBeatreadyQueue (h : BHdr) (cluster : Octet) (q : BitVec 16) (s : State) : Host.Outcome State Fault Refusal :=
  bertiaRow h { len := 4 } (·.beatreadyQueue cluster.toNat q.toNat) s

/-- AUTOBIND_TEMPLATE (R131). -/
def execAutobindTemplate (h : BHdr) (port : Octet) (first stride : Reg32) (inT outT : List Long) (s : State) :
    Host.Outcome State Fault Refusal :=
  bertiaRow h { len := 12 + 5 * (inT.length + outT.length) } (·.autobindTemplate port.toNat first.toNat stride.toNat inT outT) s

/-- GAP_SCAN (R129). -/
def execGapScan (h : BHdr) (first count : Reg32) (most : BitVec 16) (s : State) : Host.Outcome State Fault Refusal :=
  bertiaRow h { len := 12, maxData := 4 + 7 * most.toNat } (·.gapScan first.toNat count.toNat most.toNat) s

/-- RED_INTAKE_ITEM (R296). -/
def execRedIntakeItem (c : BitVec 6) (s : State) : Host.Outcome State Fault Refusal := done (s.redNext c.toNat)

/-- SPEC_RECORD_WRITE (R328). -/
def execSpecRecordWrite (c : BitVec 6) (s : State) : Host.Outcome State Fault Refusal := done (s.specNext c.toNat)

/-- RED_STAGE (R335, R336). -/
def execRedStage (h : BHdr) (src : Reg32) (slot kind flags : Octet) (g out : Reg32) (a : Long) (part : RedPart) (s : State) :
    Host.Outcome State Fault Refusal :=
  bertiaRow h { len := 21 + redPartLen part }
    (·.redStage src.toNat slot.toNat kind.toNat flags.toNat g.toNat out.toNat a.toNat part) s

/-- RED_REMOVE (R335). -/
def execRedRemove (h : BHdr) (src : Reg32) (slot : Octet) (s : State) : Host.Outcome State Fault Refusal :=
  bertiaRow h { len := 8 } (·.redRemove src.toNat slot.toNat) s

/-- RED_CLEAR (R305). -/
def execRedClear (h : BHdr) (src : Reg32) (slot what : Octet) (s : State) : Host.Outcome State Fault Refusal :=
  bertiaRow h { len := 8 } (·.redClear src.toNat slot.toNat what.toNat) s

/-- RED_RESIDUE (R315). -/
def execRedResidue (h : BHdr) (src : Reg32) (slot : Octet) (s : State) : Host.Outcome State Fault Refusal :=
  bertiaRow h { len := 8 } (·.redResidue src.toNat slot.toNat) s

/-- RED_READ (R335). -/
def execRedRead (h : BHdr) (src : Reg32) (slot : Octet) (first count : BitVec 16) (which : Octet) (s : State) :
    Host.Outcome State Fault Refusal :=
  bertiaRow h { len := 12, maxData := 5 * count.toNat } (·.redRead src.toNat slot.toNat first.toNat count.toNat which.toNat) s

/-- RED_MATRIX_READ (R335). -/
def execRedMatrixRead (h : BHdr) (src : Reg32) (slot : Octet) (first count : BitVec 16) (s : State) : Host.Outcome State Fault Refusal :=
  bertiaRow h { len := 10, maxData := 5 * count.toNat } (·.redMatrixRead src.toNat slot.toNat first.toNat count.toNat) s

/-- RED_QUEUE (R335). -/
def execRedQueue (h : BHdr) (cluster : Octet) (q : BitVec 16) (s : State) : Host.Outcome State Fault Refusal :=
  bertiaRow h { len := 4 } (·.redQueue cluster.toNat q.toNat) s

/-- RED_LOAD (R335). -/
def execRedLoad (h : BHdr) (cluster which : Octet) (s : State) : Host.Outcome State Fault Refusal :=
  bertiaRow h { len := 4, maxData := 15 } (·.redLoad cluster.toNat which.toNat) s

/-- DECIM_COEF (R335). -/
def execDecimCoef (h : BHdr) (src : Reg32) (slot : Octet) (first : BitVec 16) (taps : List Long) (s : State) :
    Host.Outcome State Fault Refusal :=
  bertiaRow h { len := 10 + 5 * taps.length } (·.decimCoef src.toNat slot.toNat first.toNat taps) s

end Sys2Proof.Machine
end

