-- ==== Sys2Proof/Machine/Boot.lean ====
section
/-! DEFINITION. Resets of the device, the ROM and the firmware (18), and the whistle's commands (17). -/

namespace Sys2Proof.Machine

open Sys2Proof

/-! ### Resets (R538 to R541) -/

/-- What the kennel keeps over a device reset: its OTP, the SSP store and a latched request (R463); an integrity or OTP
failure, but not over a power-on reset (R453). -/
def State.kennelKept (s : State) (por : Bool) : Kennel :=
  let k := s.kn
  { slots := k.slots, cur := k.cur, counters := k.counters, coKeys := k.coKeys, usrKeys := k.usrKeys, admitted := k.admitted
    nextChal := k.nextChal, latched := k.latched, hard := k.hard && !por }

/-- BAR0 words that a device reset keeps (R62, R274, R551). -/
def keptWords : List (Nat × Nat) := [(R.AON_CTRL, R.AON_CAL + 4), (R.WATCH 0, R.WAKE_CNT + 4), (R.RST_CAUSE, R.RST_CAUSE + 4)]

/-- Every field at its reset value but what leaves the block, the clock, the media and flash, the kennel's store, the pins,
and for a device reset the AON contents that are kept. -/
def State.resetBase (s : State) (por : Bool) : State :=
  let s0 := s.finishCut
  { State.reset with
    pending := s.pending, out := s.out, free := s.free, time := s.time
    beat := { off := -s.time, aon := if por then 0 - Config.aonTicks s.time else s.beat.aon }
    jrn := s.jrnReset.jrn, kn := s0.kennelKept por, abortPin := s.abortPin
    dev := if por then {} else { wakeTs := s.dev.wakeTs }
    wh := if por then {} else { tapDebug := s.wh.tapDebug, tapIr := s.wh.tapIr, pinsTaken := s.wh.pinsTaken }
    pwr := { trip := s.pwr.trip && !por }
    boot := { hdr0 := s.boot.hdr0, hdr1 := s.boot.hdr1, slotA := s.boot.slotA, slotB := s.boot.slotB, flash := s.boot.flash } }

/-- A power-on or device reset with its bit of RST_CAUSE, the straps as sampled at its end (R540); the levels of the
pins are sensed anew (R94, R96, R421, R457), and LOCKUP_N is released (R250). -/
def State.deviceReset (s : State) (por : Bool) (cause : Fld) (mode : BitVec 2) (node : BitVec 12) : State :=
  let s0 := s.finishCut
  let b := if s.bit R.BOOT_STAT_LOCKUP then (s.resetBase por).emit (.lockupPin false) else s.resetBase por
  let s1 := if por then b else (keptWords.foldl (fun l w => l ++ keepRange s.hreg w.1 w.2) []).foldl (fun t e => t.setWord e.1 e.2) b
  let s2 := ((s1.set1 cause).wr R.BOOT_STAT_MODE mode.toNat).wr R.NODE_ADDR_NODE_ID node.toNat
  let s3 := ((s2.wr R.KN_STAT_SEAL (s0.rd R.KN_STAT_SEAL)).wr R.KN_STAT_JOIN (s0.rd R.KN_STAT_JOIN)).wr R.KN_STAT_ZPIN (s0.rd R.KN_STAT_ZPIN)
  let s4 := (s3.wb R.KN_STAT_ZBUSY s3.kn.latched).wr R.J_STAT_PF_PIN (s.rd R.J_STAT_PF_PIN)
  let s5 := if s4.kn.hard then (s4.setWord R.KN_ERR (s.word R.KN_ERR)).setKnState knError else s4
  let s6 := (if s5.kn.hard && s5.kn.latched then s5.zeroStart else s5).fixAddr
  if s6.abortPin then (s6.wr R.DRV_ABORT_STAT_PIN 1).abortEvent false else s6

/-- The kennel core is reset (R463, R538). -/
def State.kennelReset (s : State) (cause : Fld) : State :=
  if s.domOn domKennel then (s.set1 cause).kennelStart else s

/-- A write of RST_CTRL with the key (R551); the widest reset takes over, and every cause is recorded (R539). The straps
are as they were sampled last. -/
def State.rstWrite (s : State) (v : Reg32) : State :=
  if fieldOf v R.RST_CTRL_KEY ≠ 0xD1CE then s
  else
    let core := v.getLsbD 1 || v.getLsbD 2
    let s0 := if core then s.set1 R.RST_CAUSE_STEW_SW else s
    if v.getLsbD 0 then s0.deviceReset false R.RST_CAUSE_DEV_SW (BitVec.ofNat 2 (s.rd R.BOOT_STAT_MODE)) (BitVec.ofNat 12 (s.rd R.NODE_ADDR_NODE_ID))
    else
      let s1 := if v.getLsbD 2 then s0.kennelReset R.RST_CAUSE_STEW_SW else s0
      if v.getLsbD 1 then s1.stewardReset else s1

/-- A steward core reset with its cause. -/
def State.stewardBy (s : State) (cause : Fld) : State := if s.domOn domSteward then (s.set1 cause).stewardReset else s

/-! ### The ROM (R543 to R547) -/

/-- The boot header in force: the valid copy with the higher SEQ. -/
def State.header (s : State) : Option BootHdr :=
  match s.boot.hdr0, s.boot.hdr1 with
  | none, x => x
  | x, none => x
  | some a, some b => some (if a.seq < b.seq then b else a)

/-- Write a header with SEQ + 1 into the copy SEQ mod 2. -/
def State.writeBootHdr (s : State) (pref : Nat) (trial : Bool) (tries : Nat) : State :=
  let seq := match s.header with
    | some h => (h.seq + 1) % 4294967296
    | none => 1
  let h : BootHdr := ⟨seq, pref, trial, tries⟩
  (s.onBoot (fun z => if seq % 2 = 0 then { z with hdr0 := some h } else { z with hdr1 := some h })).emit (.flashHeader (seq % 2) h)

/-- A monotonic counter of the kennel. -/
def State.counter (s : State) (k : Nat) : Nat := mget (fun _ => 0) s.kn.counters k

/-- What the ROM records of a slot (R544, R551): its own finding, then SVN against a counter. -/
def State.slotResult (s : State) (k : Nat) (img : SlotImage) : Nat :=
  if img.result = 1 ∧ img.svn.toNat < s.counter k then 6 else img.result.toNat

/-- A body in the steward's private memory, from address 0 on. -/
def State.loadBody (s : State) : Nat → List Grain → State
  | _, [] => s
  | a, g :: r => (s.setGrain (keySteward a) g).loadBody (a + 1) r

/-- An image is loaded and control passes to it: the watchdog starts (R545, R546). -/
def State.startImage (s : State) (slot : Nat) (img : SlotImage) (trial : Bool) : State :=
  let s1 := (s.loadBody 0 img.body).coreReset 1024 .running
  let s2 := (((s1.wr R.BOOT_STAT_PHASE 1).wr R.BOOT_STAT_SLOT slot).wb R.BOOT_STAT_TRIAL trial).wr R.BOOT_STAT_SVN img.svn.toNat
  (((s2.setWord R.FW_VER img.version).wr R.STEW_WDT_EN 1).onBoot (fun z => { z with rom := false, recovery := false, wdt := s.time }))

/-- The ROM waits for an image from the host (R547). -/
def State.recover (s : State) (phase err : Nat) : State :=
  ((s.wr R.BOOT_STAT_PHASE phase).wr R.BOOT_STAT_ERR err).onBoot (fun z => { z with recovery := true })

/-- The slots in order: the first valid one starts. -/
def State.tryImages (s : State) (trial : Option Nat) (imgs : Nat → SlotImage) : List Nat → State
  | [] => s.recover 4 (if s.rd R.BOOT_SLOTS_A = 7 ∧ s.rd R.BOOT_SLOTS_B = 7 then 3 else 1)
  | k :: r =>
    let res := s.slotResult 0 (imgs k)
    let s1 := s.wr (if k = 0 then R.BOOT_SLOTS_A else R.BOOT_SLOTS_B) res
    if res = 1 then s1.startImage k (imgs k) (trial = some k) else s1.tryImages trial imgs r

/-- IMAGE_HANDOFF: what the ROM does with the two slots as it finds them. -/
def State.handOff (s : State) (a b : SlotImage) : State :=
  if !s.domOn domSteward || !s.boot.rom || s.boot.recovery || s.rd R.BOOT_STAT_PHASE != 0 then s
  else
    let s0 := (((s.onBoot (fun z => { z with slotA := some a, slotB := some b })).wr R.BOOT_STAT_FALLBACK 0).wr R.BOOT_STAT_ERR 0).wrW R.BOOT_SLOTS 0
    let imgs (k : Nat) : SlotImage := if k = 0 then a else b
    if s.rd R.KN_ERR_CAUSE = 9 ∧ s.knState = knError then (s0.wr R.BOOT_STAT_PHASE 4).wr R.BOOT_STAT_ERR 2
    else if s.rd R.BOOT_STAT_MODE % 2 = 1 then s0.recover 3 0
    else
      let h := s.header.getD ⟨0, 0, false, 0⟩
      if h.trial ∧ 0 < h.tries then (s0.writeBootHdr h.pref true (h.tries - 1)).tryImages (some h.pref) imgs [h.pref, 1 - h.pref]
      else if h.trial then ((s0.writeBootHdr (1 - h.pref) false 0).wr R.BOOT_STAT_FALLBACK 1).tryImages none imgs [1 - h.pref, h.pref]
      else s0.tryImages none imgs [h.pref, 1 - h.pref]

/-! ### Bring-up (R548 to R550) -/

/-- The SVC_CFG payload (R490). -/
def svcOctets (c : SvcConfig) : List Octet :=
  [c.speed, c.flags] ++ le 2 c.mtu.toNat ++ le 4 c.ip4.toNat ++ [c.pfx4] ++ le 3 0 ++ le 4 c.gw4.toNat ++ le 16 c.ip6.toNat
    ++ [c.pfx6] ++ le 3 0 ++ le 16 c.gw6.toNat ++ le 2 c.port.toNat ++ le 2 0

/-- A configuration from its payload. -/
def svcOf (l : List Octet) : SvcConfig :=
  { speed := BitVec.ofNat 8 (octNum l 0 1), flags := BitVec.ofNat 8 (octNum l 1 1), mtu := BitVec.ofNat 16 (octNum l 2 2)
    ip4 := BitVec.ofNat 32 (octNum l 4 4), pfx4 := BitVec.ofNat 8 (octNum l 8 1), gw4 := BitVec.ofNat 32 (octNum l 12 4)
    ip6 := BitVec.ofNat 128 (octNum l 16 16), pfx6 := BitVec.ofNat 8 (octNum l 32 1), gw6 := BitVec.ofNat 128 (octNum l 36 16)
    port := BitVec.ofNat 16 (octNum l 52 2) }

/-- A BOOT item of the flash configuration journal. -/
def State.bootItem (s : State) (key : Nat) : Option (List Octet) :=
  (mget (fun _ => none) s.jrn.items key).bind (fun x => if x.1 % 2 = 1 then some x.2 else none)

/-- A domain is turned on, unless it is on or in a transition. -/
def State.bringOn (s : State) (e : TransitionEnd) (d : Nat) : State :=
  if s.rd (R.PD_STAT_STATE d) = 2 ∨ s.bit (R.PD_STAT_BUSY d) then s else (s.pwrStart d ⟨2, 0, none⟩).pwrDone d e

/-- READY, BERTIA_VER and event 0x0001 (R482, R494). -/
def State.ready (s : State) : State :=
  let s1 := ((s.wr R.BOOT_STAT_PHASE 2).wr R.MBX_GSTAT_READY 1).wrW R.BERTIA_VER (bertiaMajor * 2 ^ 24)
  (s1.hostEvent 0x0001 0 (le 4 (s.rdW R.FW_VER))).reportDue

/-- Step 6: FP_ASYM and SVC from their items; DDR was read at step 3. -/
def State.bootItems (s : State) : State :=
  let s1 := (List.range 8).foldl (fun t p => match s.bootItem (0x00010010 + p) with
    | some v => t.wrW (R.FP_ASYM p) (unLe v)
    | none => t) s
  match s.bootItem 0x00010002 with
  | some v => s1.onHost (fun z => { z with svc := svcOf v })
  | none => s1

/-- Step 8: the autostart item. -/
def State.autostart (s : State) : State :=
  match s.bootItem 0x00010001 with
  | none => s
  | some v =>
    let bit (k i : Nat) : Bool := octNum v k 2 / 2 ^ i % 2 == 1
    let s1 := (List.range 8).foldl (fun t p => if bit 0 p then t.fpEnable p true else t) s
    let s2 := (List.range 16).foldl (fun t p => if bit 1 p then t.spEnable p true else t) s1
    let s3 := if bit 3 0 then (match s2.jrnStart with
      | .now _ _ t => t
      | .later t => t) else s2
    if bit 3 1 then s3.beatRunStart (s3.word R.BEAT_CTRL ||| 0x80000000) else s3

/-- Step 4: the clusters in turn, with their speed tables, 21 points for each. -/
def State.bringClusters (s : State) (table : List (BitVec 16)) (tj : Nat) : State :=
  (List.range 64).foldl (fun t c =>
    (t.bringOn .plain (domCluster c)).speedMeasured c (((table.drop (21 * c)).take 21).map (·.toNat)) tj) s

/-- BRING_UP (R548). -/
def State.bringUp (s : State) (b : BringUp) : State :=
  if !s.domOn domSteward || s.boot.rom || s.rd R.BOOT_STAT_PHASE != 1 || s.bit R.BOOT_STAT_BRINGUP then s
  else
    let s1 := match s.pwrDpl 1 with
      | .now _ _ t => t
      | .later t => t
    let s2 := [domContext, domQueue].foldl (fun (t : State) d => t.bringOn .plain d) s1
    let rate (k : Nat) : Bool := octNum ((s.bootItem 0x00010003).getD []) k 1 != 1
    let ddr5 : BitVec 4 := BitVec.ofNat 4 ((List.range 4).foldl (fun a k => if rate k then a + 2 ^ k else a) 0)
    let s3 := (s2.bringOn (.ddr b.trained b.gib ddr5) domMem).bringClusters b.table b.tj.toNat
    let s4 := ([domStore] ++ (List.range 4).map (16 + ·) ++ (List.range 8).map (8 + ·)).foldl (fun (t : State) d => t.bringOn .plain d) s3
    let s5 := (s4.bootItems.wr R.BOOT_STAT_BRINGUP 1).wr R.BOOT_TIME_READY b.ms.toNat
    let s6 := s5.ready
    if s6.rd R.BOOT_STAT_MODE = 2 then s6 else s6.autostart

/-- STEWARD_RESTART (R550): no domain, port, beat or commit state changes; the tables are rebuilt from the blocks, so the
node's record goes out and the routes are computed anew (R364). -/
def State.stewardRestart (s : State) : State :=
  if !s.domOn domSteward || s.boot.rom || s.rd R.BOOT_STAT_PHASE != 1 || !s.bit R.BOOT_STAT_BRINGUP then s
  else
    let s1 := s.ready
    (if fabPorts.any s1.fpLive then s1.issueRecord else s1).jrnRun

/-! ### Firmware commands (R553) -/

/-- The slot of a number: its image as last seen. -/
def State.slotImg (s : State) (k : Nat) : Option SlotImage := if k = 0 then s.boot.slotA else s.boot.slotB

/-- FW_STATUS. -/
def State.fwStatus (s : State) : List Octet :=
  let slot (k : Nat) : List Octet := match s.slotImg k with
    | some i => le 1 i.svn.toNat ++ le 3 0 ++ le 4 i.version.toNat
    | none => le 8 0
  let h := s.header.getD ⟨0, 0, false, 0⟩
  le 4 (s.rdW R.BOOT_STAT) ++ le 4 (s.rdW R.RST_CAUSE) ++ le 4 (s.rdW R.BOOT_SLOTS) ++ slot 0 ++ slot 1 ++ le 4 h.seq
    ++ le 1 h.pref ++ le 1 (if h.trial then 1 else 0) ++ le 1 h.tries ++ le 1 0 ++ le 1 (s.counter 0) ++ le 1 (s.counter 1) ++ le 2 0

/-- FW_WRITE: offset 0 erases the slot; a later write starts where the last ended. The image in it is then what IMAGE_HANDOFF
or FW_ACTIVATE finds. -/
def State.fwWrite (s : State) (slot off : Nat) (data : List Octet) : Reply :=
  if 2 ≤ slot ∨ data.isEmpty ∨ 65536 < data.length ∨ 1048576 < off + data.length then .now stBadParam [] s
  else if s.rd R.BOOT_STAT_SLOT = slot then .now stDenied [] s
  else
    let old := mget (fun _ => none) s.boot.flash slot
    let base := if off = 0 then some [] else old
    match base with
    | none => .now stBadParam [] s
    | some l =>
      if l.length ≠ off then .now stBadParam [] s
      else .now stOk [] (s.onBoot (fun z => { z with
        flash := mset (fun _ => none) z.flash slot (some (l ++ data))
        slotA := if slot = 0 then none else z.slotA
        slotB := if slot = 1 then none else z.slotB }))

/-- FW_ACTIVATE. -/
def State.fwActivate (s : State) (slot tries : Nat) (img : SlotImage) : Reply :=
  if 2 ≤ slot ∨ tries = 0 ∨ 15 < tries ∨ s.slotResult 0 img ≠ 1 then .now stBadParam [] s
  else
    let s1 := s.onBoot (fun z => if slot = 0 then { z with slotA := some img } else { z with slotB := some img })
    .now stOk [] (s1.writeBootHdr slot true tries)

/-- FW_CONFIRM: the running slot leaves its trial. -/
def State.fwConfirm (s : State) : Reply :=
  if !s.bit R.BOOT_STAT_TRIAL then .now stBadState [] s
  else .now stOk [] ((s.writeBootHdr (s.rd R.BOOT_STAT_SLOT) false 0).wr R.BOOT_STAT_TRIAL 0)

/-- FW_COMMIT: a counter never goes back. -/
def State.fwCommit (s : State) (flags : Nat) : Reply :=
  if 1 < flags then .now stBadParam [] s
  else if s.bit R.BOOT_STAT_TRIAL ∨ !s.knLive then .now stBadState [] s
  else
    let up (k : Nat) (t : State) : State :=
      t.onKn (fun z => { z with counters := mset (fun _ => 0) z.counters k (max (t.counter k) (t.rd R.BOOT_STAT_SVN)) })
    let s1 := if flags = 1 then up 1 (up 0 s) else up 0 s
    .now stOk (le 1 (s1.counter 0) ++ le 1 (s1.counter 1) ++ le 2 0) s1

/-- FW_LOAD_RAM (R547): in RECOVERY, against counter 1. -/
def State.fwLoadRam (s : State) (img : SlotImage) : Reply :=
  if !s.boot.recovery then .now stBadState [] s
  else if s.slotResult 1 img ≠ 1 then .now stBadParam [] s
  else .now stOk [] (s.startImage 2 img false)

/-! ### The whistle's commands (R518 to R522, R536) -/

/-- WHISTLE_N falls through its filter: in IN, and in BOTH outside the time this device quiets (R522). -/
def State.whistlePinFall (s : State) : State :=
  let m := s.rd R.WH_CTRL_PIN_MODE
  if m = 1 ∨ (m = 3 ∧ s.wh.pinQuiet ≤ s.time) then s.whRequest ⟨3, 0xFE00, 0, none, s.time, none⟩ else s

/-- R521, R528: the oldest image's copy-out completes. While the beat is stopped a latch that waits for a free image
follows at once. -/
def State.copyOut (s : State) : State :=
  match s.wh.images with
  | [] => s
  | i :: r =>
    let s1 := s.onWh (fun z => { z with images := r, latest := some i })
    let s2 := if s.bit R.WH_CTRL_FREEZE then (s1.inc R.WH_MISSED_V).set1 R.WH_EVT_MISSED else s1.onWh (fun z => { z with window := some i })
    if s2.bit R.BEAT_STAT_RUNNING then s2 else s2.whStopped

/-- WH_PACK: broadcast and arm. -/
def State.whPack (s : State) (tag : BitVec 16) (target : BitVec 48) : Reply :=
  let ahead := (target - s.beat.num).toNat
  if !s.aligned then .now stBadState [] s
  else if ahead < 2 ∨ 2 ^ 47 ≤ ahead then .now stBadParam [] s
  else .now stOk [] ((s.sendTo 2 0xFFFF (.ctrl (.whistle tag target))).whistleIn tag target)

/-- WH_READ: words of the latest image; 0 beyond it. -/
def State.whRead (s : State) (first count : Nat) : Reply :=
  if count = 0 ∨ 8192 < count then .now stBadParam [] s
  else match s.wh.latest with
    | none => .now stBadState [] s
    | some i => .now stOk (le 4 i.seq ++ ((List.range count).map (fun k => le 4 (i.words.getD (first + k) 0))).flatten) s

/-! ### The rows -/

/-- WH_FIRE_WRITE (R518). -/
def execWhFireWrite (v : Reg32) (s : State) : Host.Outcome State Fault Refusal :=
  done (s.whRequest ⟨0, v.setWidth 16, 0, none, s.time, none⟩)

/-- WHISTLE_N_FALL (R522). -/
def execWhistleNFall (s : State) : Host.Outcome State Fault Refusal := done s.whistlePinFall

/-- WH_COPYOUT_DONE (R521). -/
def execWhCopyoutDone (s : State) : Host.Outcome State Fault Refusal := done s.copyOut

/-- WH_BEAT_LO_READ (R528): the read latches WH_BEAT_HI. -/
def execWhBeatLoRead (s : State) : Host.Outcome State Fault Refusal :=
  done ((s.wrW R.WH_BEAT_HI s.wh.beatHi).emit (.readData R.WH_BEAT_LO (s.rdW R.WH_BEAT_LO)))

/-- WH_FIRE (R518, R536): completes after the latch. -/
def execWhFire (h : BHdr) (tag : BitVec 16) (s : State) : Host.Outcome State Fault Refusal :=
  bertiaRow h { len := 4, maxData := 12 } (fun t => .later (t.whRequest ⟨1, tag, 0, none, t.time, some h.ch.toNat⟩)) s

/-- WH_PACK (R388, R536). -/
def execWhPack (h : BHdr) (tag : BitVec 16) (target : BitVec 48) (s : State) : Host.Outcome State Fault Refusal :=
  bertiaRow h { len := 12 } (·.whPack tag target) s

/-- WH_READ (R536). -/
def execWhRead (h : BHdr) (first count : BitVec 16) (s : State) : Host.Outcome State Fault Refusal :=
  bertiaRow h { len := 4, maxData := 4 + 4 * count.toNat } (·.whRead first.toNat count.toNat) s

/-- POWER_ON_RESET (R538, R540). -/
def execPowerOnReset (mode : BitVec 2) (node : BitVec 12) (s : State) : Host.Outcome State Fault Refusal :=
  done (s.deviceReset true R.RST_CAUSE_POR mode node)

/-- DEVICE_RESET (R538): RESET_N. -/
def execDeviceReset (mode : BitVec 2) (node : BitVec 12) (s : State) : Host.Outcome State Fault Refusal :=
  done (s.deviceReset false R.RST_CAUSE_PIN mode node)

/-- RST_CTRL_DEVICE (R551): the word written has DEVICE = 1. -/
def execRstCtrlDevice (v : Reg32) (s : State) : Host.Outcome State Fault Refusal := doneIf (v.getLsbD 0) (s.rstWrite v)

/-- RST_CTRL_STEWARD (R551): the word written has STEWARD = 1. -/
def execRstCtrlSteward (v : Reg32) (s : State) : Host.Outcome State Fault Refusal := doneIf (v.getLsbD 1) (s.rstWrite v)

/-- RST_CTRL_KENNEL (R551): the word written has KENNEL = 1. -/
def execRstCtrlKennel (v : Reg32) (s : State) : Host.Outcome State Fault Refusal := doneIf (v.getLsbD 2) (s.rstWrite v)

/-- R546, R551: the steward writes STEW_WDT. -/
def State.wdtWrite (s : State) (v : Reg32) : State :=
  let s1 := (s.wb R.STEW_WDT_EN (v.getLsbD 31)).wr R.STEW_WDT_TIMEOUT (v.toNat % 65536)
  if v.getLsbD 30 then s1.onBoot (fun z => { z with wdt := s.time }) else s1

/-- STEW_WDT_KICK (R546): the word the steward writes has KICK = 1. -/
def execStewWdtKick (v : Reg32) (s : State) : Host.Outcome State Fault Refusal := doneIf (v.getLsbD 30) (s.wdtWrite v)

/-- STEW_WDT_EXPIRE (R546). -/
def execStewWdtExpire (s : State) : Host.Outcome State Fault Refusal :=
  doneP (if s.bit R.STEW_WDT_EN then s.stewardBy R.RST_CAUSE_STEW_WDT else s)

/-- LOCKUP_AUTO_RESET (R538). -/
def execLockupAutoReset (s : State) : Host.Outcome State Fault Refusal :=
  doneP (if s.bit R.LOCKUP_CTRL_AUTO ∧ (s.core 1024).run = .locked then s.stewardBy R.RST_CAUSE_STEW_LOCK else s)

/-- KENNEL_LOCKUP_RESET (R247, R538): by the steward. -/
def execKennelLockupReset (s : State) : Host.Outcome State Fault Refusal :=
  done (if s.stewardRuns ∧ s.knState = knLocked then s.kennelReset R.RST_CAUSE_KEN_LOCK else s)

/-- IMAGE_HANDOFF (R545). -/
def execImageHandoff (a b : SlotImage) (s : State) : Host.Outcome State Fault Refusal := done (s.handOff a b)

/-- BRING_UP (R548): 21 points of speed for each of the 64 clusters. -/
def execBringUp (b : BringUp) (s : State) : Host.Outcome State Fault Refusal :=
  if b.table.length = 1344 ∧ b.gib.length = 4 then doneP (s.bringUp b) else .fault .illFormed

/-- STEWARD_RESTART (R550). -/
def execStewardRestart (s : State) : Host.Outcome State Fault Refusal := doneP s.stewardRestart

/-- FW_STATUS (R553). -/
def execFwStatus (h : BHdr) (s : State) : Host.Outcome State Fault Refusal :=
  bertiaRow h { len := 0, maxData := 40, rom := true } (fun t => .now stOk t.fwStatus t) s

/-- FW_WRITE (R553). -/
def execFwWrite (h : BHdr) (slot : Octet) (off : Reg32) (data : List Octet) (s : State) : Host.Outcome State Fault Refusal :=
  bertiaRow h { len := 12 + data.length, co := true } (·.fwWrite slot.toNat off.toNat data) s

/-- FW_ACTIVATE (R553). -/
def execFwActivate (h : BHdr) (slot tries : Octet) (img : SlotImage) (s : State) : Host.Outcome State Fault Refusal :=
  bertiaRow h { len := 4, co := true } (·.fwActivate slot.toNat tries.toNat img) s

/-- FW_CONFIRM (R553). -/
def execFwConfirm (h : BHdr) (s : State) : Host.Outcome State Fault Refusal := bertiaRow h { len := 0 } (·.fwConfirm) s

/-- FW_COMMIT (R553). -/
def execFwCommit (h : BHdr) (flags : Octet) (s : State) : Host.Outcome State Fault Refusal :=
  bertiaRow h { len := 4, maxData := 4, co := true } (·.fwCommit flags.toNat) s

/-- FW_LOAD_RAM (R547, R553): a whole slot image of 512 octets and the body, IND = 1. -/
def execFwLoadRam (h : BHdr) (img : SlotImage) (s : State) : Host.Outcome State Fault Refusal :=
  bertiaRow h { len := h.len.toNat, rom := true } (fun t => if !h.ind then .now stBadParam [] t else t.fwLoadRam img) s

/-- DEV_RESET (R553): the completion is written before the device is reset. -/
def execDevReset (h : BHdr) (confirm : Reg32) (s : State) : Host.Outcome State Fault Refusal :=
  bertiaRow h { len := 4, co := true } (fun t =>
    if confirm ≠ 0x44455652 then .now stBadParam [] t
    else .later ((t.complete h.ch.toNat stOk []).deviceReset false R.RST_CAUSE_DEV_SW
      (BitVec.ofNat 2 (t.rd R.BOOT_STAT_MODE)) (BitVec.ofNat 12 (t.rd R.NODE_ADDR_NODE_ID)))) s

end Sys2Proof.Machine
end

