-- ==== Sys2Proof/Machine/Host.lean ====
section
/-! DEFINITION. The host interface (15): mailboxes, events, SVC, export, the PCIe function. -/

namespace Sys2Proof.Machine

open Sys2Proof

/-! ### Mailboxes (R475 to R478) -/

/-- A doorbell: TAIL at or beyond the ring's size halts a mailbox in RUN (R477). -/
def State.doorbellWrite (s : State) (m : Nat) (v : Reg32) : State :=
  let tail := v.toNat % 4096
  let s1 := s.wr (R.MB_DB_TAIL m) tail
  if s.rd (R.MB_STAT_STATE m) = 1 ∧ s.cmdSize m ≤ tail then s1.mbHalt m 1 else s1

/-- Are the ring sizes and bases of mailbox m such that it may start (R477, BAD_SIZE)? -/
def State.ringsOk (s : State) (m : Nat) : Bool :=
  let a := s.rd (R.MB_CTRL_CMD_LOG2 m)
  let b := s.rd (R.MB_CTRL_CPL_LOG2 m)
  decide (4 ≤ a ∧ a ≤ 12 ∧ 4 ≤ b ∧ b ≤ 12) && s.rdW (R.MB_CMD_LO m) % 128 == 0 && s.rdW (R.MB_CPL_LO m) % 64 == 0

/-- EN = 1 in OFF starts the mailbox, or halts it with BAD_SIZE; EN = 0 in RUN stops it after the command in progress. -/
def State.mbEnable (s : State) (m : Nat) (v : Reg32) : State :=
  let on := v.getLsbD 31
  let s1 := if s.bit (R.MB_CTRL_EN m) then s
    else (s.wr (R.MB_CTRL_CMD_LOG2 m) (fieldOf v (R.MB_CTRL_CMD_LOG2 m))).wr (R.MB_CTRL_CPL_LOG2 m) (fieldOf v (R.MB_CTRL_CPL_LOG2 m))
  let s2 := s1.wb (R.MB_CTRL_EN m) on
  let st := s.rd (R.MB_STAT_STATE m)
  if on ∧ st = 0 then
    (if s2.ringsOk m then (s2.wr (R.MB_STAT_STATE m) 1).setChan m { s2.chan m with phase := true } else s2.mbHalt m 4)
  else if !on ∧ st = 1 ∧ (s.chan m).busy.isNone then s2.wr (R.MB_STAT_STATE m) 0
  else s2

/-- RESET: held commands are gone, a command in progress runs to its end unseen (R464, R478). -/
def State.mbReset (s : State) (m : Nat) : State :=
  let s1 := (s.wr (R.MB_STAT_STATE m) 3).chanReset m false
  if (s1.chan m).busy.isNone then s1.mbOff m else s1

/-! ### Events (R482, R492) -/

/-- The 48 octets of an event. -/
def Event.octets (e : Event) : List Octet := le 2 e.code ++ le 2 0 ++ le 6 e.beat.toNat ++ le 2 0 ++ e.arg

/-- STATUS of an event entry (R479). -/
def stEvent : Nat := 0x0002

/-- The oldest held event goes to the subscribed mailbox where its ring has room, or to an SVC channel as a reply with SEQ 0 (R492);
ok says that the steward's DMA succeeds, or that the datagram leaves. -/
def State.eventOut (s : State) (d : EventDest) (ok : Bool) : State :=
  match d with
  | .mailbox =>
    match s.host.evtMbx, s.host.events with
    | some m, e :: r =>
      if !s.stewardUp || !s.domOn domHost || !s.dmaUp || s.rd (R.MB_STAT_STATE m) != 1 || s.cplFull m then s
      else if !ok then s.mbHalt m 2
      else
        ((s.ringEntry m 0xFFFF stEvent 48 0xFFFF false s.host.lost e.octets).set1 (R.MB_EVT_EVENT m)).onHost
          (fun z => { z with events := r, lost := false })
    | _, _ => s
  | .svc k =>
    let ch := 16 + k.toNat
    let c := s.chan ch
    match c.events with
    | e :: r =>
      if !s.stewardUp || !ok || !s.bit R.SVC_STAT_LINK then s
      else (s.setChan ch { c with events := r, lost := false }).svcSend (c.src.getD 0) ((c.sess.map (·.id)).getD 0) 0 0xFFFF stEvent e.octets
    | [] => s

/-- EVT_SUBSCRIBE: the mailbox that last subscribed takes the events held that its mask names; mask 0 unsubscribes. -/
def State.subscribe (s : State) (ch : Nat) (mask : Reg32) : State :=
  let c := s.chan ch
  let keep (e : Event) : Bool := mask.getLsbD e.cls
  if 16 ≤ ch then s.setChan ch { c with mask := mask, events := c.events.filter keep }
  else if mask = 0 then (s.setChan ch { c with mask := 0 }).unsubscribe ch
  else
    let s1 := (s.setChan ch { c with mask := mask }).onHost (fun z => { z with evtMbx := some ch, events := z.events.filter keep })
    (s1.wr R.MBX_GSTAT_EVT_ON 1).wr R.MBX_GSTAT_EVT_MBX ch

/-! ### Device commands (R485) -/

/-- DEV_INFO. -/
def State.devInfo (s : State) : List Octet :=
  le 4 (s.rdW R.FW_VER) ++ le 1 (s.rd R.BOOT_STAT_SLOT) ++ le 3 0 ++ le 4 (s.rdW R.BERTIA_VER) ++ le 8 Config.serial.toNat
    ++ le 4 (s.rdW R.DEV_STEP) ++ le 4 (s.rdW R.FAM_CFG0) ++ le 4 (s.rdW R.FAM_CFG1) ++ le 4 (s.rdW R.KN_VER)

/-- SVC_CFG (R490): kept as a BOOT item. -/
def State.svcCfg (s : State) (c : SvcConfig) : Reply :=
  if 2 < c.speed.toNat ∨ 3 < c.flags.toNat ∨ c.mtu.toNat < 1500 ∨ 9000 < c.mtu.toNat ∨ 32 < c.pfx4.toNat ∨ 128 < c.pfx6.toNat then
    .now stBadParam [] s
  else (s.onHost (fun z => { z with svc := c })).cfgPut 0x00010002 1 (svcOctets c)

/-- Octets of an export datagram with its IP and UDP headers (R491, R493). -/
def exportSize (e : ExportEntry) (c : CtxCfg) : Nat :=
  let bits := e.k.toNat * c.spb * (if c.store = 2 then 40 else 20)
  36 + 5 * e.k.toNat + (bits + 7) / 8 + (if e.ip6 then 48 else 28)

/-- Does the MTU allow an entry's datagram under the configuration in force? -/
def State.exportFits (s : State) (e : ExportEntry) : Bool := decide (exportSize e (s.cfg e.ctx.toNat) ≤ s.host.svc.mtu.toNat)

/-- SVC_EXPORT: the table is replaced at the next edge. -/
def State.svcExport (s : State) (es : List ExportEntry) : Reply :=
  if 64 < es.length ∨ es.any (fun e => decide (262144 ≤ e.ctx.toNat ∨ e.k = 0 ∨ 4096 < e.k.toNat) || !s.exportFits e) then .now stBadParam [] s
  else .now stOk [] (s.onHost (fun z => { z with exportsNext := some es }))

/-- SVC_STATUS: per channel its peer's address and port, 0 for none. -/
def State.svcStatus (s : State) : List Octet :=
  le 4 (s.rdW R.SVC_STAT) ++ le 4 (s.rdW R.SVC_DROP) ++ ((List.range 4).map (fun k => le 18 ((s.chan (16 + k)).src.getD 0))).flatten

/-- R493: the datagram of an export entry falls due once the last of its k slots is readable; one whose slots are gone, or
that cannot be sent, is dropped and counted. Its sequence number counts every datagram due. -/
def State.exportDue (s : State) (i : Nat) (sent : Bool) : State :=
  match s.host.exports[i]? with
  | none => s
  | some (e, seq, first) =>
    let c := s.cfg e.ctx.toNat
    let k := e.k.toNat
    let beat (j : Nat) : BitVec 48 := BitVec.ofNat 48 (first + j)
    let hdr (j : Nat) : Long := s.long (c.slotAt (beat j))
    let ready := (hdr (k - 1)).getLsbD 0 && bitsOf (hdr (k - 1)) 16 24 == (first + k - 1) % 16777216
    let age := (s.beat.num - beat (k - 1)).toNat
    let gone := decide (c.depth ≤ age ∧ age < 2 ^ 47)
    if !s.stewardRuns || !c.on || !s.ownerOn c || (!ready && !gone) then s
    else
      let s1 := ((List.range k).foldl (fun t j => t.scan (c.slotAt (beat j)) c.slot) s).onHost
        (fun z => { z with exports := listSet z.exports i (e, seq + 1, first + k) })
      if gone || !sent || !s.exportFits e || !s.bit R.SVC_STAT_LINK then s1.inc R.SVC_DROP_V
      else s1.emit (.datagram e.ip6 e.addr.toNat e.port.toNat (le 4 0x53564558 ++ le 8 Config.serial.toNat ++ le 2 s.ownAddr ++ le 4 e.ctx.toNat
        ++ le 6 (beat 0).toNat ++ le 2 k ++ le 2 c.spb ++ le 1 (c.fmt * 4 + c.store) ++ le 3 0 ++ le 4 seq
        ++ ((List.range k).map (fun j => leLong (hdr j))).flatten
        ++ packElems c.store ((List.range k).map (fun j => s.slotElems c (c.slotAt (beat j)))).flatten))

/-! ### SVC datagrams (R489, R491) -/

/-- Opcodes the chapters define (R484). -/
def opcodeKnown (op : Nat) : Bool :=
  [(0x0101, 0x0108), (0x0110, 0x0116), (0x0201, 0x020A), (0x0301, 0x0305), (0x0401, 0x040A), (0x0501, 0x0510), (0x0601, 0x0610),
    (0x0701, 0x0705), (0x0801, 0x0805), (0x0901, 0x0909), (0x0A01, 0x0A06)].any (fun r => decide (r.1 ≤ op ∧ op ≤ r.2))

/-- Opcodes that need no session on SVC (R481). -/
def opcodeOpen (op : Nat) : Bool := [0x0101, 0x0102, 0x0601, 0x0602, 0x0603, 0x0604].contains op

/-- The channel of a source: its own, else the lowest free one. -/
def State.svcChannel (s : State) (src : Nat) : Option Nat :=
  match [16, 17, 18, 19].find? (fun ch => (s.chan ch).src = some src) with
  | some ch => some ch
  | none => [16, 17, 18, 19].find? (fun ch => (s.chan ch).src = none)

/-- A command datagram: it waits on its channel as a command, is answered at once, or is dropped. -/
def State.svcDatagram (s : State) (d : SvcDatagram) : State :=
  if !s.stewardUp || !s.bit R.SVC_STAT_LINK || !d.magicOk then s
  else match s.svcChannel d.src with
  | none => s.svcSend d.src d.session.toNat d.seq.toNat d.tag.toNat stNoSpace []
  | some ch =>
    let s1 := s.setChan ch { s.chan ch with src := some d.src }
    let c := s1.chan ch
    let answer (t : State) (st : Nat) : State := t.svcSend d.src d.session.toNat d.seq.toNat d.tag.toNat st []
    let accept (t : State) : State :=
      if !opcodeKnown d.opcode.toNat then answer t stBadOpcode
      else t.setChan ch { t.chan ch with held := (t.chan ch).held ++ [(d.seq.toNat, d.session.toNat)] }
    if d.session = 0 then (if opcodeOpen d.opcode.toNat ∨ !opcodeKnown d.opcode.toNat then accept s1 else answer s1 stDenied)
    else match c.sess with
      | none => answer s1 stDenied
      | some x =>
        if x.id ≠ d.session.toNat then answer s1 stDenied
        else if d.seq.toNat ≤ c.seq then s1.inc R.SVC_DROP_V
        else if !d.sigOk then answer (s1.set1 R.SVC_EVT_AUTHFAIL) stDenied
        else accept (s1.setChan ch { c with seq := d.seq.toNat })

/-- A channel on which no session opened within 60 s is released (R489). -/
def State.svcRelease (s : State) (k : Nat) : State :=
  let c := s.chan (16 + k)
  if c.src.isNone ∨ c.sess.isSome then s else s.setChan (16 + k) { busy := c.busy }

/-! ### The PCIe function and the links -/

/-- A function-level or hot reset while HOST is on (R497). -/
def State.hostResetBy (s : State) (evt cause : Fld) : State :=
  if s.domOn domHost then ((s.hostReset).set1 evt).set1 cause else s

/-- A change of the endpoint (R465, R466, R494). -/
def State.pcieChange (s : State) : PcieChange → State
  | .linkUp => s.onHost (fun z => { z with linkUp := true })
  | .linkDown => (s.onHost (fun z => { z with linkUp := false })).set1 R.PCIE_EVT_LINKDN
  | .d3hot => s.onHost (fun z => { z with d3hot := true })
  | .d0 => s.onHost (fun z => { z with d3hot := false })
  | .aerUncorrectable => s.set1 R.PCIE_EVT_AER_UNC

/-- The SVC link comes up or goes down. -/
def State.svcLink (s : State) (up : Bool) (speed : Nat) : State :=
  if s.bit R.SVC_STAT_LINK = up then s
  else if up then ((s.wr R.SVC_STAT_LINK 1).wr R.SVC_STAT_SPEED speed).set1 R.SVC_EVT_LINKUP
  else (s.wr R.SVC_STAT_LINK 0).set1 R.SVC_EVT_LINKDN

/-! ### The rows -/

/-- MB_DB_WRITE (R475, R477). -/
def execMbDbWrite (m : BitVec 4) (v : Reg32) (s : State) : Host.Outcome State Fault Refusal := done (s.doorbellWrite m.toNat v)

/-- MB_CTRL_EN (R478): the word written has RESET = 0. -/
def execMbCtrlEn (m : BitVec 4) (v : Reg32) (s : State) : Host.Outcome State Fault Refusal := doneIf (!v.getLsbD 30) (s.mbEnable m.toNat v)

/-- MB_CTRL_RESET (R478). -/
def execMbCtrlReset (m : BitVec 4) (s : State) : Host.Outcome State Fault Refusal := done (s.mbReset m.toNat)

/-- MB_CPL_HEAD_WRITE (R476). -/
def execMbCplHeadWrite (m : BitVec 4) (v : Reg32) (s : State) : Host.Outcome State Fault Refusal :=
  done (s.wr (R.MB_CPL_HEAD_V m.toNat) (v.toNat % 4096))

/-- EVENT_DELIVER (R482, R492). -/
def execEventDeliver (d : EventDest) (ok : Bool) (s : State) : Host.Outcome State Fault Refusal := done (s.eventOut d ok)

/-- FUNCTION_LEVEL_RESET (R497). -/
def execFunctionLevelReset (s : State) : Host.Outcome State Fault Refusal := done (s.hostResetBy R.PCIE_EVT_FLR R.RST_CAUSE_FLR)

/-- HOT_RESET (R497). -/
def execHotReset (s : State) : Host.Outcome State Fault Refusal := done (s.hostResetBy R.PCIE_EVT_HOTRST R.RST_CAUSE_HOT)

/-- SVC_DATAGRAM (R491): the command itself is its own row on the channel. -/
def execSvcDatagram (d : SvcDatagram) (s : State) : Host.Outcome State Fault Refusal := done (s.svcDatagram d)

/-- SVC_CHANNEL_RELEASE (R489). -/
def execSvcChannelRelease (ch : BitVec 2) (s : State) : Host.Outcome State Fault Refusal := done (s.svcRelease ch.toNat)

/-- EXPORT_DATAGRAM (R493). -/
def execExportDatagram (entry : BitVec 6) (sent : Bool) (s : State) : Host.Outcome State Fault Refusal := done (s.exportDue entry.toNat sent)

/-- NOP_COMMAND (R485). -/
def execNopCommand (h : BHdr) (s : State) : Host.Outcome State Fault Refusal :=
  bertiaRow h { len := 0, noSession := true } (fun t => .now stOk [] t) s

/-- DEV_INFO (R485). -/
def execDevInfo (h : BHdr) (s : State) : Host.Outcome State Fault Refusal :=
  bertiaRow h { len := 0, maxData := 36, noSession := true, rom := true } (fun t => .now stOk t.devInfo t) s

/-- EVT_SUBSCRIBE (R482, R485). -/
def execEvtSubscribe (h : BHdr) (mask : Reg32) (s : State) : Host.Outcome State Fault Refusal :=
  bertiaRow h { len := 4 } (fun t => .now stOk [] (t.subscribe h.ch.toNat mask)) s

/-- SVC_CFG (R490). -/
def execSvcCfg (h : BHdr) (c : SvcConfig) (s : State) : Host.Outcome State Fault Refusal :=
  bertiaRow h { len := 56 } (·.svcCfg c) s

/-- SVC_EXPORT (R493). -/
def execSvcExport (h : BHdr) (es : List ExportEntry) (s : State) : Host.Outcome State Fault Refusal :=
  bertiaRow h { len := 4 + 28 * es.length } (·.svcExport es) s

/-- SVC_STATUS (R485). -/
def execSvcStatus (h : BHdr) (s : State) : Host.Outcome State Fault Refusal :=
  bertiaRow h { len := 0, maxData := 80 } (fun t => .now stOk t.svcStatus t) s

/-- PCIE_LINK_STATE_CHANGE (R466). -/
def execPcieLinkStateChange (e : PcieChange) (s : State) : Host.Outcome State Fault Refusal := done (s.pcieChange e)

/-- SVC_LINK_CHANGE (R489). -/
def execSvcLinkChange (up : Bool) (speed : BitVec 2) (s : State) : Host.Outcome State Fault Refusal := done (s.svcLink up speed.toNat)

/-- TAP_INSTRUCTION_UPDATE (R535): DEBUG and BYPASS leave the pins; which codes EXTEST, CLAMP and HIGHZ have is open. -/
def execTapInstructionUpdate (ir : BitVec 8) (s : State) : Host.Outcome State Fault Refusal :=
  done (s.onWh (fun z => { z with tapIr := ir, pinsTaken := ir != 0x20 && ir != 0xFF && Config.tapTakesPins ir }))

end Sys2Proof.Machine
end

