-- ==== Sys2Proof/Machine/HostRegs.lean ====
section
/-! DEFINITION. Reads and writes of BAR0 registers by the host and by the steward through its mirror (R5 to R9, R467, R496),
and the host's windows' base registers. -/

namespace Sys2Proof.Machine

open Sys2Proof

/-- Host accesses reach the device: HOST on, the link up, the function in D0 (R466). -/
def State.hostLive (s : State) : Bool := s.domOn domHost && s.dmaUp

/-- May an accessor reach the registers? The steward while its core runs. -/
def State.accessOk (s : State) : Accessor → Bool
  | .host => s.hostLive
  | .steward => s.domOn domSteward && (s.core 1024).takes

/-! ### Reads -/

/-- Reads that latch another register (R32, R272, R425, R459, R528), and the value each returns. -/
def State.latchRead (s : State) (off : Nat) : Option (Nat × State) :=
  let split (n hi : Nat) : Option (Nat × State) := some (n % 4294967296, s.wrW hi (n / 4294967296))
  if off = R.BEAT_NUM_LO then split s.beat.num.toNat R.BEAT_NUM_HI
  else if off = R.WAKE_TS_LO then split s.dev.wakeTs.toNat R.WAKE_TS_HI
  else if off = R.HEAD_LO then split (s.headOf 0) R.HEAD_HI
  else if off = R.SEALED_LO then split (s.sealedHead 0) R.SEALED_HI
  else if off = R.KN_KEYID_LO then
    some (s.rdW off, s.wrW R.KN_KEYID_HI ((if s.word off = 0 then 0 else (Config.keyId s.kn.cur).toNat) / 4294967296))
  else if off = R.WH_BEAT_LO then some (s.rdW off, s.wrW R.WH_BEAT_HI s.wh.beatHi)
  else none

/-- A read of the word at off: its value; RC fields then return to their Reset values, which for a lowest value is the one
its description names (R5, R54). -/
def State.regRead (s : State) (off : Nat) : Nat × State :=
  match s.latchRead off with
  | some x => x
  | none =>
    let m := accMask off .rc
    ((s.readWord off).toNat, if m = 0 then s else s.setWord off ((s.word off &&& ~~~m) ||| (wordReset off &&& m)))

/-! ### Writes -/

/-- RW bits take the value, W1C bits written 1 clear; STG bits take it as their staged value, but while a commit is
pending the write is ignored there (R5, R47). -/
def State.plainWrite (s : State) (off : Nat) (v : Reg32) : State :=
  let stg := accMask off .stg
  let hold := s.pendingCommit && stg != 0
  let rw := accMask off .rw ||| (if hold then 0 else stg)
  let w := s.word off
  let s1 := s.setWord off (((w &&& ~~~rw) ||| (v &&& rw)) &&& ~~~(v &&& accMask off .w1c))
  if hold then s1.ignoredWrite else s1

/-- MB_CTRL, the ring bases and the ring indexes of mailbox m (R478, R494); bases keep their low bits, which EN tests. -/
def State.mbWrite (s : State) (m k : Nat) (v : Reg32) : State :=
  let off := 0x400 + 0x40 * m + k
  if k = 0 then (if v.getLsbD 30 then s.mbReset m else s.mbEnable m v)
  else if k = 0x14 then s.doorbellWrite m v
  else if 4 ≤ k ∧ k ≤ 0x10 then (if s.bit (R.MB_CTRL_EN m) then s else s.setWord off v)
  else s.plainWrite off v

/-- DRV_ABORT_CTRL (R92, R94): a latch event written with REARM comes after it. -/
def State.abortWrite (s : State) (v : Reg32) : State :=
  let s1 := s.plainWrite R.DRV_ABORT_CTRL (v &&& 0x00FFFFFF)
  let s2 := if v.getLsbD 31 then s1.abortRearm else s1
  if v.getLsbD 30 then s2.abortEvent true else s2

/-- TR_CTRL: without VL0_EN every held frame is dropped (R381). -/
def State.trCtrlWrite (s : State) (v : Reg32) : State :=
  let s1 := s.plainWrite R.TR_CTRL v
  if s1.bit R.TR_CTRL_VL0_EN then s1 else s1.dropHeld (fun _ => true)

/-- A write of the word at off, wherever it has an effect of its own. -/
def State.regEffect (s : State) (who : Accessor) (off : Nat) (v : Reg32) : State :=
  if 0x400 ≤ off ∧ off < 0x800 then s.mbWrite ((off - 0x400) / 0x40) ((off - 0x400) % 0x40) v
  else if off = R.BEAT_CTRL then (if v.getLsbD 31 then s.beatRunStart v else s.beatRunStop v)
  else if off = R.COMMIT then s.commitWrite v
  else if off = R.TIME_CAP_CTRL then s.timeCapture v
  else if off = R.IRIG_CTRL then (s.irigCtrl (fieldOf v R.IRIG_CTRL_MODE)).plainWrite off v
  else if off = R.DRV_ABORT_CTRL then s.abortWrite v
  else if 0x5100 ≤ off ∧ off < 0x5900 ∧ off % 0x80 = 0 then s.spCtrlWrite ((off - 0x5100) / 0x80) v
  else if 0x1000 ≤ off ∧ off < 0x1400 ∧ off % 16 = 12 then s.msixWrite (.vctrl (BitVec.ofNat 6 ((off - 0x1000) / 16)) v)
  else if 0x1710 ≤ off ∧ off < 0x1720 then s.onDev (fun z => { z with edge := z.edge &&& ~~~(v.setWidth 128 <<< (8 * (off - 0x1710))) })
  else if 0x6100 ≤ off ∧ off < 0x6500 ∧ off % 0x80 = 0 then
    (s.plainWrite off ((v &&& 0x7FFFFFFF) ||| (s.word off &&& 0x80000000))).fpEnable ((off - 0x6100) / 0x80) (v.getLsbD 31)
  else if off = R.TR_CTRL then s.trCtrlWrite v
  else if off = R.WH_FIRE then s.whRequest ⟨0, v.setWidth 16, 0, none, s.time, none⟩
  else if off = R.RST_CTRL then s.rstWrite v
  else if off = R.STEW_WDT then (match who with
    | .host => s
    | .steward => s.wdtWrite v)
  else s.plainWrite off v

/-- A write of the word at off, and the node's record brought up to date (R349). -/
def State.regWrite (s : State) (who : Accessor) (off : Nat) (v : Reg32) : State := (s.regEffect who off v).packSettle

/-! ### The rows -/

/-- REGISTER_WRITE (R5, R467, R496): a word; a host write whose byte enables are not all set is ignored. -/
def execRegisterWrite (who : Accessor) (off : BitVec 16) (be : BitVec 4) (v : Reg32) (s : State) : Host.Outcome State Fault Refusal :=
  if off.toNat % 4 ≠ 0 then .fault .illFormed
  else doneP (if !s.accessOk who then s
    else if who = .host ∧ be ≠ 0xF then s.set1 R.HOST_ERR_SIZE
    else s.regWrite who off.toNat v)

/-- READ_CLEAR (R5): a read of a word, RC fields or none. -/
def execReadClear (who : Accessor) (off : BitVec 16) (s : State) : Host.Outcome State Fault Refusal :=
  if off.toNat % 4 ≠ 0 then .fault .illFormed
  else done (if !s.accessOk who then s
    else
      let x := s.regRead off.toNat
      x.2.emit (.readData off.toNat x.1))

end Sys2Proof.Machine
end

