-- ==== Sys2Proof/Machine/Bus.lean ====
section
/-! DEFINITION. Register space as cores, the steward and the host's windows reach it (R99, R167, R210, R223, R262, R291,
R333, R353, R496, R530), MEM_READ and MEM_WRITE, BAR2 and BAR4, and the crossing monitor. -/

namespace Sys2Proof.Machine

open Sys2Proof

/-! ### The blocks of register space -/

/-- A block of register space with what the address names in it. -/
inductive Blk where
  | ctx (i l : Nat)
  | queue (o : Nat)
  | cic (c o : Nat)
  | ccb (j o : Nat)
  | mon (n : Nat)
  | red (c o : Nat)
  | route (n : Nat)
  | debug (c h : Nat)
  | bar0 (off : Nat)
  deriving DecidableEq, Repr

/-- The block of a grain address as core i sees it; the long at the even address below is meant. -/
def regBlock (i a : Nat) : Option Blk :=
  let e := a / 2 * 2
  if 0x50000000 ≤ e ∧ e < 0x50800000 then some (.ctx ((e - 0x50000000) / 32) (e % 32 / 2))
  else if 0x60000000 ≤ e ∧ e < 0x60100000 then some (.queue (e - 0x60000000))
  else if 0x70000000 ≤ e ∧ e < 0x70041000 then some (.cic ((e - 0x70000000) / 0x1000) (e % 0x1000))
  else if 0x7007F000 ≤ e ∧ e < 0x7007F080 then some (.ccb i (e - 0x7007F000))
  else if 0x70080000 ≤ e ∧ e < 0x700A0000 then some (.ccb ((e - 0x70080000) / 0x80) (e % 0x80))
  else if 0x70100000 ≤ e ∧ e < 0x70100090 then some (.mon ((e - 0x70100000) / 2))
  else if 0x70200000 ≤ e ∧ e < 0x70240000 then some (.red ((e - 0x70200000) / 0x1000) (e % 0x1000))
  else if 0x70300000 ≤ e ∧ e < 0x70302000 then some (.route ((e - 0x70300000) / 2))
  else if 0x70400000 ≤ e ∧ e < 0x70400100 then some (.debug ((e - 0x70400000) / 4) (e % 4 / 2))
  else if 0x7F000000 ≤ e ∧ e < 0x7F008000 ∧ i = 1024 then some (.bar0 ((e - 0x7F000000) * 2))
  else none

/-- The domain a block needs on (R293, R570). -/
def Blk.dom : Blk → Option Nat
  | .ctx _ _ => some domContext
  | .queue _ => some domQueue
  | .cic c _ => some (domCic c)
  | .ccb j _ => if j < 1024 then some (domCluster (j / 16)) else none
  | .red c _ => some (domCluster c)
  | .debug c _ => some (domCluster c)
  | _ => none

/-- Is a block reached now? -/
def State.blkOn (s : State) (b : Blk) : Bool :=
  match b.dom with
  | some d => s.domOn d
  | none => true

/-! ### Loads -/

/-- Word w of a source vector (R262). -/
def vecWord (v : BitVec 256) (w : Nat) : Long := ((v >>> (32 * w)).setWidth 32 : BitVec 32).setWidth 40

/-- HOLDOFF(g) at pack time t (R263). -/
def HoldOff.word (h : HoldOff) (t : Int) : Long :=
  BitVec.ofNat 40 ((if h.unit then 2 ^ 39 else 0) + h.left t * 2 ^ 16 + h.value.toNat)

/-- MASK, CUR, EOI and OFFER of core k (R262, R263), by their offset. -/
def State.cicCoreLoad (s : State) (c k r : Nat) : Long :=
  if c = 64 ∧ k ≠ 0 then 0
  else if r = 0 then (s.core (cicCore c k)).mask.setWidth 40
  else if r = 2 then
    (match (s.cic c).stack k with
      | [] => 0
      | (p, src) :: l => BitVec.ofNat 40 ((l.length + 1) * 2 ^ 12 + 2 ^ 11 + p * 2 ^ 8 + src))
  else if r = 6 then
    (match s.bestOffer c k with
      | some src => BitVec.ofNat 40 (256 + src)
      | none => 0)
  else 0

/-- A load from CIC c by core i. -/
def State.cicLoad (s : State) (i c o : Nat) : Long × State :=
  let x := s.cic c
  if o < 0x10 then (vecWord x.pend (o / 2), s)
  else if 0x30 ≤ o ∧ o < 0x40 then (vecWord x.en ((o - 0x30) / 2), s)
  else if 0x60 ≤ o ∧ o < 0x70 then (vecWord x.active ((o - 0x60) / 2), s)
  else if o = 0x70 then (if x.stray then 1 else 0, s)
  else if o = 0x72 then (x.strayCnt.setWidth 40, s.setCic c { x with strayCnt := 0 })
  else if 0x100 ≤ o ∧ o < 0x300 then (x.srcCfg ((o - 0x100) / 2), s)
  else if 0x300 ≤ o ∧ o < 0x500 then
    ((x.count ((o - 0x300) / 2)).setWidth 40, s.setCic c { x with cnt := mset (fun _ => 0) x.cnt ((o - 0x300) / 2) 0 })
  else if 0x500 ≤ o ∧ o < 0x520 then ((x.holdOff ((o - 0x500) / 2)).word s.time, s)
  else if 0x600 ≤ o ∧ o < 0x700 then (s.cicCoreLoad c ((o - 0x600) / 16) (o % 16), s)
  else if 0x700 ≤ o ∧ o < 0x708 ∧ i < 1024 ∧ coreCic i = c then (s.cicCoreLoad c (coreNo i) (o - 0x700), s)
  else (0, s)

/-- A load from the queue engine's registers (R291). -/
def State.queueLoad (s : State) (o : Nat) : Long × State :=
  if o < 0x80000 then
    let q := o / 8
    ((if o % 8 = 0 then (s.queue q).cfgWord else if o % 8 = 2 then (s.queue q).irqWord else if o % 8 = 4 then s.qstatWord q else 0), s)
  else if o = 0x80000 then (BitVec.ofNat 40 s.poolFree, s)
  else if o = 0x80002 then (BitVec.ofNat 40 s.qeng.poolMin, s.onQEng (fun z => { z with poolMin := s.poolFree }))
  else if o = 0x80004 then (s.qeng.rsv.setWidth 40, s)
  else if o = 0x80006 then (BitVec.ofNat 40 s.qeng.corr, s.onQEng (fun z => { z with corr := 0 }))
  else if o = 0x80008 then (BitVec.ofNat 40 s.qeng.unc, s.onQEng (fun z => { z with unc := 0 }))
  else if o = 0x8000A then (BitVec.ofNat 40 s.qeng.exh, s.onQEng (fun z => { z with exh := 0 }))
  else if 0x80100 ≤ o ∧ o < 0x80300 then
    let g := (o - 0x80100) / 2
    (BitVec.ofNat 40 (mget (fun _ => 0) s.qeng.grpCorr g), s.onQEng (fun z => { z with grpCorr := mset (fun _ => 0) z.grpCorr g 0 }))
  else (0, s)

/-- CSTAT of core j (R211). -/
def State.cstat (s : State) (j : Nat) : Long :=
  let pin := if j < 1024 then s.pinOf (j / 16) else 0
  let heel := (s.core j).mode.getLsbD mdHEEL
  BitVec.ofNat 40 ((pin - 1) * 8 + (if pin = 0 then 0 else 4) + (if heel then 2 else 0) + (if heel && pin != 0 then 1 else 0))

/-- A load from a core control block (R210, R532). -/
def State.ccbLoad (s : State) (j o : Nat) : Long × State :=
  if o = 0x30 ∨ o = 0x32 ∨ 0x4A ≤ o then (0, s)
  else if o = 0x34 then (s.cstat j, s)
  else if o = 0x3E then ((s.core j).ccbL o, s.onCore j (·.setCcb o 0))
  else ((s.core j).ccbL o, s)

/-- A load from an engine's registers (R333). -/
def State.redLoadReg (s : State) (c o : Nat) : Long × State :=
  if o = 0x000 then (s.reStat c, s)
  else if o = 0x002 then (unitsLong (loadUs (s.loadOf c)), s)
  else if o = 0x004 then (unitsLong (loadUf (s.loadOf c)), s)
  else if o = 0x006 ∨ o = 0x00A ∨ o = 0x00C ∨ o = 0x010 then (s.reReg c o, s)
  else if o = 0x00E then (s.reReg c o, s.setReReg c o 0)
  else if o = 0x012 then (BitVec.ofNat 40 (s.noteQ c), s)
  else (0, s)

/-- A load of a long of register space by core i: its value, and the state once RC registers have cleared. -/
def State.blkLoad (s : State) (i : Nat) : Blk → Long × State
  | .ctx j l => (s.ctxL j l, s)
  | .queue o => s.queueLoad o
  | .cic c o => s.cicLoad i c o
  | .ccb j o => s.ccbLoad j o
  | .mon n => (mget (fun _ => 0) s.mon n, { s with mon := mset (fun _ => 0) s.mon n 0 })
  | .red c o => s.redLoadReg c o
  | .route n => (mget (fun _ => 0) s.fab.routes n, s)
  | .debug c h =>
    (if h = 1 then BitVec.ofNat 40 ((List.range 16).foldl (fun a k => if (s.core (16 * c + k)).isHalted then a + 2 ^ k else a) 0) else 0, s)
  | .bar0 off => let x := s.regRead off; (BitVec.ofNat 40 x.1, x.2)

/-! ### Stores -/

/-- A store to CIC c by core i (R262). -/
def State.cicRegStore (s : State) (i c o : Nat) (v : Long) : State :=
  let core (k r : Nat) : State :=
    if c = 64 ∧ k ≠ 0 then s
    else if r = 0 then s.storeMask c k v
    else if r = 4 then s.cicStore c (·.eoi k (v.toNat % 256))
    else s
  if 0x10 ≤ o ∧ o < 0x20 then s.cicStore c (·.storePendSet ((o - 0x10) / 2) v)
  else if 0x20 ≤ o ∧ o < 0x30 then s.cicStore c (·.storePendClr ((o - 0x20) / 2) v)
  else if 0x40 ≤ o ∧ o < 0x50 then s.cicStore c (·.storeEnSet ((o - 0x40) / 2) v)
  else if 0x50 ≤ o ∧ o < 0x60 then s.cicStore c (·.storeEnClr ((o - 0x50) / 2) v)
  else if o = 0x70 then (if v.getLsbD 0 then s.cicStore c (fun x => { x with stray := false }) else s)
  else if o = 0x74 then s.raiseDev c v
  else if 0x100 ≤ o ∧ o < 0x300 then s.cicStore c (·.storeCfg c ((o - 0x100) / 2) v)
  else if 0x500 ≤ o ∧ o < 0x520 then s.cicStore c (·.storeHold ((o - 0x500) / 2) v)
  else if 0x600 ≤ o ∧ o < 0x700 then core ((o - 0x600) / 16) (o % 16)
  else if 0x700 ≤ o ∧ o < 0x708 ∧ i < 1024 ∧ coreCic i = c then core (coreNo i) (o - 0x700)
  else s

/-- A store to the queue engine's registers (R281, R288, R291, R292). -/
def State.queueRegStore (s : State) (o : Nat) (v : Long) : State :=
  if o < 0x80000 then
    let q := o / 8
    if o % 8 = 0 then s.qStore q (·.storeCfg v)
    else if o % 8 = 2 then s.qStore q (·.storeIrq v)
    else if o % 8 = 4 then (if v.getLsbD 38 then s.qStore q (fun x => { x with overrun := false }) else s)
    else
      let s1 := if v.getLsbD 1 then s.qStore q Queue.clr else s
      if v.getLsbD 0 then s1.qStore q Queue.reset else s1
  else if o = 0x80004 then s.onQEng (fun z => { z with rsv := v.setWidth 18 })
  else s

/-- A store to a core control block; the kills of R201 are the storing core's. -/
def State.ccbStore (s : State) (j o : Nat) (v : Long) : State :=
  if o < 0x30 then s.onCore j (·.setCcb o (if o % 6 = 4 then v &&& 0xF else v))
  else if o = 0x30 then s.onCore j (·.dropLine v.toNat)
  else if o = 0x32 then s.onCore j (fun c => { c with ic := [], btb := [] })
  else if (0x36 ≤ o ∧ o ≤ 0x3C) ∨ (0x42 ≤ o ∧ o ≤ 0x48) then s.onCore j (·.setCcb o v)
  else if o = 0x40 then s.onCore j (·.setCcb o (v &&& 0xF))
  else s

/-- A store to an engine's registers by core i (R333). -/
def State.redRegStore (s : State) (i c o : Nat) (v : Long) : State :=
  if o = 0x008 then s.reSubmit i c v
  else if o = 0x00A then s.writeReErr c (s.reErr c &&& ~~~(v &&& 0x3F)) (s.reReg c 0x00C)
  else if o = 0x00C then s.writeReErr c (s.reErr c) (v &&& 0x3F)
  else s

/-- A store of a long to register space by core i, its checks passed. -/
def State.blkStore (s : State) (i : Nat) (v : Long) : Blk → State
  | .ctx j l => if l = 15 then s.setCtxL j 15 v else s
  | .queue o => s.queueRegStore o v
  | .cic c o => s.cicRegStore i c o v
  | .ccb j o => s.ccbStore j o v
  | .mon _ => s
  | .red c o => s.redRegStore i c o v
  | .route _ => s
  | .debug c h => if h = 0 then s.debugHalt c (v.setWidth 16) else s
  | .bar0 off => s.regWrite .steward off (v.setWidth 32)

/-- A store of one grain of a long: only long 15 of a context takes it (R100, R262, R291, R333). -/
def State.blkStoreGrain (s : State) (odd : Bool) (g : Grain) : Blk → State
  | .ctx j l =>
    if l = 15 then
      let v := s.ctxL j 15
      s.setCtxL j 15 (if odd then g ++ (v.setWidth 20 : Grain) else (v >>> 20).setWidth 20 ++ g)
    else s
  | _ => s

/-- Why a core's store to a block is not performed (R100, R209): the CAUSE of its bus error. -/
def State.storeBar (s : State) (i : Nat) : Blk → Option Nat
  | .ctx _ l => if l = 15 then none else some 2
  | .ccb j _ => if j ≠ i && (s.core j).takes then some 7 else none
  | _ => none

/-! ### The steward's accesses (R486) -/

/-- What a long of a command is on the steward's map. -/
inductive StewPlace where
  | bad
  | off
  | mem (k : Nat)
  | blk (b : Blk)
  deriving DecidableEq, Repr

/-- The place of the long at a. -/
def State.stewPlace (s : State) (a : Nat) : StewPlace :=
  if a < 0x90000 then .bad
  else match s.place 1024 a with
    | .mem k => .mem k
    | .off => .off
    | .none => .bad
    | .reg =>
      match regBlock 1024 a with
      | none => .bad
      | some b => if s.blkOn b then .blk b else .off

/-- A write that is DENIED: context longs 0 to 14, queues 0xFF80 to 0xFFBF, a running core's block. -/
def State.stewDenied (s : State) (a : Nat) : Bool :=
  match regBlock 1024 a with
  | some (.ctx _ l) => l != 15
  | some (.queue o) => decide (0xFF80 * 8 ≤ o ∧ o < 0xFFC0 * 8)
  | some (.ccb j _) => (s.core j).takes
  | _ => false

/-- The status that refuses a whole access of n longs from a, if one does. -/
def State.stewRefuses (s : State) (a n : Nat) (write : Bool) : Option Nat :=
  let l := (List.range n).map (fun j => a + 2 * j)
  if a % 2 = 1 ∨ n = 0 ∨ 8192 < n then some stBadParam
  else if l.any (fun x => s.stewPlace x == .bad) then some stBadParam
  else if write && l.any s.stewDenied then some stDenied
  else if l.any (fun x => s.stewPlace x == .off) then some stBadState
  else none

/-- Read n longs from a: the octets, whether an uncorrectable error ended it, and the state after. -/
def stewReadGo : Nat → Nat → List Octet → State → List Octet × Bool × State
  | _, 0, acc, s => (acc, true, s)
  | a, n + 1, acc, s =>
    match s.stewPlace a with
    | .mem k => if s.badLong k then (acc, false, s.foundUnc k) else stewReadGo (a + 2) n (acc ++ leLong (s.long k)) s
    | .blk b => let x := s.blkLoad 1024 b; stewReadGo (a + 2) n (acc ++ leLong x.1) x.2
    | _ => (acc, true, s)

/-- Write one long. -/
def State.stewWrite (s : State) (a : Nat) (v : Long) : State :=
  match s.stewPlace a with
  | .mem k => (s.setLong k v).spoil k 2
  | .blk b => s.blkStore 1024 v b
  | _ => s

/-- MEM_READ. -/
def State.memRead (s : State) (a n : Nat) : Reply :=
  match s.stewRefuses a n false with
  | some st => .now st [] s
  | none => let x := stewReadGo a n [] s; .now (if x.2.1 then stOk else stInternal) x.1 x.2.2

/-- MEM_WRITE. -/
def State.memWrite (s : State) (a : Nat) (l : List Long) : Reply :=
  match s.stewRefuses a l.length true with
  | some st => .now st [] s
  | none => .now stOk [] (((List.range l.length).zip l).foldl (fun t e => t.stewWrite (a + 2 * e.1) e.2) s)

/-- R535: a single long through the TAP, under the same rules; a refused access has no effect. -/
def State.tapAccess (s : State) (a : Nat) (w : Option Long) : State :=
  if !(s.wh.tapDebug && s.wh.tapIr == 0x20) then s
  else match s.stewRefuses a 1 w.isSome with
    | some _ => s
    | none =>
      match w with
      | some v => s.stewWrite a v
      | none => let x := stewReadGo a 1 [] s; if x.2.1 then x.2.2.emit (.tapData (BitVec.ofNat 40 (unLe x.1))) else x.2.2

/-! ### The host's windows (R468 to R471) -/

/-- What a window access reaches at a grain address. -/
inductive WinPlace where
  | none
  | mem (k : Nat)
  | ctx (i l : Nat)
  deriving DecidableEq, Repr

def State.winPlace (s : State) (a : Nat) : WinPlace :=
  match s.placeGlobal a with
  | .mem k => .mem k
  | .reg =>
    (match regBlock 1024 a with
      | some (.ctx i l) => if s.domOn domContext then .ctx i l else .none
      | _ => .none)
  | _ => .none

/-- An uncorrectable error met through a window: HOST_ERR.UNC and event 0x0106. -/
def State.winUnc (s : State) (k : Nat) : State := (s.set1 R.HOST_ERR_UNC).foundUnc k

/-- A window read of the long that holds a: its value, the data as read where it has an error. -/
def State.winRead (s : State) (a : Nat) : Long × State :=
  match s.winPlace (a / 2 * 2) with
  | .none => (0, s.set1 R.HOST_ERR_WIN)
  | .mem k => (s.long k, if s.badLong k then s.winUnc k else s)
  | .ctx i l => (s.ctxL i l, s)

/-- A window write of part of the long at a: v where m has ones. -/
def State.winWrite (s : State) (a : Nat) (m v : Long) : State :=
  match s.winPlace a with
  | .none => s.set1 R.HOST_ERR_WIN
  | .mem k =>
    if m = BitVec.allOnes 40 then (s.setLong k v).spoil k 2
    else if s.badLong k then s.winUnc k
    else (s.setLong k ((s.long k &&& ~~~m) ||| (v &&& m))).spoil k 2
  | .ctx i l => if l = 15 then s.setCtxL i 15 ((s.ctxL i 15 &&& ~~~m) ||| (v &&& m)) else s.set1 R.HOST_ERR_CTXWR

/-- The grain address of BAR2 offset b, and the long of BAR4 offset b. -/
def State.bar2Addr (s : State) (b : Nat) : Nat := addrAdd (s.rdW R.BAR2_BASE_HI * 4294967296 + s.rdW R.BAR2_BASE_LO) (b / 4)
def State.bar4Addr (s : State) (b : Nat) : Nat := addrAdd (s.rdW R.BAR4_BASE_HI * 4294967296 + s.rdW R.BAR4_BASE_LO) (2 * (b / 5))

/-- Sign-extend a grain to 32 bits, as octets. -/
def grainOctets (g : Grain) : List Octet := le 4 (g.signExtend 32).toNat

/-- Octets of BAR4 there are longs for. -/
def bar4Size : Nat := 536870910

/-- The octets of a BAR4 read, each long read once. -/
def bar4ReadGo : Nat → Nat → Option (Nat × Long) → List Octet → State → List Octet × State
  | _, 0, _, acc, s => (acc, s)
  | b, n + 1, last, acc, s =>
    if bar4Size ≤ b then bar4ReadGo (b + 1) n none (acc ++ [0]) s
    else
      let a := s.bar4Addr b
      let x : Long × State := match last with
        | some (j, v) => if j = a then (v, s) else s.winRead a
        | none => s.winRead a
      bar4ReadGo (b + 1) n (some (a, x.1)) (acc ++ [(x.1 >>> (8 * (b % 5))).setWidth 8]) x.2

/-- The bits and value that octets of offset b on give the long of index j (octets 5 j to 5 j + 4). -/
def bar4Bits (b : Nat) (data : List (Option Octet)) (j : Nat) : Long × Long :=
  (List.range 5).foldl (fun x k =>
    let o := 5 * j + k
    match (if b ≤ o then (data[o - b]?).getD none else none) with
    | some y => (x.1 ||| (0xFF#40 <<< (8 * k)), x.2 ||| ((y.setWidth 40 : Long) <<< (8 * k)))
    | none => x) (0, 0)

/-- A BAR4 write: each long once. -/
def State.bar4Write (s : State) (b : Nat) (data : List (Option Octet)) : State :=
  (List.range (data.length / 5 + 2)).foldl (fun t n =>
    let j := b / 5 + n
    let x := bar4Bits b data j
    if x.1 = 0 ∨ bar4Size ≤ 5 * j then t else t.winWrite (t.bar4Addr (5 * j)) x.1 x.2) s

/-! ### The rows -/

/-- BAR2_READ (R468): b is a multiple of 4. -/
def execBar2Read (b : BitVec 29) (s : State) : Host.Outcome State Fault Refusal :=
  doneIf (b.toNat % 4 == 0) (if !s.hostLive then s
    else
      let a := s.bar2Addr b.toNat
      let x := s.winRead a
      x.2.emit (.barData (grainOctets (if a % 2 = 1 then (x.1 >>> 20).setWidth 20 else x.1.setWidth 20))))

/-- BAR2_WRITE (R468). -/
def execBar2Write (b : BitVec 29) (be : BitVec 4) (v : Reg32) (s : State) : Host.Outcome State Fault Refusal :=
  doneIf (b.toNat % 4 == 0) (if !s.hostLive then s
    else if be ≠ 0xF then s.set1 R.HOST_ERR_SIZE
    else
      let a := s.bar2Addr b.toNat
      let g : Long := ((v.setWidth 20 : Grain).setWidth 40)
      if a % 2 = 1 then s.winWrite (a - 1) 0xFFFFF00000 (g <<< 20) else s.winWrite a 0xFFFFF g)

/-- BAR4_READ (R469, R471): n octets from b. -/
def execBar4Read (b : BitVec 29) (n : BitVec 13) (s : State) : Host.Outcome State Fault Refusal :=
  doneIf (decide (n.toNat ≤ 4096 ∧ b.toNat + n.toNat ≤ 536870912)) (if !s.hostLive then s
    else let x := bar4ReadGo b.toNat n.toNat none [] s; x.2.emit (.barData x.1))

/-- BAR4_WRITE (R469, R471): octets from b, those with byte enables. -/
def execBar4Write (b : BitVec 29) (data : List (Option Octet)) (s : State) : Host.Outcome State Fault Refusal :=
  doneIf (decide (data.length ≤ 4096 ∧ b.toNat + data.length ≤ 536870912)) (if !s.hostLive then s else s.bar4Write b.toNat data)

/-- MEM_READ (R486). -/
def execMemRead (h : BHdr) (a : Long) (count : BitVec 16) (s : State) : Host.Outcome State Fault Refusal :=
  bertiaRow h { len := 8, maxData := 5 * count.toNat } (·.memRead a.toNat count.toNat) s

/-- MEM_WRITE (R486). -/
def execMemWrite (h : BHdr) (a : Long) (data : List Long) (s : State) : Host.Outcome State Fault Refusal :=
  bertiaRow h { len := 8 + 5 * data.length } (·.memWrite a.toNat data) s

/-- TAP_DEBUG_ACCESS (R535). -/
def execTapDebugAccess (a : Long) (w : Option Long) (s : State) : Host.Outcome State Fault Refusal :=
  doneP (if s.stewardUp then s.tapAccess a.toNat w else s)

/-- DBG_TAP (R536). -/
def State.dbgTap (s : State) (en : Nat) : Reply :=
  if 1 < en then .now stBadParam [] s else .now stOk [] (s.onWh (fun z => { z with tapDebug := en == 1 }))

def execDbgTap (h : BHdr) (enable : BitVec 8) (s : State) : Host.Outcome State Fault Refusal :=
  bertiaRow h { len := 4, co := true } (·.dbgTap enable.toNat) s

/-! ### The crossing monitor (R221 to R223) -/

/-- Add to a 20-bit count of the monitor, saturating. -/
def State.monAdd (s : State) (n lo k : Nat) : State :=
  let w := mget (fun _ => (0 : Long)) s.mon n
  { s with mon := mset (fun _ => 0) s.mon n (withBits w lo 20 (min (bitsOf w lo 20 + k) 0xFFFFF)) }

/-- The domain that holds the clocked side of crossing x; REFCLK, the SVC MAC and AON have none that goes off. -/
def crossDom (x : Nat) : Option Nat :=
  if 1 ≤ x ∧ x < 17 then some (16 + (x - 1) / 4)
  else if 17 ≤ x ∧ x < 25 then some (8 + (x - 17))
  else if 25 ≤ x ∧ x < 29 then some domMem
  else if x = 29 then some domHost
  else if 30 ≤ x ∧ x < 34 then some domStore
  else none

/-- Is the clocked side of crossing x up, so that the handshake can run? -/
def State.crossUp (s : State) (x : Nat) : Bool :=
  match crossDom x with
  | some d => s.domOn d
  | none => true

/-- What happens on crossing x. Items a clocked writer drops count in OVERRUNS and set the queue's sticky flag (R221);
between PEER_RESET and the handshake they count in DISCARDED (R222). The handshake waits for the side that is down. -/
def State.crossing (s : State) (x : Nat) : CrossEvent → State
  | .dropped n =>
    if (s.crossAt x).peer then s.monAdd (2 * x + 1) 0 n.toNat
    else (s.monAdd (2 * x) 20 n.toNat).setCross x { s.crossAt x with overrun := (s.crossAt x).overrun || n != 0 }
  | .merged n => s.monAdd (2 * x + 1) 20 n.toNat
  | .resync d =>
    if s.crossUp x then ((s.monAdd (2 * x) 0 1).monAdd (2 * x + 1) 0 d.toNat).setCross x { s.crossAt x with peer := false }
    else s.monAdd (2 * x + 1) 0 d.toNat

/-- The steward reports counts that are not zero (R223, R482). -/
def State.crossReport (s : State) (x : Nat) : State :=
  let w (n : Nat) : Long := mget (fun _ => 0) s.mon n
  if w (2 * x) = 0 ∧ w (2 * x + 1) = 0 then s
  else s.selfFault 0x0103 0 (le 1 x ++ leLong (w (2 * x)) ++ leLong (w (2 * x + 1)))

/-- CROSSING_RESYNC (R221 to R223): crossings 0 to 35. -/
def execCrossingResync (x : BitVec 6) (e : CrossEvent) (s : State) : Host.Outcome State Fault Refusal :=
  doneIf (decide (x.toNat < 36)) ((s.crossing x.toNat e).crossReport x.toNat)

end Sys2Proof.Machine
end

