-- ==== Sys2Proof/Machine/Operands.lean ====
section
/-! DEFINITION. A core's accesses (R165 to R168, R202, R205 to R209, R531, R571): classes, checks, loads, stores, split
accesses, and the operand forms of the Gitik instructions. -/

namespace Sys2Proof.Machine

open Sys2Proof

/-! ### What stops an access -/

/-- An access or an instruction body ends early: in a fault, in a WATCH halt before it has any effect, or because the
store reset the storing core itself. -/
inductive Stop where
  | fault (f : Flt)
  | watch
  | gone
  deriving DecidableEq, Repr

/-- A result and the state after it. -/
abbrev Res (α : Type) := Except Stop α × State

/-- Go on with a result. -/
def Res.then {α β : Type} (x : Res α) (f : α → State → Res β) : Res β :=
  match x.1 with
  | .ok v => f v x.2
  | .error e => (.error e, x.2)

def ok {α : Type} (v : α) (s : State) : Res α := (.ok v, s)
def stop {α : Type} (f : Flt) (s : State) : Res α := (.error (.fault f), s)

/-- A bus error (vector 3). -/
def bus (cause a : Nat) (write : Bool) : Flt := { vec := 3, cause := cause, addr := BitVec.ofNat 40 a, write := write }

/-! ### Classes of a grain -/

/-- Is a grain register space for a core: by its address, or by a DEV region over memory (R167, R206)? -/
def State.isReg (s : State) (i a : Nat) : Bool :=
  match s.place i a with
  | .reg => true
  | .mem _ => (s.core i).attr a 2
  | _ => false

/-- What a core's access to a grain reaches. -/
inductive Cls where
  | bad
  | mem (k : Nat)
  | blk (b : Blk)
  deriving DecidableEq, Repr

def State.cls (s : State) (i a : Nat) : Cls :=
  match s.place i a with
  | .mem k => .mem k
  | .reg =>
    (match regBlock i a with
      | some b => if s.blkOn b then .blk b else .bad
      | none => .bad)
  | _ => .bad

/-- The CAUSE of the bus error that the address of a grain raises (R232), if it does. -/
def State.busCause (s : State) (i a : Nat) (write : Bool) : Option Nat :=
  match s.cls i a with
  | .bad => some 1
  | .mem _ => none
  | .blk b => if write then s.storeBar i b else none

/-- R531: does an access to n grains from a touch the watched range, with no pass left over from the last halt? -/
def State.touches (s : State) (i a n : Nat) : Bool :=
  let c := s.core i
  decide (i < 1024) && (c.ccbL 0x40).getLsbD 3 && !c.watchPass &&
    (List.range n).any (fun j => decide ((c.ccbL 0x46).toNat ≤ addrAdd a j) && decide (addrAdd a j ≤ (c.ccbL 0x48).toNat))

/-- The checks of an access to the grain at a, or of half of a split access (R207). -/
def State.grainCheck (s : State) (i a : Nat) (write split half : Bool) : Option Flt :=
  match s.busCause i a write with
  | some c => some { bus c a write with split := split, half := half }
  | none => none

/-- The write to a read-only region, of one grain (R206). -/
def State.roCheck (s : State) (i a : Nat) (split half : Bool) : Option Flt :=
  if (s.core i).attr a 1 then some { vec := 5, cause := 1, addr := BitVec.ofNat 40 a, write := true, split := split, half := half } else none

/-- The first of several checks. -/
def firstOf (l : List (Option Flt)) : Option Flt := (l.find? Option.isSome).join

/-- Every check of a grain access (R207). -/
def State.check1 (s : State) (i a : Nat) (write : Bool) : Option Flt :=
  firstOf [s.grainCheck i a write false false, if write then s.roCheck i a false false else none]

/-- Every check of a long access; an odd one is split or misaligned (R167, R168, R207). -/
def State.check2 (s : State) (i a : Nat) (write : Bool) : Option Flt :=
  let b := addrAdd a 1
  if a % 2 = 0 then
    firstOf [s.grainCheck i a write false false,
      if write && ((s.core i).attr a 1 || (s.core i).attr b 1) then some { vec := 5, cause := 1, addr := BitVec.ofNat 40 a, write := true } else none]
  else if s.isReg i a || s.isReg i b then some { vec := 2, cause := 2, addr := BitVec.ofNat 40 a, write := write }
  else if !(s.core i).mode.getLsbD mdUNAL then some { vec := 2, cause := 1, addr := BitVec.ofNat 40 a, write := write }
  else firstOf [s.grainCheck i a write true false, s.grainCheck i b write true true,
    if write then s.roCheck i a true false else none, if write then s.roCheck i b true true else none]

/-! ### Loads -/

/-- Read one grain whose checks have passed. -/
def State.getGrain (s : State) (i a : Nat) (split half : Bool) : Res Grain :=
  match s.cls i a with
  | .mem k => if s.badLong k then stop { bus 4 a false with split := split, half := half } (s.foundUnc k) else ok (s.grain k) s
  | .blk b => let x := s.blkLoad i b; ok (if a % 2 = 1 then (x.1 >>> 20).setWidth 20 else x.1.setWidth 20) x.2
  | .bad => stop (bus 1 a false) s

/-- A grain load. -/
def State.ldGrain (s : State) (i a : Nat) : Res Grain :=
  if s.touches i a 1 then (.error .watch, s)
  else match s.check1 i a false with
    | some f => stop f s
    | none => s.getGrain i a false false

/-- A long load. -/
def State.ldLong (s : State) (i a : Nat) : Res Long :=
  if s.touches i a 2 then (.error .watch, s)
  else match s.check2 i a false with
    | some f => stop f s
    | none =>
      if a % 2 = 1 then
        (s.getGrain i a true false).then (fun lo t => (t.getGrain i (addrAdd a 1) true true).then (fun hi u => ok (hi ++ lo) u))
      else match s.cls i a with
        | .mem k => if s.badLong k then stop (bus 4 a false) (s.foundUnc k) else ok (s.long k) s
        | .blk b => let x := s.blkLoad i b; ok x.1 x.2
        | .bad => stop (bus 1 a false) s

/-! ### Stores -/

/-- May a core have fetched the grain at a and not executed it: in the lines from its PC on, from the start of an active loop
body, or from a predicted target, two lines ahead (log 1)? -/
def Core.mayHold (c : Core) (a : Nat) : Bool :=
  let starts := c.pc.toNat :: ((if c.la0 then [c.l0.beg.toNat] else []) ++ (if c.la1 then [c.l1.beg.toNat] else []) ++
    c.btb.map (fun e => e.2.2))
  starts.any (fun p => decide (icLine p ≤ icLine a) && decide (icLine a ≤ icLine p + 2))

/-- R203: a store of core i to these grains has been performed; where it may have written a fetched successor, whether it kills
is open, once a store (log 1). -/
def State.mayKill (s : State) (i : Nat) (l : List Nat) : State :=
  if (l.map (views i)).flatten.any (s.core i).mayHold then
    (if s.freeVal % 2 = 1 then s.onCore i Core.kill else s).freeNext
  else s

/-- R202, R203: a store to an aligned long, or to a grain, of memory. -/
def State.storedAt (s : State) (i : Nat) (l : List Nat) : State := (l.foldl (fun t a => t.icDrop i a) s).mayKill i l

/-- A store of a long to register space by a core. A core that stores to its own HALT_REQ halts at the next boundary (R530); a
store to a register of a control block kills fetched successors (R201). -/
def State.coreBlkStore (s : State) (i : Nat) (v : Long) (b : Blk) : State :=
  match b with
  | .debug c h =>
    if h = 0 ∧ coreCic i = c ∧ i < 1024 ∧ v.getLsbD (coreNo i) then
      (s.debugHalt c ((v &&& ~~~(1#40 <<< coreNo i)).setWidth 16)).onCore i (fun x => { x with haltReq := true })
    else s.blkStore i v b
  | .ccb _ o => if ccbReg o then (s.blkStore i v b).onCore i Core.kill else s.blkStore i v b
  | _ => s.blkStore i v b

/-- Write one grain whose checks have passed. -/
def State.putGrain (s : State) (i a : Nat) (g : Grain) (split half : Bool) : Res Unit :=
  match s.cls i a with
  | .mem k =>
    if s.badLong k then stop { bus 4 a true with split := split, half := half } (s.foundUnc k)
    else ok () (((s.setGrain k g).spoil k 1).icDrop i a)
  | .blk b => ok () (s.blkStoreGrain (a % 2 = 1) g b)
  | .bad => stop (bus 1 a true) s

/-- A grain store. -/
def State.stGrain (s : State) (i a : Nat) (g : Grain) : Res Unit :=
  if s.touches i a 1 then (.error .watch, s)
  else match s.check1 i a true with
    | some f => stop f s
    | none => (s.putGrain i a g false false).then (fun _ t => ok () (t.mayKill i [a]))

/-- A long store. -/
def State.stLong (s : State) (i a : Nat) (v : Long) : Res Unit :=
  if s.touches i a 2 then (.error .watch, s)
  else match s.check2 i a true with
    | some f => stop f s
    | none =>
      if a % 2 = 1 then
        ((s.putGrain i a (v.setWidth 20) true false).then (fun _ t => t.putGrain i (addrAdd a 1) ((v >>> 20).setWidth 20) true true)).then
          (fun _ u => ok () (u.mayKill i [a, addrAdd a 1]))
      else match s.cls i a with
        | .mem k => ok () (((s.setLong k v).spoil k 2).storedAt i [a, addrAdd a 1])
        | .blk (.bar0 off) =>
          let t := s.blkStore i v (.bar0 off)
          if t.core i = s.core i then ok () t else (.error .gone, t)
        | .blk b => ok () (s.coreBlkStore i v b)
        | .bad => stop (bus 1 a true) s

/-! ### Operand forms -/

/-- Which load. -/
inductive LoadKind where
  | grain
  | grainU
  | long
  deriving DecidableEq, Repr

/-- A load as a value for a register (R165). -/
def State.load (s : State) (i a : Nat) : LoadKind → Res Long
  | .grain => (s.ldGrain i a).then (fun g t => ok (g.signExtend 40) t)
  | .grainU => (s.ldGrain i a).then (fun g t => ok (g.setWidth 40) t)
  | .long => s.ldLong i a

/-- A store of a register (R165). -/
def State.store (s : State) (i a : Nat) (long : Bool) (v : Long) : Res Unit :=
  if long then s.stLong i a v else s.stGrain i a (v.setWidth 20)

/-- The registers of a short or long form R: destination, first and second source. -/
def rDst : RForm → GReg
  | .short d _ => d
  | .long d _ _ => d
def rSrc1 : RForm → GReg
  | .short d _ => d
  | .long _ s _ => s
def rSrc2 : RForm → GReg
  | .short _ s => s
  | .long _ _ t => t
def rLen : RForm → Nat
  | .short _ _ => 1
  | .long _ _ _ => 2

/-- The parts of a short or long memory form. -/
def mReg : MForm → GReg
  | .short d _ => d
  | .long d _ _ => d
def mBase : MForm → GReg
  | .short _ s => s
  | .long _ s _ => s
def mLen : MForm → Nat
  | .short _ _ => 1
  | .long _ _ _ => 2
def mOff : MForm → Long
  | .short _ _ => 0
  | .long _ _ imm => imm.signExtend 40

/-- The effective address (R165). -/
def mEa (f : MForm) (c : Core) : Nat := (c.gr (mBase f) + mOff f).toNat

/-- An 18-bit immediate, sign- or zero-extended. -/
def sx18 (imm : BitVec 18) : Long := imm.signExtend 40
def zx18 (imm : BitVec 18) : Long := imm.setWidth 40

end Sys2Proof.Machine
end

