-- ==== Sys2Proof/Machine/Issue.lean ====
section
/-! DEFINITION. Executing an instruction: what comes first at its boundary (R226), fetch (R167, R198, R206, R212), guard
(R142, R143), waits on side units (R161, R195 to R197), the instruction's own effect, retirement with its counts (R235, R240), pairs
(R193), kills (R200, R201), loops (R175, R176), debug halts (R531, R533). -/

namespace Sys2Proof.Machine

open Sys2Proof

/-- What an instruction is, before its effect. -/
structure InsSpec where
  /-- Grains of its encoding. -/
  len : Nat
  /-- A reserved field value (R143). -/
  bad : Bool := false
  /-- CAUSE of an operand restriction or of R135 that it breaks. -/
  bar : Option Nat := none
  /-- The side unit it goes to. -/
  unit : Option SideUnit := none
  /-- It waits for every pending side-unit operation (R161, R197). -/
  waitAll : Bool := false
  /-- It sets the leash itself: its own retirement does not count. -/
  setsLeash : Bool := false
  /-- The body length of a REP, which a guarded-off one skips. -/
  rep : Option Nat := none
  info : IssueInfo

/-- How an instruction's effect ends. -/
inductive Fin where
  /-- The next instruction in order follows. -/
  | go
  /-- A taken transfer; ends says that it may end loop levels (R176). -/
  | jump (t : Long) (ends : Bool)
  /-- A REP of count 0 skips its body of len grains (R174). -/
  | skip (len : Nat)
  /-- RETX has set the PC itself. -/
  | back
  /-- It faults. -/
  | fault (f : Flt)
  /-- It is about to touch the watched range. -/
  | watch
  /-- The state is final: the core waits, has stopped between elements, or has been reset. -/
  | stay
  deriving DecidableEq, Repr

/-- Nothing that matters to pairing but registers read and written. -/
def regInfo (reads writes : List GReg) : IssueInfo :=
  { alone := false, branch := false, mem := false, side := false, acc := false, reads := reads, writes := writes.filter (· ≠ 0),
    predR := [], predW := [], flagR := false, flagW := false }

/-! ### Fetch -/

/-- A line found in the cache; heel mode does not consult it (R212). -/
def Core.icHas (c : Core) (a : Nat) : Bool := !c.mode.getLsbD mdHEEL && c.ic.contains (icLine a)

/-- The bus error of a fetch of a grain. -/
def State.fetchBus (s : State) (i a : Nat) : Option Flt :=
  let c := s.core i
  let f (cause : Nat) : Option Flt := some { bus cause a false with fetch := true }
  if c.icHas a then (if c.attr a 2 then f 3 else none)
  else match s.place i a with
    | .reg => f 3
    | .none => f 1
    | .off => f 1
    | .mem k =>
      if c.attr a 2 then f 3
      else if c.mode.getLsbD mdHEEL && decide (k < 0x10000000000) then f 8
      else if s.badLong k then f 4
      else none

/-- The first fault of a fetch of n grains at the PC: vector 3 before vector 4 (R226). -/
def State.fetchFault (s : State) (i n : Nat) : Option Flt :=
  let l := (List.range n).map (addrAdd (s.core i).pc.toNat)
  firstOf (l.map (s.fetchBus i) ++
    l.map (fun a => if (s.core i).attr a 0 then some { vec := 4, cause := 1, addr := BitVec.ofNat 40 a, fetch := true } else none))

/-- A line is used (R198): least recently used of 4 ways out. -/
def Core.icTouch (c : Core) (l : Nat) : Core :=
  if c.ic.contains l then { c with ic := l :: c.ic.erase l }
  else
    let ways := c.ic.filter (fun x => x % 64 = l % 64)
    let rest := if 4 ≤ ways.length then c.ic.erase (ways.getLastD 0) else c.ic
    ({ c with ic := l :: rest }).count ccbIcMiss 1

/-- The lines of a fetched instruction. -/
def Core.fetched (c : Core) (n : Nat) : Core :=
  if c.mode.getLsbD mdHEEL then c
  else ((List.range n).map (fun j => icLine (addrAdd c.pc.toNat j))).foldl Core.icTouch c

/-- R198: a parity error in the first cached line that a fetch of n grains uses: a miss of that line, counted. -/
def Core.parity (c : Core) (n : Nat) : Core :=
  match ((List.range n).map (addrAdd c.pc.toNat)).find? c.icHas with
  | none => c
  | some a => (c.dropLine a).setCcb ccbIcPerr (BitVec.ofNat 40 (min 65535 ((c.ccbL ccbIcPerr).toNat + 1)))

/-- A fetch of n grains, which may meet one. -/
def Core.fetch (c : Core) (perr : Bool) (n : Nat) : Core := (if perr then c.parity n else c).fetched n

/-- The same in a state, where the fetch meets one. -/
def State.parity (s : State) (i : Nat) (perr : Bool) (n : Nat) : State := if perr then s.onCore i (·.parity n) else s

/-- The error event of a fetch that met one. -/
def State.fetchFound (s : State) (i : Nat) (f : Flt) : State := if f.vec = 3 ∧ f.cause = 4 then s.metAt i f.addr.toNat else s

/-- R531: is an instruction at a breakpoint about to execute? -/
def State.breaks (s : State) (i : Nat) : Bool :=
  let c := s.core i
  let w := c.ccbL 0x40
  decide (i < 1024) && !c.brkPass && ((w.getLsbD 1 && c.ccbL 0x42 == c.pc) || (w.getLsbD 2 && c.ccbL 0x44 == c.pc))

/-! ### Pairs (R193) -/

/-- May b issue together with a before it? off: b's guard reads 0. -/
def pairs (a b : IssueInfo) (off : Bool) : Bool :=
  !a.alone && !a.branch && !b.alone && (!b.branch || off) && !(a.mem && b.mem) && !(a.side && b.side) && !(a.acc && b.acc)
    && b.reads.all (fun r => !a.writes.contains r) && b.writes.all (fun r => !a.writes.contains r)
    && b.predR.all (fun p => !a.predW.contains p) && b.predW.all (fun p => !a.predW.contains p)
    && !(a.flagW && (b.flagR || b.flagW))

/-- Does an instruction issue together with the one the core retired last (R193)? Heel mode pairs nothing (R212). -/
def Core.second (c : Core) (info : IssueInfo) (off : Bool) : Bool :=
  match c.prev with
  | some a => !c.mode.getLsbD mdHEEL && pairs a info off
  | none => false

/-- R210: a pair that issued counts, its second instruction retiring or faulting. -/
def Core.pairCount (c c0 : Core) (info : IssueInfo) (off : Bool) : Core :=
  if c0.second info off then c.count ccbPaired 1 else c

/-! ### Loops (R175, R176) -/

/-- The check at level L0. -/
def Core.loopEnd0 (c : Core) (last : Long) (left : Bool) : Core × Bool :=
  if c.la0 && c.l0.fin == last then
    let n := c.l0.cnt - 1
    let c1 : Core := { c with l0 := { c.l0 with cnt := n } }
    if n ≠ 0 then ({ c1 with pc := c.l0.beg }, left)
    else ({ c1 with pc := c.l0.fin + 1, st := putBit c.st stLA0 false }, true)
  else (c, left)

/-- The loop-end check of an instruction whose last grain is last; also whether it left a level. -/
def Core.loopEnd (c : Core) (last : Long) : Core × Bool :=
  if c.la1 then
    if c.l1.fin == last then
      let n := c.l1.cnt - 1
      let c1 : Core := { c with l1 := { c.l1 with cnt := n } }
      if n ≠ 0 then ({ c1 with pc := c.l1.beg }, false)
      else ({ c1 with pc := c.l1.fin + 1, st := putBit c.st stLA1 false } : Core).loopEnd0 last true
    else (c, false)
  else c.loopEnd0 last false

/-- Is an address outside a level's body? -/
def Loop.outside (l : Loop) (t : Long) : Bool := decide (t.toNat < l.beg.toNat) || decide (l.fin.toNat < t.toNat)

/-- A taken BRA, BR or JMPL ends the levels it leaves, and any inside them. -/
def Core.leaveLoops (c : Core) (t : Long) : Core :=
  let out0 := c.la0 && c.l0.outside t
  let out1 := c.la1 && (out0 || c.l1.outside t)
  { c with st := putBit (putBit c.st stLA0 (c.la0 && !out0)) stLA1 (c.la1 && !out1) }

/-! ### Retirement -/

/-- The leash counts one (R240). -/
def Core.leashCount (c : Core) : Core :=
  if c.leash = 0 then c
  else if c.leash = 1 then { c with leash := 0, st := putBit c.st stLX true }
  else { c with leash := c.leash - 1 }

/-- The predicted target of a transfer at the PC; else the next instruction (R200). -/
def Core.predicted (c : Core) (n : Nat) : Nat :=
  let pc := c.pc.toNat
  match (if c.mode.getLsbD mdHEEL then none else lookup c.btb (pc % 32)) with
  | some (a, t) => if a = pc then t else addrAdd pc n
  | none => addrAdd pc n

/-- A taken transfer (R176, R200, R201). -/
def Core.jumpTo (c : Core) (n : Nat) (t : Long) (ends : Bool) : Core :=
  let c1 := if ends then c.leaveLoops t else c
  let c2 := if c.predicted n = t.toNat then c1 else c1.kill
  { c2 with
    btb := if c.mode.getLsbD mdHEEL then c2.btb else insertKey c2.btb (c.pc.toNat % 32) (c.pc.toNat, t.toNat)
    pc := t }

/-- The PC after an instruction with the loop-end check of its last grain. -/
def Core.nextTo (c : Core) (next : Long) : Core :=
  let ends := (c.la0 && c.l0.fin == next - 1) || (c.la1 && c.l1.fin == next - 1)
  let (c1, left) := ({ c with pc := next } : Core).loopEnd (next - 1)
  let c2 := if left then c1.kill else c1
  if ends then { c2 with prev := none } else c2

/-- R530, R533: a halt asked for or a step done at this boundary. -/
def State.pause (s : State) (i : Nat) : State :=
  let c := s.core i
  if c.run ≠ .running then s
  else if c.haltReq then s.halt i whyDebug none
  else if c.step then s.halt i whyStep none
  else s

/-- An instruction retires: c0 is the core before its effect. -/
def Core.retire (c : Core) (c0 : Core) (sp : InsSpec) (off : Bool) (fin : Fin) : Core :=
  let c1 := if sp.setsLeash && !off then c else c.leashCount
  let c3 := (c1.count ccbRetired 1).pairCount c0 sp.info off
  let killed := c3.ccbL ccbKills != c0.ccbL ccbKills
  let c4 : Core := { c3 with
    shadow := c3.shadow - 1
    brkPass := false
    watchPass := false
    prev := if c0.second sp.info off || killed || sp.info.alone || sp.info.branch then none else some sp.info }
  match fin with
  | .jump t ends => c4.jumpTo sp.len t ends
  | .skip n => c4.nextTo (c4.pc + BitVec.ofNat 40 (2 + n))
  | .back => c4.kill
  | _ => c4.nextTo (c4.pc + BitVec.ofNat 40 sp.len)

/-! ### Waits -/

/-- The pending operations an instruction waits for. -/
def InsSpec.waitsFor (sp : InsSpec) (o : SideOp) : Bool :=
  sp.waitAll || sp.unit == some o.unit || o.writes.any (fun w => sp.info.reads.contains w.1)

/-- The fault of an operation waited for, or the core with those operations delivered. -/
def Core.await (c : Core) (sp : InsSpec) : Except SideOp Core :=
  match c.side.find? (fun o => sp.waitsFor o && o.cause != 0) with
  | some o => .error o
  | none => .ok ((c.side.filter sp.waitsFor).foldl Core.deliver { c with side := c.side.filter (fun o => !sp.waitsFor o) })

/-! ### Execution -/

/-- What an instruction's end does to the core. -/
def State.conclude (s : State) (i : Nat) (c0 : Core) (sp : InsSpec) (fin : Fin) : State :=
  match fin with
  | .fault f => (s.onCore i (·.pairCount c0 sp.info false)).takeException i (.fault f)
  | .watch => s.halt i whyWatch none
  | .stay => s
  | _ => s.onCore i (fun c => c.retire c0 sp false fin)

/-- An instruction that has been fetched. -/
def State.issue (s : State) (i : Nat) (g : BitVec 3) (sp : InsSpec) (body : State → Fin × State) : State :=
  let c := s.core i
  let pair : State := s.onCore i (·.pairCount c sp.info false)
  let illegal (t : State) (cause : Nat) : State := t.takeException i (.fault { vec := 1, cause := cause, addr := c.pc })
  if sp.bad then illegal s 1
  else if !c.p g then
    s.setCore i (c.retire c sp true (match sp.rep with
      | some n => .skip n
      | none => .go))
  else match sp.bar with
    | some cause => illegal pair cause
    | none =>
      match c.await sp with
      | .error o => pair.takeException i (.fault (sideFlt (o.pc, o.cause, false) true))
      | .ok c1 =>
        let x := body (s.setCore i c1)
        x.2.conclude i c1 sp x.1

/-- What comes before an instruction: no boundary lies inside a pair (R193, R226). -/
def State.eventBefore (s : State) (i : Nat) (g : BitVec 3) (sp : InsSpec) : Option CoreEvent :=
  if (s.core i).second sp.info (!(s.core i).p g) then none else s.boundaryEvent i

/-- One instruction of core i, or what comes before it at the boundary. -/
def State.runInstr (s : State) (i : Nat) (g : BitVec 3) (perr : Bool) (sp0 : InsSpec) (body : State → Fin × State) : State :=
  let sp : InsSpec := { sp0 with info := { sp0.info with predR := g :: sp0.info.predR } }
  if !s.active i then s
  else match s.eventBefore i g sp with
    | some e => (s.takeException i e).pause i
    | none =>
      if (s.core i).run ≠ .running then s
      else if s.breaks i then s.halt i whyBreak none
      else
        let s1 := s.parity i perr sp.len
        match s1.fetchFault i sp.len with
        | some f => ((s1.fetchFound i f).takeException i (.fault f)).pause i
        | none => ((s.onCore i (·.fetch perr sp.len)).issue i g sp body).pause i

/-- The meaning of a Gitik row. -/
def instr (x : Iss) (sp : InsSpec) (body : Nat → State → Fin × State) (s : State) : Host.Outcome State Fault Refusal :=
  doneP (s.runInstr (coreIdx x.core) x.guard x.perr sp (body (coreIdx x.core)))

/-- A body that computes on the core's registers alone. -/
def onRegs (f : Core → Core) (i : Nat) (s : State) : Fin × State := (.go, s.onCore i f)

/-- A body made of accesses. -/
def onAccess (r : Nat → State → Res Unit) (i : Nat) (s : State) : Fin × State :=
  match r i s with
  | (.ok _, t) => (.go, t)
  | (.error (.fault f), t) => (.fault f, t)
  | (.error .watch, t) => (.watch, t)
  | (.error .gone, t) => (.stay, t)

/-- EXCEPTION_ENTRY (R226, R227): the first applicable event at the boundary, or a reserved encoding at the PC (R143): grains
that decode to no instruction. -/
def execExceptionEntry (core : CoreSel) (e : EntryEvent) (s : State) : Host.Outcome State Fault Refusal :=
  let i := coreIdx core
  match e with
  | .boundary =>
    doneP (if !s.active i then s
      else match s.boundaryEvent i with
        | some ev => (s.takeException i ev).pause i
        | none => s)
  | .reservedEncoding a b =>
    if (decodeGitik core a b).isSome then .fault .illFormed
    else doneP (s.runInstr i (a.extractLsb' 17 3) false
      { len := if gitikLong a then 2 else 1, bad := true, info := regInfo [] [] } (fun t => (.stay, t)))

end Sys2Proof.Machine
end

