-- ==== Sys2Proof/Machine/Arith.lean ====
section
/-! DEFINITION. Gitik instructions that compute on registers: moves, arithmetic, logic, shifts (R144 to R149), dual
arithmetic (R150, R151), bit fields (R154, R155), sample formats (R156, R157), predicates (R158 to R160), accumulators (R152, R153). -/

namespace Sys2Proof.Machine

open Sys2Proof

/-- What an instruction on registers reads and writes. -/
def regSpec (len : Nat) (reads : List GReg) (d : GReg) (flagR flagW : Bool) : InsSpec :=
  { len := len, info := { regInfo reads [d] with flagR := flagR, flagW := flagW } }

/-- A short or long form R. -/
def rSpec (f : RForm) (flagW : Bool) : InsSpec := regSpec (rLen f) [rSrc1 f, rSrc2 f] (rDst f) false flagW

/-- A value for a register. -/
def putVal (d : GReg) (f : Core → Long) (c : Core) : Core := c.setG d (f c)

/-- A value for a register, and the status after it. -/
def putRes (d : GReg) (f : Core → Long × Grain) (c : Core) : Core :=
  let x := f c
  (c.setG d x.1).setSt x.2

/-- A constant of 5 bits, signed. -/
def q5 (q : BitVec 5) : Long := q.signExtend 40

/-- NOP (R144). -/
def execNop (i : Iss)  (s : State) : Host.Outcome State Fault Refusal :=
  instr i ({ len := 1, info := regInfo [] [] }) (onRegs (fun c => c)) s

/-- MOV (R144). -/
def execMov (i : Iss) (d r : GReg) (s : State) : Host.Outcome State Fault Refusal :=
  instr i (regSpec 1 [r] d false false) (onRegs (putVal d (fun c => c.gr r))) s

/-- MOVQ (R144). -/
def execMovq (i : Iss) (d : GReg) (q : BitVec 5) (s : State) : Host.Outcome State Fault Refusal :=
  instr i (regSpec 1 [] d false false) (onRegs (putVal d (fun _ => q5 q))) s

/-- MOVI (R145). -/
def execMovi (i : Iss) (d : GReg) (imm : BitVec 23) (s : State) : Host.Outcome State Fault Refusal :=
  instr i (regSpec 2 [] d false false) (onRegs (putVal d (fun _ => imm.signExtend 40))) s

/-- MOVH (R145). -/
def execMovh (i : Iss) (d : GReg) (imm : BitVec 17) (s : State) : Host.Outcome State Fault Refusal :=
  instr i (regSpec 2 [d] d false false) (onRegs (putVal d (fun c => imm ++ (c.gr d).setWidth 23))) s

/-- ADD (R146). -/
def execAdd (i : Iss) (f : RForm) (s : State) : Host.Outcome State Fault Refusal :=
  instr i (rSpec f true) (onRegs (putRes (rDst f) (fun c => addF c.st (c.gr (rSrc1 f)) (c.gr (rSrc2 f)) false))) s

/-- ADC (R146). -/
def execAdc (i : Iss) (d r : GReg) (s : State) : Host.Outcome State Fault Refusal :=
  instr i (regSpec 1 [d, r] d true true) (onRegs (putRes d (fun c => addF c.st (c.gr d) (c.gr r) (c.st.getLsbD stC)))) s

/-- ADDQ (R146). -/
def execAddq (i : Iss) (d : GReg) (q : BitVec 5) (s : State) : Host.Outcome State Fault Refusal :=
  instr i (regSpec 1 [d] d false true) (onRegs (putRes d (fun c => addF c.st (c.gr d) (q5 q) false))) s

/-- ADDI (R146). -/
def execAddi (i : Iss) (d r : GReg) (imm : BitVec 18) (s : State) : Host.Outcome State Fault Refusal :=
  instr i (regSpec 2 [r] d false true) (onRegs (putRes d (fun c => addF c.st (c.gr r) (sx18 imm) false))) s

/-- SUB (R146). -/
def execSub (i : Iss) (f : RForm) (s : State) : Host.Outcome State Fault Refusal :=
  instr i (rSpec f true) (onRegs (putRes (rDst f) (fun c => subF c.st (c.gr (rSrc1 f)) (c.gr (rSrc2 f)) false))) s

/-- SBC (R146). -/
def execSbc (i : Iss) (d r : GReg) (s : State) : Host.Outcome State Fault Refusal :=
  instr i (regSpec 1 [d, r] d true true) (onRegs (putRes d (fun c => subF c.st (c.gr d) (c.gr r) (c.st.getLsbD stC)))) s

/-- RSUBI (R146). -/
def execRsubi (i : Iss) (d r : GReg) (imm : BitVec 18) (s : State) : Host.Outcome State Fault Refusal :=
  instr i (regSpec 2 [r] d false true) (onRegs (putRes d (fun c => subF c.st (sx18 imm) (c.gr r) false))) s

/-- NEG (R146). -/
def execNeg (i : Iss) (d r : GReg) (s : State) : Host.Outcome State Fault Refusal :=
  instr i (regSpec 1 [r] d false true) (onRegs (putRes d (fun c => subF c.st 0 (c.gr r) false))) s

/-- AND (R147). -/
def execAnd (i : Iss) (f : RForm) (s : State) : Host.Outcome State Fault Refusal :=
  instr i (rSpec f true) (onRegs (putRes (rDst f) (fun c => logicF c.st (c.gr (rSrc1 f) &&& c.gr (rSrc2 f))))) s

/-- ANDI (R145, R147). -/
def execAndi (i : Iss) (d r : GReg) (imm : BitVec 18) (s : State) : Host.Outcome State Fault Refusal :=
  instr i (regSpec 2 [r] d false true) (onRegs (putRes d (fun c => logicF c.st (c.gr r &&& sx18 imm)))) s

/-- OR (R147). -/
def execOr (i : Iss) (f : RForm) (s : State) : Host.Outcome State Fault Refusal :=
  instr i (rSpec f true) (onRegs (putRes (rDst f) (fun c => logicF c.st (c.gr (rSrc1 f) ||| c.gr (rSrc2 f))))) s

/-- ORI (R145, R147). -/
def execOri (i : Iss) (d r : GReg) (imm : BitVec 18) (s : State) : Host.Outcome State Fault Refusal :=
  instr i (regSpec 2 [r] d false true) (onRegs (putRes d (fun c => logicF c.st (c.gr r ||| zx18 imm)))) s

/-- XOR (R147). -/
def execXor (i : Iss) (f : RForm) (s : State) : Host.Outcome State Fault Refusal :=
  instr i (rSpec f true) (onRegs (putRes (rDst f) (fun c => logicF c.st (c.gr (rSrc1 f) ^^^ c.gr (rSrc2 f))))) s

/-- XORI (R145, R147). -/
def execXori (i : Iss) (d r : GReg) (imm : BitVec 18) (s : State) : Host.Outcome State Fault Refusal :=
  instr i (regSpec 2 [r] d false true) (onRegs (putRes d (fun c => logicF c.st (c.gr r ^^^ zx18 imm)))) s

/-- NOT (R144, R147). -/
def execNot (i : Iss) (d r : GReg) (s : State) : Host.Outcome State Fault Refusal :=
  instr i (regSpec 1 [r] d false true) (onRegs (putRes d (fun c => logicF c.st (~~~(c.gr r))))) s

/-- SHL (R148). -/
def execShl (i : Iss) (f : RForm) (s : State) : Host.Outcome State Fault Refusal :=
  instr i (rSpec f true) (onRegs (putRes (rDst f) (fun c => shiftF c.st .left (c.gr (rSrc1 f)) ((c.gr (rSrc2 f)).toNat % 64)))) s

/-- SHR (R148). -/
def execShr (i : Iss) (f : RForm) (s : State) : Host.Outcome State Fault Refusal :=
  instr i (rSpec f true) (onRegs (putRes (rDst f) (fun c => shiftF c.st .right (c.gr (rSrc1 f)) ((c.gr (rSrc2 f)).toNat % 64)))) s

/-- SAR (R148). -/
def execSar (i : Iss) (f : RForm) (s : State) : Host.Outcome State Fault Refusal :=
  instr i (rSpec f true) (onRegs (putRes (rDst f) (fun c => shiftF c.st .arith (c.gr (rSrc1 f)) ((c.gr (rSrc2 f)).toNat % 64)))) s

/-- SHLQ (R148). -/
def execShlq (i : Iss) (d : GReg) (u : BitVec 5) (s : State) : Host.Outcome State Fault Refusal :=
  instr i (regSpec 1 [d] d false true) (onRegs (putRes d (fun c => shiftF c.st .left (c.gr d) u.toNat))) s

/-- SHRQ (R148). -/
def execShrq (i : Iss) (d : GReg) (u : BitVec 5) (s : State) : Host.Outcome State Fault Refusal :=
  instr i (regSpec 1 [d] d false true) (onRegs (putRes d (fun c => shiftF c.st .right (c.gr d) u.toNat))) s

/-- SARQ (R148). -/
def execSarq (i : Iss) (d : GReg) (u : BitVec 5) (s : State) : Host.Outcome State Fault Refusal :=
  instr i (regSpec 1 [d] d false true) (onRegs (putRes d (fun c => shiftF c.st .arith (c.gr d) u.toNat))) s

/-- SHLI (R148). -/
def execShli (i : Iss) (d r : GReg) (sh : BitVec 6) (s : State) : Host.Outcome State Fault Refusal :=
  instr i (regSpec 2 [r] d false true) (onRegs (putRes d (fun c => shiftF c.st .left (c.gr r) sh.toNat))) s

/-- SHRI (R148). -/
def execShri (i : Iss) (d r : GReg) (sh : BitVec 6) (s : State) : Host.Outcome State Fault Refusal :=
  instr i (regSpec 2 [r] d false true) (onRegs (putRes d (fun c => shiftF c.st .right (c.gr r) sh.toNat))) s

/-- SARI (R148). -/
def execSari (i : Iss) (d r : GReg) (sh : BitVec 6) (s : State) : Host.Outcome State Fault Refusal :=
  instr i (regSpec 2 [r] d false true) (onRegs (putRes d (fun c => shiftF c.st .arith (c.gr r) sh.toNat))) s

/-- CLZ (R149). -/
def execClz (i : Iss) (d r : GReg) (s : State) : Host.Outcome State Fault Refusal :=
  instr i (regSpec 1 [r] d false false) (onRegs (putVal d (fun c => BitVec.ofNat 40 (clz (c.gr r))))) s

/-- CLS (R149). -/
def execCls (i : Iss) (d r : GReg) (s : State) : Host.Outcome State Fault Refusal :=
  instr i (regSpec 1 [r] d false false) (onRegs (putVal d (fun c => BitVec.ofNat 40 (cls (c.gr r))))) s

/-- MAX (R149). -/
def execMax (i : Iss) (d r t : GReg) (s : State) : Host.Outcome State Fault Refusal :=
  instr i (regSpec 2 [r, t] d false false) (onRegs (putVal d (fun c => if (c.gr r).slt (c.gr t) then c.gr t else c.gr r))) s

/-- MIN (R149). -/
def execMin (i : Iss) (d r t : GReg) (s : State) : Host.Outcome State Fault Refusal :=
  instr i (regSpec 2 [r, t] d false false) (onRegs (putVal d (fun c => if (c.gr r).slt (c.gr t) then c.gr r else c.gr t))) s

/-- ADDS (R147). -/
def execAdds (i : Iss) (d r t : GReg) (s : State) : Host.Outcome State Fault Refusal :=
  instr i (regSpec 2 [r, t] d false true) (onRegs (putRes d (fun c => satF c.st ((c.gr r).toInt + (c.gr t).toInt)))) s

/-- SUBS (R147). -/
def execSubs (i : Iss) (d r t : GReg) (s : State) : Host.Outcome State Fault Refusal :=
  instr i (regSpec 2 [r, t] d false true) (onRegs (putRes d (fun c => satF c.st ((c.gr r).toInt - (c.gr t).toInt)))) s

/-- SXG (R144). -/
def execSxg (i : Iss) (d r : GReg) (s : State) : Host.Outcome State Fault Refusal :=
  instr i (regSpec 1 [r] d false false) (onRegs (putVal d (fun c => ((c.gr r).setWidth 20 : Grain).signExtend 40))) s

/-- ZXG (R144). -/
def execZxg (i : Iss) (d r : GReg) (s : State) : Host.Outcome State Fault Refusal :=
  instr i (regSpec 1 [r] d false false) (onRegs (putVal d (fun c => ((c.gr r).setWidth 20 : Grain).setWidth 40))) s

/-- SWPG (R144). -/
def execSwpg (i : Iss) (d r : GReg) (s : State) : Host.Outcome State Fault Refusal :=
  instr i (regSpec 1 [r] d false false) (onRegs (putVal d (fun c => ((c.gr r).setWidth 20 : Grain) ++ ((c.gr r >>> 20).setWidth 20 : Grain)))) s

/-- NORM (R156). -/
def execNorm (i : Iss) (d r : GReg) (s : State) : Host.Outcome State Fault Refusal :=
  instr i (regSpec 1 [r] d false true) (onRegs (putRes d (fun c => normF c.st 0 (c.gr r)))) s

/-- NORMX (R156, R157). -/
def execNormx (i : Iss) (d r : GReg) (m : BitVec 2) (s : State) : Host.Outcome State Fault Refusal :=
  instr i (regSpec 2 [r] d false true) (onRegs (putRes d (fun c => normF c.st m.toNat (c.gr r)))) s

/-- ADDD (R150). -/
def execAddd (i : Iss) (d r : GReg) (s : State) : Host.Outcome State Fault Refusal :=
  instr i (regSpec 1 [d, r] d false false) (onRegs (putVal d (fun c => dualWrap (· + ·) (c.gr d) (c.gr r)))) s

/-- SUBD (R150). -/
def execSubd (i : Iss) (d r : GReg) (s : State) : Host.Outcome State Fault Refusal :=
  instr i (regSpec 1 [d, r] d false false) (onRegs (putVal d (fun c => dualWrap (· - ·) (c.gr d) (c.gr r)))) s

/-- ADDDS (R150). -/
def execAddds (i : Iss) (d r : GReg) (s : State) : Host.Outcome State Fault Refusal :=
  instr i (regSpec 1 [d, r] d false true) (onRegs (putRes d (fun c => dualSat c.st (· + ·) (c.gr d) (c.gr r)))) s

/-- SUBDS (R150). -/
def execSubds (i : Iss) (d r : GReg) (s : State) : Host.Outcome State Fault Refusal :=
  instr i (regSpec 1 [d, r] d false true) (onRegs (putRes d (fun c => dualSat c.st (· - ·) (c.gr d) (c.gr r)))) s

/-- ABSDS (R150). -/
def execAbsds (i : Iss) (d r : GReg) (s : State) : Host.Outcome State Fault Refusal :=
  instr i (regSpec 1 [r] d false true) (onRegs (putRes d (fun c => dualSat c.st (fun a _ => if a < 0 then -a else a) (c.gr r) (c.gr r)))) s

/-- MAXD (R150). -/
def execMaxd (i : Iss) (d r t : GReg) (s : State) : Host.Outcome State Fault Refusal :=
  instr i (regSpec 2 [r, t] d false false) (onRegs (putVal d (fun c => dualWrap max (c.gr r) (c.gr t)))) s

/-- MIND (R150). -/
def execMind (i : Iss) (d r t : GReg) (s : State) : Host.Outcome State Fault Refusal :=
  instr i (regSpec 2 [r, t] d false false) (onRegs (putVal d (fun c => dualWrap min (c.gr r) (c.gr t)))) s

/-- SARD (R150). -/
def execSard (i : Iss) (d r : GReg) (sh : BitVec 5) (rnd : Bool) (s : State) : Host.Outcome State Fault Refusal :=
  instr i ({ regSpec 2 [r] d false false with bar := if 20 ≤ sh.toNat then some 2 else none }) (onRegs (putVal d (fun c => sard (c.gr r) sh.toNat rnd))) s

/-- R154: LEN from 1 to 40, POS + LEN at most 40. -/
def fieldBar (pos len : BitVec 6) : Option Nat :=
  if len = 0 ∨ 40 < len.toNat ∨ 40 < pos.toNat + len.toNat then some 2 else none

/-- BFX (R154). -/
def execBfx (i : Iss) (d r : GReg) (pos len : BitVec 6) (sx : Bool) (s : State) : Host.Outcome State Fault Refusal :=
  instr i ({ regSpec 2 [r] d false false with bar := fieldBar pos len }) (onRegs (putVal d (fun c => bfx (c.gr r) pos.toNat len.toNat sx))) s

/-- BFI (R154). -/
def execBfi (i : Iss) (d r : GReg) (pos len : BitVec 6) (s : State) : Host.Outcome State Fault Refusal :=
  instr i ({ regSpec 2 [d, r] d false false with bar := fieldBar pos len }) (onRegs (putVal d (fun c => bfi (c.gr d) (c.gr r) pos.toNat len.toNat))) s

/-- PERM (R155). -/
def execPerm (i : Iss) (d r : GReg) (sel : BitVec 15) (s : State) : Host.Outcome State Fault Refusal :=
  instr i (regSpec 2 [r] d false false) (onRegs (putVal d (fun c => perm (c.gr r) sel.toNat))) s

/-! ### Predicates (R158 to R160) -/

/-- What an instruction that writes predicates reads and writes: a reserved condition is an illegal encoding, equal predicates
other than P0 break an operand restriction. -/
def predSpec (reads : List GReg) (p q : BitVec 3) (reserved flagR waitAll : Bool) : InsSpec :=
  { len := 2, bad := reserved, bar := if p = q ∧ p ≠ 0 then some 2 else none, waitAll := waitAll,
    info := { regInfo reads [] with flagR := flagR, predW := [p, q].filter (· ≠ 0) } }

/-- Two predicates written. -/
def putPair (p q : BitVec 3) (f : Core → Bool × Bool) (c : Core) : Core :=
  let x := f c
  (c.setP p x.1).setP q x.2

/-- A condition and its inverse. -/
def bothWays (b : Option Bool) : Bool × Bool := (b.getD false, !b.getD false)

/-- The low and the high lane as grains. -/
def grainL (v : Long) : Grain := v.setWidth 20
def grainH (v : Long) : Grain := (v >>> 20).setWidth 20

/-- CMP (R158). -/
def execCmp (i : Iss) (pt pf : BitVec 3) (cond : BitVec 4) (r t : GReg) (s : State) : Host.Outcome State Fault Refusal :=
  instr i (predSpec [r, t] pt pf (decide (12 ≤ cond.toNat)) false false) (onRegs (putPair pt pf (fun c => bothWays (cmpCond cond.toNat (c.gr r) (c.gr t))))) s

/-- CMPI (R158). -/
def execCmpi (i : Iss) (pt pf : BitVec 3) (cond : BitVec 4) (r : GReg) (imm : BitVec 11) (s : State) : Host.Outcome State Fault Refusal :=
  instr i (predSpec [r] pt pf (decide (12 ≤ cond.toNat)) false false) (onRegs (putPair pt pf (fun c => bothWays (cmpCond cond.toNat (c.gr r) (imm.signExtend 40))))) s

/-- CMPD (R159). -/
def execCmpd (i : Iss) (pl ph : BitVec 3) (cond : BitVec 4) (r t : GReg) (s : State) : Host.Outcome State Fault Refusal :=
  instr i (predSpec [r, t] pl ph (decide (12 ≤ cond.toNat)) false false) (onRegs (putPair pl ph (fun c =>
    ((laneCond cond.toNat (grainL (c.gr r)) (grainL (c.gr t))).getD false,
     (laneCond cond.toNat (grainH (c.gr r)) (grainH (c.gr t))).getD false)))) s

/-- PSET (R158, R197). -/
def execPset (i : Iss) (pt pf : BitVec 3) (cond : BitVec 4) (s : State) : Host.Outcome State Fault Refusal :=
  instr i (predSpec [] pt pf (decide (14 ≤ cond.toNat)) true (cond == 12 || cond == 13)) (onRegs (putPair pt pf (fun c => bothWays (flagCond cond.toNat c.st)))) s

/-- PLOG (R160). -/
def execPlog (i : Iss) (pd pa pb : BitVec 3) (op : BitVec 3) (s : State) : Host.Outcome State Fault Refusal :=
  instr i ({ len := 2, info := { regInfo [] [] with predR := [pa, pb], predW := [pd].filter (· ≠ 0) } }) (onRegs (fun c => c.setP pd (plogOp op.toNat (c.p pa) (c.p pb)))) s

/-! ### Accumulators (R152, R153) -/

/-- What an accumulator instruction reads and writes. -/
def accSpec (reads writes : List GReg) (flagW : Bool) : InsSpec :=
  { len := 2, info := { regInfo reads writes with acc := true, flagW := flagW } }

/-- A sum of products into an accumulator, cleared first if clr, modulo 2^80. -/
def accAdd (k : MacKind) (a : BitVec 2) (clr : Bool) (r t : GReg) (c : Core) : Core :=
  c.setAc a ((if clr then 0 else c.ac a) + BitVec.ofInt 80 (macSum k (c.gr r) (c.gr t)))

/-- MACD (R152). -/
def execMacd (i : Iss) (a : BitVec 2) (clr : Bool) (r t : GReg) (s : State) : Host.Outcome State Fault Refusal :=
  instr i (accSpec [r, t] [] false) (onRegs (accAdd .macd a clr r t)) s

/-- MSUD (R152). -/
def execMsud (i : Iss) (a : BitVec 2) (clr : Bool) (r t : GReg) (s : State) : Host.Outcome State Fault Refusal :=
  instr i (accSpec [r, t] [] false) (onRegs (accAdd .msud a clr r t)) s

/-- MACX (R152). -/
def execMacx (i : Iss) (a : BitVec 2) (clr : Bool) (r t : GReg) (s : State) : Host.Outcome State Fault Refusal :=
  instr i (accSpec [r, t] [] false) (onRegs (accAdd .macx a clr r t)) s

/-- MDIF (R152). -/
def execMdif (i : Iss) (a : BitVec 2) (clr : Bool) (r t : GReg) (s : State) : Host.Outcome State Fault Refusal :=
  instr i (accSpec [r, t] [] false) (onRegs (accAdd .mdif a clr r t)) s

/-- ACCR (R153). -/
def execAccr (i : Iss) (d : GReg) (a : BitVec 2) (rnd w20 : Bool) (sh : BitVec 6) (s : State) : Host.Outcome State Fault Refusal :=
  instr i (accSpec [] [d] true) (onRegs (putRes d (fun c => accrF c.st (c.ac a) rnd w20 sh.toNat))) s

/-- RND, W20 and SH of modes 1 to 4 must be 0 (R153, R189). -/
def extBar (ext : BitVec 8) : Option Nat := if ext = 0 then none else some 2

/-- ACCH (R153). -/
def execAcch (i : Iss) (d : GReg) (a : AccArg) (s : State) : Host.Outcome State Fault Refusal :=
  instr i { accSpec [] [d] false with bar := extBar a.ext } (onRegs (putVal d (fun c => (c.ac a.acc >>> 40).setWidth 40))) s

/-- ACCL (R153). -/
def execAccl (i : Iss) (d : GReg) (a : AccArg) (s : State) : Host.Outcome State Fault Refusal :=
  instr i { accSpec [] [d] false with bar := extBar a.ext } (onRegs (putVal d (fun c => (c.ac a.acc).setWidth 40))) s

/-- ACCW (R153). -/
def execAccw (i : Iss) (a : AccArg) (r t : GReg) (s : State) : Host.Outcome State Fault Refusal :=
  instr i { accSpec [r, t] [] false with bar := extBar a.ext } (onRegs (fun c => c.setAc a.acc (c.gr r ++ c.gr t))) s

/-- ACLR (R153). -/
def execAclr (i : Iss) (a : AccArg) (s : State) : Host.Outcome State Fault Refusal :=
  instr i { accSpec [] [] false with bar := extBar a.ext } (onRegs (fun c => c.setAc a.acc 0)) s

end Sys2Proof.Machine
end

