-- ==== Sys2Proof/Machine/Gmem.lean ====
section
/-! DEFINITION. Gitik loads, stores and atomic accesses (R165, R166, R170), queue instructions (R186 to R188, R293), FENCE and
WHIST (R169, R185), and the block instructions (R179, R180). -/

namespace Sys2Proof.Machine

open Sys2Proof

/-! ### Loads and stores -/

/-- What an instruction that accesses memory reads and writes. -/
def memSpec (len : Nat) (reads writes : List GReg) : InsSpec := { len := len, info := { regInfo reads writes with mem := true } }

/-- A load of the kind into a register. -/
def loadTo (d : GReg) (ea : Core → Nat) (k : LoadKind) (i : Nat) (s : State) : Res Unit :=
  (s.load i (ea (s.core i)) k).then (fun v t => ok () (t.onCore i (·.setG d v)))

/-- A store of a register. -/
def storeFrom (d : GReg) (ea : Core → Nat) (long : Bool) (i : Nat) (s : State) : Res Unit :=
  s.store i (ea (s.core i)) long ((s.core i).gr d)

/-- LDG (R165). -/
def execLdg (i : Iss) (f : MForm) (s : State) : Host.Outcome State Fault Refusal :=
  instr i (memSpec (mLen f) [mBase f] [mReg f]) (onAccess (loadTo (mReg f) (mEa f) .grain)) s

/-- LDGU (R165). -/
def execLdgu (i : Iss) (d r : GReg) (imm : BitVec 18) (s : State) : Host.Outcome State Fault Refusal :=
  instr i (memSpec 2 [r] [d]) (onAccess (loadTo d (mEa (.long d r imm)) .grainU)) s

/-- LDL (R165, R168). -/
def execLdl (i : Iss) (f : MForm) (s : State) : Host.Outcome State Fault Refusal :=
  instr i (memSpec (mLen f) [mBase f] [mReg f]) (onAccess (loadTo (mReg f) (mEa f) .long)) s

/-- STG (R165). -/
def execStg (i : Iss) (f : MForm) (s : State) : Host.Outcome State Fault Refusal :=
  instr i (memSpec (mLen f) [mReg f, mBase f] []) (onAccess (storeFrom (mReg f) (mEa f) false)) s

/-- STL (R165, R168). -/
def execStl (i : Iss) (f : MForm) (s : State) : Host.Outcome State Fault Refusal :=
  instr i (memSpec (mLen f) [mReg f, mBase f] []) (onAccess (storeFrom (mReg f) (mEa f) true)) s

/-- inc of LDX and STX (R166). -/
def ixInc (t : GReg) (scale : BitVec 2) (c : Core) : Long := c.gr t <<< scale.toNat

/-- Their effective address. -/
def ixEa (r t : GReg) (scale : BitVec 2) (upd : Bool) (c : Core) : Nat :=
  (if upd then c.gr r else c.gr r + ixInc t scale c).toNat

/-- The base update, after an access without fault. -/
def ixUpd (r : GReg) (inc : Long) (upd : Bool) (i : Nat) (s : State) : Res Unit :=
  ok () (if upd then s.onCore i (fun c => c.setG r (c.gr r + inc)) else s)

/-- The load of a SIZE. -/
def ixKind (size : BitVec 2) : LoadKind := if size = 0 then .grain else if size = 1 then .grainU else .long

/-- LDX (R166). -/
def execLdx (i : Iss) (d r t : GReg) (size scale : BitVec 2) (upd : Bool) (s : State) : Host.Outcome State Fault Refusal :=
  instr i { memSpec 2 [r, t] (if upd then [d, r] else [d]) with bad := size == 3, bar := if upd ∧ d = r then some 2 else none }
    (onAccess (fun j u =>
      let inc := ixInc t scale (u.core j)
      (loadTo d (ixEa r t scale upd) (ixKind size) j u).then (fun _ v => ixUpd r inc upd j v))) s

/-- STX (R166): SIZE 1 acts as SIZE 0. -/
def execStx (i : Iss) (d r t : GReg) (size scale : BitVec 2) (upd : Bool) (s : State) : Host.Outcome State Fault Refusal :=
  instr i { memSpec 2 [d, r, t] (if upd then [r] else []) with bad := size == 3 }
    (onAccess (fun j u =>
      let inc := ixInc t scale (u.core j)
      (storeFrom d (ixEa r t scale upd) (size == 2) j u).then (fun _ v => ixUpd r inc upd j v))) s

/-! ### ATOM (R170) -/

/-- The atomic access to the long at a: its old value; f gives what to store, if anything. -/
def State.atom (s : State) (i a : Nat) (f : Long → Option Long) : Res Long :=
  let b := addrAdd a 1
  if s.touches i a 2 then (.error .watch, s)
  else if a % 2 = 1 then stop { vec := 2, cause := 3, addr := BitVec.ofNat 40 a, write := true } s
  else if s.isReg i a || s.isReg i b then stop (bus 9 a true) s
  else match s.cls i a with
    | .mem k =>
      if (s.core i).attr a 1 || (s.core i).attr b 1 then stop { vec := 5, cause := 1, addr := BitVec.ofNat 40 a, write := true } s
      else if s.badLong k then stop (bus 4 a false) (s.foundUnc k)
      else
        let old := s.long k
        (match f old with
          | some v => ok old (((s.setLong k v).spoil k 2).storedAt i [a, addrAdd a 1])
          | none => ok old s)
    | _ => stop (bus 1 a true) s

/-- An ATOM stands alone (R193). -/
def atomSpec (reads : List GReg) (d : GReg) (flagW : Bool) : InsSpec :=
  { len := 2, info := { regInfo reads [d] with alone := true, mem := true, flagW := flagW } }

/-- The old value into Gd. -/
def atomTo (d r : GReg) (f : Core → Long → Option Long) (after : Long → Core → Core) (i : Nat) (s : State) : Res Unit :=
  let c := s.core i
  (s.atom i (c.gr r).toNat (f c)).then (fun old t => ok () (t.onCore i (fun x => (after old x).setG d old)))

/-- AXCH. -/
def execAxch (i : Iss) (d r t : GReg) (s : State) : Host.Outcome State Fault Refusal :=
  instr i (atomSpec [r, t] d false) (onAccess (atomTo d r (fun c _ => some (c.gr t)) (fun _ x => x))) s

/-- AADD. -/
def execAadd (i : Iss) (d r t : GReg) (s : State) : Host.Outcome State Fault Refusal :=
  instr i (atomSpec [r, t] d false) (onAccess (atomTo d r (fun c old => some (old + c.gr t)) (fun _ x => x))) s

/-- ACAS: Z says whether it stored. -/
def execAcas (i : Iss) (d r t : GReg) (s : State) : Host.Outcome State Fault Refusal :=
  instr i (atomSpec [d, r, t] d true)
    (onAccess (atomTo d r (fun c old => if old = c.gr d then some (c.gr t) else none)
      (fun old x => x.setSt (putBit x.st stZ (old == x.gr d))))) s

/-! ### Queue instructions -/

/-- May a grain hold a message or buffer: local store or cluster memory, not a DEV region (R188, R206)? -/
def State.inBuf (s : State) (i a : Nat) : Bool :=
  match s.place i a with
  | .mem k => !(decide (0x1000000000 ≤ k) && decide (k < 0x10000000000)) && !(s.core i).attr a 2
  | .off => decide (a < 0x1000000000)
  | _ => false

/-- The faults of a message or buffer of n longs at a, before any message moves. -/
def State.bufFault (s : State) (i a n q : Nat) (write : Bool) : Option Flt :=
  if a % 2 = 1 then some { vec := 2, cause := 3, addr := BitVec.ofNat 40 a, write := write }
  else match ((List.range (2 * n)).map (addrAdd a)).find? (fun x => !s.inBuf i x) with
    | some x => some (bus 6 x write)
    | none =>
      if !s.domOn domQueue then some (bus 1 q write)
      else firstOf ((List.range n).map (fun j => s.check2 i (addrAdd a (2 * j)) write))

/-- Load n longs from a. -/
def loadLongs (i : Nat) : Nat → Nat → List Long → State → Res (List Long)
  | _, 0, acc, s => ok acc s
  | a, n + 1, acc, s => (s.ldLong i a).then (fun v t => loadLongs i (addrAdd a 2) n (acc ++ [v]) t)

/-- Store longs from a. -/
def storeLongs (i : Nat) : Nat → List Long → State → Res Unit
  | _, [], s => ok () s
  | a, v :: r, s => (s.stLong i a v).then (fun _ t => storeLongs i (addrAdd a 2) r t)

/-- QPUT (R186). -/
def qputAct (d r : GReg) (i : Nat) (s : State) : Res Unit :=
  let c := s.core i
  let q := (c.gr d).toNat % 65536
  let n := (c.gr d).toNat / 65536 % 8 + 1
  let a := (c.gr r).toNat
  if s.touches i a (2 * n) then (.error .watch, s)
  else match s.bufFault i a n q false with
    | some f => stop f s
    | none => (loadLongs i a n [] s).then (fun l t =>
        ok () ((t.enqueue q { longs := l }).onCore i (fun x => x.setSt (putBit x.st stZ (!t.accepts q)))))

/-- QGET (R187): the buffer is 8 longs. -/
def qgetAct (d r : GReg) (i : Nat) (s : State) : Res Unit :=
  let c := s.core i
  let q := (c.gr d).toNat % 65536
  let a := (c.gr r).toNat
  if s.touches i a 16 then (.error .watch, s)
  else match s.bufFault i a 8 q true with
    | some f => stop f s
    | none =>
      match s.takeMsg q with
      | (none, t) => ok () (t.onCore i (fun x => (x.setSt (putBit x.st stZ true)).setG d 0))
      | (some m, t) => (storeLongs i a m.longs t).then (fun _ u =>
          ok () (u.onCore i (fun x => (x.setSt (putBit x.st stZ false)).setG d (BitVec.ofNat 40 (m.longs.length + (if m.err then 16 else 0))))))

/-- Instructions that never pair (R193). -/
def aloneSpec (reads writes : List GReg) (mem flagW : Bool) : InsSpec :=
  { len := 1, info := { regInfo reads writes with alone := true, mem := mem, flagW := flagW } }

/-- QPUT (R186, R188). -/
def execQput (i : Iss) (d r : GReg) (s : State) : Host.Outcome State Fault Refusal :=
  instr i (aloneSpec [d, r] [] true true) (onAccess (qputAct d r)) s

/-- QGET (R187, R188). -/
def execQget (i : Iss) (d r : GReg) (s : State) : Host.Outcome State Fault Refusal :=
  instr i (aloneSpec [d, r] [d] true true) (onAccess (qgetAct d r)) s

/-- WHIST (R185, R518): a whistle request of source CORE while it is enabled. -/
def execWhist (i : Iss) (r : GReg) (s : State) : Host.Outcome State Fault Refusal :=
  instr i (aloneSpec [r] [] false false) (fun j t =>
    (.go, if t.bit R.WH_CTRL_CORE_EN then t.whRequest ⟨2, ((t.core j).gr r).setWidth 16, j, none, t.time, none⟩ else t)) s

/-- FENCE (R169): every earlier store has been performed when its instruction retired. -/
def execFence (i : Iss) (s : State) : Host.Outcome State Fault Refusal :=
  instr i (aloneSpec [] [] false false) (fun _ t => (.go, t)) s

/-! ### Block instructions -/

/-- The boundary between elements: the leash counts one; a halt asked for, a step done, or the first applicable event ends the
step with PC on the instruction (R180, R226, R240, R533). -/
def State.between (s : State) (i : Nat) : Option State :=
  let t := s.onCore i Core.leashCount
  let c := t.core i
  if c.haltReq || c.step then some t
  else (t.boundaryEvent i).map (fun e => t.takeException i e)

/-- Elements, at most n; elem answers whether the instruction stops at this one; fin acts once none is left. -/
def blockGo (i : Nat) (elem : Nat → State → Res Bool) (fin : Core → Core) : Nat → State → Fin × State
  | 0, s => (.go, s.onCore i fin)
  | n + 1, s =>
    match elem i s with
    | (.error (.fault f), t) => (.fault f, t)
    | (.error .watch, t) => (.watch, t)
    | (.error .gone, t) => (.stay, t)
    | (.ok true, t) => (.go, t)
    | (.ok false, t) =>
      if n = 0 then (.go, t.onCore i fin)
      else
        let t1 := if t.cics = s.cics then t else t.offerAll
        match t1.between i with
        | some u => (.stay, u)
        | none => blockGo i elem fin n t1

/-- The step e of an element. -/
def blkStep (size dec : Bool) : Long := if dec then (if size then -2 else -1) else (if size then 2 else 1)

/-- What a block instruction reads and writes: D, S and T differ. -/
def blkSpec (d r t : GReg) (writes : List GReg) (flagW : Bool) : InsSpec :=
  { len := 2, bar := if d = r ∨ d = t ∨ r = t then some 2 else none,
    info := { regInfo [d, r, t] writes with alone := true, mem := true, flagW := flagW } }

/-- A register moves on by v. -/
def Core.bump (c : Core) (r : GReg) (v : Long) : Core := c.setG r (c.gr r + v)

/-- The load of an element. -/
def blkKind (size : Bool) : LoadKind := if size then .long else .grain

/-- One element of each. -/
def movsElem (size dec : Bool) (d r t : GReg) (i : Nat) (s : State) : Res Bool :=
  let e := blkStep size dec
  (s.load i ((s.core i).gr r).toNat (blkKind size)).then (fun v u =>
    (u.store i ((u.core i).gr d).toNat size v).then (fun _ w =>
      ok false (w.onCore i (fun c => ((c.bump d e).bump r e).bump t (-1)))))

def filsElem (size dec : Bool) (d r t : GReg) (i : Nat) (s : State) : Res Bool :=
  (s.store i ((s.core i).gr d).toNat size ((s.core i).gr r)).then (fun _ w =>
    ok false (w.onCore i (fun c => (c.bump d (blkStep size dec)).bump t (-1))))

def cmpsElem (size dec : Bool) (d r t : GReg) (i : Nat) (s : State) : Res Bool :=
  let e := blkStep size dec
  (s.load i ((s.core i).gr d).toNat (blkKind size)).then (fun a u =>
    (u.load i ((u.core i).gr r).toNat (blkKind size)).then (fun b w =>
      if a ≠ b then ok true (w.onCore i (fun c => c.setSt (subF c.st a b false).2))
      else ok false (w.onCore i (fun c => ((c.bump d e).bump r e).bump t (-1)))))

def scnsElem (size dec ne : Bool) (d r t : GReg) (i : Nat) (s : State) : Res Bool :=
  (s.load i ((s.core i).gr d).toNat (blkKind size)).then (fun a u =>
    let g := (u.core i).gr r
    let want : Long := if size then g else (g.setWidth 20 : Grain).signExtend 40
    if (a == want) != ne then ok true (u.onCore i (fun c => c.setSt (putBit c.st stZ true)))
    else ok false (u.onCore i (fun c => (c.bump d (blkStep size dec)).bump t (-1))))

/-- The count of a block instruction. -/
def blkCount (t : GReg) (i : Nat) (s : State) : Nat := ((s.core i).gr t).toNat

/-- MOVS (R179). -/
def execMovs (i : Iss) (size dec : Bool) (d r t : GReg) (s : State) : Host.Outcome State Fault Refusal :=
  instr i (blkSpec d r t [d, r, t] false) (fun j u => blockGo j (movsElem size dec d r t) (fun c => c) (blkCount t j u) u) s

/-- FILS (R179). -/
def execFils (i : Iss) (size dec : Bool) (d r t : GReg) (s : State) : Host.Outcome State Fault Refusal :=
  instr i (blkSpec d r t [d, t] false) (fun j u => blockGo j (filsElem size dec d r t) (fun c => c) (blkCount t j u) u) s

/-- CMPS (R179). -/
def execCmps (i : Iss) (size dec : Bool) (d r t : GReg) (s : State) : Host.Outcome State Fault Refusal :=
  instr i (blkSpec d r t [d, r, t] true) (fun j u =>
    blockGo j (cmpsElem size dec d r t)
      (fun c => c.setSt (putBit (putBit (putBit (putBit c.st stN false) stZ true) stC false) stV false)) (blkCount t j u) u) s

/-- SCNS (R179). -/
def execScns (i : Iss) (size dec ne : Bool) (d r t : GReg) (s : State) : Host.Outcome State Fault Refusal :=
  instr i (blkSpec d r t [d, t] true) (fun j u =>
    blockGo j (scnsElem size dec ne d r t) (fun c => c.setSt (putBit c.st stZ false)) (blkCount t j u) u) s

end Sys2Proof.Machine
end

