-- ==== Sys2Proof/Machine/Control.lean ====
section
/-! DEFINITION. Gitik control transfers (R171, R172), loops (R174), RETX (R248), BWAIT (R182), special registers (R135 to R138),
side-unit operations (R161 to R164), and the commands that hold, start, load, halt and inspect cores (R244, R488, R536). -/

namespace Sys2Proof.Machine

open Sys2Proof

/-! ### Transfers -/

/-- What a transfer reads and writes. -/
def jmpSpec (len : Nat) (reads writes : List GReg) (waitAll : Bool) : InsSpec :=
  { len := len, waitAll := waitAll, info := { regInfo reads writes with branch := true } }

/-- BR (R144, R176). -/
def execBr (i : Iss) (r : GReg) (s : State) : Host.Outcome State Fault Refusal :=
  instr i (jmpSpec 1 [r] [] false) (fun j t => (.jump ((t.core j).gr r) true, t)) s

/-- JMPL (R171): the target is read before the link is written. -/
def execJmpl (i : Iss) (d r : GReg) (s : State) : Host.Outcome State Fault Refusal :=
  instr i (jmpSpec 1 [r] [d] false) (fun j t => (.jump ((t.core j).gr r) true, t.onCore j (fun c => c.setG d (c.pc + 1)))) s

/-- BRA (R171). -/
def execBra (i : Iss) (off : BitVec 18) (s : State) : Host.Outcome State Fault Refusal :=
  instr i (jmpSpec 2 [] [] false) (fun j t => (.jump ((t.core j).pc + sx18 off) true, t)) s

/-- CALL (R171). -/
def execCall (i : Iss) (d : GReg) (off : BitVec 18) (s : State) : Host.Outcome State Fault Refusal :=
  instr i (jmpSpec 2 [] [d] false) (fun j t => (.jump ((t.core j).pc + sx18 off) false, t.onCore j (fun c => c.setG d (c.pc + 2)))) s

/-- CALLE (R172). -/
def execCalle (i : Iss) (e : BitVec 3) (s : State) : Host.Outcome State Fault Refusal :=
  instr i (jmpSpec 1 [] [] true) (fun j t =>
    (.jump ((t.core j).en e.toNat) false, t.onCore j (fun c => { c with rp := c.pc + 1, sst := c.st }))) s

/-- RETE (R172). -/
def execRete (i : Iss) (s : State) : Host.Outcome State Fault Refusal :=
  instr i (jmpSpec 1 [] [] true) (fun j t =>
    (.jump (t.core j).rp false, t.onCore j (fun c => c.setSt ((c.st &&& 0xFFFF0) ||| (c.sst &&& 0xF))))) s

/-! ### Loops (R174) -/

/-- What REP and REPI are. -/
def repSpec (reads : List GReg) (len : BitVec 18) : InsSpec :=
  { len := 2, bar := if len = 0 then some 2 else none, rep := some len.toNat, info := { regInfo reads [] with alone := true } }

/-- A loop of count n over the len grains that follow. -/
def repAct (n : Long) (len : BitVec 18) (i : Nat) (s : State) : Fin × State :=
  let c := s.core i
  let l : Loop := ⟨n, c.pc + 2, c.pc + 1 + len.setWidth 40⟩
  if n = 0 then (.skip len.toNat, s)
  else if !c.la0 then (.go, s.setCore i { c with l0 := l, st := putBit c.st stLA0 true })
  else if !c.la1 then (.go, s.setCore i { c with l1 := l, st := putBit c.st stLA1 true })
  else (.fault { vec := 1, cause := 4, addr := c.pc }, s)

/-- REP. -/
def execRep (i : Iss) (r : GReg) (len : BitVec 18) (s : State) : Host.Outcome State Fault Refusal :=
  instr i (repSpec [r] len) (fun j t => repAct ((t.core j).gr r) len j t) s

/-- REPI. -/
def execRepi (i : Iss) (cnt : BitVec 10) (len : BitVec 18) (s : State) : Host.Outcome State Fault Refusal :=
  instr i (repSpec [] len) (repAct (cnt.setWidth 40) len) s

/-! ### RETX (R248) -/

/-- The core after a frame f has been restored. -/
def Core.restore (c : Core) (f : List Long) : Core :=
  let l (j : Nat) : Long := f.getD j 0
  let lvl : Loop := ⟨l 3, l 4, l 5⟩
  let k := (l 2).getLsbD 31
  let c1 : Core := { c with
    pc := l 0
    mode := ((l 1 >>> 20).setWidth 20 : Grain) &&& 0xF0000
    st := (((l 1).setWidth 20 : Grain) &&& 0x1800F) ||| (c.st &&& 0xE0000)
    pred := (l 2).setWidth 8 ||| 1
    mask := (l 2 >>> 32).setWidth 2
    leash := (l 2 >>> 20).setWidth 10
    l0 := if k then c.l0 else lvl
    l1 := if k then lvl else c.l1 }
  let c2 := ((c1.putG 1 (l 6)).putG 2 (l 7)).putG 31 (c.sp + 16)
  if (if k then c2.la1 else c2.la0) && lvl.cnt != 0 && c2.pc == lvl.fin + 1 then
    (if k then c2.loopEnd lvl.fin else c2.loopEnd0 lvl.fin false).1
  else c2

/-- RETX. -/
def execRetx (i : Iss) (s : State) : Host.Outcome State Fault Refusal :=
  instr i { aloneSpec [31] [1, 2, 31] true true with waitAll := true, setsLeash := true } (fun j t =>
    match loadLongs j (t.core j).sp.toNat 8 [] t with
    | (.ok f, u) => (.back, u.onCore j (·.restore f))
    | (.error (.fault f), u) => (.fault f, u)
    | (.error .watch, u) => (.watch, u)
    | (.error .gone, u) => (.stay, u)) s

/-! ### BWAIT (R181 to R183, R238, R241) -/

/-- The work beat is completed, once. -/
def State.bwaitMark (s : State) (i : Nat) : State :=
  let c := s.core i
  if c.completed = some c.work then s
  else
    let s1 := s.setCore i { c with completed := some c.work, ovr := none }
    if i < 1024 then s1.bwaitDone (i / 16) c.work else s1

/-- The wake latch is set: the core takes the notice. -/
def Core.wakeUp (c : Core) (d : GReg) : Core :=
  ({ c with wake := false, skip := false, work := c.wakeBeat, run := .running } : Core).setG d
    ((if c.skip then 0x8000000000 else 0) ||| c.tag.setWidth 40)

/-- What BWAIT is. -/
def bwaitSpec (d : GReg) : InsSpec := { aloneSpec [] [d] false false with waitAll := true }

/-- BWAIT. -/
def execBwait (i : Iss) (d : GReg) (s : State) : Host.Outcome State Fault Refusal :=
  instr i (bwaitSpec d) (fun j t =>
    let u := t.bwaitMark j
    if (u.core j).wake then (.go, u.onCore j (·.wakeUp d))
    else (.stay, u.onCore j (fun c => { c with leash := 0, run := .bwait d, prev := none }))) s

/-- A waiting core goes on: an event is taken first; else the wake latch, if it is set. -/
def State.bwaitGo (s : State) (i : Nat) : State :=
  if !s.active i then s
  else match (s.core i).run with
    | .bwait d =>
      (match s.boundaryEvent i with
        | some e => (s.takeException i e).pause i
        | none =>
          if (s.core i).wake then (s.onCore i (fun c => (c.wakeUp d).retire c (bwaitSpec d) false .go)).pause i else s)
    | _ => s

/-- BWAIT_WAKE (R182). -/
def execBwaitWake (core : CoreSel) (s : State) : Host.Outcome State Fault Refusal := doneP (s.bwaitGo (coreIdx core))

/-! ### Special registers (R135 to R138) -/

/-- Special registers 0 to 25 as MFS reads them; 14 of the steward and kennel cores is open (log 1). -/
def State.srRead (s : State) (i sr : Nat) : Long :=
  let c := s.core i
  if sr = 0 then c.pc
  else if sr = 1 then c.st.setWidth 40
  else if sr = 2 then c.mode.setWidth 40
  else if sr = 3 then c.leash.setWidth 40
  else if sr = 4 then c.slim
  else if sr = 5 then c.rp
  else if sr = 6 then c.sst.setWidth 40
  else if sr = 7 then c.pred.setWidth 40
  else if sr = 8 then c.l0.cnt
  else if sr = 9 then c.l0.beg
  else if sr = 10 then c.l0.fin
  else if sr = 11 then c.l1.cnt
  else if sr = 12 then c.l1.beg
  else if sr = 13 then c.l1.fin
  else if sr = 14 then BitVec.ofNat 40 (if i < 1024 then i else s.freeVal % 1024)
  else if sr = 15 then BitVec.ofNat 40 (c.work.toNat % 68719476736)
  else if sr < 24 then c.en (sr - 16)
  else if sr = 24 then c.faddr
  else if sr = 25 then c.finfo
  else 0

/-- May MTS write a special register? -/
def srWritable (sr : Nat) : Bool := decide (sr < 24) && !(sr == 0 || sr == 14 || sr == 15)

/-- A special register written. -/
def Core.srWrite (c : Core) (sr : Nat) (v : Long) : Core :=
  if sr = 1 then { c with st := (v.setWidth 20 &&& 0xE000F) ||| (c.st &&& 0x18000) }
  else if sr = 2 then { c with mode := v.setWidth 20 &&& 0xF0000 }
  else if sr = 3 then { c with leash := v.setWidth 10 }
  else if sr = 4 then { c with slim := v }
  else if sr = 5 then { c with rp := v }
  else if sr = 6 then { c with sst := v.setWidth 20 }
  else if sr = 7 then { c with pred := v.setWidth 8 ||| 1 }
  else if sr = 8 then { c with l0 := { c.l0 with cnt := v } }
  else if sr = 9 then { c with l0 := { c.l0 with beg := v } }
  else if sr = 10 then { c with l0 := { c.l0 with fin := v } }
  else if sr = 11 then { c with l1 := { c.l1 with cnt := v } }
  else if sr = 12 then { c with l1 := { c.l1 with beg := v } }
  else if sr = 13 then { c with l1 := { c.l1 with fin := v } }
  else if 16 ≤ sr ∧ sr < 24 then c.setEn (sr - 16) v
  else c

/-- MFS. -/
def execMfs (i : Iss) (d : GReg) (sr : BitVec 5) (s : State) : Host.Outcome State Fault Refusal :=
  instr i { aloneSpec [] [d] false false with bar := if 26 ≤ sr.toNat then some 3 else none, waitAll := sr == 1 } (fun j t =>
    let u := t.onCore j (·.setG d (t.srRead j sr.toNat))
    (.go, if sr = 14 ∧ 1024 ≤ j then u.freeNext else u)) s

/-- MTS (R138): a write of MODE kills fetched successors (R201). -/
def execMts (i : Iss) (sr : BitVec 5) (r : GReg) (s : State) : Host.Outcome State Fault Refusal :=
  instr i { aloneSpec [r] [] false (sr == 1) with
      bar := if srWritable sr.toNat then none else some 3, waitAll := sr == 2, setsLeash := sr == 3 } (fun j t =>
    (.go, t.onCore j (fun c => let c1 := c.srWrite sr.toNat (c.gr r); if sr = 2 then c1.kill else c1))) s

/-! ### Side units -/

/-- What a side-unit operation is. -/
def sideSpec (u : SideUnit) (reads writes : List GReg) : InsSpec :=
  { len := 2, unit := some u, info := { regInfo reads writes with side := true, flagW := true } }

/-- An operation issues (R161, R163, R164): under EXACT it completes at once. A later write to a destination discards the
pending result for it, but an operation whose fault is not suppressed writes no register. -/
def State.sideIssue (s : State) (i : Nat) (u : SideUnit) (dsts : List GReg) (r : SideRes) : Fin × State :=
  let c := s.core i
  let afd := c.mode.getLsbD mdAFD
  let faults := r.cause != 0 && !afd
  let op : SideOp := {
    unit := u
    pc := c.pc
    writes := (dsts.zip r.vals).filter (fun w => w.1 ≠ 0)
    cause := if faults then r.cause else 0
    sv := r.sv
    af := r.cause != 0 && afd
    failed := false }
  let c1 := if faults then c else dsts.foldl Core.dropPending c
  if c.mode.getLsbD mdEXACT then
    (if faults then (.fault (sideFlt (c.pc, r.cause, false) false), s) else (.go, s.setCore i (c1.deliver op)))
  else (.go, s.setCore i { c1 with side := c1.side ++ [op] })

/-- MUL (R162). -/
def execMul (i : Iss) (f : BitVec 2) (d r t : GReg) (s : State) : Host.Outcome State Fault Refusal :=
  instr i (sideSpec .mul [r, t] [d]) (fun j u => u.sideIssue j .mul [d] (mulRes f.toNat ((u.core j).gr r) ((u.core j).gr t))) s

/-- DIV (R162, R163). -/
def execDiv (i : Iss) (f : BitVec 2) (d r t : GReg) (s : State) : Host.Outcome State Fault Refusal :=
  instr i (sideSpec .div [r, t] [d]) (fun j u => u.sideIssue j .div [d] (divRes f.toNat ((u.core j).gr r) ((u.core j).gr t))) s

/-- SQRT (R162, R163). -/
def execSqrt (i : Iss) (q39 : Bool) (d r : GReg) (s : State) : Host.Outcome State Fault Refusal :=
  instr i (sideSpec .sqrt [r] [d]) (fun j u => u.sideIssue j .sqrt [d] (sqrtRes q39 ((u.core j).gr r))) s

/-- RECIP (R162, R163): q of 79 to 127 is an operand restriction. -/
def execRecip (i : Iss) (q : BitVec 7) (d r : GReg) (s : State) : Host.Outcome State Fault Refusal :=
  instr i { sideSpec .recip [r] [d] with bar := if 79 ≤ q.toNat then some 2 else none }
    (fun j u => u.sideIssue j .recip [d] (recipRes q.toNat ((u.core j).gr r))) s

/-- The pair of destinations of CORDIC; D = 31 is an operand restriction. -/
def cordicSpec (reads : List GReg) (d : GReg) : InsSpec :=
  { sideSpec .cordic reads [d, d + 1] with bar := if d = 31 then some 2 else none }

/-- CORDIC_ROT (R162). -/
def execCordicRot (i : Iss) (d r : GReg) (s : State) : Host.Outcome State Fault Refusal :=
  instr i (cordicSpec [r] d) (fun j u => u.sideIssue j .cordic [d, d + 1] (rotRes ((u.core j).gr r))) s

/-- CORDIC_VEC (R162). -/
def execCordicVec (i : Iss) (d r t : GReg) (s : State) : Host.Outcome State Fault Refusal :=
  instr i (cordicSpec [r, t] d) (fun j u => u.sideIssue j .cordic [d, d + 1] (vecRes ((u.core j).gr r) ((u.core j).gr t))) s

/-! ### Core programs and debug (R244, R488, R536) -/

/-- The cores of a mask. -/
def maskCores (c : Nat) (mask : BitVec 16) : List Nat := ((List.range 16).filter (fun k => mask.getLsbD k)).map (fun k => 16 * c + k)

/-- Where a grain of PROG_LOAD goes: the target's memory, or why not. -/
def State.progPlace (s : State) (target c i a : Nat) : Except Nat Nat :=
  match s.place (if target = 0 then i else 16 * c) a with
  | .mem k =>
    if target = 0 then (if a < 0x8000 then .ok k else .error stBadParam)
    else if target = 1 then (if clusterBase c ≤ k ∧ k < clusterBase c + 0x80000 then .ok k else .error stBadParam)
    else (if 0x1000000000 ≤ k ∧ k < 0x9000000000 then .ok k else .error stBadParam)
  | .off =>
    if (target = 1 ∧ ((0x10000 ≤ a ∧ a < 0x90000) ∨ (clusterBase c ≤ a ∧ a < clusterBase c + 0x80000))) ∨ (target = 2 ∧ 0x1000000000 ≤ a)
    then .error stBadState else .error stBadParam
  | _ => .error stBadParam

/-- Write consecutive grains from a, a long at a time where both its grains are given (R571). -/
def progWrite (place : Nat → Option Nat) : Nat → List Grain → State → State
  | _, [], s => s
  | a, g :: r, s =>
    match place a with
    | none => progWrite place (a + 1) r s
    | some k =>
      let s1 := if a % 2 = 0 ∧ !r.isEmpty then { s with eccUnc := s.eccUnc.filter (· ≠ k) } else s
      progWrite place (a + 1) r (if s1.badLong k then s1.foundUnc k else (s1.setGrain k g).spoil k 1)

/-- PROG_LOAD. -/
def State.progLoad (s : State) (tag target cluster : Nat) (mask : BitVec 16) (a : Nat) (notify : Bool) (nq : Nat) (l : List Grain) : Reply :=
  let n := l.length
  let c := if target = 2 then 0 else cluster
  let cores := if target = 0 then maskCores c mask else [16 * c]
  let spots := cores.flatMap (fun i => (List.range n).map (fun j => s.progPlace target c i (a + j)))
  let bad (st : Nat) : Bool := spots.any (fun x => match x with
    | .error e => e == st
    | .ok _ => false)
  if 2 < target ∨ 64 ≤ c ∨ n = 0 ∨ 6000000 < n ∨ (target ≠ 0 ∧ mask ≠ 0) ∨ bad stBadParam then .now stBadParam [] s
  else if (target = 0 && !(s.domOn (domCluster c) && cores.all (fun i => (s.core i).run == .held || (s.core i).isHalted)))
      || bad stBadState then .now stBadState [] s
  else
    let s1 := cores.foldl (fun (t : State) i => progWrite (fun x => (t.progPlace target c i x).toOption) a l t) s
    let s2 := if notify && s1.domOn domQueue then
        s1.enqueue nq { longs := [BitVec.ofNat 40 (6 * 2 ^ 36 + tag), BitVec.ofNat 40 a, BitVec.ofNat 40 n] } else s1
    .now stOk (le 48 (Config.sha384 (packBits 20 (l.map (·.toNat)))).toNat) s2

/-- PROG_LOAD (R488). -/
def execProgLoad (h : BHdr) (target cluster : BitVec 8) (mask : BitVec 16) (a : Long) (notify : Bool) (nq : BitVec 16)
    (grains : List Grain) (s : State) : Host.Outcome State Fault Refusal :=
  bertiaRow h { len := 16 + (20 * grains.length + 7) / 8, maxData := 48 }
    (·.progLoad h.tag.toNat target.toNat cluster.toNat mask a.toNat notify nq.toNat grains) s

/-- CORE_HOLD. -/
def State.coreHold (s : State) (c : Nat) (mask : BitVec 16) : Reply :=
  if 64 ≤ c then .now stBadParam [] s
  else
    let l := maskCores c mask
    .now stOk [] (l.foldl (fun (t : State) i => if t.coreOn i then t.coreReset i .held else t)
      (s.onHost (fun z => { z with startAtEdge := z.startAtEdge.filter (fun i => !l.contains i) })))

/-- CORE_HOLD (R488). -/
def execCoreHold (h : BHdr) (cluster : BitVec 8) (mask : BitVec 16) (s : State) : Host.Outcome State Fault Refusal :=
  bertiaRow h { len := 4 } (·.coreHold cluster.toNat mask) s

/-- CORE_START. -/
def State.coreStart (s : State) (c : Nat) (mask : BitVec 16) : Reply :=
  if 64 ≤ c then .now stBadParam [] s
  else
    let l := (maskCores c mask).filter (fun i => (s.core i).run == .held && s.coreOn i)
    .now stOk [] (if s.bit R.BEAT_STAT_RUNNING then s.onHost (fun z => { z with startAtEdge := z.startAtEdge ++ l })
      else l.foldl (fun (t : State) i => t.coreGo i) s)

/-- CORE_START (R488). -/
def execCoreStart (h : BHdr) (cluster : BitVec 8) (mask : BitVec 16) (s : State) : Host.Outcome State Fault Refusal :=
  bertiaRow h { len := 4 } (·.coreStart cluster.toNat mask) s

/-- CORE_RESUME (R244, R531, R533). -/
def State.coreResume (s : State) (c k : Nat) (pc : Long) : Reply :=
  let i := 16 * c + k
  if 64 ≤ c ∨ 16 ≤ k then .now stBadParam [] s
  else if !(s.coreOn i && (s.core i).isHalted) then .now stBadState [] s
  else .now stOk [] ((s.coreBusy i).onCore i (fun x => { x with
    run := .running
    brkPass := (x.run == .halted whyBreak || x.brkPass) && pc == x.pc
    watchPass := (x.run == .halted whyWatch || x.watchPass) && pc == x.pc
    pc := pc
    prev := none
    step := (x.ccbL 0x40).getLsbD 0 }))

/-- CORE_RESUME (R244). -/
def execCoreResume (h : BHdr) (cluster core : BitVec 8) (pc : Long) (s : State) : Host.Outcome State Fault Refusal :=
  bertiaRow h { len := 12 } (·.coreResume cluster.toNat core.toNat pc) s

/-- CORE_STATE. -/
def State.coreStates (s : State) (c : Nat) : Reply :=
  if 64 ≤ c then .now stBadParam [] s
  else .now stOk ((List.range 16).map (fun k => BitVec.ofNat 8 (s.coreState (16 * c + k)))) s

/-- CORE_STATE (R488). -/
def execCoreState (h : BHdr) (cluster : BitVec 8) (s : State) : Host.Outcome State Fault Refusal :=
  bertiaRow h { len := 4, maxData := 16 } (·.coreStates cluster.toNat) s

/-- DBG_HALT: completes once every core of the mask is halted. -/
def State.dbgHalt (s : State) (ch c : Nat) (mask : BitVec 16) : Reply :=
  if 64 ≤ c then .now stBadParam [] s
  else if !s.domOn (domCluster c) then .now stBadState [] s
  else .later (((s.onWh (fun z => { z with haltWait := z.haltWait ++ [(ch, c, mask.toNat)] })).debugHalt c mask).haltDone)

/-- DBG_HALT (R536). -/
def execDbgHalt (h : BHdr) (cluster : BitVec 8) (mask : BitVec 16) (s : State) : Host.Outcome State Fault Refusal :=
  bertiaRow h { len := 4 } (·.dbgHalt h.ch.toNat cluster.toNat mask) s

/-- A register of DBG_REG, in 10 octets. -/
def State.dbgGet (s : State) (i r : Nat) : BitVec 80 :=
  if r < 32 then ((s.core i).gr (BitVec.ofNat 5 r)).setWidth 80
  else if r < 36 then (s.core i).ac (BitVec.ofNat 2 (r - 32))
  else (s.srRead i (r - 64)).setWidth 80

/-- DBG_REG: a halted core; a write of a read-only register is BAD_PARAM. -/
def State.dbgReg (s : State) (c k rw r : Nat) (v : BitVec 80) : Reply :=
  let i := 16 * c + k
  if 64 ≤ c ∨ 16 ≤ k ∨ 1 < rw ∨ (36 ≤ r ∧ r < 64) ∨ 90 ≤ r ∨ (rw = 1 ∧ 64 ≤ r ∧ !srWritable (r - 64)) then .now stBadParam [] s
  else if !(s.coreOn i && (s.core i).isHalted) then .now stBadState [] s
  else
    let t := if rw = 0 then s
      else s.onCore i (fun x =>
        if r < 32 then x.setG (BitVec.ofNat 5 r) (v.setWidth 40)
        else if r < 36 then x.setAc (BitVec.ofNat 2 (r - 32)) v
        else x.srWrite (r - 64) (v.setWidth 40))
    .now stOk (le 10 (t.dbgGet i r).toNat) t

/-- DBG_REG (R536). -/
def execDbgReg (h : BHdr) (cluster core rw reg : BitVec 8) (value : BitVec 80) (s : State) : Host.Outcome State Fault Refusal :=
  bertiaRow h { len := 18, maxData := 10 } (·.dbgReg cluster.toNat core.toNat rw.toNat reg.toNat value) s

end Sys2Proof.Machine
end

