-- ==== Sys2Proof/Machine/Dispatch.lean ====
section
/-! DEFINITION. The command dispatch: one arm per constructor of Instr. -/

namespace Sys2Proof.Machine

open Sys2Proof

def exec (i : Instr) (s : State) : Host.Outcome State Fault Refusal :=
  match i with
  | .edge => Sys2Proof.Machine.execEdge s
  | .beatRunStart v => Sys2Proof.Machine.execBeatRunStart v s
  | .beatRunStop v => Sys2Proof.Machine.execBeatRunStop v s
  | .srcSelWrite sel => Sys2Proof.Machine.execSrcSelWrite sel s
  | .ppsPulse falling width => Sys2Proof.Machine.execPpsPulse falling width s
  | .irigFrame f => Sys2Proof.Machine.execIrigFrame f s
  | .ptpMessage domain m => Sys2Proof.Machine.execPtpMessage domain m s
  | .beatInPulse => Sys2Proof.Machine.execBeatInPulse s
  | .referenceTimeout carrierLost => Sys2Proof.Machine.execReferenceTimeout carrierLost s
  | .epochAdvance => Sys2Proof.Machine.execEpochAdvance s
  | .aonCalibration tick => Sys2Proof.Machine.execAonCalibration tick s
  | .servoResume => Sys2Proof.Machine.execServoResume s
  | .timeCapture v => Sys2Proof.Machine.execTimeCapture v s
  | .beatNumLoRead => Sys2Proof.Machine.execBeatNumLoRead s
  | .commitGo v => Sys2Proof.Machine.execCommitGo v s
  | .commitCancel v => Sys2Proof.Machine.execCommitCancel v s
  | .commitCutoff => Sys2Proof.Machine.execCommitCutoff s
  | .immediateCommit => Sys2Proof.Machine.execImmediateCommit s
  | .beatOverrun c => Sys2Proof.Machine.execBeatOverrun c s
  | .beatReadyPost c => Sys2Proof.Machine.execBeatReadyPost c s
  | .bwaitWake core => Sys2Proof.Machine.execBwaitWake core s
  | .period pint pfrac target => Sys2Proof.Machine.execPeriod pint pfrac target s
  | .periodRefuse code target => Sys2Proof.Machine.execPeriodRefuse code target s
  | .periodCancel target => Sys2Proof.Machine.execPeriodCancel target s
  | .spCtrlEn p en => Sys2Proof.Machine.execSpCtrlEn p en s
  | .spGenSelWrite p g => Sys2Proof.Machine.execSpGenSelWrite p g s
  | .spCtrlAccept p => Sys2Proof.Machine.execSpCtrlAccept p s
  | .spLinkLock p gen => Sys2Proof.Machine.execSpLinkLock p gen s
  | .spLinkLoss p => Sys2Proof.Machine.execSpLinkLoss p s
  | .spGenWindow p => Sys2Proof.Machine.execSpGenWindow p s
  | .descTimeout p => Sys2Proof.Machine.execDescTimeout p s
  | .mgmtSilence p => Sys2Proof.Machine.execMgmtSilence p s
  | .desc p tag d => Sys2Proof.Machine.execDesc p tag d s
  | .delayMeasureSp p => Sys2Proof.Machine.execDelayMeasureSp p s
  | .echoReply p tag turn roundTrip => Sys2Proof.Machine.execEchoReply p tag turn roundTrip s
  | .mgmtRetry p tag => Sys2Proof.Machine.execMgmtRetry p tag s
  | .planAck p tag id => Sys2Proof.Machine.execPlanAck p tag id s
  | .planNak p tag id reason => Sys2Proof.Machine.execPlanNak p tag id reason s
  | .regData p tag a v => Sys2Proof.Machine.execRegData p tag a v s
  | .sensor p tag m => Sys2Proof.Machine.execSensor p tag m s
  | .moduleEvt p tag code beat text => Sys2Proof.Machine.execModuleEvt p tag code beat text s
  | .heartbeat p tag => Sys2Proof.Machine.execHeartbeat p tag s
  | .ack p tag => Sys2Proof.Machine.execAck p tag s
  | .planResend p => Sys2Proof.Machine.execPlanResend p s
  | .beatBlock p b => Sys2Proof.Machine.execBeatBlock p b s
  | .portDeadline p => Sys2Proof.Machine.execPortDeadline p s
  | .driveAbortAssert => Sys2Proof.Machine.execDriveAbortAssert s
  | .drvAbortSw => Sys2Proof.Machine.execDrvAbortSw s
  | .drvAbortRearm => Sys2Proof.Machine.execDrvAbortRearm s
  | .autobind p => Sys2Proof.Machine.execAutobind p s
  | .autobindGiveUp p => Sys2Proof.Machine.execAutobindGiveUp p s
  | .ctxStage h idx longs => Sys2Proof.Machine.execCtxStage h idx longs s
  | .ctxStageRange h first count stride ch longs => Sys2Proof.Machine.execCtxStageRange h first count stride ch longs s
  | .subSet h idx entries => Sys2Proof.Machine.execSubSet h idx entries s
  | .ctxRead h idx which => Sys2Proof.Machine.execCtxRead h idx which s
  | .ctxClear h first count => Sys2Proof.Machine.execCtxClear h first count s
  | .stageDrop h => Sys2Proof.Machine.execStageDrop h s
  | .stageInfo h => Sys2Proof.Machine.execStageInfo h s
  | .beatreadyQueue h cluster q => Sys2Proof.Machine.execBeatreadyQueue h cluster q s
  | .autobindTemplate h port first stride inT outT => Sys2Proof.Machine.execAutobindTemplate h port first stride inT outT s
  | .gapScan h first count most => Sys2Proof.Machine.execGapScan h first count most s
  | .nop ix => Sys2Proof.Machine.execNop ix s
  | .mov ix d r => Sys2Proof.Machine.execMov ix d r s
  | .movq ix d q => Sys2Proof.Machine.execMovq ix d q s
  | .movi ix d imm => Sys2Proof.Machine.execMovi ix d imm s
  | .movh ix d imm => Sys2Proof.Machine.execMovh ix d imm s
  | .add ix f => Sys2Proof.Machine.execAdd ix f s
  | .adc ix d r => Sys2Proof.Machine.execAdc ix d r s
  | .addq ix d q => Sys2Proof.Machine.execAddq ix d q s
  | .addi ix d r imm => Sys2Proof.Machine.execAddi ix d r imm s
  | .sub ix f => Sys2Proof.Machine.execSub ix f s
  | .sbc ix d r => Sys2Proof.Machine.execSbc ix d r s
  | .rsubi ix d r imm => Sys2Proof.Machine.execRsubi ix d r imm s
  | .neg ix d r => Sys2Proof.Machine.execNeg ix d r s
  | .and ix f => Sys2Proof.Machine.execAnd ix f s
  | .andi ix d r imm => Sys2Proof.Machine.execAndi ix d r imm s
  | .or ix f => Sys2Proof.Machine.execOr ix f s
  | .ori ix d r imm => Sys2Proof.Machine.execOri ix d r imm s
  | .xor ix f => Sys2Proof.Machine.execXor ix f s
  | .xori ix d r imm => Sys2Proof.Machine.execXori ix d r imm s
  | .not ix d r => Sys2Proof.Machine.execNot ix d r s
  | .shl ix f => Sys2Proof.Machine.execShl ix f s
  | .shr ix f => Sys2Proof.Machine.execShr ix f s
  | .sar ix f => Sys2Proof.Machine.execSar ix f s
  | .shlq ix d u => Sys2Proof.Machine.execShlq ix d u s
  | .shrq ix d u => Sys2Proof.Machine.execShrq ix d u s
  | .sarq ix d u => Sys2Proof.Machine.execSarq ix d u s
  | .shli ix d r sh => Sys2Proof.Machine.execShli ix d r sh s
  | .shri ix d r sh => Sys2Proof.Machine.execShri ix d r sh s
  | .sari ix d r sh => Sys2Proof.Machine.execSari ix d r sh s
  | .clz ix d r => Sys2Proof.Machine.execClz ix d r s
  | .cls ix d r => Sys2Proof.Machine.execCls ix d r s
  | .max ix d r t => Sys2Proof.Machine.execMax ix d r t s
  | .min ix d r t => Sys2Proof.Machine.execMin ix d r t s
  | .adds ix d r t => Sys2Proof.Machine.execAdds ix d r t s
  | .subs ix d r t => Sys2Proof.Machine.execSubs ix d r t s
  | .sxg ix d r => Sys2Proof.Machine.execSxg ix d r s
  | .zxg ix d r => Sys2Proof.Machine.execZxg ix d r s
  | .swpg ix d r => Sys2Proof.Machine.execSwpg ix d r s
  | .norm ix d r => Sys2Proof.Machine.execNorm ix d r s
  | .normx ix d r m => Sys2Proof.Machine.execNormx ix d r m s
  | .addd ix d r => Sys2Proof.Machine.execAddd ix d r s
  | .subd ix d r => Sys2Proof.Machine.execSubd ix d r s
  | .addds ix d r => Sys2Proof.Machine.execAddds ix d r s
  | .subds ix d r => Sys2Proof.Machine.execSubds ix d r s
  | .absds ix d r => Sys2Proof.Machine.execAbsds ix d r s
  | .maxd ix d r t => Sys2Proof.Machine.execMaxd ix d r t s
  | .mind ix d r t => Sys2Proof.Machine.execMind ix d r t s
  | .sard ix d r sh rnd => Sys2Proof.Machine.execSard ix d r sh rnd s
  | .bfx ix d r pos len sx => Sys2Proof.Machine.execBfx ix d r pos len sx s
  | .bfi ix d r pos len => Sys2Proof.Machine.execBfi ix d r pos len s
  | .perm ix d r sel => Sys2Proof.Machine.execPerm ix d r sel s
  | .cmp ix pt pf cond r t => Sys2Proof.Machine.execCmp ix pt pf cond r t s
  | .cmpi ix pt pf cond r imm => Sys2Proof.Machine.execCmpi ix pt pf cond r imm s
  | .cmpd ix pl ph cond r t => Sys2Proof.Machine.execCmpd ix pl ph cond r t s
  | .pset ix pt pf cond => Sys2Proof.Machine.execPset ix pt pf cond s
  | .plog ix pd pa pb op => Sys2Proof.Machine.execPlog ix pd pa pb op s
  | .ldg ix f => Sys2Proof.Machine.execLdg ix f s
  | .ldgu ix d r imm => Sys2Proof.Machine.execLdgu ix d r imm s
  | .ldl ix f => Sys2Proof.Machine.execLdl ix f s
  | .stg ix f => Sys2Proof.Machine.execStg ix f s
  | .stl ix f => Sys2Proof.Machine.execStl ix f s
  | .ldx ix d r t size scale upd => Sys2Proof.Machine.execLdx ix d r t size scale upd s
  | .stx ix d r t size scale upd => Sys2Proof.Machine.execStx ix d r t size scale upd s
  | .axch ix d r t => Sys2Proof.Machine.execAxch ix d r t s
  | .aadd ix d r t => Sys2Proof.Machine.execAadd ix d r t s
  | .acas ix d r t => Sys2Proof.Machine.execAcas ix d r t s
  | .br ix r => Sys2Proof.Machine.execBr ix r s
  | .jmpl ix d r => Sys2Proof.Machine.execJmpl ix d r s
  | .bra ix off => Sys2Proof.Machine.execBra ix off s
  | .call ix d off => Sys2Proof.Machine.execCall ix d off s
  | .calle ix e => Sys2Proof.Machine.execCalle ix e s
  | .rete ix => Sys2Proof.Machine.execRete ix s
  | .retx ix => Sys2Proof.Machine.execRetx ix s
  | .rep ix r len => Sys2Proof.Machine.execRep ix r len s
  | .repi ix cnt len => Sys2Proof.Machine.execRepi ix cnt len s
  | .bwait ix d => Sys2Proof.Machine.execBwait ix d s
  | .qput ix d r => Sys2Proof.Machine.execQput ix d r s
  | .qget ix d r => Sys2Proof.Machine.execQget ix d r s
  | .whist ix r => Sys2Proof.Machine.execWhist ix r s
  | .fence ix => Sys2Proof.Machine.execFence ix s
  | .mfs ix d sr => Sys2Proof.Machine.execMfs ix d sr s
  | .mts ix sr r => Sys2Proof.Machine.execMts ix sr r s
  | .macd ix a clr r t => Sys2Proof.Machine.execMacd ix a clr r t s
  | .msud ix a clr r t => Sys2Proof.Machine.execMsud ix a clr r t s
  | .macx ix a clr r t => Sys2Proof.Machine.execMacx ix a clr r t s
  | .mdif ix a clr r t => Sys2Proof.Machine.execMdif ix a clr r t s
  | .accr ix d a rnd w20 sh => Sys2Proof.Machine.execAccr ix d a rnd w20 sh s
  | .acch ix d a => Sys2Proof.Machine.execAcch ix d a s
  | .accl ix d a => Sys2Proof.Machine.execAccl ix d a s
  | .accw ix a r t => Sys2Proof.Machine.execAccw ix a r t s
  | .aclr ix a => Sys2Proof.Machine.execAclr ix a s
  | .mul ix f d r t => Sys2Proof.Machine.execMul ix f d r t s
  | .div ix f d r t => Sys2Proof.Machine.execDiv ix f d r t s
  | .sqrt ix q39 d r => Sys2Proof.Machine.execSqrt ix q39 d r s
  | .recip ix q d r => Sys2Proof.Machine.execRecip ix q d r s
  | .cordicRot ix d r => Sys2Proof.Machine.execCordicRot ix d r s
  | .cordicVec ix d r t => Sys2Proof.Machine.execCordicVec ix d r t s
  | .movs ix size dec d r t => Sys2Proof.Machine.execMovs ix size dec d r t s
  | .fils ix size dec d r t => Sys2Proof.Machine.execFils ix size dec d r t s
  | .cmps ix size dec d r t => Sys2Proof.Machine.execCmps ix size dec d r t s
  | .scns ix size dec ne d r t => Sys2Proof.Machine.execScns ix size dec ne d r t s
  | .sideUnitDeliver core u => Sys2Proof.Machine.execSideUnitDeliver core u s
  | .exceptionEntry core e => Sys2Proof.Machine.execExceptionEntry core e s
  | .haltReport core => Sys2Proof.Machine.execHaltReport core s
  | .leashExpire core => Sys2Proof.Machine.execLeashExpire core s
  | .entryShadowEnd core => Sys2Proof.Machine.execEntryShadowEnd core s
  | .icinvLine core a => Sys2Proof.Machine.execIcinvLine core a s
  | .icinvAll core => Sys2Proof.Machine.execIcinvAll core s
  | .crossingResync x e => Sys2Proof.Machine.execCrossingResync x e s
  | .pendSet c w v => Sys2Proof.Machine.execPendSet c w v s
  | .pendClr c w v => Sys2Proof.Machine.execPendClr c w v s
  | .enSet c w v => Sys2Proof.Machine.execEnSet c w v s
  | .enClr c w v => Sys2Proof.Machine.execEnClr c w v s
  | .eoi c k v => Sys2Proof.Machine.execEoi c k v s
  | .raiseDev c v => Sys2Proof.Machine.execRaiseDev c v s
  | .srcCfgWrite c src v => Sys2Proof.Machine.execSrcCfgWrite c src v s
  | .holdoffWrite c g v => Sys2Proof.Machine.execHoldoffWrite c g v s
  | .holdoffExpire c g => Sys2Proof.Machine.execHoldoffExpire c g s
  | .maskWrite c k v => Sys2Proof.Machine.execMaskWrite c k v s
  | .deviceSourceEdge d => Sys2Proof.Machine.execDeviceSourceEdge d s
  | .msixUnmask w => Sys2Proof.Machine.execMsixUnmask w s
  | .watcherWake => Sys2Proof.Machine.execWatcherWake s
  | .wakeTsLoRead => Sys2Proof.Machine.execWakeTsLoRead s
  | .qcfgWrite q v => Sys2Proof.Machine.execQcfgWrite q v s
  | .queueReset q => Sys2Proof.Machine.execQueueReset q s
  | .queueClr q => Sys2Proof.Machine.execQueueClr q s
  | .queueSweepDone q => Sys2Proof.Machine.execQueueSweepDone q s
  | .reSubmit core c v => Sys2Proof.Machine.execReSubmit core c v s
  | .redIntakeItem c => Sys2Proof.Machine.execRedIntakeItem c s
  | .specRecordWrite c => Sys2Proof.Machine.execSpecRecordWrite c s
  | .redStage h src slot kind flags g out a part => Sys2Proof.Machine.execRedStage h src slot kind flags g out a part s
  | .redRemove h src slot => Sys2Proof.Machine.execRedRemove h src slot s
  | .redClear h src slot what => Sys2Proof.Machine.execRedClear h src slot what s
  | .redResidue h src slot => Sys2Proof.Machine.execRedResidue h src slot s
  | .redRead h src slot first count which => Sys2Proof.Machine.execRedRead h src slot first count which s
  | .redMatrixRead h src slot first count => Sys2Proof.Machine.execRedMatrixRead h src slot first count s
  | .redQueue h cluster q => Sys2Proof.Machine.execRedQueue h cluster q s
  | .redLoad h cluster which => Sys2Proof.Machine.execRedLoad h cluster which s
  | .decimCoef h src slot first taps => Sys2Proof.Machine.execDecimCoef h src slot first taps s
  | .fpCtrlEn p en => Sys2Proof.Machine.execFpCtrlEn p en s
  | .fabricGenWindow p => Sys2Proof.Machine.execFabricGenWindow p s
  | .fabricLock p gen => Sys2Proof.Machine.execFabricLock p gen s
  | .fabricLockLoss p => Sys2Proof.Machine.execFabricLockLoss p s
  | .helloSend p => Sys2Proof.Machine.execHelloSend p s
  | .hello p m => Sys2Proof.Machine.execHello p m s
  | .helloTimeout p => Sys2Proof.Machine.execHelloTimeout p s
  | .authCert p ok => Sys2Proof.Machine.execAuthCert p ok s
  | .authSig p ok => Sys2Proof.Machine.execAuthSig p ok s
  | .authTimeout p => Sys2Proof.Machine.execAuthTimeout p s
  | .refusedTimeout p => Sys2Proof.Machine.execRefusedTimeout p s
  | .syncDone p => Sys2Proof.Machine.execSyncDone p s
  | .linkStateRecord p r => Sys2Proof.Machine.execLinkStateRecord p r s
  | .lsrRefresh => Sys2Proof.Machine.execLsrRefresh s
  | .lsrAgeOut serial => Sys2Proof.Machine.execLsrAgeOut serial s
  | .addrConfirm => Sys2Proof.Machine.execAddrConfirm s
  | .routeCompute => Sys2Proof.Machine.execRouteCompute s
  | .masterHandover => Sys2Proof.Machine.execMasterHandover s
  | .delayMeasureFp p => Sys2Proof.Machine.execDelayMeasureFp p s
  | .dreq p tag => Sys2Proof.Machine.execDreq p tag s
  | .dresp p tag turn roundTrip => Sys2Proof.Machine.execDresp p tag turn roundTrip s
  | .edgeBlock p depth beat => Sys2Proof.Machine.execEdgeBlock p depth beat s
  | .tdata p offset addr => Sys2Proof.Machine.execTdata p offset addr s
  | .parentEdgeTimeout => Sys2Proof.Machine.execParentEdgeTimeout s
  | .parentSwitch => Sys2Proof.Machine.execParentSwitch s
  | .rekey p => Sys2Proof.Machine.execRekey p s
  | .fpAsymWrite p v => Sys2Proof.Machine.execFpAsymWrite p v s
  | .vlFrameRx p f => Sys2Proof.Machine.execVlFrameRx p f s
  | .vl0FrameRx p f => Sys2Proof.Machine.execVl0FrameRx p f s
  | .vl0WindowOpen e => Sys2Proof.Machine.execVl0WindowOpen e s
  | .token p beat last => Sys2Proof.Machine.execToken p beat last s
  | .tokenMiss p => Sys2Proof.Machine.execTokenMiss p s
  | .vl0Late e => Sys2Proof.Machine.execVl0Late e s
  | .lack p vl nak ack crtot => Sys2Proof.Machine.execLack p vl nak ack crtot s
  | .lackSend p vl => Sys2Proof.Machine.execLackSend p vl s
  | .retryTimeout p vl => Sys2Proof.Machine.execRetryTimeout p vl s
  | .qmsgTx => Sys2Proof.Machine.execQmsgTx s
  | .whistle tag target => Sys2Proof.Machine.execWhistle tag target s
  | .faultReport r => Sys2Proof.Machine.execFaultReport r s
  | .frEntryClose k => Sys2Proof.Machine.execFrEntryClose k s
  | .packStatus h => Sys2Proof.Machine.execPackStatus h s
  | .routeRead h first count => Sys2Proof.Machine.execRouteRead h first count s
  | .lsdbRead h first count => Sys2Proof.Machine.execLsdbRead h first count s
  | .schedStage h first es => Sys2Proof.Machine.execSchedStage h first es s
  | .schedDrop h first count => Sys2Proof.Machine.execSchedDrop h first count s
  | .schedRead h first count which => Sys2Proof.Machine.execSchedRead h first count which s
  | .groupStage h group flags members => Sys2Proof.Machine.execGroupStage h group flags members s
  | .asymSave h port v => Sys2Proof.Machine.execAsymSave h port v s
  | .fabTxq h q bind => Sys2Proof.Machine.execFabTxq h q bind s
  | .fabSend h longs => Sys2Proof.Machine.execFabSend h longs s
  | .recordAdmit r => Sys2Proof.Machine.execRecordAdmit r s
  | .sealTick => Sys2Proof.Machine.execSealTick s
  | .sealSigned ok => Sys2Proof.Machine.execSealSigned ok s
  | .nvmeCompletion port r => Sys2Proof.Machine.execNvmeCompletion port r s
  | .nvmeTimeout port => Sys2Proof.Machine.execNvmeTimeout port s
  | .rateWindow port octets waited => Sys2Proof.Machine.execRateWindow port octets waited s
  | .recoveryDone r => Sys2Proof.Machine.execRecoveryDone r s
  | .pwrfailNAssert => Sys2Proof.Machine.execPwrfailNAssert s
  | .storeLinkChange port l => Sys2Proof.Machine.execStoreLinkChange port l s
  | .headLoRead => Sys2Proof.Machine.execHeadLoRead s
  | .sealedLoRead => Sys2Proof.Machine.execSealedLoRead s
  | .jrnlFormat h ports mode nsid => Sys2Proof.Machine.execJrnlFormat h ports mode nsid s
  | .jrnlStart h => Sys2Proof.Machine.execJrnlStart h s
  | .jrnlStop h => Sys2Proof.Machine.execJrnlStop h s
  | .jrnlStatus h => Sys2Proof.Machine.execJrnlStatus h s
  | .jrnlSealCfg h ivl => Sys2Proof.Machine.execJrnlSealCfg h ivl s
  | .jrnlHoldup h us => Sys2Proof.Machine.execJrnlHoldup h us s
  | .jrnlRead h chain bseq off len => Sys2Proof.Machine.execJrnlRead h chain bseq off len s
  | .jrnlFind h chain beat => Sys2Proof.Machine.execJrnlFind h chain beat s
  | .jrnlDelete h last => Sys2Proof.Machine.execJrnlDelete h last s
  | .jrnlCompact h chain => Sys2Proof.Machine.execJrnlCompact h chain s
  | .ewArm h wid mask pre post ctxs => Sys2Proof.Machine.execEwArm h wid mask pre post ctxs s
  | .ewTrigger h wid => Sys2Proof.Machine.execEwTrigger h wid s
  | .ewDisarm h wid => Sys2Proof.Machine.execEwDisarm h wid s
  | .jrnlRateTest h => Sys2Proof.Machine.execJrnlRateTest h s
  | .cfgPut h key flags value => Sys2Proof.Machine.execCfgPut h key flags value s
  | .cfgGet h key => Sys2Proof.Machine.execCfgGet h key s
  | .zeroizeNAssert => Sys2Proof.Machine.execZeroizeNAssert s
  | .fullZeroizationDone => Sys2Proof.Machine.execFullZeroizationDone s
  | .sensorTrip temperature => Sys2Proof.Machine.execSensorTrip temperature s
  | .entropyFail t => Sys2Proof.Machine.execEntropyFail t s
  | .selftestDone r => Sys2Proof.Machine.execSelftestDone r s
  | .drbgReseed => Sys2Proof.Machine.execDrbgReseed s
  | .challengeExpire id => Sys2Proof.Machine.execChallengeExpire id s
  | .sessionTimeout ch => Sys2Proof.Machine.execSessionTimeout ch s
  | .sealRequest => Sys2Proof.Machine.execSealRequest s
  | .knInfo h => Sys2Proof.Machine.execKnInfo h s
  | .knCerts h slot => Sys2Proof.Machine.execKnCerts h slot s
  | .knChallenge h => Sys2Proof.Machine.execKnChallenge h s
  | .knAuth h id role key sigOk => Sys2Proof.Machine.execKnAuth h id role key sigOk s
  | .knLogout h => Sys2Proof.Machine.execKnLogout h s
  | .knInit h key => Sys2Proof.Machine.execKnInit h key s
  | .knKeySet h role idx key => Sys2Proof.Machine.execKnKeySet h role idx key s
  | .knKeyDel h role idx => Sys2Proof.Machine.execKnKeyDel h role idx s
  | .knAuthz h bits => Sys2Proof.Machine.execKnAuthz h bits s
  | .knAdmit h serials => Sys2Proof.Machine.execKnAdmit h serials s
  | .knCertLoad h der chains namesKey => Sys2Proof.Machine.execKnCertLoad h der chains namesKey s
  | .knRandom h count => Sys2Proof.Machine.execKnRandom h count s
  | .knAttest h nonce => Sys2Proof.Machine.execKnAttest h nonce s
  | .knSelftest h => Sys2Proof.Machine.execKnSelftest h s
  | .knZeroize h confirm => Sys2Proof.Machine.execKnZeroize h confirm s
  | .knCounter h ctr op => Sys2Proof.Machine.execKnCounter h ctr op s
  | .knKeyidLoRead => Sys2Proof.Machine.execKnKeyidLoRead s
  | .mbDbWrite m v => Sys2Proof.Machine.execMbDbWrite m v s
  | .mbCtrlEn m v => Sys2Proof.Machine.execMbCtrlEn m v s
  | .mbCtrlReset m => Sys2Proof.Machine.execMbCtrlReset m s
  | .mbCplHeadWrite m v => Sys2Proof.Machine.execMbCplHeadWrite m v s
  | .eventDeliver d ok => Sys2Proof.Machine.execEventDeliver d ok s
  | .bar2Read b => Sys2Proof.Machine.execBar2Read b s
  | .bar2Write b be v => Sys2Proof.Machine.execBar2Write b be v s
  | .bar4Read b n => Sys2Proof.Machine.execBar4Read b n s
  | .bar4Write b data => Sys2Proof.Machine.execBar4Write b data s
  | .functionLevelReset => Sys2Proof.Machine.execFunctionLevelReset s
  | .hotReset => Sys2Proof.Machine.execHotReset s
  | .svcDatagram d => Sys2Proof.Machine.execSvcDatagram d s
  | .svcChannelRelease ch => Sys2Proof.Machine.execSvcChannelRelease ch s
  | .exportDatagram entry sent => Sys2Proof.Machine.execExportDatagram entry sent s
  | .nopCommand h => Sys2Proof.Machine.execNopCommand h s
  | .devInfo h => Sys2Proof.Machine.execDevInfo h s
  | .evtSubscribe h mask => Sys2Proof.Machine.execEvtSubscribe h mask s
  | .memRead h a count => Sys2Proof.Machine.execMemRead h a count s
  | .memWrite h a data => Sys2Proof.Machine.execMemWrite h a data s
  | .svcCfg h c => Sys2Proof.Machine.execSvcCfg h c s
  | .svcExport h es => Sys2Proof.Machine.execSvcExport h es s
  | .svcStatus h => Sys2Proof.Machine.execSvcStatus h s
  | .timeSetTai h sec ns utc => Sys2Proof.Machine.execTimeSetTai h sec ns utc s
  | .timeStep h step => Sys2Proof.Machine.execTimeStep h step s
  | .ppsSecond h sec => Sys2Proof.Machine.execPpsSecond h sec s
  | .ptpCfg h c => Sys2Proof.Machine.execPtpCfg h c s
  | .ptpStatus h => Sys2Proof.Machine.execPtpStatus h s
  | .progLoad h target cluster mask a notify nq grains => Sys2Proof.Machine.execProgLoad h target cluster mask a notify nq grains s
  | .coreHold h cluster mask => Sys2Proof.Machine.execCoreHold h cluster mask s
  | .coreStart h cluster mask => Sys2Proof.Machine.execCoreStart h cluster mask s
  | .coreResume h cluster core pc => Sys2Proof.Machine.execCoreResume h cluster core pc s
  | .coreState h cluster => Sys2Proof.Machine.execCoreState h cluster s
  | .pwrSet h dom st => Sys2Proof.Machine.execPwrSet h dom st s
  | .pwrStatus h first count => Sys2Proof.Machine.execPwrStatus h first count s
  | .pwrDpl h level => Sys2Proof.Machine.execPwrDpl h level s
  | .speedRead h cluster => Sys2Proof.Machine.execSpeedRead h cluster s
  | .speedMeasure h cluster => Sys2Proof.Machine.execSpeedMeasure h cluster s
  | .domainTransitionDone d e => Sys2Proof.Machine.execDomainTransitionDone d e s
  | .speedRemeasure c => Sys2Proof.Machine.execSpeedRemeasure c s
  | .tjWarnCross tj hot => Sys2Proof.Machine.execTjWarnCross tj hot s
  | .thermtrip => Sys2Proof.Machine.execThermtrip s
  | .whFireWrite v => Sys2Proof.Machine.execWhFireWrite v s
  | .whistleNFall => Sys2Proof.Machine.execWhistleNFall s
  | .whCopyoutDone => Sys2Proof.Machine.execWhCopyoutDone s
  | .whBeatLoRead => Sys2Proof.Machine.execWhBeatLoRead s
  | .haltReq c mask => Sys2Proof.Machine.execHaltReq c mask s
  | .whFire h tag => Sys2Proof.Machine.execWhFire h tag s
  | .whPack h tag target => Sys2Proof.Machine.execWhPack h tag target s
  | .whRead h first count => Sys2Proof.Machine.execWhRead h first count s
  | .dbgHalt h cluster mask => Sys2Proof.Machine.execDbgHalt h cluster mask s
  | .dbgReg h cluster core rw reg value => Sys2Proof.Machine.execDbgReg h cluster core rw reg value s
  | .dbgTap h enable => Sys2Proof.Machine.execDbgTap h enable s
  | .tapDebugAccess a w => Sys2Proof.Machine.execTapDebugAccess a w s
  | .powerOnReset mode node => Sys2Proof.Machine.execPowerOnReset mode node s
  | .deviceReset mode node => Sys2Proof.Machine.execDeviceReset mode node s
  | .rstCtrlDevice v => Sys2Proof.Machine.execRstCtrlDevice v s
  | .rstCtrlSteward v => Sys2Proof.Machine.execRstCtrlSteward v s
  | .rstCtrlKennel v => Sys2Proof.Machine.execRstCtrlKennel v s
  | .stewWdtKick v => Sys2Proof.Machine.execStewWdtKick v s
  | .stewWdtExpire => Sys2Proof.Machine.execStewWdtExpire s
  | .lockupAutoReset => Sys2Proof.Machine.execLockupAutoReset s
  | .kennelLockupReset => Sys2Proof.Machine.execKennelLockupReset s
  | .imageHandoff a b => Sys2Proof.Machine.execImageHandoff a b s
  | .bringUp b => Sys2Proof.Machine.execBringUp b s
  | .stewardRestart => Sys2Proof.Machine.execStewardRestart s
  | .fwStatus h => Sys2Proof.Machine.execFwStatus h s
  | .fwWrite h slot off data => Sys2Proof.Machine.execFwWrite h slot off data s
  | .fwActivate h slot tries img => Sys2Proof.Machine.execFwActivate h slot tries img s
  | .fwConfirm h => Sys2Proof.Machine.execFwConfirm h s
  | .fwCommit h flags => Sys2Proof.Machine.execFwCommit h flags s
  | .fwLoadRam h img => Sys2Proof.Machine.execFwLoadRam h img s
  | .devReset h confirm => Sys2Proof.Machine.execDevReset h confirm s
  | .registerWrite who off be v => Sys2Proof.Machine.execRegisterWrite who off be v s
  | .readClear who off => Sys2Proof.Machine.execReadClear who off s
  | .driveAbortNRelease => Sys2Proof.Machine.execDriveAbortNRelease s
  | .zeroizeNRelease => Sys2Proof.Machine.execZeroizeNRelease s
  | .pwrfailNRelease => Sys2Proof.Machine.execPwrfailNRelease s
  | .vl0WindowClose e => Sys2Proof.Machine.execVl0WindowClose e s
  | .speedTableMeasured c table tj => Sys2Proof.Machine.execSpeedTableMeasured c table tj s
  | .ddrRetrainDone ok => Sys2Proof.Machine.execDdrRetrainDone ok s
  | .pcieLinkStateChange e => Sys2Proof.Machine.execPcieLinkStateChange e s
  | .svcLinkChange up speed => Sys2Proof.Machine.execSvcLinkChange up speed s
  | .tapInstructionUpdate ir => Sys2Proof.Machine.execTapInstructionUpdate ir s
  | .ptpMessageTransmit m => Sys2Proof.Machine.execPtpMessageTransmit m s

end Sys2Proof.Machine
end

