-- ==== Sys2Proof/Machine/Idle.lean ====
section
/-! DEFINITION. Pack time's advance (02). -/

namespace Sys2Proof.Machine

open Sys2Proof

/-- One REFCLK period in the units of State.time: 6.4 ns x (1 + RATE_ADJ / 2^40) (R28). -/
def State.refclkU (s : State) : Int := 590295810358705651712 + 536870912 * ofSigned 32 (s.rdW R.RATE_ADJ)

/-- What the block does while no command waits (log 4): pack time advances by one REFCLK period while STEWARD is on;
asleep, the always-on counter counts a tick of the crystal. -/
def State.idle (s : State) : State :=
  if s.domOn domSteward then { s with time := s.time + s.refclkU } else s.onBeat (fun z => { z with aon := z.aon + 1 })

end Sys2Proof.Machine
end

