-- ==== Sys2Proof/Safety.lean ====
section
/-! DEFINITION. What claims are stated in: how a command ends, what one core's instruction may change, what a command's
completion carries, when devices and offers agree with the registers. -/

namespace Sys2Proof.Machine

open Sys2Proof

/-- A command ends in a settled next state; ill-formed operands are the one other end. -/
def Settles (o : Host.Outcome State Fault Refusal) : Prop := o = .fault .illFormed ∨ ∃ u : State, o = .next u.settle

/-! ### Which operands a row carries -/

/-- Has a command operands that its row can carry? The rest, an offset inside a word, a number with no unit behind it, a key of
another length, is met with the fault illFormed (WellFormed.lean). -/
def carried (c : Instr) : Bool :=
  match c with
  | .beatRunStart v => v.getLsbD 31
  | .beatRunStop v => !v.getLsbD 31
  | .commitGo v => v.getLsbD 0
  | .commitCancel v => v.getLsbD 2
  | .exceptionEntry core (.reservedEncoding a b) => (decodeGitik core a b).isNone
  | .exceptionEntry _ .boundary => true
  | .crossingResync x _ => decide (x.toNat < 36)
  | .pendSet c _ _ => cicOk c
  | .pendClr c _ _ => cicOk c
  | .enSet c _ _ => cicOk c
  | .enClr c _ _ => cicOk c
  | .eoi c k _ => cicCoreOk c k
  | .raiseDev c _ => cicOk c
  | .srcCfgWrite c _ _ => cicOk c
  | .holdoffWrite c _ _ => cicOk c
  | .holdoffExpire c _ => cicOk c
  | .maskWrite c k _ => cicCoreOk c k
  | .storeLinkChange _ l => decide (l.gen.toNat < 4)
  | .cfgPut h _ _ value => hdrOk h && decide (value.length < 65536)
  | .knInit h key => hdrOk h && key.length == 97
  | .knKeySet h _ _ key => hdrOk h && key.length == 97
  | .knAttest h nonce => hdrOk h && nonce.length == 48
  | .mbCtrlEn _ v => !v.getLsbD 30
  | .bar2Read b => b.toNat % 4 == 0
  | .bar2Write b _ _ => b.toNat % 4 == 0
  | .bar4Read b n => decide (n.toNat ≤ 4096 ∧ b.toNat + n.toNat ≤ 536870912)
  | .bar4Write b data => decide (data.length ≤ 4096 ∧ b.toNat + data.length ≤ 536870912)
  | .rstCtrlDevice v => v.getLsbD 0
  | .rstCtrlSteward v => v.getLsbD 1
  | .rstCtrlKennel v => v.getLsbD 2
  | .stewWdtKick v => v.getLsbD 30
  | .bringUp b => b.table.length == 1344 && b.gib.length == 4
  | .registerWrite _ off _ _ => off.toNat % 4 == 0
  | .readClear _ off => off.toNat % 4 == 0
  | .speedTableMeasured _ table _ => table.length == 21
  | .ctxStage h _ _ | .ctxStageRange h _ _ _ _ _ | .subSet h _ _ | .ctxRead h _ _ | .ctxClear h _ _ | .stageDrop h | .stageInfo h
  | .beatreadyQueue h _ _ | .autobindTemplate h _ _ _ _ _ | .gapScan h _ _ _ | .redStage h _ _ _ _ _ _ _ _ | .redRemove h _ _
  | .redClear h _ _ _ | .redResidue h _ _ | .redRead h _ _ _ _ _ | .redMatrixRead h _ _ _ _ | .redQueue h _ _ | .redLoad h _ _
  | .decimCoef h _ _ _ _ | .packStatus h | .routeRead h _ _ | .lsdbRead h _ _ | .schedStage h _ _ | .schedDrop h _ _
  | .schedRead h _ _ _ | .groupStage h _ _ _ | .asymSave h _ _ | .fabTxq h _ _ | .fabSend h _ | .jrnlFormat h _ _ _
  | .jrnlStart h | .jrnlStop h | .jrnlStatus h | .jrnlSealCfg h _ | .jrnlHoldup h _ | .jrnlRead h _ _ _ _ | .jrnlFind h _ _
  | .jrnlDelete h _ | .jrnlCompact h _ | .ewArm h _ _ _ _ _ | .ewTrigger h _ | .ewDisarm h _ | .jrnlRateTest h | .cfgGet h _
  | .knInfo h | .knCerts h _ | .knChallenge h | .knAuth h _ _ _ _ | .knLogout h | .knKeyDel h _ _ | .knAuthz h _ | .knAdmit h _
  | .knCertLoad h _ _ _ | .knRandom h _ | .knSelftest h | .knZeroize h _ | .knCounter h _ _ | .nopCommand h | .devInfo h
  | .evtSubscribe h _ | .memRead h _ _ | .memWrite h _ _ | .svcCfg h _ | .svcExport h _ | .svcStatus h | .timeSetTai h _ _ _
  | .timeStep h _ | .ppsSecond h _ | .ptpCfg h _ | .ptpStatus h | .progLoad h _ _ _ _ _ _ _ | .coreHold h _ _ | .coreStart h _ _
  | .coreResume h _ _ _ | .coreState h _ | .pwrSet h _ _ | .pwrStatus h _ _ | .pwrDpl h _ | .speedRead h _ | .speedMeasure h _
  | .whFire h _ | .whPack h _ _ | .whRead h _ _ | .dbgHalt h _ _ | .dbgReg h _ _ _ _ _ | .dbgTap h _ | .fwStatus h
  | .fwWrite h _ _ _ | .fwActivate h _ _ _ | .fwConfirm h | .fwCommit h _ | .fwLoadRam h _ | .devReset h _ => hdrOk h
  | .edge | .srcSelWrite _ | .ppsPulse _ _ | .irigFrame _ | .ptpMessage _ _ | .beatInPulse | .referenceTimeout _ | .epochAdvance
  | .aonCalibration _ | .servoResume | .timeCapture _ | .beatNumLoRead | .commitCutoff | .immediateCommit | .beatOverrun _
  | .beatReadyPost _ | .bwaitWake _ | .period _ _ _ | .periodRefuse _ _ | .periodCancel _ | .spCtrlEn _ _ | .spGenSelWrite _ _
  | .spCtrlAccept _ | .spLinkLock _ _ | .spLinkLoss _ | .spGenWindow _ | .descTimeout _ | .mgmtSilence _ | .desc _ _ _
  | .delayMeasureSp _ | .echoReply _ _ _ _ | .mgmtRetry _ _ | .planAck _ _ _ | .planNak _ _ _ _ | .regData _ _ _ _
  | .sensor _ _ _ | .moduleEvt _ _ _ _ _ | .heartbeat _ _ | .ack _ _ | .planResend _ | .beatBlock _ _ | .portDeadline _
  | .driveAbortAssert | .drvAbortSw | .drvAbortRearm | .autobind _ | .autobindGiveUp _ | .nop _ | .mov _ _ _ | .movq _ _ _
  | .movi _ _ _ | .movh _ _ _ | .add _ _ | .adc _ _ _ | .addq _ _ _ | .addi _ _ _ _ | .sub _ _ | .sbc _ _ _ | .rsubi _ _ _ _
  | .neg _ _ _ | .and _ _ | .andi _ _ _ _ | .or _ _ | .ori _ _ _ _ | .xor _ _ | .xori _ _ _ _ | .not _ _ _ | .shl _ _ | .shr _ _
  | .sar _ _ | .shlq _ _ _ | .shrq _ _ _ | .sarq _ _ _ | .shli _ _ _ _ | .shri _ _ _ _ | .sari _ _ _ _ | .clz _ _ _ | .cls _ _ _
  | .max _ _ _ _ | .min _ _ _ _ | .adds _ _ _ _ | .subs _ _ _ _ | .sxg _ _ _ | .zxg _ _ _ | .swpg _ _ _ | .norm _ _ _
  | .normx _ _ _ _ | .addd _ _ _ | .subd _ _ _ | .addds _ _ _ | .subds _ _ _ | .absds _ _ _ | .maxd _ _ _ _ | .mind _ _ _ _
  | .sard _ _ _ _ _ | .bfx _ _ _ _ _ _ | .bfi _ _ _ _ _ | .perm _ _ _ _ | .cmp _ _ _ _ _ _ | .cmpi _ _ _ _ _ _
  | .cmpd _ _ _ _ _ _ | .pset _ _ _ _ | .plog _ _ _ _ _ | .ldg _ _ | .ldgu _ _ _ _ | .ldl _ _ | .stg _ _ | .stl _ _
  | .ldx _ _ _ _ _ _ _ | .stx _ _ _ _ _ _ _ | .axch _ _ _ _ | .aadd _ _ _ _ | .acas _ _ _ _ | .br _ _ | .jmpl _ _ _ | .bra _ _
  | .call _ _ _ | .calle _ _ | .rete _ | .retx _ | .rep _ _ _ | .repi _ _ _ | .bwait _ _ | .qput _ _ _ | .qget _ _ _ | .whist _ _
  | .fence _ | .mfs _ _ _ | .mts _ _ _ | .macd _ _ _ _ _ | .msud _ _ _ _ _ | .macx _ _ _ _ _ | .mdif _ _ _ _ _
  | .accr _ _ _ _ _ _ | .acch _ _ _ | .accl _ _ _ | .accw _ _ _ _ | .aclr _ _ | .mul _ _ _ _ _ | .div _ _ _ _ _ | .sqrt _ _ _ _
  | .recip _ _ _ _ | .cordicRot _ _ _ | .cordicVec _ _ _ _ | .movs _ _ _ _ _ _ | .fils _ _ _ _ _ _ | .cmps _ _ _ _ _ _
  | .scns _ _ _ _ _ _ _ | .sideUnitDeliver _ _ | .haltReport _ | .leashExpire _ | .entryShadowEnd _ | .icinvLine _ _
  | .icinvAll _ | .deviceSourceEdge _ | .msixUnmask _ | .watcherWake | .wakeTsLoRead | .qcfgWrite _ _ | .queueReset _
  | .queueClr _ | .queueSweepDone _ | .reSubmit _ _ _ | .redIntakeItem _ | .specRecordWrite _ | .fpCtrlEn _ _
  | .fabricGenWindow _ | .fabricLock _ _ | .fabricLockLoss _ | .helloSend _ | .hello _ _ | .helloTimeout _ | .authCert _ _
  | .authSig _ _ | .authTimeout _ | .refusedTimeout _ | .syncDone _ | .linkStateRecord _ _ | .lsrRefresh | .lsrAgeOut _
  | .addrConfirm | .routeCompute | .masterHandover | .delayMeasureFp _ | .dreq _ _ | .dresp _ _ _ _ | .edgeBlock _ _ _
  | .tdata _ _ _ | .parentEdgeTimeout | .parentSwitch | .rekey _ | .fpAsymWrite _ _ | .vlFrameRx _ _ | .vl0FrameRx _ _
  | .vl0WindowOpen _ | .token _ _ _ | .tokenMiss _ | .vl0Late _ | .lack _ _ _ _ _ | .lackSend _ _ | .retryTimeout _ _ | .qmsgTx
  | .whistle _ _ | .faultReport _ | .frEntryClose _ | .recordAdmit _ | .sealTick | .sealSigned _ | .nvmeCompletion _ _
  | .nvmeTimeout _ | .rateWindow _ _ _ | .recoveryDone _ | .pwrfailNAssert | .headLoRead | .sealedLoRead | .zeroizeNAssert
  | .fullZeroizationDone | .sensorTrip _ | .entropyFail _ | .selftestDone _ | .drbgReseed | .challengeExpire _
  | .sessionTimeout _ | .sealRequest | .knKeyidLoRead | .mbDbWrite _ _ | .mbCtrlReset _ | .mbCplHeadWrite _ _ | .eventDeliver _ _
  | .functionLevelReset | .hotReset | .svcDatagram _ | .svcChannelRelease _ | .exportDatagram _ _ | .domainTransitionDone _ _
  | .speedRemeasure _ | .tjWarnCross _ _ | .thermtrip | .whFireWrite _ | .whistleNFall | .whCopyoutDone | .whBeatLoRead
  | .haltReq _ _ | .tapDebugAccess _ _ | .powerOnReset _ _ | .deviceReset _ _ | .stewWdtExpire | .lockupAutoReset
  | .kennelLockupReset | .imageHandoff _ _ | .stewardRestart | .driveAbortNRelease | .zeroizeNRelease | .pwrfailNRelease
  | .vl0WindowClose _ | .ddrRetrainDone _ | .pcieLinkStateChange _ | .svcLinkChange _ _ | .tapInstructionUpdate _
  | .ptpMessageTransmit _ => true

/-! ### Interrupt offers and device levels (R254, R255, R265) -/

/-- Every source a CIC offers is deliverable to the one core it is offered to, and while its domain is on every source
that is deliverable to some core is offered (R254, R255, R274). -/
def offersRight (s : State) : Prop :=
  ∀ c src : Nat,
    (∀ k, (src, k) ∈ (s.cic c).offers → s.domOn (domCic c) = true ∧ s.deliverable c src k = true) ∧
    (∀ j k, (src, j) ∈ (s.cic c).offers → (src, k) ∈ (s.cic c).offers → j = k) ∧
    (s.domOn (domCic c) = true → ∀ k, s.deliverable c src k = true → ∃ j, (src, j) ∈ (s.cic c).offers)

/-- The level kept of each device source is that of its line (R265). -/
def levelsRight (s : State) : Prop := ∀ d, d < 128 → s.dev.level.getLsbD d = s.line d

/-! ### One instruction of a core -/

/-- Core i is about to execute, for its own effect, an instruction of n grains whose guard is P(x.guard): it issues
instructions, nothing stands before the instruction at its boundary (R226, R531), its grains can be fetched, a parity error of a
cached line making it a miss (R198), its guard reads 1 (R142), no side-unit operation is pending (R161), no debug stop is asked
for (R530, R533), and no domain transition waits for this boundary (R502). -/
def Ready (s : State) (x : Iss) (n : Nat) : Prop :=
  let i := coreIdx x.core
  let c := s.core i
  s.active i = true ∧ s.boundaryEvent i = none ∧ c.run = .running ∧ s.breaks i = false ∧
    (s.parity i x.perr n).fetchFault i n = none ∧
    c.p x.guard = true ∧ c.side = [] ∧ c.haltReq = false ∧ c.step = false ∧ s.pwr.slot = []

/-- The state once the n grains of an instruction have been fetched (R198). -/
def State.atFetch (s : State) (x : Iss) (n : Nat) : State :=
  s.onCore (coreIdx x.core) (·.fetch x.perr n)

/-- Nothing but core i differs, but for what a settled state senses and offers. -/
structure coreOnly (s t : State) (i : Nat) : Prop where
  pending : t.pending = s.pending
  out : t.out = s.out
  free : t.free = s.free
  time : t.time = s.time
  hreg : t.hreg = s.hreg
  force : t.force = s.force
  mem : t.mem = s.mem
  eccUnc : t.eccUnc = s.eccUnc
  beat : t.beat = s.beat
  clus : t.clus = s.clus
  ports : t.ports = s.ports
  abortPin : t.abortPin = s.abortPin
  str : t.str = s.str
  qeng : t.qeng = s.qeng
  red : t.red = s.red
  fab : t.fab = s.fab
  jrn : t.jrn = s.jrn
  kn : t.kn = s.kn
  host : t.host = s.host
  fserial : t.fserial = s.fserial
  mon : t.mon = s.mon
  cross : t.cross = s.cross
  pwr : t.pwr = s.pwr
  wh : t.wh = s.wh
  boot : t.boot = s.boot
  msixEn : t.dev.msixEn = s.dev.msixEn
  msixFmask : t.dev.msixFmask = s.dev.msixFmask
  wakeTs : t.dev.wakeTs = s.dev.wakeTs
  cores : ∀ j, j ≠ i → t.core j = s.core j
  cics : ∀ c, { t.cic c with offers := [] } = { s.cic c with offers := [] }

/-- The reduction engines but for the marks of states that a store has met (R302). -/
def redBut (z : Red) : Red := { z with states := z.states.map (fun r => { r with spoiled := false }) }

/-- Nothing differs but core i, memory with its uncorrectable errors, how many free values have been taken, the marks of
reduction states that the store meets, and what a settled state senses and offers: what an instruction that stores to memory may change. -/
structure coreAndMem (s t : State) (i : Nat) : Prop where
  pending : t.pending = s.pending
  out : t.out = s.out
  time : t.time = s.time
  hreg : t.hreg = s.hreg
  force : t.force = s.force
  beat : t.beat = s.beat
  clus : t.clus = s.clus
  ports : t.ports = s.ports
  abortPin : t.abortPin = s.abortPin
  str : t.str = s.str
  qeng : t.qeng = s.qeng
  red : redBut t.red = redBut s.red
  fab : t.fab = s.fab
  jrn : t.jrn = s.jrn
  kn : t.kn = s.kn
  host : t.host = s.host
  fserial : t.fserial = s.fserial
  mon : t.mon = s.mon
  cross : t.cross = s.cross
  pwr : t.pwr = s.pwr
  wh : t.wh = s.wh
  boot : t.boot = s.boot
  msixEn : t.dev.msixEn = s.dev.msixEn
  msixFmask : t.dev.msixFmask = s.dev.msixFmask
  wakeTs : t.dev.wakeTs = s.dev.wakeTs
  cores : ∀ j, j ≠ i → t.core j = s.core j
  cics : ∀ c, { t.cic c with offers := [] } = { s.cic c with offers := [] }

/-- What no instruction on registers changes of its core: entry and special registers, run state, records, notices and
side units stay (R134 to R138); of the control block only the performance counters and IC_PERR count (R210). -/
structure coreKept (c c' : Core) : Prop where
  e : c'.e = c.e
  mode : c'.mode = c.mode
  sst : c'.sst = c.sst
  slim : c'.slim = c.slim
  rp : c'.rp = c.rp
  faddr : c'.faddr = c.faddr
  finfo : c'.finfo = c.finfo
  mask : c'.mask = c.mask
  ovr : c'.ovr = c.ovr
  run : c'.run = c.run
  report : c'.report = c.report
  side : c'.side = c.side
  wake : c'.wake = c.wake
  skip : c'.skip = c.skip
  tag : c'.tag = c.tag
  wakeBeat : c'.wakeBeat = c.wakeBeat
  work : c'.work = c.work
  completed : c'.completed = c.completed
  step : c'.step = c.step
  haltReq : c'.haltReq = c.haltReq
  ccb : ∀ off, off ≠ ccbRetired → off ≠ ccbPaired → off ≠ ccbKills → off ≠ ccbIcMiss → off ≠ ccbIcPerr → c'.ccbL off = c.ccbL off

/-- What becomes of the condition and sticky flags: the new value, or none where a flag stays. -/
structure FlagEff where
  n : Option Bool := none
  z : Option Bool := none
  c : Option Bool := none
  v : Option Bool := none
  sv : Option Bool := none
  af : Option Bool := none

/-- The flags of ST after an instruction (R136); LX, LA1 and LA0 follow the leash and the loops (R176, R240). -/
def flagsAre (w w' : Grain) (f : FlagEff) : Prop :=
  w'.getLsbD stN = f.n.getD (w.getLsbD stN) ∧ w'.getLsbD stZ = f.z.getD (w.getLsbD stZ) ∧
  w'.getLsbD stC = f.c.getD (w.getLsbD stC) ∧ w'.getLsbD stV = f.v.getD (w.getLsbD stV) ∧
  w'.getLsbD stSV = f.sv.getD (w.getLsbD stSV) ∧ w'.getLsbD stAF = f.af.getD (w.getLsbD stAF) ∧
  ∀ b, 4 ≤ b → b < 15 → w'.getLsbD b = w.getLsbD b

/-- The core after an instruction of n grains: the registers are g, flags as f says, predicates p, accumulators a; the next
instruction in order follows where no loop is active. -/
structure coreIs (c c' : Core) (n : Nat) (g : GReg → Long) (f : FlagEff) (p : BitVec 3 → Bool) (a : BitVec 2 → BitVec 80) :
    Prop where
  kept : coreKept c c'
  regs : ∀ r, c'.gr r = g r
  flags : flagsAre c.st c'.st f
  preds : ∀ k, c'.p k = p k
  accs : ∀ k, c'.ac k = a k
  pc : c.la0 = false → c.la1 = false → c'.pc = c.pc + BitVec.ofNat 40 n

/-- Registers g with d put to v; a write to G0 is discarded (R134). -/
def withReg (g : GReg → Long) (d : GReg) (v : Long) : GReg → Long := fun r => if r = 0 then 0 else if r = d then v else g r

/-- An instruction of n grains runs and its whole effect on core i is: register d takes v (G0 stays 0), flags as f says,
predicates as p says, accumulators as a says; the next instruction in order follows where no loop is active. -/
def computes (ins : Instr) (s : State) (i n : Nat) (d : GReg) (v : Long) (f : FlagEff)
    (p : BitVec 3 → Bool := (s.core i).p) (a : BitVec 2 → BitVec 80 := (s.core i).ac) : Prop :=
  ∃ t, exec ins s = .next t ∧ coreOnly s t i ∧ coreIs (s.core i) (t.core i) n (withReg (s.core i).gr d v) f p a

/-- An instruction of n grains runs and its whole effect is on core i's registers, which become g, and flags, and on memory: each
grain that m names takes m's value and every other grain stays; no uncorrectable error appears. -/
def stores (ins : Instr) (s : State) (i n : Nat) (g : GReg → Long) (f : FlagEff) (m : Nat → Option Grain) : Prop :=
  ∃ t, exec ins s = .next t ∧ coreAndMem s t i ∧ coreIs (s.core i) (t.core i) n g f (s.core i).p (s.core i).ac ∧
    (∀ k, t.grain k = (m k).getD (s.grain k)) ∧ ∀ k, t.badLong k = true → s.badLong k = true

/-- Grain v alone at key k, or the two grains of long v at keys k and k'. -/
def atKey (k : Nat) (v : Grain) : Nat → Option Grain := fun j => if j = k then some v else none
def atKeys (k k' : Nat) (v : Long) : Nat → Option Grain := fun j =>
  if j = k' then some (v.extractLsb' 20 20) else if j = k then some (v.extractLsb' 0 20) else none

/-- Core i's access to the grain at a passes every check and reaches memory, at key k, without an error (R165 to R168, R206,
R207, R571); no WATCH stops it (R531). -/
def grainAt (s : State) (i a : Nat) (write : Bool) (k : Nat) : Prop :=
  s.touches i a 1 = false ∧ s.check1 i a write = none ∧ s.cls i a = .mem k ∧ s.badLong k = false

/-- The same of an access to the long at a, its grains at keys k and k'. -/
def longAt (s : State) (i a : Nat) (write : Bool) (k k' : Nat) : Prop :=
  s.touches i a 2 = false ∧ s.check2 i a write = none ∧ s.cls i a = .mem k ∧ s.cls i (addrAdd a 1) = .mem k' ∧
    s.badLong k = false ∧ s.badLong k' = false ∧ (a % 2 = 0 → k' = k + 1)

/-- The long whose grains are at keys k and k' (R141). -/
def longOf (s : State) (k k' : Nat) : Long := s.grain k' ++ s.grain k

end Sys2Proof.Machine
end

