-- ==== Sys2Proof/Certificates/Slice0/Obligations.lean ====
section
/-! DEFINITION. The statements for the provers, one definition for each obligation of OBLIGATIONS.json. -/

open Sys2Proof Sys2Proof.Machine

/-- Whatever command c (any of the 387 forms) and state s: a step of s with c at the front of its queue is exec c on
s with the queue's rest; if the operands are those its row carries, exec c answers a next state, whatever the state;
if not, the fault illFormed; never a refusal. Which operands a row carries is written out form by form in carried
(Safety.lean). The queue of waiting commands and one command a step are the model's (log 4). -/
def Obligations.StepRunsFront : Prop :=
  ∀ (c : Instr) (rest : List Instr) (s : State),
    step { s with pending := c :: rest } = exec c { s with pending := rest } ∧
    (carried c = true → ∃ t, exec c s = .next t) ∧ (carried c = false → exec c s = .fault .illFormed)

/-- With nothing waiting a step changes nothing but time. While domain STEWARD is on the clock advances by one REFCLK
period of 6.4 ns x (1 + RATE_ADJ / 2^40), with RATE_ADJ signed; the model's unit of time is 1/(5 x 2^64) ns. While it
is not on, the always-on counter counts up by one, modulo 2^48. That a step on an empty queue is one such period is
the model's choice (log 4). -/
def Obligations.IdleStep : Prop :=
  ∀ s : State, s.pending = [] →
    (s.domOn domSteward = true → ∃ d : Int, 5 * d = 32 * (2 ^ 64 * 5 + 5 * 2 ^ 24 * (s.word R.RATE_ADJ).toInt) ∧
      step s = .next { s with time := s.time + d }) ∧
    (s.domOn domSteward = false → step s = .next { s with beat := { s.beat with aon := s.beat.aon + 1 } })

/-- At reset every CIC's offers are those of R254 and R255, the level kept of each device source is that of its line,
no command waits, nothing has left the block, and memory lists nothing. -/
def Obligations.ResetSettled : Prop :=
  offersRight State.reset ∧ levelsRight State.reset ∧ State.reset.pending = [] ∧ State.reset.out = [] ∧
    Memory.wf State.reset.mem = true ∧ (∀ k, State.reset.grain k = 0) ∧ (∀ d, State.reset.line d = false)

/-- For every state s in which they hold, and whatever command is at the front of the queue, or none: if a step
answers next s', then in s' (1) every source a CIC offers is pending, enabled, not active, above the running
priority, and not held off, at a target core that can take it, and the CIC's domain is on; (2) it is offered to one
core alone; (3) every source deliverable to some core is offered while the domain is on; and (4) the level kept of
each of the 128 device sources is that of its line. -/
def Obligations.StepKeepsSettled : Prop :=
  ∀ s t : State, offersRight s → levelsRight s → step s = .next t → offersRight t ∧ levelsRight t

namespace Sys2Proof.Says

open Sys2Proof.Machine

/-- Lane L or H of a long as a signed number (R150). -/
def lane (v : Long) (h : Bool) : Int := if h then (v.extractLsb' 20 20).toInt else (v.extractLsb' 0 20).toInt

/-- A long of two lanes, each modulo 2^20. -/
def pairOf (l h : Int) : Long := BitVec.ofInt 20 h ++ BitVec.ofInt 20 l

/-- A number limited to plus or minus m. -/
def limit (m t : Int) : Int := max (-m) (min m t)

/-- N and Z of a result (R146). -/
def nz (r : Long) : FlagEff := { n := some (r.msb), z := some (decide (r = 0)) }

/-- a + b + c, and NZCV of it (R146). -/
def sum (a b : Long) (c : Bool) : Long := BitVec.ofNat 40 (a.toNat + b.toNat + c.toNat)
def sumFlags (a b : Long) (c : Bool) : FlagEff :=
  { nz (sum a b c) with
    c := some (decide (2 ^ 40 ≤ a.toNat + b.toNat + c.toNat))
    v := some (a.msb == b.msb && (sum a b c).msb != a.msb) }

/-- a - b - c, and NZCV of it (R146). -/
def diff (a b : Long) (c : Bool) : Long := BitVec.ofInt 40 ((a.toNat : Int) - b.toNat - c.toNat)
def diffFlags (a b : Long) (c : Bool) : FlagEff :=
  { nz (diff a b c) with
    c := some (decide (a.toNat < b.toNat + c.toNat))
    v := some (a.msb != b.msb && (diff a b c).msb != a.msb) }

/-- A shift of a by k (R148): value, and C where k is not 0. -/
def shiftLeft (a : Long) (k : Nat) : Long := BitVec.ofNat 40 (a.toNat * 2 ^ k)
def shiftRight (a : Long) (k : Nat) : Long := BitVec.ofNat 40 (a.toNat / 2 ^ k)
def shiftArith (a : Long) (k : Nat) : Long := BitVec.ofInt 40 (a.toInt / 2 ^ k)
def shiftFlags (r : Long) (k : Nat) (c : Bool) : FlagEff := { nz r with c := if k = 0 then none else some c }
def carryLeft (a : Long) (k : Nat) : Bool := if k ≤ 40 then a.getLsbD (40 - k) else false
def carryRight (a : Long) (k : Nat) : Bool := if k ≤ 40 then a.getLsbD (k - 1) else false
def carryArith (a : Long) (k : Nat) : Bool := if k ≤ 40 then a.getLsbD (k - 1) else a.msb

/-- SV is set where limited, and else stays (R136). -/
def sticky (c : Core) (b : Bool) : Option Bool := some (b || c.st.getLsbD stSV)

end Sys2Proof.Says

/-- On any core ready to execute it, each of NOP, MOV, MOVQ, MOVI, MOVH, SXG, ZXG and SWPG goes on. Gd takes Gs; q
sign-extended; the 23-bit immediate sign-extended; the 17-bit immediate over Gd[22:0]; Gs[19:0] sign- or
zero-extended; the grains of Gs exchanged. A write to G0 is discarded. No flag, predicate, accumulator, special
register, word of memory or other core changes; without an active loop the PC moves past the 1 or 2 grains. -/
def Obligations.MoveResults : Prop :=
  ∀ (s : State) (x : Iss) (d r : GReg),
    let i := coreIdx x.core
    let g := (s.core i).gr
    (Ready s x 1 → computes (.nop x) s i 1 0 0 {}) ∧
    (Ready s x 1 → computes (.mov x d r) s i 1 d (g r) {}) ∧
    (∀ q : BitVec 5, Ready s x 1 → computes (.movq x d q) s i 1 d (BitVec.ofInt 40 q.toInt) {}) ∧
    (∀ imm : BitVec 23, Ready s x 2 → computes (.movi x d imm) s i 2 d (BitVec.ofInt 40 imm.toInt) {}) ∧
    (∀ imm : BitVec 17, Ready s x 2 →
      computes (.movh x d imm) s i 2 d (BitVec.ofNat 40 (imm.toNat * 2 ^ 23 + (g d).toNat % 2 ^ 23)) {}) ∧
    (Ready s x 1 → computes (.sxg x d r) s i 1 d (BitVec.ofInt 40 (Says.lane (g r) false)) {}) ∧
    (Ready s x 1 → computes (.zxg x d r) s i 1 d (BitVec.ofNat 40 ((g r).toNat % 2 ^ 20)) {}) ∧
    (Ready s x 1 → computes (.swpg x d r) s i 1 d (Says.pairOf (Says.lane (g r) true) (Says.lane (g r) false)) {})

/-- On any core ready to execute it, each of the eight goes on, writes the sum or difference modulo 2^40 to Gd
(discarded where Gd is G0), sets N and Z from the result, C to the carry out of 40 bits or the borrow, and V as R146
gives it from bits 39. The carry in is C for ADC and SBC and 0 for the rest. ADD and SUB in short form take Gd and
Gs, in long form Gs and Gt; ADDQ a 5-bit and ADDI and RSUBI an 18-bit signed constant. Every other register, flag,
predicate, accumulator, word of memory and core stays. -/
def Obligations.AddSubResults : Prop :=
  ∀ (s : State) (x : Iss) (d r : GReg),
    let i := coreIdx x.core
    let g := (s.core i).gr
    let c := (s.core i).st.getLsbD stC
    (∀ a b : GReg, Ready s x 1 → computes (.add x (.short a b)) s i 1 a (Says.sum (g a) (g b) false) (Says.sumFlags (g a) (g b) false)) ∧
    (∀ a b e : GReg, Ready s x 2 →
      computes (.add x (.long a b e)) s i 2 a (Says.sum (g b) (g e) false) (Says.sumFlags (g b) (g e) false)) ∧
    (Ready s x 1 → computes (.adc x d r) s i 1 d (Says.sum (g d) (g r) c) (Says.sumFlags (g d) (g r) c)) ∧
    (∀ q : BitVec 5, Ready s x 1 →
      computes (.addq x d q) s i 1 d (Says.sum (g d) (q.signExtend 40) false) (Says.sumFlags (g d) (q.signExtend 40) false)) ∧
    (∀ m : BitVec 18, Ready s x 2 →
      computes (.addi x d r m) s i 2 d (Says.sum (g r) (m.signExtend 40) false) (Says.sumFlags (g r) (m.signExtend 40) false)) ∧
    (∀ a b : GReg, Ready s x 1 → computes (.sub x (.short a b)) s i 1 a (Says.diff (g a) (g b) false) (Says.diffFlags (g a) (g b) false)) ∧
    (∀ a b e : GReg, Ready s x 2 →
      computes (.sub x (.long a b e)) s i 2 a (Says.diff (g b) (g e) false) (Says.diffFlags (g b) (g e) false)) ∧
    (Ready s x 1 → computes (.sbc x d r) s i 1 d (Says.diff (g d) (g r) c) (Says.diffFlags (g d) (g r) c)) ∧
    (∀ m : BitVec 18, Ready s x 2 →
      computes (.rsubi x d r m) s i 2 d (Says.diff (m.signExtend 40) (g r) false) (Says.diffFlags (m.signExtend 40) (g r) false)) ∧
    (Ready s x 1 → computes (.neg x d r) s i 1 d (Says.diff 0 (g r) false) (Says.diffFlags 0 (g r) false))

/-- On any core ready to execute it, each goes on. The logical instructions write the bitwise result, set N and Z
from it, and leave C and V; ANDI sign-extends its 18-bit immediate, ORI and XORI zero-extend it. ADDS and SUBS limit
the exact signed sum or difference to plus or minus 2^39 - 1, set N and Z from the result, set V exactly when it was
limited, set SV then and else keep it, and leave C. Everything else the core and the device hold stays. -/
def Obligations.LogicResults : Prop :=
  ∀ (s : State) (x : Iss) (d r t : GReg) (m : BitVec 18),
    let i := coreIdx x.core
    let g := (s.core i).gr
    let lim (e : Int) : Long := BitVec.ofInt 40 (Says.limit (2 ^ 39 - 1) e)
    let cut (e : Int) : Bool := decide (e < -(2 ^ 39 - 1) ∨ 2 ^ 39 - 1 < e)
    (Ready s x 1 → computes (.and x (.short d r)) s i 1 d (g d &&& g r) (Says.nz (g d &&& g r)) ∧
      computes (.or x (.short d r)) s i 1 d (g d ||| g r) (Says.nz (g d ||| g r)) ∧
      computes (.xor x (.short d r)) s i 1 d (g d ^^^ g r) (Says.nz (g d ^^^ g r)) ∧
      computes (.not x d r) s i 1 d (~~~ g r) (Says.nz (~~~ g r))) ∧
    (Ready s x 2 → computes (.and x (.long d r t)) s i 2 d (g r &&& g t) (Says.nz (g r &&& g t)) ∧
      computes (.or x (.long d r t)) s i 2 d (g r ||| g t) (Says.nz (g r ||| g t)) ∧
      computes (.xor x (.long d r t)) s i 2 d (g r ^^^ g t) (Says.nz (g r ^^^ g t)) ∧
      computes (.andi x d r m) s i 2 d (g r &&& m.signExtend 40) (Says.nz (g r &&& m.signExtend 40)) ∧
      computes (.ori x d r m) s i 2 d (g r ||| m.setWidth 40) (Says.nz (g r ||| m.setWidth 40)) ∧
      computes (.xori x d r m) s i 2 d (g r ^^^ m.setWidth 40) (Says.nz (g r ^^^ m.setWidth 40)) ∧
      computes (.adds x d r t) s i 2 d (lim ((g r).toInt + (g t).toInt))
        { Says.nz (lim ((g r).toInt + (g t).toInt)) with
          v := some (cut ((g r).toInt + (g t).toInt)), sv := Says.sticky (s.core i) (cut ((g r).toInt + (g t).toInt)) } ∧
      computes (.subs x d r t) s i 2 d (lim ((g r).toInt - (g t).toInt))
        { Says.nz (lim ((g r).toInt - (g t).toInt)) with
          v := some (cut ((g r).toInt - (g t).toInt)), sv := Says.sticky (s.core i) (cut ((g r).toInt - (g t).toInt)) })

/-- On any core ready to execute it, each of the nine goes on and writes a shifted left modulo 2^40, right with
zeros, or right with copies of bit 39, by k: Gs[5:0] (short form) or Gt[5:0] (long form), the 5-bit u, or the 6-bit
immediate. N and Z follow the result. For k = 0 C stays; for 1 to 40 C is the last bit shifted out; above 40 it is 0,
or bit 39 for SAR. V and everything else stay. -/
def Obligations.ShiftResults : Prop :=
  ∀ (s : State) (x : Iss) (d r t : GReg) (u : BitVec 5) (m : BitVec 6),
    let i := coreIdx x.core
    let g := (s.core i).gr
    let six (v : Long) : Nat := (v.extractLsb' 0 6).toNat
    let left (ins : Instr) (n : Nat) (a : Long) (k : Nat) : Prop :=
      computes ins s i n d (Says.shiftLeft a k) (Says.shiftFlags (Says.shiftLeft a k) k (Says.carryLeft a k))
    let right (ins : Instr) (n : Nat) (a : Long) (k : Nat) : Prop :=
      computes ins s i n d (Says.shiftRight a k) (Says.shiftFlags (Says.shiftRight a k) k (Says.carryRight a k))
    let arith (ins : Instr) (n : Nat) (a : Long) (k : Nat) : Prop :=
      computes ins s i n d (Says.shiftArith a k) (Says.shiftFlags (Says.shiftArith a k) k (Says.carryArith a k))
    (Ready s x 1 → left (.shl x (.short d r)) 1 (g d) (six (g r)) ∧ right (.shr x (.short d r)) 1 (g d) (six (g r)) ∧
      arith (.sar x (.short d r)) 1 (g d) (six (g r)) ∧ left (.shlq x d u) 1 (g d) u.toNat ∧
      right (.shrq x d u) 1 (g d) u.toNat ∧ arith (.sarq x d u) 1 (g d) u.toNat) ∧
    (Ready s x 2 → left (.shl x (.long d r t)) 2 (g r) (six (g t)) ∧ right (.shr x (.long d r t)) 2 (g r) (six (g t)) ∧
      arith (.sar x (.long d r t)) 2 (g r) (six (g t)) ∧ left (.shli x d r m) 2 (g r) m.toNat ∧
      right (.shri x d r m) 2 (g r) m.toNat ∧ arith (.sari x d r m) 2 (g r) m.toNat)

/-- On any core ready to execute it, each goes on and changes no flag. CLZ writes n, 0 to 40, with the n highest bits
of Gs all 0 and, below 40, the next bit 1. CLS writes n, 0 to 39, with the n bits below bit 39 equal to bit 39 and,
below 39, the next one different. MAX and MIN write the greater or the lesser of Gs and Gt as signed values. -/
def Obligations.CountResults : Prop :=
  ∀ (s : State) (x : Iss) (d r t : GReg),
    let i := coreIdx x.core
    let g := (s.core i).gr
    (Ready s x 1 → ∃ n, n ≤ 40 ∧ (∀ k, k < n → (g r).getLsbD (39 - k) = false) ∧ (n < 40 → (g r).getLsbD (39 - n) = true) ∧
      computes (.clz x d r) s i 1 d (BitVec.ofNat 40 n) {}) ∧
    (Ready s x 1 → ∃ n, n ≤ 39 ∧ (∀ k, k < n → (g r).getLsbD (38 - k) = (g r).getLsbD 39) ∧
      (n < 39 → (g r).getLsbD (38 - n) ≠ (g r).getLsbD 39) ∧ computes (.cls x d r) s i 1 d (BitVec.ofNat 40 n) {}) ∧
    (Ready s x 2 → computes (.max x d r t) s i 2 d (BitVec.ofInt 40 (max (g r).toInt (g t).toInt)) {} ∧
      computes (.min x d r t) s i 2 d (BitVec.ofInt 40 (min (g r).toInt (g t).toInt)) {})

/-- On any core ready to execute it: with 1 <= LEN and POS + LEN <= 40, BFX writes Gs[POS+LEN-1:POS], zero- or
sign-extended, and BFI replaces those bits of Gd by the low LEN bits of Gs and keeps the rest; PERM writes octet k of
Gd as its selector says: an octet of Gs, 0x00, 0xFF, or 0xFF or 0x00 by Gs[39]. No flag changes. For any other POS
and LEN both BFX and BFI take illegal opcode (vector 1) with cause 2 at the PC, and that is all they do. -/
def Obligations.FieldResults : Prop :=
  ∀ (s : State) (x : Iss) (d r : GReg),
    let i := coreIdx x.core
    let g := (s.core i).gr
    (∀ (pos len : BitVec 6), 1 ≤ len.toNat → pos.toNat + len.toNat ≤ 40 → Ready s x 2 →
      (∃ v : Long, (∀ k, k < 40 → v.getLsbD k = if k < len.toNat then (g r).getLsbD (pos.toNat + k) else false) ∧
        computes (.bfx x d r pos len false) s i 2 d v {}) ∧
      (∃ v : Long, (∀ k, k < 40 → v.getLsbD k = if k < len.toNat then (g r).getLsbD (pos.toNat + k)
          else (g r).getLsbD (pos.toNat + len.toNat - 1)) ∧ computes (.bfx x d r pos len true) s i 2 d v {}) ∧
      (∃ v : Long, (∀ k, k < 40 → v.getLsbD k = if pos.toNat ≤ k ∧ k < pos.toNat + len.toNat then (g r).getLsbD (k - pos.toNat)
          else (g d).getLsbD k) ∧ computes (.bfi x d r pos len) s i 2 d v {})) ∧
    (∀ (pos len : BitVec 6) (sx : Bool), (len.toNat = 0 ∨ 40 < pos.toNat + len.toNat) → Ready s x 2 →
      let u := ((s.atFetch x 2).takeException i (.fault { vec := 1, cause := 2, addr := (s.core i).pc })).pause i
      exec (.bfx x d r pos len sx) s = doneP u ∧ exec (.bfi x d r pos len) s = doneP u) ∧
    (∀ (sel : BitVec 15), Ready s x 2 → ∃ v : Long,
      (∀ k j, k < 5 → j < 8 → v.getLsbD (8 * k + j) = match sel.toNat / 8 ^ k % 8 with
        | 5 => false
        | 6 => true
        | 7 => (g r).getLsbD 39
        | n => (g r).getLsbD (8 * n + j)) ∧
      computes (.perm x d r sel) s i 2 d v {})

/-- On any core ready to execute it, each goes on and computes on the signed 20-bit lanes L and H separately. ADDD
and SUBD wrap; ADDDS, SUBDS and ABSDS limit each lane to plus or minus 524,287 and set SV when either lane was
limited; MAXD and MIND take each lane's greater or lesser; SARD shifts each lane right by sh below 20, after adding
2^(sh-1) where RND is set and sh is not 0, and wraps. No other flag changes. SARD with sh from 20 to 31 takes illegal
opcode, vector 1 cause 2. -/
def Obligations.DualResults : Prop :=
  ∀ (s : State) (x : Iss) (d r t : GReg),
    let i := coreIdx x.core
    let g := (s.core i).gr
    let l (a : GReg) : Int := Says.lane (g a) false
    let h (a : GReg) : Int := Says.lane (g a) true
    let sat (ins : Instr) (a b : Int) : Prop :=
      computes ins s i 1 d (Says.pairOf (Says.limit 524287 a) (Says.limit 524287 b))
        { sv := Says.sticky (s.core i) (decide (524287 < |a| ∨ 524287 < |b|)) }
    (Ready s x 1 → computes (.addd x d r) s i 1 d (Says.pairOf (l d + l r) (h d + h r)) {} ∧
      computes (.subd x d r) s i 1 d (Says.pairOf (l d - l r) (h d - h r)) {} ∧
      sat (.addds x d r) (l d + l r) (h d + h r) ∧ sat (.subds x d r) (l d - l r) (h d - h r) ∧
      sat (.absds x d r) |l r| |h r|) ∧
    (Ready s x 2 → computes (.maxd x d r t) s i 2 d (Says.pairOf (max (l r) (l t)) (max (h r) (h t))) {} ∧
      computes (.mind x d r t) s i 2 d (Says.pairOf (min (l r) (l t)) (min (h r) (h t))) {} ∧
      (∀ (sh : BitVec 5) (rnd : Bool),
        let half : Int := if rnd = true ∧ 0 < sh.toNat then 2 ^ (sh.toNat - 1) else 0
        (sh.toNat < 20 → computes (.sard x d r sh rnd) s i 2 d
          (Says.pairOf ((l r + half) / 2 ^ sh.toNat) ((h r + half) / 2 ^ sh.toNat)) {}) ∧
        (20 ≤ sh.toNat → exec (.sard x d r sh rnd) s =
          doneP (((s.atFetch x 2).takeException i (.fault { vec := 1, cause := 2, addr := (s.core i).pc })).pause i))))

/-- On any core ready to execute it, NORM and NORMX mode 0 turn the RNG20 code in Gs[19:0] into its mantissa, signed,
times 16^range, and mode 1 sign-extends Gs[19:0]; the gap codes 0xE0000 and 0x80000 give the long gap. Mode 2 writes
range r and mantissa m for the least r of 0 to 3 with m = Gs / 16^r rounded half away from zero within plus or minus
131,071, and else range 3 with the mantissa limited, V = 1 and SV set; mode 3 limits Gs to plus or minus 524,287,
with V and SV when that changes it. The long gap gives the gap code. N and Z are those of the value, 0 for a gap, for
which V is 1; C stays. -/
def Obligations.SampleFormatResults : Prop :=
  ∀ (s : State) (x : Iss) (d r : GReg),
    let i := coreIdx x.core
    let a := (s.core i).gr r
    let lo := a.extractLsb' 0 20
    let mant : Int := (a.extractLsb' 0 18).toInt * 16 ^ (a.extractLsb' 18 2).toNat
    let gap : FlagEff := { n := some false, z := some false, v := some true }
    let is (t : Int) (v : Bool) : FlagEff := { n := some (decide (t < 0)), z := some (decide (t = 0)), v := some v }
    let code (k : Nat) (m : Int) : Long := BitVec.ofNat 40 (k * 2 ^ 18 + (m % 2 ^ 18).toNat)
    (Ready s x 1 → (lo = 0xE0000 → computes (.norm x d r) s i 1 d 0x8000000000 gap) ∧
      (lo ≠ 0xE0000 → computes (.norm x d r) s i 1 d (BitVec.ofInt 40 mant) (is mant false))) ∧
    (Ready s x 2 → (lo = 0xE0000 → computes (.normx x d r 0) s i 2 d 0x8000000000 gap) ∧
      (lo ≠ 0xE0000 → computes (.normx x d r 0) s i 2 d (BitVec.ofInt 40 mant) (is mant false)) ∧
      (lo = 0x80000 → computes (.normx x d r 1) s i 2 d 0x8000000000 gap) ∧
      (lo ≠ 0x80000 → computes (.normx x d r 1) s i 2 d (lo.signExtend 40) (is lo.toInt false)) ∧
      (a = 0x8000000000 → computes (.normx x d r 2) s i 2 d 0xE0000 gap ∧ computes (.normx x d r 3) s i 2 d 0x80000 gap) ∧
      (a ≠ 0x8000000000 →
        (∀ (k : Nat) (m : Int), k ≤ 3 → |m| ≤ 131071 → 2 * |a.toInt - m * 16 ^ k| ≤ 16 ^ k →
          (2 * |a.toInt - m * 16 ^ k| = 16 ^ k → |a.toInt| < |m| * 16 ^ k) →
          (∀ j, j < k → 262143 * 16 ^ j ≤ 2 * |a.toInt|) →
          computes (.normx x d r 2) s i 2 d (code k m) (is m false)) ∧
        (262143 * 16 ^ 3 ≤ 2 * |a.toInt| →
          computes (.normx x d r 2) s i 2 d (code 3 (if 0 < a.toInt then 131071 else -131071))
            { is a.toInt true with sv := some true }) ∧
        computes (.normx x d r 3) s i 2 d (BitVec.ofNat 40 (Says.limit 524287 a.toInt % 2 ^ 20).toNat)
          { is (Says.limit 524287 a.toInt) (decide (524287 < |a.toInt|)) with
            sv := Says.sticky (s.core i) (decide (524287 < |a.toInt|)) }))

/-- On any core ready to execute it, and for PT and PF different or both 0: CMP, CMPI and PSET write the condition to
PT and its inverse to PF; CMPD writes the condition on lane L to PT and on lane H to PF; PLOG writes op(Pa, Pb) to
Pd. The conditions are those of the table of R158, 0 to 11 for compares and 0 to 13 for PSET, the operations the
eight of R160. P0 reads 1 whatever is written. No register, flag or accumulator changes. -/
def Obligations.PredicateResults : Prop :=
  ∀ (s : State) (x : Iss) (p q : BitVec 3) (c : BitVec 4) (r t : GReg) (m : BitVec 11), Ready s x 2 →
    let i := coreIdx x.core
    let k := s.core i
    let f (b : Nat) : Bool := k.st.getLsbD b
    let put (a b : Bool) : BitVec 3 → Bool := fun j => if j = 0 then true else if j = q then b else if j = p then a else k.p j
    let holds (a b : Int) (ua ub : Nat) (both : Bool) (lin rng : Bool) : Bool :=
      [decide (a = b), decide (a ≠ b), decide (a < b), decide (b ≤ a), decide (a ≤ b), decide (b < a), decide (ua < ub),
        decide (ub ≤ ua), both, !both, lin, rng].getD c.toNat false
    let cmp (a b : Long) : Bool := holds a.toInt b.toInt a.toNat b.toNat (a &&& b != 0)
      (a.extractLsb' 0 20 == 0x80000) (a.extractLsb' 0 20 == 0xE0000)
    let cmp20 (a b : Grain) : Bool := holds a.toInt b.toInt a.toNat b.toNat (a &&& b != 0) (a == 0x80000) (a == 0xE0000)
    let ne := f stN != f stV
    let flag : Bool := [f stZ, !f stZ, ne, !ne, f stZ || ne, !f stZ && !ne, f stC, !f stC, f stN, !f stN, f stV, !f stV,
      f stSV, f stAF].getD c.toNat false
    let op (o : Nat) (a b : Bool) : Bool :=
      [a && b, a || b, a != b, a && !b, a || !b, !(a && b), !(a || b), a == b].getD o false
    (p ≠ q ∨ p = 0 → c.toNat < 12 →
      computes (.cmp x p q c r t) s i 2 0 0 {} (p := put (cmp (k.gr r) (k.gr t)) (!cmp (k.gr r) (k.gr t))) ∧
      computes (.cmpi x p q c r m) s i 2 0 0 {}
        (p := put (cmp (k.gr r) (m.signExtend 40)) (!cmp (k.gr r) (m.signExtend 40))) ∧
      computes (.cmpd x p q c r t) s i 2 0 0 {}
        (p := put (cmp20 ((k.gr r).extractLsb' 0 20) ((k.gr t).extractLsb' 0 20))
          (cmp20 ((k.gr r).extractLsb' 20 20) ((k.gr t).extractLsb' 20 20)))) ∧
    (p ≠ q ∨ p = 0 → c.toNat < 14 → computes (.pset x p q c) s i 2 0 0 {} (p := put flag (!flag))) ∧
    (∀ (pa pb o : BitVec 3), computes (.plog x p pa pb o) s i 2 0 0 {}
      (p := fun j => if j = 0 then true else if j = p then op o.toNat (k.p pa) (k.p pb) else k.p j))

/-- On any core ready to execute it, each goes on. The four sums of lane products are added to A, cleared first where
CLR is set, modulo 2^80, and change no register or flag. ACCR shifts A right by SH, rounded by adding 2^(SH-1) where
RND is set and SH is not 0, and limits it to plus or minus 524,287 (W20) or 2^39 - 1, setting SV when that changes
it; ACCH and ACCL write A[79:40] and A[39:0] to Gd; ACCW loads A with Gs over Gt, and ACLR with 0. Every other
register, flag and accumulator stays. -/
def Obligations.AccumulatorResults : Prop :=
  ∀ (s : State) (x : Iss) (d r t : GReg) (a : BitVec 2) (clr : Bool), Ready s x 2 →
    let i := coreIdx x.core
    let k := s.core i
    let ll := Says.lane (k.gr r) false * Says.lane (k.gr t) false
    let hh := Says.lane (k.gr r) true * Says.lane (k.gr t) true
    let lh := Says.lane (k.gr r) false * Says.lane (k.gr t) true
    let hl := Says.lane (k.gr r) true * Says.lane (k.gr t) false
    let old : Int := if clr then 0 else (k.ac a).toNat
    let put (v : BitVec 80) : BitVec 2 → BitVec 80 := fun b => if b = a then v else k.ac b
    computes (.macd x a clr r t) s i 2 0 0 {} (a := put (BitVec.ofInt 80 (old + ll + hh))) ∧
    computes (.msud x a clr r t) s i 2 0 0 {} (a := put (BitVec.ofInt 80 (old - ll - hh))) ∧
    computes (.macx x a clr r t) s i 2 0 0 {} (a := put (BitVec.ofInt 80 (old + lh + hl))) ∧
    computes (.mdif x a clr r t) s i 2 0 0 {} (a := put (BitVec.ofInt 80 (old + ll - hh))) ∧
    (∀ (rnd w20 : Bool) (sh : BitVec 6),
      let m : Int := if w20 then 524287 else 2 ^ 39 - 1
      let e : Int := ((k.ac a).toInt + (if rnd = true ∧ 0 < sh.toNat then 2 ^ (sh.toNat - 1) else 0)) / 2 ^ sh.toNat
      computes (.accr x d a rnd w20 sh) s i 2 d (BitVec.ofInt 40 (Says.limit m e)) { sv := Says.sticky k (decide (m < |e|)) }) ∧
    computes (.acch x d ⟨a, 0⟩) s i 2 d ((k.ac a).extractLsb' 40 40) {} ∧
    computes (.accl x d ⟨a, 0⟩) s i 2 d ((k.ac a).extractLsb' 0 40) {} ∧
    computes (.accw x ⟨a, 0⟩ r t) s i 2 0 0 {} (a := put (BitVec.ofNat 80 ((k.gr r).toNat * 2 ^ 40 + (k.gr t).toNat))) ∧
    computes (.aclr x ⟨a, 0⟩) s i 2 0 0 {} (a := put 0)

namespace Sys2Proof.Says

open Sys2Proof.Machine

/-- The effective address of a short or long memory form (R165). -/
def ea (g : GReg → Long) : MForm → Nat
  | .short _ r => (g r).toNat
  | .long _ r imm => (g r + imm.signExtend 40).toNat

/-- R278: does the engine accept an enqueue to queue q: none of its five rows matches. -/
def accepts (s : State) (q : Nat) : Prop :=
  (s.queue q).en = true ∧ (s.queue q).broken = false ∧ (s.queue q).sweeping = false ∧
    ((s.queue q).limit = 0 ∨ (s.queue q).msgs.length < (s.queue q).limit.toNat) ∧ 0 < s.poolFree ∧
    ((s.queue q).priv = true ∨ min s.qeng.rsv.toNat 65536 < s.poolFree)

/-- The 2 n grains of a message or buffer at a even address a can be read, or written, one long after another: long j is at
keys k + 2 j and k + 2 j + 1. -/
def bufferAt (s : State) (i a n : Nat) (write : Bool) (k : Nat) : Prop :=
  a % 2 = 0 ∧ s.domOn domQueue = true ∧ (∀ j, j < 2 * n → s.inBuf i (addrAdd a j) = true) ∧ s.touches i a (2 * n) = false ∧
    ∀ j, j < n → longAt s i (addrAdd a (2 * j)) write (k + 2 * j) (k + 2 * j + 1)

end Sys2Proof.Says

/-- On any core ready to execute it, and where the access reaches memory and passes every check: LDG writes the grain
at the effective address sign-extended, LDGU zero-extended, LDL the long there, even or, with UNAL, odd; the address
is Gs, or Gs plus the signed 18-bit immediate, modulo 2^40. LDX takes SIZE 0, 1 or 2 of them at Gs + (Gt << SCALE),
or with UPD, where D is not S, at Gs, which then takes the sum. A load into G0 is discarded. No flag, memory or other
register changes. -/
def Obligations.LoadResults : Prop :=
  ∀ (s : State) (x : Iss),
    let i := coreIdx x.core
    let g := (s.core i).gr
    (∀ (f : MForm) (k : Nat), Ready s x (mLen f) → grainAt s i (Says.ea g f) false k →
      computes (.ldg x f) s i (mLen f) (mReg f) ((s.grain k).signExtend 40) {}) ∧
    (∀ (d r : GReg) (imm : BitVec 18) (k : Nat), Ready s x 2 → grainAt s i (Says.ea g (.long d r imm)) false k →
      computes (.ldgu x d r imm) s i 2 d ((s.grain k).setWidth 40) {}) ∧
    (∀ (f : MForm) (k k' : Nat), Ready s x (mLen f) → longAt s i (Says.ea g f) false k k' →
      computes (.ldl x f) s i (mLen f) (mReg f) (longOf s k k') {}) ∧
    (∀ (d r t : GReg) (scale : BitVec 2) (upd : Bool) (k k' : Nat), Ready s x 2 → (upd = true → d ≠ r) →
      let inc : Long := BitVec.ofNat 40 ((g t).toNat * 2 ^ scale.toNat)
      let a := (if upd then g r else g r + inc).toNat
      let after (v : Long) : GReg → Long := if upd then withReg (withReg g d v) r (g r + inc) else withReg g d v
      let loads (size : BitVec 2) (v : Long) : Prop := ∃ u, exec (.ldx x d r t size scale upd) s = .next u ∧ coreOnly s u i ∧
        coreIs (s.core i) (u.core i) 2 (after v) {} (s.core i).p (s.core i).ac
      (grainAt s i a false k → loads 0 ((s.grain k).signExtend 40) ∧ loads 1 ((s.grain k).setWidth 40)) ∧
      (longAt s i a false k k' → loads 2 (longOf s k k')))

/-- On any core ready to execute it, and where the access reaches memory and passes every check: STG stores Gd[19:0]
in the grain at the effective address, STL all of Gd in the two grains there, even or, with UNAL, odd, the lower
address holding bits 19:0; STX does the one with SIZE 0 or 1 and the other with SIZE 2, at Gs + (Gt << SCALE), or
with UPD at Gs, which then takes the sum. Every other grain of memory keeps its value, and no flag and no other
register changes. -/
def Obligations.StoreResults : Prop :=
  ∀ (s : State) (x : Iss),
    let i := coreIdx x.core
    let g := (s.core i).gr
    (∀ (f : MForm) (k : Nat), Ready s x (mLen f) → grainAt s i (Says.ea g f) true k →
      stores (.stg x f) s i (mLen f) g {} (atKey k ((g (mReg f)).extractLsb' 0 20))) ∧
    (∀ (f : MForm) (k k' : Nat), Ready s x (mLen f) → longAt s i (Says.ea g f) true k k' →
      stores (.stl x f) s i (mLen f) g {} (atKeys k k' (g (mReg f)))) ∧
    (∀ (d r t : GReg) (scale : BitVec 2) (upd : Bool) (k k' : Nat), Ready s x 2 →
      let inc : Long := BitVec.ofNat 40 ((g t).toNat * 2 ^ scale.toNat)
      let a := (if upd then g r else g r + inc).toNat
      let after : GReg → Long := if upd then withReg g r (g r + inc) else g
      (grainAt s i a true k → ∀ size : BitVec 2, size = 0 ∨ size = 1 →
        stores (.stx x d r t size scale upd) s i 2 after {} (atKey k ((g d).extractLsb' 0 20))) ∧
      (longAt s i a true k k' → stores (.stx x d r t 2 scale upd) s i 2 after {} (atKeys k k' (g d))))

/-- On any core ready to execute it, with the even long at Gs in memory that it may read and write: AXCH stores Gt
and AADD the old long plus Gt modulo 2^40; ACAS stores Gt, with Z = 1, where the old long equals Gd, and else stores
nothing, with Z = 0. All three write the old long to Gd. No other flag, register or grain changes. An odd Gs takes
vector 2, cause 3, without any access. -/
def Obligations.AtomicResults : Prop :=
  ∀ (s : State) (x : Iss) (d r t : GReg), Ready s x 2 →
    let i := coreIdx x.core
    let g := (s.core i).gr
    let a := (g r).toNat
    (∀ k, a % 2 = 0 → longAt s i a true k (k + 1) → s.isReg i a = false → s.isReg i (addrAdd a 1) = false →
      let old := longOf s k (k + 1)
      stores (.axch x d r t) s i 2 (withReg g d old) {} (atKeys k (k + 1) (g t)) ∧
      stores (.aadd x d r t) s i 2 (withReg g d old) {} (atKeys k (k + 1) (old + g t)) ∧
      (old = g d → stores (.acas x d r t) s i 2 (withReg g d old) { z := some true } (atKeys k (k + 1) (g t))) ∧
      (old ≠ g d → stores (.acas x d r t) s i 2 (withReg g d old) { z := some false } (fun _ => none))) ∧
    (a % 2 = 1 → s.touches i a 2 = false →
      let f : Flt := { vec := 2, cause := 3, addr := g r, write := true }
      exec (.axch x d r t) s = doneP (((s.atFetch x 2).takeException i (.fault f)).pause i) ∧
      exec (.aadd x d r t) s = doneP (((s.atFetch x 2).takeException i (.fault f)).pause i) ∧
      exec (.acas x d r t) s = doneP (((s.atFetch x 2).takeException i (.fault f)).pause i))

/-- On any core ready to execute it, with its message or buffer in memory it may access: QPUT of Gd[18:16] + 1 longs
at Gs adds them as one message at the tail of queue Gd[15:0] and clears Z, exactly where no row of R278 matches; else
no message of any queue changes and Z is set. QGET of a queue that holds a message and is not broken moves its longs
to the buffer, takes it from the queue, sets Gd to its length, plus 16 for a poisoned one, and clears Z; of an empty
queue it writes 0 to Gd and sets Z. Grains beyond the message, the other registers and the other queues' messages
keep their values. -/
def Obligations.QueueInstructionResults : Prop :=
  ∀ (s : State) (x : Iss) (d r : GReg), Ready s x 1 →
    let i := coreIdx x.core
    let g := (s.core i).gr
    let q := ((g d).extractLsb' 0 16).toNat
    let a := (g r).toNat
    (∀ k, Says.bufferAt s i a (((g d).extractLsb' 16 3).toNat + 1) false k →
      ∃ t, exec (.qput x d r) s = .next t ∧ t.mem = s.mem ∧ (∀ y, (t.core i).gr y = g y) ∧
        (∀ p, p ≠ q → (t.queue p).msgs = (s.queue p).msgs) ∧
        ∃ l : List Long, l.length = ((g d).extractLsb' 16 3).toNat + 1 ∧ (∀ j (h : j < l.length), l[j] = longOf s (k + 2 * j) (k + 2 * j + 1)) ∧
          (Says.accepts s q → (t.queue q).msgs = (s.queue q).msgs ++ [{ longs := l }] ∧ (t.core i).st.getLsbD stZ = false) ∧
          (¬ Says.accepts s q → (t.queue q).msgs = (s.queue q).msgs ∧ (t.core i).st.getLsbD stZ = true)) ∧
    (∀ k, Says.bufferAt s i a 8 true k →
      (∀ (m : Msg) (rest : List Msg), (s.queue q).broken = false → (s.queue q).msgs = m :: rest → m.linkBad = false → m.longs.length ≤ 8 →
        ∃ t, exec (.qget x d r) s = .next t ∧ (t.queue q).msgs = rest ∧ (∀ p, p ≠ q → (t.queue p).msgs = (s.queue p).msgs) ∧
          (∀ y, (t.core i).gr y = withReg g d (BitVec.ofNat 40 (m.longs.length + (if m.err || m.unc then 16 else 0))) y) ∧
          (t.core i).st.getLsbD stZ = false ∧
          (∀ j (h : j < m.longs.length), longOf t (k + 2 * j) (k + 2 * j + 1) = m.longs[j]) ∧
          (∀ n, (n < k ∨ k + 2 * m.longs.length ≤ n) → t.grain n = s.grain n)) ∧
      ((s.queue q).broken = true ∨ (s.queue q).msgs = [] →
        ∃ t, exec (.qget x d r) s = .next t ∧ t.qeng = s.qeng ∧ t.mem = s.mem ∧
          (∀ y, (t.core i).gr y = withReg g d 0 y) ∧ (t.core i).st.getLsbD stZ = true))

/-- On any core ready to execute it, with D, S and T different: with count 0 each goes on, MOVS and FILS changing
nothing, CMPS setting Z and clearing N, C and V, SCNS clearing Z. With count 1 and its accesses in memory: MOVS
copies the element at Gs to Gd and moves Gd and Gs on by one element, up or down; FILS stores Gs there and moves Gd
on; CMPS of equal elements moves both on, with Z set and N, C, V cleared; the count becomes 0. With any count, CMPS
of elements that differ leaves the registers, with NZCV of Gd's element minus Gs's, and SCNS whose first element
meets its condition leaves them, with Z set. (An element is a grain, sign-extended, or a long.) -/
def Obligations.BlockInstructionResults : Prop :=
  ∀ (s : State) (x : Iss) (size dec ne : Bool) (d r t : GReg), Ready s x 2 → d ≠ r → d ≠ t → r ≠ t →
    let i := coreIdx x.core
    let c := s.core i
    let g := c.gr
    let e : Long := BitVec.ofInt 40 ((if dec then -1 else 1) * (if size then 2 else 1))
    let holds (y : GReg) (v : Long) : Prop := ∃ k k', (size = false → grainAt s i (g y).toNat false k ∧ v = (s.grain k).signExtend 40) ∧
      (size = true → longAt s i (g y).toNat false k k' ∧ v = longOf s k k')
    let put (v : Long) (k k' : Nat) : Nat → Option Grain := if size then atKeys k k' v else atKey k (v.extractLsb' 0 20)
    let room (k k' : Nat) : Prop := if size then longAt s i (g d).toNat true k k' else grainAt s i (g d).toNat true k
    (g t = 0 → computes (.movs x size dec d r t) s i 2 0 0 {} ∧ computes (.fils x size dec d r t) s i 2 0 0 {} ∧
      computes (.cmps x size dec d r t) s i 2 0 0 { n := some false, z := some true, c := some false, v := some false } ∧
      computes (.scns x size dec ne d r t) s i 2 0 0 { z := some false }) ∧
    (g t = 1 → ∀ k k', room k k' →
      (∀ v, holds r v → stores (.movs x size dec d r t) s i 2
        (withReg (withReg (withReg g d (g d + e)) r (g r + e)) t 0) {} (put v k k')) ∧
      stores (.fils x size dec d r t) s i 2 (withReg (withReg g d (g d + e)) t 0) {} (put (g r) k k')) ∧
    (g t = 1 → ∀ v, holds d v → holds r v → ∃ u, exec (.cmps x size dec d r t) s = .next u ∧ coreOnly s u i ∧
      coreIs c (u.core i) 2 (withReg (withReg (withReg g d (g d + e)) r (g r + e)) t 0)
        { n := some false, z := some true, c := some false, v := some false } c.p c.ac) ∧
    (g t ≠ 0 → ∀ v w, holds d v → holds r w → v ≠ w →
      computes (.cmps x size dec d r t) s i 2 0 0 (Says.diffFlags v w false)) ∧
    (g t ≠ 0 → ∀ v, holds d v → (if ne then v ≠ (if size then g r else ((g r).extractLsb' 0 20).signExtend 40)
        else v = (if size then g r else ((g r).extractLsb' 0 20).signExtend 40)) →
      computes (.scns x size dec ne d r t) s i 2 0 0 { z := some true }) ∧
    (g t = 1 → ∀ v, holds d v → (if ne then v = (if size then g r else ((g r).extractLsb' 0 20).signExtend 40)
        else v ≠ (if size then g r else ((g r).extractLsb' 0 20).signExtend 40)) →
      ∃ u, exec (.scns x size dec ne d r t) s = .next u ∧ coreOnly s u i ∧
        coreIs c (u.core i) 2 (withReg (withReg g d (g d + e)) t 0) { z := some false } c.p c.ac)

namespace Sys2Proof.Says

open Sys2Proof.Machine

/-- Does level l's body hold address a (R175, R176)? -/
def inBody (l : Loop) (a : Long) : Bool := decide (l.beg.toNat ≤ a.toNat) && decide (a.toNat ≤ l.fin.toNat)

/-- A transfer of n grains runs: to address a, with registers g; the loop bits become la0 and la1, and of the core only what c says
differs besides (R171, R172, R176). -/
def jumps (ins : Instr) (s : State) (i : Nat) (a : Long) (c : Core) (g : GReg → Long) (f : FlagEff) (la0 la1 : Bool) : Prop :=
  ∃ t, exec ins s = .next t ∧ coreOnly s t i ∧ coreKept c (t.core i) ∧ (t.core i).pc = a ∧ (∀ r, (t.core i).gr r = g r) ∧
    flagsAre (s.core i).st (t.core i).st f ∧ (t.core i).la0 = la0 ∧ (t.core i).la1 = la1 ∧
    (∀ k, (t.core i).p k = (s.core i).p k) ∧ (∀ k, (t.core i).ac k = (s.core i).ac k) ∧
    (t.core i).l0 = (s.core i).l0 ∧ (t.core i).l1 = (s.core i).l1

/-- The values a side unit delivers, whether limiting sets SV, and the CAUSE of its fault, 0 for none (R162, R163). -/
def lim39 (e : Int) : Long := BitVec.ofInt 40 (limit (2 ^ 39 - 1) e)
def mulOf (f : BitVec 2) (a b : Long) : Long × Bool × Nat :=
  if f = 0 then (BitVec.ofNat 40 (a.toNat * b.toNat), false, 0)
  else if f = 1 then (BitVec.ofInt 40 (a.toInt * b.toInt / 2 ^ 40), false, 0)
  else if f = 2 then (BitVec.ofNat 40 (a.toNat * b.toNat / 2 ^ 40), false, 0)
  else (lim39 ((a.toInt * b.toInt + 2 ^ 38) / 2 ^ 39), decide (2 ^ 39 - 1 < |(a.toInt * b.toInt + 2 ^ 38) / 2 ^ 39|), 0)
def divOf (f : BitVec 2) (a b : Long) : Long × Bool × Nat :=
  if b = 0 then (if f = 0 then (if a.toInt < 0 then 0x8000000001 else 0x7FFFFFFFFF) else if f = 1 then 0xFFFFFFFFFF else a, false, 1)
  else if f = 0 then (if a.toInt = -2 ^ 39 ∧ b.toInt = -1 then (0x7FFFFFFFFF, true, 0) else (BitVec.ofInt 40 (a.toInt.tdiv b.toInt), false, 0))
  else if f = 1 then (BitVec.ofNat 40 (a.toNat / b.toNat), false, 0)
  else if f = 2 then (BitVec.ofInt 40 (a.toInt.tmod b.toInt), false, 0)
  else (BitVec.ofNat 40 (a.toNat % b.toNat), false, 0)

/-- A side-unit instruction of n results: under EXACT they are written at once; else it stays pending (R161). -/
def sideRuns (ins : Instr) (s : State) (i : Nat) (u : SideUnit) (ds : List (GReg × Long)) (sv : Bool) (cause : Nat) : Prop :=
  let c := s.core i
  let quiet := cause = 0 ∨ c.mode.getLsbD mdAFD = true
  (c.mode.getLsbD mdEXACT = true → quiet → ∃ t, exec ins s = .next t ∧ coreOnly s t i ∧
    coreIs c (t.core i) 2 (ds.foldl (fun g w => withReg g w.1 w.2) c.gr)
      { sv := some (sv || c.st.getLsbD stSV), af := some (decide (cause ≠ 0) || c.st.getLsbD stAF) } c.p c.ac) ∧
  (c.mode.getLsbD mdEXACT = false → ∃ t, exec ins s = .next t ∧ coreOnly s t i ∧ (∀ r, (t.core i).gr r = c.gr r) ∧
    flagsAre c.st (t.core i).st {} ∧
    (t.core i).side = 
      [⟨u, c.pc, ds.filter (fun w => w.1 ≠ 0), if c.mode.getLsbD mdAFD then 0 else cause, sv,
        decide (cause ≠ 0) && c.mode.getLsbD mdAFD, false⟩])

end Sys2Proof.Says

/-- On any core ready to execute it: BR and JMPL go to Gs, BRA and CALL to PC plus the signed 18-bit offset, CALLE to
entry register e, RETE to RP, modulo 2^40. JMPL writes PC + 1 and CALL PC + 2 to Gd, the target being read first;
CALLE saves PC + 1 in RP and ST in SST; RETE takes N, Z, C, V from SST. BR, JMPL and BRA end each active loop level
whose body does not hold the target, and any level inside it, without changing its registers; the others end none.
Nothing else of the core changes. -/
def Obligations.JumpResults : Prop :=
  ∀ (s : State) (x : Iss) (d r : GReg) (off : BitVec 18) (e : BitVec 3),
    let i := coreIdx x.core
    let c := s.core i
    let g := c.gr
    let in0 (a : Long) : Bool := c.la0 && Says.inBody c.l0 a
    let in1 (a : Long) : Bool := c.la1 && (!c.la0 || Says.inBody c.l0 a) && Says.inBody c.l1 a
    (Ready s x 1 → Says.jumps (.br x r) s i (g r) c g {} (in0 (g r)) (in1 (g r)) ∧
      Says.jumps (.jmpl x d r) s i (g r) c (withReg g d (c.pc + 1)) {} (in0 (g r)) (in1 (g r)) ∧
      Says.jumps (.calle x e) s i (c.en e.toNat) { c with rp := c.pc + 1, sst := c.st } g {} c.la0 c.la1 ∧
      Says.jumps (.rete x) s i c.rp c g 
        { n := some (c.sst.getLsbD stN), z := some (c.sst.getLsbD stZ), c := some (c.sst.getLsbD stC), v := some (c.sst.getLsbD stV) } c.la0 c.la1) ∧
    (Ready s x 2 → Says.jumps (.bra x off) s i (c.pc + off.signExtend 40) c g {} (in0 (c.pc + off.signExtend 40)) (in1 (c.pc + off.signExtend 40)) ∧
      Says.jumps (.call x d off) s i (c.pc + off.signExtend 40) c (withReg g d (c.pc + 2)) {} c.la0 c.la1)

/-- On any core ready to execute it and for len of at least 1: with count 0 and no level active, REP and REPI go on
at PC + 2 + len and nothing else changes. Otherwise, with no level active, level 0 takes LBEG = PC + 2, LEND = PC + 1
+ len and the count, and with level 0 alone active, level 1 does; LA of that level is set, the other level keeps its
registers, and the first grain of the body follows. With both active and a count other than 0 they take illegal
opcode, cause 4; with len 0 illegal opcode, cause 2. -/
def Obligations.LoopResults : Prop :=
  ∀ (s : State) (x : Iss) (r : GReg) (cnt : BitVec 10) (len : BitVec 18), Ready s x 2 →
    let i := coreIdx x.core
    let c := s.core i
    let runs (ins : Instr) (n : Long) : Prop :=
      let illegal (cause : Nat) : Prop := exec ins s =
        doneP (((s.atFetch x 2).takeException i (.fault { vec := 1, cause := cause, addr := c.pc })).pause i)
      (len = 0 → illegal 2) ∧
      (len ≠ 0 → n = 0 → c.la0 = false → c.la1 = false →
        Says.jumps ins s i (c.pc + 2 + len.setWidth 40) c c.gr {} false false) ∧
      (len ≠ 0 → n ≠ 0 → c.la1 = false → ∃ t, exec ins s = .next t ∧ coreOnly s t i ∧ coreKept c (t.core i) ∧
        (∀ y, (t.core i).gr y = c.gr y) ∧ flagsAre c.st (t.core i).st {} ∧
        let l : Loop := ⟨n, c.pc + 2, c.pc + 1 + len.setWidth 40⟩
        (c.la0 = false → (t.core i).l0 = l ∧ (t.core i).l1 = c.l1 ∧ (t.core i).la0 = true ∧ (t.core i).la1 = false) ∧
        (c.la0 = true → (t.core i).l1 = l ∧ (t.core i).l0 = c.l0 ∧ (t.core i).la0 = true ∧ (t.core i).la1 = true) ∧
        (t.core i).pc = c.pc + 2) ∧
      (len ≠ 0 → n ≠ 0 → c.la0 = true → c.la1 = true → illegal 4)
    runs (.rep x r len) (c.gr r) ∧ runs (.repi x cnt len) (cnt.setWidth 40)

/-- On any core ready to execute it, with SP even and the 8 longs of the frame at SP in memory: RETX takes PC from
long 0; MODE and ST from long 1, of ST only the loop and condition bits, LX, SV and AF staying; the predicates, mask
level and leash from long 2, whose bit 31 says which loop level takes longs 3 to 5; G1 and G2 from longs 6 and 7; and
adds 16 to G31. PC is long 0 unless it stands just past the end of that level, active with a count left. Every other
register, accumulator and all of memory stay. -/
def Obligations.RetxResult : Prop :=
  ∀ (s : State) (x : Iss) (k : Nat), Ready s x 1 →
    let i := coreIdx x.core
    let c := s.core i
    let l (j : Nat) : Long := longOf s (k + 2 * j) (k + 2 * j + 1)
    let one := (l 2).getLsbD 31
    let active := if one then (l 1).getLsbD stLA1 else (l 1).getLsbD stLA0
    (∀ j, j < 8 → longAt s i (addrAdd (c.gr 31).toNat (2 * j)) false (k + 2 * j) (k + 2 * j + 1)) → (c.gr 31).toNat % 2 = 0 →
    (active = false ∨ l 3 = 0 ∨ l 0 ≠ l 5 + 1) →
    ∃ t, exec (.retx x) s = .next t ∧ coreOnly s t i ∧
      (t.core i).pc = l 0 ∧ (t.core i).mode = (l 1).extractLsb' 20 20 &&& 0xF0000 ∧
      flagsAre (c.st &&& 0xF800F) (t.core i).st
        { n := some ((l 1).getLsbD stN), z := some ((l 1).getLsbD stZ), c := some ((l 1).getLsbD stC), v := some ((l 1).getLsbD stV) } ∧
      (t.core i).la0 = (l 1).getLsbD stLA0 ∧ (t.core i).la1 = (l 1).getLsbD stLA1 ∧
      (∀ p, (t.core i).p p = (decide (p = 0) || (l 2).getLsbD p.toNat)) ∧
      (t.core i).mask = (l 2).extractLsb' 32 2 ∧ (t.core i).leash = (l 2).extractLsb' 20 10 ∧
      (if one then (t.core i).l1 else (t.core i).l0) = ⟨l 3, l 4, l 5⟩ ∧
      (if one then (t.core i).l0 else (t.core i).l1) = (if one then c.l0 else c.l1) ∧
      (∀ y, (t.core i).gr y = withReg (withReg (withReg c.gr 1 (l 6)) 2 (l 7)) 31 (c.gr 31 + 16) y) ∧
      (∀ y, (t.core i).ac y = c.ac y) ∧ (t.core i).st.getLsbD stLX = c.st.getLsbD stLX ∧ (t.core i).e = c.e ∧
      (t.core i).sst = c.sst ∧ (t.core i).rp = c.rp ∧ (t.core i).slim = c.slim ∧ (t.core i).faddr = c.faddr ∧
      (t.core i).finfo = c.finfo

/-- On any core ready to execute it: BWAIT marks the work beat completed. With the wake latch set it clears it,
writes the notice's tag with SKIP in bit 39 to Gd, makes the beat of the notice the work beat and goes on to the next
instruction; else the core waits, with LEASH 0, PC on the BWAIT and its registers kept. BWAIT_WAKE of a core that
waits so, with nothing else to take at its boundary, does the same once the latch is set, and changes nothing before.
FENCE only goes on. WHIST requests a whistle with tag Gs[15:0] where WH_CTRL.CORE_EN is set, put with the others
while the beat runs, and else only goes on. Memory stays. -/
def Obligations.WaitInstructionResults : Prop :=
  ∀ (s : State) (x : Iss) (d : GReg),
    let i := coreIdx x.core
    let c := s.core i
    let notice : Long := (if c.skip then 0x8000000000 else 0) ||| c.tag.setWidth 40
    let woke (t : State) : Prop := t.mem = s.mem ∧ (∀ j, j ≠ i → t.core j = s.core j) ∧ (t.core i).run = .running ∧
      (t.core i).wake = false ∧ (t.core i).skip = false ∧ (t.core i).work = c.wakeBeat ∧
      (∀ r, (t.core i).gr r = withReg c.gr d notice r) ∧ flagsAre c.st (t.core i).st {} ∧
      (c.la0 = false → c.la1 = false → (t.core i).pc = c.pc + 1)
    (Ready s x 1 →
      (c.wake = true → ∃ t, exec (.bwait x d) s = .next t ∧ woke t ∧ (t.core i).completed = some c.work) ∧
      (c.wake = false → ∃ t, exec (.bwait x d) s = .next t ∧ t.mem = s.mem ∧ (∀ j, j ≠ i → t.core j = s.core j) ∧
        (t.core i).run = .bwait d ∧ (t.core i).completed = some c.work ∧ (t.core i).leash = 0 ∧ (t.core i).pc = c.pc ∧
        (∀ r, (t.core i).gr r = c.gr r)) ∧
      computes (.fence x) s i 1 0 0 {} ∧
      (∀ r : GReg, (s.bit R.WH_CTRL_CORE_EN = false → computes (.whist x r) s i 1 0 0 {}) ∧
        (s.bit R.WH_CTRL_CORE_EN = true → s.bit R.BEAT_STAT_RUNNING = true → ∃ t, exec (.whist x r) s = .next t ∧
          t.wh.reqs = s.wh.reqs ++ [⟨2, (c.gr r).extractLsb' 0 16, i, none, s.time, none⟩] ∧ t.mem = s.mem ∧
          (∀ y, (t.core i).gr y = c.gr y) ∧ (c.la0 = false → c.la1 = false → (t.core i).pc = c.pc + 1)))) ∧
    (s.active i = true → c.run = .bwait d → s.boundaryEvent i = none → c.side = [] → c.haltReq = false → c.step = false → s.pwr.slot = [] →
      (c.wake = true → ∃ t, exec (.bwaitWake x.core) s = .next t ∧ woke t) ∧
      (c.wake = false → ∃ t, exec (.bwaitWake x.core) s = .next t ∧ coreOnly s t i ∧ t.core i = c))

/-- On any core ready to execute it: MFS writes special register 0 to 25 (PC, ST, MODE, LEASH, SLIM, RP, SST, the
predicates, the loop registers, COREID, the work beat, the eight entry registers, FADDR, FINFO) to Gd, zero-extended,
and changes nothing else; COREID of the steward and the kennel, which the spec does not give, is a free value below
1,024 (log 1). MTS writes Gs to registers 1 to 13 and 16 to 23: of ST the flag bits LX, SV, AF, N, Z, C, V and not
the loop bits, of MODE bits 19 to 16, the predicates with P0 reading 1, and changes no other of them; without an
active loop. MFS of 26 to 31 and MTS of any other register take illegal opcode with cause 3. -/
def Obligations.SpecialRegisterResults : Prop :=
  ∀ (s : State) (x : Iss) (d r : GReg) (sr : BitVec 5), Ready s x 1 →
    let i := coreIdx x.core
    let c := s.core i
    let n := sr.toNat
    let v := c.gr r
    let holds : List Long := [c.pc, c.st.setWidth 40, c.mode.setWidth 40, c.leash.setWidth 40, c.slim, c.rp, c.sst.setWidth 40,
      c.pred.setWidth 40, c.l0.cnt, c.l0.beg, c.l0.fin, c.l1.cnt, c.l1.beg, c.l1.fin, BitVec.ofNat 40 i,
      (c.work.extractLsb' 0 36).setWidth 40, c.en 0, c.en 1, c.en 2, c.en 3, c.en 4, c.en 5, c.en 6, c.en 7, c.faddr, c.finfo]
    let illegal (ins : Instr) : Prop := exec ins s =
      doneP (((s.atFetch x 1).takeException i (.fault { vec := 1, cause := 3, addr := c.pc })).pause i)
    (n < 26 → (n ≠ 14 ∨ i < 1024) → computes (.mfs x d sr) s i 1 d (holds.getD n 0) {}) ∧
    (n = 14 → 1024 ≤ i → ∃ t, exec (.mfs x d sr) s = .next t ∧ t.mem = s.mem ∧
      ∃ w : Long, w.toNat < 1024 ∧ ∀ y, (t.core i).gr y = withReg c.gr d w y) ∧
    (26 ≤ n → illegal (.mfs x d sr)) ∧
    (n = 0 ∨ n = 14 ∨ n = 15 ∨ 24 ≤ n → illegal (.mts x sr r)) ∧
    ((1 ≤ n ∧ n < 14) ∨ (16 ≤ n ∧ n < 24) → c.la0 = false → c.la1 = false → ∃ t, exec (.mts x sr r) s = .next t ∧ coreOnly s t i ∧
      let c' := t.core i
      (∀ y, c'.gr y = c.gr y) ∧ (∀ y, c'.ac y = c.ac y) ∧ c'.pc = c.pc + 1 ∧ c'.la0 = false ∧ c'.la1 = false ∧
      (n = 1 → flagsAre (c.st &&& 0xF800F) c'.st
        { n := some (v.getLsbD stN), z := some (v.getLsbD stZ), c := some (v.getLsbD stC), v := some (v.getLsbD stV), sv := some (v.getLsbD stSV), af := some (v.getLsbD stAF) }) ∧
      (n ≠ 1 → flagsAre c.st c'.st {}) ∧
      c'.mode = (if n = 2 then v.extractLsb' 0 20 &&& 0xF0000 else c.mode) ∧ (n = 3 → c'.leash = v.extractLsb' 0 10) ∧
      c'.slim = (if n = 4 then v else c.slim) ∧ c'.rp = (if n = 5 then v else c.rp) ∧
      c'.sst = (if n = 6 then v.extractLsb' 0 20 else c.sst) ∧
      (∀ p, c'.p p = if n = 7 then decide (p = 0) || v.getLsbD p.toNat else c.p p) ∧
      c'.l0 = ⟨if n = 8 then v else c.l0.cnt, if n = 9 then v else c.l0.beg, if n = 10 then v else c.l0.fin⟩ ∧
      c'.l1 = ⟨if n = 11 then v else c.l1.cnt, if n = 12 then v else c.l1.beg, if n = 13 then v else c.l1.fin⟩ ∧
      (∀ k, k < 8 → c'.en k = if n = 16 + k then v else c.en k) ∧ c'.faddr = c.faddr ∧ c'.finfo = c.finfo ∧ c'.work = c.work)

/-- On any core ready to execute it: MUL writes the low long, the signed or unsigned high long, or the product
rounded to 39 fraction bits and limited; DIV the quotient or remainder, unsigned or signed towards zero, of which
-2^39 / -1 alone is limited; SQRT the root of Gs, or of Gs times 2^39 rounded; RECIP 2^q over Gs, rounded half away
from zero and limited (for q below 79); CORDIC the pair D and D + 1 (D below 31), whose values are free within the
spec's bound of 4 units (log 1) and are here only named. A limited result sets SV. Division by zero and the root of a
negative number deliver R163's values and set AF where AFD suppresses the fault. Under EXACT the result is written at
once; else it stays pending and the registers as they were, and SIDE_UNIT_DELIVER writes the oldest result of its
unit, with SV and AF, and drops it. -/
def Obligations.SideUnitResults : Prop :=
  ∀ (s : State) (x : Iss) (d r t : GReg) (f : BitVec 2),
    let i := coreIdx x.core
    let c := s.core i
    let a := c.gr r
    let b := c.gr t
    (Ready s x 2 →
      Says.sideRuns (.mul x f d r t) s i .mul [(d, (Says.mulOf f a b).1)] (Says.mulOf f a b).2.1 (Says.mulOf f a b).2.2 ∧
      Says.sideRuns (.div x f d r t) s i .div [(d, (Says.divOf f a b).1)] (Says.divOf f a b).2.1 (Says.divOf f a b).2.2 ∧
      (a.toInt < 0 → ∀ q, Says.sideRuns (.sqrt x q d r) s i .sqrt [(d, 0)] false 2) ∧
      (0 ≤ a.toInt → (∀ n : Nat, n * n ≤ a.toNat → a.toNat < (n + 1) * (n + 1) →
          Says.sideRuns (.sqrt x false d r) s i .sqrt [(d, BitVec.ofNat 40 n)] false 0) ∧
        (∀ n : Nat, (2 * n - 1) * (2 * n - 1) ≤ 4 * (a.toNat * 2 ^ 39) → 4 * (a.toNat * 2 ^ 39) < (2 * n + 1) * (2 * n + 1) →
          Says.sideRuns (.sqrt x true d r) s i .sqrt [(d, BitVec.ofNat 40 n)] false 0)) ∧
      (∀ q : BitVec 7, q.toNat < 79 → (a = 0 → Says.sideRuns (.recip x q d r) s i .recip [(d, 0x7FFFFFFFFF)] false 1) ∧
        (a ≠ 0 → ∀ m : Nat, (2 * m - 1) * a.toInt.natAbs ≤ 2 * 2 ^ q.toNat → 2 * 2 ^ q.toNat < (2 * m + 1) * a.toInt.natAbs →
          let e : Int := if a.toInt < 0 then -(m : Int) else m
          Says.sideRuns (.recip x q d r) s i .recip [(d, Says.lim39 e)] (decide (2 ^ 39 - 1 < |e|)) 0)) ∧
      (d ≠ 31 → (∃ (v w : Long) (sv : Bool), Says.sideRuns (.cordicRot x d r) s i .cordic [(d, v), (d + 1, w)] sv 0) ∧
        (∃ (v w : Long) (sv : Bool), Says.sideRuns (.cordicVec x d r t) s i .cordic [(d, v), (d + 1, w)] sv 0 ∧
          (a = 0 → b = 0 → v = 0 ∧ w = 0) ∧ (b = 0 → a.toInt < 0 → w = 0x8000000000)))) ∧
    (∀ (o : SideOp) (rest : List SideOp), c.side = o :: rest → o.failed = false → o.cause = 0 →
      ∃ u, exec (.sideUnitDeliver x.core o.unit) s = .next u ∧ coreOnly s u i ∧ (u.core i).side = rest ∧ (u.core i).pc = c.pc ∧
        (∀ y, (u.core i).gr y = (o.writes.foldl (fun g w => withReg g w.1 w.2) c.gr) y) ∧
        flagsAre c.st (u.core i).st { sv := some (o.sv || c.st.getLsbD stSV), af := some (o.af || c.st.getLsbD stAF) })

namespace Sys2Proof.Says

open Sys2Proof.Machine

/-- The frame of an exception entered at vector vec can be written and its handler fetched (R227, steps 1 to 4): SP even, 16 grains above SLIM,
all in writable memory, and the vector's two grains fetchable. -/
def canEnter (s : State) (i vec k : Nat) : Prop :=
  let sp := (s.core i).gr 31
  (s.core i).slim.toNat + 16 ≤ sp.toNat ∧ sp.toNat % 2 = 0 ∧ s.badVector i vec = none ∧
    ∀ j, j < 16 → s.memKey i (addrAdd (sp - 16).toNat j) = some (k + j) ∧ (s.core i).attr (addrAdd (sp - 16).toNat j) 1 = false

/-- What taking an exception at vector vec with mask level m and cause record does to core i: frame, registers, memory (R228, R229). -/
def entered (s t : State) (i vec m k : Nat) (rec : Option (Long × Long)) : Prop :=
  let c := s.core i
  let c' := t.core i
  let l := if c.la1 then c.l1 else c.l0
  let frame : List Long := [c.pc, BitVec.ofNat 40 (c.mode.toNat * 2 ^ 20 + c.st.toNat),
    BitVec.ofNat 40 (vec * 2 ^ 34 + c.mask.toNat * 2 ^ 32 + c.la1.toNat * 2 ^ 31 + c.leash.toNat * 2 ^ 20 + c.pred.toNat),
    l.cnt, l.beg, l.fin, c.gr 1, c.gr 2]
  c'.pc = BitVec.ofNat 40 (8 * vec) ∧ c'.mask = BitVec.ofNat 2 m ∧ c'.leash = 0 ∧ c'.la0 = false ∧ c'.la1 = false ∧
    c'.run = .running ∧ (∀ y, c'.gr y = withReg c.gr 31 (c.gr 31 - 16) y) ∧ (∀ y, c'.ac y = c.ac y) ∧ c'.mode = c.mode ∧
    flagsAre c.st c'.st {} ∧ c'.st.getLsbD stLX = c.st.getLsbD stLX ∧ c'.pred = c.pred ∧ c'.rp = c.rp ∧ c'.sst = c.sst ∧ c'.e = c.e ∧
    c'.slim = c.slim ∧ (match rec with
      | some (a, f) => c'.faddr = a ∧ c'.finfo = f
      | none => c'.faddr = c.faddr ∧ c'.finfo = c.finfo) ∧
    (∀ j (h : j < frame.length), longOf t (k + 2 * j) (k + 2 * j + 1) = frame[j]) ∧
    (∀ n, n < k ∨ k + 16 ≤ n → t.grain n = s.grain n) ∧ ∀ j, j ≠ i → t.core j = s.core j

end Sys2Proof.Says

/-- Where a core issues instructions and the first event at its boundary is the fault of a side-unit operation with
mask level 0, a beat overrun or an interrupt of priority p, and its frame can be written and its vector fetched,
EXCEPTION_ENTRY pushes the 8 longs of the frame below SP and goes to 8 times the vector (6, 10, or 16 + p) with LEASH
0, no loop active, and the mask level 1, 1, or unchanged. A fault or overrun writes FADDR and FINFO; an interrupt
writes neither, clears the source's pending bit and sets its active bit. Registers but SP, other cores and memory
outside the frame stay. -/
def Obligations.ExceptionEntryResult : Prop :=
  ∀ (s : State) (core : CoreSel) (k : Nat),
    let i := coreIdx core
    let m := (s.core i).mask.toNat
    s.active i = true → (s.core i).haltReq = false → (s.core i).step = false → s.pwr.slot = [] →
    (∀ o : SideOp, (s.core i).side = [o] → o.failed = true → 0 < o.cause → o.cause < 16 → m = 0 → Says.canEnter s i 6 k →
      ∃ t, exec (.exceptionEntry core .boundary) s = .next t ∧ (t.core i).side = [] ∧
        Says.entered s t i 6 1 k (some (o.pc, BitVec.ofNat 40 (6 * 2 ^ 34 + o.cause * 2 ^ 30 + 2 ^ 28)))) ∧
    ((s.core i).side = [] → ∀ e : BitVec 48, s.boundaryEvent i = some (.overrun e) → Says.canEnter s i 10 k →
      ∃ t, exec (.exceptionEntry core .boundary) s = .next t ∧ (t.core i).ovr = none ∧
        Says.entered s t i 10 1 k (some (e.setWidth 40, BitVec.ofNat 40 (10 * 2 ^ 34 + m * 2 ^ 20)))) ∧
    ((s.core i).side = [] → ∀ src p : Nat, s.boundaryEvent i = some (.irq src p) → src < 256 → Says.canEnter s i (16 + p) k →
      ∃ t, exec (.exceptionEntry core .boundary) s = .next t ∧ Says.entered s t i (16 + p) m k none ∧
        (t.cic (coreCic i)).pend.getLsbD src = false ∧ (t.cic (coreCic i)).active.getLsbD src = true)

/-- On any core ready to execute at its PC that may take illegal opcode (mask level below 2) and whose frame can be
written and vector fetched: EXCEPTION_ENTRY for a reserved encoding, short or long, with guard 0 or another, enters
vector 1 with mask level 2, FADDR the PC and FINFO naming vector 1 and cause 1, the PC of the frame being that of the
instruction; a reserved field of an instruction of the table does the same, shown for PSET and CMP with a reserved
condition. Words that R144 and R145 reserve decode to nothing: shown for short opcode 0x3F, long opcode 0xFF, NOP
with D = 1, CMP with condition 0xC. With its guard reading 1, ACCH, ACCL, ACCW or ACLR with RND, W20 or SH not 0
(R153) enters vector 1 with cause 2. -/
def Obligations.ReservedEncodingEntry : Prop :=
  (∀ (s : State) (x : Iss) (p q : BitVec 3) (cond : BitVec 4) (d r t : GReg) (k : Nat),
    let i := coreIdx x.core
    let goes (ins : Instr) (n cause : Nat) : Prop := Ready s x n → Says.canEnter (s.atFetch x n) i 1 k →
      (s.core i).mask.toNat < 2 →
      ∃ u, exec ins s = .next u ∧ Says.entered (s.atFetch x n) u i 1 2 k
        (some ((s.core i).pc, BitVec.ofNat 40 (2 ^ 34 + cause * 2 ^ 30 + (s.core i).mask.toNat * 2 ^ 20)))
    (∀ g h : Grain, x.perr = false → decodeGitik x.core g h = none → goes (.exceptionEntry x.core (.reservedEncoding g h)) (if gitikLong g then 2 else 1) 1) ∧
      (12 ≤ cond.toNat → goes (.cmp x p q cond r t) 2 1) ∧ (14 ≤ cond.toNat → goes (.pset x p q cond) 2 1) ∧
      (∀ a : AccArg, a.ext ≠ 0 → goes (.acch x d a) 2 2 ∧ goes (.accl x d a) 2 2 ∧ goes (.accw x a r t) 2 2 ∧ goes (.aclr x a) 2 2)) ∧
  (∀ (c : CoreSel) (g : BitVec 3) (d t : BitVec 5) (h : Grain),
    decodeGitik c (g ++ 0#1 ++ 0x3F#6 ++ d ++ t) h = none ∧ decodeGitik c (g ++ 1#1 ++ 0xFF#8 ++ d ++ 0#3) h = none ∧
    decodeGitik c (g ++ 0#1 ++ 0#6 ++ 1#5 ++ t) h = none ∧ decodeGitik c (g ++ 1#1 ++ 0x20#8 ++ d ++ 0#3) (0#2 ++ t ++ 0xC#4 ++ 0#9) = none)

/-- LEASH_EXPIRE of a core that issues instructions and whose LEASH is 1 sets LEASH to 0 and ST.LX, and with any
other LEASH changes nothing; ENTRY_SHADOW_END of one whose entry shadow has one retirement left ends the shadow, and
otherwise changes nothing (log 23); ICINV_LINE drops the line of the address from the instruction cache and ICINV_ALL
the whole cache and the branch targets, of a core whose domain is on. HALT_REQ halts each core of the mask that
issues instructions or waits, with reason DEBUG (4) and a report, its registers kept, and leaves a running core
outside the mask (with no DBG_HALT waiting and no whistle of such faults enabled). HALT_REPORT hands a halted core's
report to queue 0xFFBF where it is accepted, and drops it (with no sink of fault reports set). -/
def Obligations.CoreEventResults : Prop :=
  ∀ (s : State) (core : CoreSel),
    let i := coreIdx core
    let c := s.core i
    (s.active i = true → c.leash = 1 → ∃ t, exec (.leashExpire core) s = .next t ∧ coreOnly s t i ∧
      t.core i = { c with leash := 0, st := (t.core i).st } ∧ (∀ b, (t.core i).st.getLsbD b = if b = stLX then true else c.st.getLsbD b)) ∧
    (s.active i = true → c.leash ≠ 1 → ∃ t, exec (.leashExpire core) s = .next t ∧ coreOnly s t i ∧ t.core i = c) ∧
    (s.active i = true → c.shadow = 1 → ∃ t, exec (.entryShadowEnd core) s = .next t ∧ coreOnly s t i ∧ t.core i = { c with shadow := 0 }) ∧
    (s.active i = true → c.shadow ≠ 1 → ∃ t, exec (.entryShadowEnd core) s = .next t ∧ coreOnly s t i ∧ t.core i = c) ∧
    (s.coreOn i = true → ∀ a : Long, ∃ t, exec (.icinvLine core a) s = .next t ∧ coreOnly s t i ∧
      (∀ l, l ∈ (t.core i).ic ↔ l ∈ c.ic ∧ l ≠ a.toNat / 16) ∧ (∀ y, (t.core i).gr y = c.gr y) ∧ (t.core i).pc = c.pc ∧ (t.core i).st = c.st) ∧
    (s.coreOn i = true → ∃ t, exec (.icinvAll core) s = .next t ∧ coreOnly s t i ∧ (t.core i).ic = [] ∧ (t.core i).btb = [] ∧
      (∀ y, (t.core i).gr y = c.gr y) ∧ (t.core i).pc = c.pc ∧ (t.core i).st = c.st) ∧
    (∀ (cl : BitVec 6) (mask : BitVec 16), s.domOn (domCluster cl.toNat) = true → s.wh.haltWait = [] →
      s.rd R.WH_FAULT_EN_R523 / 2 % 2 = 0 → ∃ t, exec (.haltReq cl mask) s = .next t ∧ t.mem = s.mem ∧
      (∀ n, n < 16 → (s.core (16 * cl.toNat + n)).takes = true → mask.getLsbD n = true →
        (t.core (16 * cl.toNat + n)).run = .halted 4 ∧ (t.core (16 * cl.toNat + n)).report ≠ none ∧
        ∀ y, (t.core (16 * cl.toNat + n)).gr y = (s.core (16 * cl.toNat + n)).gr y) ∧
      (∀ n, n < 16 → mask.getLsbD n = false → t.core (16 * cl.toNat + n) = s.core (16 * cl.toNat + n))) ∧
    (∀ l, c.report = some l → s.domOn domQueue = true → Says.accepts s 0xFFBF → s.rd R.FR_SINK_V = 0 → ∃ t, exec (.haltReport core) s = .next t ∧
      (t.queue 0xFFBF).msgs = (s.queue 0xFFBF).msgs ++ [{ longs := l }] ∧ t.core i = { c with report := none })

namespace Sys2Proof.Says

open Sys2Proof.Machine

/-- Nothing but CIC c differs, but for what a settled state senses and offers. -/
def cicOnly (s t : State) (c : Nat) : Prop :=
  t.mem = s.mem ∧ t.hreg = s.hreg ∧ t.cores = s.cores ∧ t.qeng = s.qeng ∧ t.out = s.out ∧ t.pending = s.pending ∧
    ∀ b, b ≠ c → { t.cic b with offers := [] } = { s.cic b with offers := [] }

/-- Bits w of 32 of a source vector: does v, stored to word w, name source src (R262)? -/
def names (w : BitVec 3) (v : Long) (src : Nat) : Bool := decide (src / 32 = w.toNat) && v.getLsbD (src % 32)

end Sys2Proof.Says

/-- For CIC 0 to 64 whose domain is on, a store of v to word w acts on source 32 w + j for each bit j of 31 to 0 set
in v and on no other. PEND_SET is an edge event: a source neither pending nor active becomes pending; one that is
pending, or active, also counts, to at most 255. PEND_CLR clears the pending bit, EN_SET sets and EN_CLR clears the
enable bit. Nothing else of the CIC, of another CIC, of memory or of a core changes. While the domain is not on
nothing changes; a CIC number above 64 is no operand of these rows, and faults. -/
def Obligations.SourceVectorStores : Prop :=
  ∀ (s : State) (c : BitVec 7) (w : BitVec 3) (v : Long),
    let x := s.cic c.toNat
    let bit (old : BitVec 256) (b : Bool) (src : Nat) : Bool := if Says.names w v src = true then b else old.getLsbD src
    (c.toNat ≤ 64 → s.domOn (domCic c.toNat) = true →
      (∃ t, exec (.pendSet c w v) s = .next t ∧ Says.cicOnly s t c.toNat ∧ let y := t.cic c.toNat
        y.en = x.en ∧ y.active = x.active ∧ y.cfg = x.cfg ∧ y.hold = x.hold ∧ y.prios = x.prios ∧
        ∀ src, src < 256 → y.pend.getLsbD src = bit x.pend true src ∧
          (y.count src).toNat = if Says.names w v src = true ∧ (x.pend.getLsbD src || x.active.getLsbD src) = true
            then min ((x.count src).toNat + 1) 255 else (x.count src).toNat) ∧
      (∃ t, exec (.pendClr c w v) s = .next t ∧ Says.cicOnly s t c.toNat ∧ let y := t.cic c.toNat
        { y with pend := x.pend, offers := x.offers } = x ∧ ∀ src, src < 256 → y.pend.getLsbD src = bit x.pend false src) ∧
      (∃ t, exec (.enSet c w v) s = .next t ∧ Says.cicOnly s t c.toNat ∧ let y := t.cic c.toNat
        { y with en := x.en, offers := x.offers } = x ∧ ∀ src, src < 256 → y.en.getLsbD src = bit x.en true src) ∧
      (∃ t, exec (.enClr c w v) s = .next t ∧ Says.cicOnly s t c.toNat ∧ let y := t.cic c.toNat
        { y with en := x.en, offers := x.offers } = x ∧ ∀ src, src < 256 → y.en.getLsbD src = bit x.en false src)) ∧
    (c.toNat ≤ 64 → s.domOn (domCic c.toNat) = false → ∀ ins ∈ [Instr.pendSet c w v, .pendClr c w v, .enSet c w v, .enClr c w v],
      ∃ t, exec ins s = .next t ∧ Says.cicOnly s t 65) ∧
    (64 < c.toNat → ∀ ins ∈ [Instr.pendSet c w v, .pendClr c w v, .enSet c w v, .enClr c w v], exec ins s = .fault .illFormed)

/-- For CIC 0 to 64 whose domain is on: EOI(k) of a source on core k's stack takes its entry out, keeping the others'
order, and clears its active bit; of any other source it only counts a stray, to at most 65,535, and sets STRAY. A
store to SRC_CFG writes TARGETS, GROUP and PRIO alone (of the steward's, target 0 alone). A store to HOLDOFF writes
UNIT and VALUE and, with VALUE 0, ends a running timer at once. HOLDOFF_EXPIRE of a timer that counts 64 ns units
leaves REMAIN 0, of one that counts edges nothing. MASK(k) sets core k's mask level to bits 1:0, and of the cores
nothing else. All else stays. -/
def Obligations.CicRegisterStores : Prop :=
  ∀ (s : State) (c : BitVec 7) (k : BitVec 4) (v : Long), c.toNat ≤ 64 → s.domOn (domCic c.toNat) = true →
    let x := s.cic c.toNat
    (c.toNat < 64 ∨ k = 0 → let src := (v.extractLsb' 0 8).toNat
      (∀ p, (p, src) ∈ x.stack k.toNat → ∃ t, exec (.eoi c k v) s = .next t ∧ Says.cicOnly s t c.toNat ∧ let y := t.cic c.toNat
        y.stack k.toNat = (x.stack k.toNat).filter (fun e => e.2 ≠ src) ∧ (∀ j, j ≠ k.toNat → y.stack j = x.stack j) ∧
        (∀ i, i < 256 → y.active.getLsbD i = if i = src then false else x.active.getLsbD i) ∧ y.pend = x.pend ∧ y.en = x.en ∧ y.stray = x.stray) ∧
      ((∀ p, (p, src) ∉ x.stack k.toNat) → ∃ t, exec (.eoi c k v) s = .next t ∧ Says.cicOnly s t c.toNat ∧
        t.cic c.toNat = { x with stray := true, strayCnt := BitVec.ofNat 16 (min (x.strayCnt.toNat + 1) 65535), offers := (t.cic c.toNat).offers }) ∧
      (∃ t, exec (.maskWrite c k v) s = .next t ∧ t.mem = s.mem ∧ t.hreg = s.hreg ∧
        t.core (cicCore c.toNat k.toNat) = { s.core (cicCore c.toNat k.toNat) with mask := v.extractLsb' 0 2 } ∧
        ∀ j, j ≠ cicCore c.toNat k.toNat → t.core j = s.core j)) ∧
    (∀ src : BitVec 8, ∃ t, exec (.srcCfgWrite c src v) s = .next t ∧ Says.cicOnly s t c.toNat ∧ let y := t.cic c.toNat
      (∀ b, b < 40 → (y.srcCfg src.toNat).getLsbD b =
        if b = 24 ∨ (24 < b ∧ c.toNat < 64) ∨ (20 ≤ b ∧ b < 24) ∨ (16 ≤ b ∧ b < 19) then v.getLsbD b else (x.srcCfg src.toNat).getLsbD b) ∧
      (∀ i, i ≠ src.toNat → y.srcCfg i = x.srcCfg i) ∧ y.pend = x.pend ∧ y.en = x.en ∧ y.active = x.active ∧ y.prios = x.prios) ∧
    (∀ g : BitVec 4, ∃ t, exec (.holdoffWrite c g v) s = .next t ∧ Says.cicOnly s t c.toNat ∧ let y := t.cic c.toNat
      y.holdOff g.toNat = { x.holdOff g.toNat with
        unit := v.getLsbD 39, value := v.extractLsb' 0 16, remain := if v.extractLsb' 0 16 = 0 then 0 else (x.holdOff g.toNat).remain,
        start := if v.extractLsb' 0 16 = 0 then 0 else (x.holdOff g.toNat).start } ∧
      (∀ i, i ≠ g.toNat → y.holdOff i = x.holdOff i) ∧ y.pend = x.pend ∧ y.en = x.en ∧ y.active = x.active) ∧
    (∀ g : BitVec 4, (x.holdOff g.toNat).runUnit = false → ∃ t, exec (.holdoffExpire c g) s = .next t ∧ Says.cicOnly s t c.toNat ∧ let y := t.cic c.toNat
      y.holdOff g.toNat = { x.holdOff g.toNat with remain := 0, start := 0 } ∧ (∀ i, i ≠ g.toNat → y.holdOff i = x.holdOff i) ∧ y.pend = x.pend ∧ y.en = x.en) ∧
    (∀ g : BitVec 4, (x.holdOff g.toNat).runUnit = true → ∃ t, exec (.holdoffExpire c g) s = .next t ∧ Says.cicOnly s t 65)

/-- RAISE_DEV with bit 0 set, of a cluster whose domain is on, records an edge of device source 64 + c to be
forwarded. DEVICE_SOURCE_EDGE forwards an edge seen: with CIC_EN and DEST 0 to 64, as an edge event of source 128 +
CSRC of CIC DEST while that domain is on, and else it is kept in PARKED; with HOST_EN and MSI-X enabled, as the
message of vector VEC where neither mask is set, and else in its pending bit. MSIX_UNMASK stores the mask bit or the
two enables; unmasking the one pending vector sends its message and clears its pending bit. WATCHER_WAKE with one
capture writes WAKE_SRC and the counter's value, takes the capture, and, where the domain captured is not on and its
suppliers are, starts its transition, LAST_SRC reading 2 (of a cluster, while the beat is stopped). Reading
WAKE_TS_LO gives bits 31:0 and latches bits 47:32 in WAKE_TS_HI. -/
def Obligations.DeviceSourceResults : Prop :=
  ∀ (s : State),
    (∀ (c : BitVec 7) (v : Long), c.toNat < 64 → s.domOn (domCluster c.toNat) = true → v.getLsbD 0 = true → ∃ t, exec (.raiseDev c v) s = .next t ∧
      t.dev.edge.getLsbD (64 + c.toNat) = true ∧ (64 + c.toNat, s.time) ∈ t.dev.fwd ∧ Says.cicOnly s t 65) ∧
    (∀ (d : BitVec 7) (at' : Int), (d.toNat, at') ∈ s.dev.fwd →
      let n := d.toNat
      let dest := s.rd (R.DEV_ROUTE_DEST n)
      let vec := s.rd (R.DEV_ROUTE_VEC n)
      let cicEn := s.bit (R.DEV_ROUTE_CIC_EN n)
      let pba := if vec < 32 then R.MSIX_PBA_LO else R.MSIX_PBA_HI
      ∃ t, exec (.deviceSourceEdge d) s = .next t ∧ t.mem = s.mem ∧ t.cores = s.cores ∧
        (cicEn = true → dest ≤ 64 → s.domOn (domCic dest) = true → (t.cic dest).pend.getLsbD (128 + s.rd (R.DEV_ROUTE_CSRC n)) = true) ∧
        (cicEn = true → dest ≤ 64 → s.domOn (domCic dest) = false → t.bit (R.DEV_ROUTE_PARKED n) = true) ∧
        (s.bit (R.DEV_ROUTE_HOST_EN n) = false ∨ s.dev.msixEn = false → t.out = s.out) ∧
        (s.bit (R.DEV_ROUTE_HOST_EN n) = true → s.dev.msixEn = true →
          (s.dev.msixFmask = true ∨ s.bit (R.MSIX_VCTRL_MASK vec) = true → t.out = s.out ∧ (t.word pba).getLsbD (vec % 32) = true) ∧
          (s.dev.msixFmask = false → s.bit (R.MSIX_VCTRL_MASK vec) = false → (s.word pba).getLsbD (vec % 32) = false →
            t.out = s.out ++ [.msix (s.word (R.MSIX_ADDR_HI vec)) (s.word (R.MSIX_ADDR_LO vec)) (s.word (R.MSIX_DATA vec))]))) ∧
    (∀ (v : BitVec 6) (w : BitVec 32), ∃ t, exec (.msixUnmask (.vctrl v w)) s = .next t ∧ t.mem = s.mem ∧ t.cores = s.cores ∧
      t.bit (R.MSIX_VCTRL_MASK v.toNat) = w.getLsbD 0 ∧ t.dev.msixEn = s.dev.msixEn ∧
      (w.getLsbD 0 = false → s.dev.msixEn = true → s.dev.msixFmask = false →
        (∀ u, u < 64 → u ≠ v.toNat → (s.word (if u < 32 then R.MSIX_PBA_LO else R.MSIX_PBA_HI)).getLsbD (u % 32) = false) →
        (s.word (if v.toNat < 32 then R.MSIX_PBA_LO else R.MSIX_PBA_HI)).getLsbD (v.toNat % 32) = true →
        t.out = s.out ++ [.msix (s.word (R.MSIX_ADDR_HI v.toNat)) (s.word (R.MSIX_ADDR_LO v.toNat)) (s.word (R.MSIX_DATA v.toNat))] ∧
        (t.word (if v.toNat < 32 then R.MSIX_PBA_LO else R.MSIX_PBA_HI)).getLsbD (v.toNat % 32) = false)) ∧
    (∀ e f : Bool, ∃ t, exec (.msixUnmask (.msgCtl e f)) s = .next t ∧ t.dev.msixEn = e ∧ t.dev.msixFmask = f ∧ t.mem = s.mem ∧
      t.cores = s.cores ∧ (e = false ∨ f = true → t.out = s.out ∧ t.hreg = s.hreg)) ∧
    (∀ x : Capture, s.dev.captures = [x] → s.pwr.slot = [] → isDomain x.dom = true →
      (∀ y ∈ suppliers x.dom, s.domOn y = true ∧ ∀ z ∈ suppliers y, s.domOn z = true) →
      s.domOn x.dom = true ∨ (s.rd (R.PD_STAT_STATE x.dom) ≠ 2 ∧ s.bit (R.PD_STAT_BUSY x.dom) = false ∧
        (s.bit R.BEAT_STAT_RUNNING = false ∨ x.dom < 64)) →
      ∃ t, exec .watcherWake s = .next t ∧ t.dev.captures = [] ∧ t.dev.wakeTs = s.aonNow ∧ t.bit R.WAKE_SRC_VALID = true ∧
        t.rd R.WAKE_SRC_SLOT = x.slot % 64 ∧ t.rd R.WAKE_SRC_SRC = x.src % 128 ∧ t.rd R.WAKE_SRC_DOMAIN = x.dom ∧
        (s.domOn x.dom = false → t.bit (R.PD_STAT_BUSY x.dom) = true ∧ t.rd (R.PD_STAT_LAST_SRC x.dom) = 2)) ∧
    (∃ t, exec .wakeTsLoRead s = .next t ∧ t.word R.WAKE_TS_HI = BitVec.ofNat 32 (s.dev.wakeTs.toNat / 2 ^ 32) ∧ t.mem = s.mem ∧ t.cores = s.cores ∧
      t.out = s.out ++ [.readData R.WAKE_TS_LO (s.dev.wakeTs.toNat % 2 ^ 32)])

/-- While domain QUEUE is on: QCFG_WRITE sets EN, PRIV, LIMIT and LEVEL of the queue from bits 39, 38, 35:18 and 17:0
and keeps its messages, whatever LIMIT. QUEUE_RESET takes every message out, keeps EN, LIMIT, LEVEL, DROPS and
OVERRUN, and starts the sweep of a BROKEN queue, during which the engine refuses enqueues to it and no other queue
changes; QUEUE_SWEEP_DONE frees the swept cells and clears BROKEN, while cells with an uncorrectable tag stay
allocated and are counted in ENG_UNC, which counts every tag the sweep of all cells finds uncorrectable. QUEUE_CLR
clears DROPS and OVERRUN. No CIC gets a level interrupt, and memory and cores stay. -/
def Obligations.QueueRegisterResults : Prop :=
  ∀ (s : State) (q : BitVec 16) (v : Long), s.domOn domQueue = true →
    let n := q.toNat
    let x := s.queue n
    let only (t : State) : Prop := t.mem = s.mem ∧ t.cores = s.cores ∧ t.hreg = s.hreg ∧ t.out = s.out ∧
      (∀ p, p ≠ n → t.queue p = s.queue p) ∧ ∀ c, (t.cic c).pend = (s.cic c).pend
    (∃ t, exec (.qcfgWrite q v) s = .next t ∧ only t ∧
      t.queue n = { x with en := v.getLsbD 39, priv := v.getLsbD 38, limit := v.extractLsb' 18 18, level := v.extractLsb' 0 18 }) ∧
    (∃ t, exec (.queueReset q) s = .next t ∧ only t ∧ t.queue n = { x with msgs := [], sweeping := x.broken || x.sweeping } ∧
      (x.broken = true → ¬ Says.accepts t n)) ∧
    (∃ t, exec (.queueClr q) s = .next t ∧ only t ∧ t.queue n = { x with drops := 0, overrun := false }) ∧
    (x.sweeping = true → ∃ t, exec (.queueSweepDone q) s = .next t ∧ only t ∧
      t.queue n = { x with leaked := 0, leakedCorr := 0, broken := false, sweeping := false } ∧
      t.qeng.unc = min (s.qeng.unc + (s.qeng.qs.map (fun e => e.2.tagErrs.2)).sum) (2 ^ 32 - 1))

namespace Sys2Proof.Says

open Sys2Proof.Machine

/-- Nothing is sensed or offered but what follows from registers: the devices keep their routing state, every CIC its own. -/
def sensed (s t : State) : Prop :=
  t.dev = { s.dev with level := t.dev.level, edge := t.dev.edge, fwd := t.dev.fwd, captures := t.dev.captures } ∧
    ∀ c, { t.cic c with offers := [] } = { s.cic c with offers := [] }

/-- Of the BAR0 words only those of l differ. -/
def words (s t : State) (l : List Nat) : Prop := ∀ off, off ∉ l → t.word off = s.word off

/-- Only the BAR0 words of l differ, but for what a settled state senses and offers. -/
def regsOnly (s t : State) (l : List Nat) : Prop :=
  t = { s with hreg := t.hreg, dev := t.dev, cics := t.cics } ∧ sensed s t ∧ words s t l

/-- Only the BAR0 words of l and the beat's own state differ, but for what a settled state senses and offers. -/
def beatOnly (s t : State) (l : List Nat) : Prop :=
  t = { s with hreg := t.hreg, beat := t.beat, dev := t.dev, cics := t.cics } ∧ sensed s t ∧ words s t l

/-- No fabric link is in SYNC or UP: the node has no one to send its record to (R349). -/
def noLink (s : State) : Prop := fabPorts.any s.fpLive = false

/-- Edge k of the grid after the last edge is the first at instant x or later (R33, R34). -/
def firstOnGrid (s : State) (x : Int) (k : Nat) : Prop :=
  1 ≤ k ∧ x ≤ s.beat.lastEdge + k * s.periodU ∧ (k = 1 ∨ s.beat.lastEdge + (k - 1 : Int) * s.periodU < x)

/-- What an update of offset off makes of the servo, with SLEW_MAX 0 and LOCK below 3 (R37, R38). -/
def steered (s t : State) (off : Int) : Prop :=
  let lock := s.rd R.BEAT_STAT_LOCK
  let lim := 2 ^ min (s.rd R.DISC_CTRL_STEP_EXP) 30 * nsU
  (lim ≤ (off.natAbs : Int) → t.beat.pendStep = some (-off, 1) ∧ t.beat.consec = 0 ∧ t.rd R.BEAT_STAT_LOCK = if lock = 2 then 1 else lock) ∧
  ((off.natAbs : Int) < lim → t.beat.pendStep = s.beat.pendStep ∧
    t.beat.consec = (if (off.natAbs : Int) < 2 ^ s.rd R.DISC_CTRL_LOCK_EXP * nsU then s.beat.consec + 1 else 0) ∧
    t.rd R.BEAT_STAT_LOCK = if lock = 1 ∧ max 1 (s.rd R.DISC_CTRL_LOCK_N) ≤ t.beat.consec then 2 else lock)

end Sys2Proof.Says

/-- With no fabric link and SRC_SEL 0 and unchanged by the write: RUN = 1 of a stopped ALONE or MASTER starts the
beat. The first start since reset numbers its first edge from BEAT_START, 20 us after the write, or with ALIGN_SEC
and TAI_VALID at the next whole TAI second at least 20 us after it. A later start takes the first edge of the old
grid at least 20 us after the write; a MEMBER the first pack edge. RUN = 1 in the stop sequence is ignored. RUN = 0
of a running beat sets STOPPING and begins the sequence; of a stopped beat it only clears RUN. Only BEAT_CTRL,
BEAT_STAT and the beat change. A write whose RUN bit is the other way round is no operand of the row. The beat counts
as running from the write (log 4). -/
def Obligations.BeatStartStopResults : Prop :=
  ∀ (s : State) (v : Reg32), Says.noLink s → s.rd R.BEAT_CTRL_SRC_SEL = 0 → v.extractLsb' 24 4 = 0 → s.domOn domSteward = true →
    let ws := [R.BEAT_CTRL, R.BEAT_STAT]
    let x := s.time + 20000 * nsU
    (v.getLsbD 31 = true →
      (s.role = roleAlone ∨ s.role = roleMaster → s.beat.phase = .stopped →
        ∃ t, exec (.beatRunStart v) s = .next t ∧ Says.beatOnly s t ws ∧ t.bit R.BEAT_CTRL_RUN = true ∧ t.bit R.BEAT_STAT_RUNNING = true ∧
          t.beat.num = s.beat.num ∧
          (s.beat.everStarted = false → let n := BitVec.ofNat 48 (s.rdW R.BEAT_START_HI * 2 ^ 32 + s.rdW R.BEAT_START_LO)
            (v.getLsbD 30 = false ∨ s.bit R.BEAT_STAT_TAI_VALID = false → t.beat.first = some (n, x)) ∧
            (v.getLsbD 30 = true → s.bit R.BEAT_STAT_TAI_VALID = true →
              ∃ y, t.beat.first = some (n, y) ∧ x ≤ y ∧ y < x + secU ∧ s.taiAt y % secU = 0)) ∧
          (s.beat.everStarted = true → 0 < s.periodU → ∃ k, Says.firstOnGrid s x k ∧
            t.beat.first = some (s.beat.num + BitVec.ofNat 48 k, s.beat.lastEdge + k * s.periodU))) ∧
      (s.role = roleMember → s.beat.phase = .stopped → 0 < s.periodU →
        ∃ t k, exec (.beatRunStart v) s = .next t ∧ Says.beatOnly s t ws ∧ Says.firstOnGrid s s.time k ∧
          t.beat.first = some (s.beat.num + BitVec.ofNat 48 k, s.beat.lastEdge + k * s.periodU) ∧ t.bit R.BEAT_STAT_RUNNING = true) ∧
      (s.beat.phase = .stopRamp ∨ s.beat.phase = .stopLast → ∃ t, exec (.beatRunStart v) s = .next t ∧ Says.beatOnly s t ws ∧
        t.beat = s.beat ∧ t.bit R.BEAT_CTRL_RUN = s.bit R.BEAT_CTRL_RUN ∧ t.word R.BEAT_STAT = s.word R.BEAT_STAT) ∧
      exec (.beatRunStop v) s = .fault .illFormed) ∧
    (v.getLsbD 31 = false →
      (s.beat.phase = .running → ∃ t, exec (.beatRunStop v) s = .next t ∧ Says.beatOnly s t ws ∧ t.bit R.BEAT_CTRL_RUN = false ∧
        t.bit R.BEAT_STAT_STOPPING = true ∧ t.bit R.BEAT_STAT_RUNNING = s.bit R.BEAT_STAT_RUNNING ∧ t.beat = { s.beat with phase := .stopRamp }) ∧
      (s.beat.phase = .stopped → ∃ t, exec (.beatRunStop v) s = .next t ∧ Says.beatOnly s t ws ∧ t.bit R.BEAT_CTRL_RUN = false ∧
        t.word R.BEAT_STAT = s.word R.BEAT_STAT ∧ t.beat = { s.beat with startWait := false }) ∧
      exec (.beatRunStart v) s = .fault .illFormed)

/-- With no fabric link, on a node that leads and is not in HOLDOVER: selecting source 1 to 4 while not RUNNING
starts the servo in ACQUIRING with RATE_ADJ kept; 0 turns it off: FREE, RATE_ADJ 0. A pulse of at least 100 ns on the
edge selected, with SRC_SEL 1, SLEW_MAX 0, no TAI and no PPS_SECOND waiting, has a timestamp at one of the two 0.1 ns
steps about its instant, less DELAY. Its distance from the nearest whole second of pack time is the offset: from
2^STEP_EXP ns on, a step by its opposite falls due and LOCKED becomes ACQUIRING; below, it counts toward LOCKED where
below 2^LOCK_EXP ns, LOCK_N in a row locking. A narrower pulse or the other edge does nothing. A timeout of a working
servo enters HOLDOVER, RATE_ADJ kept. A SLEEP_WAKE record that the journal accepts, or that counts as unconfigured,
frees the servo. Which 0.1 ns step, and the steps' limit of 2^30 ns, are the model's (log 1, log 8). -/
def Obligations.ServoResults : Prop :=
  ∀ s : State, Says.noLink s → s.domOn domSteward = true →
    let lock := s.rd R.BEAT_STAT_LOCK
    let ws := [R.BEAT_CTRL, R.BEAT_STAT, R.BEAT_INT_STAT, R.RATE_ADJ, R.DISC_STAT, R.IRIG_STAT]
    (s.role = roleAlone ∨ s.role = roleMaster → lock < 3 →
      (∀ sel : BitVec 4, 0 < sel.toNat → sel.toNat < 5 → s.bit R.BEAT_STAT_RUNNING = false → ∃ t, exec (.srcSelWrite sel) s = .next t ∧
        Says.beatOnly s t ws ∧ t.rd R.BEAT_CTRL_SRC_SEL = sel.toNat ∧ t.rd R.BEAT_STAT_SRC_ACT = sel.toNat ∧ t.rd R.BEAT_STAT_LOCK = 1 ∧
        t.word R.RATE_ADJ = s.word R.RATE_ADJ ∧ t.bit R.BEAT_INT_STAT_LOCK_CHG = (s.bit R.BEAT_INT_STAT_LOCK_CHG || lock != 1)) ∧
      (s.bit R.BEAT_STAT_RUNNING = false → ∃ t, exec (.srcSelWrite 0) s = .next t ∧ Says.beatOnly s t ws ∧ t.rd R.BEAT_CTRL_SRC_SEL = 0 ∧
        t.rd R.BEAT_STAT_LOCK = 0 ∧ t.word R.RATE_ADJ = 0) ∧
      (∀ width : BitVec 16, 100 ≤ width.toNat → s.rd R.BEAT_CTRL_SRC_SEL = 1 → s.bit R.BEAT_STAT_DISC_PEND = false →
        s.rd R.DISC_CTRL_SLEW_MAX = 0 → s.bit R.BEAT_STAT_TAI_VALID = false → s.beat.ppsSec = none → s.bit R.PPS_CTRL_EN = true →
        ∃ t x, exec (.ppsPulse (s.bit R.PPS_CTRL_EDGE) width) s = .next t ∧
          (x = s.time * 10 / nsU ∨ x = s.time * 10 / nsU + 1) ∧ t.word R.RATE_ADJ = s.word R.RATE_ADJ ∧ t.mem = s.mem ∧ t.cores = s.cores ∧
          let y := s.packAt (x * (nsU / 10) - s.rd R.PPS_CTRL_DELAY * (nsU / 8))
          Says.steered s t (centered y secU)) ∧
      (s.rd R.BEAT_CTRL_SRC_SEL ≠ 0 → s.bit R.BEAT_STAT_DISC_PEND = false → lock = 1 ∨ lock = 2 → s.rd R.WH_FAULT_EN_R523 / 8 % 2 = 0 →
        ∃ t, exec (.referenceTimeout false) s = .next t ∧ Says.beatOnly s t ws ∧ t.rd R.BEAT_STAT_LOCK = 3 ∧ t.word R.RATE_ADJ = s.word R.RATE_ADJ ∧
          t.bit R.BEAT_INT_STAT_LOCK_CHG = true ∧ t.bit R.BEAT_INT_STAT_HOLDOVER = true)) ∧
    (∀ (falling : Bool) (width : BitVec 16), width.toNat < 100 ∨ falling ≠ s.bit R.PPS_CTRL_EDGE → s.beat.ppsSec = none →
      ∃ t, exec (.ppsPulse falling width) s = .next t ∧ Says.regsOnly s t []) ∧
    (∀ sel : BitVec 4, 4 < sel.toNat → ∃ t, exec (.srcSelWrite sel) s = .next t ∧ Says.regsOnly s t []) ∧
    (∀ d, s.beat.wakeRec = some d → s.discUnconfigured (discRec d) = true ∨ s.acceptsDisc (discRec d) = true →
      ∃ t, exec .servoResume s = .next t ∧ t.beat.wakeRec = none ∧ t.bit R.BEAT_STAT_DISC_PEND = false ∧
        t.bit R.BEAT_INT_STAT_DISC = true ∧ t.mem = s.mem ∧ t.cores = s.cores) ∧
    (∀ d, s.beat.wakeRec = some d → s.discUnconfigured (discRec d) = false → s.acceptsDisc (discRec d) = false →
      ∃ t, exec .servoResume s = .next t ∧ Says.regsOnly s t [])

/-- With no fabric link, domain STEWARD on and LOCK not HOLDOVER: an IRIG frame in mode 1 with a missing marker, a
bad digit or an SBS mismatch is counted in IRIG_STAT.BAD, to its maximum, and breaks the run. A good one is kept;
with SRC_SEL 2, one of a known year one second after the last good one sets VALID and TAI_VALID: where TAI was not
valid the epoch's TAI is set to the frame's second, else the distance from it is the servo's offset. A PTP
announcement of the configured domain leaves the master's identity and steps and loads TAI_UTC from a valid offset; a
path delay is kept; with SRC_SEL 3 a Sync, stamped at one of the two 0.25 ns steps about its arrival, less the path
delay, leaves its offset, steers by it, or sets TAI first; with another SRC_SEL a Sync does nothing, nor any message
of another domain. A message the clock may send leaves with TAI at a 0.25 ns step. A first BEAT_IN pulse only opens
the interval (the model's choice, log 32); a later one, at most 200 ppm from DIV x P after the last, steers by its
distance from the nearest edge whose number is a multiple of DIV; one farther off leaves ACQUIRING. At the wrap the
TAI epoch advances by 2^56 ns, edges and numbers stay, and a record is emitted. A calibration window that ends while
running stores the tick and sets VALID; else, or in HOLDOVER, nothing. Steering is R37's and R38's step, count and
lock (SLEW_MAX 0). Which step, and the record of a step's cause 1, are the model's (log 1, log 32). -/
def Obligations.ReferenceResults : Prop :=
  ∀ s : State, Says.noLink s → s.domOn domSteward = true →
    let leads := s.role = roleAlone ∨ s.role = roleMaster
    let servo := leads ∧ s.bit R.BEAT_STAT_DISC_PEND = false ∧ s.rd R.DISC_CTRL_SLEW_MAX = 0
    (s.rd R.BEAT_STAT_LOCK < 3 →
    (∀ f : IrigFrame, s.rd R.IRIG_CTRL_MODE = 1 →
      let tod := (f.hour.toNat * 60 + f.minute.toNat) * 60 + f.sec.toNat
      let bad := f.refOk = false ∨ f.bcdOk = false ∨ s.bit R.IRIG_CTRL_SBS_CHECK = true ∧ ∃ x, f.sbs = some x ∧ x.toNat ≠ tod
      let n := (s.irigSec f).getD (f.doy.toNat * 86400 + tod)
      (bad → ∃ t, exec (.irigFrame f) s = .next t ∧ Says.beatOnly s t [R.IRIG_STAT] ∧ t.beat = { s.beat with irigLast := none } ∧
        t.rd R.IRIG_STAT_BAD = min (s.rd R.IRIG_STAT_BAD + 1) (2 ^ R.IRIG_STAT_BAD.w - 1) ∧ t.bit R.IRIG_STAT_VALID = s.bit R.IRIG_STAT_VALID) ∧
      (¬ bad → s.rd R.BEAT_CTRL_SRC_SEL ≠ 2 ∨ (∀ l, s.beat.irigLast = some l → l + 1 ≠ n) → ∃ t, exec (.irigFrame f) s = .next t ∧
        Says.beatOnly s t [] ∧ t.beat = { s.beat with irigLast := some n }) ∧
      (¬ bad → s.rd R.BEAT_CTRL_SRC_SEL = 2 → s.irigSec f = some n → (∃ l, s.beat.irigLast = some l ∧ l + 1 = n) →
        ∃ t, exec (.irigFrame f) s = .next t ∧ t.bit R.IRIG_STAT_VALID = true ∧ t.bit R.BEAT_STAT_TAI_VALID = true ∧
          t.rd R.IRIG_STAT_BAD = s.rd R.IRIG_STAT_BAD ∧ t.beat.irigLast = some n ∧ t.mem = s.mem ∧ t.cores = s.cores ∧
          (let e : Int := (n : Int) * 1000000000 - s.packRel s.time / nsU;
            s.bit R.BEAT_STAT_TAI_VALID = false → 0 ≤ e → e < 2 ^ 48 * 1000000000 → t.epochTai = e) ∧
          (s.bit R.BEAT_STAT_TAI_VALID = true → t.epochTai = s.epochTai ∧
            (servo → Says.steered s t (s.taiAt s.time - (n : Int) * secU))))) ∧
    (∀ (gm : BitVec 64) (n : BitVec 16) (u : Option (BitVec 16)), ∃ t, exec (.ptpMessage s.host.ptp.domain (.announce gm n u)) s = .next t ∧
      t.host = { s.host with ptpGm := gm, ptpSteps := n.toNat, ptpUtc := u } ∧ t.beat = s.beat ∧ Says.words s t [R.TAI_UTC] ∧
      t.word R.TAI_UTC = (match u with
        | some x => x.setWidth 32
        | none => s.word R.TAI_UTC)) ∧
    (∀ (ns : Reg32) (q : BitVec 2), ∃ t, exec (.ptpMessage s.host.ptp.domain (.pathDelay ns q)) s = .next t ∧
      t.host = { s.host with ptpDelay := 4 * ns.toNat + q.toNat } ∧ t.beat = s.beat ∧ t.hreg = s.hreg) ∧
    (∀ (sec : BitVec 48) (ns : Reg32) (q : BitVec 2),
      (s.rd R.BEAT_CTRL_SRC_SEL ≠ 3 → ∃ t, exec (.ptpMessage s.host.ptp.domain (.sync sec ns q)) s = .next t ∧ Says.regsOnly s t []) ∧
      (s.rd R.BEAT_CTRL_SRC_SEL = 3 → ∃ t x, exec (.ptpMessage s.host.ptp.domain (.sync sec ns q)) s = .next t ∧
        (x = s.time * 4 / nsU ∨ x = s.time * 4 / nsU + 1) ∧ t.bit R.BEAT_STAT_TAI_VALID = true ∧ t.mem = s.mem ∧ t.cores = s.cores ∧
        let master : Int := 4 * (sec.toNat * 1000000000 + ns.toNat) + q.toNat + s.host.ptpDelay
        let off := s.taiAt (x * (nsU / 4)) - master * (nsU / 4)
        (s.bit R.BEAT_STAT_TAI_VALID = true → 2 * ((t.host.ptpOffset * nsU - off).natAbs : Int) ≤ nsU ∧ t.epochTai = s.epochTai ∧ (servo → Says.steered s t off)) ∧
        (let e := (master * (nsU / 4) - s.packRel (x * (nsU / 4))) / nsU;
          s.bit R.BEAT_STAT_TAI_VALID = false → 0 ≤ e → e < 2 ^ 48 * 1000000000 → t.epochTai = e))) ∧
    (s.rd R.BEAT_CTRL_SRC_SEL = 4 → s.beat.ran = true → 0 < s.rdF R.BEATIN_CTRL_DIV →
      (s.beat.beatInLast = none → ∃ t, exec .beatInPulse s = .next t ∧ Says.beatOnly s t [] ∧ t.beat = { s.beat with beatInLast := some s.time }) ∧
      (∀ l, s.beat.beatInLast = some l → 0 < s.periodU → servo →
        let w := (s.rdF R.BEATIN_CTRL_DIV : Int) * s.periodU
        (w < 5000 * ((s.time - l - w).natAbs : Int) → ∃ t, exec .beatInPulse s = .next t ∧ Says.beatOnly s t [R.BEAT_STAT, R.BEAT_INT_STAT] ∧
          t.rd R.BEAT_STAT_LOCK = 1 ∧ t.beat = { s.beat with beatInLast := some s.time, consec := 0 }) ∧
        (5000 * ((s.time - l - w).natAbs : Int) ≤ w → ∃ (t : State) (k : Int), exec .beatInPulse s = .next t ∧ ((s.beat.num.toNat : Int) + k) % s.rdF R.BEATIN_CTRL_DIV = 0 ∧
          2 * ((s.time - (s.beat.lastEdge + k * s.periodU)).natAbs : Int) ≤ w ∧ t.beat.beatInLast = some s.time ∧ t.mem = s.mem ∧ t.cores = s.cores ∧
          Says.steered s t (s.time - (s.beat.lastEdge + k * s.periodU)))))) ∧
    (∀ (d : Octet) (m : PtpIn), d ≠ s.host.ptp.domain → ∃ t, exec (.ptpMessage d m) s = .next t ∧ Says.regsOnly s t []) ∧
    (∀ m : PtpOut, s.bit R.SVC_STAT_LINK = true →
      (if m = .delayReq then s.rd R.BEAT_CTRL_SRC_SEL = 3
        else s.rd R.BEAT_CTRL_SRC_SEL ≠ 3 ∧ leads ∧ s.rd R.BEAT_STAT_LOCK = 2 ∧ s.host.ptp.flags.getLsbD 1 = true) →
      ∃ t x, exec (.ptpMessageTransmit m) s = .next t ∧ t.out = s.out ++ [.ptp m (x * (nsU / 4))] ∧
        (x = s.taiAt s.time * 4 / nsU ∨ x = s.taiAt s.time * 4 / nsU + 1) ∧ t.hreg = s.hreg ∧ t.mem = s.mem ∧ t.beat = s.beat) ∧
    (s.epochTai + 2 ^ 56 < 2 ^ 48 * 1000000000 → ∃ t, exec .epochAdvance s = .next t ∧ t.epochTai = s.epochTai + 2 ^ 56 ∧ t.beat.num = s.beat.num ∧
      t.beat.lastEdge = s.beat.lastEdge ∧ t.beat.off = s.beat.off ∧ t.bit R.BEAT_INT_STAT_DISC = true ∧ t.mem = s.mem ∧ t.cores = s.cores) ∧
    (∀ tick : BitVec 31, ∃ t, exec (.aonCalibration tick) s = .next t ∧ Says.regsOnly s t [R.AON_CAL] ∧
      (s.bit R.BEAT_STAT_RUNNING = true → s.rd R.BEAT_STAT_LOCK ≠ 3 → t.rd R.AON_CAL_TICK = tick.toNat ∧ t.bit R.AON_CAL_VALID = true) ∧
      (s.bit R.BEAT_STAT_RUNNING = false ∨ s.rd R.BEAT_STAT_LOCK = 3 → t.word R.AON_CAL = s.word R.AON_CAL))

/-- EDGE of a node ALONE, its beat running and no step of pack time due, makes the next edge of the grid the last
one: its number, its instant; a stopped beat has none. A capture with EDGE 0 latches pack time and beat number in the
capture registers and sets DONE; one with EDGE 1 clears DONE and waits. Reading BEAT_NUM_LO answers bits 31:0 and
latches bits 47:32 in BEAT_NUM_HI. BEAT_OVERRUN of a cluster that has not reached the last edge's beat counts in
OVR_CNT, to its maximum, sets its OVR_SUM bit and BEAT_INT_STAT.OVERRUN, pends source 66 and marks every core of it
that did not complete the beat, keeping an earlier mark. BEATREADY_POST of a cluster that is ready puts its notice in
its queue where accepted; one already posted does nothing. -/
def Obligations.EdgeAndCaptureResults : Prop :=
  ∀ s : State,
    (s.domOn domSteward = true → s.beat.phase = .running → s.pwr.slot = [] → s.beat.pendStep = none → s.fab.newGrid = none → 0 < s.periodU →
      Says.noLink s → s.role = roleAlone →
      ∃ t, exec .edge s = .next t ∧
        (∀ e, s.beat.first = some e → s.beat.lastEdge ≤ e.2 → t.beat.num = e.1 ∧ t.beat.lastEdge = e.2) ∧
        (s.beat.first = none → t.beat.num = s.beat.num + 1 ∧ t.beat.lastEdge = s.beat.lastEdge + s.periodU) ∧
        t.beat.first = none ∧ t.beat.lastEdge ≤ t.time ∧ t.beat.off = s.beat.off) ∧
    (s.beat.phase = .stopped → s.pwr.slot = [] → ∃ t, exec .edge s = .next t ∧ Says.regsOnly s t []) ∧
    (∀ v : Reg32, v.getLsbD 0 = true → ∃ t, exec (.timeCapture v) s = .next t ∧
      Says.beatOnly s t [R.TIME_CAP_CTRL, R.TIME_CAP_FRAC, R.TIME_CAP_NS_LO, R.TIME_CAP_NS_HI, R.TIME_CAP_BEAT_LO, R.TIME_CAP_BEAT_HI] ∧
      t.bit R.TIME_CAP_CTRL_EDGE = v.getLsbD 1 ∧ t.bit R.TIME_CAP_CTRL_DONE = !v.getLsbD 1 ∧ t.beat = { s.beat with capEdge := v.getLsbD 1 } ∧
      (v.getLsbD 1 = false → (t.rdW R.TIME_CAP_NS_HI * 2 ^ 32 + t.rdW R.TIME_CAP_NS_LO) * 2 ^ 24 + t.rdW R.TIME_CAP_FRAC = (packTime s.packNow).toNat ∧
        t.rdW R.TIME_CAP_BEAT_HI * 2 ^ 32 + t.rdW R.TIME_CAP_BEAT_LO = s.beat.num.toNat) ∧
      (v.getLsbD 1 = true → t.word R.TIME_CAP_NS_LO = s.word R.TIME_CAP_NS_LO)) ∧
    (∃ t, exec .beatNumLoRead s = .next t ∧ t.rdW R.BEAT_NUM_HI = s.beat.num.toNat / 2 ^ 32 ∧ Says.words s t [R.BEAT_NUM_HI] ∧
      t.out = s.out ++ [.readData R.BEAT_NUM_LO (s.beat.num.toNat % 2 ^ 32)] ∧ t.beat = s.beat ∧ t.mem = s.mem) ∧
    (∀ c : BitVec 6, let n := c.toNat
      (s.overrunDue n = true → ∃ t, exec (.beatOverrun c) s = .next t ∧
        t.rd (R.OVR_CNT_V n) = min (s.rd (R.OVR_CNT_V n) + 1) (2 ^ (R.OVR_CNT_V n).w - 1) ∧
        (t.word (if n < 32 then R.OVR_SUM_LO else R.OVR_SUM_HI)).getLsbD (n % 32) = true ∧ t.bit R.BEAT_INT_STAT_OVERRUN = true ∧
        (t.cic n).pend.getLsbD 66 = true ∧ t.mem = s.mem ∧
        (∀ k, k < 16 → (t.core (16 * n + k)).ovr =
          if s.reached (16 * n + k) (s.beat.num - 1) = true then (s.core (16 * n + k)).ovr else some (((s.core (16 * n + k)).ovr).getD s.beat.num)) ∧
        ∀ j, j / 16 ≠ n → t.core j = s.core j) ∧
      (s.overrunDue n = false → ∃ t, exec (.beatOverrun c) s = .next t ∧ Says.regsOnly s t [])) ∧
    (∀ c : BitVec 6, let n := c.toNat
      ((s.clu n).posted = false → s.domOn (domCluster n) = true → s.inReady n = true → s.domOn domQueue = true → Says.accepts s (s.readyQ n) →
        ∃ t, exec (.beatReadyPost c) s = .next t ∧ (t.clu n).posted = true ∧ (t.clu n).lostPrev = false ∧
          (t.queue (s.readyQ n)).msgs = (s.queue (s.readyQ n)).msgs ++ [s.readyNotice n] ∧ t.mem = s.mem ∧ t.hreg = s.hreg) ∧
      ((s.clu n).posted = true → ∃ t, exec (.beatReadyPost c) s = .next t ∧ Says.regsOnly s t []))

/-- With no module plan to change: GO with AT 0 of a running beat makes a request for the first edge at least 2,000
ns ahead; of a stopped one an immediate request; PENDING reads 1. GO while PENDING only sets the IGNORED bits. AT of
an edge less than 2,000 ns ahead fails at once with code 0x06. CANCEL before the cutoff ends the request; from the
cutoff on it sets the IGNORED bits; with none pending it does nothing. CUTOFF sets 2,000 ns before the target edge
that is next. A due immediate commit whose checks fail changes nothing in force, sets ERR and the lowest code and
ends; one that passes puts every STG word and the period in force, empties the staging buffers and sets DONE. A
refusal at the MASTER marks its request, a cancellation at a MEMBER its announced period. PERIOD at a MEMBER: where
its configuration in force holds with the period, it is kept for its target edge and every module that talks gets a
plan for that edge; else it is kept as refused and PACK_EVT.PERIOD is set; the period in force stays. At any other
node it does nothing. -/
def Obligations.CommitResults : Prop :=
  ∀ s : State, Says.noLink s → s.pwr.slot = [] →
    let ws := [R.COMMIT_STAT, R.BEAT_INT_STAT]
    let ignored (t : State) : Prop := Says.regsOnly s t ws ∧ t.bit R.COMMIT_STAT_IGNORED = true ∧ t.bit R.BEAT_INT_STAT_IGNORED = true ∧
      t.bit R.COMMIT_STAT_PENDING = s.bit R.COMMIT_STAT_PENDING
    let named := BitVec.ofNat 48 (s.rdW R.COMMIT_AT_HI % 65536 * 2 ^ 32 + s.rdW R.COMMIT_AT_LO)
    (∀ v : Reg32, v.getLsbD 0 = true → v.getLsbD 2 = false →
      (s.bit R.COMMIT_STAT_PENDING = true → ∃ t, exec (.commitGo v) s = .next t ∧ ignored t) ∧
      (s.bit R.COMMIT_STAT_PENDING = false → (∀ p, s.planChanges p = false) →
        (s.beat.phase = .stopped → ∃ t c, exec (.commitGo v) s = .next t ∧ Says.beatOnly s t ws ∧ t.beat = { s.beat with commit := some c } ∧
          c.immediate = true ∧ c.deadline = s.time ∧ t.bit R.COMMIT_STAT_PENDING = true) ∧
        (s.beat.phase ≠ .stopped → s.beat.first = none → 0 < s.periodU → v.getLsbD 1 = false → ∃ t c k, exec (.commitGo v) s = .next t ∧
          Says.beatOnly s t ws ∧ t.beat = { s.beat with commit := some c } ∧ Says.firstOnGrid s (s.time + 2000 * nsU) k ∧
          c.target = s.beat.num + BitVec.ofNat 48 k ∧ c.immediate = false ∧ t.bit R.COMMIT_STAT_PENDING = true) ∧
        (s.beat.phase ≠ .stopped → v.getLsbD 1 = true → s.edgeAt named < s.time + 2000 * nsU → ∃ t, exec (.commitGo v) s = .next t ∧
          Says.regsOnly s t ws ∧ t.rd R.COMMIT_STAT_CODE = 6 ∧ t.bit R.COMMIT_STAT_ERR = true ∧ t.bit R.BEAT_INT_STAT_COMMIT_ERR = true ∧
          t.rd R.COMMIT_STAT_BEAT = s.beat.num.toNat % 65536 ∧ t.bit R.COMMIT_STAT_PENDING = false))) ∧
    (∀ v : Reg32, v.getLsbD 0 = false → v.getLsbD 2 = true →
      (s.beat.commit = none → ∃ t, exec (.commitCancel v) s = .next t ∧ Says.regsOnly s t []) ∧
      (s.cutoff = true → ∃ t, exec (.commitCancel v) s = .next t ∧ ignored t) ∧
      (∀ c, s.beat.commit = some c → s.cutoff = false → s.role = roleAlone →
        (∀ p, (s.port p).bind = none ∧ ∀ x, (s.port p).plan = some x → x.byCommit = false) →
        ∃ t, exec (.commitCancel v) s = .next t ∧ Says.beatOnly s t ws ∧ t.beat = { s.beat with commit := none } ∧
          t.bit R.COMMIT_STAT_PENDING = false)) ∧
    (∀ c, s.beat.commit = some c →
      (c.immediate = false → s.beat.phase ≠ .stopped → c.target = (s.edgeFrom s.beat.lastEdge).1 → ∃ t, exec .commitCutoff s = .next t ∧
        t.bit R.COMMIT_STAT_CUTOFF = true ∧ Says.words s t ws ∧ t.beat = s.beat ∧ s.time ≤ t.time) ∧
      (s.immediateDue = true → s.commitFails ≠ [] → ∃ t, exec .immediateCommit s = .next t ∧ t.force = s.force ∧ t.str.ctx = s.str.ctx ∧
        t.str.subs = s.str.subs ∧ t.str.stage = s.str.stage ∧ t.red.states = s.red.states ∧ t.beat.commit = none ∧
        t.bit R.COMMIT_STAT_ERR = true ∧ t.rd R.COMMIT_STAT_CODE = lowestCode s.commitFails % 256 ∧ t.bit R.COMMIT_STAT_PENDING = false) ∧
      (s.immediateDue = true → s.commitFails = [] → ∃ t, exec .immediateCommit s = .next t ∧ (∀ o ∈ stgWords, t.forceWord o = s.word o) ∧
        t.word R.PERIOD_ACT_INT = s.word R.PERIOD_INT ∧ t.word R.PERIOD_ACT_FRAC = s.word R.PERIOD_FRAC ∧ t.str.stage = [] ∧ t.str.stageSub = [] ∧
        t.red.stage = [] ∧ t.beat.commit = none ∧ t.bit R.COMMIT_STAT_DONE = true ∧ t.bit R.COMMIT_STAT_PENDING = false) ∧
      (∀ code : Octet, s.role = roleMaster → ∃ t, exec (.periodRefuse code c.target) s = .next t ∧ Says.beatOnly s t [R.PACK_EVT] ∧
        t.beat = { s.beat with commit := some { c with refused := true } } ∧ t.bit R.PACK_EVT_PERIOD = true)) ∧
    (∀ x, s.fab.period = some x → ∃ t, exec (.periodCancel x.target) s = .next t ∧
      t.fab = { s.fab with period := some { x with cancelled := true } } ∧ t.bit R.PACK_EVT_PERIOD = true ∧ t.beat = s.beat ∧ Says.words s t [R.PACK_EVT]) ∧
    (∀ (a b : Reg32) (n : BitVec 48),
      (s.role ≠ roleMember → ∃ t, exec (.period a b n) s = .next t ∧ Says.regsOnly s t []) ∧
      (s.role = roleMember → s.beat.commit = none →
        let x : PeriodChange := ⟨a.toNat, b.toNat, n, false, false⟩
        let codes := ({ s with fab := { s.fab with period := some x } }).periodConflicts a b
        let talks := spPorts.filter s.spTalks
        ∃ t, exec (.period a b n) s = .next t ∧ t.mem = s.mem ∧ t.cores = s.cores ∧ t.beat = s.beat ∧ t.force = s.force ∧
          t.word R.PERIOD_ACT_INT = s.word R.PERIOD_ACT_INT ∧ t.word R.PERIOD_ACT_FRAC = s.word R.PERIOD_ACT_FRAC ∧
          (codes = [] → t.fab.period = some x ∧ ∀ p ∈ talks, ∃ y, (t.port p).plan = some y ∧ y.target = some n ∧ y.byCommit = true) ∧
          (codes ≠ [] → t.fab.period = some { x with refused := true } ∧ t.bit R.PACK_EVT_PERIOD = true ∧ t.ports = s.ports)))

namespace Sys2Proof.Says

open Sys2Proof.Machine

/-- Only port p and the BAR0 words of l differ, and what left the block, but for what a settled state senses and offers. -/
def portOnly (s t : State) (p : Nat) (l : List Nat) : Prop :=
  t = { s with hreg := t.hreg, ports := t.ports, out := t.out, dev := t.dev, cics := t.cics } ∧ sensed s t ∧ words s t l ∧
    ∀ q, q ≠ p → t.port q = s.port q

/-- The module of port p talks, in IDENT, ACTIVE or HOLD; its message tag is answered with an ACK naming it (R88). -/
def ackOf (p tag : Nat) : Out := .sample p (spMgmt tag 0x0D (le 1 tag))

end Sys2Proof.Says

/-- Enabling an OFF port whose SPGRP domain is on starts TRAINING at GEN_SEL (SL3 first for AUTO); clearing EN turns
a talking or training port OFF. A changed GEN_SEL restarts training. Lock at the generation tried enters IDENT, sends
16 ECHO words with distinct tags and a DESC_REQ; at another it does nothing. An AUTO window that ends goes on to SL2,
SL1 and SL3 again. Loss of lock, 10 ms of silence, or no DESC 100 ms after IDENT began returns a port in IDENT to
TRAINING and counts in SP_LINKDN; from HOLD the module has also departed: DEPART sets. Once a second an ACTIVE port
sends 16 echoes; the last reply writes SP_DELAY, half the sum of 16 round trips less TURN, over 16, in units of 2^-5
ns. A drive abort, by pin or SW, counts, and the first latches and sends ABORT on every ACTIVE port, a later one
nothing; REARM unlatches only while the pin is high; the pin's release shows in PIN. What is sent are the words of
R71 and R88, LOOP being 0. How a half rounds is the model's (log 8). -/
def Obligations.PortLinkResults : Prop :=
  ∀ (s : State) (p : BitVec 4), let n := p.toNat
    let sel := s.rd (R.SP_CTRL_GEN_SEL n)
    let first := if 1 ≤ sel ∧ sel ≤ 3 then sel else 3
    let quiet := s.bit (R.SP_CTRL_LOOP n) = false
    (s.spState n = spOffSt → s.domOn (domSp n) = true → ∃ t, exec (.spCtrlEn p true) s = .next t ∧ Says.portOnly s t n [R.SP_CTRL n, R.SP_STAT n] ∧
      t.out = s.out ∧ t.spState n = spTraining ∧ t.bit (R.SP_CTRL_EN n) = true ∧ (t.port n).window = first) ∧
    (s.spState n = spIdent ∨ s.spState n = spTraining ∨ s.spState n = spOffSt → (s.port n).bind = none → ∃ t, exec (.spCtrlEn p false) s = .next t ∧
      Says.portOnly s t n [R.SP_CTRL n, R.SP_STAT n] ∧ t.out = s.out ∧ t.spState n = spOffSt ∧ t.bit (R.SP_CTRL_EN n) = false) ∧
    (∀ g : BitVec 3, ∃ t, exec (.spGenSelWrite p g) s = .next t ∧ Says.portOnly s t n [R.SP_CTRL n, R.SP_STAT n] ∧ t.out = s.out ∧
      t.rd (R.SP_CTRL_GEN_SEL n) = g.toNat ∧ t.spState n = s.spState n ∧
      (s.spState n = spTraining → g.toNat ≠ sel → (t.port n).window = if 1 ≤ g.toNat ∧ g.toNat ≤ 3 then g.toNat else 3)) ∧
    (∀ g : BitVec 2, s.spState n = spTraining →
      (g.toNat = (s.port n).window → quiet → ∃ t, exec (.spLinkLock p g) s = .next t ∧ Says.portOnly s t n [R.SP_STAT n] ∧ t.spState n = spIdent ∧
        t.rd (R.SP_STAT_GEN_ACT n) = g.toNat ∧ (t.port n).echo.length = 16 ∧ (t.port n).echo.Nodup ∧
        t.out = s.out ++ (t.port n).echo.map (fun k => .sample n (spEcho k)) ++ [.sample n (spMgmt (s.port n).nextTag 0x01 [])]) ∧
      (g.toNat ≠ (s.port n).window → ∃ t, exec (.spLinkLock p g) s = .next t ∧ Says.regsOnly s t []) ∧
      (¬ (1 ≤ sel ∧ sel ≤ 3) → ∃ t, exec (.spGenWindow p) s = .next t ∧ Says.portOnly s t n [] ∧ t.out = s.out ∧
        (t.port n).window = (if (s.port n).window ≤ 1 then 3 else (s.port n).window - 1))) ∧
    (s.spState n = spIdent → (s.port n).bind = none → ∀ ins ∈ [Instr.spLinkLoss p, .descTimeout p, .mgmtSilence p], ∃ t, exec ins s = .next t ∧
      Says.portOnly s t n [R.SP_STAT n, R.SP_LINKDN n] ∧ t.out = s.out ∧ t.spState n = spTraining ∧ (t.port n).window = first ∧
      (t.port n).desc = none ∧ t.rd (R.SP_LINKDN_V n) = min (s.rd (R.SP_LINKDN_V n) + 1) (2 ^ (R.SP_LINKDN_V n).w - 1)) ∧
    (s.spState n = spHold → s.rd R.WH_FAULT_EN_R523 / 16 % 2 = 0 → ∀ ins ∈ [Instr.spLinkLoss p, .mgmtSilence p], ∃ t, exec ins s = .next t ∧
      t.spState n = spTraining ∧ (t.port n).window = first ∧ (t.port n).desc = none ∧ (t.port n).bind = none ∧ t.bit (R.SP_EVT_DEPART n) = true ∧
      t.rd (R.SP_LINKDN_V n) = min (s.rd (R.SP_LINKDN_V n) + 1) (2 ^ (R.SP_LINKDN_V n).w - 1) ∧ t.mem = s.mem ∧ t.cores = s.cores) ∧
    (s.spState n = spActive → ∃ t, exec (.delayMeasureSp p) s = .next t ∧ Says.portOnly s t n [] ∧ (t.port n).echo.length = 16 ∧
      (t.port n).echo.Nodup ∧ (t.port n).echoSum = 0 ∧ t.out = s.out ++ (t.port n).echo.map (fun k => .sample n (spEcho k))) ∧
    (∀ (tag : BitVec 16) (a b : BitVec 24), s.spTalks n = true → quiet → a.toNat ≤ b.toNat →
      (tag.toNat ∈ (s.port n).echo → (s.port n).echo.length ≠ 1 → ∃ t, exec (.echoReply p tag a b) s = .next t ∧ Says.portOnly s t n [] ∧ t.out = s.out ∧
        (t.port n).echo = (s.port n).echo.erase tag.toNat ∧ (t.port n).echoSum = (s.port n).echoSum + (b.toNat - a.toNat)) ∧
      ((s.port n).echo = [tag.toNat] → let sum := (s.port n).echoSum + (b.toNat - a.toNat)
        sum < 2 ^ 28 → ∃ t, exec (.echoReply p tag a b) s = .next t ∧ Says.words s t [R.SP_DELAY n] ∧ t.mem = s.mem ∧ t.cores = s.cores ∧
          t.bit (R.SP_DELAY_VALID n) = true ∧ 32 * t.rd (R.SP_DELAY_DELAY n) ≤ sum + 16 ∧ sum ≤ 32 * t.rd (R.SP_DELAY_DELAY n) + 16)) ∧
    (s.rd R.WH_FAULT_EN_R523 / 4 % 2 = 0 → ∀ e ∈ [(Instr.driveAbortAssert, false), (.drvAbortSw, true)], ∃ t, exec e.1 s = .next t ∧ t.mem = s.mem ∧
      t.cores = s.cores ∧ t.ports = s.ports ∧ t.abortPin = (s.abortPin || !e.2) ∧ t.bit R.DRV_ABORT_STAT_LATCHED = true ∧ t.bit R.DRV_ABORT_STAT_BY_SW = e.2 ∧
      t.rd R.DRV_ABORT_STAT_COUNT = min (s.rd R.DRV_ABORT_STAT_COUNT + 1) (2 ^ R.DRV_ABORT_STAT_COUNT.w - 1) ∧
      t.out = s.out ++ (if s.bit R.DRV_ABORT_STAT_LATCHED = true then []
        else ((List.range 16).filter (fun q => s.spState q = spActive)).map (fun q => .sample q (spAbort (s.abortRamp q))))) ∧
    (∃ t, exec .driveAbortNRelease s = .next t ∧ t.abortPin = false ∧ t.bit R.DRV_ABORT_STAT_PIN = false ∧ Says.words s t [R.DRV_ABORT_STAT] ∧
      t.bit R.DRV_ABORT_STAT_LATCHED = s.bit R.DRV_ABORT_STAT_LATCHED ∧ t.out = s.out ∧ t.mem = s.mem) ∧
    (s.abortPin = false → ∃ t, exec .drvAbortRearm s = .next t ∧ t.bit R.DRV_ABORT_STAT_LATCHED = false ∧ t.bit (R.SP_STAT_ABORT n) = false ∧
      t.ports = s.ports ∧ t.out = s.out ∧ t.mem = s.mem) ∧
    (s.abortPin = true → ∃ t, exec .drvAbortRearm s = .next t ∧ Says.regsOnly s t [])

/-- With LOOP 0, a message of a module that talks whose CRC-32 holds is acknowledged by its tag; one whose CRC fails
does nothing. DESC that is invalid, in IDENT, returns the port to TRAINING; a valid one of another module than the
last ACTIVE one enters HOLD with why 1 and sets ARRIVE and HOLD. PLAN_ACK of the pending plan in time sets PLAN_ACK;
PLAN_NAK sets its event and reason, and outside a commit enters HOLD with why 2. REG_DATA and MODULE_EVT pass on,
SENSOR is remembered until a DETACH, HEARTBEAT does nothing more, ACK ends the repetition of the message named. A
message is repeated up to three times, then dropped with MOD_EVT. ACCEPT of a port in HOLD why 1 makes it ACTIVE and
sends a PLAN; a PLAN unanswered 16 beats before its edge goes again. A block that starts on an ACTIVE port and has
another SYNC, BEAT or PLAN_ID than expected, or all of whose words have come with a wrong CRC, counts in SP_CRC_ERR
and passes nothing; a right one that is complete is taken: its samples are those packed in 20-bit fields from its
second word on. At the deadline a block not complete counts in SP_LATE. Auto-binding waits while a commit pends; with
nothing staged it stages the next batch, of at most 4,096, and commits it; giving up ends it. The ACK carrying the
tag it answers, and a message with a bad CRC going unanswered, are the model's (log 8). -/
def Obligations.PortMessageResults : Prop :=
  ∀ (s : State) (p : BitVec 4) (tag : MgmtTag), let n := p.toNat
    let ack := Says.ackOf n tag.tag.toNat
    (s.spTalks n = true → s.bit (R.SP_CTRL_LOOP n) = false →
      (∀ l, tag.holds 0x02 l = true → (s.port n).bind = none → s.spState n = spIdent →
        (descOk l = false → ∃ t, exec (.desc p tag l) s = .next t ∧ Says.portOnly s t n [R.SP_STAT n, R.SP_LINKDN n] ∧
          t.out = s.out ++ [ack] ∧ t.spState n = spTraining) ∧
        (∀ k, descOk l = true → (s.port n).ident = some k → k ≠ (parseDesc l).ident → ∃ t, exec (.desc p tag l) s = .next t ∧
          t.out = s.out ++ [ack] ∧ t.spState n = spHold ∧ t.rd (R.SP_STAT_HOLD_WHY n) = 1 ∧ t.bit (R.SP_EVT_ARRIVE n) = true ∧
          t.bit (R.SP_EVT_HOLD n) = true ∧ (t.port n).desc = some (parseDesc l) ∧ t.mem = s.mem)) ∧
      (∀ x, (s.port n).plan = some x → x.answer = none → x.id < 256 → let id := BitVec.ofNat 8 x.id
        (s.inTime x = true → tag.holds 0x04 [id] = true → ∃ t, exec (.planAck p tag id) s = .next t ∧ Says.portOnly s t n [R.SP_STAT n] ∧
          t.out = s.out ++ [ack] ∧ t.port n = { s.port n with plan := some { x with answer := some none } } ∧ t.bit (R.SP_STAT_PLAN_ACK n) = true) ∧
        (∀ r : Octet, x.byCommit = false → (s.port n).bind = none → s.spState n = spIdent ∨ s.spState n = spHold → tag.holds 0x05 [id, r] = true →
          ∃ t, exec (.planNak p tag id r) s = .next t ∧ t.out = s.out ++ [ack] ∧ t.spState n = spHold ∧ t.rd (R.SP_STAT_HOLD_WHY n) = 2 ∧
            t.rd (R.SP_STAT_NAK_REASON n) = r.toNat ∧ t.bit (R.SP_EVT_PLAN_NAK n) = true ∧ (t.port n).plan = none ∧ t.mem = s.mem)) ∧
      (∀ (a : BitVec 16) (v : Reg32), tag.holds 0x09 (le 2 a.toNat ++ le 4 v.toNat) = true → ∃ t, exec (.regData p tag a v) s = .next t ∧
        Says.portOnly s t n [] ∧ t.ports = s.ports ∧ t.out = s.out ++ [ack, .regData n a.toNat v.toNat]) ∧
      (∀ (c : BitVec 16) (b : BitVec 48) (x : List Octet), tag.holds 0x0B (le 2 c.toNat ++ le 6 b.toNat ++ x) = true →
        ∃ t, exec (.moduleEvt p tag c b x) s = .next t ∧ Says.portOnly s t n [R.SP_EVT n] ∧ t.ports = s.ports ∧
          t.bit (R.SP_EVT_MOD_EVT n) = true ∧ t.out = s.out ++ [ack, .moduleEvent n c.toNat b x]) ∧
      (tag.holds 0x0C [] = true → ∃ t, exec (.heartbeat p tag) s = .next t ∧ Says.portOnly s t n [] ∧ t.ports = s.ports ∧ t.out = s.out ++ [ack]) ∧
      (tag.holds 0x0C [] = false → ∃ t, exec (.heartbeat p tag) s = .next t ∧ Says.regsOnly s t []) ∧
      (tag.holds 0x0D [tag.tag] = true → ∃ t, exec (.ack p tag) s = .next t ∧ Says.portOnly s t n [] ∧ t.out = s.out ∧
        (t.port n).mgmt = (s.port n).mgmt.filter (fun m => m.tag ≠ tag.tag.toNat)) ∧
      (∀ m : SensorMsg, tag.holds 0x0A (sensorBody m) = true → ∃ t, exec (.sensor p tag m) s = .next t ∧ t.mem = s.mem ∧ t.cores = s.cores ∧
        t.bit (R.SP_EVT_SENSOR n) = true ∧
        (m.event = 2 → ∀ y, (m.channel.toNat, y) ∉ (t.port n).sensors) ∧ (m.event = 1 → (m.channel.toNat, m) ∈ (t.port n).sensors)) ∧
      (∀ b : InBlock, ∀ id cs h, ∀ ws : List Word64, s.spState n = spActive → (s.port n).closed = false → (s.port n).got = false →
        (s.port n).expect = some (id, cs) → b.words = (h :: ws).map some → b.fecUnc = 0 → b.codeErr = 0 → b.line = {} →
        let right := hdrSync h = 0xB5 ∧ hdrBeat h = (s.beat.num - 1).toNat % 65536 ∧ hdrPlan h = id
        let whole := hdrWords h < ws.length
        (¬ right ∨ whole ∧ b.crcOk = false → ∃ t, exec (.beatBlock p b) s = .next t ∧ t.mem = s.mem ∧ t.str = s.str ∧ (t.port n).part = none ∧
          (t.port n).got = true ∧ t.rd (R.SP_CRC_ERR_V n) = min (s.rd (R.SP_CRC_ERR_V n) + 1) (2 ^ (R.SP_CRC_ERR_V n).w - 1)) ∧
        (right → whole → b.crcOk = true → ∃ t l, exec (.beatBlock p b) s = .next t ∧ (t.port n).got = true ∧ (t.port n).part = some l ∧
          l.length = min (planSamples false cs) (64 * hdrWords h / 20) ∧ t.word (R.SP_CRC_ERR n) = s.word (R.SP_CRC_ERR n) ∧
          ∀ j k, j < l.length → k < 20 → ∃ g w, l[j]? = some (some g) ∧ ws[(20 * j + k) / 64]? = some w ∧
            g.getLsbD k = w.getLsbD ((20 * j + k) % 64)))) ∧
    (∀ m, (s.port n).mgmt = [m] → m.tag = tag.tag.toNat →
      (m.sends < 4 → ∃ t, exec (.mgmtRetry p tag.tag) s = .next t ∧ Says.portOnly s t n [] ∧ (t.port n).mgmt = [{ m with sends := m.sends + 1 }] ∧
        t.out = s.out ++ [.sample n (spMgmt m.tag m.kind m.body)]) ∧
      (4 ≤ m.sends → ∃ t, exec (.mgmtRetry p tag.tag) s = .next t ∧ Says.portOnly s t n [R.SP_EVT n] ∧ (t.port n).mgmt = [] ∧ t.out = s.out ∧
        t.bit (R.SP_EVT_MOD_EVT n) = true)) ∧
    (s.spState n = spHold → s.rd (R.SP_STAT_HOLD_WHY n) = 1 → ∃ t x, exec (.spCtrlAccept p) s = .next t ∧
      t.spState n = spActive ∧ t.rd (R.SP_STAT_HOLD_WHY n) = 0 ∧ (t.port n).plan = some x ∧ x.answer = none ∧ x.byCommit = false ∧
      x.chans = planOf n s.cfgsIn ∧ t.bit (R.SP_STAT_PLAN_PEND n) = true ∧ t.mem = s.mem) ∧
    (∀ x e, (s.port n).plan = some x → x.target = some e → x.byCommit = false → x.answer = none → (e - s.beat.num).toNat ≤ 16 →
      ∃ t y, exec (.planResend p) s = .next t ∧ (t.port n).plan = some y ∧ y.id = (s.port n).nextId ∧ y.chans = planOf n s.cfgsIn ∧ y.answer = none ∧ t.mem = s.mem) ∧
    ((s.port n).closed = false → s.inOfPort n = [] → ∃ t, exec (.portDeadline p) s = .next t ∧ (t.port n).closed = true ∧ t.mem = s.mem ∧ t.str = s.str ∧
      (∀ e, (s.port n).expect = some e → s.spState n = spActive → (s.port n).got = false → 0 < planSamples false e.2 →
        t.rd (R.SP_LATE_V n) = min (s.rd (R.SP_LATE_V n) + 1) (2 ^ (R.SP_LATE_V n).w - 1))) ∧
    (∀ b, (s.port n).bind = some b → b.committing = false →
      (s.bit R.COMMIT_STAT_PENDING = true → ∃ t, exec (.autobind p) s = .next t ∧ Says.regsOnly s t []) ∧
      (∃ t, exec (.autobindGiveUp p) s = .next t ∧ (t.port n).bind = none ∧ t.mem = s.mem ∧ t.str = s.str ∧ t.out = s.out) ∧
      (∀ d x, (s.port n).desc = some d → mget (fun _ => none) s.str.tmpl n = some x → s.stageFree = true →
        ∃ t, exec (.autobind p) s = .next t ∧ (t.port n).bind = some { b with
          batch := min 4096 (d.inCh + d.drvCh - b.bound), committing := true } ∧ t.mem = s.mem ∧ t.cores = s.cores))

namespace Sys2Proof.Says

open Sys2Proof.Machine

/-- Command h, of a mailbox, is one that the framing lets act: the steward may start it, its header and entry are right, its payload is len
octets, its data of at most most octets fit, and its channel holds a session in the role asked for (R474 to R477, R481, R464). -/
def framed (s : State) (h : BHdr) (len : Nat) (most : Nat := 0) (role : Option Bool := none) : Prop :=
  h.ch.toNat < 16 ∧ s.canStart h.ch.toNat = true ∧ s.boot.recovery = false ∧ h.bver = 1 ∧ h.tag ≠ 0xFFFF ∧ h.zeros = true ∧
    h.raddr.toNat % 8 = 0 ∧ (if h.ind = true then h.paddr.toNat % 8 = 0 ∧ 0 < len ∧ len ≤ 16777216 else len ≤ 96) ∧ h.dma = .ok ∧
    h.len.toNat = len ∧ (most ≤ 48 ∨ most ≤ h.rcap.toNat) ∧ (∀ x, (s.chan h.ch.toNat).sess = some x → s.time < x.expires) ∧
    (match role with
      | none => True
      | some co => ∃ x, (s.chan h.ch.toNat).sess = some x ∧ x.co = co)

/-- An octet string of a Bertia payload or completion: a number, a long (R129), longs. -/
def num (n v : Nat) : List Octet := (List.range n).map (fun i => BitVec.ofNat 8 (v / 256 ^ i))
def longs (l : List Long) : List Octet := (l.map (fun v => num 5 v.toNat)).flatten

/-- The entry that mailbox m's completion ring takes next (R473): its host address, its octets, with f the CFLAGS besides PHASE. -/
def entry (s : State) (m tag status dlen cidx f : Nat) (data : List Octet) : Out :=
  .dmaWrite (BitVec.ofNat 64 (s.rdW (R.MB_CPL_HI m) * 2 ^ 32 + s.rdW (R.MB_CPL_LO m) + 64 * s.rd (R.MB_STAT_CTAIL m)))
    (num 2 tag ++ num 2 status ++ num 4 dlen ++ num 2 cidx ++ num 1 ((if (s.chan m).phase = true then 1 else 0) + f) ++ [0, 0, 0, 0, 0]
      ++ (data ++ List.replicate 48 0).take 48)

/-- The command in progress on mailbox m can be completed by writes that reach the host: the mailbox is not halted, the steward not
locked (R466, R477, R246). -/
def canEnd (s : State) (m : Nat) (b : Busy) : Prop :=
  m < 16 ∧ (s.chan m).busy = some b ∧ b.discard = false ∧ b.ringOk = true ∧ s.domOn domHost = true ∧ s.host.linkUp = true ∧ s.host.d3hot = false ∧
    s.rd (R.MB_STAT_STATE m) ≠ 2 ∧ (s.core 1024).run ≠ .locked

/-- What the host then receives. -/
def endOf (s : State) (m : Nat) (b : Busy) (data : List Octet) : Out := entry s m b.tag.toNat 0 data.length b.cidx 0 data

/-- Command h has been taken and completed: its completion carries status and data, in the entry or by DMA (R473); the mailbox's counts
move on; whatever else the command did is what made u of s. -/
def runs (s t : State) (h : BHdr) (status : Nat) (data : List Octet) (u : State) : Prop :=
  let m := h.ch.toNat
  let ext := decide (48 < data.length)
  let tail := s.rd (R.MB_STAT_CTAIL m)
  let head := s.rd (R.MB_STAT_CHEAD m)
  t = { u with hreg := t.hreg, host := { u.host with chans := t.host.chans }, out := t.out, dev := t.dev, cics := t.cics } ∧
    sensed u t ∧ words u t [R.MB_STAT m, R.MB_DONE m, R.MB_EVT m] ∧ (∀ c, c ≠ m → t.chan c = u.chan c) ∧
    t.out = u.out ++ (if ext = true then [.dmaWrite h.raddr data] else []) ++
      [entry s m h.tag.toNat status data.length head (if ext = true then 2 else 0) (if ext = true then [] else data)] ∧
    t.rd (R.MB_STAT_CTAIL m) = (tail + 1) % s.cplSize m % 4096 ∧ t.rd (R.MB_STAT_CHEAD m) = (head + 1) % s.cmdSize m % 4096 ∧
    t.rd (R.MB_DONE_V m) = min (s.rd (R.MB_DONE_V m) + 1) (2 ^ 32 - 1) ∧ t.bit (R.MB_EVT_CPL m) = true ∧ (t.chan m).busy = none

/-- Command h has been taken and completed with status and data, whatever else it did (R473). -/
def answers (s t : State) (h : BHdr) (status : Nat) (data : List Octet) : Prop :=
  let m := h.ch.toNat
  let ext := decide (48 < data.length)
  (∃ pre, t.out = s.out ++ pre ++ [entry s m h.tag.toNat status data.length (s.rd (R.MB_STAT_CHEAD m)) (if ext = true then 2 else 0)
    (if ext = true then [] else data)]) ∧ (t.chan m).busy = none ∧ t.bit (R.MB_EVT_CPL m) = true

/-- Command ins runs to its completion with status and data, and its effect makes u of s. -/
def completes (ins : Instr) (s : State) (h : BHdr) (status : Nat) (data : List Octet) (u : State) : Prop :=
  ∃ t, exec ins s = .next t ∧ runs s t h status data u

end Sys2Proof.Says

/-- Each framed 0x02xx command of a mailbox completes. While a commit is pending a staging command with good
parameters answers BUSY, and a context outside the table answers BAD_PARAM; nothing changes. Else, with room in the
stage buffer, CTX_STAGE stages longs 0 to 9 but for SUB_IDX, SUB_CNT and TEDS_REF; CTX_STAGE_RANGE does it for each
context, BASE and an IN or OUT CHANNEL rising by the strides, and answers BAD_PARAM where one would not fit; SUB_SET
keeps the context's SUB_IDX where the new count fits, takes the lowest run free of every other list where not, and
answers it, and 0 for a count of 0; STAGE_DROP empties the stage buffer; BEATREADY_QUEUE stages a queue;
AUTOBIND_TEMPLATE is kept for its port. CTX_READ in force answers the 16 longs, STAGE_INFO the entries staged and
free, GAP_SCAN of a range without gap beats zero; CTX_CLEAR zeroes longs 10 to 12 of the range alone. -/
def Obligations.StreamCommandResults : Prop :=
  ∀ (s : State) (h : BHdr),
    let pend := s.bit R.COMMIT_STAT_PENDING
    (∀ (i : Reg32) (l : List Long), Says.framed s h (4 + 5 * l.length) →
      (262144 ≤ i.toNat ∨ l.length ≠ 10 → Says.completes (.ctxStage h i l) s h stBadParam [] s) ∧
      (i.toNat < 262144 → l.length = 10 →
        (pend = true → Says.completes (.ctxStage h i l) s h stBusy [] s) ∧
        (pend = false → s.red.stage = [] → s.stageUsed < 4096 → ∃ t st, exec (.ctxStage h i l) s = .next t ∧
          Says.runs s t h stOk [] { s with str := { s.str with stage := st } } ∧
          (∀ k, k < 10 → (t.stagedLongs i.toNat)[k]? = if k = 6 then some (match mget (fun _ => none) s.str.stageSub i.toNat with
              | some e => BitVec.ofNat 40 (e.1 * 512 + e.2.length)
              | none => s.ctxL i.toNat 6) else if k = 7 then some (s.ctxL i.toNat 7) else l[k]?) ∧
          ∀ j, j ≠ i.toNat → t.stagedLongs j = s.stagedLongs j))) ∧
    (∀ (i n stride : Reg32) (ch : BitVec 16) (l : List Long), let c := decodeCtx l
      let io := c.ctype = tyIn ∨ c.ctype = tyOut
      Says.framed s h (16 + 5 * l.length) → l.length = 10 → 1 ≤ n.toNat → n.toNat ≤ 4096 → i.toNat + n.toNat ≤ 262144 →
      (c.base + (n.toNat - 1) * stride.toNat < 2 ^ 19 → (io → c.channel + (n.toNat - 1) * ch.toNat ≤ 4095) → pend = false → s.red.stage = [] →
        s.stageUsed + n.toNat ≤ 4096 → ∃ t st, exec (.ctxStageRange h i n stride ch l) s = .next t ∧
        Says.runs s t h stOk [] { s with str := { s.str with stage := st } } ∧
        ∀ k, k < n.toNat → ∀ j, j < 10 → j ≠ 6 → j ≠ 7 → (t.stagedLongs (i.toNat + k))[j]? =
          if j = 2 then some (withBits (l.getD 2 0) 21 19 (c.base + k * stride.toNat))
          else if j = 1 ∧ (c.ctype = tyIn ∨ c.ctype = tyOut) then some (withBits (l.getD 1 0) 24 12 (c.channel + k * ch.toNat)) else l[j]?) ∧
      (2 ^ 19 ≤ c.base + (n.toNat - 1) * stride.toNat ∨ io ∧ 4095 < c.channel + (n.toNat - 1) * ch.toNat →
        Says.completes (.ctxStageRange h i n stride ch l) s h stBadParam [] s)) ∧
    (∀ (i : Reg32) (l : List Long), Says.framed s h (8 + 5 * l.length) 4 → i.toNat < 262144 → l.length ≤ 256 → pend = false →
      mget (fun _ => none) s.str.stageSub i.toNat = none → s.stageSubUsed + l.length ≤ 16384 →
      (l = [] → ∃ ss, Says.completes (.subSet h i l) s h stOk (Says.num 4 0) { s with str := { s.str with stageSub := ss } }) ∧
      (l ≠ [] → l.length ≤ (s.cfg i.toNat).subCnt → ∃ ss, Says.completes (.subSet h i l) s h stOk (Says.num 4 (s.cfg i.toNat).subIdx)
        { s with str := { s.str with stageSub := ss } } ∧ mget (fun _ => none) ss i.toNat = some ((s.cfg i.toNat).subIdx, l)) ∧
      (l ≠ [] → (s.cfg i.toNat).subCnt < l.length →
        let free (k : Nat) : Prop := k + l.length ≤ 65536 ∧ ∀ r ∈ s.subRanges i.toNat, k + l.length ≤ r.1 ∨ r.1 + r.2 ≤ k
        (∃ k, free k) → ∃ k ss, Says.completes (.subSet h i l) s h stOk (Says.num 4 k) { s with str := { s.str with stageSub := ss } } ∧
          mget (fun _ => none) ss i.toNat = some (k, l) ∧ free k ∧ ∀ j, j < k → ¬ free j)) ∧
    (∀ i : Reg32, Says.framed s h 8 80 → i.toNat < 262144 →
      Says.completes (.ctxRead h i 0) s h stOk (Says.longs ((List.range 16).map (s.ctxL i.toNat))) s) ∧
    (∀ a n : Reg32, Says.framed s h 8 → 1 ≤ n.toNat → n.toNat ≤ 262144 → a.toNat + n.toNat ≤ 262144 → ∃ t c, exec (.ctxClear h a n) s = .next t ∧
      Says.runs s t h stOk [] { s with str := { s.str with ctx := c } } ∧
      ∀ i l, l < 16 → t.ctxL i l = if a.toNat ≤ i ∧ i < a.toNat + n.toNat ∧ 10 ≤ l ∧ l ≤ 12 then 0 else s.ctxL i l) ∧
    (Says.framed s h 0 → (pend = true → Says.completes (.stageDrop h) s h stBusy [] s) ∧
      (pend = false → Says.completes (.stageDrop h) s h stOk []
        { s with str := { s.str with stage := [], stageSub := [], brqStage := [] }, red := { s.red with stage := [], qStage := [], extra := 0 } }) ∧
      Says.completes (.stageInfo h) s h stOk
        (Says.num 4 s.str.stage.length ++ Says.num 4 (4096 - s.stageUsed) ++ Says.num 4 (16384 - s.stageSubUsed)) s) ∧
    (∀ (c : Octet) (q : BitVec 16), Says.framed s h 4 → c.toNat < 64 → pend = false → ∃ b, Says.completes (.beatreadyQueue h c q) s h stOk []
      { s with str := { s.str with brqStage := b } } ∧ lookup b c.toNat = some q.toNat ∧ ∀ d, d ≠ c.toNat → lookup b d = lookup s.str.brqStage d) ∧
    (∀ (p : Octet) (a n : Reg32) (x y : List Long), Says.framed s h (12 + 5 * (x.length + y.length)) → p.toNat < 16 → a.toNat < 262144 → x.length = 10 → y.length = 10 →
      ∃ m, Says.completes (.autobindTemplate h p a n x y) s h stOk [] { s with str := { s.str with tmpl := m } } ∧
        mget (fun _ => none) m p.toNat = some ⟨a.toNat, n.toNat, x, y⟩ ∧ ∀ q, q ≠ p.toNat → mget (fun _ => none) m q = mget (fun _ => none) s.str.tmpl q) ∧
    (∀ (a n : Reg32) (k : BitVec 16), Says.framed s h 12 (4 + 7 * k.toNat) → 1 ≤ n.toNat → a.toNat + n.toNat ≤ 262144 → 1 ≤ k.toNat → k.toNat ≤ 1024 →
      (s.str.ctx.map (·.1)).Nodup → (∀ i, a.toNat ≤ i → i < a.toNat + n.toNat → bitsOf (s.ctxL i 10) 20 20 = 0) →
      Says.completes (.gapScan h a n k) s h stOk (Says.num 4 0) s)

/-- With no commit pending and room, a framed RED_STAGE of any KIND with good fields stages the state with its longs,
alone of its slot, RED_REMOVE a removal (NOT_FOUND without a state), RED_QUEUE a queue, DECIM_COEF the taps with a
staged USER state; G of 0 or above 65,536, a slot above 3 or a source outside the table answer BAD_PARAM, a pending
commit BUSY. RED_CLEAR and RED_RESIDUE mark the state in force for its next close. RED_READ and RED_MATRIX_READ
answer longs from memory, RED_LOAD U_s, U_f and U_cap of the period in force. RE_SUBMIT by a core of another cluster
only sets SUBREJ; by one of its own, of a slot of a DERIVED feed not handed before, it joins the intake. The engine
takes the oldest item of its intake while its cluster is on: of a context with one STATS state, the group's values
and gaps and long 14 count the block's, and no grain outside the state changes; it writes its oldest deferred
spectral close, with an edge on source 64 once no close of that beat is left: for a group without a frame, slot
header, record header and the gap count stand in the slot. A crossing's event adds to its monitor count, to at most
0xFFFFF: a drop to OVERRUNS with the sticky flag, between PEER_RESET and the handshake to DISCARDED; crossings above
35 are no operand. -/
def Obligations.ReductionCommandResults : Prop :=
  ∀ (s : State) (h : BHdr) (src : Reg32) (slot : Octet), let i := src.toNat
    let j := slot.toNat
    let pend := s.bit R.COMMIT_STAT_PENDING
    (∀ (kind flags : Octet) (g out : Reg32) (a : Long) (part : RedPart) (l : List (Nat × Long)), Says.framed s h (21 + redPartLen part) →
      redPart part = some (kind.toNat, l) →
      (g.toNat = 0 ∨ 65536 < g.toNat ∨ 3 < j ∨ 262144 ≤ i → Says.completes (.redStage h src slot kind flags g out a part) s h stBadParam [] s) ∧
      (1 ≤ g.toNat → g.toNat ≤ 65536 → j ≤ 3 → i < 262144 → out.toNat < 262144 → flags.toNat < 8 →
        (pend = true → Says.completes (.redStage h src slot kind flags g out a part) s h stBusy [] s) ∧
        (pend = false → s.stageUsed < 4095 → mget (fun _ => none) s.str.stage i = none → ∃ t st, exec (.redStage h src slot kind flags g out a part) s = .next t ∧
          Says.runs s t h stOk [] { s with str := { s.str with stage := st }, red := { s.red with stage := t.red.stage, extra := t.red.extra } } ∧
          (∀ y ∈ t.red.stage, y.src = i → y.slot = j → y.coefs = [] ∧ ∃ r, y.body = some r ∧ r.kind = kind.toNat ∧ r.addr = a.toNat ∧
            r.cfg = (0, BitVec.ofNat 40 (kind.toNat * 2 ^ 37 + flags.toNat % 2 * 2 ^ 36 + out.toNat * 2 ^ 18 + flags.toNat / 2 % 2 * 2 ^ 17
              + flags.toNat / 4 % 2 * 2 ^ 16 + (g.toNat - 1))) :: l) ∧
          (∃ y ∈ t.red.stage, y.src = i ∧ y.slot = j) ∧ (j = 0 → (t.stagedLongs i)[5]? = some a) ∧
          ∀ i' j', ¬ (i' = i ∧ j' = j) → t.red.stage.find? (fun y => y.src = i' ∧ y.slot = j') = s.red.stage.find? (fun y => y.src = i' ∧ y.slot = j')))) ∧
    (Says.framed s h 8 → i < 262144 → j ≤ 3 → pend = false → s.stageUsed < 4096 → s.red.stage = [] → mget (fun _ => none) s.str.stage i = none →
      (s.rstateNew i j = none → Says.completes (.redRemove h src slot) s h stNotFound [] s) ∧
      (s.rstateNew i j ≠ none → ∃ t st, exec (.redRemove h src slot) s = .next t ∧
        Says.runs s t h stOk [] { s with str := { s.str with stage := st }, red := { s.red with stage := t.red.stage, extra := t.red.extra } } ∧ t.rstateNew i j = none)) ∧
    (∀ r, s.rstate i j = some r → r.src = i → r.slot = j → i < 262144 → j ≤ 3 →
      (∀ w : Octet, Says.framed s h 8 → w.toNat ≤ 3 → ∃ t x, exec (.redClear h src slot w) s = .next t ∧
        Says.runs s t h stOk [] { s with red := { s.red with states := x } } ∧ t.rstate i j = some { r with clear := r.clear ||| w.toNat }) ∧
      (Says.framed s h 8 → (r.kind = kRflow → ∃ t x, exec (.redResidue h src slot) s = .next t ∧
          Says.runs s t h stOk [] { s with red := { s.red with states := x } } ∧ t.rstate i j = some { r with residue := true }) ∧
        (r.kind ≠ kRflow → Says.completes (.redResidue h src slot) s h stBadParam [] s)) ∧
      (∀ a n : BitVec 16, Says.framed s h 12 (5 * n.toNat) → 1 ≤ n.toNat → n.toNat ≤ 512 → a.toNat + n.toNat ≤ r.longCount → s.regionOk (r.addr, 2 * r.longCount) = true →
        Says.completes (.redRead h src slot a n 0) s h stOk (Says.longs ((List.range n.toNat).map (fun k => s.long (r.addr + 2 * (a.toNat + k))))) s) ∧
      (∀ a n : BitVec 16, let all := (bitsOf (r.cl 5) 33 6 + 1) * (bitsOf (r.cl 5) 27 6 + 1)
        Says.framed s h 10 (5 * n.toNat) → 1 ≤ n.toNat → n.toNat ≤ 4096 → r.kind = kRflow → a.toNat + n.toNat ≤ all → s.regionOk ((r.cl 9).toNat, 2 * all) = true →
        Says.completes (.redMatrixRead h src slot a n) s h stOk (Says.longs ((List.range n.toNat).map (fun k => s.long ((r.cl 9).toNat + 2 * (a.toNat + k))))) s)) ∧
    (∀ (c : Octet) (q : BitVec 16), Says.framed s h 4 → c.toNat < 64 → pend = false → s.stageUsed < 4096 → ∃ b, Says.completes (.redQueue h c q) s h stOk []
      { s with red := { s.red with qStage := b, extra := s.red.extra + (if (lookup s.red.qStage c.toNat).isSome = true then 1 else 0) } } ∧ lookup b c.toNat = some q.toNat ∧ ∀ d, d ≠ c.toNat → lookup b d = lookup s.red.qStage d) ∧
    (∀ c : Octet, Says.framed s h 4 15 → c.toNat < 64 → Says.completes (.redLoad h c 0) s h stOk
      (Says.longs [unitsLong (loadUs (s.loadOf c.toNat)), unitsLong (loadUf (s.loadOf c.toNat)), BitVec.ofNat 40 (6 * (s.rdW R.PERIOD_ACT_INT * 2 ^ 32 + s.rdW R.PERIOD_ACT_FRAC) / (10 * 2 ^ 32))]) s) ∧
    (∀ (a : BitVec 16) (taps : List Long) (x : RStage) (r : RState), Says.framed s h (10 + 5 * taps.length) → pend = false → s.stageUsed < 4096 → i < 262144 → j ≤ 3 →
      1 ≤ taps.length → taps.length ≤ 512 → s.red.stage = [x] → x.src = i → x.slot = j → x.body = some r → r.slot = j → r.kind = kDecim → (r.cl 4).getLsbD 34 = true →
      a.toNat + taps.length ≤ bitsOf (r.cl 4) 23 11 + 1 → Says.completes (.decimCoef h src slot a taps) s h stOk [] { s with red := { s.red with
        extra := s.red.extra + 1
        stage := [{ x with coefs := x.coefs ++ ((List.range taps.length).zip taps).map (fun e => (a.toNat + e.1, e.2)) }] } }) ∧
    (∀ c : BitVec 6, s.domOn (domCluster c.toNat) = true →
      (∀ core v, (coreIdx core) / 16 ≠ c.toNat → ∃ t, exec (.reSubmit core c v) s = .next t ∧ t = { s with red := t.red, dev := t.dev, cics := t.cics } ∧
        (t.eng c.toNat).intake = (s.eng c.toNat).intake ∧ (t.reErr c.toNat).getLsbD 5 = true ∧
        ∀ b, b ≠ 5 → (t.reErr c.toNat).getLsbD b = (s.reErr c.toNat).getLsbD b) ∧
      (∀ core v f l, let k := coreIdx core
        let d := bitsOf v 22 18
        let b := (s.core k).work
        let m := s.beat.num
        k < 1024 → k / 16 = c.toNat → (s.cfg d).on = true → (s.cfg d).ctype = tyDer → (s.cfg d).owner = c.toNat → (s.cfg d).redEn = true →
        s.chain d = f :: l → f.feed = true → (s.eng c.toNat).handed.contains (d, b) = false → (∀ y ∈ f :: l, y.closedSince (s.openBeat c.toNat) m = false) →
        (s.eng c.toNat).intake.length < 256 → ∃ t, exec (.reSubmit core c v) s = .next t ∧ t = { s with red := t.red, dev := t.dev, cics := t.cics } ∧
          (t.eng c.toNat).intake = (s.eng c.toNat).intake ++ [⟨d, b, if atOrAfter (s.openBeat c.toNat) m then s.openBeat c.toNat else m, true⟩] ∧
          (t.eng c.toNat).handed.contains (d, b) = true ∧ t.reErr c.toNat = s.reErr c.toNat) ∧
      (∀ it l, (s.eng c.toNat).intake = it :: l →
        (s.chain it.src = [] → ∃ t, exec (.redIntakeItem c) s = .next t ∧ (t.eng c.toNat).intake = l ∧
          t.mem = s.mem ∧ t.hreg = s.hreg ∧ t.cores = s.cores) ∧
        (∀ r a, s.chain it.src = [r] → s.rstate r.src r.slot = some r → r.kind = kStats → r.failed = false → r.spoiled = false → r.ahead it.inBeat = false →
          r.a = some a → atOrAfter it.inBeat a = true → s.bodyOk r = true →
          let x := s.cfg it.src
          let block := if it.sub = false ∧ (s.long (x.slotAt it.beat)).getLsbD 2 = true then List.replicate x.spb none
            else (s.slotElems x (x.slotAt it.beat)).map (redValue x)
          let n := (values block).length
          ∃ t y, exec (.redIntakeItem c) s = .next t ∧ (t.eng c.toNat).intake = l ∧ t.rstate r.src r.slot = some y ∧
            y.first = some (r.first.getD it.beat) ∧ y.taken = r.taken + n ∧ y.gaps = min (r.gaps + (block.length - n)) 1048575 ∧
            (t.long (r.addr + 28)).toNat = ((s.long (r.addr + 28)).toNat + n) % 2 ^ 40 ∧
            (∀ k, k < r.addr ∨ r.addr + 34 ≤ k → t.grain k = s.grain k) ∧ t.hreg = s.hreg ∧ t.cores = s.cores)) ∧
      (∀ x l, (s.eng c.toNat).defer = x :: l →
        (∃ t, exec (.specRecordWrite c) s = .next t ∧ (t.eng c.toNat).defer = l ∧
          ((∀ y ∈ l, y.beat ≠ x.beat) → (t.cic c.toNat).pend.getLsbD 64 = true)) ∧
        (∀ r, let g := x.group
          let o := s.cfg g.outCtx
          s.rstate x.src x.slot = some r → r.failed = false → g.frames = [] → o.on = true → o.ctype = tyRed → s.ownerOn o = true → o.subEn = false → 12 ≤ o.spb →
          ∃ t, exec (.specRecordWrite c) s = .next t ∧ t.cores = s.cores ∧ t.long (o.slotAt x.beat) = slotHeader x.beat 0 false false ∧
            ∀ k v, (recHeader g.kind 6 (g.fresh || g.slept) g.ovf g.late g.err x.gseq ((g.first.map (·.toNat)).getD 0) g.taken g.gaps ++
              [BitVec.ofNat 40 x.gapsOf, 0])[k]? = some v → t.long (o.slotAt x.beat + 2 + 2 * k) = v))) ∧
    (∀ (x : BitVec 6) (n : BitVec 20), let w (u : State) (k : Nat) : Long := mget (fun _ => 0) u.mon k
      (x.toNat < 36 → (s.crossAt x.toNat).peer = false → ∃ t, exec (.crossingResync x (.dropped n)) s = .next t ∧ t.mem = s.mem ∧ t.cores = s.cores ∧
        ((t.crossAt x.toNat).overrun = true ↔ (s.crossAt x.toNat).overrun = true ∨ n ≠ 0) ∧
        bitsOf (w t (2 * x.toNat)) 20 20 = min (bitsOf (w s (2 * x.toNat)) 20 20 + n.toNat) 0xFFFFF ∧
        bitsOf (w t (2 * x.toNat)) 0 20 = bitsOf (w s (2 * x.toNat)) 0 20 ∧ ∀ k, k ≠ 2 * x.toNat → w t k = w s k) ∧
      (x.toNat < 36 → ∃ t, exec (.crossingResync x (.merged n)) s = .next t ∧ bitsOf (w t (2 * x.toNat + 1)) 20 20 =
        min (bitsOf (w s (2 * x.toNat + 1)) 20 20 + n.toNat) 0xFFFFF ∧ ∀ k, k ≠ 2 * x.toNat + 1 → w t k = w s k) ∧
      (x.toNat < 36 → (s.crossAt x.toNat).peer = true → ∃ t, exec (.crossingResync x (.dropped n)) s = .next t ∧ w t (2 * x.toNat) = w s (2 * x.toNat) ∧
        bitsOf (w t (2 * x.toNat + 1)) 0 20 = min (bitsOf (w s (2 * x.toNat + 1)) 0 20 + n.toNat) 0xFFFFF) ∧
      (x.toNat < 36 → s.crossUp x.toNat = true → ∃ t, exec (.crossingResync x (.resync n)) s = .next t ∧ (t.crossAt x.toNat).peer = false ∧
        bitsOf (w t (2 * x.toNat)) 0 20 = min (bitsOf (w s (2 * x.toNat)) 0 20 + 1) 0xFFFFF ∧
        bitsOf (w t (2 * x.toNat + 1)) 0 20 = min (bitsOf (w s (2 * x.toNat + 1)) 0 20 + n.toNat) 0xFFFFF) ∧
      (36 ≤ x.toNat → exec (.crossingResync x (.resync n)) s = .fault .illFormed))

namespace Sys2Proof.Says

open Sys2Proof.Machine

/-- Only fabric port p's own state, the BAR0 words of l and what left the block differ, but for what a settled state senses and offers. -/
def fportOnly (s t : State) (p : Nat) (l : List Nat) : Prop :=
  t = { s with hreg := t.hreg, fab := { s.fab with ports := t.fab.ports }, out := t.out, dev := t.dev, cics := t.cics } ∧ sensed s t ∧
    words s t l ∧ ∀ q, q ≠ p → t.fport q = s.fport q

/-- The candidates by which a pair (PRIO, QUAL) of r below that of m is displaced (R355, rule 2). -/
def displaces (r m : Lsr) : Prop :=
  r.prio ≠ 0xFF ∧ r.running = true ∧ r.aligned = true ∧ r.prio.toNat * 256 + r.qual.toNat < m.prio.toNat * 256 + m.qual.toNat

/-- The frame of a message to the neighbour of port p, as a state sends it (R343, R366). -/
def msgFrame (s : State) (p : Nat) (o : List Octet) : Frame := s.dress p (s.newFrame 2 0 (.ctrl (.other o)))

/-- The frames of a VL of port p not yet acknowledged, then those that wait, in order, without their numbers. -/
def onVl (t : State) (p vl : Nat) : List Frame :=
  ((t.linkOf p vl).unacked.map (·.frame) ++ (t.linkOf p vl).waiting).map (fun f => { f with seq := 0 })

/-- A message is on its way on port p: a frame of it waits on the port's VL2 or has left and is kept until it is acknowledged. -/
def underWay (t : State) (p : Nat) (o : List Octet) : Prop := ∃ f ∈ onVl t p 2, f.load = .ctrl (.other o)

/-- A message leaves by port p: before SYNC and on a FENCED or REFUSED port in a frame that no link numbers (log 12), else in the
next VL2 frame of the link: at once where nothing waits before it and window and credits let it. -/
def sendsMsg (s t : State) (p : Nat) (o : List Octet) : Prop :=
  (s.fpLive p = false → t.fab = s.fab ∧ t.out = s.out ++ [.fabric p (.frame (frameWords none (s.newFrame 2 0 (.ctrl (.other o)))))]) ∧
  (s.fpLive p = true → (∀ vl, 1 ≤ vl → vl ≤ 3 → (s.linkOf p vl).waiting = [] ∧ (s.linkOf p vl).again = []) → s.canSend p (msgFrame s p o) = true →
    let l := s.linkOf p 2
    t.out = s.out ++ [.fabric p (.frame (frameWords (s.fport p).tx { msgFrame s p o with seq := l.seq }))] ∧ (t.linkOf p 2).seq = l.seq + 1 ∧
      onVl t p 2 = onVl s p 2 ++ [msgFrame s p o])

end Sys2Proof.Says

/-- While the port's domain is on: enabling an OFF port trains it; AUTO windows alternate G2 and G1; lock at the
generation tried enters HELLO with a fresh nonce and 16 DREQ with distinct tags. With LOOP 0, a first HELLO of
another node, VER 1, no AUTH_REQ or ENC_REQ on either side, notes the peer and enters SYNC with the database and
SYNC_DONE as the link's first VL2 frames; with one set and the kennel ready it enters AUTH and sends the chain;
another VER or the own serial enters REFUSED with reason 3 or 4, keeping its lock; a HELLO naming another serial,
loss of lock, three HELLOs missed and 10 s in REFUSED retrain, a departure counting in FP_LINKDN where the link was
in SYNC, UP or FENCED. A chain or signature that fails, or no end within 200 ms, enters REFUSED with reason 1; a good
chain is answered by the node's signature; both verified enter SYNC, or end a re-key, with the keys of R448 where
encryption is required. SYNC_DONE enters UP with ARRIVE, or FENCED where the segments cannot merge. HELLO_SEND, DREQ
and measurements answer on the link; the last DRESP writes FP_DELAY, rounded down (log 8); TURN is free. FP_ASYM
takes what is written. With LOOP 1 the peer's rows do nothing. -/
def Obligations.FabricLinkResults : Prop :=
  ∀ (s : State) (p : BitVec 3) (v : Reg32), let n := p.toNat
    let st := s.fpState n
    let trained (ins : Instr) : Prop := ∃ t, exec ins s = .next t ∧ t.fpState n = fpTraining ∧ t.mem = s.mem ∧ t.cores = s.cores ∧ t.fport n = {} ∧
      (st = fpSync ∨ st = fpUpSt ∨ st = fpFenced → t.bit (R.FP_EVT_DEPART n) = true ∧
        t.rd (R.FP_LINKDN_V n) = min (s.rd (R.FP_LINKDN_V n) + 1) (2 ^ (R.FP_LINKDN_V n).w - 1))
    let refused (ins : Instr) (why : Nat) : Prop := ∃ t, exec ins s = .next t ∧ t.fpState n = fpRefused ∧ t.rd (R.FP_STAT_REASON n) = why ∧
      t.bit (R.FP_EVT_REFUSED n) = true ∧ t.rd (R.FP_STAT_LOCK n) = s.rd (R.FP_STAT_LOCK n) ∧ t.mem = s.mem ∧ t.cores = s.cores
    (∃ t, exec (.fpAsymWrite p v) s = .next t ∧ Says.regsOnly s t [R.FP_ASYM n] ∧ t.word (R.FP_ASYM n) = v) ∧
    (s.fpLoop n = true → ∀ (m : HelloMsg) (ok : Bool) (a : AuthSig), (∃ t, exec (.hello p m) s = .next t ∧ Says.regsOnly s t []) ∧
      (∃ t, exec (.authCert p ok) s = .next t ∧ Says.regsOnly s t []) ∧ (∃ t, exec (.authSig p a) s = .next t ∧ Says.regsOnly s t []) ∧
      (∃ t, exec (.syncDone p) s = .next t ∧ Says.regsOnly s t [])) ∧
    (s.domOn (domFabric n) = true →
      (st = fpOff → ∃ t, exec (.fpCtrlEn p true) s = .next t ∧ Says.fportOnly s t n [R.FP_CTRL n, R.FP_STAT n] ∧ t.out = s.out ∧
        t.fpState n = fpTraining ∧ t.bit (R.FP_CTRL_EN n) = true ∧ t.fport n = {}) ∧
      (∃ t, exec (.fpCtrlEn p false) s = .next t ∧ t.fpState n = fpOff ∧ t.bit (R.FP_CTRL_EN n) = false ∧ t.mem = s.mem ∧ t.cores = s.cores) ∧
      (st = fpTraining → ∃ t, exec (.fabricGenWindow p) s = .next t ∧ Says.fportOnly s t n [] ∧ t.out = s.out ∧
        t.fport n = { s.fport n with genTry := !(s.fport n).genTry }) ∧
      (∀ g : BitVec 2, st = fpTraining → let sel := s.rd (R.FP_CTRL_GEN_SEL n)
        let tries := if sel = 1 ∨ sel = 2 then sel else if (s.fport n).genTry = true then 1 else 2
        (g.toNat = tries → ∃ t, exec (.fabricLock p g) s = .next t ∧ t.fpState n = fpHello ∧ t.rd (R.FP_STAT_GEN_ACT n) = tries ∧ Says.words s t [R.FP_STAT n] ∧
          (t.fport n).nonce ≠ none ∧ (t.fport n).dreq.length = 16 ∧ (t.fport n).dreq.Nodup ∧ t.mem = s.mem ∧ t.kn.drbgUse = (s.kn.drbgUse + 1) % 65536 ∧
          t.out = s.out ++ (t.fport n).dreq.map (fun k => .fabric n (.block (dreqWord k)))) ∧
        (g.toNat ≠ tries → ∃ t, exec (.fabricLock p g) s = .next t ∧ Says.regsOnly s t [])) ∧
      (2 ≤ st → trained (.fabricLockLoss p) ∧ trained (.helloTimeout p) ∧ (∃ t, exec (.helloTimeout p) s = .next t ∧
          t.rd (R.FP_HELLO_LOSS_V n) = min (s.rd (R.FP_HELLO_LOSS_V n) + 3) (2 ^ (R.FP_HELLO_LOSS_V n).w - 1)) ∧
        (s.fpLoop n = false → ∀ (m h : HelloMsg), (s.fport n).peer = some h → h.serial ≠ m.serial → trained (.hello p m)) ∧
        (s.fpLoop n = false → ∃ t, exec (.helloSend p) s = .next t ∧ t.mem = s.mem ∧ t.cores = s.cores ∧ Says.sendsMsg s t n (helloOctets (s.ownHello n))) ∧
        (∃ t, exec (.delayMeasureFp p) s = .next t ∧ Says.fportOnly s t n [] ∧ (t.fport n).dreq.length = 16 ∧ (t.fport n).dreq.Nodup ∧
          (t.fport n).dreqSum = 0 ∧ t.out = s.out ++ (t.fport n).dreq.map (fun k => .fabric n (.block (dreqWord k)))) ∧
        (∀ tag : BitVec 16, ∃ t turn, exec (.dreq p tag) s = .next t ∧ t = { s with out := t.out, free := t.free, dev := t.dev, cics := t.cics } ∧ Says.sensed s t ∧
          t.out = s.out ++ [.fabric n (.block (drespWord tag.toNat turn))]) ∧
        (∀ (tag : BitVec 16) (a b : Reg32), let sum := (s.fport n).dreqSum + (b.toNat - a.toNat)
          (s.fport n).dreq = [tag.toNat] → sum / 32 < 2 ^ (R.FP_DELAY_DELAY n).w → ∃ t, exec (.dresp p tag a b) s = .next t ∧ Says.fportOnly s t n [R.FP_DELAY n] ∧ t.out = s.out ∧
            t.rd (R.FP_DELAY_DELAY n) = sum / 32 ∧ t.bit (R.FP_DELAY_VALID n) = true ∧ t.bit (R.FP_DELAY_TOG n) = !s.bit (R.FP_DELAY_TOG n))) ∧
      (st = fpRefused → trained (.refusedTimeout p)) ∧
      (s.fpLoop n = false → ∀ m h : HelloMsg, st = fpUpSt → (s.fport n).peer = some h → h.serial = m.serial → m.serial ≠ Config.serial → m.ver = 1 →
        ∃ t, exec (.hello p m) s = .next t ∧ t.fpState n = fpUpSt ∧ (t.fport n).peer = some m ∧ (t.fport n).heard = some s.time ∧ t.out = s.out ∧
          t.mem = s.mem ∧ t.cores = s.cores ∧ t.rd (R.FP_PEER_ADDR n) = m.addr.toNat) ∧
      (s.fpLoop n = false → ∀ m : HelloMsg, st = fpHello → (s.fport n).peer = none →
        (m.serial = Config.serial → refused (.hello p m) 4) ∧ (m.serial ≠ Config.serial → m.ver ≠ 1 → refused (.hello p m) 3) ∧
        (m.serial ≠ Config.serial → m.ver = 1 → let sec := s.bit R.PACK_CTRL_AUTH_REQ || s.bit R.PACK_CTRL_ENC_REQ || m.authReq || m.encReq
          (sec = false → ∃ t, exec (.hello p m) s = .next t ∧ t.fpState n = fpSync ∧ (t.fport n).peer = some m ∧ t.mem = s.mem ∧ t.cores = s.cores ∧
            t.rd (R.FP_PEER_ADDR n) = m.addr.toNat ∧ t.rdW (R.FP_PEER_SER_LO n) = m.serial.toNat % 2 ^ 32 ∧ t.rdW (R.FP_PEER_SER_HI n) = m.serial.toNat / 2 ^ 32 ∧
            Says.onVl t n 2 = (t.liveDb.map lsrOctets ++ [syncDoneOctets]).map (Says.msgFrame t n)) ∧
          ((s.bit R.PACK_CTRL_ENC_REQ || m.encReq) = true → m.encCap = false → refused (.hello p m) 2) ∧
          (sec = true → m.encCap = true → s.joinOk = true → ∃ t, exec (.hello p m) s = .next t ∧ t.fpState n = fpAuth ∧ (t.fport n).peer = some m ∧
            t.out = s.out ++ [.fabric n .authCert]))) ∧
      (st = fpAuth → refused (.authTimeout p) 1 ∧ (s.fpLoop n = false → refused (.authCert p false) 1 ∧
        (s.joinOk = true → s.admitted n = true → (s.fport n).certOk = false → ∃ t e, exec (.authCert p true) s = .next t ∧ Says.words s t [] ∧
          t.fport n = { s.fport n with certOk := true, eph := e } ∧ t.kn.drbgUse = (s.kn.drbgUse + 1) % 65536 ∧ t.mem = s.mem ∧ t.out = s.out ++ [.fabric n .authSig]) ∧
        (∀ m : AuthSig, ((s.fport n).certOk = false → ∃ t, exec (.authSig p m) s = .next t ∧ Says.regsOnly s t []) ∧
          ((s.fport n).certOk = true → m.ok = false → refused (.authSig p m) 1) ∧
          ((s.fport n).certOk = true → m.ok = true → s.joinOk = true → ∃ t, exec (.authSig p m) s = .next t ∧ t.fpState n = fpSync ∧ t.bit (R.FP_STAT_AUTHED n) = true ∧
            t.mem = s.mem ∧ Says.onVl t n 2 = (t.liveDb.map lsrOctets ++ [syncDoneOctets]).map (Says.msgFrame t n) ∧
            ∀ h, (s.fport n).peer = some h → s.encReq n = true → let k := s.portKeys n h (le 48 (Config.ecdhX (s.fport n).eph m.key).toNat)
              t.bit (R.FP_STAT_ENC n) = true ∧ (t.fport n).tx.map (fun x => (x.key, x.salt)) = some (k.1.key, k.1.salt) ∧ (t.fport n).rx = some k.2)))) ∧
      (st = fpSync → s.fpLoop n = false →
        (s.merges n = true → ∃ t, exec (.syncDone p) s = .next t ∧ t.fpState n = fpUpSt ∧ t.bit (R.FP_EVT_ARRIVE n) = true ∧ (t.fport n).dreq.length = 16 ∧
          t.mem = s.mem ∧ t.cores = s.cores) ∧
        (s.merges n = false → ∃ t, exec (.syncDone p) s = .next t ∧ t.fpState n = fpFenced ∧ t.bit (R.FP_EVT_FENCED n) = true ∧ t.mem = s.mem ∧ t.cores = s.cores)) ∧
      (st = fpUpSt → s.joinOk = true → (s.bit (R.FP_STAT_ENC n) = true → ∃ t, exec (.rekey p) s = .next t ∧ Says.fportOnly s t n [] ∧
          t.fport n = { s.fport n with rekey := true, certOk := false, sigOk := false } ∧ t.out = s.out ++ [.fabric n .authCert]) ∧
        (s.fpLoop n = false → ∀ m : AuthSig, (s.fport n).rekey = true → (s.fport n).certOk = true → m.ok = true → ∃ t, exec (.authSig p m) s = .next t ∧
          t.fpState n = fpUpSt ∧ (t.fport n).rekey = false ∧ t.mem = s.mem ∧ t.out = s.out ∧ Says.words s t [R.FP_STAT n])))

/-- With LOOP 0 a record from another node on a SYNC or UP port whose serial is new, or whose sequence number is
later, takes that serial's place in the database and goes on, as a VL2 frame, on every other live port not fenced by
it; any other changes nothing but the link's numbering. A refresh of an unchanged record issues it with the next
number on every live port. A record that ages out leaves the database. A claim unopposed is confirmed. Routes are
recomputed once the database has changed: ROUTE_GEN counts, the own address reads LOCAL and an address of no record
reads not VALID. A running, aligned candidate with the lowest key and a lower (PRIO, QUAL) than the master takes over
and stays. An EDGE is noted on its port; where one of its parent came before, a follower takes a rate within 100 ppm,
after 16 of them within 0.01 ppm of the measured one. TDATA of the parent moves a running follower's edges by the
phase error, at most 0.25 ns below the step limit and wholly from it on; eight within 1 ns, with the GRID in force,
make a JOINING node MEMBER, one outside makes a MEMBER JOINING; a leading node ignores it. A follower whose parent's
edges stop enters HOLDOVER with the rate kept. A parent at least 2 less deep takes over. The rate's last digits are a
free value (log 1). -/
def Obligations.PackResults : Prop :=
  ∀ (s : State) (p : BitVec 3), let n := p.toNat
    let live := fabPorts.filter s.fpLive
    let quiet := s.domOn (domFabric n) = true ∧ s.fpLoop n = false
    let follows := (s.role = roleMember ∨ s.role = roleJoining) ∧ s.fab.parent = some n ∧ s.bit R.BEAT_STAT_DISC_PEND = false
    (quiet → ∀ r : Lsr,
      (s.fpLive n = true → r.serial ≠ Config.serial → s.fab.lsdb.length < 4095 →
        (∀ e ∈ s.fab.lsdb, e.1.serial = r.serial → e.1.seq ≠ r.seq ∧ (r.seq - e.1.seq).toNat < 2 ^ 31) → ∃ t, exec (.linkStateRecord p r) s = .next t ∧
        (r, s.time) ∈ t.fab.lsdb ∧ (∀ e ∈ t.fab.lsdb, e.1.serial = r.serial → e = (r, s.time)) ∧ t.mem = s.mem ∧ t.cores = s.cores ∧
        (∀ q ∈ live, q ≠ n → t.fpState q = s.fpState q → Says.underWay t q (lsrOctets r))) ∧
      (s.fpLive n = false → ∃ t, exec (.linkStateRecord p r) s = .next t ∧ Says.regsOnly s t []) ∧
      (r.serial = Config.serial ∨ (∃ e, s.fab.lsdb.find? (fun e => e.1.serial = r.serial) = some e ∧
          (e.1.seq = r.seq ∨ 2 ^ 31 ≤ (r.seq - e.1.seq).toNat)) → ∃ t, exec (.linkStateRecord p r) s = .next t ∧
        Says.fportOnly s t n [(R.RX_BE_V n).off] ∧ t.out = s.out)) ∧
    (live = [] → ∃ t, exec .lsrRefresh s = .next t ∧ Says.regsOnly s t []) ∧
    (live ≠ [] → s.stewardUp = true → (∃ e ∈ s.fab.lsdb, e.1 = s.ownRecord) → (∀ q ∈ fabPorts, s.keysWorn q = false) →
      let r := { s.ownRecord with seq := BitVec.ofNat 32 ((s.fab.seq + 1) % 2 ^ 32) }
      ∃ t, exec .lsrRefresh s = .next t ∧ t.fab.seq = (s.fab.seq + 1) % 2 ^ 32 ∧ (r, s.time) ∈ t.fab.lsdb ∧
        (∀ q ∈ live, Says.underWay t q (lsrOctets r)) ∧ t.mem = s.mem ∧ t.cores = s.cores) ∧
    (∀ x : BitVec 64, x ≠ Config.serial → (∃ e ∈ s.fab.lsdb, e.1.serial = x) → ∃ t, exec (.lsrAgeOut x) s = .next t ∧
      (∀ e ∈ t.fab.lsdb, e.1.serial ≠ x) ∧ t.mem = s.mem ∧ t.cores = s.cores) ∧
    (s.anyUp = true → s.rd R.PACK_STAT_ADDR_STATE = 1 → s.rd R.NODE_ADDR_NODE_ID = 0 →
      (∀ e ∈ s.fab.lsdb, e.1.serial = Config.serial ∨ e.1.addr.toNat ≠ s.rd R.NODE_ADDR_ADDR) → ∃ t, exec .addrConfirm s = .next t ∧
      t.rd R.PACK_STAT_ADDR_STATE = 2 ∧ t.rd R.NODE_ADDR_ADDR = claimAddr s.fab.try_ ∧ t.mem = s.mem ∧ t.cores = s.cores) ∧
    (s.stewardUp = true → s.fab.dirty = true → ∃ t, exec .routeCompute s = .next t ∧ t.rdW R.ROUTE_GEN = (s.rdW R.ROUTE_GEN + 1) % 2 ^ 32 ∧
      t.fab.dirty = false ∧ t.out = s.out ∧ t.mem = s.mem ∧
      (∀ a, (∀ r ∈ s.segment, r.addr.toNat ≠ a) → routeValid (t.route a) = false) ∧
      (0 < s.ownRecord.addr.toNat → s.ownRecord.addr.toNat ≤ 4095 → (∀ r ∈ s.segment, r.addr = s.ownRecord.addr → r.serial = Config.serial) →
        routeValid (t.route s.ownRecord.addr.toNat) = true ∧ (t.route s.ownRecord.addr.toNat).getLsbD 38 = true ∧ routeHops (t.route s.ownRecord.addr.toNat) = 0)) ∧
    (s.stewardUp = false ∨ s.fab.dirty = false → ∃ t, exec .routeCompute s = .next t ∧ Says.regsOnly s t []) ∧
    (∀ m b : Lsr, s.segment.find? (fun r => s.fab.master = some r.serial) = some m → b ∈ s.segment → Says.displaces b m →
      (∀ r ∈ s.segment, Says.displaces r m → r = b ∨ electKey b < electKey r) → ∃ t, exec .masterHandover s = .next t ∧
      t.fab.master = some b.serial ∧ t.fab.heir = some b.serial ∧ t.rd R.MASTER_ADDR_ADDR = b.addr.toNat % 2 ^ R.MASTER_ADDR_ADDR.w ∧ t.mem = s.mem) ∧
    (quiet → ∀ (d : BitVec 6) (b : BitVec 48), s.fpLive n = true →
      (s.role = roleAlone ∨ s.role = roleMaster → ∃ t, exec (.edgeBlock p d b) s = .next t ∧ Says.fportOnly s t n [] ∧ t.out = s.out ∧
        t.fport n = { s.fport n with edge := some (d, b, s.time) }) ∧
      (follows → ∃ t, exec (.edgeBlock p d b) s = .next t ∧ (t.fport n).edge = some (d, b, s.time) ∧ t.fab.edges = s.fab.edges + 1 ∧
        Says.words s t [R.RATE_ADJ] ∧ t.beat = s.beat ∧ t.mem = s.mem ∧ ((s.fport n).edge = none → t.word R.RATE_ADJ = s.word R.RATE_ADJ) ∧
        ∀ e : BitVec 6 × BitVec 48 × Int, (s.fport n).edge = some e → let span := (b - e.2.1).toInt * s.periodU
          let rate := (2 ^ 40 + (s.word R.RATE_ADJ).toInt) * span / (s.time - e.2.2) - 2 ^ 40
          e.2.2 < s.time → 0 < span → ((t.word R.RATE_ADJ).toInt.natAbs : Int) * 10000 ≤ 2 ^ 40 ∧
            (16 ≤ s.fab.edges → (rate.natAbs : Int) * 10000 ≤ 2 ^ 40 → (((t.word R.RATE_ADJ).toInt - rate).natAbs : Int) * 100000000 ≤ 2 ^ 40))) ∧
    (quiet → ∀ (off : BitVec 24) (addr : BitVec 16),
      (s.role = roleAlone ∨ s.role = roleMaster → ∃ t, exec (.tdata p off addr) s = .next t ∧ Says.regsOnly s t []) ∧
      (follows → s.beat.phase = .running → ∀ e : BitVec 6 × BitVec 48 × Int, (s.fport n).edge = some e →
        let delay : Int := (2 * (s.rd (R.FP_DELAY_DELAY n) : Int) - (s.word (R.FP_ASYM n)).toInt) * (nsU / 2048)
        let target := e.2.2 - delay - off.toNat * (nsU / 1024)
        let err := s.beat.lastEdge + (e.2.1 - s.beat.num).toInt * s.periodU - target
        let near := (err.natAbs : Int) < 2 ^ min (s.rd R.DISC_CTRL_STEP_EXP) 30 * nsU
        let may := s.bit (R.FP_DELAY_VALID n) = true ∧ s.peerAligned n = true
        let d := max (-(nsU / 4)) (min (nsU / 4) err)
        (near → s.fab.alignCnt < 7 → (s.role = roleJoining ∨ may ∧ (err.natAbs : Int) ≤ nsU) → ∃ t, exec (.tdata p off addr) s = .next t ∧ t.hreg = s.hreg ∧ t.mem = s.mem ∧
          t.beat = { s.beat with lastEdge := s.beat.lastEdge - d, off := s.beat.off + d, first := s.beat.first.map (fun f => (f.1, f.2 - d)) } ∧
          t.fab = { s.fab with alignCnt := if (err.natAbs : Int) ≤ nsU then s.fab.alignCnt + 1 else 0 }) ∧
        (near → may → (err.natAbs : Int) ≤ nsU → 7 ≤ s.fab.alignCnt → s.gridOk = true → e.1.toNat < 32 → ∃ t, exec (.tdata p off addr) s = .next t ∧
          t.role = roleMember ∧ t.rd R.PACK_STAT_DEPTH = e.1.toNat + 1 ∧ t.bit R.PACK_STAT_TOO_DEEP = false ∧ t.beat.lastEdge = s.beat.lastEdge - d ∧ t.mem = s.mem) ∧
        (s.role = roleMember → (¬ may ∨ nsU < (err.natAbs : Int)) → ∃ t, exec (.tdata p off addr) s = .next t ∧ t.role = roleJoining ∧ t.mem = s.mem) ∧
        (¬ near → ∃ t, exec (.tdata p off addr) s = .next t ∧ t.beat.num = e.2.1 ∧ t.beat.lastEdge = target ∧ t.beat.off = s.beat.off + err ∧ t.mem = s.mem))) ∧
    (s.role = roleMember ∨ s.role = roleJoining → ∀ q, s.fab.parent = some q → ∃ t, exec .parentEdgeTimeout s = .next t ∧
      t.beat.parentLost = true ∧ t.rd R.BEAT_STAT_LOCK = 3 ∧ t.word R.RATE_ADJ = s.word R.RATE_ADJ ∧ (t.fport q).edge = none ∧ t.mem = s.mem) ∧
    (∀ a b, s.fab.parent = some a → s.bestParent = some b → let dep (x : Nat) : Nat := ((s.fport x).edge.map (fun e => e.1.toNat)).getD 63
      (dep b + 2 ≤ dep a → ∃ t, exec .parentSwitch s = .next t ∧ t.fab.parent = some b ∧ t.out = s.out ∧ t.mem = s.mem ∧
        (b < 8 → t.bit (R.FP_STAT_PARENT b) = true)) ∧
      (dep a < dep b + 2 → ∃ t, exec .parentSwitch s = .next t ∧ Says.regsOnly s t []))

namespace Sys2Proof.Says

open Sys2Proof.Machine

/-- Counter f counts one more, to its maximum. -/
def counted (s t : State) (f : Fld) : Prop := t.rd f = min (s.rd f + 1) (2 ^ f.w - 1)

/-- The LACK that port p owes on a VL (R371). -/
def lackOf (s : State) (p vl : Nat) (nak : Bool) : Out :=
  .fabric p (.block (lackWord vl nak ((s.linkOf p vl).expect - 1) (s.linkOf p vl).freed))

end Sys2Proof.Says

/-- On an UP port with LOOP 0, the words of a VL1 to VL3 frame with a bad CRC are counted and, like a frame out of
sequence or one that fails its tag or comes unencrypted where the port encrypts, ask once by a NAK for the expected
LSEQ. A frame in sequence advances LSEQ and frees its credits; a form that R368 does not allow counts in FTYPE_ERR; a
queue message for the own address or node 0 enters its queue behind a long 0 with type 5, source and VL, or, refused,
counts in QMSG_DROP; for another address it goes on with TTL one less, and without a route counts in DROP_NOROUTE,
with TTL 0 in DROP_TTL. What the line corrected counts besides, and an uncorrectable codeword asks for a whistle
where WH_FAULT_EN has bit 7. A LACK without NAK takes off all frames up to its ACK, one with NAK resends the rest as
the windows let it; LACK_SEND reports; a retry resends every unacknowledged frame unchanged and counts each in
FP_RETRY, a frame resent 16 times retrains the port, and with none nothing happens. QMSG_TX takes the oldest message
of the bound queue, sends it toward its node, and drops one with a bad long 0. -/
def Obligations.LinkFrameResults : Prop :=
  ∀ (s : State) (p : BitVec 3) (w : RxFrame), let n := p.toNat
    let f := s.frameAt n w.words
    let u := s.fabLine n w.line
    let vl := f.vl.toNat
    let l := s.linkOf n vl
    (w.line.fecUnc ≠ 0 → s.rd R.WH_FAULT_EN_R523 / 2 ^ 7 % 2 = 1 → s.bit R.BEAT_STAT_RUNNING = true → s.wh.reqs = [] →
      u.bit (R.FP_EVT_FEC_UNC n) = true ∧ u.wh.reqs = [⟨5, 0xFF07, 7, none, s.time, none⟩]) ∧
    (s.domOn (domFabric n) = true → s.fpLoop n = false → s.fpUp n = true → f.vl ≠ 0 → (w.line.fecUnc = 0 ∨ s.rd R.WH_FAULT_EN_R523 / 2 ^ 7 % 2 = 0) →
    let naked (t : State) : Prop := t.mem = s.mem ∧ t.qeng = s.qeng ∧ t.linkOf n vl = { l with nak := true } ∧
      t.out = s.out ++ (if l.nak = true then [] else [Says.lackOf s n vl true])
    let took (t : State) : Prop := t.linkOf n vl = { l with expect := l.expect + 1, nak := false, freed := l.freed + BitVec.ofNat 16 (frameCredits f.len.toNat) } ∧
      Says.counted u t (R.RX_BE_V n)
    (u.rd (R.FP_FEC_CORR_V n) = min (s.rd (R.FP_FEC_CORR_V n) + w.line.fecCorr.toNat) (2 ^ (R.FP_FEC_CORR_V n).w - 1) ∧
      u.rd (R.FP_FEC_UNC_V n) = min (s.rd (R.FP_FEC_UNC_V n) + w.line.fecUnc.toNat) (2 ^ (R.FP_FEC_UNC_V n).w - 1) ∧
      u.rd (R.FP_CRC_ERR_V n) = min (s.rd (R.FP_CRC_ERR_V n) + w.line.unknown.toNat) (2 ^ (R.FP_CRC_ERR_V n).w - 1)) ∧
    (f.crcOk = false → ∃ t, exec (.vlFrameRx p w) s = .next t ∧ naked t ∧ Says.counted u t (R.FP_CRC_ERR_V n)) ∧
    (f.crcOk = true → f.seq ≠ l.expect → ∃ t, exec (.vlFrameRx p w) s = .next t ∧ naked t ∧ t.hreg = u.hreg) ∧
    (f.crcOk = true → f.seq = l.expect → f.load ≠ .token → f.tagOk = false ∨ f.enc ≠ s.bit (R.FP_STAT_ENC n) →
      ∃ t, exec (.vlFrameRx p w) s = .next t ∧ naked t ∧ Says.counted u t (R.FP_GCM_FAIL_V n)) ∧
    (f.crcOk = true → f.seq = l.expect → f.tagOk = true → f.enc = s.bit (R.FP_STAT_ENC n) →
      (ftypeOk f = false ∨ f.wOk = false ∨ 2048 < f.len.toNat → ∃ t, exec (.vlFrameRx p w) s = .next t ∧ took t ∧ Says.counted u t R.FTYPE_ERR_V ∧ t.mem = s.mem ∧
        t.qeng = s.qeng ∧ t.out = s.out) ∧
      (∀ (dq : BitVec 16) (x : List Long), f.load = .qmsg dq x → f.wOk = true → f.len.toNat ≤ 2048 →
        (f.dst = 0 ∨ s.ownAddr ≠ 0 ∧ f.dst.toNat = s.ownAddr →
          (s.domOn domQueue = true → Says.accepts s dq.toNat → ∃ t, exec (.vlFrameRx p w) s = .next t ∧ took t ∧ t.mem = s.mem ∧ (t.queue dq.toNat).msgs =
            (s.queue dq.toNat).msgs ++ [{ longs := BitVec.ofNat 40 (5 * 2 ^ 36 + f.src.toNat * 2 ^ 20 + vl * 2 ^ 18) :: x }]) ∧
          (s.domOn domQueue = false → ∃ t, exec (.vlFrameRx p w) s = .next t ∧ took t ∧ Says.counted u t R.QMSG_DROP_V ∧ t.bit R.PACK_EVT_QMSG_DROP = true ∧ t.qeng = s.qeng)) ∧
        (f.dst ≠ 0 → f.dst.toNat ≠ s.ownAddr → f.dst.toNat < 0xF000 →
          (f.ttl = 0 → ∃ t, exec (.vlFrameRx p w) s = .next t ∧ took t ∧ Says.counted u t R.DROP_TTL_V ∧ t.out = s.out ∧ t.qeng = s.qeng) ∧
          (f.ttl ≠ 0 → routeValid (s.route f.dst.toNat) = false → ∃ t, exec (.vlFrameRx p w) s = .next t ∧ took t ∧ Says.counted u t R.DROP_NOROUTE_V ∧
            t.bit R.PACK_EVT_NOROUTE = true ∧ t.out = s.out ∧ t.qeng = s.qeng) ∧
          (let q := routePri (s.route f.dst.toNat);
            f.ttl ≠ 0 → routeValid (s.route f.dst.toNat) = true → s.fpUp q = true → q ≠ n → ∃ t, exec (.vlFrameRx p w) s = .next t ∧ took t ∧ t.qeng = s.qeng ∧ t.mem = s.mem ∧
              Says.onVl t q vl = Says.onVl s q vl ++ [{ (s.dress q { f with ttl := f.ttl - 1 }) with seq := 0 }])))) ∧
    (∃ t, exec (.lackSend p f.vl) s = .next t ∧ Says.fportOnly s t n [] ∧ t.fab = s.fab ∧ t.out = s.out ++ [Says.lackOf s n vl l.nak]) ∧
    (∀ ack cr : BitVec 16, s.waitingOn n = 0 → let left := l.unacked.filter (fun x => !decide ((ack - x.seq).toNat < 2 ^ 15))
      (∃ t, exec (.lack p f.vl false ack cr) s = .next t ∧ Says.fportOnly s t n [] ∧ t.out = s.out ∧ t.linkOf n vl = { l with unacked := left, crtot := cr }) ∧
      ((∀ x ∈ left, x.tries < 16) → (left.map (·.seq)).Nodup → s.schedIn = [] → (s.fport n).window = 0 → ∃ t, exec (.lack p f.vl true ack cr) s = .next t ∧
        Says.fportOnly s t n [R.FP_RETRY n] ∧ t.out = s.out ++ left.map (fun x => .fabric n (.frame x.words)) ∧
        t.linkOf n vl = { l with unacked := left.map (fun x => { x with tries := x.tries + 1 }), crtot := cr })) ∧
    (l.unacked = [] → ∃ t, exec (.retryTimeout p f.vl) s = .next t ∧ Says.regsOnly s t []) ∧
    (l.unacked ≠ [] → (∀ x ∈ l.unacked, x.tries < 16) → (l.unacked.map (·.seq)).Nodup → s.waitingOn n = 0 → s.schedIn = [] → (s.fport n).window = 0 →
      ∃ t, exec (.retryTimeout p f.vl) s = .next t ∧ Says.fportOnly s t n [R.FP_RETRY n] ∧
      t.out = s.out ++ l.unacked.map (fun x => .fabric n (.frame x.words)) ∧
      t.rd (R.FP_RETRY_V n) = min (s.rd (R.FP_RETRY_V n) + l.unacked.length) (2 ^ (R.FP_RETRY_V n).w - 1)) ∧
    ((∃ x ∈ l.unacked, 16 ≤ x.tries) → ∃ t, exec (.retryTimeout p f.vl) s = .next t ∧ t.fpState n = fpTraining ∧ t.mem = s.mem) ∧
    (∀ (q : Nat) (x : List Long) (r : List Msg), s.domOn domQueue = true → s.fab.txq = [q] → (s.queue q).broken = false → (s.queue q).msgs = { longs := x } :: r →
      let l0 := x.headD 0
      let dst := bitsOf l0 22 16
      let pri := routePri (s.route dst)
      (qmsgOk l0 = false → ∃ t, exec .qmsgTx s = .next t ∧ (t.queue q).msgs = r ∧ Says.counted s t R.QMSG_DROP_V ∧ t.bit R.PACK_EVT_QMSG_DROP = true ∧
        t.mem = s.mem ∧ t.out = s.out) ∧
      (qmsgOk l0 = true → dst < 0xF000 → dst ≠ s.ownAddr → routeValid (s.route dst) = true → s.fpUp pri = true → ∃ t, exec .qmsgTx s = .next t ∧ (t.queue q).msgs = r ∧ t.mem = s.mem ∧
        Says.onVl t pri (bitsOf l0 38 2) = Says.onVl s pri (bitsOf l0 38 2) ++
          [s.dress pri (s.newFrame (bitsOf l0 38 2) dst (.qmsg (BitVec.ofNat 16 (bitsOf l0 6 16)) x.tail))])) ∧
    (s.fab.txq = [] → ∃ t, exec .qmsgTx s = .next t ∧ Says.regsOnly s t []))

/-- On an UP port with LOOP 0, a VL0 frame counts in RX_VL0; while VL0 is not allowed it is dropped and counted in
VL0_NOSCHED, as is one that no entry forwards and that is not delivered here. One that a FORWARD entry takes outside
its window is held. An opening window, while the beat runs and VL0 is allowed, lets a held frame that fits leave
whole and counts it in TX_VL0; where VL0 is not allowed its held frames are dropped. The last window's close sends
the token. A token says whether another is expected; one that is missing counts once. A frame held too long is
dropped and counted in VL0_LATE. A pack whistle in time is armed, any other counts in WHISTLE_LATE. A fault report
opens an entry, or adds its PARTNERS, to at most 65,535, to the open entry of its key; a closing entry whose sink is
here leaves the list for the host's events. -/
def Obligations.ScheduledTrafficResults : Prop :=
  ∀ (s : State) (p : BitVec 3) (w : RxFrame) (e : BitVec 12), let n := p.toNat
    let f := s.frameAt n w.words
    let u := s.fabLine n w.line
    let k := e.toNat
    let loss (t : State) (c : Fld) : Prop := Says.counted s t c ∧ t.bit R.PACK_EVT_VL0_LOSS = true ∧ t.mem = s.mem ∧ t.out = s.out
    (s.domOn (domFabric n) = true → s.fpLoop n = false → s.fpUp n = true →
      (f.vl = 0 → (w.line.fecUnc = 0 ∨ s.rd R.WH_FAULT_EN_R523 / 2 ^ 7 % 2 = 0) → f.crcOk = true → f.tagOk = true → f.enc = s.bit (R.FP_STAT_ENC n) → f.wOk = true → f.len.toNat ≤ 2048 → (∃ a b c d e' g h, f.load = .stream a b c d e' g h) →
        (s.vl0Ok = false → ∃ t, exec (.vl0FrameRx p w) s = .next t ∧ loss t R.VL0_NOSCHED_V ∧ Says.counted u t (R.RX_VL0_V n) ∧ t.fab.held = s.fab.held) ∧
        (s.vl0Ok = true → s.vl0Here f = false →
          (s.schedIn = [] → ∃ t, exec (.vl0FrameRx p w) s = .next t ∧ loss t R.VL0_NOSCHED_V ∧ Says.counted u t (R.RX_VL0_V n)) ∧
          (∀ x : SchedEnt, s.schedIn = [(k, x)] → x.kind = 2 → x.flow = f.seq → x.inp.toNat = n → (s.fport x.port.toNat).window ≠ k + 1 →
            ∃ t, exec (.vl0FrameRx p w) s = .next t ∧ t.fab.held = s.fab.held ++ [⟨k, f, s.time⟩] ∧ Says.counted u t (R.RX_VL0_V n) ∧ t.out = s.out ∧ t.mem = s.mem))) ∧
      (∀ (b : BitVec 48) (last : Bool), ∃ t, exec (.token p b last) s = .next t ∧ Says.fportOnly s t n [R.RX_VL0 n] ∧ t.out = s.out ∧
        t.fport n = { s.fport n with expectTok := !last, gotTok := true } ∧ Says.counted s t (R.RX_VL0_V n)) ∧
      ((s.fport n).expectTok = true → (s.fport n).gotTok = false → ∃ t, exec (.tokenMiss p) s = .next t ∧ Says.counted s t R.TOKEN_MISS_V ∧
        t.bit R.PACK_EVT_TOKEN_MISS = true ∧ t.mem = s.mem ∧ t.cores = s.cores) ∧
      ((s.fport n).expectTok = false ∨ (s.fport n).gotTok = true → ∃ t, exec (.tokenMiss p) s = .next t ∧ Says.regsOnly s t [])) ∧
    (s.entry k = none → ∀ ins ∈ [Instr.vl0WindowOpen e, .vl0WindowClose e], ∃ t, exec ins s = .next t ∧ Says.regsOnly s t []) ∧
    (∀ x : SchedEnt, s.entry k = some x → let q := x.port.toNat
      (s.beat.phase ≠ .stopped → s.beat.first = none →
        (s.vl0Ok = false → ∃ t, exec (.vl0WindowOpen e) s = .next t ∧ t.fab.held = s.fab.held.filter (fun h => h.entry ≠ k) ∧ t.out = s.out ∧ t.mem = s.mem ∧
          t.rd R.VL0_NOSCHED_V = min (s.rd R.VL0_NOSCHED_V + (s.fab.held.filter (fun h => h.entry = k)).length) (2 ^ R.VL0_NOSCHED_V.w - 1)) ∧
        (s.vl0Ok = true → s.fpUp q = true → x.kind = 2 → ∀ g at0, s.fab.held = [⟨k, g, at0⟩] → g.crcOk = true →
          max s.time (s.beat.lastEdge + x.start.toNat * nsU) + s.blocksU q (frameW (s.dress q g).len.toNat + 1) ≤ s.beat.lastEdge + x.start.toNat * nsU + x.length.toNat * nsU →
          ∃ t, exec (.vl0WindowOpen e) s = .next t ∧ t.fab.held = [] ∧ (t.fport q).window = k + 1 ∧ t.out = s.out ++ [.fabric q (.frame (frameWords (s.fport q).tx (s.dress q g)))] ∧
            Says.counted s t (R.TX_VL0_V q) ∧ t.mem = s.mem ∧ s.beat.lastEdge + x.start.toNat * nsU ≤ t.time)) ∧
      ((s.fport q).window = k + 1 → s.waitingOn q = 0 → (∀ y ∈ s.schedIn, y.2.port = x.port → y.2.start.toNat ≤ x.start.toNat) → s.vl0Ok = true → s.fpUp q = true →
        ∃ t g, exec (.vl0WindowClose e) s = .next t ∧ (t.fport q).window = 0 ∧ t.out = s.out ++ [.fabric q (.frame (frameWords none g))] ∧ g.load = .token ∧ g.vl = 0 ∧ g.last = false ∧
          g.dst = 0 ∧ g.beat = s.beat.num ∧ t.mem = s.mem)) ∧
    (∀ h r, s.fab.held = h :: r → h.entry = k → ∃ t, exec (.vl0Late e) s = .next t ∧ t.fab.held = r ∧ loss t R.VL0_LATE_V) ∧
    ((∀ h ∈ s.fab.held, h.entry ≠ k) → ∃ t, exec (.vl0Late e) s = .next t ∧ Says.regsOnly s t []) ∧
    (∀ (tag : BitVec 16) (b : BitVec 48),
      let ok := s.aligned = true ∧ s.bit R.TR_CTRL_WHISTLE_EN = true ∧ s.beat.phase ≠ .stopped ∧ s.time + 2000 * nsU ≤ s.edgeAt b ∧ s.wh.armed.length < 16
      (ok → ∃ t, exec (.whistle tag b) s = .next t ∧ t.wh = { s.wh with armed := s.wh.armed ++ [(b, tag)] } ∧ t.hreg = s.hreg ∧ t.out = s.out ∧ t.mem = s.mem) ∧
      (¬ ok → ∃ t, exec (.whistle tag b) s = .next t ∧ Says.regsOnly s t [R.WHISTLE_LATE, R.PACK_EVT] ∧ Says.counted s t R.WHISTLE_LATE_V ∧
        t.bit R.PACK_EVT_WHISTLE_LATE = true)) ∧
    (∀ r : FaultRep, (s.core 1024).takes = true → s.boot.rom = false → s.rd R.FR_CTRL_WINDOW ≠ 0 →
      ((∀ o ∈ s.fab.open_, sameKey o.rep r = false) → s.time ≤ s.repClose r → s.fab.open_.length < 256 → ∃ t, exec (.faultReport r) s = .next t ∧
        t.fab = { s.fab with open_ := s.fab.open_ ++ [⟨r, s.repClose r⟩] } ∧ t.rd R.FR_STAT_V = s.fab.open_.length + 1 ∧ Says.words s t [R.FR_STAT] ∧ t.out = s.out) ∧
      (∀ o, s.fab.open_ = [o] → sameKey o.rep r = true → ∃ t o', exec (.faultReport r) s = .next t ∧ t.fab = { s.fab with open_ := [o'] } ∧ o'.closes = o.closes ∧
        o'.rep.partners.toNat = min (o.rep.partners.toNat + r.partners.toNat) 65535 ∧ o'.rep.t.toNat = min o.rep.t.toNat r.t.toNat ∧
        o'.rep.self = (o.rep.self || r.self) ∧ o'.rep.late = (o.rep.late || r.late) ∧ o'.rep.code = o.rep.code ∧ t.out = s.out ∧ t.hreg = s.hreg)) ∧
    (∀ (j : Octet) (o : FrEntry), s.fab.open_[j.toNat]? = some o → s.repHere o.rep = true → s.fab.open_.length ≤ 256 → ∃ t, exec (.frEntryClose j) s = .next t ∧
      t.fab = { s.fab with open_ := s.fab.open_.eraseIdx j.toNat } ∧ t.out = s.out ∧ t.mem = s.mem ∧ t.rd R.FR_STAT_V = s.fab.open_.length - 1)

/-- Each framed 0x04xx command of a mailbox completes. PACK_STATUS answers address, state, role, depth, root, master,
record count and ROUTE_GEN; ROUTE_READ the entries, LSDB_READ the count and records, SCHED_READ the entries in force,
zeros where there is none; a count of 0 answers BAD_PARAM. With no commit pending, SCHED_STAGE, SCHED_DROP and
GROUP_STAGE stage entries, removals and a group; with one they answer BUSY. ASYM_SAVE writes FP_ASYM at once and
keeps the value as a configuration item. FAB_TXQ binds a queue, at most 64, and unbinds one. FAB_SEND of a message
that R386 does not allow answers BAD_PARAM; its message goes toward its node, or, with no route, counts in
DROP_NOROUTE. -/
def Obligations.PackCommandResults : Prop :=
  ∀ (s : State) (h : BHdr), let pend := s.bit R.COMMIT_STAT_PENDING
    (Says.framed s h 0 24 → Says.completes (.packStatus h) s h stOk (Says.num 2 (s.rd R.NODE_ADDR_ADDR) ++ Says.num 1 (s.rd R.PACK_STAT_ADDR_STATE)
      ++ Says.num 1 (s.rd R.BEAT_STAT_ROLE) ++ Says.num 1 (s.rd R.PACK_STAT_DEPTH) ++ [0] ++ Says.num 2 (((rootOf s.segment).map (fun r => r.addr.toNat)).getD 0)
      ++ Says.num 8 ((s.fab.master.map (fun x => x.toNat)).getD 0) ++ Says.num 2 s.liveDb.length ++ [0, 0] ++ Says.num 4 (s.rdW R.ROUTE_GEN)) s) ∧
    (∀ a n : BitVec 16, Says.framed s h 4 (5 * n.toNat) →
      (1 ≤ n.toNat → a.toNat + n.toNat ≤ 4096 → Says.completes (.routeRead h a n) s h stOk (Says.longs ((List.range n.toNat).map (fun k => s.route (a.toNat + k)))) s) ∧
      (n = 0 → Says.completes (.routeRead h a n) s h stBadParam [] s)) ∧
    (∀ a n : BitVec 16, Says.framed s h 4 (4 + 154 * n.toNat) → 1 ≤ n.toNat → n.toNat ≤ 64 → s.liveDb.length ≤ a.toNat →
      Says.completes (.lsdbRead h a n) s h stOk [0, 0, 0, 0] s) ∧
    (∀ (a : BitVec 16) (l : List SchedEnt), Says.framed s h (4 + 16 * l.length) → 1 ≤ l.length → l.length ≤ 256 → a.toNat + l.length ≤ 4096 →
      (pend = true → Says.completes (.schedStage h a l) s h stBusy [] s) ∧
      (pend = false → ∃ m, Says.completes (.schedStage h a l) s h stOk [] { s with fab := { s.fab with schedStage := m } } ∧
        ∀ k, mget (fun _ => none) m k = if a.toNat ≤ k ∧ k < a.toNat + l.length then some l[k - a.toNat]? else mget (fun _ => none) s.fab.schedStage k)) ∧
    (∀ a n : BitVec 16, Says.framed s h 4 → 1 ≤ n.toNat → a.toNat + n.toNat ≤ 4096 →
      (pend = true → Says.completes (.schedDrop h a n) s h stBusy [] s) ∧
      (pend = false → ∃ m, Says.completes (.schedDrop h a n) s h stOk [] { s with fab := { s.fab with schedStage := m } } ∧
        ∀ k, mget (fun _ => none) m k = if a.toNat ≤ k ∧ k < a.toNat + n.toNat then some none else mget (fun _ => none) s.fab.schedStage k)) ∧
    (∀ a n : BitVec 16, Says.framed s h 8 (16 * n.toNat) → 1 ≤ n.toNat → n.toNat ≤ 256 → a.toNat + n.toNat ≤ 4096 →
      Says.completes (.schedRead h a n 0) s h stOk ((List.range n.toNat).map (fun k => match s.entry (a.toNat + k) with
        | some e => Says.num 2 e.flow.toNat ++ [e.port, e.kind] ++ Says.num 4 e.start.toNat ++ Says.num 4 e.length.toNat ++ [e.inp] ++ Says.num 2 e.sub.toNat ++ [0]
        | none => List.replicate 16 0)).flatten s) ∧
    (∀ (g : BitVec 16) (fl : Octet) (l : List (BitVec 16)), Says.framed s h (4 + 2 * l.length) → fl.toNat ≤ 1 → l.length ≤ 64 → pend = false → s.fab.groupStage.length < 256 →
      ∃ m, Says.completes (.groupStage h g fl l) s h stOk [] { s with fab := { s.fab with groupStage := m } } ∧
        lookup m g.toNat = some (some (fl == 1, l.map (fun x => x.toNat))) ∧ ∀ k, k ≠ g.toNat → lookup m k = lookup s.fab.groupStage k) ∧
    (∀ (p : Octet) (v : Reg32), Says.framed s h 8 → p.toNat < 8 → s.jState = jRunning → ∃ t, exec (.asymSave h p v) s = .next t ∧ Says.answers s t h stOk [] ∧
      t.word (R.FP_ASYM p.toNat) = v ∧ mget (fun _ => none) t.jrn.items (0x00010010 + p.toNat) = some (1, Says.num 4 v.toNat) ∧ t.mem = s.mem) ∧
    (∀ p v, Says.framed s h 8 → 8 ≤ BitVec.toNat p → Says.completes (.asymSave h p v) s h stBadParam [] s) ∧
    (∀ q : BitVec 16, Says.framed s h 4 →
      (q.toNat ∉ s.fab.txq → s.fab.txq.length < 64 → Says.completes (.fabTxq h q 1) s h stOk [] { s with fab := { s.fab with txq := s.fab.txq ++ [q.toNat] } }) ∧
      (q.toNat ∉ s.fab.txq → 64 ≤ s.fab.txq.length → Says.completes (.fabTxq h q 1) s h stNoSpace [] s) ∧
      Says.completes (.fabTxq h q 0) s h stOk [] { s with fab := { s.fab with txq := s.fab.txq.filter (fun x => x ≠ q.toNat) } }) ∧
    (∀ (l0 : Long) (l : List Long), Says.framed s h (5 * (l.length + 1)) →
      (7 < l.length ∨ qmsgOk l0 = false ∨ l0.extractLsb' 0 6 ≠ 0 → Says.completes (.fabSend h (l0 :: l)) s h stBadParam [] s) ∧
      (l.length ≤ 7 → qmsgOk l0 = true → l0.extractLsb' 0 6 = 0 → let dst := bitsOf l0 22 16
        let pri := routePri (s.route dst)
        dst < 0xF000 → dst ≠ s.ownAddr →
          (routeValid (s.route dst) = false → ∃ t, exec (.fabSend h (l0 :: l)) s = .next t ∧ Says.answers s t h stOk [] ∧
            Says.counted s t R.DROP_NOROUTE_V ∧ t.bit R.PACK_EVT_NOROUTE = true ∧ t.mem = s.mem ∧ t.qeng = s.qeng) ∧
          (routeValid (s.route dst) = true → s.fpUp pri = true → ∃ t, exec (.fabSend h (l0 :: l)) s = .next t ∧ Says.answers s t h stOk [] ∧
            Says.onVl t pri (bitsOf l0 38 2) = Says.onVl s pri (bitsOf l0 38 2) ++ [s.dress pri (s.newFrame (bitsOf l0 38 2) dst (.qmsg (BitVec.ofNat 16 (bitsOf l0 6 16)) l))] ∧
            t.mem = s.mem ∧ t.qeng = s.qeng)))

namespace Sys2Proof.Says

open Sys2Proof.Machine

/-- The journal engine has nothing under way and nothing it would begin of itself: no seal, compaction, stop or power-fail sequence, every
filled ARCHIVE segment in the index, at most 8 segments in the INDEX and CONFIG chains, no segment to be released, in ring mode one
free beyond the reserves; no domain waits for a transition. -/
def quiet (s : State) : Prop :=
  s.jrn.release = [] ∧ (s.jrn.ring = true → 0 < s.commonSegs) ∧ s.jrn.sealing = none ∧ s.jrn.sealTodo = [] ∧ s.jrn.pf = none ∧ s.jrn.compact = none ∧ s.jrn.stopping = none ∧ s.pwr.slot = [] ∧
    (∀ g ∈ s.jrn.segs, g.chain = 0 → g.filled = true → g.indexed = true) ∧
    (∀ c, c = 1 ∨ c = 2 → (s.jrn.segs.filter (fun g => g.chain = c)).length ≤ 8)

/-- Only the journal, its counts of blocks and segments, and the BAR0 words of l differ, but for what a settled state senses and offers. -/
def jrnOnly (s t : State) (l : List Nat) : Prop :=
  t = { s with hreg := t.hreg, jrn := t.jrn, out := t.out, dev := t.dev, cics := t.cics } ∧ sensed s t ∧ words s t (R.BUF_USED :: R.FREE_SEG :: l)

/-- Octets b are a record (R404): TYPE, FLAGS, LENGTH, BEAT, the body padded to 8 octets. -/
def isRecord (b : List Octet) (typ flags : Nat) (beat : BitVec 48) (body : List Octet) : Prop :=
  ∃ z, z < 8 ∧ b.length % 8 = 0 ∧ b = num 1 typ ++ num 1 flags ++ [0, 0] ++ num 4 (16 + body.length + z) ++ num 6 beat.toNat ++ [0, 0] ++ body
    ++ List.replicate z 0

/-- The highest closed BSEQ of the ARCHIVE chain. -/
def headNow (s : State) : Nat := s.nextBseq 0 - (if s.openBlock 0 = none then 0 else 1) - 1

/-- The journal refuses r: it counts in f, J_EVT.DROP sets, and the next of its type and subject is to carry LOSS (R409). -/
def recRefused (s t : State) (r : JRec) (f : Fld) (l : List Nat) : Prop :=
  jrnOnly s t ([f.off, R.J_EVT] ++ l) ∧ counted s t f ∧ t.bit R.J_EVT_DROP = true ∧ t.out = s.out ∧
    (∃ z, t.jrn = { s.jrn with lossOf := z } ∧ ∀ k, k ∈ z ↔ k ∈ s.jrn.lossOf ∨ k = (r.rtype.toNat, r.subject))

/-- Command h has been taken and is in progress: nothing completes it yet (R475). -/
def waits (s t : State) (h : BHdr) : Prop :=
  let m := h.ch.toNat
  t.rd (R.MB_STAT_CHEAD m) = (s.rd (R.MB_STAT_CHEAD m) + 1) % s.cmdSize m % 4096 ∧ t.rd (R.MB_STAT_CTAIL m) = s.rd (R.MB_STAT_CTAIL m) ∧
    ((t.chan m).busy.map (fun b => b.tag)) = some h.tag

end Sys2Proof.Says

/-- Of a record of types 0x01 to 0x07 and 0x0A with a body of at most 1,024 octets: RUNNING admits it to the open
ARCHIVE block while BUF_USED is below BUF_CEIL, a bulk record below BUF_CEIL - 4 and above the reserve of segments,
with LOSS if one of its type and subject was refused; else it counts in DROP_ESS or DROP_BULK, as every record does
in FULL. OFF, RECOVERING, READY and FAILED hold an essential record while the hold area has room. PF_HALT and the
power-fail sequence count an essential one in PF_REFUSED. RECOVERY_DONE without a usable namespace ends in FAILED;
the first of a new archive discards, writes a block with RECOV that holds a POWER_FAIL record, starts its seal, and
enters RUNNING. PWRFAIL_N in RUNNING or FULL closes the open block and starts the sequence; elsewhere the journal
stays as it is. Its rise clears PF_PIN, and a sequence keeps that it returned. A link change sets S_STAT; HEAD_LO and
SEALED_LO latch their upper halves. -/
def Obligations.JournalRecordResults : Prop :=
  ∀ s : State, s.pwr.slot = [] →
    (∀ r : JRec, let y := r.rtype.toNat
      let ess := 4 ≤ y ∧ y ≤ 10
      (1 ≤ y ∧ y ≤ 7 ∨ y = 10) → r.body.length ≤ 1024 →
      (s.jState = 4 → s.jrn.pf = none → ∃ t, exec (.recordAdmit r) s = .next t ∧ Says.recRefused s t r (if 4 ≤ y then R.DROP_ESS_V else R.DROP_BULK_V) []) ∧
      (s.jState = 0 ∨ s.jState = 1 ∨ s.jState = 2 ∨ s.jState = 6 → s.jrn.pf = none →
        (ess → s.holdTakes r = true → ∃ t, exec (.recordAdmit r) s = .next t ∧ Says.jrnOnly s t [] ∧ t.jrn = { s.jrn with hold := s.jrn.hold ++ [r] } ∧ t.out = s.out) ∧
        (ess → s.holdTakes r = false → ∃ t, exec (.recordAdmit r) s = .next t ∧ Says.recRefused s t r R.DROP_ESS_V []) ∧
        (¬ ess → ∃ t, exec (.recordAdmit r) s = .next t ∧ Says.recRefused s t r R.DROP_BULK_V [])) ∧
      (s.jState = 5 ∨ s.jrn.pf ≠ none → ess → ∃ t z, exec (.recordAdmit r) s = .next t ∧ Says.jrnOnly s t [R.PF_REFUSED] ∧ t.jrn = { s.jrn with lossOf := z } ∧
        (∀ k, k ∈ z ↔ k ∈ s.jrn.lossOf ∨ k = (y, r.subject)) ∧ t.out = s.out ∧ Says.counted s t R.PF_REFUSED_V) ∧
      (s.jState = 3 → s.jrn.pf = none → s.jrn.ring = false → let ceil := s.rd R.BUF_CEIL_V
        let left (c : Nat) : Nat := 2 * s.nsInUse.length - mget (fun _ => 0) s.jrn.dip c
        let ok := if 4 ≤ y then s.bufUsed < ceil else s.bufUsed + 4 < ceil ∧ left 0 + left 1 + left 2 < s.freeSegs
        (∀ b, s.openBlock 0 = some b → (b.recs.map (fun x => x.octets.length)).sum + r.body.length + 23 ≤ 1048384 → ok →
          ∃ t x, exec (.recordAdmit r) s = .next t ∧ Says.jrnOnly s t [] ∧ t.out = s.out ∧ t.openBlock 0 = some { b with recs := b.recs ++ [x] } ∧ x.rtype = y ∧
            x.flags = (if (y, r.subject) ∈ s.jrn.lossOf then 1 else 0) + (if r.part = true then 2 else 0) + (if r.last = true then 4 else 0) ∧ x.subject = r.subject ∧
            x.beat = r.beat ∧ Says.isRecord x.octets y x.flags r.beat r.body ∧ (y, r.subject) ∉ t.jrn.lossOf) ∧
        (¬ ok → ∃ t, exec (.recordAdmit r) s = .next t ∧ Says.recRefused s t r (if 4 ≤ y then R.DROP_ESS_V else R.DROP_BULK_V) []))) ∧
    (∀ r : RecoveryScan,
      (s.jState ≠ 1 ∨ s.jrn.entering = true → ∃ t, exec (.recoveryDone r) s = .next t ∧ Says.regsOnly s t []) ∧
      (s.jState = 1 → s.jrn.entering = false →
        (r.usable = 0 → ∃ t, exec (.recoveryDone r) s = .next t ∧ t.jState = 6 ∧ t.jrn = s.jrn ∧ t.out = s.out ∧ t.mem = s.mem) ∧
        (Says.quiet s → s.jrn.blocks = [] → s.jrn.segs = [] → s.jrn.dip = [] → s.jrn.hold = [] → (∀ p, (s.port p).sensors = []) → s.jrn.archive ≠ none → r.lastGood = none →
          ∀ p, p < 4 → r.usable.toNat = 2 ^ p → s.rd (R.S_STAT_NSSTATE p) ≠ 3 → mget (fun _ => 0) s.jrn.nsSegs p ≠ 0 →
          ∃ t b x, exec (.recoveryDone r) s = .next t ∧ t.jState = 3 ∧ t.jrn.recovered = true ∧ t.nsInUse = [p] ∧ t.rd (R.S_STAT_NSSTATE p) = 1 ∧
            t.rdW (R.S_RATE p) = (r.rates.getD p 0).toNat * 9 / 10 ∧ t.rd R.REC_DISCARD_V = min (s.rd R.REC_DISCARD_V + r.discarded.toNat) (2 ^ 32 - 1) ∧
            t.jrn.blocks = [b] ∧ b.chain = 0 ∧ b.bseq = 0 ∧ b.state = .closed ∧ b.bflags / 4 % 2 = 1 ∧ b.recs = [x] ∧ x.rtype = 10 ∧
            (t.jrn.sealing.map (fun z => (z.chain, z.bseq, z.asked))) = some (0, 0, false) ∧ t.out = s.out ++ [.nvme p (.write 0 0 false)] ∧ t.mem = s.mem))) ∧
    (∃ t, exec .pwrfailNRelease s = .next t ∧ Says.words s t [R.J_STAT] ∧ t = { s with hreg := t.hreg, jrn := t.jrn, dev := t.dev, cics := t.cics } ∧
      t.bit R.J_STAT_PF_PIN = false ∧ t.jrn = { s.jrn with pinBack := s.jrn.pf.isSome } ∧ t.jState = s.jState) ∧
    (s.jState = 3 ∨ s.jState = 4 → Says.quiet s → ∀ b, s.jrn.blocks = [b] → b.state = .opened → b.chain < 3 →
      ∃ t b', exec .pwrfailNAssert s = .next t ∧ Says.jrnOnly s t [R.J_STAT] ∧ t.bit R.J_STAT_PF_PIN = true ∧ t.jState = s.jState ∧
        t.jrn.pf = some ⟨s.time, 1, none, false⟩ ∧ t.jrn.blocks = [b'] ∧ b'.state = .closed ∧ b'.recs = b.recs ∧ b'.bseq = b.bseq ∧
        t.out = s.out ++ [.nvme b.ns (.write b.chain b.bseq true)]) ∧
    (s.jState ≠ 3 → s.jState ≠ 4 → s.jrn.pf = none → ∃ t, exec .pwrfailNAssert s = .next t ∧ t.bit R.J_STAT_PF_PIN = true ∧ t.jrn = s.jrn ∧ t.jState = s.jState) ∧
    (∀ (port : BitVec 2) (l : StoreLink), let p := port.toNat
      let jOnly (t : State) : Prop := t = { s with hreg := t.hreg, jrn := t.jrn, dev := t.dev, cics := t.cics } ∧ Says.words s t [R.S_STAT p, R.S_EVT p]
      (s.domOn domStore = false → l.gen.toNat ≤ 3 → ∃ t, exec (.storeLinkChange port l) s = .next t ∧ Says.regsOnly s t []) ∧
      (s.domOn domStore = true → l.gen = 0 → ∃ t, exec (.storeLinkChange port l) s = .next t ∧ Says.regsOnly s t [R.S_STAT p, R.S_EVT p] ∧
        t.rd (R.S_STAT_LINK p) = 0 ∧ t.rd (R.S_STAT_WIDTH p) = 0 ∧ t.bit (R.S_STAT_READY p) = false ∧ (s.rd (R.S_STAT_LINK p) ≠ 0 → t.bit (R.S_EVT_LINKDN p) = true)) ∧
      (s.domOn domStore = true → 1 ≤ l.gen.toNat → l.gen.toNat ≤ 3 → ∃ t, exec (.storeLinkChange port l) s = .next t ∧ jOnly t ∧
        t.rd (R.S_STAT_LINK p) = l.gen.toNat ∧ t.rd (R.S_STAT_WIDTH p) = l.width.toNat ∧ t.bit (R.S_STAT_READY p) = l.ready ∧ t.bit (R.S_STAT_VWC p) = l.vwc ∧
        (s.rd (R.S_STAT_LINK p) = 0 → t.bit (R.S_EVT_LINKUP p) = true) ∧ mget (fun _ => 0) t.jrn.nsCap p = l.segs.toNat ∧ t.jrn = { s.jrn with nsCap := t.jrn.nsCap } ∧
        (let n := s.rd (R.S_STAT_NSSTATE p)
         t.rd (R.S_STAT_NSSTATE p) = if n = 1 ∨ n = 3 then n else if l.formatOk = true then 0 else 2))) ∧
    (let k := Says.headNow s
     ∃ t, exec .headLoRead s = .next t ∧ t = { s with hreg := t.hreg, out := t.out, dev := t.dev, cics := t.cics } ∧ Says.words s t [R.HEAD_HI] ∧
      t.out = s.out ++ [.readData R.HEAD_LO (k % 2 ^ 32)] ∧ t.rdW R.HEAD_HI = k / 2 ^ 32 % 2 ^ 32) ∧
    (let k := s.sealedOf 0 - 1
     ∃ t, exec .sealedLoRead s = .next t ∧ t = { s with hreg := t.hreg, out := t.out, dev := t.dev, cics := t.cics } ∧ Says.words s t [R.SEALED_HI] ∧
      t.out = s.out ++ [.readData R.SEALED_LO (k % 2 ^ 32)] ∧ t.rdW R.SEALED_HI = k / 2 ^ 32 % 2 ^ 32)

/-- A seal tick outside RUNNING and FULL, or in the power-fail sequence, does nothing; with a seal outstanding it
counts in SEAL_SKIP; else, with one open ARCHIVE block that holds records, it closes the block, EARLY if not full,
writes it, and fixes the head to be sealed. Once every block up to the head is durable, a request asks the kennel,
or, while the kennel does not sign, gives the seal up and sets SEAL_STALL. A signature raises SEALED_BSEQ, ends the
stall, and admits a SEAL record to the chain's open block; with none asked for nothing happens. A completed write is
durable, on a namespace with a write cache only after the Flush, or where it was written with FUA; a durable
tombstone releases its segment. A failed write or a command timed out counts and is repeated, at most three times;
then the namespace is lost: it leaves the rotation, a write goes unchanged to the other namespace, and with none left
the journal is FAILED. The end of the rate tests enters RUNNING. A slower window lowers S_RATE, and with it RATE_G
and BUF_CEIL. -/
def Obligations.JournalMediaResults : Prop :=
  ∀ s : State, s.pwr.slot = [] →
    ((s.jState ≠ 3 ∧ s.jState ≠ 4) ∨ s.jrn.pf ≠ none → ∃ t, exec .sealTick s = .next t ∧ Says.regsOnly s t []) ∧
    (s.jState = 3 → s.jrn.pf = none → s.ctxOn = [] → s.stewardRuns = true →
      (∀ x : Seal, Says.quiet { s with jrn := { s.jrn with sealing := none } } → s.jrn.sealing = some x → x.asked = true → s.openBlock 0 = none →
        ∃ t, exec .sealTick s = .next t ∧ Says.jrnOnly s t [R.SEAL_SKIP] ∧ t.jrn = s.jrn ∧ t.out = s.out ∧ Says.counted s t R.SEAL_SKIP_V) ∧
      (∀ b : Block, Says.quiet s → s.jrn.blocks = [b] → b.state = .opened → b.chain = 0 → b.recs ≠ [] → s.sealedOf 0 ≤ b.bseq →
        ∃ t b' x, exec .sealTick s = .next t ∧ Says.jrnOnly s t [] ∧ t.jrn.blocks = [b'] ∧ b'.state = .closed ∧ b'.bseq = b.bseq ∧ b'.recs = b.recs ∧ b'.ns = b.ns ∧
          b'.bflags = (b.bflags ||| (if (b.recs.map (fun x => x.octets.length)).sum + 16 ≤ 1048384 then 1 else 0)) ∧ b'.tClose = s.packNow ∧
          t.jrn.sealing = some x ∧ x.chain = 0 ∧ x.bseq = b.bseq ∧ x.head = Config.sha384 b'.header ∧ x.beat = s.beat.num ∧ x.asked = false ∧
          t.out = s.out ++ [.nvme b.ns (.write 0 b.bseq false)])) ∧
    (∀ x : Seal, s.jrn.sealing = some x → x.asked = false →
      ((∃ b ∈ s.jrn.blocks, b.chain = x.chain ∧ b.bseq ≤ x.bseq ∧ b.state ≠ .durable) → ∃ t, exec .sealRequest s = .next t ∧ Says.regsOnly s t []) ∧
      ((∀ b ∈ s.jrn.blocks, b.chain = x.chain → b.bseq ≤ x.bseq → b.state = .durable) → s.stewardRuns = true → let ready := s.knLive = true ∧ s.knState = knOperational ∧ s.bit R.KN_STAT_SEAL = true
        (ready → ∃ t, exec .sealRequest s = .next t ∧ Says.jrnOnly s t [] ∧ t.jrn = { s.jrn with sealing := some { x with asked := true } } ∧ t.out = s.out) ∧
        (¬ ready → Says.quiet { s with jrn := { s.jrn with sealing := none } } → ∃ t, exec .sealRequest s = .next t ∧ Says.jrnOnly s t [R.J_STAT, R.J_EVT] ∧
          t.jrn = { s.jrn with sealing := none } ∧ t.bit R.J_STAT_SEAL_STALL = true ∧ t.out = s.out))) ∧
    (∀ (x : Seal) (b : Block), s.jState = 3 → Says.quiet { s with jrn := { s.jrn with sealing := none } } → s.jrn.sealing = some x → x.asked = true → s.jrn.lossOf = [] →
      s.openBlock x.chain = some b → (b.recs.map (fun y => y.octets.length)).sum + 300 ≤ 1048384 → s.bufUsed < s.rd R.BUF_CEIL_V →
      ∃ t y sig, exec (.sealSigned true) s = .next t ∧ t.jrn.sealing = none ∧ t.sealedOf x.chain = x.bseq + 1 ∧ t.bit R.J_STAT_SEAL_STALL = false ∧
        t.openBlock x.chain = some { b with recs := b.recs ++ [y] } ∧ y.rtype = 8 ∧ sig.length = 96 ∧ Says.isRecord y.octets 8 0 s.beat.num (Says.num 1 x.chain ++ [0, 0, 0]
          ++ Says.num 8 x.bseq ++ Says.num 48 x.head.toNat ++ Says.num 10 (packTime x.t).toNat ++ Says.num 6 x.beat.toNat ++ Says.num 8 (Config.keyId s.kn.cur).toNat ++ sig) ∧
        t.out = s.out ∧ Says.words s t [R.J_STAT, R.BUF_USED, R.FREE_SEG]) ∧
    (s.jrn.sealing = none → ∀ ok, ∃ t, exec (.sealSigned ok) s = .next t ∧ Says.regsOnly s t []) ∧
    (∀ port : BitVec 2, let p := port.toNat
      (∀ (r : NvmeResult), s.cmdsOf p = [] → Says.quiet s → ∃ t, exec (.nvmeCompletion port r) s = .next t ∧ Says.jrnOnly s t [] ∧ t.jrn = s.jrn) ∧
      (s.cmdsOf p = [] → Says.quiet s → ∃ t, exec (.nvmeTimeout port) s = .next t ∧ Says.jrnOnly s t [] ∧ t.jrn = s.jrn) ∧
      (∀ c k f n q, s.cmdsOf p = (.write c k f, n) :: q → Says.quiet s →
        (∃ t, exec (.nvmeCompletion port .done) s = .next t ∧ Says.jrnOnly s t [] ∧ t.cmdsOf p = q ∧ t.out = s.out ∧ t.jrn.blocks = s.jrn.blocks.map (fun b =>
          if b.chain = c ∧ b.bseq = k ∧ b.state = .closed then { b with state := if s.bit (R.S_STAT_VWC p) = true ∧ f = false then .written else .durable } else b)) ∧
        (n < 3 → ∃ t, exec (.nvmeCompletion port .writeFailed) s = .next t ∧ Says.jrnOnly s t [R.S_WERR p, R.S_EVT p] ∧ t.cmdsOf p = (.write c k f, n + 1) :: q ∧
          t.out = s.out ++ [.nvme p (.write c k f)] ∧ Says.counted s t (R.S_WERR_V p) ∧ t.bit (R.S_EVT_WERR p) = true ∧ t.jrn.blocks = s.jrn.blocks) ∧
        (n < 3 → ∃ t, exec (.nvmeTimeout port) s = .next t ∧ Says.jrnOnly s t [R.S_TMO p, R.S_EVT p] ∧ t.cmdsOf p = (.write c k f, n + 1) :: q ∧
          t.out = s.out ++ [.nvme p (.write c k f)] ∧ Says.counted s t (R.S_TMO_V p) ∧ t.bit (R.S_EVT_TIMEOUT p) = true ∧ t.jrn.blocks = s.jrn.blocks) ∧
        (3 ≤ n →
          (∃ t, exec (.nvmeCompletion port .writeFailed) s = .next t ∧ t.rd (R.S_STAT_NSSTATE p) = 3 ∧ t.bit (R.S_EVT_LOST p) = true ∧ t.bit R.J_EVT_NS_LOST = true ∧
            p ∉ t.nsInUse ∧ t.cmdsOf p = [] ∧ (s.nsInUse = [p] → t.jState = 6) ∧
            (∀ o, o ≠ p → o < 4 → s.rd R.J_STAT_NS_USE = 2 ^ p + 2 ^ o → (∃ b ∈ s.jrn.blocks, b.chain = c ∧ b.bseq = k ∧ b.ns = p ∧ b.state = .closed ∧ c ≠ 3) →
              .nvme o (.write c k false) ∈ t.out)))) ∧
      (∀ k n q g b, s.cmdsOf p = (.write 0 k true, n) :: q → Says.quiet { s with jrn := { s.jrn with release := [] } } → s.jrn.release = [(g.seg, k)] → s.jrn.blocks = [b] → b.chain = 0 →
        b.bseq = k → b.seg ≠ g.seg → b.state = .closed → s.jState = 3 → s.jrn.segs = [g] → s.jrn.delCh = none → ∃ t, exec (.nvmeCompletion port .done) s = .next t ∧ t.jrn.release = [] ∧
          t.jrn.segs = [] ∧ t.jrn.freed = s.jrn.freed ++ [g] ∧ t.jrn.blocks = [{ b with state := .durable }] ∧ t.out = s.out ++ [.nvme (g.seg / 2 ^ 30) (.dealloc g.seg)]) ∧
      (∀ c n q, s.cmdsOf p = (.flush c, n) :: q → Says.quiet s → ∃ t, exec (.nvmeCompletion port .done) s = .next t ∧ Says.jrnOnly s t [] ∧ t.cmdsOf p = q ∧ t.out = s.out ∧
        t.jrn.blocks = s.jrn.blocks.map (fun b => if b.ns = p ∧ b.state = .written then { b with state := .durable } else b)) ∧
      (∀ n m, s.cmdsOf p = [(.rateTest, n)] → Says.quiet s → s.jState = 1 → s.jrn.entering = true → s.jrn.hold = [] → (∀ o, (s.port o).sensors = []) →
        (∀ o, o ≠ p → s.cmdsOf o = []) → ∃ t, exec (.nvmeCompletion port (.rate m)) s = .next t ∧ t.jState = 3 ∧ t.rdW (R.S_RATE p) = m.toNat * 9 / 10 ∧
          t.jrn.entering = false ∧ t.out = s.out ∧ t.jrn.blocks = s.jrn.blocks) ∧
      (∀ (n : BitVec 40) (waited : Bool),
        (s.jState ≠ 3 ∨ waited = false ∨ s.rdW (R.S_RATE p) * 1000000 ≤ n.toNat → ∃ t, exec (.rateWindow port n waited) s = .next t ∧ Says.regsOnly s t []) ∧
        (s.jState = 3 → waited = true → p ∈ s.nsInUse → n.toNat < s.rdW (R.S_RATE p) * 1000000 → let rate (o : Nat) : Nat := if o = p then n.toNat / 1000000 else s.rdW (R.S_RATE o)
          ∀ m, (∀ o ∈ s.nsInUse, m ≤ rate o) → (∃ o ∈ s.nsInUse, m = rate o) → let g := s.nsInUse.length * m
          g < 2 ^ 32 → (s.rdW R.HOLDUP - 1000) * g / 1048576 < 65536 → ∃ t, exec (.rateWindow port n waited) s = .next t ∧ Says.regsOnly s t [R.S_RATE p, R.RATE_G, R.BUF_CEIL] ∧
            t.rdW (R.S_RATE p) = n.toNat / 1000000 ∧ t.rdW R.RATE_G = g ∧ t.rd R.BUF_CEIL_V = (s.rdW R.HOLDUP - 1000) * g / 1048576)))

/-- Each framed 0x05xx command of a mailbox completes, a stop, a compaction, a rate test and a read from the media
once their end comes. JRNL_FORMAT in OFF or READY empties the chains 0 to 2, gives a new ARCHIVE_ID and labels each
port; JRNL_START answers the state entered; JRNL_STOP, JRNL_COMPACT, JRNL_RATE_TEST wait for flush and seals,
checkpoint and seal, measurement. JRNL_STATUS reports; JRNL_SEAL_CFG and JRNL_HOLDUP set SEAL_IVL and HOLDUP within
their ranges; JRNL_READ answers octets of a block, JRNL_FIND the block that holds a beat; JRNL_DELETE writes the
tombstones of whole filled ARCHIVE segments up to a BSEQ, and waits until they are durable, but takes nothing open or
unsealed. EW_ARM, EW_TRIGGER, EW_DISARM arm, trigger at the next edge, and disarm a window. CFG_PUT puts an item in
force and records it, length 0 deletes it; CFG_GET answers it. -/
def Obligations.JournalCommandResults : Prop :=
  ∀ (s : State) (h : BHdr), let m := h.ch.toNat
    let run := s.jState = 3 ∨ s.jState = 4
    let jo (u : State) (l : List Nat) : Prop := u = { s with hreg := u.hreg, jrn := u.jrn, host := u.host, out := u.out } ∧ Says.words s u (R.BUF_USED :: R.FREE_SEG :: R.EVT_LOST :: l)
    let held (u : State) (v : Reg32) : Prop := (u.jrn = s.jrn ∧ 262144 < s.holdUsed + 32) ∨
      ∃ x : JRec, x.rtype = 0x11 ∧ x.subject = 2 ∧ x.body.drop 4 = [0, 0, 4, 0] ++ Says.num 4 v.toNat ∧ u.jrn.hold = s.jrn.hold ++ [x]
    (∀ (pm mode : Octet) (ns : List Reg32), Says.framed s h 20 8 (some true) → let l := (List.range 4).filter (fun p => pm.toNat / 2 ^ p % 2 = 1)
      (pm = 0 ∨ 15 < pm.toNat ∨ 1 < mode.toNat → Says.completes (.jrnlFormat h pm mode ns) s h stBadParam [] s) ∧
      (1 ≤ pm.toNat → pm.toNat ≤ 15 → mode.toNat ≤ 1 → (∀ p ∈ l, ns.getD p 0 ≠ 0) →
        (s.jState ≠ 0 → s.jState ≠ 2 → Says.completes (.jrnlFormat h pm mode ns) s h stBadState [] s) ∧
        (s.jState = 0 ∨ s.jState = 2 → (∀ p ∈ l, s.bit (R.S_STAT_READY p) = true ∧ s.rd (R.S_STAT_NSSTATE p) ≠ 2) → s.domOn domKennel = true → s.knState = knOperational →
          ∃ u id, Says.completes (.jrnlFormat h pm mode ns) s h stOk (Says.num 8 (BitVec.toNat (w := 64) id)) u ∧ u.jrn.archive = some id ∧ u.jrn.ring = decide (mode = 1) ∧
            u.nsInUse = l ∧ u.jrn.segs = [] ∧ (∀ c, c < 3 → u.nextBseq c = 0 ∧ u.sealedOf c = 0) ∧ (∀ b ∈ u.jrn.blocks, b.chain = 3) ∧ u.jState = s.jState ∧ u.mem = s.mem ∧
            ∃ o : Nat → List Octet, u.out = s.out ++ (l.map (fun p => [.nvme p (.label 0 (o p)), .nvme p (.label 1 (o p))])).flatten ∧ ∀ p ∈ l, (o p).length = 56 ∧
              (o p).take 24 = Says.num 4 0x4C424C4A ++ [1] ++ Says.num 1 (l.filter (· < p)).length ++ Says.num 1 l.length ++ [mode] ++ Says.num 8 Config.serial.toNat ++ Says.num 8 id.toNat))) ∧
    (Says.framed s h 0 1 →
      ((s.jState ≠ 0 ∧ s.jState ≠ 2 ∧ s.jState ≠ 5) ∨ s.domOn domMem = false ∨ s.domOn domStore = false → Says.completes (.jrnlStart h) s h stBadState [] s) ∧
      (s.jState = 0 ∨ s.jState = 2 ∨ s.jState = 5 → s.domOn domMem = true → s.domOn domStore = true → let none' := s.jrn.archive = none ∨ s.jrn.recovered = true ∧ s.nsInUse = []
        (none' → ∃ u, Says.completes (.jrnlStart h) s h stOk [6] u ∧ jo u [R.J_STAT, R.J_EVT] ∧ u.jState = 6 ∧ u.jrn = s.jrn ∧ u.out = s.out) ∧
        (¬ none' → ∃ u, Says.completes (.jrnlStart h) s h stOk [1] u ∧ jo u [R.J_STAT, R.J_EVT] ∧ u.jState = 1 ∧
          u.out = s.out ++ (if s.jrn.recovered = true then s.nsInUse.map (fun p => .nvme p .rateTest) else [])))) ∧
    (Says.framed s h 0 →
      (¬ run ∨ s.jrn.pf ≠ none ∨ s.jrn.stopping ≠ none → Says.completes (.jrnlStop h) s h stBadState [] s) ∧
      (run → Says.quiet s → s.ctxOn = [] →
        (s.jrn.blocks = [] → ∃ u, Says.completes (.jrnlStop h) s h stOk [] u ∧ jo u [R.J_STAT, R.J_EVT] ∧ u.jState = 2 ∧ u.jrn = s.jrn ∧ u.out = s.out) ∧
        (∀ b, s.jrn.blocks = [b] → b.state = .opened → b.chain = 0 → b.recs ≠ [] → s.sealedOf 0 ≤ b.bseq → ∃ t, exec (.jrnlStop h) s = .next t ∧ Says.waits s t h ∧
          t.jState = s.jState ∧ t.jrn.stopping = some m ∧ (t.jrn.sealing.map (fun x => x.bseq)) = some b.bseq ∧ t.out = s.out ++ [.nvme b.ns (.write 0 b.bseq false)]))) ∧
    (Says.framed s h 0 32 → Says.completes (.jrnlStatus h) s h stOk (Says.num 1 s.jState ++ [0, 0, 0] ++ Says.num 8 (Says.headNow s) ++ Says.num 8 (s.sealedOf 0 - 1)
      ++ Says.num 4 (s.rd R.FREE_SEG_V) ++ Says.num 4 (s.rdW R.RATE_G) ++ Says.num 2 (s.rd R.BUF_CEIL_V) ++ Says.num 2 (s.rd R.BUF_USED_V)) s) ∧
    (∀ v : Reg32,
      (Says.framed s h 4 → (v.toNat < 10000 ∨ 3600000000 < v.toNat → Says.completes (.jrnlSealCfg h v) s h stBadParam [] s) ∧
        (10000 ≤ v.toNat → v.toNat ≤ 3600000000 → ∃ u, Says.completes (.jrnlSealCfg h v) s h stOk [] u ∧ u.word R.SEAL_IVL = v ∧
          (s.jState ≠ 3 → u = { s with hreg := u.hreg, jrn := u.jrn } ∧ Says.words s u [R.SEAL_IVL] ∧ held u v))) ∧
      (Says.framed s h 4 2 → (v.toNat < 2000 ∨ 1000000 < v.toNat → Says.completes (.jrnlHoldup h v) s h stBadParam [] s) ∧
        (2000 ≤ v.toNat → v.toNat ≤ 1000000 → s.jState ≠ 3 → ∀ p, s.nsInUse = [p] → let c := (v.toNat - 1000) * s.rdW (R.S_RATE p) / 1048576
          c < 65536 → ∃ u, Says.completes (.jrnlHoldup h v) s h stOk (Says.num 2 c) u ∧ u = { s with hreg := u.hreg, jrn := u.jrn } ∧ Says.words s u [R.HOLDUP, R.RATE_G, R.BUF_CEIL] ∧
            u.word R.HOLDUP = v ∧ u.rd R.BUF_CEIL_V = c ∧ held u v))) ∧
    (∀ (c : Octet) (k : BitVec 64) (off len : Reg32), Says.framed s h 20 len.toNat →
      (3 < c.toNat ∨ len = 0 ∨ 65536 < len.toNat → Says.completes (.jrnlRead h c k off len) s h stBadParam [] s) ∧
      (c.toNat ≤ 3 → 1 ≤ len.toNat → len.toNat ≤ 65536 → off.toNat + len.toNat ≤ 1048576 →
        (∀ b, s.jrn.blocks = [b] → b.chain = c.toNat → b.bseq = k.toNat →
          (b.state = .closed → Says.completes (.jrnlRead h c k off len) s h stOk ((b.octets.drop off.toNat).take len.toNat) s) ∧
          (c.toNat < 3 → b.state = .written ∨ b.state = .durable → ∃ t, exec (.jrnlRead h c k off len) s = .next t ∧ Says.waits s t h ∧
            t.out = s.out ++ [.nvme b.ns (.read c.toNat k.toNat off.toNat len.toNat m)])) ∧
        (s.jrn.blocks = [] → c.toNat < 3 → (s.jrn.freed = [] → Says.completes (.jrnlRead h c k off len) s h stNotFound [] s) ∧
          (∀ g, g ∈ s.jrn.freed → g.chain = c.toNat → g.first ≤ k.toNat → k.toNat ≤ g.last → Says.completes (.jrnlRead h c k off len) s h stDeleted [] s)))) ∧
    (∀ (c : Octet) (beat : BitVec 48), Says.framed s h 12 12 →
      (2 < c.toNat → Says.completes (.jrnlFind h c beat) s h stBadParam [] s) ∧
      (c.toNat ≤ 2 → (∀ b, s.jrn.blocks = [b] → b.chain = c.toNat → b.state ≠ .opened → (∃ x ∈ b.recs, x.beat ≤ beat) → (∃ x ∈ b.recs, beat ≤ x.beat) →
          Says.completes (.jrnlFind h c beat) s h stOk (Says.num 8 b.bseq ++ Says.num 4 (s.rd (R.S_STAT_NSIDX (b.seg / 2 ^ 30)) * 2 ^ 30 + b.seg % 2 ^ 30)) s) ∧
        (s.jrn.blocks = [] → s.jrn.freed = [] → Says.completes (.jrnlFind h c beat) s h stNotFound [] s))) ∧
    (∀ last : BitVec 64, Says.framed s h 8 4 (some true) → s.jrn.pf = none → s.jrn.stopping = none → s.jrn.delCh = none → s.jrn.release = [] → let hit (g : Segment) : Bool := decide (g.chain = 0 ∧ g.last ≤ last.toNat)
      (¬ run → Says.completes (.jrnlDelete h last) s h stBadState [] s) ∧
      (run → s.sealedOf 0 ≤ last.toNat ∨ (∃ g ∈ s.jrn.segs, g.chain = 0 ∧ g.filled = false ∧ g.first ≤ last.toNat) → Says.completes (.jrnlDelete h last) s h stBadParam [] s) ∧
      (run → last.toNat < s.sealedOf 0 → (∀ g ∈ s.jrn.segs, g.chain = 0 → g.filled = false → last.toNat < g.first) →
        (s.jrn.segs.filter hit = [] → Says.completes (.jrnlDelete h last) s h stOk [0, 0, 0, 0] s) ∧
        (∀ g b, s.jrn.segs.filter hit = [g] → Says.quiet s → s.jrn.blocks = [b] → b.state = .opened → b.chain = 0 → b.bseq + 1 = s.nextBseq 0 →
          (b.recs.map (fun x => x.octets.length)).sum + 96 ≤ 1048384 → ∃ t b', exec (.jrnlDelete h last) s = .next t ∧ Says.waits s t h ∧ t.jState = s.jState ∧ t.mem = s.mem ∧
            t.jrn.release = [(g.seg, b.bseq)] ∧ t.jrn.delCh = some (m, 1) ∧ t.jrn.segs.map (fun x => x.seg) = s.jrn.segs.map (fun x => x.seg) ∧ t.jrn.blocks = [b'] ∧ b'.state = .closed ∧
            (b'.recs.getLast?.map (fun x => (x.rtype, (x.octets.drop 16).take 20))) = some (9, [2, 0, 0, 0] ++ Says.num 8 g.first ++ Says.num 8 g.last) ∧
            t.out = s.out ++ [.nvme b.ns (.write 0 b.bseq true)]))) ∧
    (∀ c : Octet, Says.framed s h 4 →
      (c ≠ 1 → c ≠ 2 → Says.completes (.jrnlCompact h c) s h stBadParam [] s) ∧
      (c = 1 ∨ c = 2 → s.jState ≠ 3 → Says.completes (.jrnlCompact h c) s h stBadState [] s) ∧
      (c = 1 → s.jState = 3 → Says.quiet s → s.jrn.blocks = [] → s.jrn.segs = [] → s.jrn.dip = [] → 0 < s.rd R.BUF_CEIL_V → s.sealedOf 1 ≤ s.nextBseq 1 → ∀ p, s.nsInUse = [p] →
        mget (fun _ => 0) s.jrn.nsSegs p ≠ 0 → ∃ t, exec (.jrnlCompact h c) s = .next t ∧ Says.waits s t h ∧ t.jrn.compact = some ⟨1, s.nextBseq 1, none, some m⟩ ∧
          (t.jrn.sealing.map (fun x => (x.chain, x.bseq))) = some (1, s.nextBseq 1) ∧ t.out = s.out ++ [.nvme p (.write 1 (s.nextBseq 1) true)])) ∧
    (∀ (wid : Reg32) (mask : Octet) (pre post : BitVec 16) (ctxs : List Reg32), Says.framed s h (12 + 4 * ctxs.length) → let cs := ctxs.map (fun c => s.cfg c.toNat)
      let w := s.jrn.windows
      (post = 0 ∨ 3 < mask.toNat ∨ ctxs = [] ∨ (∃ c ∈ cs, c.on = false ∨ c.depth < pre.toNat + 3) ∨ (∃ x ∈ w, x.wid = wid.toNat) →
        Says.completes (.ewArm h wid mask pre post ctxs) s h stBadParam [] s) ∧
      (post ≠ 0 → mask.toNat ≤ 3 → ctxs ≠ [] → ctxs.length ≤ 4096 → (∀ c ∈ cs, c.on = true ∧ pre.toNat + 3 ≤ c.depth) → (∀ c ∈ cs, ∀ d ∈ cs, c.store = d.store) →
        (∀ x ∈ w, x.wid ≠ wid.toNat) → (cs.map (fun c => (c.octets : ℚ))).sum + s.journaled ≤ ((min 16000000000 (s.rdW R.RATE_G * 1000000) : Nat) : ℚ) *
          (((s.rdW R.PERIOD_ACT_INT * 2 ^ 32 + s.rdW R.PERIOD_ACT_FRAC : Nat) : ℚ) / (2 ^ 32 * 10 ^ 9)) →
        (4 ≤ w.length → Says.completes (.ewArm h wid mask pre post ctxs) s h stNoSpace [] s) ∧
        (w.length < 4 → Says.completes (.ewArm h wid mask pre post ctxs) s h stOk [] { s with jrn := { s.jrn with windows :=
          w ++ [⟨wid.toNat, mask.toNat, pre.toNat, post.toNat, ctxs.map (fun c => c.toNat), none, ctxs.map (fun c => c.toNat), 0⟩] } }))) ∧
    (∀ wid : Reg32, Says.framed s h 4 →
      ((∀ x ∈ s.jrn.windows, x.wid ≠ wid.toNat) → Says.completes (.ewTrigger h wid) s h stNotFound [] s ∧ Says.completes (.ewDisarm h wid) s h stNotFound [] s) ∧
      (∀ x, s.jrn.windows = [x] → x.wid = wid.toNat →
        (x.mask / 2 % 2 = 0 ∨ x.trig ≠ none → Says.completes (.ewTrigger h wid) s h stBadState [] s) ∧
        (x.mask / 2 % 2 = 1 → x.trig = none → ∃ u, Says.completes (.ewTrigger h wid) s h stOk [] u ∧ jo u [R.J_STAT] ∧
          u.jrn = { s.jrn with windows := [{ x with trig := some (s.beat.num + 1) }] } ∧ u.bit R.J_STAT_EW_ACTIVE = true ∧ u.jState = s.jState) ∧
        (∃ u, Says.completes (.ewDisarm h wid) s h stOk [] u ∧ jo u [R.J_STAT] ∧ u.jrn = { s.jrn with windows := [] } ∧ u.bit R.J_STAT_EW_ACTIVE = false ∧ u.jState = s.jState))) ∧
    (Says.framed s h 0 16 →
      ((s.jState ≠ 2 ∧ s.jState ≠ 3) ∨ s.jrn.pf ≠ none → Says.completes (.jrnlRateTest h) s h stBadState [] s) ∧
      (s.jState = 2 ∨ s.jState = 3 → s.jrn.pf = none → (s.jrn.testCh ≠ none → Says.completes (.jrnlRateTest h) s h stBusy [] s) ∧
        (s.jrn.testCh = none → s.nsInUse ≠ [] → ∃ t, exec (.jrnlRateTest h) s = .next t ∧ Says.waits s t h ∧ t.jrn.testCh = some m ∧ t.jState = s.jState ∧
          t.out = s.out ++ s.nsInUse.map (fun p => .nvme p .rateTest)))) ∧
    (∀ (key : Reg32) (fl : Octet) (v : List Octet), v.length < 65536 → Says.framed s h (8 + v.length) → let item k := mget (fun _ => none) s.jrn.items k
      let r : JRec := ⟨0x11, 2, s.beat.num, false, false, Says.num 4 key.toNat ++ Says.num 1 fl.toNat ++ [0] ++ Says.num 2 v.length ++ v⟩
      (1 < fl.toNat ∨ fl = 1 ∧ 3856 < v.length → Says.completes (.cfgPut h key fl v) s h stBadParam [] s) ∧
      (fl = 0 → s.jState ≠ 3 → (s.holdTakes r = false → Says.completes (.cfgPut h key fl v) s h stNoSpace [] s) ∧
        (s.holdTakes r = true → (∀ x, item key.toNat = some x → x.1 % 2 = 0) → ∃ i, Says.completes (.cfgPut h key fl v) s h stOk [] { s with jrn := { s.jrn with
            items := i, hold := s.jrn.hold ++ [r] } } ∧ ∀ k, mget (fun _ => none) i k = if k = key.toNat then (if v = [] then none else some (0, v)) else item k)) ∧
      (fl.toNat ≤ 1 → v ≠ [] → v.length ≤ 3856 → s.jState = 3 → ∃ u, Says.completes (.cfgPut h key fl v) s h stOk [] u ∧ mget (fun _ => none) u.jrn.items key.toNat = some (fl.toNat, v) ∧
        (fl = 1 → ∃ b ∈ u.jrn.blocks, b.chain = 3 ∧ b.bseq = u.nextBseq 3 - 1 ∧ b.state = .durable))) ∧
    (∀ key : Reg32,
      (Says.framed s h 4 4 → mget (fun _ => none) s.jrn.items key.toNat = none → Says.completes (.cfgGet h key) s h stNotFound [] s) ∧
      (∀ f v, mget (fun _ => none) s.jrn.items key.toNat = some (f, v) → Says.framed s h 4 (4 + v.length) →
        Says.completes (.cfgGet h key) s h stOk (Says.num 2 v.length ++ [0, 0] ++ v) s))

namespace Sys2Proof.Says

open Sys2Proof.Machine

/-- No channel holds a session. -/
def noSession (t : State) : Prop := ∀ c, c < 20 → (t.chan c).sess = none

/-- Only the kennel, the BAR0 words of l and the host's events differ, but for what a settled state senses and offers. -/
def kenOnly (s t : State) (l : List Nat) : Prop :=
  t = { s with hreg := t.hreg, kn := t.kn, host := t.host, dev := t.dev, cics := t.cics } ∧ sensed s t ∧ words s t (R.EVT_LOST :: R.KN_STAT :: l)

/-- STATE 2, 3, 4 or 6: where the power-up tests leave the kennel (R450). -/
def afterTests (k : Kennel) : Nat :=
  match k.slots.getD k.cur .unused with
  | .key c => if k.coKeys = [] then 2 else if c = true then 3 else 4
  | _ => 6

/-- The slot in force programmed to ones, what it held being lost (R456). -/
def burnt : OtpSlot → OtpSlot
  | .key c => .zeroized c
  | y => y

end Sys2Proof.Says

/-- With no transition waiting for a domain: ZEROIZE_N latches a request. With KENNEL on, every session closes,
challenges go, and the slot's programming runs; in ZEROIZED the volatile zeroization is all; during one the request
is only latched; with KENNEL off it is turned on first. Its rise clears ZPIN. The end of a full zeroization leaves
ZEROIZED: slot in force programmed, no stored key, no admission list, SEAL and JOIN 0, counters kept; a waiting
KN_ZEROIZE completes OK. A sensor trip or a failed test closes every session and enters ERROR with its cause; a trip
during zeroization is only recorded. Passed tests lead to UNINIT, OPERATIONAL, PENDING_CERT or ZEROIZED; a latched
request then runs. A kennel not on, or locked, takes no such event. A reseed starts the count anew; a challenge and a
session expire; KN_KEYID_LO latches its upper half. That no pedigree comes before no key is the model's choice (log
11). -/
def Obligations.KennelEventResults : Prop :=
  ∀ s : State, s.pwr.slot = [] → let st := s.knState
    let live := s.domOn domKennel = true ∧ st ≠ 0 ∧ st ≠ 7
    (∃ t, exec .zeroizeNRelease s = .next t ∧ Says.regsOnly s t [R.KN_STAT] ∧ t.bit R.KN_STAT_ZPIN = false ∧ t.knState = st) ∧
    (s.kn.running = true → ∃ t, exec .zeroizeNAssert s = .next t ∧ Says.kenOnly s t [] ∧ t.bit R.KN_STAT_ZPIN = true ∧ t.kn = { s.kn with latched := true } ∧ t.knState = st) ∧
    (s.kn.running = false →
      (live → st ≠ 6 → ∃ t, exec .zeroizeNAssert s = .next t ∧ t.bit R.KN_STAT_ZPIN = true ∧ t.bit R.KN_STAT_ZBUSY = true ∧ t.knState = st ∧ Says.noSession t ∧
        t.kn = { s.kn with latched := true, running := true, chals := [], drbgUse := 0 } ∧ t.mem = s.mem) ∧
      (live → st = 6 → s.kn.zCmd = none → ∃ t, exec .zeroizeNAssert s = .next t ∧ t.bit R.KN_STAT_ZPIN = true ∧ t.bit R.KN_STAT_ZBUSY = false ∧ t.knState = 6 ∧ Says.noSession t ∧
        t.kn = { s.kn with latched := false, chals := [], drbgUse := 0 } ∧ t.mem = s.mem) ∧
      (s.domOn domKennel = false → s.bit (R.PD_STAT_BUSY domKennel) = false → ∃ t, exec .zeroizeNAssert s = .next t ∧ t.bit R.KN_STAT_ZPIN = true ∧ t.bit R.KN_STAT_ZBUSY = true ∧
        t.kn = { s.kn with latched := true } ∧ t.bit (R.PD_STAT_BUSY domKennel) = true ∧ t.rd (R.PD_STAT_LAST_SRC domKennel) = 5 ∧
        mget (fun _ => none) t.pwr.trans domKennel = some ⟨2, 5, none⟩ ∧ t.mem = s.mem)) ∧
    (s.kn.running = false ∨ ¬ live → ∃ t, exec .fullZeroizationDone s = .next t ∧ Says.regsOnly s t []) ∧
    (live → s.kn.running = true → s.kn.testCmds = [] →
      let ended (t : State) : Prop := t.knState = 6 ∧ t.bit R.KN_EVT_ZEROIZED = true ∧ t.bit R.KN_STAT_SEAL = false ∧ t.bit R.KN_STAT_JOIN = false ∧
          t.bit R.KN_STAT_ZBUSY = false ∧ t.kn.coKeys = [] ∧ t.kn.usrKeys = [] ∧ t.kn.admitted = none ∧ t.kn.counters = s.kn.counters ∧ t.kn.cur = s.kn.cur ∧
          t.kn.running = false ∧ t.kn.latched = false ∧ t.mem = s.mem ∧
          (∀ k, t.kn.slots.getD k .unused = if k = s.kn.cur then Says.burnt (s.kn.slots.getD k .unused) else s.kn.slots.getD k .unused)
      (s.kn.zCmd = none → ∃ t, exec .fullZeroizationDone s = .next t ∧ ended t ∧ t.out = s.out) ∧
      (∀ m b, s.kn.zCmd = some m → Says.canEnd s m b → ∃ t, exec .fullZeroizationDone s = .next t ∧ ended t ∧ (t.chan m).busy = none ∧ t.out = s.out ++ [Says.endOf s m b []])) ∧
    (∀ temp : Bool, let cause := if temp = true then 7 else 6
      (¬ live → ∃ t, exec (.sensorTrip temp) s = .next t ∧ Says.regsOnly s t []) ∧
      (live → s.kn.running = true → ∃ t, exec (.sensorTrip temp) s = .next t ∧ t.rd R.KN_ERR_CAUSE = cause ∧ t.bit R.KN_EVT_TAMPER = true ∧ t.knState = st ∧ t.kn = s.kn ∧
        Says.words s t [R.KN_ERR, R.KN_EVT] ∧ t.out = s.out) ∧
      (live → s.kn.running = false → s.kn.testCmds = [] → ∃ t, exec (.sensorTrip temp) s = .next t ∧ t.rd R.KN_ERR_CAUSE = cause ∧ t.bit R.KN_EVT_TAMPER = true ∧ t.bit R.KN_EVT_ERROR = true ∧
        t.knState = 5 ∧ Says.noSession t ∧ t.kn = { s.kn with chals := [], drbgUse := 0 } ∧ t.mem = s.mem)) ∧
    (∀ k : KnTest, let dead := ¬ live ∨ st = 5 ∨ k = .startUp ∧ st ≠ 1
      (dead → ∃ t, exec (.entropyFail k) s = .next t ∧ Says.regsOnly s t []) ∧
      (¬ dead → s.kn.testCmds = [] → ∃ t, exec (.entropyFail k) s = .next t ∧ t.knState = 5 ∧ t.bit R.KN_EVT_ERROR = true ∧ Says.noSession t ∧ t.mem = s.mem ∧
        t.rd R.KN_ERR_CAUSE = (match k with | .startUp => 3 | .continuous => 4 | .pairwise => 5) ∧ (k ≠ .pairwise → Says.counted s t R.KN_ESFAIL_V) ∧
        t.kn = { s.kn with chals := [], drbgUse := 0 })) ∧
    (∀ r : SelfTest,
      (¬ live ∨ st ≠ 1 ∨ s.kn.running = true → ∃ t, exec (.selftestDone r) s = .next t ∧ Says.regsOnly s t []) ∧
      (live → st = 1 → s.kn.testCmds = [] → s.kn.running = false → s.kn.zCmd = none →
        (s.kn.latched = false → r = .passed → ∃ t, exec (.selftestDone r) s = .next t ∧ Says.kenOnly s t [R.KN_EVT, R.KN_PED, R.KN_KEYID_LO] ∧ t.kn = s.kn ∧
          t.knState = Says.afterTests s.kn ∧ t.bit R.KN_STAT_TESTED = true ∧ t.bit R.KN_EVT_STATE = true) ∧
        (s.kn.latched = true → r = .passed → ∃ t, exec (.selftestDone r) s = .next t ∧ t.knState = Says.afterTests s.kn ∧ t.kn.running = decide (Says.afterTests s.kn ≠ 6) ∧
          Says.noSession t ∧ t.mem = s.mem) ∧
        (∀ c d, r = .failed c d → s.kn.latched = false → ∃ t, exec (.selftestDone r) s = .next t ∧ t.knState = 5 ∧ t.rd R.KN_ERR_CAUSE = c.toNat ∧ t.rd R.KN_ERR_DETAIL = d.toNat ∧
          (c = 3 ∨ c = 4 → Says.counted s t R.KN_ESFAIL_V) ∧ t.kn.hard = (s.kn.hard || c == 1 || c == 9) ∧ Says.noSession t ∧ t.mem = s.mem))) ∧
    (live → ∃ t, exec .drbgReseed s = .next t ∧ Says.kenOnly s t [] ∧ t.kn = { s.kn with drbgUse := 0 } ∧ t.host = s.host ∧ t.hreg = s.hreg) ∧
    (¬ live → ∃ t, exec .drbgReseed s = .next t ∧ Says.regsOnly s t []) ∧
    (∀ id : Reg32, ∃ t, exec (.challengeExpire id) s = .next t ∧ Says.kenOnly s t [] ∧ t.kn = { s.kn with chals := s.kn.chals.filter (fun c => decide (c.1 ≠ id.toNat)) } ∧
      t.host = s.host ∧ t.hreg = s.hreg) ∧
    (∀ ch : BitVec 5,
      ((s.chan ch.toNat).sess = none → ∃ t, exec (.sessionTimeout ch) s = .next t ∧ Says.regsOnly s t []) ∧
      ((s.chan ch.toNat).sess ≠ none → ∃ t, exec (.sessionTimeout ch) s = .next t ∧ Says.kenOnly s t [R.SVC_STAT, R.SVC_EVT] ∧ t.kn = s.kn ∧ (t.chan ch.toNat).sess = none ∧
        (t.chan ch.toNat).busy = (s.chan ch.toNat).busy ∧ (∀ c, c ≠ ch.toNat → t.chan c = s.chan c) ∧ t.knState = st ∧
        t.rd R.KN_STAT_SESSIONS = ((List.range 20).filter (fun c => (t.chan c).sess.isSome)).length)) ∧
    (∃ t, exec .knKeyidLoRead s = .next t ∧ t = { s with hreg := t.hreg, out := t.out, dev := t.dev, cics := t.cics } ∧ Says.words s t [R.KN_KEYID_HI] ∧
      t.out = s.out ++ [.readData R.KN_KEYID_LO (s.rdW R.KN_KEYID_LO)] ∧
      t.rdW R.KN_KEYID_HI = if s.rdW R.KN_KEYID_LO = 0 then 0 else (Config.keyId s.kn.cur).toNat / 2 ^ 32 % 2 ^ 32)

/-- Each framed 0x06xx command of a mailbox completes while KENNEL is on, no zeroization runs and its state serves
it; a self-test and a zeroization complete once ended. One live challenge, a stored key and a right signature open a
session for 900 s; anything else is DENIED, counted in KN_AUTHFAIL, and uses the challenge up. KN_INIT stores CO key
0: in UNINIT to OPERATIONAL, in ZEROIZED with a new key pair in the next unused slot to PENDING_CERT, while ZPIN is
0. Keys, authorisations, admission list and certificate are the CO's: deleting a key closes its sessions, and the
last CO key stays. Random values and attestation are the User's. A counter reads, or advances for the CO up to 127.
While a zeroization runs a command waits; a state that does not serve one answers BAD_STATE. The order of the tests
on a command is the model's (log 9). -/
def Obligations.KennelCommandResults : Prop :=
  ∀ (s : State) (h : BHdr), s.kn.running = false → s.domOn domKennel = true → let m := h.ch.toNat
    let st := s.knState
    let ko (u : State) (l : List Nat) : Prop := u = { s with hreg := u.hreg, kn := u.kn, host := u.host } ∧ Says.words s u (R.EVT_LOST :: R.KN_STAT :: l)
    let kd (u : State) : Prop := u = { s with kn := u.kn, free := u.free }
    let shown := [R.KN_EVT, R.KN_PED, R.KN_KEYID_LO]
    (Says.framed s h 0 → ∃ c : List Octet, c.length = 16 ∧ Says.completes (.knInfo h) s h stOk (Says.num 1 st ++ [0, 0, 0] ++ Says.num 4 (s.rdW R.KN_VER) ++ Says.num 4 (s.rdW R.DEV_STEP) ++ c) s) ∧
    (st = 1 ∨ st = 5 → Says.framed s h 0 52 → Says.completes (.knChallenge h) s h stBadState [] s ∧ Says.completes (.knLogout h) s h stBadState [] s) ∧
    (h.ch.toNat < 16 → ∀ ins ∈ [Instr.knChallenge h, .knLogout h, .knSelftest h, .knZeroize h 0x5A45524F], ∃ t, exec ins { s with kn := { s.kn with running := true } } = .next t ∧
      Says.regsOnly { s with kn := { s.kn with running := true } } t []) ∧
    (∀ slot : Octet, 1 ≤ st → st ≤ 6 → let x := s.kn.slots.getD slot.toNat .unused
      (4 ≤ slot.toNat → Says.framed s h 4 → Says.completes (.knCerts h slot) s h stBadParam [] s) ∧
      (slot.toNat < 4 → x = .unused → Says.framed s h 4 → Says.completes (.knCerts h slot) s h stNotFound [] s) ∧
      (slot.toNat < 4 → x = .key true ∨ x = .zeroized true → let d := Config.pedigreeDer slot.toNat true
        Says.framed s h 4 (4 + d.length) → Says.completes (.knCerts h slot) s h stOk (Says.num 4 d.length ++ d) s)) ∧
    (st = 3 ∨ st = 4 ∨ st = 6 →
      (Says.framed s h 0 52 → let id := s.kn.nextChal % 2 ^ 32
        ∃ u v, Says.completes (.knChallenge h) s h stOk (Says.num 4 id ++ Says.num 48 v) u ∧ kd u ∧ v < 2 ^ 384 ∧
          u.kn = { s.kn with chals := s.kn.chals ++ [(id, v, s.time + 10 * secU)], nextChal := id + 1, drbgUse := (s.kn.drbgUse + 1) % 65536 }) ∧
      (∀ (id : Reg32) (role key : Octet) (sig : Bool), Says.framed s h 104 →
        let there := role = 1 ∧ key.toNat < 4 ∨ role = 2 ∧ key.toNat < 16
        let used := s.kn.chals.filter (fun c => decide (c.1 ≠ id.toNat))
        let good := (∃ c ∈ s.kn.chals, c.1 = id.toNat ∧ s.time ≤ c.2.2) ∧ sig = true ∧ s.opKey role.toNat key.toNat ≠ none
        (¬ there → Says.completes (.knAuth h id role key sig) s h stBadParam [] s) ∧
        (there → ¬ good → ∃ u, Says.completes (.knAuth h id role key sig) s h stDenied [] u ∧ ko u [R.KN_AUTHFAIL, R.KN_EVT] ∧ u.kn = { s.kn with chals := used } ∧
          Says.counted s u R.KN_AUTHFAIL_V ∧ u.bit R.KN_EVT_AUTHFAIL = true ∧ u.host = s.host) ∧
        (there → good → ∃ t sid, exec (.knAuth h id role key sig) s = .next t ∧ Says.answers s t h stOk (Says.num 8 sid) ∧
          (t.chan m).sess = some ⟨sid, decide (role = 1), key.toNat, s.time + 900 * secU⟩ ∧ t.kn = { s.kn with chals := used, drbgUse := (s.kn.drbgUse + 1) % 65536 } ∧
          t.rd R.KN_STAT_SESSIONS = ((List.range 20).filter (fun c => (t.chan c).sess.isSome)).length ∧ t.mem = s.mem ∧ (∀ c, c ≠ m → t.chan c = s.chan c))) ∧
      (Says.framed s h 0 → ∃ t, exec (.knLogout h) s = .next t ∧ Says.answers s t h stOk [] ∧ (t.chan m).sess = none ∧ t.kn = s.kn ∧ t.mem = s.mem ∧
        t.out.length = s.out.length + 1 ∧ ∀ c, c ≠ m → t.chan c = s.chan c)) ∧
    (∀ key : List Octet, key.length = 97 → Says.framed s h 100 →
      (st = 2 ∨ st = 6 → s.bit R.KN_STAT_ZPIN = true → Says.completes (.knInit h key) s h stBadState [] s) ∧
      (st = 2 → s.bit R.KN_STAT_ZPIN = false → ∃ u, Says.completes (.knInit h key) s h stOk [] u ∧ ko u shown ∧ u.knState = 3 ∧ u.opKey 1 0 = some key ∧ u.kn = { s.kn with coKeys := u.kn.coKeys }) ∧
      (∀ k, st = 6 → s.bit R.KN_STAT_ZPIN = false → k < s.kn.slots.length → s.kn.slots[k]? = some .unused → (∀ j, j < k → s.kn.slots[j]? ≠ some .unused) →
        ∃ u, Says.completes (.knInit h key) s h stOk [] u ∧ ko u shown ∧ u.knState = 4 ∧ u.opKey 1 0 = some key ∧ u.kn.cur = k ∧ u.kn.slots[k]? = some (.key false) ∧ u.rd R.KN_PED_SLOT = k % 16) ∧
      (st = 6 → s.kn.slots.all (fun x => x ≠ .unused) = true → Says.completes (.knInit h key) s h stBadState [] s) ∧
      exec (.knInit h (key.take 96)) s = .fault .illFormed) ∧
    (st = 3 ∨ st = 4 →
      (∀ (role i : Octet) (key : List Octet),
        let there := role = 1 ∧ i.toNat < 4 ∨ role = 2 ∧ i.toNat < 16
        (key.length = 97 → Says.framed s h 104 0 (some true) → (¬ there → Says.completes (.knKeySet h role i key) s h stBadParam [] s) ∧
          (there → ∃ u, Says.completes (.knKeySet h role i key) s h stOk [] u ∧ u = { s with kn := u.kn } ∧ ∀ r j, r = 1 ∨ r = 2 → u.opKey r j = if r = role.toNat ∧ j = i.toNat then some key else s.opKey r j)) ∧
        (Says.framed s h 4 0 (some true) → (¬ there ∨ role = 1 ∧ s.opKey 1 i.toNat ≠ none ∧ s.kn.coKeys.length = 1 → Says.completes (.knKeyDel h role i) s h stBadParam [] s) ∧
          (there → s.opKey role.toNat i.toNat = none → Says.completes (.knKeyDel h role i) s h stNotFound [] s) ∧
          (there → s.opKey role.toNat i.toNat ≠ none → (role = 1 → s.kn.coKeys.length ≠ 1) → ∃ t, exec (.knKeyDel h role i) s = .next t ∧ Says.answers s t h stOk [] ∧
            (∀ r j, r = 1 ∨ r = 2 → t.opKey r j = if r = role.toNat ∧ j = i.toNat then none else s.opKey r j) ∧
            (∀ c x, c < 20 → (t.chan c).sess = some x → ¬ (x.co = decide (role = 1) ∧ x.slot = i.toNat)) ∧ t.mem = s.mem))) ∧
      (∀ b : Octet, Says.framed s h 4 0 (some true) → (4 ≤ b.toNat → Says.completes (.knAuthz h b) s h stBadParam [] s) ∧
        (b.toNat < 4 → ∃ u, Says.completes (.knAuthz h b) s h stOk [] u ∧ ko u [] ∧ u.host = s.host ∧ u.kn = s.kn ∧ u.knState = st ∧ u.bit R.KN_STAT_SEAL = b.getLsbD 0 ∧ u.bit R.KN_STAT_JOIN = b.getLsbD 1)) ∧
      (∀ l : List (BitVec 64), Says.framed s h (4 + 8 * l.length) 0 (some true) → l.length ≤ 4095 →
        Says.completes (.knAdmit h l) s h stOk [] { s with kn := { s.kn with admitted := if l = [] then none else some (l.map (fun x => x.toNat)) } }) ∧
      (∀ (der : List Octet) (a b : Bool), Says.framed s h (4 + der.length) 0 (some true) → (a = false ∨ b = false → Says.completes (.knCertLoad h der a b) s h stBadParam [] s) ∧
        (a = true → b = true → s.kn.cur < s.kn.slots.length → ∃ u, Says.completes (.knCertLoad h der a b) s h stOk [] u ∧ ko u shown ∧ u.knState = 3 ∧ u.kn.slots[s.kn.cur]? = some (.key true) ∧
          u.kn = { s.kn with slots := u.kn.slots })) ∧
      (∀ n : BitVec 16, (n = 0 ∨ 1024 < n.toNat → Says.framed s h 4 0 (some false) → Says.completes (.knRandom h n) s h stBadParam [] s) ∧
        (1 ≤ n.toNat → n.toNat ≤ 1024 → Says.framed s h 4 n.toNat (some false) → ∃ u d, d.length = n.toNat ∧ Says.completes (.knRandom h n) s h stOk d u ∧ kd u ∧
          u.kn = { s.kn with drbgUse := (s.kn.drbgUse + 1) % 65536 }))) ∧
    (∀ nonce : List Octet, st = 3 → nonce.length = 48 → Says.framed s h 48 192 (some false) → ∃ u sig, sig.length = 96 ∧ u = { s with free := u.free } ∧ Says.completes (.knAttest h nonce) s h stOk
      ([0x4B, 0x41, 0x54, 0x54] ++ Says.num 8 Config.serial.toNat ++ nonce ++ Says.num 8 (Config.keyId s.kn.cur).toNat ++ Says.num 10 (packTime s.packNow).toNat ++ Says.num 6 s.beat.num.toNat
        ++ Says.num 4 (s.rdW R.KN_STAT) ++ Says.num 4 (s.rdW R.DEV_STEP) ++ Says.num 4 (s.rdW R.KN_VER) ++ sig) u) ∧
    (1 ≤ st → st ≤ 6 → Says.framed s h 0 →
      (s.kn.hard = true → Says.completes (.knSelftest h) s h stOk (Says.num 1 (s.rd R.KN_ERR_CAUSE) ++ [0, 0, 0]) s) ∧
      (s.kn.hard = false → ∃ t, exec (.knSelftest h) s = .next t ∧ Says.waits s t h ∧ t.knState = 1 ∧ t.kn = { s.kn with testCmds := s.kn.testCmds ++ [m] } ∧ t.out = s.out)) ∧
    (∀ c : Reg32, st = 3 ∨ st = 4 → Says.framed s h 4 0 (some true) → (c ≠ 0x5A45524F → Says.completes (.knZeroize h c) s h stBadParam [] s) ∧
      (c = 0x5A45524F → ∃ t, exec (.knZeroize h c) s = .next t ∧ Says.waits s t h ∧ t.bit R.KN_STAT_ZBUSY = true ∧ Says.noSession t ∧ t.knState = st ∧ t.mem = s.mem ∧
        t.kn = { s.kn with zCmd := some m, running := true, chals := [], drbgUse := 0 })) ∧
    (∀ k op : Octet, st = 2 ∨ st = 3 ∨ st = 4 ∨ st = 6 → let v := mget (fun _ => 0) s.kn.counters k.toNat
      (8 ≤ k.toNat ∨ 2 ≤ op.toNat → Says.framed s h 4 → Says.completes (.knCounter h k op) s h stBadParam [] s) ∧
      (k.toNat < 8 → op = 0 → Says.framed s h 4 → Says.completes (.knCounter h k op) s h stOk (Says.num 1 v ++ [0, 0, 0]) s) ∧
      (k.toNat < 8 → op = 1 → Says.framed s h 4 → (∀ x, (s.chan m).sess = some x → x.co = false) → Says.completes (.knCounter h k op) s h stDenied [] s) ∧
      (k.toNat < 8 → op = 1 → Says.framed s h 4 0 (some true) → (127 ≤ v → Says.completes (.knCounter h k op) s h stBadState [] s) ∧
        (v < 127 → st = 3 ∨ st = 4 → ∃ c, Says.completes (.knCounter h k op) s h stOk (Says.num 1 (v + 1) ++ [0, 0, 0]) { s with kn := { s.kn with counters := c } } ∧
          ∀ j, mget (fun _ => 0) c j = if j = k.toNat then v + 1 else mget (fun _ => 0) s.kn.counters j)))

namespace Sys2Proof.Says

open Sys2Proof.Machine

/-- The 48 octets of an event (R482): CODE, zero, BEAT, zero, ARG. -/
def eventOctets (e : Event) : List Octet := num 2 e.code ++ [0, 0] ++ num 6 e.beat.toNat ++ [0, 0] ++ e.arg

/-- Only the host interface, the BAR0 words of l and what left the block differ, but for what a settled state senses and offers. -/
def hostOnly (s t : State) (l : List Nat) : Prop :=
  t = { s with hreg := t.hreg, host := t.host, out := t.out, dev := t.dev, cics := t.cics } ∧ sensed s t ∧ words s t l

/-- A reply in one datagram to a peer, its address and 16 bits of port (R491). -/
def reply (peer session seq tag status : Nat) (data : List Octet) : Out :=
  .datagram (decide (2 ^ 32 ≤ peer / 2 ^ 16)) (peer / 2 ^ 16) (peer % 2 ^ 16)
    (num 4 0x53564342 ++ num 8 session ++ num 8 seq ++ num 2 tag ++ num 2 status ++ num 4 data.length ++ num 4 0 ++ data)

/-- Mailbox m is OFF, its indexes and ERR 0, its channel as at reset but for a command in progress whose completion is to be discarded (R478). -/
def mailboxOff (t : State) (m : Nat) : Prop :=
  t.rd (R.MB_STAT_STATE m) = 0 ∧ t.rd (R.MB_STAT_ERR m) = 0 ∧ t.rd (R.MB_STAT_CHEAD m) = 0 ∧ t.rd (R.MB_STAT_CTAIL m) = 0 ∧ t.rd (R.MB_DB_TAIL m) = 0 ∧
    t.rd (R.MB_CPL_HEAD_V m) = 0 ∧ t.bit (R.MB_CTRL_EN m) = false

end Sys2Proof.Says

/-- A doorbell stores TAIL; in RUN one at or beyond the ring size halts with DB_RANGE. EN = 1 in OFF with right sizes
and bases starts the mailbox, with wrong ones halts it with BAD_SIZE; EN = 0 in RUN stops it, after the command in
progress. RESET leaves OFF and all indexes 0, at once with no command in progress. An event goes to the subscribed
mailbox in RUN whose ring has room, a failed write halts it; or as a datagram to an SVC channel. A function-level or
hot reset with HOST on clears mailboxes, EVT_LOST, HOST_ERR and window bases, and ends subscriptions and sessions of
the mailboxes, with PEER_RESET on its crossing. The link and power states change what host access reaches. A command
that may not start leaves everything; a wrong BVER, TAG 0xFFFF, a wrong LEN, a failed payload read, or a CO command
without such a session completes with BAD_VERSION, BAD_PARAM, DMA_ERR, DENIED. A host that leaves a reset with READY
on is the model's reading (log 10). -/
def Obligations.MailboxResults : Prop :=
  ∀ s : State,
    (∀ (mb : BitVec 4) (v : Reg32), let m := mb.toNat
      let tail := v.toNat % 4096
      let bad := s.rd (R.MB_STAT_STATE m) = 1 ∧ s.cmdSize m ≤ tail
      (¬ bad → ∃ t, exec (.mbDbWrite mb v) s = .next t ∧ Says.regsOnly s t [R.MB_DB m] ∧ t.rd (R.MB_DB_TAIL m) = tail) ∧
      (bad → ∃ t, exec (.mbDbWrite mb v) s = .next t ∧ Says.regsOnly s t [R.MB_DB m, R.MB_STAT m, R.MB_EVT m] ∧ t.rd (R.MB_DB_TAIL m) = tail ∧ t.rd (R.MB_STAT_STATE m) = 2 ∧
        t.rd (R.MB_STAT_ERR m) = 1 ∧ t.bit (R.MB_EVT_HALT m) = true) ∧
      (∃ t, exec (.mbCplHeadWrite mb v) s = .next t ∧ Says.regsOnly s t [R.MB_CPL_HEAD m] ∧ t.rd (R.MB_CPL_HEAD_V m) = tail) ∧
      (v.getLsbD 30 = true → exec (.mbCtrlEn mb v) s = .fault .illFormed) ∧
      (v.getLsbD 30 = false →
        (v.getLsbD 31 = true → s.rd (R.MB_STAT_STATE m) = 0 → s.bit (R.MB_CTRL_EN m) = false → let a := v.toNat / 2 ^ 12 % 16
          let b := v.toNat / 2 ^ 8 % 16
          let right := 4 ≤ a ∧ a ≤ 12 ∧ 4 ≤ b ∧ b ≤ 12 ∧ s.rdW (R.MB_CMD_LO m) % 128 = 0 ∧ s.rdW (R.MB_CPL_LO m) % 64 = 0
          ∃ t, exec (.mbCtrlEn mb v) s = .next t ∧ Says.hostOnly s t [R.MB_CTRL m, R.MB_STAT m, R.MB_EVT m] ∧ t.out = s.out ∧ t.bit (R.MB_CTRL_EN m) = true ∧ t.cmdSize m = 2 ^ a ∧ t.cplSize m = 2 ^ b ∧
            (∀ c, t.chan c = if c = m ∧ right then { s.chan m with phase := true } else s.chan c) ∧
            (right → t.rd (R.MB_STAT_STATE m) = 1) ∧ (¬ right → t.rd (R.MB_STAT_STATE m) = 2 ∧ t.rd (R.MB_STAT_ERR m) = 4 ∧ t.bit (R.MB_EVT_HALT m) = true)) ∧
        (v.getLsbD 31 = false → s.rd (R.MB_STAT_STATE m) = 1 → s.bit (R.MB_CTRL_EN m) = true → ∃ t, exec (.mbCtrlEn mb v) s = .next t ∧ Says.regsOnly s t [R.MB_CTRL m, R.MB_STAT m] ∧
          t.bit (R.MB_CTRL_EN m) = false ∧ t.rd (R.MB_STAT_STATE m) = (if (s.chan m).busy = none then 0 else 1) ∧ t.cmdSize m = s.cmdSize m ∧ t.cplSize m = s.cplSize m)) ∧
      (let ws := [R.MB_CTRL m, R.MB_DB m, R.MB_CPL_HEAD m, R.MB_STAT m, R.MBX_GSTAT, R.KN_STAT, R.SVC_STAT, R.SVC_EVT]
       ((s.chan m).busy = none → ∃ t, exec (.mbCtrlReset mb) s = .next t ∧ Says.hostOnly s t ws ∧ t.out = s.out ∧ Says.mailboxOff t m ∧ t.chan m = {} ∧ (∀ c, c ≠ m → t.chan c = s.chan c) ∧
         t.host.evtMbx = (if s.host.evtMbx = some m then none else s.host.evtMbx)) ∧
       (∀ b, (s.chan m).busy = some b → ∃ t, exec (.mbCtrlReset mb) s = .next t ∧ Says.hostOnly s t ws ∧ t.out = s.out ∧ t.rd (R.MB_STAT_STATE m) = 3 ∧
         t.chan m = { busy := some { b with discard := true } } ∧ (∀ c, c ≠ m → t.chan c = s.chan c)))) ∧
    (∀ ok, s.host.evtMbx = none → ∃ t, exec (.eventDeliver .mailbox ok) s = .next t ∧ Says.regsOnly s t []) ∧
    (∀ m e r, m < 16 → s.stewardUp = true → s.host.evtMbx = some m → s.host.events = e :: r → s.domOn domHost = true → s.host.linkUp = true → s.host.d3hot = false →
      s.rd (R.MB_STAT_STATE m) = 1 → let tail := s.rd (R.MB_STAT_CTAIL m)
      let next := (tail + 1) % s.cplSize m
      (next = s.rd (R.MB_CPL_HEAD_V m) → ∀ ok, ∃ t, exec (.eventDeliver .mailbox ok) s = .next t ∧ Says.regsOnly s t []) ∧
      (next ≠ s.rd (R.MB_CPL_HEAD_V m) →
        (∃ t, exec (.eventDeliver .mailbox true) s = .next t ∧ Says.hostOnly s t [R.MB_STAT m, R.MB_EVT m] ∧ t.rd (R.MB_STAT_CTAIL m) = next % 4096 ∧ t.bit (R.MB_EVT_EVENT m) = true ∧
          t.out = s.out ++ [Says.entry s m 0xFFFF 2 48 0xFFFF (if s.host.lost = true then 4 else 0) (Says.eventOctets e)] ∧ t.host.events = r ∧ t.host.lost = false) ∧
        (∃ t, exec (.eventDeliver .mailbox false) s = .next t ∧ Says.regsOnly s t [R.MB_STAT m, R.MB_EVT m] ∧ t.rd (R.MB_STAT_STATE m) = 2 ∧ t.rd (R.MB_STAT_ERR m) = 2))) ∧
    (∀ (k : BitVec 2) e r, let ch := 16 + k.toNat
      s.stewardUp = true → s.bit R.SVC_STAT_LINK = true → 128 ≤ s.host.svc.mtu.toNat → (s.chan ch).events = e :: r → e.arg.length = 36 →
      ∃ t, exec (.eventDeliver (.svc k) true) s = .next t ∧ Says.hostOnly s t [] ∧ t.chan ch = { s.chan ch with events := r, lost := false } ∧ (∀ c, c ≠ ch → t.chan c = s.chan c) ∧
        t.out = s.out ++ [Says.reply ((s.chan ch).src.getD 0) (((s.chan ch).sess.map (fun x => x.id)).getD 0) 0 0xFFFF 2 (Says.eventOctets e)]) ∧
    (let fresh (t : State) : Prop := t = { s with hreg := t.hreg, force := t.force, host := t.host, cross := t.cross, dev := t.dev, cics := t.cics } ∧
       t.crossAt 29 = { s.crossAt 29 with peer := true } ∧ (∀ x, x ≠ 29 → t.crossAt x = s.crossAt x) ∧
       (∀ off, 0x400 ≤ off ∧ off < 0x800 ∨ 0x808 ≤ off ∧ off < 0x810 ∨ 0xC00 ≤ off ∧ off < 0xC10 → t.word off = wordReset off) ∧
       (∀ c, c < 16 → t.chan c = { busy := (s.chan c).busy.map (fun b => { b with discard := true }) }) ∧ (∀ c, 16 ≤ c → t.chan c = s.chan c) ∧ t.host.d3hot = false ∧
       (∀ m, s.host.evtMbx = some m → m < 16 → t.host.evtMbx = none ∧ t.bit R.MBX_GSTAT_EVT_ON = false) ∧ t.bit R.MBX_GSTAT_READY = s.bit R.MBX_GSTAT_READY ∧ t.word R.SVC_DROP = s.word R.SVC_DROP
     (s.domOn domHost = true → (∃ t, exec .functionLevelReset s = .next t ∧ fresh t ∧ t.bit R.PCIE_EVT_FLR = true ∧ t.bit R.RST_CAUSE_FLR = true) ∧
       ∃ t, exec .hotReset s = .next t ∧ fresh t ∧ t.bit R.PCIE_EVT_HOTRST = true ∧ t.bit R.RST_CAUSE_HOT = true) ∧
     (s.domOn domHost = false → ∀ ins ∈ [Instr.functionLevelReset, .hotReset], ∃ t, exec ins s = .next t ∧ Says.regsOnly s t [])) ∧
    (∀ e : PcieChange, ∃ t, exec (.pcieLinkStateChange e) s = .next t ∧ Says.hostOnly s t [R.PCIE_EVT] ∧ t.out = s.out ∧ match e with
      | .linkUp => t.host = { s.host with linkUp := true } ∧ t.hreg = s.hreg
      | .linkDown => t.host = { s.host with linkUp := false } ∧ t.bit R.PCIE_EVT_LINKDN = true
      | .d3hot => t.host = { s.host with d3hot := true } ∧ t.hreg = s.hreg
      | .d0 => t.host = { s.host with d3hot := false } ∧ t.hreg = s.hreg
      | .aerUncorrectable => t.host = s.host ∧ t.bit R.PCIE_EVT_AER_UNC = true) ∧
    (∀ h : BHdr, let m := h.ch.toNat
      (m < 16 → s.canStart m = false → ∃ t, exec (.nopCommand h) s = .next t ∧ Says.regsOnly s t []) ∧
      (20 ≤ m → exec (.nopCommand h) s = .fault .illFormed) ∧
      (Says.framed s h 0 → Says.completes (.nopCommand h) s h stOk [] s ∧
        (∀ v, v ≠ 1 → Says.completes (.nopCommand { h with bver := v }) s { h with bver := v } stBadVersion [] s) ∧
        (∀ n, n ≠ 0 → Says.completes (.nopCommand { h with len := n }) s { h with len := n } stBadParam [] s) ∧
        Says.completes (.nopCommand { h with tag := 0xFFFF }) s { h with tag := 0xFFFF } stBadParam [] s ∧
        Says.completes (.nopCommand { h with dma := .payload }) s { h with dma := .payload } stDmaErr [] (s.set1 R.HOST_ERR_DMA)) ∧
      (∀ last, Says.framed s h 8 → (∀ x, (s.chan m).sess = some x → x.co = false) → Says.completes (.jrnlDelete h last) s h stDenied [] s) ∧
      (Says.framed s h 0 36 → Says.completes (.devInfo h) s h stOk (Says.num 4 (s.rdW R.FW_VER) ++ Says.num 1 (s.rd R.BOOT_STAT_SLOT) ++ [0, 0, 0] ++ Says.num 4 (s.rdW R.BERTIA_VER)
        ++ Says.num 8 Config.serial.toNat ++ Says.num 4 (s.rdW R.DEV_STEP) ++ Says.num 4 (s.rdW R.FAM_CFG0) ++ Says.num 4 (s.rdW R.FAM_CFG1) ++ Says.num 4 (s.rdW R.KN_VER)) s) ∧
      (∀ mask : Reg32, Says.framed s h 4 → ∃ t, exec (.evtSubscribe h mask) s = .next t ∧ Says.answers s t h stOk [] ∧ (t.chan m).mask = mask ∧
        (mask ≠ 0 → t.host.evtMbx = some m ∧ t.host.events = s.host.events.filter (fun e => mask.getLsbD e.cls) ∧ t.bit R.MBX_GSTAT_EVT_ON = true ∧ t.rd R.MBX_GSTAT_EVT_MBX = m) ∧
        (mask = 0 → s.host.evtMbx = some m → t.host.evtMbx = none ∧ t.bit R.MBX_GSTAT_EVT_ON = false ∧ t.host.events = s.host.events) ∧ (∀ c, c ≠ m → t.chan c = s.chan c)))

/-- With the steward up, the link and the magic right: a source takes its own channel, else the lowest free one, else
is answered NO_SPACE. Without a session only an open opcode waits as a command; another is answered DENIED, one no
chapter defines BAD_OPCODE. With the session's ID a datagram whose SEQ is not greater counts in SVC_DROP, a wrong
signature is answered DENIED and sets AUTHFAIL, and a right one waits and moves SEQ on. A channel with no session is
released at its timeout. The link's changes show in SVC_STAT and SVC_EVT. SVC_CFG sets the configuration within its
ranges and keeps it as a BOOT item; SVC_EXPORT replaces the table at the next edge if each datagram fits the MTU; a
due datagram whose slots are readable leaves with a sequence number, or counts in SVC_DROP. SVC_STATUS reports. How a
command frees its channel at a release, and which address octets SVC_STATUS shows, are the model's choice (log 10). -/
def Obligations.SvcResults : Prop :=
  ∀ s : State,
    (∀ d : SvcDatagram, let own (c : Nat) : Prop := 16 ≤ c ∧ c < 20 ∧ (s.chan c).src = some d.src ∧ ∀ j, 16 ≤ j → j < 20 → j ≠ c → (s.chan j).src ≠ some d.src
      let free (c : Nat) : Prop := 16 ≤ c ∧ c < 20 ∧ (s.chan c).src = none ∧ ∀ j, 16 ≤ j → j < 20 → (s.chan j).src ≠ some d.src ∧ (j < c → (s.chan j).src ≠ none)
      let told (t : State) (st : Nat) (u : State) : Prop := t.out = u.out ++ [Says.reply d.src d.session.toNat d.seq.toNat d.tag.toNat st []] ∧ Says.hostOnly u t [] ∧ t.host = u.host
      let had (c : Nat) : State := s.setChan c { s.chan c with src := some d.src }
      let go (t : State) (u : State) (c : Nat) : Prop := Says.hostOnly s t [] ∧ t.out = s.out ∧ t.chan c = { u.chan c with held := (s.chan c).held ++ [(d.seq.toNat, d.session.toNat)] } ∧
        ∀ j, j ≠ c → t.chan j = s.chan j
      (s.stewardUp = false ∨ s.bit R.SVC_STAT_LINK = false ∨ d.magicOk = false → ∃ t, exec (.svcDatagram d) s = .next t ∧ Says.regsOnly s t []) ∧
      (s.stewardUp = true → s.bit R.SVC_STAT_LINK = true → d.magicOk = true →
        ((∀ j, 16 ≤ j → j < 20 → (s.chan j).src ≠ some d.src ∧ (s.chan j).src ≠ none) → ∃ t, exec (.svcDatagram d) s = .next t ∧ told t stNoSpace s) ∧
        (∀ c, own c ∨ free c →
          (d.session = 0 → d.opcode ∈ [0x0101#16, 0x0102, 0x0601, 0x0602, 0x0603, 0x0604] → ∃ t, exec (.svcDatagram d) s = .next t ∧ go t (had c) c) ∧
          (d.session = 0 → d.opcode ∈ [0x0103#16, 0x0201, 0x0501, 0x0608, 0x0A06] → ∃ t, exec (.svcDatagram d) s = .next t ∧ told t stDenied (had c)) ∧
          (d.session = 0 → d.opcode ∈ [0x0000#16, 0x0109, 0x0511, 0x0B01] → ∃ t, exec (.svcDatagram d) s = .next t ∧ told t stBadOpcode (had c)) ∧
          (d.session ≠ 0 → (∀ x, (s.chan c).sess = some x → x.id ≠ d.session.toNat) → ∃ t, exec (.svcDatagram d) s = .next t ∧ told t stDenied (had c)) ∧
          (∀ x, d.session ≠ 0 → (s.chan c).sess = some x → x.id = d.session.toNat →
            (d.seq.toNat ≤ (s.chan c).seq → ∃ t, exec (.svcDatagram d) s = .next t ∧ Says.hostOnly s t [R.SVC_DROP] ∧ t.out = s.out ∧ Says.counted s t R.SVC_DROP_V ∧ t.host = (had c).host) ∧
            ((s.chan c).seq < d.seq.toNat → d.sigOk = false → ∃ t, exec (.svcDatagram d) s = .next t ∧ told t stDenied ((had c).set1 R.SVC_EVT_AUTHFAIL)) ∧
            ((s.chan c).seq < d.seq.toNat → d.sigOk = true → d.opcode ∈ [0x0101#16, 0x0103, 0x0201, 0x0510, 0x0A06] → ∃ t, exec (.svcDatagram d) s = .next t ∧
              go t ((had c).setChan c { (had c).chan c with seq := d.seq.toNat }) c))))) ∧
    (∀ k : BitVec 2, let c := 16 + k.toNat
      ((s.chan c).src = none ∨ (s.chan c).sess ≠ none → ∃ t, exec (.svcChannelRelease k) s = .next t ∧ Says.regsOnly s t []) ∧
      ((s.chan c).src ≠ none → (s.chan c).sess = none → ∃ t, exec (.svcChannelRelease k) s = .next t ∧ Says.hostOnly s t [] ∧ t.out = s.out ∧ t.chan c = { busy := (s.chan c).busy } ∧
        ∀ j, j ≠ c → t.chan j = s.chan j)) ∧
    (∀ (up : Bool) (sp : BitVec 2),
      (s.bit R.SVC_STAT_LINK = up → ∃ t, exec (.svcLinkChange up sp) s = .next t ∧ Says.regsOnly s t []) ∧
      (s.bit R.SVC_STAT_LINK ≠ up → ∃ t, exec (.svcLinkChange up sp) s = .next t ∧ Says.regsOnly s t [R.SVC_STAT, R.SVC_EVT] ∧ t.bit R.SVC_STAT_LINK = up ∧
        (up = true → t.rd R.SVC_STAT_SPEED = sp.toNat ∧ t.bit R.SVC_EVT_LINKUP = true) ∧ (up = false → t.bit R.SVC_EVT_LINKDN = true))) ∧
    (∀ (i : BitVec 6) (sent : Bool),
      (s.host.exports[i.toNat]? = none → ∃ t, exec (.exportDatagram i sent) s = .next t ∧ Says.regsOnly s t []) ∧
      (∀ e seq first, s.host.exports[i.toNat]? = some (e, seq, first) → let c := s.cfg e.ctx.toNat
        let k := e.k.toNat
        let hdr (j : Nat) : Long := s.long (c.slotAt (BitVec.ofNat 48 (first + j)))
        s.stewardRuns = true → c.on = true → s.ownerOn c = true →
        ((hdr (k - 1)).getLsbD 0 = true → ((hdr (k - 1)).extractLsb' 16 24).toNat = (first + k - 1) % 2 ^ 24 →
          (s.beat.num - BitVec.ofNat 48 (first + (k - 1))).toNat < c.depth → let fits := 36 + 5 * k + (k * c.spb * (if c.store = 2 then 40 else 20) + 7) / 8 + (if e.ip6 = true then 48 else 28) ≤ s.host.svc.mtu.toNat
          let moved (t : State) : Prop := t.host.exports[i.toNat]? = some (e, seq + 1, first + k) ∧ (∀ j, j ≠ i.toNat → t.host.exports[j]? = s.host.exports[j]?)
          (∃ t, exec (.exportDatagram i sent) s = .next t ∧ moved t ∧ t.mem = s.mem) ∧
          (s.eccUnc = [] → sent = true → fits → s.bit R.SVC_STAT_LINK = true → ∃ t, exec (.exportDatagram i sent) s = .next t ∧ Says.hostOnly s t [] ∧ moved t ∧ t.out = s.out ++ [.datagram e.ip6 e.addr.toNat e.port.toNat
            (Says.num 4 0x53564558 ++ Says.num 8 Config.serial.toNat ++ Says.num 2 s.ownAddr ++ Says.num 4 e.ctx.toNat ++ Says.num 6 (first % 2 ^ 48) ++ Says.num 2 k ++ Says.num 2 c.spb
              ++ Says.num 1 (c.fmt * 4 + c.store) ++ [0, 0, 0] ++ Says.num 4 seq ++ Says.longs ((List.range k).map hdr)
              ++ packElems c.store ((List.range k).map (fun j => s.slotElems c (c.slotAt (BitVec.ofNat 48 (first + j))))).flatten)]) ∧
          (s.eccUnc = [] → sent = false ∨ ¬ fits ∨ s.bit R.SVC_STAT_LINK = false → ∃ t, exec (.exportDatagram i sent) s = .next t ∧ Says.hostOnly s t [R.SVC_DROP] ∧ moved t ∧ t.out = s.out ∧
            Says.counted s t R.SVC_DROP_V)) ∧
        ((hdr (k - 1)).getLsbD 0 = false → (s.beat.num - BitVec.ofNat 48 (first + (k - 1))).toNat < c.depth → ∃ t, exec (.exportDatagram i sent) s = .next t ∧ Says.regsOnly s t []))) ∧
    (∀ h : BHdr,
      (∀ c : SvcConfig, Says.framed s h 56 →
        (2 < c.speed.toNat ∨ 3 < c.flags.toNat ∨ c.mtu.toNat < 1500 ∨ 9000 < c.mtu.toNat → Says.completes (.svcCfg h c) s h stBadParam [] s) ∧
        (c.speed.toNat ≤ 2 → c.flags.toNat ≤ 3 → 1500 ≤ c.mtu.toNat → c.mtu.toNat ≤ 9000 → c.pfx4.toNat ≤ 32 → c.pfx6.toNat ≤ 128 → s.jState = 3 → ∃ u, Says.completes (.svcCfg h c) s h stOk [] u ∧
          u.host.svc = c ∧ u.mem = s.mem ∧ (∃ b ∈ u.jrn.blocks, b.chain = 3 ∧ b.bseq = u.nextBseq 3 - 1 ∧ b.state = .durable))) ∧
      (∀ es : List ExportEntry, Says.framed s h (4 + 28 * es.length) → let fits (e : ExportEntry) : Prop := 1 ≤ e.k.toNat ∧ e.k.toNat ≤ 4096 ∧ e.ctx.toNat < 262144 ∧
          36 + 5 * e.k.toNat + (e.k.toNat * (s.cfg e.ctx.toNat).spb * (if (s.cfg e.ctx.toNat).store = 2 then 40 else 20) + 7) / 8 + (if e.ip6 = true then 48 else 28) ≤ s.host.svc.mtu.toNat
        (64 < es.length ∨ (∃ e ∈ es, ¬ fits e) → Says.completes (.svcExport h es) s h stBadParam [] s) ∧
        (es.length ≤ 64 → (∀ e ∈ es, fits e) → Says.completes (.svcExport h es) s h stOk [] { s with host := { s.host with exportsNext := some es } })) ∧
      (Says.framed s h 0 80 → ∃ a : List Nat, a.length = 4 ∧ (∀ k, k < 4 → (s.chan (16 + k)).src = none → a[k]? = some 0) ∧
        Says.completes (.svcStatus h) s h stOk (Says.num 4 (s.rdW R.SVC_STAT) ++ Says.num 4 (s.rdW R.SVC_DROP) ++ (a.map (Says.num 18)).flatten) s))

namespace Sys2Proof.Says

open Sys2Proof.Machine

/-- Memory, its uncorrectable errors and the marks of reduction states stored into (R302) apart, only the BAR0 words of l and what left the block differ, but for what a settled state senses
and offers; no uncorrectable error appears. -/
def memOnly (s t : State) (l : List Nat) : Prop :=
  t = { s with hreg := t.hreg, mem := t.mem, eccUnc := t.eccUnc, red := t.red, out := t.out, dev := t.dev, cics := t.cics } ∧ sensed s t ∧ words s t l ∧
    redBut t.red = redBut s.red ∧
    ∀ k, t.badLong k = true → s.badLong k = true

end Sys2Proof.Says

/-- While the host reaches the device. A BAR2 read at octet b answers grain BAR2_BASE + b/4 sign-extended to 32 bits;
a write with every byte enable stores its low 20 bits there, with another sets HOST_ERR.SIZE and stores nothing. BAR4
octets are those of longs, five a long from BAR4_BASE; the last two of the window read 0 and take no write; a write
stores the octets given. What is not reached reads 0, is not written, and sets HOST_ERR.WIN; context longs 0 to 14
are not written, with HOST_ERR.CTXWR. While the host does not reach it nothing happens. MEM_READ answers the longs,
MEM_WRITE stores them; an odd address, no long, or one in private or unmapped memory is BAD_PARAM, a write of context
longs 0 to 14 DENIED. Memory is what State's place of an address says it is. -/
def Obligations.WindowResults : Prop :=
  ∀ s : State,
    let live := s.domOn domHost = true ∧ s.host.linkUp = true ∧ s.host.d3hot = false
    let a2 (b : Nat) : Nat := (s.rdW R.BAR2_BASE_HI * 2 ^ 32 + s.rdW R.BAR2_BASE_LO + b / 4) % 2 ^ 40
    let a4 (b : Nat) : Nat := (s.rdW R.BAR4_BASE_HI * 2 ^ 32 + s.rdW R.BAR4_BASE_LO + 2 * (b / 5)) % 2 ^ 40
    (∀ (b : BitVec 29) (be : BitVec 4) (v : Reg32), let a := a2 b.toNat
      let e := a / 2 * 2
      (b.toNat % 4 ≠ 0 → exec (.bar2Read b) s = .fault .illFormed ∧ exec (.bar2Write b be v) s = .fault .illFormed) ∧
      (b.toNat % 4 = 0 →
        (¬ live → (∃ t, exec (.bar2Read b) s = .next t ∧ Says.regsOnly s t []) ∧ ∃ t, exec (.bar2Write b be v) s = .next t ∧ Says.regsOnly s t []) ∧
        (live → be ≠ 0xF → ∃ t, exec (.bar2Write b be v) s = .next t ∧ Says.regsOnly s t [R.HOST_ERR] ∧ t.bit R.HOST_ERR_SIZE = true) ∧
        (live → s.winPlace e = .none →
          (∃ t, exec (.bar2Read b) s = .next t ∧ Says.memOnly s t [R.HOST_ERR] ∧ t.mem = s.mem ∧ t.red = s.red ∧ t.bit R.HOST_ERR_WIN = true ∧ t.out = s.out ++ [.barData [0, 0, 0, 0]]) ∧
          (be = 0xF → ∃ t, exec (.bar2Write b be v) s = .next t ∧ Says.regsOnly s t [R.HOST_ERR] ∧ t.bit R.HOST_ERR_WIN = true)) ∧
        (∀ i l, live → s.winPlace e = .ctx i l →
          (∃ t, exec (.bar2Read b) s = .next t ∧ Says.memOnly s t [] ∧ t.mem = s.mem ∧ t.red = s.red ∧
            t.out = s.out ++ [.barData (Says.num 4 ((if a % 2 = 1 then (s.ctxL i l).extractLsb' 20 20 else (s.ctxL i l).extractLsb' 0 20).signExtend 32).toNat)]) ∧
          (l < 15 → be = 0xF → ∃ t, exec (.bar2Write b be v) s = .next t ∧ Says.regsOnly s t [R.HOST_ERR] ∧ t.bit R.HOST_ERR_CTXWR = true)) ∧
        (∀ k, live → s.winPlace e = .mem k → s.badLong k = false →
          (∃ t, exec (.bar2Read b) s = .next t ∧ Says.memOnly s t [] ∧ t.mem = s.mem ∧ t.red = s.red ∧ t.out = s.out ++ [.barData (Says.num 4 ((s.grain (k + a % 2)).signExtend 32).toNat)]) ∧
          (be = 0xF → ∃ t, exec (.bar2Write b be v) s = .next t ∧ Says.memOnly s t [] ∧ t.out = s.out ∧
            ∀ j, t.grain j = if j = k + a % 2 then v.extractLsb' 0 20 else s.grain j)))) ∧
    (∀ (b : BitVec 29) (n : BitVec 13), let lo := b.toNat
      let hi := lo + n.toNat
      (4096 < n.toNat ∨ 2 ^ 29 < hi → exec (.bar4Read b n) s = .fault .illFormed) ∧
      (n.toNat ≤ 4096 → hi ≤ 2 ^ 29 →
        (¬ live → ∃ t, exec (.bar4Read b n) s = .next t ∧ Says.regsOnly s t []) ∧
        (live → (∀ o, lo ≤ o → o < hi → o < 536870910 → ∃ k, s.winPlace (a4 o / 2 * 2) = .mem k ∧ s.badLong k = false) →
          ∃ t d, exec (.bar4Read b n) s = .next t ∧ Says.memOnly s t [] ∧ t.mem = s.mem ∧ t.red = s.red ∧ t.out = s.out ++ [.barData d] ∧ d.length = n.toNat ∧
            (∀ i, i < n.toNat → 536870910 ≤ lo + i → d[i]? = some 0) ∧
            (∀ i k, i < n.toNat → lo + i < 536870910 → s.winPlace (a4 (lo + i) / 2 * 2) = .mem k → d[i]? = some ((s.long k).extractLsb' (8 * ((lo + i) % 5)) 8))) ∧
        (live → n = 1 → lo < 536870910 → s.winPlace (a4 lo / 2 * 2) = .none → ∃ t, exec (.bar4Read b n) s = .next t ∧ Says.memOnly s t [R.HOST_ERR] ∧ t.mem = s.mem ∧ t.red = s.red ∧
          t.bit R.HOST_ERR_WIN = true ∧ t.out = s.out ++ [.barData [0]]))) ∧
    (∀ (b : BitVec 29) (d : List (Option Octet)), let lo := b.toNat
      (4096 < d.length ∨ 2 ^ 29 < lo + d.length → exec (.bar4Write b d) s = .fault .illFormed) ∧
      (d.length ≤ 4096 → lo + d.length ≤ 2 ^ 29 →
        (¬ live ∨ 536870910 ≤ lo ∨ (∀ x ∈ d, x = none) → ∃ t, exec (.bar4Write b d) s = .next t ∧ Says.regsOnly s t []) ∧
        (∀ k, live → lo / 5 = (lo + d.length - 1) / 5 → lo + d.length ≤ 536870910 → a4 lo % 2 = 0 → s.winPlace (a4 lo) = .mem k → s.badLong k = false → k % 2 = 0 →
          ∃ t, exec (.bar4Write b d) s = .next t ∧ Says.memOnly s t [] ∧ t.out = s.out ∧ (∀ j, j ≠ k → j ≠ k + 1 → t.grain j = s.grain j) ∧
            ∀ i, i < 5 → (t.long k).extractLsb' (8 * i) 8 = match (if lo % 5 ≤ i then (d[i - lo % 5]?).getD none else none) with
              | some y => y
              | none => (s.long k).extractLsb' (8 * i) 8))) ∧
    (∀ (h : BHdr) (ga : Long) (n : BitVec 16) (l : List Long), let a := ga.toNat
      (Says.framed s h 8 (5 * n.toNat) →
        (a % 2 = 1 ∨ n = 0 ∨ 8192 < n.toNat ∨ a < 0x90000 → Says.completes (.memRead h ga n) s h stBadParam [] s) ∧
        (a % 2 = 0 → 1 ≤ n.toNat → n.toNat ≤ 8192 →
          (∀ f : Nat → Nat, (∀ j, j < n.toNat → s.stewPlace (a + 2 * j) = .mem (f j) ∧ s.badLong (f j) = false) →
            Says.completes (.memRead h ga n) s h stOk (Says.longs ((List.range n.toNat).map (fun j => s.long (f j)))) s) ∧
          ((∃ j, j < n.toNat ∧ s.stewPlace (a + 2 * j) = .bad) → Says.completes (.memRead h ga n) s h stBadParam [] s) ∧
          ((∃ j, j < n.toNat ∧ s.stewPlace (a + 2 * j) = .off) → (∀ j, j < n.toNat → s.stewPlace (a + 2 * j) ≠ .bad) → Says.completes (.memRead h ga n) s h stBadState [] s))) ∧
      (Says.framed s h (8 + 5 * l.length) →
        (a % 2 = 1 ∨ l = [] ∨ 8192 < l.length ∨ a < 0x90000 → Says.completes (.memWrite h ga l) s h stBadParam [] s) ∧
        (∀ i j, l.length = 1 → i < 2 ^ 18 → j < 15 → a = 0x50000000 + 32 * i + 2 * j → Says.completes (.memWrite h ga l) s h stDenied [] s) ∧
        (∀ k, a % 2 = 0 → 1 ≤ l.length → l.length ≤ 8192 → k % 2 = 0 → (∀ j, j < l.length → s.stewPlace (a + 2 * j) = .mem (k + 2 * j)) →
          ∃ u, Says.completes (.memWrite h ga l) s h stOk [] u ∧ Says.memOnly s u [] ∧ u.out = s.out ∧ (∀ j v, l[j]? = some v → u.long (k + 2 * j) = v) ∧
            ∀ g, g < k ∨ k + 2 * l.length ≤ g → u.grain g = s.grain g)))

/-- With no domain waiting for a transition and no fabric link. Only offsets of whole words are operands. The host
reaches BAR0 while HOST is on, its link up, in D0; the steward while its core runs; otherwise nothing happens. A host
write without every byte enable sets HOST_ERR.SIZE and nothing else. RW bits take the value, RO and RC words and
offsets not listed are left, W1C bits written 1 clear; a staged word takes its staged value, but while a commit is
pending the write is ignored and IGNORED sets. A write of MB_DB, MB_CTRL, BEAT_CTRL or WH_FIRE has the effect of its
own command; a host write of STEW_WDT has none. A read answers the word; a counter that clears on read returns to 0,
and BEAT_NUM_LO latches its upper half. -/
def Obligations.RegisterAccessResults : Prop :=
  ∀ s : State, s.pwr.slot = [] → Says.noLink s → let host := s.domOn domHost = true ∧ s.host.linkUp = true ∧ s.host.d3hot = false
    let stew := s.domOn domSteward = true ∧ (s.core 1024).takes = true
    (∀ who off be v, off.toNat % 4 ≠ 0 → exec (.registerWrite who off be v) s = .fault .illFormed ∧ exec (.readClear who off) s = .fault .illFormed) ∧
    (¬ host → ∀ off be v, off.toNat % 4 = 0 → (∃ t, exec (.registerWrite .host off be v) s = .next t ∧ Says.regsOnly s t []) ∧ ∃ t, exec (.readClear .host off) s = .next t ∧ Says.regsOnly s t []) ∧
    (¬ stew → ∀ off be v, off.toNat % 4 = 0 → (∃ t, exec (.registerWrite .steward off be v) s = .next t ∧ Says.regsOnly s t []) ∧ ∃ t, exec (.readClear .steward off) s = .next t ∧ Says.regsOnly s t []) ∧
    (host → ∀ off be v, off.toNat % 4 = 0 → be ≠ 0xF → ∃ t, exec (.registerWrite .host off be v) s = .next t ∧ Says.regsOnly s t [R.HOST_ERR] ∧ t.bit R.HOST_ERR_SIZE = true) ∧
    (∀ who, (if who = .host then host else stew) → ∀ v : Reg32, let put (off : Nat) := exec (.registerWrite who (BitVec.ofNat 16 off) 0xF v) s
      (∃ t, put R.J_EVT_EN = .next t ∧ Says.regsOnly s t [R.J_EVT_EN] ∧ t.word R.J_EVT_EN = ((s.word R.J_EVT_EN &&& 0xFFFFFF00) ||| (v &&& 0xFF))) ∧
      (∃ t, put R.J_EVT = .next t ∧ Says.regsOnly s t [R.J_EVT] ∧ t.word R.J_EVT = (s.word R.J_EVT &&& ~~~(v &&& 0xFF))) ∧
      (∀ off, off = R.SEAL_IVL ∨ off = R.DROP_ESS ∨ off = R.J_STAT ∨ off = 0x7050 ∨ off = 0x0900 → ∃ t, put off = .next t ∧ Says.regsOnly s t []) ∧
      (s.bit R.COMMIT_STAT_PENDING = false → ∃ t, put R.J_CFG = .next t ∧ Says.regsOnly s t [R.J_CFG] ∧ t.word R.J_CFG = ((s.word R.J_CFG &&& 0xE000FFFF) ||| (v &&& 0x1FFF0000))) ∧
      (s.bit R.COMMIT_STAT_PENDING = true → ∃ t, put R.J_CFG = .next t ∧ Says.regsOnly s t [R.COMMIT_STAT, R.BEAT_INT_STAT] ∧ t.bit R.COMMIT_STAT_IGNORED = true ∧ t.bit R.BEAT_INT_STAT_IGNORED = true) ∧
      (∀ mb : BitVec 4, put (R.MB_DB mb.toNat) = exec (.mbDbWrite mb v) s ∧ put (R.MB_CTRL mb.toNat) = exec (if v.getLsbD 30 = true then .mbCtrlReset mb else .mbCtrlEn mb v) s) ∧
      (put R.BEAT_CTRL = exec (if v.getLsbD 31 = true then .beatRunStart v else .beatRunStop v) s) ∧
      (put R.WH_FIRE = exec (.whFireWrite v) s) ∧
      (∃ t, exec (.readClear who (BitVec.ofNat 16 R.DROP_ESS)) s = .next t ∧ Says.hostOnly s t [R.DROP_ESS] ∧ t.host = s.host ∧ t.rdW R.DROP_ESS = 0 ∧ t.out = s.out ++ [.readData R.DROP_ESS (s.rdW R.DROP_ESS)]) ∧
      (∃ t, exec (.readClear who (BitVec.ofNat 16 R.SEAL_IVL)) s = .next t ∧ Says.hostOnly s t [] ∧ t.host = s.host ∧ t.out = s.out ++ [.readData R.SEAL_IVL (s.rdW R.SEAL_IVL)]) ∧
      (∃ t, exec (.readClear who (BitVec.ofNat 16 R.BEAT_NUM_LO)) s = .next t ∧ Says.hostOnly s t [R.BEAT_NUM_HI] ∧ t.host = s.host ∧ t.rdW R.BEAT_NUM_HI = s.beat.num.toNat / 2 ^ 32 ∧
        t.out = s.out ++ [.readData R.BEAT_NUM_LO (s.beat.num.toNat % 2 ^ 32)])) ∧
    (host → ∀ v, ∃ t, exec (.registerWrite .host (BitVec.ofNat 16 R.STEW_WDT) 0xF v) s = .next t ∧ Says.regsOnly s t [])

/-- Each framed command of a mailbox completes, PPS_SECOND with the pulse it names or its timeout. On a node that is
neither ALONE nor MASTER, TIME_SET_TAI and TIME_STEP answer BAD_STATE. TIME_SET_TAI sets EPOCH_TAI, TAI_UTC and
TAI_VALID, leaves pack time, and emits a STEP_CMD record; a step below 2^55 ns waits for the next edge. PTP_CFG
within its ranges acts at once; PTP_STATUS reports, its port state being open (log 1). PROG_LOAD writes the grains
into the local store of each core of the mask, each held or halted, or else writes nothing and answers BAD_STATE;
into cluster memory or DRAM; it answers the hash of the packed grains, and with NOTIFY sends its 3-long message.
CORE_HOLD resets cores at once and holds them; CORE_START releases the held ones at once while the beat is stopped,
else at the next edge; CORE_RESUME continues a halted core at the named pc, all other registers kept, and answers
BAD_STATE for another; CORE_STATE answers the 16 states. -/
def Obligations.TimeAndCoreCommandResults : Prop :=
  ∀ (s : State) (h : BHdr), Says.noLink s → let m := h.ch.toNat
    let leads := s.role = roleAlone ∨ s.role = roleMaster
    (∀ (sec : BitVec 48) (ns : Reg32) (utc : BitVec 16), Says.framed s h 12 →
      (¬ leads → Says.completes (.timeSetTai h sec ns utc) s h stBadState [] s) ∧
      (leads → 1000000000 ≤ ns.toNat → Says.completes (.timeSetTai h sec ns utc) s h stBadParam [] s) ∧
      (leads → ns.toNat < 1000000000 → s.jState = 0 ∨ s.jState = 1 ∨ s.jState = 2 ∨ s.jState = 6 → s.jrn.pf = none → s.holdUsed + 100 ≤ 262144 →
        ∃ u r, Says.completes (.timeSetTai h sec ns utc) s h stOk [] u ∧ u = { s with hreg := u.hreg, jrn := u.jrn, free := u.free } ∧
          Says.words s u [R.EPOCH_TAI_SEC_LO, R.EPOCH_TAI_SEC_HI, R.EPOCH_TAI_NS, R.TAI_UTC, R.BEAT_STAT, R.BEAT_INT_STAT] ∧
          u.rdW R.EPOCH_TAI_SEC_LO = sec.toNat % 2 ^ 32 ∧ u.rdW R.EPOCH_TAI_SEC_HI = sec.toNat / 2 ^ 32 ∧ u.rdW R.EPOCH_TAI_NS = ns.toNat ∧ u.rdW R.TAI_UTC = utc.toNat ∧
          u.bit R.BEAT_STAT_TAI_VALID = true ∧ u.bit R.BEAT_INT_STAT_DISC = true ∧ u.jrn = { s.jrn with hold := s.jrn.hold ++ [r] } ∧ r.rtype = 7 ∧ r.subject = 2 ∧ r.beat = s.beat.num)) ∧
    (∀ step : BitVec 64, Says.framed s h 8 →
      (¬ leads → Says.completes (.timeStep h step) s h stBadState [] s) ∧
      (leads → 2 ^ 55 ≤ step.toInt.natAbs → Says.completes (.timeStep h step) s h stBadParam [] s) ∧
      (leads → step.toInt.natAbs < 2 ^ 55 → Says.completes (.timeStep h step) s h stOk [] { s with beat := { s.beat with pendStep := some (step.toInt * nsU, 2) } })) ∧
    (∀ sec : BitVec 48, Says.framed s h 8 → s.beat.ppsSec = none → ∃ t, exec (.ppsSecond h sec) s = .next t ∧ Says.waits s t h ∧ t.out = s.out ∧ t.mem = s.mem ∧ t.jrn = s.jrn ∧
      t.beat = { s.beat with ppsSec := some (sec.toNat, s.time + 1000000 * nsU, m) }) ∧
    (∀ c : PtpConfig, Says.framed s h 12 → let ok := c.profile.toNat ≤ 1 ∧ c.transport.toNat ≤ 2 ∧ c.domain.toNat ≤ 127 ∧ c.flags.toNat ≤ 3 ∧ -7 ≤ c.logSync.toInt ∧ c.logSync.toInt ≤ 1 ∧
        -3 ≤ c.logAnnounce.toInt ∧ c.logAnnounce.toInt ≤ 4 ∧ -7 ≤ c.logDelayReq.toInt ∧ c.logDelayReq.toInt ≤ 5
      (ok → Says.completes (.ptpCfg h c) s h stOk [] { s with host := { s.host with ptp := c } }) ∧ (¬ ok → Says.completes (.ptpCfg h c) s h stBadParam [] s)) ∧
    (Says.framed s h 0 36 → ∃ u p, u = { s with free := u.free } ∧ Says.completes (.ptpStatus h) s h stOk ([p, 0, 0, 0] ++ Says.num 8 (BitVec.ofInt 64 s.host.ptpOffset).toNat ++ Says.num 8 (s.host.ptpDelay / 4)
      ++ Says.num 8 s.host.ptpGm.toNat ++ Says.num 2 s.host.ptpSteps ++ (match s.host.ptpUtc with
        | some x => Says.num 2 x.toNat ++ [1]
        | none => [0, 0, 0]) ++ [0, 0, 0]) u) ∧
    (∀ (tg cl : Octet) (mask : BitVec 16) (ga : Long) (nt : Bool) (nq : BitVec 16) (l : List Grain), Says.framed s h (16 + (20 * l.length + 7) / 8) 48 →
      let a := ga.toNat
      let n := l.length
      let c := cl.toNat
      let load := Instr.progLoad h tg cl mask ga nt nq l
      let hash := Says.num 48 (Config.sha384 (packBits 20 (l.map (fun g => g.toNat)))).toNat
      let at' (u : State) (base : Nat) : Prop := (∀ j g, l[j]? = some g → u.grain (base + j) = g)
      let memo (u : State) : Prop := u = { s with mem := u.mem, eccUnc := u.eccUnc, red := u.red } ∧ redBut u.red = redBut s.red
      (2 < tg.toNat ∨ l = [] ∨ tg ≠ 2 ∧ 64 ≤ c ∨ tg ≠ 0 ∧ mask ≠ 0 → Says.completes load s h stBadParam [] s) ∧
      (tg = 0 → c < 64 → 1 ≤ n → n ≤ 6000000 → a + n ≤ 0x8000 →
        (s.domOn (domCluster c) = false ∨ (∃ k, k < 16 ∧ mask.getLsbD k = true ∧ (s.core (16 * c + k)).run ≠ .held ∧ (s.core (16 * c + k)).isHalted = false) → Says.completes load s h stBadState [] s) ∧
        (s.domOn (domCluster c) = true → (∀ k, k < 16 → mask.getLsbD k = true → (s.core (16 * c + k)).run = .held ∨ (s.core (16 * c + k)).isHalted = true) → (∀ k, s.badLong k = false) →
          (nt = false → ∃ u, Says.completes load s h stOk hash u ∧ memo u ∧ (∀ k, k < 16 → mask.getLsbD k = true → at' u (keyLocal (16 * c + k) a)) ∧
            ∀ g, (∀ k, k < 16 → mask.getLsbD k = true → g < keyLocal (16 * c + k) a ∨ keyLocal (16 * c + k) a + n ≤ g) → u.grain g = s.grain g) ∧
          (nt = true → s.domOn domQueue = true → Says.accepts s nq.toNat → ∃ u, Says.completes load s h stOk hash u ∧ (u.queue nq.toNat).msgs = (s.queue nq.toNat).msgs ++
            [{ longs := [BitVec.ofNat 40 (6 * 2 ^ 36 + h.tag.toNat), ga, BitVec.ofNat 40 n] }]))) ∧
      (tg = 1 → c < 64 → mask = 0 → 1 ≤ n → n ≤ 6000000 → nt = false → 0x10000 ≤ a → a + n ≤ 0x90000 →
        (s.domOn (domCluster c) = false → Says.completes load s h stBadState [] s) ∧
        (s.domOn (domCluster c) = true → (∀ k, s.badLong k = false) → let base := clusterBase c + (a - 0x10000)
          ∃ u, Says.completes load s h stOk hash u ∧ memo u ∧ at' u base ∧ ∀ g, g < base ∨ base + n ≤ g → u.grain g = s.grain g)) ∧
      (tg = 2 → mask = 0 → 1 ≤ n → n ≤ 6000000 → nt = false → 0x1000000000 ≤ a → a % 0x800000000 + n ≤ 0x800000000 → a < 0x3000000000 → let k := (a - 0x1000000000) / 0x800000000
        (s.domOn domMem = false → a % 0x800000000 + n ≤ s.dramInstalled k → Says.completes load s h stBadState [] s) ∧
        (s.domOn domMem = true → a % 0x800000000 + n ≤ s.dramGrains k → (∀ k, s.badLong k = false) → ∃ u, Says.completes load s h stOk hash u ∧ memo u ∧ at' u a ∧ ∀ g, g < a ∨ a + n ≤ g → u.grain g = s.grain g))) ∧
    (∀ (cl : Octet) (mask : BitVec 16), let c := cl.toNat
      let named (i : Nat) : Prop := i / 16 = c ∧ mask.getLsbD (i % 16) = true
      let co (u : State) : Prop := u = { s with cores := u.cores, cics := u.cics, host := u.host }
      (Says.framed s h 4 → 64 ≤ c → Says.completes (.coreHold h cl mask) s h stBadParam [] s ∧ Says.completes (.coreStart h cl mask) s h stBadParam [] s) ∧
      (Says.framed s h 4 → c < 64 → s.domOn (domCluster c) = true →
        (∃ u, Says.completes (.coreHold h cl mask) s h stOk [] u ∧ co u ∧ (∀ i, named i → u.core i = { run := .held, work := s.beat.num, report := (s.core i).report }) ∧
          (∀ i, ¬ named i → u.core i = s.core i) ∧ u.host = { s.host with startAtEdge := u.host.startAtEdge } ∧ ∀ i ∈ u.host.startAtEdge, i ∈ s.host.startAtEdge ∧ ¬ named i) ∧
        (s.bit R.BEAT_STAT_RUNNING = true → ∃ u, Says.completes (.coreStart h cl mask) s h stOk [] u ∧ u = { s with host := u.host } ∧
          ∀ i, i ∈ u.host.startAtEdge ↔ i ∈ s.host.startAtEdge ∨ named i ∧ (s.core i).run = .held) ∧
        (s.bit R.BEAT_STAT_RUNNING = false → (∀ i, named i → (s.core i).haltReq = false) → ∃ u, Says.completes (.coreStart h cl mask) s h stOk [] u ∧ u = { s with cores := u.cores, clus := u.clus } ∧
          (∀ k, u.clu k = s.clu k ∨ k = c ∧ u.clu k = { s.clu c with busy := true }) ∧ ∀ i, u.core i = if i / 16 = c ∧ mask.getLsbD (i % 16) = true ∧ (s.core i).run = .held then { s.core i with run := .running, work := s.beat.num } else s.core i)) ∧
      (Says.framed s h 4 16 → (64 ≤ c → Says.completes (.coreState h cl) s h stBadParam [] s) ∧
        (c < 64 → Says.completes (.coreState h cl) s h stOk ((List.range 16).map (fun k => if s.domOn (domCluster c) = false then 4 else match (s.core (16 * c + k)).run with
          | .running => 0
          | .bwait _ => 1
          | .held => 3
          | _ => 2)) s)) ∧
      (∀ (k : Octet) (pc : Long), Says.framed s h 12 → let i := 16 * c + k.toNat
        (64 ≤ c ∨ 16 ≤ k.toNat → Says.completes (.coreResume h cl k pc) s h stBadParam [] s) ∧
        (c < 64 → k.toNat < 16 → (s.domOn (domCluster c) = false ∨ (s.core i).isHalted = false → Says.completes (.coreResume h cl k pc) s h stBadState [] s) ∧
          (s.domOn (domCluster c) = true → (s.core i).isHalted = true → ∃ u, Says.completes (.coreResume h cl k pc) s h stOk [] u ∧ u = { s with cores := u.cores, clus := u.clus } ∧ (∀ j, j ≠ i → u.core j = s.core j) ∧
            u.clu c = { s.clu c with busy := true } ∧ (∀ j, j ≠ c → u.clu j = s.clu j) ∧
            u.core i = { s.core i with run := .running, pc := pc, prev := none, step := ((s.core i).ccbL 0x40).getLsbD 0, brkPass := (u.core i).brkPass, watchPass := (u.core i).watchPass }))))

namespace Sys2Proof.Says

open Sys2Proof.Machine

/-- The domains that domain d needs on (R501). -/
def needs (d : Nat) : List Nat := if 64 ≤ d then [3, 4] else if 8 ≤ d ∧ d < 20 then [3] else if d = 7 then [6] else []

end Sys2Proof.Says

/-- PWR_SET refuses what is no domain or state, HOST out of on from a mailbox, a domain whose suppliers are not on, a
supplier of what is on; in the state asked it does nothing; with a transition under way the request waits in the
slot, and replaces what waited; a domain whose condition holds starts, and the command waits; a cluster that must
wait for an edge waits in the slot. The end of a transition writes STATE and TRANS, sets DONE, and completes the
command; a cluster gone off loses its memory (a lost grain reads 0: log 2) and its cores are in core reset, one from
retention keeps both; channels A to D of MEM from off are trained or not; a cluster comes on at an edge while the
beat runs. PWR_STATUS and SPEED_READ report; PWR_DPL sets the level, and to or from PL0 retrains fast channels with
MEM not on, whose end turns it on again. A measured table becomes the cluster's, sets SPEED, and ends the
SPEED_MEASURE that waited for it last. A junction at TJ_WARN or above sets TJ, one at 115 degrees drives THERMTRIP_N
once, unless the TAP has the pins. The waiting of DPL commands for nothing, and the word for an unmeasured table, are
the model's (log 14). -/
def Obligations.PowerResults : Prop :=
  ∀ s : State,
    (∀ h : BHdr, let m := h.ch.toNat
      (∀ dom st : Octet, Says.framed s h 4 4 → let d := dom.toNat
        let v := if d = 2 ∧ st = 1 then 0 else st.toNat
        let now := s.rd (R.PD_STAT_STATE d)
        let src := if d = 1 ∧ s.bit R.BEAT_STAT_RUNNING = true ∧ st ≠ 2 then 4 else 1
        let known := 1 ≤ d ∧ d < 20 ∨ 64 ≤ d ∧ d < 128
        let free := known ∧ st.toNat ≤ 2 ∧ (d = 5 → st = 2) ∧ (st = 2 → ∀ e ∈ Says.needs d, s.domOn e = true) ∧
          (st ≠ 2 → now = 2 → ∀ e, e < 128 → d ∈ Says.needs e → (e < 20 ∨ 64 ≤ e) → s.domOn e = false)
        let ans (o : Nat) : List Octet := Says.num 1 o ++ Says.num 1 now ++ [0, 0]
        (¬ known ∨ 2 < st.toNat → Says.completes (.pwrSet h dom st) s h stBadParam [] s) ∧
        (d = 5 → st.toNat < 2 → Says.completes (.pwrSet h dom st) s h stDenied [] s) ∧
        (known → st = 2 → (∃ e ∈ Says.needs d, s.domOn e = false) → Says.completes (.pwrSet h dom st) s h stBadState [] s) ∧
        (known → d ≠ 5 → st.toNat < 2 → now = 2 → (∃ e, (8 ≤ e ∧ e < 20 ∨ 64 ≤ e ∧ e < 128 ∨ e = 7) ∧ d ∈ Says.needs e ∧ s.domOn e = true) →
          Says.completes (.pwrSet h dom st) s h stBadState [] s) ∧
        (free → s.slotOf d = none → s.bit (R.PD_STAT_BUSY d) = false → now = v → Says.completes (.pwrSet h dom st) s h stOk (ans 0) s) ∧
        (free → s.bit (R.PD_STAT_BUSY d) = true → ∀ r, s.slotOf d = r → ∃ u, Says.completes (.pwrSet h dom st) s h stOk (ans 1) u ∧
          u = { s with hreg := u.hreg, pwr := { s.pwr with slot := u.pwr.slot } } ∧ Says.words s u (if r = none then [R.PD_STAT d] else [R.PD_STAT d, R.PWR_EVT]) ∧
          u.slotOf d = some ⟨v, src, none⟩ ∧ (∀ e, e ≠ d → u.slotOf e = s.slotOf e) ∧ u.bit (R.PD_STAT_PEND d) = true ∧ u.rd (R.PD_STAT_PEND_STATE d) = v ∧
          u.bit (R.PD_STAT_WAIT d) = false ∧ (r ≠ none → u.bit R.PWR_EVT_REPLACED = true)) ∧
        (free → s.slotOf d = none → s.bit (R.PD_STAT_BUSY d) = false → now ≠ 2 → st = 2 → (d < 64 ∨ s.bit R.BEAT_STAT_RUNNING = false) →
          ∃ t, exec (.pwrSet h dom st) s = .next t ∧ Says.waits s t h ∧ Says.words s t [R.PD_STAT d, R.PWR_STAT, R.MB_STAT m] ∧ t.rd (R.PD_STAT_STATE d) = now ∧
            t.bit (R.PD_STAT_BUSY d) = true ∧ t.rd (R.PD_STAT_LAST_SRC d) = 1 ∧ mget (fun _ => none) t.pwr.trans d = some ⟨2, 1, some m⟩ ∧ t.domOn d = false ∧
            t.mem = s.mem ∧ t.cores = s.cores ∧ t.out = s.out) ∧
        (free → s.slotOf d = none → s.bit (R.PD_STAT_BUSY d) = false → now = 2 → st.toNat < 2 → 64 ≤ d →
          (s.bit R.BEAT_STAT_RUNNING = false → (∀ k, k < 16 → (s.core (16 * (d - 64) + k)).run ≠ .running) →
            ∃ t, exec (.pwrSet h dom st) s = .next t ∧ Says.waits s t h ∧ t.bit (R.PD_STAT_BUSY d) = true ∧ t.rd (R.PD_STAT_LAST_SRC d) = 1 ∧
              mget (fun _ => none) t.pwr.trans d = some ⟨st.toNat, 1, some m⟩ ∧ t.domOn d = false ∧ t.mem = s.mem ∧ t.cores = s.cores ∧
              (s.pwr.measCmd = none → t.out = s.out) ∧
              (st = 1 → t.rd (R.CL_VOLT_V (d - 64)) = 0x2D)) ∧
          (s.bit R.BEAT_STAT_RUNNING = true ∨ (∃ k, k < 16 ∧ (s.core (16 * (d - 64) + k)).run = .running) → ∃ u, Says.completes (.pwrSet h dom st) s h stOk (ans 1) u ∧
            u = { s with hreg := u.hreg, pwr := { s.pwr with slot := u.pwr.slot } } ∧ Says.words s u [R.PD_STAT d] ∧ u.slotOf d = some ⟨st.toNat, 1, none⟩ ∧
            (∀ e, e ≠ d → u.slotOf e = s.slotOf e) ∧ u.bit (R.PD_STAT_PEND d) = true ∧ u.rd (R.PD_STAT_PEND_STATE d) = st.toNat ∧ u.bit (R.PD_STAT_WAIT d) = true ∧
            u.domOn d = true))) ∧
      (∀ a n : Octet, Says.framed s h 4 (4 * n.toNat) → let bad := n = 0 ∨ 128 < n.toNat ∨ 128 < a.toNat + n.toNat ∨ ∃ k, k < n.toNat ∧ 20 ≤ a.toNat + k ∧ a.toNat + k < 64
        (bad → Says.completes (.pwrStatus h a n) s h stBadParam [] s) ∧
        (¬ bad → Says.completes (.pwrStatus h a n) s h stOk ((List.range n.toNat).map (fun k => Says.num 4 (s.rdW (R.PD_STAT (a.toNat + k))))).flatten s)) ∧
      (∀ l : Octet, Says.framed s h 4 → let k := l.toNat
        let old := s.rd R.PWR_STAT_DPL
        let fast (c : Nat) : Prop := s.rd (R.DDR_STAT_STATE c) = 2 ∧ s.rd (R.DDR_STAT_TYPE c) = 2
        let retrain := old ≠ k ∧ (old = 0 ∨ k = 0) ∧ (∃ c, c < 4 ∧ fast c) ∧ s.domOn domMem = true
        (3 < k → Says.completes (.pwrDpl h l) s h stBadParam [] s) ∧
        (k ≤ 3 → ¬ retrain → ∃ u, Says.completes (.pwrDpl h l) s h stOk [] u ∧ u = { s with hreg := u.hreg } ∧ Says.words s u [R.PWR_STAT] ∧ u.rd R.PWR_STAT_DPL = k ∧
          u.rd R.PWR_STAT_ON = s.rd R.PWR_STAT_ON) ∧
        (k ≤ 3 → retrain → ∃ u, Says.completes (.pwrDpl h l) s h stOk [] u ∧ u = { s with hreg := u.hreg, pwr := { s.pwr with retrain := true } } ∧
          Says.words s u [R.PWR_STAT, R.PD_STAT 6, R.DDR_STAT 0, R.DDR_STAT 1, R.DDR_STAT 2, R.DDR_STAT 3] ∧ u.rd R.PWR_STAT_DPL = k ∧ u.domOn domMem = false ∧
          ∀ c, c < 4 → (fast c → u.rd (R.DDR_STAT_STATE c) = 1) ∧ (¬ fast c → u.rd (R.DDR_STAT_STATE c) = s.rd (R.DDR_STAT_STATE c)))) ∧
      (∀ cl : Octet, let c := cl.toNat
        (Says.framed s h 4 46 →
          (64 ≤ c → Says.completes (.speedRead h cl) s h stBadParam [] s) ∧
          (c < 64 → mget (fun _ => none) s.pwr.speed c = none → Says.completes (.speedRead h cl) s h stBadState [] s) ∧
          (∀ t tj, c < 64 → mget (fun _ => none) s.pwr.speed c = some (t, tj) →
            Says.completes (.speedRead h cl) s h stOk (Says.num 2 tj ++ [0, 0] ++ ((List.range 21).map (fun k => Says.num 2 (t.getD k 0))).flatten) s)) ∧
        (Says.framed s h 4 → let l := (if c = 255 then List.range 64 else [c]).filter (fun k => s.domOn (64 + k))
          (64 ≤ c → c ≠ 255 → Says.completes (.speedMeasure h cl) s h stBadParam [] s) ∧
          (c < 64 ∨ c = 255 → (s.pwr.measCmd ≠ none → Says.completes (.speedMeasure h cl) s h stBusy [] s) ∧
            (s.pwr.measCmd = none → (l = [] → Says.completes (.speedMeasure h cl) s h stBadState [] s) ∧
              (l ≠ [] → ∃ t, exec (.speedMeasure h cl) s = .next t ∧ Says.waits s t h ∧ Says.words s t [R.MB_STAT m] ∧ t.out = s.out ∧
                t.pwr = { s.pwr with measuring := t.pwr.measuring, measCmd := some (m, l) } ∧ (∀ k, k ∈ t.pwr.measuring ↔ k ∈ s.pwr.measuring ∨ k ∈ l))))))) ∧
    (∀ (dom : BitVec 7) (e : TransitionEnd), s.pwr.slot = [] → let d := dom.toNat
      (mget (fun _ => none) s.pwr.trans d = none → ∃ t, exec (.domainTransitionDone dom e) s = .next t ∧ Says.regsOnly s t []) ∧
      (∀ r, mget (fun _ => none) s.pwr.trans d = some r → r.state ≤ 2 → let atEdge := 64 ≤ d ∧ r.state = 2 ∧ s.bit R.BEAT_STAT_RUNNING = true
        (atEdge → ∃ t, exec (.domainTransitionDone dom e) s = .next t ∧ Says.words s t [] ∧ t = { s with hreg := t.hreg, pwr := t.pwr, dev := t.dev, cics := t.cics } ∧
          t.pwr = { s.pwr with ripe := t.pwr.ripe } ∧ (∀ k, k ∈ t.pwr.ripe ↔ k ∈ s.pwr.ripe ∨ k = d)) ∧
        (¬ atEdge → (d = 2 → s.kn.latched = false) → let was := s.rd (R.PD_STAT_STATE d)
          ∃ t, exec (.domainTransitionDone dom e) s = .next t ∧ t.rd (R.PD_STAT_STATE d) = r.state ∧ t.bit (R.PD_STAT_BUSY d) = false ∧
            t.rd (R.PD_STAT_TRANS d) = (s.rd (R.PD_STAT_TRANS d) + 1) % 65536 ∧ t.bit R.PWR_EVT_DONE = true ∧ mget (fun _ => none) t.pwr.trans d = none ∧
            (t.domOn d = true ↔ r.state = 2) ∧ (∀ k, k < 128 → k ≠ d → t.word (R.PD_STAT k) = s.word (R.PD_STAT k)) ∧
            (8 ≤ d ∨ d = 3 ∨ d = 4 → ∀ m b, r.cmd = some m → Says.canEnd s m b → (∃ pre, t.out = s.out ++ pre ++ [Says.endOf s m b ([0] ++ Says.num 1 r.state ++ [0, 0])]) ∧
              (t.chan m).busy = none) ∧
            (64 ≤ d → r.state = 0 → let c := d - 64
              (∀ k, (clusterBase c ≤ k ∧ k < clusterBase (c + 1)) ∨ (keyLocal (16 * c) 0 ≤ k ∧ k < keyLocal (16 * c + 16) 0) → t.grain k = 0) ∧
              (∀ k, ¬ (clusterBase c ≤ k ∧ k < clusterBase (c + 1)) → ¬ (keyLocal (16 * c) 0 ≤ k ∧ k < keyLocal (16 * c + 16) 0) → t.grain k = s.grain k) ∧
              (∀ k, k < 16 → (t.core (16 * c + k)).run = .held) ∧ (∀ k, k / 16 ≠ c → t.core k = s.core k)) ∧
            (64 ≤ d → was = 1 → r.state = 2 → t.mem = s.mem ∧ ∀ i, (t.core i).pc = (s.core i).pc ∧ (t.core i).st = (s.core i).st ∧ (∀ y, (t.core i).gr y = (s.core i).gr y)) ∧
            (∀ tr g k5, e = .ddr tr g k5 → d = 6 → was = 0 → r.state = 2 → ∀ k, k < 4 →
              t.rd (R.DDR_STAT_STATE k) = (if g.getD k 0 = 0 then 0 else if tr.getLsbD k = true then 2 else 3) ∧
              (g.getD k 0 ≠ 0 → t.rd (R.DDR_STAT_TYPE k) = (if k5.getLsbD k = true then 2 else 1) ∧ t.rd (R.DDR_STAT_V k) = (g.getD k 0).toNat ∧
                (tr.getLsbD k = false → t.bit (R.DDR_EVT_TRAIN_FAIL k) = true)))))) ∧
    (∀ ok : List Bool, s.pwr.slot = [] →
      (s.pwr.retrain = false → ∃ t, exec (.ddrRetrainDone ok) s = .next t ∧ Says.regsOnly s t []) ∧
      (s.pwr.retrain = true → ∃ t, exec (.ddrRetrainDone ok) s = .next t ∧ t = { s with hreg := t.hreg, pwr := { s.pwr with retrain := false }, dev := t.dev, cics := t.cics } ∧
        Says.words s t ([R.PD_STAT 6] ++ (List.range 4).map R.DDR_STAT ++ (List.range 4).map R.DDR_EVT) ∧ t.bit (R.PD_STAT_BUSY 6) = false ∧
        ∀ c, c < 4 → (s.rd (R.DDR_STAT_STATE c) ≠ 1 → t.rd (R.DDR_STAT_STATE c) = s.rd (R.DDR_STAT_STATE c)) ∧
          (s.rd (R.DDR_STAT_STATE c) = 1 → (ok.getD c true = true → t.rd (R.DDR_STAT_STATE c) = 2) ∧
            (ok.getD c true = false → t.rd (R.DDR_STAT_STATE c) = 3 ∧ t.bit (R.DDR_EVT_TRAIN_FAIL c) = true)))) ∧
    (∀ cl : BitVec 6, let c := cl.toNat
      (s.domOn (64 + c) = true → c ∉ s.pwr.measuring → ∃ t, exec (.speedRemeasure cl) s = .next t ∧
        t = { s with pwr := { s.pwr with measuring := s.pwr.measuring ++ [c] }, dev := t.dev, cics := t.cics } ∧ Says.sensed s t) ∧
      (s.domOn (64 + c) = false ∨ c ∈ s.pwr.measuring → ∃ t, exec (.speedRemeasure cl) s = .next t ∧ Says.regsOnly s t []) ∧
      (∀ (tab : List (BitVec 16)) (tj : BitVec 16),
        (tab.length ≠ 21 → exec (.speedTableMeasured cl tab tj) s = .fault .illFormed) ∧
        (tab.length = 21 → s.domOn (64 + c) = false → ∃ t, exec (.speedTableMeasured cl tab tj) s = .next t ∧ Says.regsOnly s t []) ∧
        (tab.length = 21 → s.domOn (64 + c) = true →
          let got (t : State) : Prop := mget (fun _ => none) t.pwr.speed c = some (tab.map (·.toNat), tj.toNat) ∧
            (∀ k, k ≠ c → mget (fun _ => none) t.pwr.speed k = mget (fun _ => none) s.pwr.speed k) ∧ t.bit R.PWR_EVT_SPEED = true ∧
            t.pwr.measuring = s.pwr.measuring.filter (fun k => k ≠ c)
          let only (t : State) : Prop := t = { s with hreg := t.hreg, pwr := { s.pwr with speed := t.pwr.speed, measuring := t.pwr.measuring, measCmd := t.pwr.measCmd }, dev := t.dev, cics := t.cics } ∧ Says.sensed s t ∧ Says.words s t [R.PWR_EVT]
          (s.pwr.measCmd = none → ∃ t, exec (.speedTableMeasured cl tab tj) s = .next t ∧ got t ∧ only t ∧ t.pwr.measCmd = none) ∧
          (∀ m l, s.pwr.measCmd = some (m, l) → let rest := l.filter (fun k => k ≠ c)
            (rest ≠ [] → ∃ t, exec (.speedTableMeasured cl tab tj) s = .next t ∧ got t ∧ only t ∧ t.pwr.measCmd = some (m, rest)) ∧
            (rest = [] → ∀ b, Says.canEnd s m b → ∃ t, exec (.speedTableMeasured cl tab tj) s = .next t ∧ got t ∧ t.pwr.measCmd = none ∧ (t.chan m).busy = none ∧
              t.out = s.out ++ [Says.endOf s m b []] ∧ t.mem = s.mem ∧ t.cores = s.cores))))) ∧
    (∀ (tj : BitVec 16) (hot : Octet), ∃ t, exec (.tjWarnCross tj hot) s = .next t ∧ Says.regsOnly s t [R.PWR_TJ, R.PWR_EVT] ∧ t.rd R.PWR_TJ_TJ = tj.toNat ∧
      t.rd R.PWR_TJ_HOT = hot.toNat ∧ t.bit R.PWR_EVT_TJ = (s.bit R.PWR_EVT_TJ || decide ((BitVec.ofNat 16 (s.rd R.TJ_WARN_V)).toInt ≤ tj.toInt))) ∧
    (s.pwr.trip = false → ∃ t, exec .thermtrip s = .next t ∧ t = { s with pwr := { s.pwr with trip := true }, out := s.out ++ (if s.wh.pinsTaken = true then [] else [Out.thermtripPin]), dev := t.dev, cics := t.cics } ∧ Says.sensed s t) ∧
    (s.pwr.trip = true → ∃ t, exec .thermtrip s = .next t ∧ Says.regsOnly s t [])

namespace Sys2Proof.Says

open Sys2Proof.Machine

/-- One latch of the request with source bit src and tag, while the beat is stopped: the image, its registers and its record (R519 to R528). -/
def latched (s t : State) (src : Nat) (tag : BitVec 16) : Prop :=
  let n := s.beat.num.toNat
  let p := (packTime s.packNow).toNat
  ∃ img r, t.wh.images = s.wh.images ++ [img] ∧ img.words.length = 5801 ∧
    img.words.take 13 = [0x0100000C, (s.wh.seq + 1) % 2 ^ 32, tag.toNat * 65536 + 2 ^ src * 256 + 1, n % 2 ^ 32, n / 2 ^ 32, p % 2 ^ 24, p / 2 ^ 24 % 2 ^ 32, p / 2 ^ 56,
      Config.serial.toNat % 2 ^ 32, Config.serial.toNat / 2 ^ 32, n % 2 ^ 32, 0x96400000 + s.rd R.NODE_ADDR_ADDR, 1] ∧
    img.seq = s.wh.seq + 1 ∧ t.wh.seq = s.wh.seq + 1 ∧ t.wh.reqs = s.wh.reqs ∧ t.bit R.WH_EVT_LATCHED = true ∧ t.rd R.WH_STAT_SRC = 2 ^ src ∧ t.rd R.WH_STAT_WORDS = 5801 ∧
    t.rdW R.WH_BEAT_LO = n % 2 ^ 32 ∧ t.wh.beatHi = tag.toNat * 65536 + n / 2 ^ 32 ∧ t.jrn = { s.jrn with hold := [r] } ∧ r.rtype = 4 ∧ r.beat = s.beat.num ∧
    r.body = num 2 tag.toNat ++ num 1 (2 ^ src) ++ [0] ++ num 4 23204 ++ (img.words.map (num 4)).flatten ∧ t.mem = s.mem ∧ t.cores = s.cores ∧ t.beat = s.beat

/-- Only the whistle block differs, but for what a settled state senses and offers. -/
def whOnly (s t : State) : Prop := t = { s with wh := t.wh, dev := t.dev, cics := t.cics } ∧ sensed s t

end Sys2Proof.Says

/-- While the beat runs, WH_FIRE, a fall of WHISTLE_N in PIN_MODE IN, or in BOTH outside the quiet time, and the
Bertia WH_FIRE leave a request with source and tag. While it is stopped with an image free the request latches: an
image of 5,801 words with its header, SEQ, LATCHED, SRC, WORDS and the latch beat, a WHISTLE record (held by a
journal in OFF), and the pin driven in OUT and BOTH unless the TAP has the pins; the Bertia command then completes
with SEQ and beat. The end of a copy-out frees the oldest image, and shows it unless FREEZE, which counts it as
missed. Reading WH_BEAT_LO latches WH_BEAT_HI. WH_PACK of an aligned node 2 or more beats ahead broadcasts and arms.
WH_READ answers words of the latest image. DBG_HALT halts a running core with reason 4 and completes when every core
of its mask is halted; DBG_REG reads and writes a halted core's registers; DBG_TAP enables the TAP's port, which
reads or writes a long of the steward's map only when enabled and with DEBUG. WH_READ without an image, and words
beyond it, are the model's (log 15). -/
def Obligations.WhistleDebugResults : Prop :=
  ∀ s : State,
    let held0 := s.jState = 0 ∧ s.jrn.pf = none ∧ s.jrn.hold = [] ∧ s.jrn.windows = [] ∧ s.wh.deferred = none ∧ s.wh.reqs = [] ∧ s.wh.images.length < 2 ∧ s.bit R.BEAT_STAT_RUNNING = false
    let pin := if (s.rd R.WH_CTRL_PIN_MODE = 2 ∨ s.rd R.WH_CTRL_PIN_MODE = 3) ∧ s.wh.pinsTaken = false then [Out.whistlePin] else []
    let asks (t : State) (r : WhReq) : Prop := Says.whOnly s t ∧ t.wh = { s.wh with reqs := s.wh.reqs ++ [r] }
    (∀ v : Reg32, (s.bit R.BEAT_STAT_RUNNING = true → ∃ t, exec (.whFireWrite v) s = .next t ∧ asks t ⟨0, v.setWidth 16, 0, none, s.time, none⟩) ∧
      (held0 → ∃ t, exec (.whFireWrite v) s = .next t ∧ Says.latched s t 0 (v.setWidth 16) ∧ t.out = s.out ++ pin)) ∧
    (let pm := s.rd R.WH_CTRL_PIN_MODE
     let takes := pm = 1 ∨ pm = 3 ∧ s.wh.pinQuiet ≤ s.time
     (¬ takes → ∃ t, exec .whistleNFall s = .next t ∧ Says.regsOnly s t []) ∧
     (takes → s.bit R.BEAT_STAT_RUNNING = true → ∃ t, exec .whistleNFall s = .next t ∧ asks t ⟨3, 0xFE00, 0, none, s.time, none⟩) ∧
     (takes → held0 → ∃ t, exec .whistleNFall s = .next t ∧ Says.latched s t 3 0xFE00 ∧ t.out = s.out ++ pin)) ∧
    (s.wh.images = [] → ∃ t, exec .whCopyoutDone s = .next t ∧ Says.regsOnly s t []) ∧
    (∀ i r, s.wh.images = i :: r →
      let rest := { s.wh with images := r, latest := some i }
      ((s.wh.deferred = none ∧ s.wh.reqs = []) ∨ s.bit R.BEAT_STAT_RUNNING = true →
        let only (t : State) : Prop := t = { s with hreg := t.hreg, wh := t.wh, dev := t.dev, cics := t.cics } ∧ Says.sensed s t
        (s.bit R.WH_CTRL_FREEZE = false → ∃ t, exec .whCopyoutDone s = .next t ∧ Says.whOnly s t ∧ t.wh = { rest with window := some i }) ∧
        (s.bit R.WH_CTRL_FREEZE = true → ∃ t, exec .whCopyoutDone s = .next t ∧ only t ∧ t.wh = rest ∧ Says.words s t [R.WH_MISSED, R.WH_EVT] ∧ Says.counted s t R.WH_MISSED_V ∧
          t.bit R.WH_EVT_MISSED = true)) ∧
      (∀ d q, s.wh.deferred = some (d, q) → q ≠ [] → s.wh.reqs = [] → r.length < 2 → s.bit R.BEAT_STAT_RUNNING = false → (∀ x ∈ q, x.ch = none) → ∃ t img, exec .whCopyoutDone s = .next t ∧ t.wh.images = r ++ [img] ∧
        img.seq = s.wh.seq + 1 ∧ t.wh.deferred = none ∧ t.bit R.WH_EVT_DEFERRED = true ∧ t.bit R.WH_EVT_LATCHED = true ∧ t.wh.latest = some i ∧ t.mem = s.mem)) ∧
    (∃ t, exec .whBeatLoRead s = .next t ∧ t = { s with hreg := t.hreg, out := t.out, dev := t.dev, cics := t.cics } ∧ Says.sensed s t ∧ Says.words s t [R.WH_BEAT_HI] ∧
      t.out = s.out ++ [.readData R.WH_BEAT_LO (s.rdW R.WH_BEAT_LO)] ∧ t.rdW R.WH_BEAT_HI = s.wh.beatHi % 2 ^ 32) ∧
    (∀ ir : BitVec 8, ∃ t, exec (.tapInstructionUpdate ir) s = .next t ∧ Says.whOnly s t ∧ t.wh = { s.wh with tapIr := ir, pinsTaken := t.wh.pinsTaken } ∧
      (ir = 0x20 ∨ ir = 0xFF → t.wh.pinsTaken = false)) ∧
    (∀ (a : Long) (w : Option Long), s.pwr.slot = [] → let open' := s.stewardUp = true ∧ s.wh.tapDebug = true ∧ s.wh.tapIr = 0x20
      (¬ open' ∨ a.toNat % 2 = 1 ∨ a.toNat < 0x90000 → ∃ t, exec (.tapDebugAccess a w) s = .next t ∧ Says.regsOnly s t []) ∧
      (∀ k, open' → a.toNat % 2 = 0 → s.stewPlace a.toNat = .mem k →
        (w = none → s.badLong k = false → ∃ t, exec (.tapDebugAccess a w) s = .next t ∧ Says.memOnly s t [] ∧ t.mem = s.mem ∧ t.red = s.red ∧ t.out = s.out ++ [.tapData (s.long k)]) ∧
        (∀ v, w = some v → k % 2 = 0 → ∃ t, exec (.tapDebugAccess a w) s = .next t ∧ Says.memOnly s t [] ∧ t.out = s.out ∧ t.long k = v ∧
          ∀ j, j ≠ k → j ≠ k + 1 → t.grain j = s.grain j))) ∧
    (∀ h : BHdr, let m := h.ch.toNat
      (∀ tag : BitVec 16, Says.framed s h 4 →
        (s.bit R.BEAT_STAT_RUNNING = true → ∃ t, exec (.whFire h tag) s = .next t ∧ Says.waits s t h ∧ Says.words s t [R.MB_STAT m] ∧ t.out = s.out ∧ t.mem = s.mem ∧
          t.wh = { s.wh with reqs := s.wh.reqs ++ [⟨1, tag, 0, none, s.time, some m⟩] }) ∧
        (held0 → ∃ t, exec (.whFire h tag) s = .next t ∧ Says.latched s t 1 tag ∧ Says.answers s t h stOk (Says.num 4 (s.wh.seq + 1) ++ Says.num 6 s.beat.num.toNat ++ [0, 0]))) ∧
      (∀ (tag : BitVec 16) (b : BitVec 48), Says.framed s h 12 → let ahead := (b - s.beat.num).toNat
        (s.aligned = false → Says.completes (.whPack h tag b) s h stBadState [] s) ∧
        (s.aligned = true → ahead < 2 ∨ 2 ^ 47 ≤ ahead → Says.completes (.whPack h tag b) s h stBadParam [] s) ∧
        (s.aligned = true → 2 ≤ ahead → ahead < 2 ^ 47 → s.bit R.TR_CTRL_WHISTLE_EN = true → s.beat.phase ≠ .stopped → s.time + 2000 * nsU ≤ s.edgeAt b → s.wh.armed.length < 16 →
          (Says.noLink s → ∃ u, Says.completes (.whPack h tag b) s h stOk [] u ∧ u = { s with wh := { s.wh with armed := s.wh.armed ++ [(b, tag)] } }) ∧
          (∀ p, s.treePorts = [p] → s.fpUp p = true → ∃ u, Says.completes (.whPack h tag b) s h stOk [] u ∧ u.wh = { s.wh with armed := s.wh.armed ++ [(b, tag)] } ∧
            Says.onVl u p 2 = Says.onVl s p 2 ++ [s.dress p (s.newFrame 2 0xFFFF (.ctrl (.whistle tag b)))] ∧ u.mem = s.mem ∧ u.cores = s.cores))) ∧
      (∀ a n : BitVec 16, Says.framed s h 4 (4 + 4 * n.toNat) →
        (n = 0 ∨ 8192 < n.toNat → Says.completes (.whRead h a n) s h stBadParam [] s) ∧
        (1 ≤ n.toNat → n.toNat ≤ 8192 → (s.wh.latest = none → Says.completes (.whRead h a n) s h stBadState [] s) ∧
          ∀ i, s.wh.latest = some i → Says.completes (.whRead h a n) s h stOk (Says.num 4 i.seq
            ++ ((List.range n.toNat).map (fun k => Says.num 4 (i.words.getD (a.toNat + k) 0))).flatten) s)) ∧
      (∀ (cl : Octet) (mask : BitVec 16), Says.framed s h 4 → let c := cl.toNat
        (64 ≤ c → Says.completes (.dbgHalt h cl mask) s h stBadParam [] s) ∧
        (c < 64 → s.domOn (64 + c) = false → Says.completes (.dbgHalt h cl mask) s h stBadState [] s) ∧
        (c < 64 → s.domOn (64 + c) = true → s.wh.haltWait = [] →
          ((∀ k, k < 16 → mask.getLsbD k = true → ∃ why, (s.core (16 * c + k)).run = .halted why) → Says.completes (.dbgHalt h cl mask) s h stOk [] s) ∧
          (∀ k, k < 16 → mask = BitVec.ofNat 16 (2 ^ k) → let i := 16 * c + k
            ((s.core i).takes = true → s.rd R.WH_FAULT_EN_R523 / 2 % 2 = 0 → ∃ t, exec (.dbgHalt h cl mask) s = .next t ∧ Says.answers s t h stOk [] ∧ (t.core i).run = .halted 4 ∧
              (t.core i).pc = (s.core i).pc ∧ (∀ y, (t.core i).gr y = (s.core i).gr y) ∧ (t.core i).faddr = (s.core i).faddr ∧ (t.core i).finfo = (s.core i).finfo ∧
              (∀ j, j ≠ i → t.core j = s.core j) ∧ (∃ r, (t.core i).report = some r ∧ r[0]? = some (BitVec.ofNat 40 (2 * 2 ^ 36 + i * 2 ^ 26 + 4 * 2 ^ 22)) ∧ r[1]? = some (s.core i).pc) ∧ t.mem = s.mem) ∧
            ((s.core i).run = .held → ∃ t, exec (.dbgHalt h cl mask) s = .next t ∧ Says.waits s t h ∧ t.out = s.out ∧ t.wh = { s.wh with haltWait := [(m, c, 2 ^ k)] } ∧
              (t.core i).haltReq = true ∧ ∀ j, j ≠ i → t.core j = s.core j)))) ∧
      (∀ (cl co rw rg : Octet) (v : BitVec 80), Says.framed s h 18 10 → let i := 16 * cl.toNat + co.toNat
        let r := rg.toNat
        let bad := 64 ≤ cl.toNat ∨ 16 ≤ co.toNat ∨ 1 < rw.toNat ∨ (36 ≤ r ∧ r < 64) ∨ 90 ≤ r ∨ (rw = 1 ∧ 64 ≤ r ∧ (r = 64 ∨ r = 78 ∨ r = 79 ∨ 88 ≤ r))
        (bad → Says.completes (.dbgReg h cl co rw rg v) s h stBadParam [] s) ∧
        (¬ bad → s.domOn (64 + cl.toNat) = false ∨ (∀ why, (s.core i).run ≠ .halted why) → Says.completes (.dbgReg h cl co rw rg v) s h stBadState [] s) ∧
        (¬ bad → s.domOn (64 + cl.toNat) = true → (∃ why, (s.core i).run = .halted why) →
          (rw = 0 → (r < 32 → Says.completes (.dbgReg h cl co rw rg v) s h stOk (Says.num 10 ((s.core i).gr (BitVec.ofNat 5 r)).toNat) s) ∧
            (32 ≤ r → r < 36 → Says.completes (.dbgReg h cl co rw rg v) s h stOk (Says.num 10 ((s.core i).ac (BitVec.ofNat 2 (r - 32))).toNat) s) ∧
            (r = 64 → Says.completes (.dbgReg h cl co rw rg v) s h stOk (Says.num 10 (s.core i).pc.toNat) s)) ∧
          (rw = 1 → (r < 32 → ∃ u, Says.completes (.dbgReg h cl co rw rg v) s h stOk (Says.num 10 (if r = 0 then 0 else v.toNat % 2 ^ 40)) u ∧ u = { s with cores := u.cores } ∧
              (∀ j, j ≠ i → u.core j = s.core j) ∧ (∀ y, (u.core i).gr y = if y ≠ 0 ∧ y = BitVec.ofNat 5 r then v.setWidth 40 else (s.core i).gr y) ∧ (u.core i).pc = (s.core i).pc ∧
              (u.core i).st = (s.core i).st ∧ ∀ y, (u.core i).ac y = (s.core i).ac y) ∧
            (32 ≤ r → r < 36 → ∃ u, Says.completes (.dbgReg h cl co rw rg v) s h stOk (Says.num 10 v.toNat) u ∧ u = { s with cores := u.cores } ∧ (∀ j, j ≠ i → u.core j = s.core j) ∧
              (∀ y, (u.core i).ac y = if y = BitVec.ofNat 2 (r - 32) then v else (s.core i).ac y) ∧ ∀ y, (u.core i).gr y = (s.core i).gr y)))) ∧
      (∀ en : Octet, Says.framed s h 4 0 (some true) →
        (1 < en.toNat → Says.completes (.dbgTap h en) s h stBadParam [] s) ∧
        (en.toNat ≤ 1 → Says.completes (.dbgTap h en) s h stOk [] { s with wh := { s.wh with tapDebug := decide (en = 1) } })))

namespace Sys2Proof.Says

open Sys2Proof.Machine

/-- Nothing of the kennel's zeroization is cut short, and no pin asks for anything at a reset. -/
def calm (s : State) (por : Bool) : Prop := s.abortPin = false ∧ s.kn.cut = false ∧ s.kn.running = false ∧ (s.kn.hard = false ∨ por = true)

/-- A locked steward's pin is released where the pins are not the TAP's (R250, R535). -/
def unlocked (s : State) (taken : Bool) : List Out := if s.bit R.BOOT_STAT_LOCKUP = true ∧ taken = false then [.lockupPin false] else []

/-- The device after a power-on (por) or a device reset with its cause, straps and strapped address (R538 to R540, R551, R62, R274, R463). -/
def afterReset (s t : State) (por : Bool) (cause : Fld) (mode node : Nat) : Prop :=
  let kept (off : Nat) : Prop := R.AON_CTRL ≤ off ∧ off < R.AON_CAL + 4 ∨ R.WATCH 0 ≤ off ∧ off < R.WAKE_CNT + 4
  t = { State.reset with hreg := t.hreg, pending := s.pending, out := t.out, free := s.free, time := s.time, beat := t.beat, jrn := t.jrn, kn := t.kn, abortPin := s.abortPin, dev := t.dev, cics := t.cics, wh := t.wh, pwr := t.pwr, boot := t.boot } ∧
    t.beat = { State.reset.beat with off := t.beat.off, aon := t.beat.aon } ∧ t.packNow = 0 ∧ (por = true → t.aonNow = 0) ∧ (por = false → t.aonNow = s.aonNow) ∧
    t.dev.wakeTs = (if por = true then 0 else s.dev.wakeTs) ∧
    t.kn = { State.reset.kn with slots := s.kn.slots, cur := s.kn.cur, counters := s.kn.counters, coKeys := s.kn.coKeys, usrKeys := s.kn.usrKeys, admitted := s.kn.admitted, nextChal := s.kn.nextChal, latched := s.kn.latched } ∧
    t.jrn.items = s.itemsIn 3 [] ∧ t.jrn.archive = s.jrn.archive ∧ t.jrn.segs = s.jrn.segs ∧ t.jrn.freed = s.jrn.freed ∧ t.jrn.hold = [] ∧ t.jrn.sealing = none ∧ t.jrn.pf = none ∧
    t.jrn.blocks = s.jrn.blocks.filter (fun b => b.state = .durable) ∧ t.boot = { s.boot with rom := true, recovery := false, wdt := 0 } ∧
    t.wh = (if por = true then {} else { State.reset.wh with tapDebug := s.wh.tapDebug, tapIr := s.wh.tapIr, pinsTaken := s.wh.pinsTaken }) ∧
    t.pwr = { State.reset.pwr with trip := s.pwr.trip && !por } ∧
    (∀ off, off ∉ [R.RST_CAUSE, R.BOOT_STAT, R.NODE_ADDR, R.PACK_STAT, R.KN_STAT, R.J_STAT] → por = true ∨ ¬ kept off → t.word off = State.reset.word off) ∧
    (por = true → t.rdW R.RST_CAUSE = 1) ∧
    (por = false → mapWf wordReset s.hreg = true → t.word R.RST_CAUSE = s.word R.RST_CAUSE ||| BitVec.ofNat 32 (2 ^ cause.lo) ∧ ∀ off, kept off → t.word off = s.word off) ∧
    t.rdW R.BOOT_STAT = mode * 2 ^ 30 ∧ t.rd R.NODE_ADDR_NODE_ID = node ∧ t.rd R.NODE_ADDR_ADDR = node ∧ t.rd R.PACK_STAT_ADDR_STATE = (if node = 0 then 0 else 2) ∧
    t.knState = 1 ∧ t.bit R.KN_STAT_SEAL = s.bit R.KN_STAT_SEAL ∧ t.bit R.KN_STAT_JOIN = s.bit R.KN_STAT_JOIN ∧ t.bit R.KN_STAT_ZPIN = s.bit R.KN_STAT_ZPIN ∧
    t.bit R.KN_STAT_ZBUSY = s.kn.latched ∧ t.jState = 0 ∧ t.bit R.J_STAT_PF_PIN = s.bit R.J_STAT_PF_PIN

/-- A steward core reset with its cause (R538, R497, R463, R517): the core starts its ROM, its memory is lost (it reads 0: log 2), mailboxes in
RUN halt, held events, subscriptions, exports and sessions end, and no command in progress is completed; everything else goes on. -/
def stewardIs (s t : State) (cause : Fld) : Prop :=
  t = { s with hreg := t.hreg, mem := t.mem, cores := t.cores, host := t.host, fab := { s.fab with open_ := [] }, boot := { s.boot with rom := true, recovery := false }, out := t.out, pwr := t.pwr, wh := t.wh, jrn := t.jrn, kn := t.kn, beat := t.beat, cross := t.cross, dev := t.dev, cics := t.cics } ∧
    t.crossAt 29 = { s.crossAt 29 with peer := true } ∧ (∀ x, x ≠ 29 → t.crossAt x = s.crossAt x) ∧
    t.bit cause = true ∧ t.bit R.MBX_GSTAT_READY = false ∧ t.rdW R.BERTIA_VER = 0 ∧ t.rd R.BOOT_STAT_PHASE = 0 ∧ t.bit R.BOOT_STAT_LOCKUP = false ∧
    t.bit R.BOOT_STAT_BRINGUP = s.bit R.BOOT_STAT_BRINGUP ∧ (∀ c, c < 20 → t.chan c = {}) ∧ ((∀ m, s.host.evtMbx = some m → m < 20) → t.host.evtMbx = none) ∧
    t.host.events = [] ∧ t.host.exports = [] ∧ (∀ m, m < 16 → let x := s.rd (R.MB_STAT_STATE m)
      t.rd (R.MB_STAT_STATE m) = (if x = 1 then 2 else if x = 3 then 0 else x) ∧ (x = 1 → t.rd (R.MB_STAT_ERR m) = 3 ∧ t.bit (R.MB_EVT_HALT m) = true)) ∧
    (t.core 1024).run = .running ∧ (t.core 1024).pc = 0 ∧ (∀ i, i ≠ 1024 → t.core i = s.core i) ∧
    (∀ a, a < 0x90000 → t.grain (keySteward a) = 0) ∧ (∀ k, ¬ (keySteward 0 ≤ k ∧ k < keySteward 0x90000) → t.grain k = s.grain k) ∧
    t.beat = { s.beat with ppsSec := t.beat.ppsSec } ∧ t.jrn = { s.jrn with stopping := t.jrn.stopping, testCh := t.jrn.testCh, compact := t.jrn.compact, delCh := t.jrn.delCh, cmds := t.jrn.cmds } ∧
    t.kn = { s.kn with zCmd := none, testCmds := [] } ∧ t.pwr = { s.pwr with trans := t.pwr.trans, measCmd := none } ∧ (∀ d, d < 128 → t.word (R.PD_STAT d) = s.word (R.PD_STAT d)) ∧
    t.out = s.out ++ unlocked s s.wh.pinsTaken

/-- A kennel core reset with its cause (R463): volatile zeroization, every session closed, the power-up tests. -/
def kennelIs (s t : State) (cause : Fld) : Prop :=
  t.bit cause = true ∧ t.knState = 1 ∧ noSession t ∧ t.rd R.KN_AUTHFAIL_V = 0 ∧ t.rd R.KN_ESFAIL_V = 0 ∧ t.bit R.KN_STAT_TESTED = false ∧
    t.kn = { s.kn with chals := [], drbgUse := 0 } ∧ t.mem = s.mem ∧
    (t.core 1025).run = .running ∧ (t.core 1025).pc = 0 ∧ (∀ i, i ≠ 1025 → t.core i = s.core i) ∧
    ((∀ p, p < 8 → s.bit (R.FP_STAT_ENC p) = false ∧ s.authing p = false) → t.beat = s.beat ∧ t.out = s.out)

end Sys2Proof.Says

/-- A power-on reset and a device reset put the machine at its reset state, with the straps as sampled, the strapped
address, the journal's media, flash, OTP and SSP store kept, the pins as they stand, and, for a device reset,
AON_CTRL, AON_CAL, the always-on counter, the watcher's registers and RST_CAUSE, which records the cause; LOCKUP_N is
released. RST_CTRL without the key does nothing; with it, it starts the device reset, the steward core reset, or the
kennel core reset; a word without the row's bit is ill-formed. DEV_RESET completes, then resets the device; with
another confirm word it is refused. A kick restarts the watchdog's count and writes EN and TIMEOUT; its expiry with
EN, and a locked steward with LOCKUP_CTRL.AUTO, reset the steward core, with PEER_RESET on the PCIe crossing; a
locked kennel is reset by a running steward. An open or asserted abort pin latches the abort anew. That DEV_RESET
resets at once, that the straps are then those sampled last, and that pack time starts at 0 are the model's (log 16). -/
def Obligations.ResetResults : Prop :=
  ∀ s : State,
    let mode := s.rd R.BOOT_STAT_MODE
    let node := s.rd R.NODE_ADDR_NODE_ID
    (∀ (m : BitVec 2) (n : BitVec 12),
      (Says.calm s true → ∃ t, exec (.powerOnReset m n) s = .next t ∧ Says.afterReset s t true R.RST_CAUSE_POR m.toNat n.toNat ∧ t.out = s.out ++ Says.unlocked s false) ∧
      (Says.calm s false → ∃ t, exec (.deviceReset m n) s = .next t ∧ Says.afterReset s t false R.RST_CAUSE_PIN m.toNat n.toNat ∧ t.out = s.out ++ Says.unlocked s s.wh.pinsTaken) ∧
      (s.abortPin = true → ∃ t, exec (.deviceReset m n) s = .next t ∧ t.bit R.DRV_ABORT_STAT_PIN = true ∧ t.bit R.DRV_ABORT_STAT_LATCHED = true ∧ t.rd R.DRV_ABORT_STAT_COUNT = 1 ∧ t.abortPin = true) ∧
      (s.kn.hard = true → s.kn.cut = false → s.kn.running = false → ∃ t, exec (.deviceReset m n) s = .next t ∧ t.knState = 5 ∧ t.word R.KN_ERR = s.word R.KN_ERR ∧ t.kn.hard = true)) ∧
    (∀ v : Reg32, let key := v.toNat / 65536 = 0xD1CE
      (v.getLsbD 0 = false → exec (.rstCtrlDevice v) s = .fault .illFormed) ∧ (v.getLsbD 1 = false → exec (.rstCtrlSteward v) s = .fault .illFormed) ∧
      (v.getLsbD 2 = false → exec (.rstCtrlKennel v) s = .fault .illFormed) ∧
      (v.getLsbD 0 = true → (¬ key → ∃ t, exec (.rstCtrlDevice v) s = .next t ∧ Says.regsOnly s t []) ∧
        (key → v.getLsbD 1 = false → v.getLsbD 2 = false → Says.calm s false → ∃ t, exec (.rstCtrlDevice v) s = .next t ∧ Says.afterReset s t false R.RST_CAUSE_DEV_SW mode node ∧ t.out = s.out ++ Says.unlocked s s.wh.pinsTaken)) ∧
      (v.getLsbD 1 = true → (¬ key → ∃ t, exec (.rstCtrlSteward v) s = .next t ∧ Says.regsOnly s t []) ∧
        (key → v.getLsbD 0 = false → v.getLsbD 2 = false → ∃ t, exec (.rstCtrlSteward v) s = .next t ∧ Says.stewardIs s t R.RST_CAUSE_STEW_SW)) ∧
      (v.getLsbD 2 = true → (¬ key → ∃ t, exec (.rstCtrlKennel v) s = .next t ∧ Says.regsOnly s t []) ∧
        (key → v.getLsbD 0 = false → v.getLsbD 1 = false →
          (s.domOn domKennel = true → s.kn.cut = false → s.kn.running = false → s.kn.hard = false → ∃ t, exec (.rstCtrlKennel v) s = .next t ∧ Says.kennelIs s t R.RST_CAUSE_STEW_SW) ∧
          (s.domOn domKennel = false → ∃ t, exec (.rstCtrlKennel v) s = .next t ∧ Says.regsOnly s t [R.RST_CAUSE] ∧ t.bit R.RST_CAUSE_STEW_SW = true))) ∧
      (v.getLsbD 30 = false → exec (.stewWdtKick v) s = .fault .illFormed) ∧
      (v.getLsbD 30 = true → ∃ t, exec (.stewWdtKick v) s = .next t ∧ t = { s with hreg := t.hreg, boot := { s.boot with wdt := s.time }, dev := t.dev, cics := t.cics } ∧ Says.sensed s t ∧
        Says.words s t [R.STEW_WDT] ∧ t.bit R.STEW_WDT_EN = v.getLsbD 31 ∧ t.rd R.STEW_WDT_TIMEOUT = v.toNat % 65536)) ∧
    (s.pwr.slot = [] →
      (s.bit R.STEW_WDT_EN = false ∨ s.domOn domSteward = false → ∃ t, exec .stewWdtExpire s = .next t ∧ Says.regsOnly s t []) ∧
      (s.bit R.STEW_WDT_EN = true → s.domOn domSteward = true → ∃ t, exec .stewWdtExpire s = .next t ∧ Says.stewardIs s t R.RST_CAUSE_STEW_WDT) ∧
      (s.bit R.LOCKUP_CTRL_AUTO = false ∨ s.domOn domSteward = false ∨ (s.core 1024).run ≠ .locked → ∃ t, exec .lockupAutoReset s = .next t ∧ Says.regsOnly s t []) ∧
      (s.bit R.LOCKUP_CTRL_AUTO = true → s.domOn domSteward = true → (s.core 1024).run = .locked → ∃ t, exec .lockupAutoReset s = .next t ∧ Says.stewardIs s t R.RST_CAUSE_STEW_LOCK)) ∧
    (s.stewardRuns = false ∨ s.knState ≠ knLocked ∨ s.domOn domKennel = false → ∃ t, exec .kennelLockupReset s = .next t ∧ Says.regsOnly s t []) ∧
    (s.stewardRuns = true → s.knState = knLocked → s.domOn domKennel = true → s.kn.cut = false → s.kn.running = false → s.kn.hard = false →
      ∃ t, exec .kennelLockupReset s = .next t ∧ Says.kennelIs s t R.RST_CAUSE_KEN_LOCK) ∧
    (∀ (h : BHdr) (confirm : Reg32), Says.framed s h 4 0 (some true) →
      (confirm ≠ 0x44455652 → Says.completes (.devReset h confirm) s h stBadParam [] s) ∧
      (confirm = 0x44455652 → Says.calm s false → ∃ t, exec (.devReset h confirm) s = .next t ∧ Says.afterReset s t false R.RST_CAUSE_DEV_SW mode node ∧
        t.out = s.out ++ [Says.entry s h.ch.toNat h.tag.toNat 0 0 (s.rd (R.MB_STAT_CHEAD h.ch.toNat)) 0 []] ++ Says.unlocked s s.wh.pinsTaken))

namespace Sys2Proof.Says

open Sys2Proof.Machine

/-- The boot header in force, or what the ROM acts for without one (R543). -/
def inForce (s : State) (h : BootHdr) : Prop :=
  (s.boot.hdr0 = none ∧ s.boot.hdr1 = none ∧ h = ⟨0, 0, false, 0⟩) ∨ (s.boot.hdr0 = some h ∧ ∀ x, s.boot.hdr1 = some x → x.seq ≤ h.seq) ∨
    (s.boot.hdr1 = some h ∧ ∀ x, s.boot.hdr0 = some x → x.seq < h.seq)

/-- SEQ + 1; of no header, 1. -/
def nextSeq (s : State) (h : BootHdr) : Nat := if s.boot.hdr0 = none ∧ s.boot.hdr1 = none then 1 else (h.seq + 1) % 2 ^ 32

/-- Header h has been written into the copy SEQ mod 2; b is the boot state otherwise. -/
def wroteHdr (b : Boot) (t : State) (h : BootHdr) : Prop := t.boot = if h.seq % 2 = 0 then { b with hdr0 := some h } else { b with hdr1 := some h }

/-- An image valid by the ROM's finding and by its SVN against kennel counter k (R544). -/
def goodImage (s : State) (k : Nat) (i : SlotImage) : Prop := i.result = 1 ∧ mget (fun _ => 0) s.kn.counters k ≤ i.svn.toNat

/-- BOOT_SLOTS' result of a slot tried. -/
def slotRes (s : State) (i : SlotImage) : Nat := if i.result = 1 ∧ i.svn.toNat < mget (fun _ => 0) s.kn.counters 0 then 6 else i.result.toNat

/-- Image i of slot k runs: loaded from address 0 of the steward's memory, at vector 0, its watchdog started (R545, R546). -/
def imageRuns (s t : State) (k : Nat) (i : SlotImage) (trial : Bool) : Prop :=
  t.rd R.BOOT_STAT_PHASE = 1 ∧ t.rd R.BOOT_STAT_SLOT = k ∧ t.bit R.BOOT_STAT_TRIAL = trial ∧ t.rd R.BOOT_STAT_SVN = i.svn.toNat ∧ t.word R.FW_VER = i.version ∧
    t.bit R.STEW_WDT_EN = true ∧ t.rd R.STEW_WDT_TIMEOUT = s.rd R.STEW_WDT_TIMEOUT ∧ (t.core 1024).run = .running ∧ (t.core 1024).pc = 0 ∧ (∀ j, j ≠ 1024 → t.core j = s.core j) ∧
    (∀ a g, i.body[a]? = some g → t.grain (keySteward a) = g) ∧ (∀ n, ¬ (keySteward 0 ≤ n ∧ n < keySteward i.body.length) → t.grain n = s.grain n)

/-- Command h, of mailbox 0, reaches the ROM in RECOVERY (R547). -/
def romTakes (s : State) (h : BHdr) : Prop :=
  h.ch = 0 ∧ s.canStart 0 = true ∧ s.boot.recovery = true ∧ h.bver = 1 ∧ h.tag ≠ 0xFFFF ∧ h.zeros = true ∧ h.raddr.toNat % 8 = 0 ∧ h.ind = true ∧ h.paddr.toNat % 8 = 0 ∧
    1 ≤ h.len.toNat ∧ h.len.toNat ≤ 16777216 ∧ h.dma = .ok ∧ (s.chan 0).sess = none

end Sys2Proof.Says

/-- The ROM reads the header in force: with a trial left it writes TRIES - 1, with none left the other slot as
preferred and FALLBACK, else nothing; it starts the first valid slot of its order, loaded at address 0, with PHASE 1,
SLOT, TRIAL, SVN, FW_VER and the watchdog; with none it is FAILED with ERR 1 (ERR 3 where both slots cannot be read:
log 16) and waits for the host, as it does in BOOT_MODE 1 or 3; after a kennel OTP failure it sets ERR 2 and waits
for nothing. BRING_UP of a device at reset without an autostart, or in BOOT_MODE 2, turns every domain on, trains
MEM, takes the speed tables, and sets BRINGUP, READY, BERTIA_VER and BOOT_TIME; a steward that restarts sets the last
three alone and reports what waited for it. FW_STATUS reports; FW_WRITE erases and fills a slot that does not run;
FW_ACTIVATE writes a trial of a valid slot; FW_CONFIRM ends the running slot's trial; FW_COMMIT raises the counters
to the running SVN; FW_LOAD_RAM in RECOVERY runs a valid image of the host, and other commands but three are there
refused. -/
def Obligations.BootResults : Prop :=
  ∀ s : State,
    (∀ a b : SlotImage, let rom := s.domOn domSteward = true ∧ s.boot.rom = true ∧ s.boot.recovery = false ∧ s.rd R.BOOT_STAT_PHASE = 0
      let img (k : Nat) : SlotImage := if k = 0 then a else b
      let seen : Boot := { s.boot with slotA := some a, slotB := some b }
      let otp := s.rd R.KN_ERR_CAUSE = 9 ∧ s.knState = knError
      let mode := s.rd R.BOOT_STAT_MODE
      let only (t : State) : Prop := t = { s with hreg := t.hreg, boot := t.boot, dev := t.dev, cics := t.cics } ∧ Says.sensed s t
      (¬ rom → ∃ t, exec (.imageHandoff a b) s = .next t ∧ Says.regsOnly s t []) ∧
      (rom → otp → ∃ t, exec (.imageHandoff a b) s = .next t ∧ only t ∧ Says.words s t [R.BOOT_STAT, R.BOOT_SLOTS] ∧ t.boot = seen ∧ t.rd R.BOOT_STAT_PHASE = 4 ∧
        t.rd R.BOOT_STAT_ERR = 2 ∧ t.rdW R.BOOT_SLOTS = 0) ∧
      (rom → ¬ otp → mode % 2 = 1 → ∃ t, exec (.imageHandoff a b) s = .next t ∧ only t ∧ Says.words s t [R.BOOT_STAT, R.BOOT_SLOTS] ∧ t.boot = { seen with recovery := true } ∧
        t.rd R.BOOT_STAT_PHASE = 3 ∧ t.rd R.BOOT_STAT_ERR = 0 ∧ t.rdW R.BOOT_SLOTS = 0) ∧
      (rom → ¬ otp → mode % 2 = 0 → ∀ h, Says.inForce s h → h.pref < 2 →
        let spent := h.trial = true ∧ h.tries = 0
        let p := if spent then 1 - h.pref else h.pref
        let new : BootHdr := if spent then ⟨Says.nextSeq s h, p, false, 0⟩ else ⟨Says.nextSeq s h, p, true, h.tries - 1⟩
        let hdrs (t : State) : Prop := (if h.trial = true then Says.wroteHdr { seen with rom := t.boot.rom, recovery := t.boot.recovery, wdt := t.boot.wdt } t new
            else t.boot = { seen with rom := t.boot.rom, recovery := t.boot.recovery, wdt := t.boot.wdt }) ∧
          t.out = s.out ++ (if h.trial = true then [.flashHeader (new.seq % 2) new] else []) ∧ t.bit R.BOOT_STAT_FALLBACK = decide spent ∧ t.rd R.BOOT_STAT_MODE = mode
        let res (t : State) (k : Nat) : Nat := t.rd (if k = 0 then R.BOOT_SLOTS_A else R.BOOT_SLOTS_B)
        (Says.goodImage s 0 (img p) → ∃ t, exec (.imageHandoff a b) s = .next t ∧ hdrs t ∧ Says.imageRuns s t p (img p) (h.trial && !decide spent) ∧ t.boot.rom = false ∧ t.boot.wdt = s.time ∧
          res t p = 1 ∧ res t (1 - p) = 0) ∧
        (¬ Says.goodImage s 0 (img p) → Says.goodImage s 0 (img (1 - p)) → ∃ t, exec (.imageHandoff a b) s = .next t ∧ hdrs t ∧ Says.imageRuns s t (1 - p) (img (1 - p)) false ∧
          t.boot.rom = false ∧ t.boot.wdt = s.time ∧ res t p = Says.slotRes s (img p) ∧ res t (1 - p) = 1) ∧
        (¬ Says.goodImage s 0 (img p) → ¬ Says.goodImage s 0 (img (1 - p)) → ∃ t, exec (.imageHandoff a b) s = .next t ∧ hdrs t ∧ t.rd R.BOOT_STAT_PHASE = 4 ∧
          t.rd R.BOOT_STAT_ERR = (if a.result = 7 ∧ b.result = 7 then 3 else 1) ∧ t.boot.recovery = true ∧ t.boot.rom = true ∧ res t p = Says.slotRes s (img p) ∧
          res t (1 - p) = Says.slotRes s (img (1 - p)) ∧ t.mem = s.mem ∧ t.cores = s.cores))) ∧
    (∀ b : BringUp, let fw := s.domOn domSteward = true ∧ s.boot.rom = false ∧ s.rd R.BOOT_STAT_PHASE = 1 ∧ s.bit R.BOOT_STAT_BRINGUP = false
      (b.table.length ≠ 1344 ∨ b.gib.length ≠ 4 → exec (.bringUp b) s = .fault .illFormed) ∧
      (b.table.length = 1344 → b.gib.length = 4 → s.pwr.slot = [] →
        (¬ fw → ∃ t, exec (.bringUp b) s = .next t ∧ Says.regsOnly s t []) ∧
        (fw → s.bit R.BEAT_STAT_RUNNING = false → s.pwr.trans = [] → s.pwr.measCmd = none → s.pwr.measuring = [] → (∀ d, d < 128 → s.bit (R.PD_STAT_BUSY d) = false) →
          s.rd (R.PD_STAT_STATE 6) = 0 → s.rd R.BOOT_STAT_MODE = 2 ∨ s.bootItem 0x00010001 = none →
          ∃ t, exec (.bringUp b) s = .next t ∧ t.rd R.BOOT_STAT_PHASE = 2 ∧ t.bit R.BOOT_STAT_BRINGUP = true ∧ t.bit R.MBX_GSTAT_READY = true ∧ t.rdW R.BERTIA_VER = 0x01000000 ∧
            t.rd R.BOOT_TIME_READY = b.ms.toNat ∧ t.rd R.PWR_STAT_DPL = 1 ∧ (∀ d, 3 ≤ d → d < 20 → d ≠ 5 → t.domOn d = true) ∧ (∀ d, 64 ≤ d → d < 128 → t.domOn d = true) ∧
            (∀ c, c < 64 → mget (fun _ => none) t.pwr.speed c = some (((b.table.drop (21 * c)).take 21).map (·.toNat), b.tj.toNat)) ∧
            (∀ k, k < 4 → t.rd (R.DDR_STAT_STATE k) = (if b.gib.getD k 0 = 0 then 0 else if b.trained.getLsbD k = true then 2 else 3)) ∧
            (∀ i, i < 1024 → (t.core i).run = (s.core i).run) ∧ t.pwr.trans = [] ∧ (∀ p v, p < 8 → s.bootItem (0x00010010 + p) = some v → t.rdW (R.FP_ASYM p) = unLe v % 2 ^ 32)))) ∧
    (s.pwr.slot = [] → let again := s.domOn domSteward = true ∧ s.boot.rom = false ∧ s.rd R.BOOT_STAT_PHASE = 1 ∧ s.bit R.BOOT_STAT_BRINGUP = true
      (¬ again → ∃ t, exec .stewardRestart s = .next t ∧ Says.regsOnly s t []) ∧
      (again → ∃ t, exec .stewardRestart s = .next t ∧ t.rd R.BOOT_STAT_PHASE = 2 ∧ t.bit R.MBX_GSTAT_READY = true ∧ t.host.due = [] ∧ t.mem = s.mem) ∧
      (again → Says.noLink s → Says.quiet s → s.host.due = [] → ∃ t, exec .stewardRestart s = .next t ∧ t = { s with hreg := t.hreg, host := t.host, dev := t.dev, cics := t.cics } ∧ Says.sensed s t ∧
        Says.words s t [R.BOOT_STAT, R.MBX_GSTAT, R.BERTIA_VER, R.EVT_LOST, R.BUF_USED, R.FREE_SEG] ∧ t.rd R.BOOT_STAT_PHASE = 2 ∧ t.bit R.MBX_GSTAT_READY = true ∧
        t.rdW R.BERTIA_VER = 0x01000000 ∧ t.bit R.BOOT_STAT_BRINGUP = true ∧ ∀ c, { t.chan c with events := [], lost := false } = { s.chan c with events := [], lost := false })) ∧
    (∀ h : BHdr,
      (∀ x, Says.inForce s x → Says.framed s h 0 40 → let slot (i : Option SlotImage) : List Octet := match i with
          | some y => Says.num 1 y.svn.toNat ++ [0, 0, 0] ++ Says.num 4 y.version.toNat
          | none => [0, 0, 0, 0, 0, 0, 0, 0]
        Says.completes (.fwStatus h) s h stOk (Says.num 4 (s.rdW R.BOOT_STAT) ++ Says.num 4 (s.rdW R.RST_CAUSE) ++ Says.num 4 (s.rdW R.BOOT_SLOTS) ++ slot s.boot.slotA ++ slot s.boot.slotB
          ++ Says.num 4 x.seq ++ Says.num 1 x.pref ++ [if x.trial = true then 1 else 0] ++ Says.num 1 x.tries ++ [0] ++ Says.num 1 (mget (fun _ => 0) s.kn.counters 0)
          ++ Says.num 1 (mget (fun _ => 0) s.kn.counters 1) ++ [0, 0]) s) ∧
      (∀ (slot : Octet) (off : Reg32) (data : List Octet), Says.framed s h (12 + data.length) 0 (some true) → let k := slot.toNat
        let o := off.toNat
        let bad := 2 ≤ k ∨ data = [] ∨ 65536 < data.length ∨ 1048576 < o + data.length
        (bad → Says.completes (.fwWrite h slot off data) s h stBadParam [] s) ∧
        (¬ bad → s.rd R.BOOT_STAT_SLOT = k → Says.completes (.fwWrite h slot off data) s h stDenied [] s) ∧
        (¬ bad → s.rd R.BOOT_STAT_SLOT ≠ k → o ≠ 0 → (∀ l, mget (fun _ => none) s.boot.flash k = some l → l.length ≠ o) → Says.completes (.fwWrite h slot off data) s h stBadParam [] s) ∧
        (∀ l, ¬ bad → s.rd R.BOOT_STAT_SLOT ≠ k → (if o = 0 then l = [] else mget (fun _ => none) s.boot.flash k = some l ∧ l.length = o) →
          ∃ u, Says.completes (.fwWrite h slot off data) s h stOk [] u ∧ u = { s with boot := u.boot } ∧ mget (fun _ => none) u.boot.flash k = some (l ++ data) ∧
            mget (fun _ => none) u.boot.flash (1 - k) = mget (fun _ => none) s.boot.flash (1 - k) ∧
            u.boot = { s.boot with flash := u.boot.flash, slotA := if k = 0 then none else s.boot.slotA, slotB := if k = 1 then none else s.boot.slotB })) ∧
      (∀ (slot tries : Octet) (i : SlotImage), Says.framed s h 4 0 (some true) → let k := slot.toNat
        let bad := 2 ≤ k ∨ tries = 0 ∨ 15 < tries.toNat ∨ ¬ Says.goodImage s 0 i
        (bad → Says.completes (.fwActivate h slot tries i) s h stBadParam [] s) ∧
        (∀ x, Says.inForce s x → ¬ bad → let n : BootHdr := ⟨Says.nextSeq s x, k, true, tries.toNat⟩
          ∃ u, Says.completes (.fwActivate h slot tries i) s h stOk [] u ∧ u = { s with boot := u.boot, out := s.out ++ [.flashHeader (n.seq % 2) n] } ∧
            Says.wroteHdr (if k = 0 then { s.boot with slotA := some i } else { s.boot with slotB := some i }) u n)) ∧
      (Says.framed s h 0 → (s.bit R.BOOT_STAT_TRIAL = false → Says.completes (.fwConfirm h) s h stBadState [] s) ∧
        (∀ x, Says.inForce s x → s.bit R.BOOT_STAT_TRIAL = true → let n : BootHdr := ⟨Says.nextSeq s x, s.rd R.BOOT_STAT_SLOT, false, 0⟩
          ∃ u, Says.completes (.fwConfirm h) s h stOk [] u ∧ u = { s with hreg := u.hreg, boot := u.boot, out := s.out ++ [.flashHeader (n.seq % 2) n] } ∧ Says.words s u [R.BOOT_STAT] ∧
            u.bit R.BOOT_STAT_TRIAL = false ∧ Says.wroteHdr s.boot u n)) ∧
      (∀ fl : Octet, Says.framed s h 4 4 (some true) → let c (k : Nat) : Nat := mget (fun _ => 0) s.kn.counters k
        let svn := s.rd R.BOOT_STAT_SVN
        (1 < fl.toNat → Says.completes (.fwCommit h fl) s h stBadParam [] s) ∧
        (fl.toNat ≤ 1 → s.bit R.BOOT_STAT_TRIAL = true ∨ s.knLive = false → Says.completes (.fwCommit h fl) s h stBadState [] s) ∧
        (fl.toNat ≤ 1 → s.bit R.BOOT_STAT_TRIAL = false → s.knLive = true → let d1 := if fl = 1 then max (c 1) svn else c 1
          ∃ u, Says.completes (.fwCommit h fl) s h stOk (Says.num 1 (max (c 0) svn) ++ Says.num 1 d1 ++ [0, 0]) u ∧ u = { s with kn := { s.kn with counters := u.kn.counters } } ∧
            mget (fun _ => 0) u.kn.counters 0 = max (c 0) svn ∧ mget (fun _ => 0) u.kn.counters 1 = d1 ∧
            ∀ k, 2 ≤ k → mget (fun _ => 0) u.kn.counters k = c k)) ∧
      (∀ i : SlotImage,
        (Says.framed s h h.len.toNat → (h.ind = false → Says.completes (.fwLoadRam h i) s h stBadParam [] s) ∧ (h.ind = true → Says.completes (.fwLoadRam h i) s h stBadState [] s)) ∧
        (Says.romTakes s h → (¬ Says.goodImage s 1 i → Says.completes (.fwLoadRam h i) s h stBadParam [] s) ∧
          (Says.goodImage s 1 i → ∃ u, Says.completes (.fwLoadRam h i) s h stOk [] u ∧ u = { s with hreg := u.hreg, mem := u.mem, cores := u.cores, cics := u.cics, boot := { s.boot with rom := false, recovery := false, wdt := s.time } } ∧
            Says.imageRuns s u 2 i false))) ∧
      (Says.romTakes s h → Says.completes (.nopCommand h) s h stBadState [] s ∧ Says.completes (.devReset h 0x44455652) s h stBadState [] s))
end

