-- ==== Sys2Proof/Laws/Map.lean ====
section
/-! SUPPORT. What reading and writing a sparse map do, and that a write keeps its canonical form. -/

namespace Sys2Proof.Machine

open Sys2Proof

variable {α : Type}

theorem lookup_insertKey (m : SMap α) (k j : Nat) (v : α) :
    lookup (insertKey m k v) j = if j = k then some v else lookup m j := by
  induction m with
  | nil => simp only [insertKey, lookup]
  | cons e r ih =>
    obtain ⟨k', v'⟩ := e
    by_cases hj : j = k
    · subst hj
      simp only [insertKey, if_true]
      split
      · simp [lookup]
      · split
        · simp [lookup]
        · next h => simp [lookup, h, ih]
    · simp only [insertKey, if_neg hj]
      split
      · simp [lookup, hj]
      · split
        · next h => simp [lookup, hj, ← h]
        · simp [lookup, ih, hj]

theorem lookup_eraseKey (m : SMap α) (k j : Nat) :
    lookup (eraseKey m k) j = if j = k then none else lookup m j := by
  induction m with
  | nil => simp [eraseKey, lookup]
  | cons e r ih =>
    obtain ⟨k', v'⟩ := e
    by_cases hj : j = k
    · subst hj
      simp only [eraseKey, if_true] at *
      split
      · exact ih
      · next h => simp [lookup, h, ih]
    · simp only [eraseKey, if_neg hj] at *
      split
      · next h => subst h; simp [lookup, hj, ih]
      · simp [lookup, ih]

/-- A read of a map after a write: the value written at its key, what was there at any other. -/
theorem mget_mset [DecidableEq α] (d : Nat → α) (m : SMap α) (k j : Nat) (v : α) :
    mget d (mset d m k v) j = if j = k then v else mget d m j := by
  unfold mget mset
  split
  · next h => rw [lookup_eraseKey]; split <;> simp_all
  · rw [lookup_insertKey]; split <;> simp_all

@[simp] theorem mget_mset_self [DecidableEq α] (d : Nat → α) (m : SMap α) (k : Nat) (v : α) :
    mget d (mset d m k v) k = v := by simp [mget_mset]

theorem mget_mset_ne [DecidableEq α] (d : Nat → α) (m : SMap α) (k j : Nat) (v : α) (h : j ≠ k) :
    mget d (mset d m k v) j = mget d m j := by simp [mget_mset, h]

theorem insertKey_insertKey (m : SMap α) (k : Nat) (v w : α) : insertKey (insertKey m k v) k w = insertKey m k w := by
  induction m with
  | nil => simp [insertKey]
  | cons e r ih =>
    obtain ⟨k', v'⟩ := e
    simp only [insertKey]
    split
    · next h => simp [insertKey]
    · split
      · next h h' => subst h'; simp [insertKey]
      · next h h' => simp [insertKey, h, h', ih]

theorem eraseKey_eraseKey (m : SMap α) (k : Nat) : eraseKey (eraseKey m k) k = eraseKey m k := by
  induction m with
  | nil => rfl
  | cons e r ih =>
    obtain ⟨k', v'⟩ := e
    simp only [eraseKey]
    split
    · exact ih
    · next h => simp [eraseKey, h, ih]

/-- Writing the same value again changes nothing. -/
theorem mset_mset_self [DecidableEq α] (d : Nat → α) (m : SMap α) (k : Nat) (v : α) :
    mset d (mset d m k v) k v = mset d m k v := by
  unfold mset
  split
  · exact eraseKey_eraseKey m k
  · exact insertKey_insertKey m k v v

@[simp] theorem mget_nil (d : Nat → α) (k : Nat) : mget d [] k = d k := rfl

/-! ### The canonical form -/

theorem risingKeys_cons (k : Nat) (v : α) (r : SMap α) :
    risingKeys ((k, v) :: r) = (r.head?.all (fun e => decide (k < e.1)) && risingKeys r) := by
  cases r <;> simp [risingKeys]

theorem risingKeys_insertKey (m : SMap α) (k : Nat) (v : α) (h : risingKeys m = true) :
    risingKeys (insertKey m k v) = true ∧
      ∀ j, j < k → m.head?.all (fun e => decide (j < e.1)) = true →
        (insertKey m k v).head?.all (fun e => decide (j < e.1)) = true := by
  induction m with
  | nil => simp [insertKey, risingKeys]
  | cons e r ih =>
    obtain ⟨k', v'⟩ := e
    rw [risingKeys_cons, Bool.and_eq_true] at h
    obtain ⟨ih1, ih2⟩ := ih h.2
    simp only [insertKey]
    split
    · next hk =>
      refine ⟨by simp [risingKeys, hk, risingKeys_cons] at *; exact h, ?_⟩
      intro j hj _
      simpa using hj
    · split
      · next hk hk' =>
        subst hk'
        refine ⟨by rw [risingKeys_cons]; simp [h.1, h.2], ?_⟩
        intro j hj _
        simpa using hj
      · next hk hk' =>
        refine ⟨?_, ?_⟩
        · rw [risingKeys_cons, Bool.and_eq_true]
          exact ⟨ih2 k' (by omega) h.1, ih1⟩
        · intro j hj hm
          simpa using hm

theorem all_gt_of_rising (k : Nat) (v : α) (r : SMap α) (h : risingKeys ((k, v) :: r) = true) :
    r.all (fun e => decide (k < e.1)) = true := by
  induction r generalizing k v with
  | nil => rfl
  | cons e r ih =>
    obtain ⟨k', v'⟩ := e
    simp only [risingKeys, Bool.and_eq_true, decide_eq_true_eq] at h
    have := ih k' v' h.2
    simp only [List.all_cons, Bool.and_eq_true, decide_eq_true_eq]
    refine ⟨h.1, ?_⟩
    rw [List.all_eq_true] at *
    intro x hx
    have := this x hx
    simp only [decide_eq_true_eq] at *
    omega

theorem risingKeys_cons' (k : Nat) (v : α) (r : SMap α) :
    risingKeys ((k, v) :: r) = true ↔ r.all (fun e => decide (k < e.1)) = true ∧ risingKeys r = true := by
  refine ⟨fun h => ⟨all_gt_of_rising k v r h, ?_⟩, fun h => ?_⟩
  · rw [risingKeys_cons, Bool.and_eq_true] at h; exact h.2
  · rw [risingKeys_cons, Bool.and_eq_true]
    refine ⟨?_, h.2⟩
    cases r with
    | nil => rfl
    | cons e r => simpa using (List.all_eq_true.mp h.1) e (by simp)

/-- A filtered map keeps rising keys. -/
theorem risingKeys_filter (p : Nat × α → Bool) (m : SMap α) (h : risingKeys m = true) :
    risingKeys (m.filter p) = true := by
  induction m with
  | nil => rfl
  | cons e r ih =>
    obtain ⟨k', v'⟩ := e
    rw [risingKeys_cons'] at h
    rw [List.filter_cons]
    split
    · rw [risingKeys_cons']
      refine ⟨?_, ih h.2⟩
      rw [List.all_eq_true] at *
      intro x hx
      exact h.1 x (List.mem_filter.mp hx).1
    · exact ih h.2

theorem eraseKey_eq_filter (m : SMap α) (k : Nat) : eraseKey m k = m.filter (fun e => decide (k ≠ e.1)) := by
  induction m with
  | nil => rfl
  | cons e r ih =>
    obtain ⟨k', v'⟩ := e
    by_cases h : k = k'
    · subst h; simp [eraseKey, ih]
    · simp [eraseKey, h, ih]

theorem all_insertKey (p : Nat × α → Bool) (m : SMap α) (k : Nat) (v : α) (h : m.all p = true) (hv : p (k, v) = true) :
    (insertKey m k v).all p = true := by
  induction m with
  | nil => simp [insertKey, hv]
  | cons e r ih =>
    obtain ⟨k', v'⟩ := e
    simp only [List.all_cons, Bool.and_eq_true] at h
    simp only [insertKey]
    split
    · simp [h, hv]
    · split
      · simp [h, hv]
      · simp [h, ih]

/-- A write keeps the canonical form. -/
theorem mapWf_mset [DecidableEq α] (d : Nat → α) (m : SMap α) (k : Nat) (v : α) (h : mapWf d m = true) :
    mapWf d (mset d m k v) = true := by
  unfold mapWf at *
  rw [Bool.and_eq_true] at *
  unfold mset
  split
  · rw [eraseKey_eq_filter]
    refine ⟨risingKeys_filter _ _ h.1, ?_⟩
    rw [List.all_eq_true] at *
    intro x hx
    exact h.2 x (List.mem_filter.mp hx).1
  · next hv => exact ⟨(risingKeys_insertKey m k v h.1).1, all_insertKey _ m k v h.2 (by simpa using hv)⟩

/-- Dropping or keeping a range keeps the canonical form. -/
theorem mapWf_filter [DecidableEq α] (d : Nat → α) (m : SMap α) (p : Nat × α → Bool) (h : mapWf d m = true) :
    mapWf d (m.filter p) = true := by
  unfold mapWf at *
  rw [Bool.and_eq_true] at *
  refine ⟨risingKeys_filter _ _ h.1, ?_⟩
  rw [List.all_eq_true] at *
  intro x hx
  exact h.2 x (List.mem_filter.mp hx).1

theorem mapWf_dropRange [DecidableEq α] (d : Nat → α) (m : SMap α) (lo hi : Nat) (h : mapWf d m = true) :
    mapWf d (dropRange m lo hi) = true := mapWf_filter d m _ h

theorem mapWf_keepRange [DecidableEq α] (d : Nat → α) (m : SMap α) (lo hi : Nat) (h : mapWf d m = true) :
    mapWf d (keepRange m lo hi) = true := mapWf_filter d m _ h

end Sys2Proof.Machine
end

