-- ==== Sys2Proof/Laws/State.lean ====
section
/-! SUPPORT. What each update of one part of the state leaves and sets: one lemma for each field and update. -/

namespace Sys2Proof.Machine

open Sys2Proof

variable (s : State)

@[simp] theorem State.onJrn_pending (f : Journal → Journal) : (s.onJrn f).pending = s.pending := rfl
@[simp] theorem State.onJrn_out (f : Journal → Journal) : (s.onJrn f).out = s.out := rfl
@[simp] theorem State.onJrn_free (f : Journal → Journal) : (s.onJrn f).free = s.free := rfl
@[simp] theorem State.onJrn_time (f : Journal → Journal) : (s.onJrn f).time = s.time := rfl
@[simp] theorem State.onJrn_hreg (f : Journal → Journal) : (s.onJrn f).hreg = s.hreg := rfl
@[simp] theorem State.onJrn_force (f : Journal → Journal) : (s.onJrn f).force = s.force := rfl
@[simp] theorem State.onJrn_mem (f : Journal → Journal) : (s.onJrn f).mem = s.mem := rfl
@[simp] theorem State.onJrn_eccUnc (f : Journal → Journal) : (s.onJrn f).eccUnc = s.eccUnc := rfl
@[simp] theorem State.onJrn_beat (f : Journal → Journal) : (s.onJrn f).beat = s.beat := rfl
@[simp] theorem State.onJrn_clus (f : Journal → Journal) : (s.onJrn f).clus = s.clus := rfl
@[simp] theorem State.onJrn_cores (f : Journal → Journal) : (s.onJrn f).cores = s.cores := rfl
@[simp] theorem State.onJrn_cics (f : Journal → Journal) : (s.onJrn f).cics = s.cics := rfl
@[simp] theorem State.onJrn_dev (f : Journal → Journal) : (s.onJrn f).dev = s.dev := rfl
@[simp] theorem State.onJrn_ports (f : Journal → Journal) : (s.onJrn f).ports = s.ports := rfl
@[simp] theorem State.onJrn_abortPin (f : Journal → Journal) : (s.onJrn f).abortPin = s.abortPin := rfl
@[simp] theorem State.onJrn_str (f : Journal → Journal) : (s.onJrn f).str = s.str := rfl
@[simp] theorem State.onJrn_qeng (f : Journal → Journal) : (s.onJrn f).qeng = s.qeng := rfl
@[simp] theorem State.onJrn_red (f : Journal → Journal) : (s.onJrn f).red = s.red := rfl
@[simp] theorem State.onJrn_fab (f : Journal → Journal) : (s.onJrn f).fab = s.fab := rfl
@[simp] theorem State.onJrn_jrn (f : Journal → Journal) : (s.onJrn f).jrn = f s.jrn := rfl
@[simp] theorem State.onJrn_kn (f : Journal → Journal) : (s.onJrn f).kn = s.kn := rfl
@[simp] theorem State.onJrn_host (f : Journal → Journal) : (s.onJrn f).host = s.host := rfl
@[simp] theorem State.onJrn_fserial (f : Journal → Journal) : (s.onJrn f).fserial = s.fserial := rfl
@[simp] theorem State.onJrn_mon (f : Journal → Journal) : (s.onJrn f).mon = s.mon := rfl
@[simp] theorem State.onJrn_cross (f : Journal → Journal) : (s.onJrn f).cross = s.cross := rfl
@[simp] theorem State.onJrn_pwr (f : Journal → Journal) : (s.onJrn f).pwr = s.pwr := rfl
@[simp] theorem State.onJrn_wh (f : Journal → Journal) : (s.onJrn f).wh = s.wh := rfl
@[simp] theorem State.onJrn_boot (f : Journal → Journal) : (s.onJrn f).boot = s.boot := rfl

@[simp] theorem State.onFab_pending (f : Fabric → Fabric) : (s.onFab f).pending = s.pending := rfl
@[simp] theorem State.onFab_out (f : Fabric → Fabric) : (s.onFab f).out = s.out := rfl
@[simp] theorem State.onFab_free (f : Fabric → Fabric) : (s.onFab f).free = s.free := rfl
@[simp] theorem State.onFab_time (f : Fabric → Fabric) : (s.onFab f).time = s.time := rfl
@[simp] theorem State.onFab_hreg (f : Fabric → Fabric) : (s.onFab f).hreg = s.hreg := rfl
@[simp] theorem State.onFab_force (f : Fabric → Fabric) : (s.onFab f).force = s.force := rfl
@[simp] theorem State.onFab_mem (f : Fabric → Fabric) : (s.onFab f).mem = s.mem := rfl
@[simp] theorem State.onFab_eccUnc (f : Fabric → Fabric) : (s.onFab f).eccUnc = s.eccUnc := rfl
@[simp] theorem State.onFab_beat (f : Fabric → Fabric) : (s.onFab f).beat = s.beat := rfl
@[simp] theorem State.onFab_clus (f : Fabric → Fabric) : (s.onFab f).clus = s.clus := rfl
@[simp] theorem State.onFab_cores (f : Fabric → Fabric) : (s.onFab f).cores = s.cores := rfl
@[simp] theorem State.onFab_cics (f : Fabric → Fabric) : (s.onFab f).cics = s.cics := rfl
@[simp] theorem State.onFab_dev (f : Fabric → Fabric) : (s.onFab f).dev = s.dev := rfl
@[simp] theorem State.onFab_ports (f : Fabric → Fabric) : (s.onFab f).ports = s.ports := rfl
@[simp] theorem State.onFab_abortPin (f : Fabric → Fabric) : (s.onFab f).abortPin = s.abortPin := rfl
@[simp] theorem State.onFab_str (f : Fabric → Fabric) : (s.onFab f).str = s.str := rfl
@[simp] theorem State.onFab_qeng (f : Fabric → Fabric) : (s.onFab f).qeng = s.qeng := rfl
@[simp] theorem State.onFab_red (f : Fabric → Fabric) : (s.onFab f).red = s.red := rfl
@[simp] theorem State.onFab_fab (f : Fabric → Fabric) : (s.onFab f).fab = f s.fab := rfl
@[simp] theorem State.onFab_jrn (f : Fabric → Fabric) : (s.onFab f).jrn = s.jrn := rfl
@[simp] theorem State.onFab_kn (f : Fabric → Fabric) : (s.onFab f).kn = s.kn := rfl
@[simp] theorem State.onFab_host (f : Fabric → Fabric) : (s.onFab f).host = s.host := rfl
@[simp] theorem State.onFab_fserial (f : Fabric → Fabric) : (s.onFab f).fserial = s.fserial := rfl
@[simp] theorem State.onFab_mon (f : Fabric → Fabric) : (s.onFab f).mon = s.mon := rfl
@[simp] theorem State.onFab_cross (f : Fabric → Fabric) : (s.onFab f).cross = s.cross := rfl
@[simp] theorem State.onFab_pwr (f : Fabric → Fabric) : (s.onFab f).pwr = s.pwr := rfl
@[simp] theorem State.onFab_wh (f : Fabric → Fabric) : (s.onFab f).wh = s.wh := rfl
@[simp] theorem State.onFab_boot (f : Fabric → Fabric) : (s.onFab f).boot = s.boot := rfl

@[simp] theorem State.onStr_pending (f : Streams → Streams) : (s.onStr f).pending = s.pending := rfl
@[simp] theorem State.onStr_out (f : Streams → Streams) : (s.onStr f).out = s.out := rfl
@[simp] theorem State.onStr_free (f : Streams → Streams) : (s.onStr f).free = s.free := rfl
@[simp] theorem State.onStr_time (f : Streams → Streams) : (s.onStr f).time = s.time := rfl
@[simp] theorem State.onStr_hreg (f : Streams → Streams) : (s.onStr f).hreg = s.hreg := rfl
@[simp] theorem State.onStr_force (f : Streams → Streams) : (s.onStr f).force = s.force := rfl
@[simp] theorem State.onStr_mem (f : Streams → Streams) : (s.onStr f).mem = s.mem := rfl
@[simp] theorem State.onStr_eccUnc (f : Streams → Streams) : (s.onStr f).eccUnc = s.eccUnc := rfl
@[simp] theorem State.onStr_beat (f : Streams → Streams) : (s.onStr f).beat = s.beat := rfl
@[simp] theorem State.onStr_clus (f : Streams → Streams) : (s.onStr f).clus = s.clus := rfl
@[simp] theorem State.onStr_cores (f : Streams → Streams) : (s.onStr f).cores = s.cores := rfl
@[simp] theorem State.onStr_cics (f : Streams → Streams) : (s.onStr f).cics = s.cics := rfl
@[simp] theorem State.onStr_dev (f : Streams → Streams) : (s.onStr f).dev = s.dev := rfl
@[simp] theorem State.onStr_ports (f : Streams → Streams) : (s.onStr f).ports = s.ports := rfl
@[simp] theorem State.onStr_abortPin (f : Streams → Streams) : (s.onStr f).abortPin = s.abortPin := rfl
@[simp] theorem State.onStr_str (f : Streams → Streams) : (s.onStr f).str = f s.str := rfl
@[simp] theorem State.onStr_qeng (f : Streams → Streams) : (s.onStr f).qeng = s.qeng := rfl
@[simp] theorem State.onStr_red (f : Streams → Streams) : (s.onStr f).red = s.red := rfl
@[simp] theorem State.onStr_fab (f : Streams → Streams) : (s.onStr f).fab = s.fab := rfl
@[simp] theorem State.onStr_jrn (f : Streams → Streams) : (s.onStr f).jrn = s.jrn := rfl
@[simp] theorem State.onStr_kn (f : Streams → Streams) : (s.onStr f).kn = s.kn := rfl
@[simp] theorem State.onStr_host (f : Streams → Streams) : (s.onStr f).host = s.host := rfl
@[simp] theorem State.onStr_fserial (f : Streams → Streams) : (s.onStr f).fserial = s.fserial := rfl
@[simp] theorem State.onStr_mon (f : Streams → Streams) : (s.onStr f).mon = s.mon := rfl
@[simp] theorem State.onStr_cross (f : Streams → Streams) : (s.onStr f).cross = s.cross := rfl
@[simp] theorem State.onStr_pwr (f : Streams → Streams) : (s.onStr f).pwr = s.pwr := rfl
@[simp] theorem State.onStr_wh (f : Streams → Streams) : (s.onStr f).wh = s.wh := rfl
@[simp] theorem State.onStr_boot (f : Streams → Streams) : (s.onStr f).boot = s.boot := rfl

@[simp] theorem State.onRed_pending (f : Red → Red) : (s.onRed f).pending = s.pending := rfl
@[simp] theorem State.onRed_out (f : Red → Red) : (s.onRed f).out = s.out := rfl
@[simp] theorem State.onRed_free (f : Red → Red) : (s.onRed f).free = s.free := rfl
@[simp] theorem State.onRed_time (f : Red → Red) : (s.onRed f).time = s.time := rfl
@[simp] theorem State.onRed_hreg (f : Red → Red) : (s.onRed f).hreg = s.hreg := rfl
@[simp] theorem State.onRed_force (f : Red → Red) : (s.onRed f).force = s.force := rfl
@[simp] theorem State.onRed_mem (f : Red → Red) : (s.onRed f).mem = s.mem := rfl
@[simp] theorem State.onRed_eccUnc (f : Red → Red) : (s.onRed f).eccUnc = s.eccUnc := rfl
@[simp] theorem State.onRed_beat (f : Red → Red) : (s.onRed f).beat = s.beat := rfl
@[simp] theorem State.onRed_clus (f : Red → Red) : (s.onRed f).clus = s.clus := rfl
@[simp] theorem State.onRed_cores (f : Red → Red) : (s.onRed f).cores = s.cores := rfl
@[simp] theorem State.onRed_cics (f : Red → Red) : (s.onRed f).cics = s.cics := rfl
@[simp] theorem State.onRed_dev (f : Red → Red) : (s.onRed f).dev = s.dev := rfl
@[simp] theorem State.onRed_ports (f : Red → Red) : (s.onRed f).ports = s.ports := rfl
@[simp] theorem State.onRed_abortPin (f : Red → Red) : (s.onRed f).abortPin = s.abortPin := rfl
@[simp] theorem State.onRed_str (f : Red → Red) : (s.onRed f).str = s.str := rfl
@[simp] theorem State.onRed_qeng (f : Red → Red) : (s.onRed f).qeng = s.qeng := rfl
@[simp] theorem State.onRed_red (f : Red → Red) : (s.onRed f).red = f s.red := rfl
@[simp] theorem State.onRed_fab (f : Red → Red) : (s.onRed f).fab = s.fab := rfl
@[simp] theorem State.onRed_jrn (f : Red → Red) : (s.onRed f).jrn = s.jrn := rfl
@[simp] theorem State.onRed_kn (f : Red → Red) : (s.onRed f).kn = s.kn := rfl
@[simp] theorem State.onRed_host (f : Red → Red) : (s.onRed f).host = s.host := rfl
@[simp] theorem State.onRed_fserial (f : Red → Red) : (s.onRed f).fserial = s.fserial := rfl
@[simp] theorem State.onRed_mon (f : Red → Red) : (s.onRed f).mon = s.mon := rfl
@[simp] theorem State.onRed_cross (f : Red → Red) : (s.onRed f).cross = s.cross := rfl
@[simp] theorem State.onRed_pwr (f : Red → Red) : (s.onRed f).pwr = s.pwr := rfl
@[simp] theorem State.onRed_wh (f : Red → Red) : (s.onRed f).wh = s.wh := rfl
@[simp] theorem State.onRed_boot (f : Red → Red) : (s.onRed f).boot = s.boot := rfl

@[simp] theorem State.onKn_pending (f : Kennel → Kennel) : (s.onKn f).pending = s.pending := rfl
@[simp] theorem State.onKn_out (f : Kennel → Kennel) : (s.onKn f).out = s.out := rfl
@[simp] theorem State.onKn_free (f : Kennel → Kennel) : (s.onKn f).free = s.free := rfl
@[simp] theorem State.onKn_time (f : Kennel → Kennel) : (s.onKn f).time = s.time := rfl
@[simp] theorem State.onKn_hreg (f : Kennel → Kennel) : (s.onKn f).hreg = s.hreg := rfl
@[simp] theorem State.onKn_force (f : Kennel → Kennel) : (s.onKn f).force = s.force := rfl
@[simp] theorem State.onKn_mem (f : Kennel → Kennel) : (s.onKn f).mem = s.mem := rfl
@[simp] theorem State.onKn_eccUnc (f : Kennel → Kennel) : (s.onKn f).eccUnc = s.eccUnc := rfl
@[simp] theorem State.onKn_beat (f : Kennel → Kennel) : (s.onKn f).beat = s.beat := rfl
@[simp] theorem State.onKn_clus (f : Kennel → Kennel) : (s.onKn f).clus = s.clus := rfl
@[simp] theorem State.onKn_cores (f : Kennel → Kennel) : (s.onKn f).cores = s.cores := rfl
@[simp] theorem State.onKn_cics (f : Kennel → Kennel) : (s.onKn f).cics = s.cics := rfl
@[simp] theorem State.onKn_dev (f : Kennel → Kennel) : (s.onKn f).dev = s.dev := rfl
@[simp] theorem State.onKn_ports (f : Kennel → Kennel) : (s.onKn f).ports = s.ports := rfl
@[simp] theorem State.onKn_abortPin (f : Kennel → Kennel) : (s.onKn f).abortPin = s.abortPin := rfl
@[simp] theorem State.onKn_str (f : Kennel → Kennel) : (s.onKn f).str = s.str := rfl
@[simp] theorem State.onKn_qeng (f : Kennel → Kennel) : (s.onKn f).qeng = s.qeng := rfl
@[simp] theorem State.onKn_red (f : Kennel → Kennel) : (s.onKn f).red = s.red := rfl
@[simp] theorem State.onKn_fab (f : Kennel → Kennel) : (s.onKn f).fab = s.fab := rfl
@[simp] theorem State.onKn_jrn (f : Kennel → Kennel) : (s.onKn f).jrn = s.jrn := rfl
@[simp] theorem State.onKn_kn (f : Kennel → Kennel) : (s.onKn f).kn = f s.kn := rfl
@[simp] theorem State.onKn_host (f : Kennel → Kennel) : (s.onKn f).host = s.host := rfl
@[simp] theorem State.onKn_fserial (f : Kennel → Kennel) : (s.onKn f).fserial = s.fserial := rfl
@[simp] theorem State.onKn_mon (f : Kennel → Kennel) : (s.onKn f).mon = s.mon := rfl
@[simp] theorem State.onKn_cross (f : Kennel → Kennel) : (s.onKn f).cross = s.cross := rfl
@[simp] theorem State.onKn_pwr (f : Kennel → Kennel) : (s.onKn f).pwr = s.pwr := rfl
@[simp] theorem State.onKn_wh (f : Kennel → Kennel) : (s.onKn f).wh = s.wh := rfl
@[simp] theorem State.onKn_boot (f : Kennel → Kennel) : (s.onKn f).boot = s.boot := rfl

@[simp] theorem State.onHost_pending (f : HostIf → HostIf) : (s.onHost f).pending = s.pending := rfl
@[simp] theorem State.onHost_out (f : HostIf → HostIf) : (s.onHost f).out = s.out := rfl
@[simp] theorem State.onHost_free (f : HostIf → HostIf) : (s.onHost f).free = s.free := rfl
@[simp] theorem State.onHost_time (f : HostIf → HostIf) : (s.onHost f).time = s.time := rfl
@[simp] theorem State.onHost_hreg (f : HostIf → HostIf) : (s.onHost f).hreg = s.hreg := rfl
@[simp] theorem State.onHost_force (f : HostIf → HostIf) : (s.onHost f).force = s.force := rfl
@[simp] theorem State.onHost_mem (f : HostIf → HostIf) : (s.onHost f).mem = s.mem := rfl
@[simp] theorem State.onHost_eccUnc (f : HostIf → HostIf) : (s.onHost f).eccUnc = s.eccUnc := rfl
@[simp] theorem State.onHost_beat (f : HostIf → HostIf) : (s.onHost f).beat = s.beat := rfl
@[simp] theorem State.onHost_clus (f : HostIf → HostIf) : (s.onHost f).clus = s.clus := rfl
@[simp] theorem State.onHost_cores (f : HostIf → HostIf) : (s.onHost f).cores = s.cores := rfl
@[simp] theorem State.onHost_cics (f : HostIf → HostIf) : (s.onHost f).cics = s.cics := rfl
@[simp] theorem State.onHost_dev (f : HostIf → HostIf) : (s.onHost f).dev = s.dev := rfl
@[simp] theorem State.onHost_ports (f : HostIf → HostIf) : (s.onHost f).ports = s.ports := rfl
@[simp] theorem State.onHost_abortPin (f : HostIf → HostIf) : (s.onHost f).abortPin = s.abortPin := rfl
@[simp] theorem State.onHost_str (f : HostIf → HostIf) : (s.onHost f).str = s.str := rfl
@[simp] theorem State.onHost_qeng (f : HostIf → HostIf) : (s.onHost f).qeng = s.qeng := rfl
@[simp] theorem State.onHost_red (f : HostIf → HostIf) : (s.onHost f).red = s.red := rfl
@[simp] theorem State.onHost_fab (f : HostIf → HostIf) : (s.onHost f).fab = s.fab := rfl
@[simp] theorem State.onHost_jrn (f : HostIf → HostIf) : (s.onHost f).jrn = s.jrn := rfl
@[simp] theorem State.onHost_kn (f : HostIf → HostIf) : (s.onHost f).kn = s.kn := rfl
@[simp] theorem State.onHost_host (f : HostIf → HostIf) : (s.onHost f).host = f s.host := rfl
@[simp] theorem State.onHost_fserial (f : HostIf → HostIf) : (s.onHost f).fserial = s.fserial := rfl
@[simp] theorem State.onHost_mon (f : HostIf → HostIf) : (s.onHost f).mon = s.mon := rfl
@[simp] theorem State.onHost_cross (f : HostIf → HostIf) : (s.onHost f).cross = s.cross := rfl
@[simp] theorem State.onHost_pwr (f : HostIf → HostIf) : (s.onHost f).pwr = s.pwr := rfl
@[simp] theorem State.onHost_wh (f : HostIf → HostIf) : (s.onHost f).wh = s.wh := rfl
@[simp] theorem State.onHost_boot (f : HostIf → HostIf) : (s.onHost f).boot = s.boot := rfl

@[simp] theorem State.onPwr_pending (f : Power → Power) : (s.onPwr f).pending = s.pending := rfl
@[simp] theorem State.onPwr_out (f : Power → Power) : (s.onPwr f).out = s.out := rfl
@[simp] theorem State.onPwr_free (f : Power → Power) : (s.onPwr f).free = s.free := rfl
@[simp] theorem State.onPwr_time (f : Power → Power) : (s.onPwr f).time = s.time := rfl
@[simp] theorem State.onPwr_hreg (f : Power → Power) : (s.onPwr f).hreg = s.hreg := rfl
@[simp] theorem State.onPwr_force (f : Power → Power) : (s.onPwr f).force = s.force := rfl
@[simp] theorem State.onPwr_mem (f : Power → Power) : (s.onPwr f).mem = s.mem := rfl
@[simp] theorem State.onPwr_eccUnc (f : Power → Power) : (s.onPwr f).eccUnc = s.eccUnc := rfl
@[simp] theorem State.onPwr_beat (f : Power → Power) : (s.onPwr f).beat = s.beat := rfl
@[simp] theorem State.onPwr_clus (f : Power → Power) : (s.onPwr f).clus = s.clus := rfl
@[simp] theorem State.onPwr_cores (f : Power → Power) : (s.onPwr f).cores = s.cores := rfl
@[simp] theorem State.onPwr_cics (f : Power → Power) : (s.onPwr f).cics = s.cics := rfl
@[simp] theorem State.onPwr_dev (f : Power → Power) : (s.onPwr f).dev = s.dev := rfl
@[simp] theorem State.onPwr_ports (f : Power → Power) : (s.onPwr f).ports = s.ports := rfl
@[simp] theorem State.onPwr_abortPin (f : Power → Power) : (s.onPwr f).abortPin = s.abortPin := rfl
@[simp] theorem State.onPwr_str (f : Power → Power) : (s.onPwr f).str = s.str := rfl
@[simp] theorem State.onPwr_qeng (f : Power → Power) : (s.onPwr f).qeng = s.qeng := rfl
@[simp] theorem State.onPwr_red (f : Power → Power) : (s.onPwr f).red = s.red := rfl
@[simp] theorem State.onPwr_fab (f : Power → Power) : (s.onPwr f).fab = s.fab := rfl
@[simp] theorem State.onPwr_jrn (f : Power → Power) : (s.onPwr f).jrn = s.jrn := rfl
@[simp] theorem State.onPwr_kn (f : Power → Power) : (s.onPwr f).kn = s.kn := rfl
@[simp] theorem State.onPwr_host (f : Power → Power) : (s.onPwr f).host = s.host := rfl
@[simp] theorem State.onPwr_fserial (f : Power → Power) : (s.onPwr f).fserial = s.fserial := rfl
@[simp] theorem State.onPwr_mon (f : Power → Power) : (s.onPwr f).mon = s.mon := rfl
@[simp] theorem State.onPwr_cross (f : Power → Power) : (s.onPwr f).cross = s.cross := rfl
@[simp] theorem State.onPwr_pwr (f : Power → Power) : (s.onPwr f).pwr = f s.pwr := rfl
@[simp] theorem State.onPwr_wh (f : Power → Power) : (s.onPwr f).wh = s.wh := rfl
@[simp] theorem State.onPwr_boot (f : Power → Power) : (s.onPwr f).boot = s.boot := rfl

@[simp] theorem State.onWh_pending (f : Whistle → Whistle) : (s.onWh f).pending = s.pending := rfl
@[simp] theorem State.onWh_out (f : Whistle → Whistle) : (s.onWh f).out = s.out := rfl
@[simp] theorem State.onWh_free (f : Whistle → Whistle) : (s.onWh f).free = s.free := rfl
@[simp] theorem State.onWh_time (f : Whistle → Whistle) : (s.onWh f).time = s.time := rfl
@[simp] theorem State.onWh_hreg (f : Whistle → Whistle) : (s.onWh f).hreg = s.hreg := rfl
@[simp] theorem State.onWh_force (f : Whistle → Whistle) : (s.onWh f).force = s.force := rfl
@[simp] theorem State.onWh_mem (f : Whistle → Whistle) : (s.onWh f).mem = s.mem := rfl
@[simp] theorem State.onWh_eccUnc (f : Whistle → Whistle) : (s.onWh f).eccUnc = s.eccUnc := rfl
@[simp] theorem State.onWh_beat (f : Whistle → Whistle) : (s.onWh f).beat = s.beat := rfl
@[simp] theorem State.onWh_clus (f : Whistle → Whistle) : (s.onWh f).clus = s.clus := rfl
@[simp] theorem State.onWh_cores (f : Whistle → Whistle) : (s.onWh f).cores = s.cores := rfl
@[simp] theorem State.onWh_cics (f : Whistle → Whistle) : (s.onWh f).cics = s.cics := rfl
@[simp] theorem State.onWh_dev (f : Whistle → Whistle) : (s.onWh f).dev = s.dev := rfl
@[simp] theorem State.onWh_ports (f : Whistle → Whistle) : (s.onWh f).ports = s.ports := rfl
@[simp] theorem State.onWh_abortPin (f : Whistle → Whistle) : (s.onWh f).abortPin = s.abortPin := rfl
@[simp] theorem State.onWh_str (f : Whistle → Whistle) : (s.onWh f).str = s.str := rfl
@[simp] theorem State.onWh_qeng (f : Whistle → Whistle) : (s.onWh f).qeng = s.qeng := rfl
@[simp] theorem State.onWh_red (f : Whistle → Whistle) : (s.onWh f).red = s.red := rfl
@[simp] theorem State.onWh_fab (f : Whistle → Whistle) : (s.onWh f).fab = s.fab := rfl
@[simp] theorem State.onWh_jrn (f : Whistle → Whistle) : (s.onWh f).jrn = s.jrn := rfl
@[simp] theorem State.onWh_kn (f : Whistle → Whistle) : (s.onWh f).kn = s.kn := rfl
@[simp] theorem State.onWh_host (f : Whistle → Whistle) : (s.onWh f).host = s.host := rfl
@[simp] theorem State.onWh_fserial (f : Whistle → Whistle) : (s.onWh f).fserial = s.fserial := rfl
@[simp] theorem State.onWh_mon (f : Whistle → Whistle) : (s.onWh f).mon = s.mon := rfl
@[simp] theorem State.onWh_cross (f : Whistle → Whistle) : (s.onWh f).cross = s.cross := rfl
@[simp] theorem State.onWh_pwr (f : Whistle → Whistle) : (s.onWh f).pwr = s.pwr := rfl
@[simp] theorem State.onWh_wh (f : Whistle → Whistle) : (s.onWh f).wh = f s.wh := rfl
@[simp] theorem State.onWh_boot (f : Whistle → Whistle) : (s.onWh f).boot = s.boot := rfl

@[simp] theorem State.onBoot_pending (f : Boot → Boot) : (s.onBoot f).pending = s.pending := rfl
@[simp] theorem State.onBoot_out (f : Boot → Boot) : (s.onBoot f).out = s.out := rfl
@[simp] theorem State.onBoot_free (f : Boot → Boot) : (s.onBoot f).free = s.free := rfl
@[simp] theorem State.onBoot_time (f : Boot → Boot) : (s.onBoot f).time = s.time := rfl
@[simp] theorem State.onBoot_hreg (f : Boot → Boot) : (s.onBoot f).hreg = s.hreg := rfl
@[simp] theorem State.onBoot_force (f : Boot → Boot) : (s.onBoot f).force = s.force := rfl
@[simp] theorem State.onBoot_mem (f : Boot → Boot) : (s.onBoot f).mem = s.mem := rfl
@[simp] theorem State.onBoot_eccUnc (f : Boot → Boot) : (s.onBoot f).eccUnc = s.eccUnc := rfl
@[simp] theorem State.onBoot_beat (f : Boot → Boot) : (s.onBoot f).beat = s.beat := rfl
@[simp] theorem State.onBoot_clus (f : Boot → Boot) : (s.onBoot f).clus = s.clus := rfl
@[simp] theorem State.onBoot_cores (f : Boot → Boot) : (s.onBoot f).cores = s.cores := rfl
@[simp] theorem State.onBoot_cics (f : Boot → Boot) : (s.onBoot f).cics = s.cics := rfl
@[simp] theorem State.onBoot_dev (f : Boot → Boot) : (s.onBoot f).dev = s.dev := rfl
@[simp] theorem State.onBoot_ports (f : Boot → Boot) : (s.onBoot f).ports = s.ports := rfl
@[simp] theorem State.onBoot_abortPin (f : Boot → Boot) : (s.onBoot f).abortPin = s.abortPin := rfl
@[simp] theorem State.onBoot_str (f : Boot → Boot) : (s.onBoot f).str = s.str := rfl
@[simp] theorem State.onBoot_qeng (f : Boot → Boot) : (s.onBoot f).qeng = s.qeng := rfl
@[simp] theorem State.onBoot_red (f : Boot → Boot) : (s.onBoot f).red = s.red := rfl
@[simp] theorem State.onBoot_fab (f : Boot → Boot) : (s.onBoot f).fab = s.fab := rfl
@[simp] theorem State.onBoot_jrn (f : Boot → Boot) : (s.onBoot f).jrn = s.jrn := rfl
@[simp] theorem State.onBoot_kn (f : Boot → Boot) : (s.onBoot f).kn = s.kn := rfl
@[simp] theorem State.onBoot_host (f : Boot → Boot) : (s.onBoot f).host = s.host := rfl
@[simp] theorem State.onBoot_fserial (f : Boot → Boot) : (s.onBoot f).fserial = s.fserial := rfl
@[simp] theorem State.onBoot_mon (f : Boot → Boot) : (s.onBoot f).mon = s.mon := rfl
@[simp] theorem State.onBoot_cross (f : Boot → Boot) : (s.onBoot f).cross = s.cross := rfl
@[simp] theorem State.onBoot_pwr (f : Boot → Boot) : (s.onBoot f).pwr = s.pwr := rfl
@[simp] theorem State.onBoot_wh (f : Boot → Boot) : (s.onBoot f).wh = s.wh := rfl
@[simp] theorem State.onBoot_boot (f : Boot → Boot) : (s.onBoot f).boot = f s.boot := rfl

@[simp] theorem State.onBeat_pending (f : Beat → Beat) : (s.onBeat f).pending = s.pending := rfl
@[simp] theorem State.onBeat_out (f : Beat → Beat) : (s.onBeat f).out = s.out := rfl
@[simp] theorem State.onBeat_free (f : Beat → Beat) : (s.onBeat f).free = s.free := rfl
@[simp] theorem State.onBeat_time (f : Beat → Beat) : (s.onBeat f).time = s.time := rfl
@[simp] theorem State.onBeat_hreg (f : Beat → Beat) : (s.onBeat f).hreg = s.hreg := rfl
@[simp] theorem State.onBeat_force (f : Beat → Beat) : (s.onBeat f).force = s.force := rfl
@[simp] theorem State.onBeat_mem (f : Beat → Beat) : (s.onBeat f).mem = s.mem := rfl
@[simp] theorem State.onBeat_eccUnc (f : Beat → Beat) : (s.onBeat f).eccUnc = s.eccUnc := rfl
@[simp] theorem State.onBeat_beat (f : Beat → Beat) : (s.onBeat f).beat = f s.beat := rfl
@[simp] theorem State.onBeat_clus (f : Beat → Beat) : (s.onBeat f).clus = s.clus := rfl
@[simp] theorem State.onBeat_cores (f : Beat → Beat) : (s.onBeat f).cores = s.cores := rfl
@[simp] theorem State.onBeat_cics (f : Beat → Beat) : (s.onBeat f).cics = s.cics := rfl
@[simp] theorem State.onBeat_dev (f : Beat → Beat) : (s.onBeat f).dev = s.dev := rfl
@[simp] theorem State.onBeat_ports (f : Beat → Beat) : (s.onBeat f).ports = s.ports := rfl
@[simp] theorem State.onBeat_abortPin (f : Beat → Beat) : (s.onBeat f).abortPin = s.abortPin := rfl
@[simp] theorem State.onBeat_str (f : Beat → Beat) : (s.onBeat f).str = s.str := rfl
@[simp] theorem State.onBeat_qeng (f : Beat → Beat) : (s.onBeat f).qeng = s.qeng := rfl
@[simp] theorem State.onBeat_red (f : Beat → Beat) : (s.onBeat f).red = s.red := rfl
@[simp] theorem State.onBeat_fab (f : Beat → Beat) : (s.onBeat f).fab = s.fab := rfl
@[simp] theorem State.onBeat_jrn (f : Beat → Beat) : (s.onBeat f).jrn = s.jrn := rfl
@[simp] theorem State.onBeat_kn (f : Beat → Beat) : (s.onBeat f).kn = s.kn := rfl
@[simp] theorem State.onBeat_host (f : Beat → Beat) : (s.onBeat f).host = s.host := rfl
@[simp] theorem State.onBeat_fserial (f : Beat → Beat) : (s.onBeat f).fserial = s.fserial := rfl
@[simp] theorem State.onBeat_mon (f : Beat → Beat) : (s.onBeat f).mon = s.mon := rfl
@[simp] theorem State.onBeat_cross (f : Beat → Beat) : (s.onBeat f).cross = s.cross := rfl
@[simp] theorem State.onBeat_pwr (f : Beat → Beat) : (s.onBeat f).pwr = s.pwr := rfl
@[simp] theorem State.onBeat_wh (f : Beat → Beat) : (s.onBeat f).wh = s.wh := rfl
@[simp] theorem State.onBeat_boot (f : Beat → Beat) : (s.onBeat f).boot = s.boot := rfl

@[simp] theorem State.onDev_pending (f : Dev → Dev) : (s.onDev f).pending = s.pending := rfl
@[simp] theorem State.onDev_out (f : Dev → Dev) : (s.onDev f).out = s.out := rfl
@[simp] theorem State.onDev_free (f : Dev → Dev) : (s.onDev f).free = s.free := rfl
@[simp] theorem State.onDev_time (f : Dev → Dev) : (s.onDev f).time = s.time := rfl
@[simp] theorem State.onDev_hreg (f : Dev → Dev) : (s.onDev f).hreg = s.hreg := rfl
@[simp] theorem State.onDev_force (f : Dev → Dev) : (s.onDev f).force = s.force := rfl
@[simp] theorem State.onDev_mem (f : Dev → Dev) : (s.onDev f).mem = s.mem := rfl
@[simp] theorem State.onDev_eccUnc (f : Dev → Dev) : (s.onDev f).eccUnc = s.eccUnc := rfl
@[simp] theorem State.onDev_beat (f : Dev → Dev) : (s.onDev f).beat = s.beat := rfl
@[simp] theorem State.onDev_clus (f : Dev → Dev) : (s.onDev f).clus = s.clus := rfl
@[simp] theorem State.onDev_cores (f : Dev → Dev) : (s.onDev f).cores = s.cores := rfl
@[simp] theorem State.onDev_cics (f : Dev → Dev) : (s.onDev f).cics = s.cics := rfl
@[simp] theorem State.onDev_dev (f : Dev → Dev) : (s.onDev f).dev = f s.dev := rfl
@[simp] theorem State.onDev_ports (f : Dev → Dev) : (s.onDev f).ports = s.ports := rfl
@[simp] theorem State.onDev_abortPin (f : Dev → Dev) : (s.onDev f).abortPin = s.abortPin := rfl
@[simp] theorem State.onDev_str (f : Dev → Dev) : (s.onDev f).str = s.str := rfl
@[simp] theorem State.onDev_qeng (f : Dev → Dev) : (s.onDev f).qeng = s.qeng := rfl
@[simp] theorem State.onDev_red (f : Dev → Dev) : (s.onDev f).red = s.red := rfl
@[simp] theorem State.onDev_fab (f : Dev → Dev) : (s.onDev f).fab = s.fab := rfl
@[simp] theorem State.onDev_jrn (f : Dev → Dev) : (s.onDev f).jrn = s.jrn := rfl
@[simp] theorem State.onDev_kn (f : Dev → Dev) : (s.onDev f).kn = s.kn := rfl
@[simp] theorem State.onDev_host (f : Dev → Dev) : (s.onDev f).host = s.host := rfl
@[simp] theorem State.onDev_fserial (f : Dev → Dev) : (s.onDev f).fserial = s.fserial := rfl
@[simp] theorem State.onDev_mon (f : Dev → Dev) : (s.onDev f).mon = s.mon := rfl
@[simp] theorem State.onDev_cross (f : Dev → Dev) : (s.onDev f).cross = s.cross := rfl
@[simp] theorem State.onDev_pwr (f : Dev → Dev) : (s.onDev f).pwr = s.pwr := rfl
@[simp] theorem State.onDev_wh (f : Dev → Dev) : (s.onDev f).wh = s.wh := rfl
@[simp] theorem State.onDev_boot (f : Dev → Dev) : (s.onDev f).boot = s.boot := rfl

@[simp] theorem State.onQEng_pending (f : QEngine → QEngine) : (s.onQEng f).pending = s.pending := rfl
@[simp] theorem State.onQEng_out (f : QEngine → QEngine) : (s.onQEng f).out = s.out := rfl
@[simp] theorem State.onQEng_free (f : QEngine → QEngine) : (s.onQEng f).free = s.free := rfl
@[simp] theorem State.onQEng_time (f : QEngine → QEngine) : (s.onQEng f).time = s.time := rfl
@[simp] theorem State.onQEng_hreg (f : QEngine → QEngine) : (s.onQEng f).hreg = s.hreg := rfl
@[simp] theorem State.onQEng_force (f : QEngine → QEngine) : (s.onQEng f).force = s.force := rfl
@[simp] theorem State.onQEng_mem (f : QEngine → QEngine) : (s.onQEng f).mem = s.mem := rfl
@[simp] theorem State.onQEng_eccUnc (f : QEngine → QEngine) : (s.onQEng f).eccUnc = s.eccUnc := rfl
@[simp] theorem State.onQEng_beat (f : QEngine → QEngine) : (s.onQEng f).beat = s.beat := rfl
@[simp] theorem State.onQEng_clus (f : QEngine → QEngine) : (s.onQEng f).clus = s.clus := rfl
@[simp] theorem State.onQEng_cores (f : QEngine → QEngine) : (s.onQEng f).cores = s.cores := rfl
@[simp] theorem State.onQEng_cics (f : QEngine → QEngine) : (s.onQEng f).cics = s.cics := rfl
@[simp] theorem State.onQEng_dev (f : QEngine → QEngine) : (s.onQEng f).dev = s.dev := rfl
@[simp] theorem State.onQEng_ports (f : QEngine → QEngine) : (s.onQEng f).ports = s.ports := rfl
@[simp] theorem State.onQEng_abortPin (f : QEngine → QEngine) : (s.onQEng f).abortPin = s.abortPin := rfl
@[simp] theorem State.onQEng_str (f : QEngine → QEngine) : (s.onQEng f).str = s.str := rfl
@[simp] theorem State.onQEng_qeng (f : QEngine → QEngine) : (s.onQEng f).qeng = f s.qeng := rfl
@[simp] theorem State.onQEng_red (f : QEngine → QEngine) : (s.onQEng f).red = s.red := rfl
@[simp] theorem State.onQEng_fab (f : QEngine → QEngine) : (s.onQEng f).fab = s.fab := rfl
@[simp] theorem State.onQEng_jrn (f : QEngine → QEngine) : (s.onQEng f).jrn = s.jrn := rfl
@[simp] theorem State.onQEng_kn (f : QEngine → QEngine) : (s.onQEng f).kn = s.kn := rfl
@[simp] theorem State.onQEng_host (f : QEngine → QEngine) : (s.onQEng f).host = s.host := rfl
@[simp] theorem State.onQEng_fserial (f : QEngine → QEngine) : (s.onQEng f).fserial = s.fserial := rfl
@[simp] theorem State.onQEng_mon (f : QEngine → QEngine) : (s.onQEng f).mon = s.mon := rfl
@[simp] theorem State.onQEng_cross (f : QEngine → QEngine) : (s.onQEng f).cross = s.cross := rfl
@[simp] theorem State.onQEng_pwr (f : QEngine → QEngine) : (s.onQEng f).pwr = s.pwr := rfl
@[simp] theorem State.onQEng_wh (f : QEngine → QEngine) : (s.onQEng f).wh = s.wh := rfl
@[simp] theorem State.onQEng_boot (f : QEngine → QEngine) : (s.onQEng f).boot = s.boot := rfl

@[simp] theorem State.setWord_pending (o : Nat) (v : Reg32) : (s.setWord o v).pending = s.pending := rfl
@[simp] theorem State.setWord_out (o : Nat) (v : Reg32) : (s.setWord o v).out = s.out := rfl
@[simp] theorem State.setWord_free (o : Nat) (v : Reg32) : (s.setWord o v).free = s.free := rfl
@[simp] theorem State.setWord_time (o : Nat) (v : Reg32) : (s.setWord o v).time = s.time := rfl
@[simp] theorem State.setWord_hreg (o : Nat) (v : Reg32) : (s.setWord o v).hreg = mset wordReset s.hreg o v := rfl
@[simp] theorem State.setWord_force (o : Nat) (v : Reg32) : (s.setWord o v).force = s.force := rfl
@[simp] theorem State.setWord_mem (o : Nat) (v : Reg32) : (s.setWord o v).mem = s.mem := rfl
@[simp] theorem State.setWord_eccUnc (o : Nat) (v : Reg32) : (s.setWord o v).eccUnc = s.eccUnc := rfl
@[simp] theorem State.setWord_beat (o : Nat) (v : Reg32) : (s.setWord o v).beat = s.beat := rfl
@[simp] theorem State.setWord_clus (o : Nat) (v : Reg32) : (s.setWord o v).clus = s.clus := rfl
@[simp] theorem State.setWord_cores (o : Nat) (v : Reg32) : (s.setWord o v).cores = s.cores := rfl
@[simp] theorem State.setWord_cics (o : Nat) (v : Reg32) : (s.setWord o v).cics = s.cics := rfl
@[simp] theorem State.setWord_dev (o : Nat) (v : Reg32) : (s.setWord o v).dev = s.dev := rfl
@[simp] theorem State.setWord_ports (o : Nat) (v : Reg32) : (s.setWord o v).ports = s.ports := rfl
@[simp] theorem State.setWord_abortPin (o : Nat) (v : Reg32) : (s.setWord o v).abortPin = s.abortPin := rfl
@[simp] theorem State.setWord_str (o : Nat) (v : Reg32) : (s.setWord o v).str = s.str := rfl
@[simp] theorem State.setWord_qeng (o : Nat) (v : Reg32) : (s.setWord o v).qeng = s.qeng := rfl
@[simp] theorem State.setWord_red (o : Nat) (v : Reg32) : (s.setWord o v).red = s.red := rfl
@[simp] theorem State.setWord_fab (o : Nat) (v : Reg32) : (s.setWord o v).fab = s.fab := rfl
@[simp] theorem State.setWord_jrn (o : Nat) (v : Reg32) : (s.setWord o v).jrn = s.jrn := rfl
@[simp] theorem State.setWord_kn (o : Nat) (v : Reg32) : (s.setWord o v).kn = s.kn := rfl
@[simp] theorem State.setWord_host (o : Nat) (v : Reg32) : (s.setWord o v).host = s.host := rfl
@[simp] theorem State.setWord_fserial (o : Nat) (v : Reg32) : (s.setWord o v).fserial = s.fserial := rfl
@[simp] theorem State.setWord_mon (o : Nat) (v : Reg32) : (s.setWord o v).mon = s.mon := rfl
@[simp] theorem State.setWord_cross (o : Nat) (v : Reg32) : (s.setWord o v).cross = s.cross := rfl
@[simp] theorem State.setWord_pwr (o : Nat) (v : Reg32) : (s.setWord o v).pwr = s.pwr := rfl
@[simp] theorem State.setWord_wh (o : Nat) (v : Reg32) : (s.setWord o v).wh = s.wh := rfl
@[simp] theorem State.setWord_boot (o : Nat) (v : Reg32) : (s.setWord o v).boot = s.boot := rfl

@[simp] theorem State.setForce_pending (o : Nat) (v : Reg32) : (s.setForce o v).pending = s.pending := rfl
@[simp] theorem State.setForce_out (o : Nat) (v : Reg32) : (s.setForce o v).out = s.out := rfl
@[simp] theorem State.setForce_free (o : Nat) (v : Reg32) : (s.setForce o v).free = s.free := rfl
@[simp] theorem State.setForce_time (o : Nat) (v : Reg32) : (s.setForce o v).time = s.time := rfl
@[simp] theorem State.setForce_hreg (o : Nat) (v : Reg32) : (s.setForce o v).hreg = s.hreg := rfl
@[simp] theorem State.setForce_force (o : Nat) (v : Reg32) : (s.setForce o v).force = mset wordReset s.force o v := rfl
@[simp] theorem State.setForce_mem (o : Nat) (v : Reg32) : (s.setForce o v).mem = s.mem := rfl
@[simp] theorem State.setForce_eccUnc (o : Nat) (v : Reg32) : (s.setForce o v).eccUnc = s.eccUnc := rfl
@[simp] theorem State.setForce_beat (o : Nat) (v : Reg32) : (s.setForce o v).beat = s.beat := rfl
@[simp] theorem State.setForce_clus (o : Nat) (v : Reg32) : (s.setForce o v).clus = s.clus := rfl
@[simp] theorem State.setForce_cores (o : Nat) (v : Reg32) : (s.setForce o v).cores = s.cores := rfl
@[simp] theorem State.setForce_cics (o : Nat) (v : Reg32) : (s.setForce o v).cics = s.cics := rfl
@[simp] theorem State.setForce_dev (o : Nat) (v : Reg32) : (s.setForce o v).dev = s.dev := rfl
@[simp] theorem State.setForce_ports (o : Nat) (v : Reg32) : (s.setForce o v).ports = s.ports := rfl
@[simp] theorem State.setForce_abortPin (o : Nat) (v : Reg32) : (s.setForce o v).abortPin = s.abortPin := rfl
@[simp] theorem State.setForce_str (o : Nat) (v : Reg32) : (s.setForce o v).str = s.str := rfl
@[simp] theorem State.setForce_qeng (o : Nat) (v : Reg32) : (s.setForce o v).qeng = s.qeng := rfl
@[simp] theorem State.setForce_red (o : Nat) (v : Reg32) : (s.setForce o v).red = s.red := rfl
@[simp] theorem State.setForce_fab (o : Nat) (v : Reg32) : (s.setForce o v).fab = s.fab := rfl
@[simp] theorem State.setForce_jrn (o : Nat) (v : Reg32) : (s.setForce o v).jrn = s.jrn := rfl
@[simp] theorem State.setForce_kn (o : Nat) (v : Reg32) : (s.setForce o v).kn = s.kn := rfl
@[simp] theorem State.setForce_host (o : Nat) (v : Reg32) : (s.setForce o v).host = s.host := rfl
@[simp] theorem State.setForce_fserial (o : Nat) (v : Reg32) : (s.setForce o v).fserial = s.fserial := rfl
@[simp] theorem State.setForce_mon (o : Nat) (v : Reg32) : (s.setForce o v).mon = s.mon := rfl
@[simp] theorem State.setForce_cross (o : Nat) (v : Reg32) : (s.setForce o v).cross = s.cross := rfl
@[simp] theorem State.setForce_pwr (o : Nat) (v : Reg32) : (s.setForce o v).pwr = s.pwr := rfl
@[simp] theorem State.setForce_wh (o : Nat) (v : Reg32) : (s.setForce o v).wh = s.wh := rfl
@[simp] theorem State.setForce_boot (o : Nat) (v : Reg32) : (s.setForce o v).boot = s.boot := rfl

@[simp] theorem State.setCore_pending (i : Nat) (c : Core) : (s.setCore i c).pending = s.pending := rfl
@[simp] theorem State.setCore_out (i : Nat) (c : Core) : (s.setCore i c).out = s.out := rfl
@[simp] theorem State.setCore_free (i : Nat) (c : Core) : (s.setCore i c).free = s.free := rfl
@[simp] theorem State.setCore_time (i : Nat) (c : Core) : (s.setCore i c).time = s.time := rfl
@[simp] theorem State.setCore_hreg (i : Nat) (c : Core) : (s.setCore i c).hreg = s.hreg := rfl
@[simp] theorem State.setCore_force (i : Nat) (c : Core) : (s.setCore i c).force = s.force := rfl
@[simp] theorem State.setCore_mem (i : Nat) (c : Core) : (s.setCore i c).mem = s.mem := rfl
@[simp] theorem State.setCore_eccUnc (i : Nat) (c : Core) : (s.setCore i c).eccUnc = s.eccUnc := rfl
@[simp] theorem State.setCore_beat (i : Nat) (c : Core) : (s.setCore i c).beat = s.beat := rfl
@[simp] theorem State.setCore_clus (i : Nat) (c : Core) : (s.setCore i c).clus = s.clus := rfl
@[simp] theorem State.setCore_cores (i : Nat) (c : Core) : (s.setCore i c).cores = mset Machine.coreReset s.cores i c := rfl
@[simp] theorem State.setCore_cics (i : Nat) (c : Core) : (s.setCore i c).cics = s.cics := rfl
@[simp] theorem State.setCore_dev (i : Nat) (c : Core) : (s.setCore i c).dev = s.dev := rfl
@[simp] theorem State.setCore_ports (i : Nat) (c : Core) : (s.setCore i c).ports = s.ports := rfl
@[simp] theorem State.setCore_abortPin (i : Nat) (c : Core) : (s.setCore i c).abortPin = s.abortPin := rfl
@[simp] theorem State.setCore_str (i : Nat) (c : Core) : (s.setCore i c).str = s.str := rfl
@[simp] theorem State.setCore_qeng (i : Nat) (c : Core) : (s.setCore i c).qeng = s.qeng := rfl
@[simp] theorem State.setCore_red (i : Nat) (c : Core) : (s.setCore i c).red = s.red := rfl
@[simp] theorem State.setCore_fab (i : Nat) (c : Core) : (s.setCore i c).fab = s.fab := rfl
@[simp] theorem State.setCore_jrn (i : Nat) (c : Core) : (s.setCore i c).jrn = s.jrn := rfl
@[simp] theorem State.setCore_kn (i : Nat) (c : Core) : (s.setCore i c).kn = s.kn := rfl
@[simp] theorem State.setCore_host (i : Nat) (c : Core) : (s.setCore i c).host = s.host := rfl
@[simp] theorem State.setCore_fserial (i : Nat) (c : Core) : (s.setCore i c).fserial = s.fserial := rfl
@[simp] theorem State.setCore_mon (i : Nat) (c : Core) : (s.setCore i c).mon = s.mon := rfl
@[simp] theorem State.setCore_cross (i : Nat) (c : Core) : (s.setCore i c).cross = s.cross := rfl
@[simp] theorem State.setCore_pwr (i : Nat) (c : Core) : (s.setCore i c).pwr = s.pwr := rfl
@[simp] theorem State.setCore_wh (i : Nat) (c : Core) : (s.setCore i c).wh = s.wh := rfl
@[simp] theorem State.setCore_boot (i : Nat) (c : Core) : (s.setCore i c).boot = s.boot := rfl

@[simp] theorem State.setCic_pending (i : Nat) (c : Cic) : (s.setCic i c).pending = s.pending := rfl
@[simp] theorem State.setCic_out (i : Nat) (c : Cic) : (s.setCic i c).out = s.out := rfl
@[simp] theorem State.setCic_free (i : Nat) (c : Cic) : (s.setCic i c).free = s.free := rfl
@[simp] theorem State.setCic_time (i : Nat) (c : Cic) : (s.setCic i c).time = s.time := rfl
@[simp] theorem State.setCic_hreg (i : Nat) (c : Cic) : (s.setCic i c).hreg = s.hreg := rfl
@[simp] theorem State.setCic_force (i : Nat) (c : Cic) : (s.setCic i c).force = s.force := rfl
@[simp] theorem State.setCic_mem (i : Nat) (c : Cic) : (s.setCic i c).mem = s.mem := rfl
@[simp] theorem State.setCic_eccUnc (i : Nat) (c : Cic) : (s.setCic i c).eccUnc = s.eccUnc := rfl
@[simp] theorem State.setCic_beat (i : Nat) (c : Cic) : (s.setCic i c).beat = s.beat := rfl
@[simp] theorem State.setCic_clus (i : Nat) (c : Cic) : (s.setCic i c).clus = s.clus := rfl
@[simp] theorem State.setCic_cores (i : Nat) (c : Cic) : (s.setCic i c).cores = s.cores := rfl
@[simp] theorem State.setCic_cics (i : Nat) (c : Cic) : (s.setCic i c).cics = mset (fun _ => {}) s.cics i c := rfl
@[simp] theorem State.setCic_dev (i : Nat) (c : Cic) : (s.setCic i c).dev = s.dev := rfl
@[simp] theorem State.setCic_ports (i : Nat) (c : Cic) : (s.setCic i c).ports = s.ports := rfl
@[simp] theorem State.setCic_abortPin (i : Nat) (c : Cic) : (s.setCic i c).abortPin = s.abortPin := rfl
@[simp] theorem State.setCic_str (i : Nat) (c : Cic) : (s.setCic i c).str = s.str := rfl
@[simp] theorem State.setCic_qeng (i : Nat) (c : Cic) : (s.setCic i c).qeng = s.qeng := rfl
@[simp] theorem State.setCic_red (i : Nat) (c : Cic) : (s.setCic i c).red = s.red := rfl
@[simp] theorem State.setCic_fab (i : Nat) (c : Cic) : (s.setCic i c).fab = s.fab := rfl
@[simp] theorem State.setCic_jrn (i : Nat) (c : Cic) : (s.setCic i c).jrn = s.jrn := rfl
@[simp] theorem State.setCic_kn (i : Nat) (c : Cic) : (s.setCic i c).kn = s.kn := rfl
@[simp] theorem State.setCic_host (i : Nat) (c : Cic) : (s.setCic i c).host = s.host := rfl
@[simp] theorem State.setCic_fserial (i : Nat) (c : Cic) : (s.setCic i c).fserial = s.fserial := rfl
@[simp] theorem State.setCic_mon (i : Nat) (c : Cic) : (s.setCic i c).mon = s.mon := rfl
@[simp] theorem State.setCic_cross (i : Nat) (c : Cic) : (s.setCic i c).cross = s.cross := rfl
@[simp] theorem State.setCic_pwr (i : Nat) (c : Cic) : (s.setCic i c).pwr = s.pwr := rfl
@[simp] theorem State.setCic_wh (i : Nat) (c : Cic) : (s.setCic i c).wh = s.wh := rfl
@[simp] theorem State.setCic_boot (i : Nat) (c : Cic) : (s.setCic i c).boot = s.boot := rfl

@[simp] theorem State.setClu_pending (i : Nat) (c : Cluster) : (s.setClu i c).pending = s.pending := rfl
@[simp] theorem State.setClu_out (i : Nat) (c : Cluster) : (s.setClu i c).out = s.out := rfl
@[simp] theorem State.setClu_free (i : Nat) (c : Cluster) : (s.setClu i c).free = s.free := rfl
@[simp] theorem State.setClu_time (i : Nat) (c : Cluster) : (s.setClu i c).time = s.time := rfl
@[simp] theorem State.setClu_hreg (i : Nat) (c : Cluster) : (s.setClu i c).hreg = s.hreg := rfl
@[simp] theorem State.setClu_force (i : Nat) (c : Cluster) : (s.setClu i c).force = s.force := rfl
@[simp] theorem State.setClu_mem (i : Nat) (c : Cluster) : (s.setClu i c).mem = s.mem := rfl
@[simp] theorem State.setClu_eccUnc (i : Nat) (c : Cluster) : (s.setClu i c).eccUnc = s.eccUnc := rfl
@[simp] theorem State.setClu_beat (i : Nat) (c : Cluster) : (s.setClu i c).beat = s.beat := rfl
@[simp] theorem State.setClu_clus (i : Nat) (c : Cluster) : (s.setClu i c).clus = mset (fun _ => {}) s.clus i c := rfl
@[simp] theorem State.setClu_cores (i : Nat) (c : Cluster) : (s.setClu i c).cores = s.cores := rfl
@[simp] theorem State.setClu_cics (i : Nat) (c : Cluster) : (s.setClu i c).cics = s.cics := rfl
@[simp] theorem State.setClu_dev (i : Nat) (c : Cluster) : (s.setClu i c).dev = s.dev := rfl
@[simp] theorem State.setClu_ports (i : Nat) (c : Cluster) : (s.setClu i c).ports = s.ports := rfl
@[simp] theorem State.setClu_abortPin (i : Nat) (c : Cluster) : (s.setClu i c).abortPin = s.abortPin := rfl
@[simp] theorem State.setClu_str (i : Nat) (c : Cluster) : (s.setClu i c).str = s.str := rfl
@[simp] theorem State.setClu_qeng (i : Nat) (c : Cluster) : (s.setClu i c).qeng = s.qeng := rfl
@[simp] theorem State.setClu_red (i : Nat) (c : Cluster) : (s.setClu i c).red = s.red := rfl
@[simp] theorem State.setClu_fab (i : Nat) (c : Cluster) : (s.setClu i c).fab = s.fab := rfl
@[simp] theorem State.setClu_jrn (i : Nat) (c : Cluster) : (s.setClu i c).jrn = s.jrn := rfl
@[simp] theorem State.setClu_kn (i : Nat) (c : Cluster) : (s.setClu i c).kn = s.kn := rfl
@[simp] theorem State.setClu_host (i : Nat) (c : Cluster) : (s.setClu i c).host = s.host := rfl
@[simp] theorem State.setClu_fserial (i : Nat) (c : Cluster) : (s.setClu i c).fserial = s.fserial := rfl
@[simp] theorem State.setClu_mon (i : Nat) (c : Cluster) : (s.setClu i c).mon = s.mon := rfl
@[simp] theorem State.setClu_cross (i : Nat) (c : Cluster) : (s.setClu i c).cross = s.cross := rfl
@[simp] theorem State.setClu_pwr (i : Nat) (c : Cluster) : (s.setClu i c).pwr = s.pwr := rfl
@[simp] theorem State.setClu_wh (i : Nat) (c : Cluster) : (s.setClu i c).wh = s.wh := rfl
@[simp] theorem State.setClu_boot (i : Nat) (c : Cluster) : (s.setClu i c).boot = s.boot := rfl

@[simp] theorem State.setQueue_pending (i : Nat) (c : Queue) : (s.setQueue i c).pending = s.pending := rfl
@[simp] theorem State.setQueue_out (i : Nat) (c : Queue) : (s.setQueue i c).out = s.out := rfl
@[simp] theorem State.setQueue_free (i : Nat) (c : Queue) : (s.setQueue i c).free = s.free := rfl
@[simp] theorem State.setQueue_time (i : Nat) (c : Queue) : (s.setQueue i c).time = s.time := rfl
@[simp] theorem State.setQueue_hreg (i : Nat) (c : Queue) : (s.setQueue i c).hreg = s.hreg := rfl
@[simp] theorem State.setQueue_force (i : Nat) (c : Queue) : (s.setQueue i c).force = s.force := rfl
@[simp] theorem State.setQueue_mem (i : Nat) (c : Queue) : (s.setQueue i c).mem = s.mem := rfl
@[simp] theorem State.setQueue_eccUnc (i : Nat) (c : Queue) : (s.setQueue i c).eccUnc = s.eccUnc := rfl
@[simp] theorem State.setQueue_beat (i : Nat) (c : Queue) : (s.setQueue i c).beat = s.beat := rfl
@[simp] theorem State.setQueue_clus (i : Nat) (c : Queue) : (s.setQueue i c).clus = s.clus := rfl
@[simp] theorem State.setQueue_cores (i : Nat) (c : Queue) : (s.setQueue i c).cores = s.cores := rfl
@[simp] theorem State.setQueue_cics (i : Nat) (c : Queue) : (s.setQueue i c).cics = s.cics := rfl
@[simp] theorem State.setQueue_dev (i : Nat) (c : Queue) : (s.setQueue i c).dev = s.dev := rfl
@[simp] theorem State.setQueue_ports (i : Nat) (c : Queue) : (s.setQueue i c).ports = s.ports := rfl
@[simp] theorem State.setQueue_abortPin (i : Nat) (c : Queue) : (s.setQueue i c).abortPin = s.abortPin := rfl
@[simp] theorem State.setQueue_str (i : Nat) (c : Queue) : (s.setQueue i c).str = s.str := rfl
@[simp] theorem State.setQueue_qeng (i : Nat) (c : Queue) : (s.setQueue i c).qeng = { s.qeng with qs := mset queueReset s.qeng.qs i c } := rfl
@[simp] theorem State.setQueue_red (i : Nat) (c : Queue) : (s.setQueue i c).red = s.red := rfl
@[simp] theorem State.setQueue_fab (i : Nat) (c : Queue) : (s.setQueue i c).fab = s.fab := rfl
@[simp] theorem State.setQueue_jrn (i : Nat) (c : Queue) : (s.setQueue i c).jrn = s.jrn := rfl
@[simp] theorem State.setQueue_kn (i : Nat) (c : Queue) : (s.setQueue i c).kn = s.kn := rfl
@[simp] theorem State.setQueue_host (i : Nat) (c : Queue) : (s.setQueue i c).host = s.host := rfl
@[simp] theorem State.setQueue_fserial (i : Nat) (c : Queue) : (s.setQueue i c).fserial = s.fserial := rfl
@[simp] theorem State.setQueue_mon (i : Nat) (c : Queue) : (s.setQueue i c).mon = s.mon := rfl
@[simp] theorem State.setQueue_cross (i : Nat) (c : Queue) : (s.setQueue i c).cross = s.cross := rfl
@[simp] theorem State.setQueue_pwr (i : Nat) (c : Queue) : (s.setQueue i c).pwr = s.pwr := rfl
@[simp] theorem State.setQueue_wh (i : Nat) (c : Queue) : (s.setQueue i c).wh = s.wh := rfl
@[simp] theorem State.setQueue_boot (i : Nat) (c : Queue) : (s.setQueue i c).boot = s.boot := rfl

@[simp] theorem State.setGrain_pending (k : Nat) (v : Grain) : (s.setGrain k v).pending = s.pending := rfl
@[simp] theorem State.setGrain_out (k : Nat) (v : Grain) : (s.setGrain k v).out = s.out := rfl
@[simp] theorem State.setGrain_free (k : Nat) (v : Grain) : (s.setGrain k v).free = s.free := rfl
@[simp] theorem State.setGrain_time (k : Nat) (v : Grain) : (s.setGrain k v).time = s.time := rfl
@[simp] theorem State.setGrain_hreg (k : Nat) (v : Grain) : (s.setGrain k v).hreg = s.hreg := rfl
@[simp] theorem State.setGrain_force (k : Nat) (v : Grain) : (s.setGrain k v).force = s.force := rfl
@[simp] theorem State.setGrain_mem (k : Nat) (v : Grain) : (s.setGrain k v).mem = mset (fun _ => 0) s.mem k v := rfl
@[simp] theorem State.setGrain_eccUnc (k : Nat) (v : Grain) : (s.setGrain k v).eccUnc = s.eccUnc := rfl
@[simp] theorem State.setGrain_beat (k : Nat) (v : Grain) : (s.setGrain k v).beat = s.beat := rfl
@[simp] theorem State.setGrain_clus (k : Nat) (v : Grain) : (s.setGrain k v).clus = s.clus := rfl
@[simp] theorem State.setGrain_cores (k : Nat) (v : Grain) : (s.setGrain k v).cores = s.cores := rfl
@[simp] theorem State.setGrain_cics (k : Nat) (v : Grain) : (s.setGrain k v).cics = s.cics := rfl
@[simp] theorem State.setGrain_dev (k : Nat) (v : Grain) : (s.setGrain k v).dev = s.dev := rfl
@[simp] theorem State.setGrain_ports (k : Nat) (v : Grain) : (s.setGrain k v).ports = s.ports := rfl
@[simp] theorem State.setGrain_abortPin (k : Nat) (v : Grain) : (s.setGrain k v).abortPin = s.abortPin := rfl
@[simp] theorem State.setGrain_str (k : Nat) (v : Grain) : (s.setGrain k v).str = s.str := rfl
@[simp] theorem State.setGrain_qeng (k : Nat) (v : Grain) : (s.setGrain k v).qeng = s.qeng := rfl
@[simp] theorem State.setGrain_red (k : Nat) (v : Grain) : (s.setGrain k v).red = s.red := rfl
@[simp] theorem State.setGrain_fab (k : Nat) (v : Grain) : (s.setGrain k v).fab = s.fab := rfl
@[simp] theorem State.setGrain_jrn (k : Nat) (v : Grain) : (s.setGrain k v).jrn = s.jrn := rfl
@[simp] theorem State.setGrain_kn (k : Nat) (v : Grain) : (s.setGrain k v).kn = s.kn := rfl
@[simp] theorem State.setGrain_host (k : Nat) (v : Grain) : (s.setGrain k v).host = s.host := rfl
@[simp] theorem State.setGrain_fserial (k : Nat) (v : Grain) : (s.setGrain k v).fserial = s.fserial := rfl
@[simp] theorem State.setGrain_mon (k : Nat) (v : Grain) : (s.setGrain k v).mon = s.mon := rfl
@[simp] theorem State.setGrain_cross (k : Nat) (v : Grain) : (s.setGrain k v).cross = s.cross := rfl
@[simp] theorem State.setGrain_pwr (k : Nat) (v : Grain) : (s.setGrain k v).pwr = s.pwr := rfl
@[simp] theorem State.setGrain_wh (k : Nat) (v : Grain) : (s.setGrain k v).wh = s.wh := rfl
@[simp] theorem State.setGrain_boot (k : Nat) (v : Grain) : (s.setGrain k v).boot = s.boot := rfl

@[simp] theorem State.freeNext_pending : (s.freeNext).pending = s.pending := rfl
@[simp] theorem State.freeNext_out : (s.freeNext).out = s.out := rfl
@[simp] theorem State.freeNext_free : (s.freeNext).free = s.free + 1 := rfl
@[simp] theorem State.freeNext_time : (s.freeNext).time = s.time := rfl
@[simp] theorem State.freeNext_hreg : (s.freeNext).hreg = s.hreg := rfl
@[simp] theorem State.freeNext_force : (s.freeNext).force = s.force := rfl
@[simp] theorem State.freeNext_mem : (s.freeNext).mem = s.mem := rfl
@[simp] theorem State.freeNext_eccUnc : (s.freeNext).eccUnc = s.eccUnc := rfl
@[simp] theorem State.freeNext_beat : (s.freeNext).beat = s.beat := rfl
@[simp] theorem State.freeNext_clus : (s.freeNext).clus = s.clus := rfl
@[simp] theorem State.freeNext_cores : (s.freeNext).cores = s.cores := rfl
@[simp] theorem State.freeNext_cics : (s.freeNext).cics = s.cics := rfl
@[simp] theorem State.freeNext_dev : (s.freeNext).dev = s.dev := rfl
@[simp] theorem State.freeNext_ports : (s.freeNext).ports = s.ports := rfl
@[simp] theorem State.freeNext_abortPin : (s.freeNext).abortPin = s.abortPin := rfl
@[simp] theorem State.freeNext_str : (s.freeNext).str = s.str := rfl
@[simp] theorem State.freeNext_qeng : (s.freeNext).qeng = s.qeng := rfl
@[simp] theorem State.freeNext_red : (s.freeNext).red = s.red := rfl
@[simp] theorem State.freeNext_fab : (s.freeNext).fab = s.fab := rfl
@[simp] theorem State.freeNext_jrn : (s.freeNext).jrn = s.jrn := rfl
@[simp] theorem State.freeNext_kn : (s.freeNext).kn = s.kn := rfl
@[simp] theorem State.freeNext_host : (s.freeNext).host = s.host := rfl
@[simp] theorem State.freeNext_fserial : (s.freeNext).fserial = s.fserial := rfl
@[simp] theorem State.freeNext_mon : (s.freeNext).mon = s.mon := rfl
@[simp] theorem State.freeNext_cross : (s.freeNext).cross = s.cross := rfl
@[simp] theorem State.freeNext_pwr : (s.freeNext).pwr = s.pwr := rfl
@[simp] theorem State.freeNext_wh : (s.freeNext).wh = s.wh := rfl
@[simp] theorem State.freeNext_boot : (s.freeNext).boot = s.boot := rfl

/-! ### What reads see after a write -/

theorem State.core_setCore (i j : Nat) (c : Core) : (s.setCore i c).core j = if j = i then c else s.core j :=
  mget_mset Machine.coreReset s.cores i j c

@[simp] theorem State.core_setCore_self (i : Nat) (c : Core) : (s.setCore i c).core i = c := by simp [State.core_setCore]

theorem State.cic_setCic (i j : Nat) (x : Cic) : (s.setCic i x).cic j = if j = i then x else s.cic j :=
  mget_mset (fun _ => ({} : Cic)) s.cics i j x

@[simp] theorem State.cic_setCic_self (i : Nat) (x : Cic) : (s.setCic i x).cic i = x := by simp [State.cic_setCic]

theorem State.clu_setClu (i j : Nat) (x : Cluster) : (s.setClu i x).clu j = if j = i then x else s.clu j :=
  mget_mset (fun _ => ({} : Cluster)) s.clus i j x

theorem State.queue_setQueue (i j : Nat) (x : Queue) : (s.setQueue i x).queue j = if j = i then x else s.queue j :=
  mget_mset queueReset s.qeng.qs i j x

@[simp] theorem State.queue_setQueue_self (i : Nat) (x : Queue) : (s.setQueue i x).queue i = x := by
  simp [State.queue_setQueue]

theorem State.word_setWord (o p : Nat) (v : Reg32) : (s.setWord o v).word p = if p = o then v else s.word p :=
  mget_mset wordReset s.hreg o p v

@[simp] theorem State.word_setWord_self (o : Nat) (v : Reg32) : (s.setWord o v).word o = v := by simp [State.word_setWord]

theorem State.grain_setGrain (j k : Nat) (v : Grain) : (s.setGrain k v).grain j = if j = k then v else s.grain j :=
  mget_mset (fun _ => 0) s.mem k j v

/-- Writing a grain keeps memory's canonical form. -/
theorem Memory.wf_setGrain (k : Nat) (v : Grain) (h : Memory.wf s.mem = true) : Memory.wf (s.setGrain k v).mem = true :=
  mapWf_mset (fun _ => 0) s.mem k v h

/-- Writing a long keeps memory's canonical form. -/
theorem Memory.wf_setLong (k : Nat) (v : Long) (h : Memory.wf s.mem = true) : Memory.wf (s.setLong k v).mem = true := by
  unfold State.setLong
  split <;> exact Memory.wf_setGrain _ _ _ (Memory.wf_setGrain _ _ _ h)

/-- Every other grain reads as before a long is written; the two written read as its halves. -/
theorem State.grain_setLong (j k : Nat) (v : Long) :
    (s.setLong k v).grain j =
      if j = k + 1 then (v >>> 20).setWidth 20 else if j = k then v.setWidth 20 else s.grain j := by
  have : (s.setLong k v).grain j = ((s.setGrain k (v.setWidth 20)).setGrain (k + 1) ((v >>> 20).setWidth 20)).grain j := by
    unfold State.setLong
    split <;> rfl
  rw [this, State.grain_setGrain, State.grain_setGrain]

theorem Memory.wf_reset : Memory.wf State.reset.mem = true := rfl

end Sys2Proof.Machine
end

