-- ==== Sys2Proof/Laws/Settle.lean ====
section
/-! SUPPORT. What settle, with which every command ends, does: the device sources' levels follow their lines, every CIC's
offers are those of R254 and R255, and nothing else changes. -/

namespace Sys2Proof.Machine

open Sys2Proof

variable (s : State)

@[simp] theorem State.settle_pending : s.settle.pending = s.pending := rfl
@[simp] theorem State.settle_out : s.settle.out = s.out := rfl
@[simp] theorem State.settle_free : s.settle.free = s.free := rfl
@[simp] theorem State.settle_time : s.settle.time = s.time := rfl
@[simp] theorem State.settle_hreg : s.settle.hreg = s.hreg := rfl
@[simp] theorem State.settle_force : s.settle.force = s.force := rfl
@[simp] theorem State.settle_mem : s.settle.mem = s.mem := rfl
@[simp] theorem State.settle_eccUnc : s.settle.eccUnc = s.eccUnc := rfl
@[simp] theorem State.settle_beat : s.settle.beat = s.beat := rfl
@[simp] theorem State.settle_clus : s.settle.clus = s.clus := rfl
@[simp] theorem State.settle_cores : s.settle.cores = s.cores := rfl
@[simp] theorem State.settle_ports : s.settle.ports = s.ports := rfl
@[simp] theorem State.settle_abortPin : s.settle.abortPin = s.abortPin := rfl
@[simp] theorem State.settle_str : s.settle.str = s.str := rfl
@[simp] theorem State.settle_qeng : s.settle.qeng = s.qeng := rfl
@[simp] theorem State.settle_red : s.settle.red = s.red := rfl
@[simp] theorem State.settle_fab : s.settle.fab = s.fab := rfl
@[simp] theorem State.settle_jrn : s.settle.jrn = s.jrn := rfl
@[simp] theorem State.settle_kn : s.settle.kn = s.kn := rfl
@[simp] theorem State.settle_host : s.settle.host = s.host := rfl
@[simp] theorem State.settle_fserial : s.settle.fserial = s.fserial := rfl
@[simp] theorem State.settle_mon : s.settle.mon = s.mon := rfl
@[simp] theorem State.settle_cross : s.settle.cross = s.cross := rfl
@[simp] theorem State.settle_pwr : s.settle.pwr = s.pwr := rfl
@[simp] theorem State.settle_wh : s.settle.wh = s.wh := rfl
@[simp] theorem State.settle_boot : s.settle.boot = s.boot := rfl

@[simp] theorem State.settle_core (i : Nat) : s.settle.core i = s.core i := rfl
@[simp] theorem State.settle_word (o : Nat) : s.settle.word o = s.word o := rfl
@[simp] theorem State.settle_rd (f : Fld) : s.settle.rd f = s.rd f := rfl
@[simp] theorem State.settle_bit (f : Fld) : s.settle.bit f = s.bit f := rfl
@[simp] theorem State.settle_queue (q : Nat) : s.settle.queue q = s.queue q := rfl
@[simp] theorem State.settle_clu (c : Nat) : s.settle.clu c = s.clu c := rfl
@[simp] theorem State.settle_grain (k : Nat) : s.settle.grain k = s.grain k := rfl
@[simp] theorem State.settle_domOn (d : Nat) : s.settle.domOn d = s.domOn d := rfl
@[simp] theorem State.settle_line (d : Nat) : s.settle.line d = s.line d := by
  unfold State.line State.evtLine State.doorbell State.bit
  simp only [State.settle_hreg, State.settle_rd, State.settle_core]
@[simp] theorem State.settle_lines : s.settle.lines = s.lines := by
  unfold State.lines; simp only [State.settle_line]
@[simp] theorem State.settle_level : s.settle.dev.level = s.lines := by
  simp only [State.settle, State.offerAll, State.sense, State.onDev_dev]
@[simp] theorem State.settle_msixEn : s.settle.dev.msixEn = s.dev.msixEn := rfl
@[simp] theorem State.settle_msixFmask : s.settle.dev.msixFmask = s.dev.msixFmask := rfl
@[simp] theorem State.settle_wakeTs : s.settle.dev.wakeTs = s.dev.wakeTs := rfl

theorem lookup_map {α : Type} (f : Nat → α → α) (m : SMap α) (c : Nat) :
    lookup (m.map (fun e => (e.1, f e.1 e.2))) c = (lookup m c).map (f c) := by
  induction m with
  | nil => rfl
  | cons e r ih =>
    obtain ⟨k, v⟩ := e
    simp only [List.map_cons, lookup]
    split
    · next h => subst h; rfl
    · exact ih

/-- A CIC with nothing pending offers nothing. -/
theorem State.offersOf_none (c : Nat) (h : lookup s.cics c = none) : s.offersOf c = [] := by
  unfold State.offersOf
  have : s.cic c = {} := by simp [State.cic, mget, h]
  simp [this]

/-- Settling replaces a CIC's offers and nothing else of it. -/
theorem State.settle_cic (c : Nat) : s.settle.cic c = { s.cic c with offers := s.offersOf c } := by
  show mget _ (s.cics.map (fun e => (e.1, { e.2 with offers := s.sense.offersOf e.1 }))) c = _
  have := lookup_map (fun k (x : Cic) => { x with offers := s.sense.offersOf k }) s.cics c
  unfold mget
  rw [this]
  show _ = { mget _ s.cics c with offers := s.offersOf c }
  cases h : lookup s.cics c with
  | none => simp [mget, h, s.offersOf_none c h]
  | some x => simp [mget, h]; rfl

/-- Settling leaves deliverability alone. -/
theorem State.settle_deliverable (c src k : Nat) : s.settle.deliverable c src k = s.deliverable c src k := by
  unfold State.deliverable
  rw [State.settle_cic]
  rfl

theorem lookup_of_nodup {α : Type} (m : SMap α) (k : Nat) (v : α) (h : (m.map (·.1)).Nodup) (hm : (k, v) ∈ m) :
    lookup m k = some v := by
  induction m with
  | nil => cases hm
  | cons e r ih =>
    obtain ⟨k', v'⟩ := e
    simp only [List.map_cons, List.nodup_cons] at h
    simp only [lookup]
    rcases List.mem_cons.mp hm with h1 | h1
    · cases h1; simp
    · split
      · next hk =>
        subst hk
        exact absurd (List.mem_map.mpr ⟨(k, v), h1, rfl⟩) h.1
      · exact ih h.2 h1

/-- What CIC c offers: a deliverable source goes to the core offerFor names, while the CIC's domain is on. -/
theorem State.mem_offersOf (c src k : Nat) :
    (src, k) ∈ s.offersOf c ↔ s.domOn (domCic c) = true ∧ src < 256 ∧ s.offerFor c src = some k := by
  unfold State.offersOf
  split
  · next h =>
    simp only [List.not_mem_nil, false_iff, not_and]
    intro hd _ hk
    have hp : (s.cic c).pend = 0 := by simpa [hd] using h
    have hn : ∀ j, s.deliverable c src j = false := by intro j; simp [State.deliverable, hp]
    have hf : ∀ l : List Nat, l.find? (fun j => s.deliverable c src j) = none := by
      intro l; simp [List.find?_eq_none, hn]
    unfold State.offerFor at hk
    dsimp only at hk
    split at hk
    · rw [hf] at hk; simp [hn] at hk
    · rw [hf] at hk; cases hk
  · next h =>
    simp only [List.mem_filterMap, List.mem_range, Option.map_eq_some_iff, Prod.mk.injEq]
    constructor
    · rintro ⟨a, ha, b, hb, rfl, rfl⟩
      exact ⟨(by simpa using h : _ ∧ _).2, ha, hb⟩
    · rintro ⟨_, ha, hb⟩
      exact ⟨src, ha, k, hb, rfl, rfl⟩

/-- A source is offered only where it is deliverable. -/
theorem State.offerFor_deliverable (c src k : Nat) (h : s.offerFor c src = some k) : s.deliverable c src k = true := by
  unfold State.offerFor at h
  dsimp only at h
  split at h
  · split at h
    · cases h; assumption
    · have := List.find?_some h; simpa using this
  · have := List.find?_some h; simpa using this

/-- Targets are cores 0 to 15, and sources 0 to 255. -/
theorem State.deliverable_lt (c src k : Nat) (h : s.deliverable c src k = true) : src < 256 ∧ k < 16 := by
  unfold State.deliverable at h
  simp only [Bool.and_eq_true] at h
  exact ⟨BitVec.lt_of_getLsbD h.1.1.1.1.1.1, BitVec.lt_of_getLsbD h.1.1.1.2⟩

theorem mem_coresAfter (k j : Nat) (h : j < 16) : j ∈ coresAfter k := by
  unfold coresAfter
  simp only [List.mem_map, List.mem_range]
  exact ⟨(j + 16 * (k + 1) - (k + 1)) % 16, by omega, by omega⟩

/-- A source deliverable somewhere is offered to some core. -/
theorem State.offerFor_some (c src k : Nat) (h : s.deliverable c src k = true) : ∃ j, s.offerFor c src = some j := by
  have hl := s.deliverable_lt c src k h
  have hf : ∀ n, ∃ j, (coresAfter n).find? (fun j => s.deliverable c src j) = some j := by
    intro n
    cases hx : (coresAfter n).find? (fun j => s.deliverable c src j) with
    | some j => exact ⟨j, rfl⟩
    | none =>
      rw [List.find?_eq_none] at hx
      exact absurd h (by simpa using hx k (mem_coresAfter n k hl.2))
  unfold State.offerFor
  dsimp only
  split
  · split
    · exact ⟨_, rfl⟩
    · exact hf _
  · exact hf _

@[simp] theorem done_eq : done s = .next s.settle := rfl

theorem doneIf_true (ok : Bool) (h : ok = true) : doneIf ok s = .next s.settle := by simp [doneIf, h]

/-- Whatever a command ends with is a settled state. -/
theorem doneIf_next (ok : Bool) (t : State) (h : doneIf ok s = .next t) : t = s.settle := by
  unfold doneIf at h
  split at h
  · simpa using h.symm
  · cases h

end Sys2Proof.Machine
end

