-- ==== Sys2Proof/Laws/Total.lean ====
section
/-! SUPPORT. How every command ends: in a settled next state, or, its operands being ill-formed, in the fault illFormed. -/

namespace Sys2Proof.Machine

open Sys2Proof

theorem settles_done (s : State) : Settles (done s) := Or.inr ⟨s, rfl⟩

theorem settles_doneIf (ok : Bool) (s : State) : Settles (doneIf ok s) := by
  unfold doneIf
  split
  · exact Or.inr ⟨s, rfl⟩
  · exact Or.inl rfl

theorem settles_fault : Settles (.fault .illFormed) := Or.inl rfl

theorem settles_ite (p : Prop) [Decidable p] (a b : Host.Outcome State Fault Refusal) (ha : Settles a) (hb : Settles b) :
    Settles (if p then a else b) := by split <;> assumption

theorem settles_exceptionEntry (x : CoreSel) (e : EntryEvent) (s : State) : Settles (exec (.exceptionEntry x e) s) := by
  cases e
  · exact settles_done _
  · exact settles_ite _ _ _ settles_fault (settles_done _)

/-- Every command ends so. -/
theorem exec_settles (c : Instr) (s : State) : Settles (exec c s) := by
  cases c <;> first
    | exact settles_done _
    | exact settles_exceptionEntry _ _ _
    | exact settles_doneIf _ _
    | exact settles_ite _ _ _ (settles_done _) settles_fault
    | exact settles_ite _ _ _ (settles_doneIf _ _) settles_fault
    | exact settles_ite _ _ _ settles_fault (settles_done _)

end Sys2Proof.Machine
end

