-- ==== Sys2Proof/Laws/Core.lean ====
section
/-! SUPPORT. A core's registers after a write, what retiring an instruction leaves alone, and the one lemma for every
instruction that computes on registers. -/

namespace Sys2Proof.Machine

open Sys2Proof

/-! ### Registers, predicates, accumulators, status bits -/

theorem Core.gr_zero (c : Core) : c.gr 0 = 0 := rfl

/-- One bit of a word set or cleared. -/
theorem getLsbD_bitPut {n : Nat} (w : BitVec n) (k j : Nat) (b : Bool) (hk : k < n) :
    (if b = true then w ||| (1#n <<< k) else w &&& ~~~(1#n <<< k)).getLsbD j = if j = k then b else w.getLsbD j := by
  by_cases hn : j < n
  · have h1 : (1#n <<< k).getLsbD j = decide (j = k) := by
      simp only [BitVec.getLsbD_shiftLeft, hn, BitVec.getLsbD_one, decide_true, Bool.true_and]
      by_cases hlt : j < k
      · simp [hlt]; omega
      · by_cases hj : j = k
        · subst hj; simp; omega
        · simp [hlt, hj]; omega
    cases b
    · simp only [Bool.false_eq_true, if_false, BitVec.getLsbD_and, BitVec.getLsbD_not, h1, hn]
      by_cases hj : j = k <;> simp [hj]
    · simp only [if_true, BitVec.getLsbD_or, h1]
      by_cases hj : j = k <;> simp [hj]
  · have hj : j ≠ k := by omega
    rw [if_neg hj, BitVec.getLsbD_of_ge _ j (by omega), BitVec.getLsbD_of_ge _ j (by omega)]

theorem Core.gr_putG (c : Core) (d r : GReg) (v : Long) :
    (c.putG d v).gr r = if r = 0 then 0 else if r = d then v else c.gr r := by
  unfold Core.gr Core.putG
  by_cases h0 : r = 0
  · simp only [h0, if_true]
  · simp only [if_neg h0]
    by_cases hd : d = 0
    · rw [if_pos hd, if_neg (by rw [hd]; exact h0)]
    · have : r.toNat = d.toNat ↔ r = d := ⟨fun h => BitVec.eq_of_toNat_eq h, fun h => by rw [h]⟩
      simp only [if_neg hd, mget_mset, this]

theorem Core.gr_setG (c : Core) (d r : GReg) (v : Long) :
    (c.setG d v).gr r = if r = 0 then 0 else if r = d then v else c.gr r := Core.gr_putG (c.dropPending d) d r v

/-- Writing a register changes the register file alone where no side-unit operation is pending. -/
theorem Core.setG_eq (c : Core) (d : GReg) (v : Long) (h : c.side = []) :
    c.setG d v = { c with g := (c.setG d v).g } := by
  have : c.dropPending d = c := by
    unfold Core.dropPending
    rw [h]
    cases c
    simp_all
  unfold Core.setG
  rw [this]
  unfold Core.putG
  split <;> rfl

theorem Core.p_zero (c : Core) : c.p 0 = true := rfl

theorem Core.p_setP (c : Core) (k j : BitVec 3) (b : Bool) :
    (c.setP k b).p j = if j = 0 then true else if j = k then b else c.p j := by
  unfold Core.p Core.setP
  by_cases h0 : j = 0
  · simp only [h0, if_true, BEq.rfl, Bool.true_or]
  · have hb : (j == 0) = false := by simpa using h0
    by_cases hk : k = 0
    · rw [if_pos hk, if_neg h0, if_neg (by rw [hk]; exact h0)]
    · have : j.toNat = k.toNat ↔ j = k := ⟨fun h => BitVec.eq_of_toNat_eq h, fun h => by rw [h]⟩
      simp only [if_neg hk, if_neg h0, hb, Bool.false_or, getLsbD_bitPut c.pred k.toNat j.toNat b k.isLt, this]

theorem Core.setP_eq (c : Core) (k : BitVec 3) (b : Bool) : c.setP k b = { c with pred := (c.setP k b).pred } := by
  unfold Core.setP
  split
  · rfl
  · cases b <;> rfl

theorem Core.ac_setAc (c : Core) (a b : BitVec 2) (v : BitVec 80) :
    (c.setAc a v).ac b = if b = a then v else c.ac b := by
  unfold Core.ac Core.setAc
  have : b.toNat = a.toNat ↔ b = a := ⟨fun h => BitVec.eq_of_toNat_eq h, fun h => by rw [h]⟩
  simp [mget_mset, this]

theorem getLsbD_putBit (w : Grain) (k j : Nat) (b : Bool) (hk : k < 20) :
    (putBit w k b).getLsbD j = if j = k then b else w.getLsbD j := getLsbD_bitPut w k j b hk

/-! ### What fetching and retiring leave -/

/-- Nothing but the PC, the leash with LX, the loops with LA0 and LA1, the shadow, the caches, the performance counters, and
what pairs and breakpoints keep differs. -/
structure StepKept (c c' : Core) : Prop where
  g : c'.g = c.g
  acc : c'.acc = c.acc
  e : c'.e = c.e
  pred : c'.pred = c.pred
  mode : c'.mode = c.mode
  sst : c'.sst = c.sst
  slim : c'.slim = c.slim
  rp : c'.rp = c.rp
  faddr : c'.faddr = c.faddr
  finfo : c'.finfo = c.finfo
  mask : c'.mask = c.mask
  ovr : c'.ovr = c.ovr
  run : c'.run = c.run
  report : c'.report = c.report
  side : c'.side = c.side
  wake : c'.wake = c.wake
  skip : c'.skip = c.skip
  tag : c'.tag = c.tag
  wakeBeat : c'.wakeBeat = c.wakeBeat
  work : c'.work = c.work
  completed : c'.completed = c.completed
  step : c'.step = c.step
  haltReq : c'.haltReq = c.haltReq
  st : ∀ b, b ≠ stLX → b ≠ stLA0 → b ≠ stLA1 → c'.st.getLsbD b = c.st.getLsbD b
  ccb : ∀ off, off ≠ ccbRetired → off ≠ ccbPaired → off ≠ ccbKills → off ≠ ccbIcMiss → off ≠ ccbIcPerr → c'.ccbL off = c.ccbL off

theorem StepKept.refl (c : Core) : StepKept c c := by constructor <;> intros <;> rfl

theorem StepKept.trans {a b c : Core} (h : StepKept a b) (k : StepKept b c) : StepKept a c := by
  constructor
  case st => intro x h1 h2 h3; rw [k.st x h1 h2 h3, h.st x h1 h2 h3]
  case ccb => intro x h1 h2 h3 h4 h5; rw [k.ccb x h1 h2 h3 h4 h5, h.ccb x h1 h2 h3 h4 h5]
  all_goals first
    | exact k.g.trans h.g | exact k.acc.trans h.acc | exact k.e.trans h.e | exact k.pred.trans h.pred
    | exact k.mode.trans h.mode | exact k.sst.trans h.sst | exact k.slim.trans h.slim | exact k.rp.trans h.rp
    | exact k.faddr.trans h.faddr | exact k.finfo.trans h.finfo | exact k.mask.trans h.mask | exact k.ovr.trans h.ovr
    | exact k.run.trans h.run | exact k.report.trans h.report | exact k.side.trans h.side | exact k.wake.trans h.wake
    | exact k.skip.trans h.skip | exact k.tag.trans h.tag | exact k.wakeBeat.trans h.wakeBeat | exact k.work.trans h.work
    | exact k.completed.trans h.completed | exact k.step.trans h.step | exact k.haltReq.trans h.haltReq

theorem Core.ccbL_setCcb (c : Core) (o p : Nat) (v : Long) : (c.setCcb o v).ccbL p = if p = o then v else c.ccbL p := by
  unfold Core.ccbL Core.setCcb
  simp only [mget_mset]

theorem StepKept.count (c : Core) (o n : Nat)
    (h : o = ccbRetired ∨ o = ccbPaired ∨ o = ccbKills ∨ o = ccbIcMiss) : StepKept c (c.count o n) := by
  constructor
  case ccb =>
    intro off h1 h2 h3 h4 h5
    unfold Core.count
    rw [Core.ccbL_setCcb, if_neg]
    rintro rfl
    rcases h with h | h | h | h <;> contradiction
  all_goals (intros; rfl)

theorem StepKept.kill (c : Core) : StepKept c c.kill := by
  have := StepKept.count c ccbKills 1 (by simp)
  unfold Core.kill
  constructor <;> first | exact this.ccb | exact this.st | rfl

theorem StepKept.icTouch (c : Core) (l : Nat) : StepKept c (c.icTouch l) := by
  unfold Core.icTouch
  split
  · constructor <;> intros <;> rfl
  · dsimp only
    refine StepKept.trans ?_ (StepKept.count _ ccbIcMiss 1 (by simp))
    constructor <;> intros <;> rfl

theorem StepKept.fetched (c : Core) (n : Nat) : StepKept c (c.fetched n) := by
  unfold Core.fetched
  split
  · exact StepKept.refl c
  · generalize (List.range n).map _ = l
    clear * -
    induction l generalizing c with
    | nil => exact StepKept.refl c
    | cons a r ih => exact StepKept.trans (StepKept.icTouch c a) (ih (c.icTouch a))

theorem StepKept.parity (c : Core) (n : Nat) : StepKept c (c.parity n) := by
  unfold Core.parity
  split
  · exact StepKept.refl c
  · constructor
    case ccb =>
      intro off h1 h2 h3 h4 h5
      rw [Core.ccbL_setCcb, if_neg h5]
      rfl
    all_goals (intros; rfl)

theorem StepKept.fetch (c : Core) (e : Bool) (n : Nat) : StepKept c (c.fetch e n) := by
  unfold Core.fetch
  split
  · exact (StepKept.parity c n).trans (StepKept.fetched _ n)
  · exact StepKept.fetched c n

/-- Fetching leaves the PC and the status. -/
theorem Core.fetched_more (c : Core) (n : Nat) : (c.fetched n).pc = c.pc ∧ (c.fetched n).st = c.st := by
  unfold Core.fetched
  split
  · exact ⟨rfl, rfl⟩
  · generalize (List.range n).map _ = l
    clear * -
    induction l generalizing c with
    | nil => exact ⟨rfl, rfl⟩
    | cons a r ih =>
      have h : (c.icTouch a).pc = c.pc ∧ (c.icTouch a).st = c.st := by
        unfold Core.icTouch; split <;> exact ⟨rfl, rfl⟩
      exact ⟨(ih _).1.trans h.1, (ih _).2.trans h.2⟩

theorem Core.fetch_more (c : Core) (e : Bool) (n : Nat) : (c.fetch e n).pc = c.pc ∧ (c.fetch e n).st = c.st := by
  unfold Core.fetch
  split
  · have h : (c.parity n).pc = c.pc ∧ (c.parity n).st = c.st := by
      unfold Core.parity; split <;> exact ⟨rfl, rfl⟩
    exact ⟨(Core.fetched_more _ n).1.trans h.1, (Core.fetched_more _ n).2.trans h.2⟩
  · exact Core.fetched_more c n

theorem StepKept.leashCount (c : Core) : StepKept c c.leashCount := by
  unfold Core.leashCount
  split
  · exact StepKept.refl c
  · split
    · constructor
      case st => intro b h _ _; exact (getLsbD_putBit _ _ _ _ (by decide)).trans (if_neg h)
      all_goals (intros; rfl)
    · constructor <;> intros <;> rfl

theorem StepKept.loopEnd0 (c : Core) (last : Long) (l : Bool) : StepKept c (c.loopEnd0 last l).1 := by
  unfold Core.loopEnd0
  split
  · dsimp only
    split
    · constructor <;> intros <;> rfl
    · constructor
      case st => intro b _ h _; exact (getLsbD_putBit _ _ _ _ (by decide)).trans (if_neg h)
      all_goals (intros; rfl)
  · exact StepKept.refl c

theorem StepKept.loopEnd (c : Core) (last : Long) : StepKept c (c.loopEnd last).1 := by
  unfold Core.loopEnd
  split
  · split
    · dsimp only
      split
      · constructor <;> intros <;> rfl
      · refine StepKept.trans ?_ (StepKept.loopEnd0 _ _ _)
        constructor
        case st => intro b _ _ h; exact (getLsbD_putBit _ _ _ _ (by decide)).trans (if_neg h)
        all_goals (intros; rfl)
    · exact StepKept.refl c
  · exact StepKept.loopEnd0 _ _ _

theorem StepKept.nextTo (c : Core) (n : Long) : StepKept c (c.nextTo n) := by
  have h0 : StepKept c { c with pc := n } := by constructor <;> intros <;> rfl
  have h1 := h0.trans (StepKept.loopEnd { c with pc := n } (n - 1))
  unfold Core.nextTo
  dsimp only
  have h2 : StepKept c (if (Core.loopEnd { c with pc := n } (n - 1)).2 = true
      then (Core.loopEnd { c with pc := n } (n - 1)).1.kill else (Core.loopEnd { c with pc := n } (n - 1)).1) := by
    split
    · exact h1.trans (StepKept.kill _)
    · exact h1
  split
  · refine h2.trans ?_
    constructor <;> intros <;> rfl
  · exact h2

theorem StepKept.leaveLoops (c : Core) (t : Long) : StepKept c (c.leaveLoops t) := by
  unfold Core.leaveLoops
  constructor
  case st =>
    intro b _ h0 h1
    dsimp only
    rw [getLsbD_putBit _ _ _ _ (by decide), if_neg h1, getLsbD_putBit _ _ _ _ (by decide), if_neg h0]
  all_goals (intros; rfl)

theorem StepKept.jumpTo (c : Core) (n : Nat) (t : Long) (e : Bool) : StepKept c (c.jumpTo n t e) := by
  unfold Core.jumpTo
  dsimp only
  have h1 : StepKept c (if e = true then c.leaveLoops t else c) := by
    split
    · exact StepKept.leaveLoops c t
    · exact StepKept.refl c
  have h2 : StepKept c (if c.predicted n = t.toNat then (if e = true then c.leaveLoops t else c)
      else (if e = true then c.leaveLoops t else c).kill) := by
    split
    · exact h1
    · exact h1.trans (StepKept.kill _)
  refine h2.trans ?_
  constructor <;> intros <;> rfl

/-- The part of retirement before the PC moves. -/
def Core.retired (c c0 : Core) (sp : InsSpec) (off : Bool) : Core :=
  let c1 := if sp.setsLeash && !off then c else c.leashCount
  let c3 := (c1.count ccbRetired 1).pairCount c0 sp.info off
  let killed := c3.ccbL ccbKills != c0.ccbL ccbKills
  { c3 with
    shadow := c3.shadow - 1
    brkPass := false
    watchPass := false
    prev := if c0.second sp.info off || killed || sp.info.alone || sp.info.branch then none else some sp.info }

theorem Core.retire_eq (c c0 : Core) (sp : InsSpec) (off : Bool) (fin : Fin) :
    c.retire c0 sp off fin = match fin with
      | .jump t ends => (c.retired c0 sp off).jumpTo sp.len t ends
      | .skip n => (c.retired c0 sp off).nextTo ((c.retired c0 sp off).pc + BitVec.ofNat 40 (2 + n))
      | .back => (c.retired c0 sp off).kill
      | _ => (c.retired c0 sp off).nextTo ((c.retired c0 sp off).pc + BitVec.ofNat 40 sp.len) := by
  cases fin <;> rfl

theorem StepKept.retired (c c0 : Core) (sp : InsSpec) (off : Bool) : StepKept c (c.retired c0 sp off) := by
  unfold Core.retired Core.pairCount
  dsimp only
  generalize c0.second sp.info off = b
  have h1 : StepKept c (if (sp.setsLeash && !off) = true then c else c.leashCount) := by
    split
    · exact StepKept.refl c
    · exact StepKept.leashCount c
  have h2 := h1.trans (StepKept.count _ ccbRetired 1 (by simp))
  have h3 := h2.trans (StepKept.count _ ccbPaired 1 (by simp))
  cases b
  · refine h2.trans ?_
    constructor <;> intros <;> rfl
  · refine h3.trans ?_
    constructor <;> intros <;> rfl

/-- Retirement leaves every register. -/
theorem StepKept.retire (c c0 : Core) (sp : InsSpec) (off : Bool) (fin : Fin) : StepKept c (c.retire c0 sp off fin) := by
  rw [Core.retire_eq]
  have h := StepKept.retired c c0 sp off
  cases fin
  case jump => exact h.trans (StepKept.jumpTo _ _ _ _)
  case back => exact h.trans (StepKept.kill _)
  all_goals exact h.trans (StepKept.nextTo _ _)

/-- Nothing that says where the PC goes next differs. -/
structure PcKept (c c' : Core) : Prop where
  pc : c'.pc = c.pc
  la0 : c'.st.getLsbD stLA0 = c.st.getLsbD stLA0
  la1 : c'.st.getLsbD stLA1 = c.st.getLsbD stLA1

theorem PcKept.leashCount (c : Core) : PcKept c c.leashCount := by
  unfold Core.leashCount
  split
  · exact ⟨rfl, rfl, rfl⟩
  · split
    · exact ⟨rfl, (getLsbD_putBit _ _ _ _ (by decide)).trans (if_neg (by decide)),
        (getLsbD_putBit _ _ _ _ (by decide)).trans (if_neg (by decide))⟩
    · exact ⟨rfl, rfl, rfl⟩

theorem Core.retired_pc (c c0 : Core) (sp : InsSpec) (off : Bool) : PcKept c (c.retired c0 sp off) := by
  unfold Core.retired Core.pairCount
  dsimp only
  generalize c0.second sp.info off = b
  generalize (sp.setsLeash && !off) = k
  have h1 : PcKept c (if k = true then c else c.leashCount) := by
    cases k
    · exact PcKept.leashCount c
    · exact ⟨rfl, rfl, rfl⟩
  cases b <;> exact ⟨h1.pc, h1.la0, h1.la1⟩

/-- Where no loop is active the next instruction in order follows. -/
theorem Core.nextTo_pc (c : Core) (n : Long) (h0 : c.la0 = false) (h1 : c.la1 = false) :
    (c.nextTo n).pc = n ∧ (c.nextTo n).la0 = false ∧ (c.nextTo n).la1 = false := by
  have h0' : Core.la0 { c with pc := n } = false := h0
  have h1' : Core.la1 { c with pc := n } = false := h1
  unfold Core.nextTo Core.loopEnd Core.loopEnd0
  simp only [h0, h1, h0', h1', Bool.false_and, Bool.or_self, Bool.false_eq_true, if_false, and_self]

theorem Core.retire_pc (c c0 : Core) (sp : InsSpec) (off : Bool) (h0 : c.la0 = false) (h1 : c.la1 = false) :
    (c.retire c0 sp off .go).pc = c.pc + BitVec.ofNat 40 sp.len := by
  rw [Core.retire_eq]
  have h := c.retired_pc c0 sp off
  exact (Core.nextTo_pc _ _ (h.la0.trans h0) (h.la1.trans h1)).1.trans (by rw [h.pc])

end Sys2Proof.Machine
end

