-- ==== Sys2Proof/Laws/Instr.lean ====
section
/-! SUPPORT. What running an instruction comes to where it is Ready: one lemma for any body, one for bodies that compute on
registers, and one that gives computes. -/

namespace Sys2Proof.Machine

open Sys2Proof

/-- What an instruction is once its guard is counted among what it reads. -/
def InsSpec.guarded (sp : InsSpec) (g : BitVec 3) : InsSpec := { sp with info := { sp.info with predR := g :: sp.info.predR } }

theorem State.pwrSweep_none (s : State) (h : s.pwr.slot = []) : s.pwrSweep = s := by
  unfold State.pwrSweep
  rw [h]
  rfl

theorem Core.await_none (c : Core) (sp : InsSpec) (h : c.side = []) : c.await sp = .ok c := by
  unfold Core.await
  rw [h]
  have : ({ c with side := [] } : Core) = c := by rw [← h]
  simp [this]

theorem State.pause_none (s : State) (i : Nat) (h1 : (s.core i).haltReq = false) (h2 : (s.core i).step = false) :
    s.pause i = s := by
  unfold State.pause
  simp [h1, h2]

/-- The core as its instruction's effect finds it: the grains fetched. -/
def State.atBody (s : State) (x : Iss) (n : Nat) : State :=
  (s.onCore (coreIdx x.core) (·.fetch x.perr n)).setCore (coreIdx x.core) ((s.core (coreIdx x.core)).fetch x.perr n)

theorem State.core_atBody (s : State) (x : Iss) (n j : Nat) :
    (s.atBody x n).core j = if j = coreIdx x.core then (s.core (coreIdx x.core)).fetch x.perr n else s.core j := by
  unfold State.atBody State.onCore
  rw [State.core_setCore, State.core_setCore]
  split <;> rfl

theorem State.atBody_eq (s : State) (x : Iss) (n : Nat) : s.atBody x n = s.atFetch x n := by
  unfold State.atBody State.atFetch State.onCore State.setCore
  simp only [mset_mset_self]

/-- A Ready instruction runs its body on the fetched core, and concludes. -/
theorem instr_ready (s : State) (x : Iss) (sp : InsSpec) (body : Nat → State → Fin × State) (h : Ready s x sp.len)
    (hb : sp.bad = false) (hr : sp.bar = none) :
    instr x sp body s = doneP
      (((body (coreIdx x.core) (s.atBody x sp.len)).2.conclude (coreIdx x.core) ((s.core (coreIdx x.core)).fetch x.perr sp.len)
        (sp.guarded x.guard) (body (coreIdx x.core) (s.atBody x sp.len)).1).pause (coreIdx x.core)) := by
  obtain ⟨h1, h2, h3, h4, h5, h6, h7, -, -, -⟩ := h
  have hk := StepKept.fetch (s.core (coreIdx x.core)) x.perr sp.len
  have hside : ((s.core (coreIdx x.core)).fetch x.perr sp.len).side = [] := hk.side.trans h7
  have hg : ((s.core (coreIdx x.core)).fetch x.perr sp.len).p x.guard = true := by
    rw [← h6]; unfold Core.p; rw [hk.pred]
  have he : ∀ q : InsSpec, s.eventBefore (coreIdx x.core) x.guard q = none := by
    intro q; unfold State.eventBefore; rw [h2, ite_self]
  unfold instr State.runInstr
  simp only [h1, he, h3, h4, h5, Bool.not_true, Bool.false_eq_true, if_false, ne_eq, not_true_eq_false]
  unfold State.issue
  simp only [State.onCore, State.core_setCore_self, hb, hg, hr, Bool.not_true, Bool.false_eq_true, if_false,
    Core.await_none _ _ hside]
  rfl

/-- A body on registers: the core is retired after it, and nothing else happens. -/
theorem instr_onRegs (s : State) (x : Iss) (sp : InsSpec) (f : Core → Core) (h : Ready s x sp.len) (hb : sp.bad = false)
    (hr : sp.bar = none) (h1 : (f ((s.core (coreIdx x.core)).fetch x.perr sp.len)).haltReq = false)
    (h2 : (f ((s.core (coreIdx x.core)).fetch x.perr sp.len)).step = false) :
    instr x sp (onRegs f) s = .next ((((s.atBody x sp.len).setCore (coreIdx x.core)
      (f ((s.core (coreIdx x.core)).fetch x.perr sp.len))).setCore (coreIdx x.core)
        ((f ((s.core (coreIdx x.core)).fetch x.perr sp.len)).retire ((s.core (coreIdx x.core)).fetch x.perr sp.len)
          (sp.guarded x.guard) false .go)).settle) := by
  rw [instr_ready s x sp _ h hb hr]
  have hc : (s.atBody x sp.len).core (coreIdx x.core) = (s.core (coreIdx x.core)).fetch x.perr sp.len := by
    rw [State.core_atBody, if_pos rfl]
  have hk := StepKept.retire (f ((s.core (coreIdx x.core)).fetch x.perr sp.len)) ((s.core (coreIdx x.core)).fetch x.perr sp.len)
    (sp.guarded x.guard) false .go
  simp only [onRegs, State.conclude, State.onCore, hc, State.core_setCore_self]
  rw [State.pause_none]
  · unfold doneP
    rw [State.pwrSweep_none]
    · rfl
    · exact h.2.2.2.2.2.2.2.2.2
  · rw [State.core_setCore_self]; exact hk.haltReq.trans h1
  · rw [State.core_setCore_self]; exact hk.step.trans h2

theorem coreKept_of (c c' : Core) (h : StepKept c c') : coreKept c c' :=
  ⟨h.e, h.mode, h.sst, h.slim, h.rp, h.faddr, h.finfo, h.mask, h.ovr, h.run, h.report, h.side, h.wake, h.skip, h.tag, h.wakeBeat, h.work, h.completed, h.step, h.haltReq, h.ccb⟩

/-- coreKept says nothing of what the instruction itself wrote. -/
theorem coreKept_trans_regs (c0 c1 c2 c3 : Core) (h01 : StepKept c0 c1)
    (h12 : c2 = { c1 with g := c2.g, acc := c2.acc, pred := c2.pred, st := c2.st }) (h23 : StepKept c2 c3) :
    coreKept c0 c3 := by
  have h : coreKept c1 c2 := by rw [h12]; constructor <;> intros <;> rfl
  have a := coreKept_of _ _ h01
  have b := coreKept_of _ _ h23
  exact ⟨b.e.trans (h.e.trans a.e), b.mode.trans (h.mode.trans a.mode), b.sst.trans (h.sst.trans a.sst), b.slim.trans (h.slim.trans a.slim), b.rp.trans (h.rp.trans a.rp), b.faddr.trans (h.faddr.trans a.faddr), b.finfo.trans (h.finfo.trans a.finfo), b.mask.trans (h.mask.trans a.mask), b.ovr.trans (h.ovr.trans a.ovr), b.run.trans (h.run.trans a.run), b.report.trans (h.report.trans a.report), b.side.trans (h.side.trans a.side), b.wake.trans (h.wake.trans a.wake), b.skip.trans (h.skip.trans a.skip), b.tag.trans (h.tag.trans a.tag), b.wakeBeat.trans (h.wakeBeat.trans a.wakeBeat), b.work.trans (h.work.trans a.work), b.completed.trans (h.completed.trans a.completed), b.step.trans (h.step.trans a.step), b.haltReq.trans (h.haltReq.trans a.haltReq),
    fun o h1 h2 h3 h4 h5 => (b.ccb o h1 h2 h3 h4 h5).trans ((h.ccb o h1 h2 h3 h4 h5).trans (a.ccb o h1 h2 h3 h4 h5))⟩

/-- Settling a state with the same CICs changes offers alone. -/
theorem State.settle_cic_of (s u : State) (h : u.cics = s.cics) (c : Nat) :
    ({ u.settle.cic c with offers := [] } : Cic) = { s.cic c with offers := [] } := by
  rw [State.settle_cic]
  unfold State.cic
  rw [h]

/-- Replacing one core, settled: nothing but that core differs. -/
theorem coreOnly_setCore (s : State) (x : Iss) (n : Nat) (a b : Core) :
    coreOnly s ((((s.atBody x n).setCore (coreIdx x.core) a).setCore (coreIdx x.core) b).settle) (coreIdx x.core) := by
  constructor
  case cics => intro c; exact State.settle_cic_of s _ (by simp only [State.setCore_cics, State.atBody, State.onCore]) c
  case cores =>
    intro j hj
    rw [State.settle_core, State.core_setCore, if_neg hj, State.core_setCore, if_neg hj, State.core_atBody, if_neg hj]
  case pending => simp only [State.settle_pending, State.setCore_pending, State.atBody, State.onCore]
  case out => simp only [State.settle_out, State.setCore_out, State.atBody, State.onCore]
  case free => simp only [State.settle_free, State.setCore_free, State.atBody, State.onCore]
  case time => simp only [State.settle_time, State.setCore_time, State.atBody, State.onCore]
  case hreg => simp only [State.settle_hreg, State.setCore_hreg, State.atBody, State.onCore]
  case force => simp only [State.settle_force, State.setCore_force, State.atBody, State.onCore]
  case mem => simp only [State.settle_mem, State.setCore_mem, State.atBody, State.onCore]
  case eccUnc => simp only [State.settle_eccUnc, State.setCore_eccUnc, State.atBody, State.onCore]
  case beat => simp only [State.settle_beat, State.setCore_beat, State.atBody, State.onCore]
  case clus => simp only [State.settle_clus, State.setCore_clus, State.atBody, State.onCore]
  case ports => simp only [State.settle_ports, State.setCore_ports, State.atBody, State.onCore]
  case abortPin => simp only [State.settle_abortPin, State.setCore_abortPin, State.atBody, State.onCore]
  case str => simp only [State.settle_str, State.setCore_str, State.atBody, State.onCore]
  case qeng => simp only [State.settle_qeng, State.setCore_qeng, State.atBody, State.onCore]
  case red => simp only [State.settle_red, State.setCore_red, State.atBody, State.onCore]
  case fab => simp only [State.settle_fab, State.setCore_fab, State.atBody, State.onCore]
  case jrn => simp only [State.settle_jrn, State.setCore_jrn, State.atBody, State.onCore]
  case kn => simp only [State.settle_kn, State.setCore_kn, State.atBody, State.onCore]
  case host => simp only [State.settle_host, State.setCore_host, State.atBody, State.onCore]
  case fserial => simp only [State.settle_fserial, State.setCore_fserial, State.atBody, State.onCore]
  case mon => simp only [State.settle_mon, State.setCore_mon, State.atBody, State.onCore]
  case cross => simp only [State.settle_cross, State.setCore_cross, State.atBody, State.onCore]
  case pwr => simp only [State.settle_pwr, State.setCore_pwr, State.atBody, State.onCore]
  case wh => simp only [State.settle_wh, State.setCore_wh, State.atBody, State.onCore]
  case boot => simp only [State.settle_boot, State.setCore_boot, State.atBody, State.onCore]
  case msixEn => simp only [State.settle_msixEn, State.setCore_dev, State.atBody, State.onCore]
  case msixFmask => simp only [State.settle_msixFmask, State.setCore_dev, State.atBody, State.onCore]
  case wakeTs => simp only [State.settle_wakeTs, State.setCore_dev, State.atBody, State.onCore]

/-- A status word after an instruction: LX, LA0 and LA1 aside, as the effect left it. -/
theorem flagsAre_of (w w1 w2 : Grain) (f : FlagEff) (h : flagsAre w w1 f)
    (h2 : ∀ b, b ≠ stLX → b ≠ stLA0 → b ≠ stLA1 → w2.getLsbD b = w1.getLsbD b) : flagsAre w w2 f := by
  obtain ⟨a, b, c, d, e, g, k⟩ := h
  refine ⟨?_, ?_, ?_, ?_, ?_, ?_, ?_⟩
  · rw [h2 _ (by decide) (by decide) (by decide)]; exact a
  · rw [h2 _ (by decide) (by decide) (by decide)]; exact b
  · rw [h2 _ (by decide) (by decide) (by decide)]; exact c
  · rw [h2 _ (by decide) (by decide) (by decide)]; exact d
  · rw [h2 _ (by decide) (by decide) (by decide)]; exact e
  · rw [h2 _ (by decide) (by decide) (by decide)]; exact g
  · intro j h4 h15
    rw [h2 _ (by unfold stLX; omega) (by unfold stLA0; omega) (by unfold stLA1; omega)]; exact k j h4 h15

theorem Core.gr_of_step (c c' : Core) (h : StepKept c c') (r : GReg) : c'.gr r = c.gr r := by
  unfold Core.gr; rw [h.g]

/-- An instruction on registers computes what its effect on the fetched core does. -/
theorem computes_of (ins : Instr) (s : State) (x : Iss) (sp : InsSpec) (f : Core → Core) (n : Nat) (d : GReg) (v : Long)
    (fl : FlagEff) (p : BitVec 3 → Bool) (a : BitVec 2 → BitVec 80) (hx : exec ins s = instr x sp (onRegs f) s)
    (h : Ready s x n) (hn : sp.len = n) (hb : sp.bad = false) (hr : sp.bar = none)
    (hf : ∀ c : Core, StepKept (s.core (coreIdx x.core)) c → c.st = (s.core (coreIdx x.core)).st →
      f c = { c with g := (f c).g, acc := (f c).acc, pred := (f c).pred, st := (f c).st } ∧
      (∀ r : GReg, (f c).gr r = if r = 0 then 0 else if r = d then v else (s.core (coreIdx x.core)).gr r) ∧
      flagsAre (s.core (coreIdx x.core)).st (f c).st fl ∧ (f c).la0 = c.la0 ∧ (f c).la1 = c.la1 ∧
      (∀ k, (f c).p k = p k) ∧ (∀ k, (f c).ac k = a k)) :
    computes ins s (coreIdx x.core) n d v fl p a := by
  subst hn
  have hk := StepKept.fetch (s.core (coreIdx x.core)) x.perr sp.len
  have hm := Core.fetch_more (s.core (coreIdx x.core)) x.perr sp.len
  obtain ⟨hf1, hf2, hf3, hf4, hf5, hf6, hf7⟩ := hf _ hk hm.2
  have hq : (f ((s.core (coreIdx x.core)).fetch x.perr sp.len)).haltReq = false := by
    rw [hf1]; exact hk.haltReq.trans h.2.2.2.2.2.2.2.1
  have hs : (f ((s.core (coreIdx x.core)).fetch x.perr sp.len)).step = false := by
    rw [hf1]; exact hk.step.trans h.2.2.2.2.2.2.2.2.1
  have hpc : (f ((s.core (coreIdx x.core)).fetch x.perr sp.len)).pc = (s.core (coreIdx x.core)).pc := by
    rw [hf1]; exact hm.1
  have hre := StepKept.retire (f ((s.core (coreIdx x.core)).fetch x.perr sp.len)) ((s.core (coreIdx x.core)).fetch x.perr sp.len)
    (sp.guarded x.guard) false .go
  refine ⟨_, hx.trans (instr_onRegs s x sp f h hb hr hq hs), coreOnly_setCore s x _ _ _, ?_⟩
  rw [State.settle_core, State.core_setCore_self]
  constructor
  · exact coreKept_trans_regs _ _ _ _ hk hf1 hre
  · intro r
    exact (Core.gr_of_step _ _ hre r).trans (hf2 r)
  · exact flagsAre_of _ _ _ _ hf3 hre.st
  · intro k
    rw [← hf6 k]
    unfold Core.p
    rw [hre.pred]
  · intro k
    rw [← hf7 k]
    unfold Core.ac
    rw [hre.acc]
  · intro h0 h1
    have e0 : (f ((s.core (coreIdx x.core)).fetch x.perr sp.len)).la0 = false := by
      rw [hf4]; unfold Core.la0 at h0 ⊢; rw [hm.2]; exact h0
    have e1 : (f ((s.core (coreIdx x.core)).fetch x.perr sp.len)).la1 = false := by
      rw [hf5]; unfold Core.la1 at h1 ⊢; rw [hm.2]; exact h1
    rw [Core.retire_pc _ _ _ _ e0 e1, hpc]
    rfl

end Sys2Proof.Machine
end

