-- ==== Sys2Proof/Laws/Alu.lean ====
section
/-! SUPPORT. What each shape of register instruction computes: a value for a register, with or without flags, predicates, an
accumulator; and what each flag computation does to the status word. -/

namespace Sys2Proof.Machine

open Sys2Proof

/-- Flags as f says, and the loop bits as they were. -/
def flagsFull (w w' : Grain) (f : FlagEff) : Prop :=
  flagsAre w w' f ∧ w'.getLsbD stLA0 = w.getLsbD stLA0 ∧ w'.getLsbD stLA1 = w.getLsbD stLA1

theorem flagsFull_refl (w : Grain) : flagsFull w w {} := by
  refine ⟨⟨rfl, rfl, rfl, rfl, rfl, rfl, ?_⟩, rfl, rfl⟩
  intros; rfl

/-- A register's new value, flags unchanged. -/
theorem computes_putVal (ins : Instr) (s : State) (x : Iss) (sp : InsSpec) (d : GReg) (F : Core → Long) (n : Nat) (v : Long)
    (h : Ready s x n) (hx : exec ins s = instr x sp (onRegs (putVal d F)) s) (hn : sp.len = n) (hb : sp.bad = false)
    (hr : sp.bar = none)
    (hF : ∀ c : Core, c.g = (s.core (coreIdx x.core)).g → c.acc = (s.core (coreIdx x.core)).acc →
      c.st = (s.core (coreIdx x.core)).st → F c = v) :
    computes ins s (coreIdx x.core) n d v {} := by
  refine computes_of ins s x sp _ n d v {} _ _ hx h hn hb hr ?_
  intro c hk hst
  have hs : c.side = [] := hk.side.trans h.2.2.2.2.2.2.1
  have hv : F c = v := hF c hk.g hk.acc hst
  obtain ⟨g', he⟩ : ∃ g', c.setG d v = { c with g := g' } := ⟨_, Core.setG_eq c d v hs⟩
  unfold putVal
  rw [hv]
  refine ⟨?_, ?_, ?_, ?_, ?_, ?_, ?_⟩
  · rw [he]
  · intro r
    rw [Core.gr_setG]
    unfold Core.gr
    rw [hk.g]
  · rw [he]; simp only []; rw [hst]; exact (flagsFull_refl _).1
  · rw [he]; rfl
  · rw [he]; rfl
  · intro k; rw [he]; unfold Core.p; rw [← hk.pred]
  · intro k; rw [he]; unfold Core.ac; rw [← hk.acc]

/-- A register's new value, and flags. -/
theorem computes_putRes (ins : Instr) (s : State) (x : Iss) (sp : InsSpec) (d : GReg) (F : Core → Long × Grain) (n : Nat)
    (v : Long) (w : Grain) (fl : FlagEff)
    (h : Ready s x n) (hx : exec ins s = instr x sp (onRegs (putRes d F)) s) (hn : sp.len = n) (hb : sp.bad = false)
    (hr : sp.bar = none)
    (hF : ∀ c : Core, c.g = (s.core (coreIdx x.core)).g → c.acc = (s.core (coreIdx x.core)).acc →
      c.st = (s.core (coreIdx x.core)).st → F c = (v, w))
    (hw : flagsFull (s.core (coreIdx x.core)).st w fl) :
    computes ins s (coreIdx x.core) n d v fl := by
  refine computes_of ins s x sp _ n d v fl _ _ hx h hn hb hr ?_
  intro c hk hst
  have hs : c.side = [] := hk.side.trans h.2.2.2.2.2.2.1
  have hv : F c = (v, w) := hF c hk.g hk.acc hst
  obtain ⟨g', he⟩ : ∃ g', c.setG d v = { c with g := g' } := ⟨_, Core.setG_eq c d v hs⟩
  unfold putRes
  rw [hv]
  refine ⟨?_, ?_, ?_, ?_, ?_, ?_, ?_⟩
  · show Core.setSt (c.setG d v) w = { c with g := (c.setG d v).g, acc := (c.setG d v).acc, pred := (c.setG d v).pred, st := w }
    rw [he]; rfl
  · intro r
    show (c.setG d v).gr r = _
    rw [Core.gr_setG]
    unfold Core.gr
    rw [hk.g]
  · exact hw.1
  · exact hw.2.1.trans (by rw [← hst]; rfl)
  · exact hw.2.2.trans (by rw [← hst]; rfl)
  · intro k
    show (c.setG d v).p k = _
    rw [he]; unfold Core.p; rw [← hk.pred]
  · intro k
    show (c.setG d v).ac k = _
    rw [he]; unfold Core.ac; rw [← hk.acc]

/-- Two predicates' new values. -/
theorem computes_putPair (ins : Instr) (s : State) (x : Iss) (sp : InsSpec) (p q : BitVec 3) (F : Core → Bool × Bool) (n : Nat)
    (a b : Bool) (h : Ready s x n) (hx : exec ins s = instr x sp (onRegs (putPair p q F)) s) (hn : sp.len = n)
    (hb : sp.bad = false) (hr : sp.bar = none)
    (hF : ∀ c : Core, c.g = (s.core (coreIdx x.core)).g → c.st = (s.core (coreIdx x.core)).st → F c = (a, b)) :
    computes ins s (coreIdx x.core) n 0 0 {}
      (p := fun k => if k = 0 then true else if k = q then b else if k = p then a else (s.core (coreIdx x.core)).p k) := by
  refine computes_of ins s x sp _ n 0 0 {} _ _ hx h hn hb hr ?_
  intro c hk hst
  have hv : F c = (a, b) := hF c hk.g hst
  obtain ⟨p', he⟩ : ∃ p', (c.setP p a).setP q b = { c with pred := p' } := by
    refine ⟨((c.setP p a).setP q b).pred, (Core.setP_eq _ q b).trans ?_⟩
    rw [Core.setP_eq c p a]
  unfold putPair
  rw [hv]
  refine ⟨?_, ?_, ?_, ?_, ?_, ?_, ?_⟩
  · show (c.setP p a).setP q b = { c with g := ((c.setP p a).setP q b).g, acc := ((c.setP p a).setP q b).acc, pred := ((c.setP p a).setP q b).pred, st := ((c.setP p a).setP q b).st }
    rw [he]
  · intro r
    show ((c.setP p a).setP q b).gr r = _
    rw [he]; unfold Core.gr; rw [hk.g]
    by_cases h0 : r = 0
    · simp only [if_pos h0]
    · simp only [if_neg h0]
  · show flagsAre _ ((c.setP p a).setP q b).st _
    rw [he]; simp only []; rw [hst]; exact (flagsFull_refl _).1
  · show ((c.setP p a).setP q b).la0 = _
    rw [he]; rfl
  · show ((c.setP p a).setP q b).la1 = _
    rw [he]; rfl
  · intro k
    show ((c.setP p a).setP q b).p k = _
    rw [Core.p_setP, Core.p_setP]
    unfold Core.p
    rw [hk.pred]
    by_cases h0 : k = 0
    · simp only [if_pos h0]
    · simp only [if_neg h0]
  · intro k
    show ((c.setP p a).setP q b).ac k = _
    rw [he]; unfold Core.ac; rw [← hk.acc]

/-- One predicate's new value. -/
theorem computes_setP (ins : Instr) (s : State) (x : Iss) (sp : InsSpec) (p : BitVec 3) (F : Core → Bool) (n : Nat)
    (a : Bool) (h : Ready s x n) (hx : exec ins s = instr x sp (onRegs (fun c => c.setP p (F c))) s) (hn : sp.len = n)
    (hb : sp.bad = false) (hr : sp.bar = none)
    (hF : ∀ c : Core, c.pred = (s.core (coreIdx x.core)).pred → F c = a) :
    computes ins s (coreIdx x.core) n 0 0 {}
      (p := fun k => if k = 0 then true else if k = p then a else (s.core (coreIdx x.core)).p k) := by
  refine computes_of ins s x sp _ n 0 0 {} _ _ hx h hn hb hr ?_
  intro c hk hst
  have hv : F c = a := hF c hk.pred
  obtain ⟨p', he⟩ : ∃ p', c.setP p a = { c with pred := p' } := ⟨_, Core.setP_eq c p a⟩
  rw [hv]
  refine ⟨?_, ?_, ?_, ?_, ?_, ?_, ?_⟩
  · rw [he]
  · intro r
    rw [he]; unfold Core.gr; rw [hk.g]
    by_cases h0 : r = 0
    · simp only [if_pos h0]
    · simp only [if_neg h0]
  · rw [he]; simp only []; rw [hst]; exact (flagsFull_refl _).1
  · rw [he]; rfl
  · rw [he]; rfl
  · intro k
    rw [Core.p_setP]
    unfold Core.p
    rw [hk.pred]
  · intro k
    rw [he]; unfold Core.ac; rw [← hk.acc]

/-- An accumulator's new value. -/
theorem computes_setAc (ins : Instr) (s : State) (x : Iss) (sp : InsSpec) (a : BitVec 2) (F : Core → BitVec 80) (n : Nat)
    (v : BitVec 80) (h : Ready s x n) (hx : exec ins s = instr x sp (onRegs (fun c => c.setAc a (F c))) s) (hn : sp.len = n)
    (hb : sp.bad = false) (hr : sp.bar = none)
    (hF : ∀ c : Core, c.g = (s.core (coreIdx x.core)).g → c.acc = (s.core (coreIdx x.core)).acc → F c = v) :
    computes ins s (coreIdx x.core) n 0 0 {} (a := fun k => if k = a then v else (s.core (coreIdx x.core)).ac k) := by
  refine computes_of ins s x sp _ n 0 0 {} _ _ hx h hn hb hr ?_
  intro c hk hst
  have hv : F c = v := hF c hk.g hk.acc
  rw [hv]
  refine ⟨rfl, ?_, ?_, rfl, rfl, ?_, ?_⟩
  · intro r
    show c.gr r = _
    unfold Core.gr; rw [hk.g]
    by_cases h0 : r = 0
    · simp only [if_pos h0]
    · simp only [if_neg h0]
  · show flagsAre _ c.st _
    rw [hst]; exact (flagsFull_refl _).1
  · intro k
    show c.p k = _
    unfold Core.p; rw [← hk.pred]
  · intro k
    rw [Core.ac_setAc]
    unfold Core.ac
    rw [hk.acc]

/-! ### Flag computations -/

theorem flagsNZ_full (w : Grain) (r : Long) : flagsFull w (flagsNZ w r) { n := some (r.getLsbD 39), z := some (r == 0) } := by
  unfold flagsNZ
  refine ⟨⟨?_, ?_, ?_, ?_, ?_, ?_, ?_⟩, ?_, ?_⟩
  all_goals try
    (simp only [getLsbD_putBit _ _ _ _ (by decide : stN < 20), getLsbD_putBit _ _ _ _ (by decide : stZ < 20)]
     simp [stN, stZ, stC, stV, stSV, stAF, stLA0, stLA1])
  intro b h4 h15
  rw [if_neg (by omega), if_neg (by omega)]

theorem flagsNZCV_full (w : Grain) (r : Long) (c v : Bool) : flagsFull w (flagsNZCV w r c v)
    { n := some (r.getLsbD 39), z := some (r == 0), c := some c, v := some v } := by
  unfold flagsNZCV flagsNZ
  refine ⟨⟨?_, ?_, ?_, ?_, ?_, ?_, ?_⟩, ?_, ?_⟩
  all_goals try
    (simp only [getLsbD_putBit _ _ _ _ (by decide : stN < 20), getLsbD_putBit _ _ _ _ (by decide : stZ < 20),
      getLsbD_putBit _ _ _ _ (by decide : stC < 20), getLsbD_putBit _ _ _ _ (by decide : stV < 20)]
     simp [stN, stZ, stC, stV, stSV, stAF, stLA0, stLA1])
  intro b h4 h15
  rw [if_neg (by omega), if_neg (by omega), if_neg (by omega), if_neg (by omega)]

/-- SV is set where asked, and else stays. -/
theorem stickSV_full (w w' : Grain) (b : Bool) (f : FlagEff) (h : flagsFull w w' f) (hf : f.sv = none) :
    flagsFull w (stickSV w' b) { f with sv := some (b || w.getLsbD stSV) } := by
  obtain ⟨⟨h1, h2, h3, h4, h5, h6, h7⟩, h8, h9⟩ := h
  rw [hf] at h5
  unfold stickSV
  cases b
  · exact ⟨⟨h1, h2, h3, h4, by simpa using h5, h6, h7⟩, h8, h9⟩
  · simp only [if_true]
    refine ⟨⟨?_, ?_, ?_, ?_, ?_, ?_, ?_⟩, ?_, ?_⟩
    all_goals try simp only [getLsbD_putBit _ _ _ _ (by decide : stSV < 20)]
    · exact (if_neg (by decide)).trans h1
    · exact (if_neg (by decide)).trans h2
    · exact (if_neg (by decide)).trans h3
    · exact (if_neg (by decide)).trans h4
    · simp
    · exact (if_neg (by decide)).trans h6
    · intro b hb hb'
      exact (if_neg (by unfold stSV; omega)).trans (h7 b hb hb')
    · exact (if_neg (by decide)).trans h8
    · exact (if_neg (by decide)).trans h9

/-- C is set to a value, the rest being as before. -/
theorem putC_full (w w' : Grain) (b : Bool) (f : FlagEff) (h : flagsFull w w' f) :
    flagsFull w (putBit w' stC b) { f with c := some b } := by
  obtain ⟨⟨h1, h2, h3, h4, h5, h6, h7⟩, h8, h9⟩ := h
  refine ⟨⟨?_, ?_, ?_, ?_, ?_, ?_, ?_⟩, ?_, ?_⟩
  all_goals try simp only [getLsbD_putBit _ _ _ _ (by decide : stC < 20)]
  · exact (if_neg (by decide)).trans h1
  · exact (if_neg (by decide)).trans h2
  · simp
  · exact (if_neg (by decide)).trans h4
  · exact (if_neg (by decide)).trans h5
  · exact (if_neg (by decide)).trans h6
  · intro j hb hb'
    exact (if_neg (by unfold stC; omega)).trans (h7 j hb hb')
  · exact (if_neg (by decide)).trans h8
  · exact (if_neg (by decide)).trans h9

/-- V is set to a value, the rest being as before. -/
theorem putV_full (w w' : Grain) (b : Bool) (f : FlagEff) (h : flagsFull w w' f) :
    flagsFull w (putBit w' stV b) { f with v := some b } := by
  obtain ⟨⟨h1, h2, h3, h4, h5, h6, h7⟩, h8, h9⟩ := h
  refine ⟨⟨?_, ?_, ?_, ?_, ?_, ?_, ?_⟩, ?_, ?_⟩
  all_goals try simp only [getLsbD_putBit _ _ _ _ (by decide : stV < 20)]
  · exact (if_neg (by decide)).trans h1
  · exact (if_neg (by decide)).trans h2
  · exact (if_neg (by decide)).trans h3
  · simp
  · exact (if_neg (by decide)).trans h5
  · exact (if_neg (by decide)).trans h6
  · intro j hb hb'
    exact (if_neg (by unfold stV; omega)).trans (h7 j hb hb')
  · exact (if_neg (by decide)).trans h8
  · exact (if_neg (by decide)).trans h9

theorem normFlags_full (w : Grain) (n z v g : Bool) : flagsFull w (normFlags w n z v g)
    { n := some (!g && n), z := some (!g && z), v := some (v || g) } := by
  unfold normFlags
  refine putV_full _ _ _ { n := some (!g && n), z := some (!g && z) } ?_
  refine ⟨⟨?_, ?_, ?_, ?_, ?_, ?_, ?_⟩, ?_, ?_⟩
  all_goals try
    (simp only [getLsbD_putBit _ _ _ _ (by decide : stN < 20), getLsbD_putBit _ _ _ _ (by decide : stZ < 20)]
     simp [stN, stZ, stC, stV, stSV, stAF, stLA0, stLA1])
  intro b h4 h15
  simp [show ¬ b = 2 by omega, show ¬ b = 3 by omega]

end Sys2Proof.Machine
end

