-- ==== Sys2Proof/Laws/Bits.lean ====
section
/-! SUPPORT. Longs, grains and lanes as numbers: the shapes the statements about values use. -/

namespace Sys2Proof.Machine

open Sys2Proof

/-- A register depends on the register file alone. -/
theorem Core.gr_congr (c c0 : Core) (h : c.g = c0.g) (r : GReg) : c.gr r = c0.gr r := by unfold Core.gr; rw [h]

theorem Core.ac_congr (c c0 : Core) (h : c.acc = c0.acc) (a : BitVec 2) : c.ac a = c0.ac a := by unfold Core.ac; rw [h]

theorem Core.p_congr (c c0 : Core) (h : c.pred = c0.pred) (k : BitVec 3) : c.p k = c0.p k := by unfold Core.p; rw [h]

theorem toNat_app {m n : Nat} (a : BitVec m) (b : BitVec n) : (a ++ b).toNat = a.toNat * 2 ^ n + b.toNat := by
  rw [BitVec.toNat_append, ← Nat.shiftLeft_add_eq_or_of_lt b.isLt, Nat.shiftLeft_eq]

theorem ofInt_toInt {n : Nat} (v : BitVec n) : BitVec.ofInt n v.toInt = v := BitVec.ofInt_toInt

theorem extractLsb'_zero {n m : Nat} (v : BitVec n) : v.extractLsb' 0 m = v.setWidth m := by
  apply BitVec.eq_of_toNat_eq
  simp [BitVec.extractLsb'_toNat, BitVec.toNat_setWidth]

theorem extractLsb'_shift {n m k : Nat} (v : BitVec n) : v.extractLsb' k m = (v >>> k).setWidth m := by
  apply BitVec.eq_of_toNat_eq
  simp [BitVec.extractLsb'_toNat, BitVec.toNat_setWidth, BitVec.toNat_ushiftRight]

/-- A pattern of w bits as a signed number is that of the bit vector. -/
theorem ofSigned_toInt (w n : Nat) (hw : 0 < w) : ofSigned w n = (BitVec.ofNat w n).toInt := by
  unfold ofSigned
  rw [BitVec.toInt_eq_toNat_cond, BitVec.toNat_ofNat]
  have h2 : 2 ^ w = 2 * 2 ^ (w - 1) := by
    rw [← Nat.pow_succ']
    congr 1
    omega
  have hlt : n % 2 ^ w < 2 ^ w := Nat.mod_lt _ (by positivity)
  generalize n % 2 ^ w = r at *
  split <;> split <;> first | rfl | omega

theorem laneL_eq (v : Long) : laneL v = (v.extractLsb' 0 20).toInt := by
  unfold laneL
  rw [ofSigned_toInt 20 _ (by decide)]
  congr 1

theorem laneH_eq (v : Long) : laneH v = (v.extractLsb' 20 20).toInt := by
  unfold laneH
  rw [ofSigned_toInt 20 _ (by decide)]
  congr 1
  apply BitVec.eq_of_toNat_eq
  simp [BitVec.extractLsb'_toNat, Nat.shiftRight_eq_div_pow]

/-- Limiting to a symmetric range. -/
theorem clampInt_eq (m t : Int) (_hm : 0 ≤ m) : clampInt (-m) m t = max (-m) (min m t) := by
  unfold clampInt
  split
  · omega
  · split <;> omega

theorem clampInt_ne (m t : Int) (_hm : 0 ≤ m) : (clampInt (-m) m t != t) = decide (m < |t|) := by
  unfold clampInt
  split
  · have : m < |t| := by rw [lt_abs]; right; omega
    simp [this]; omega
  · split
    · have : m < |t| := by rw [lt_abs]; left; omega
      simp [this]; omega
    · have : ¬ m < |t| := by rw [lt_abs]; omega
      simp [this]

end Sys2Proof.Machine
end

