-- ==== Sys2Proof/Laws/Fields.lean ====
section
/-! SUPPORT. Fields of BAR0 words: what a field reads as after that field or another has been written. -/

namespace Sys2Proof.Machine

open Sys2Proof

theorem fieldOf_lt (w : Reg32) (f : Fld) : fieldOf w f < 2 ^ f.w := Nat.mod_lt _ (by positivity)

/-- A word with a field replaced, as a number: the field's part alone differs. -/
theorem withField_toNat (w : Reg32) (f : Fld) (v : Nat) (hf : f.lo + f.w ≤ 32) :
    (withField w f v).toNat =
      2 ^ f.lo * (2 ^ f.w * (w.toNat / 2 ^ f.lo / 2 ^ f.w) + v % 2 ^ f.w) + w.toNat % 2 ^ f.lo := by
  unfold withField fieldOf
  rw [BitVec.toNat_ofNat]
  have hw := w.isLt
  have hP : 0 < 2 ^ f.lo := by positivity
  have hQ : 0 < 2 ^ f.w := by positivity
  have hPQ : 2 ^ f.lo * (2 ^ f.w * 2 ^ (32 - (f.lo + f.w))) = 2 ^ 32 := by
    rw [← Nat.pow_add, ← Nat.pow_add]; congr 1; omega
  generalize 2 ^ f.lo = P at *
  generalize 2 ^ f.w = Q at *
  generalize 2 ^ (32 - (f.lo + f.w)) = R at *
  generalize w.toNat = A at *
  have h1 := Nat.div_add_mod A P
  have h2 := Nat.div_add_mod (A / P) Q
  have hl := Nat.mod_lt A hP
  have hx := Nat.mod_lt (A / P) hQ
  have hv := Nat.mod_lt v hQ
  generalize hq : A / P % Q = x at *
  generalize hh : A / P / Q = h at *
  generalize A % P = l at *
  generalize v % Q = v' at *
  have hA : A = P * (Q * h + x) + l := by rw [h2]; exact h1.symm
  have e : A - x * P + v' * P = P * (Q * h + v') + l := by
    have : A = x * P + (P * (Q * h) + l) := by rw [hA]; ring
    rw [this, Nat.add_sub_cancel_left]; ring
  have hlt : h < R := by
    by_contra hc
    have : P * (Q * R) ≤ P * (Q * h) := Nat.mul_le_mul_left _ (Nat.mul_le_mul_left _ (by omega))
    have : P * (Q * h) ≤ A := by rw [hA]; nlinarith
    omega
  rw [e]
  apply Nat.mod_eq_of_lt
  have a1 : Q * h + v' + 1 ≤ Q * R := by
    have : Q * (h + 1) ≤ Q * R := Nat.mul_le_mul_left _ hlt
    rw [Nat.mul_add] at this; omega
  have a2 : P * (Q * h + v' + 1) ≤ P * (Q * R) := Nat.mul_le_mul_left _ a1
  rw [hPQ, Nat.mul_add] at a2
  omega

theorem fieldOf_withField (w : Reg32) (f : Fld) (v : Nat) (hf : f.lo + f.w ≤ 32) :
    fieldOf (withField w f v) f = v % 2 ^ f.w := by
  have h := withField_toNat w f v hf
  unfold fieldOf at *
  rw [h]
  have hP : 0 < 2 ^ f.lo := by positivity
  rw [Nat.mul_add_div hP, Nat.div_eq_of_lt (Nat.mod_lt _ hP), Nat.add_zero, Nat.mul_add_mod, Nat.mod_mod]

theorem fieldOf_withField_ne (w : Reg32) (f g : Fld) (v : Nat) (hf : f.lo + f.w ≤ 32)
    (h : f.lo + f.w ≤ g.lo ∨ g.lo + g.w ≤ f.lo) : fieldOf (withField w f v) g = fieldOf w g := by
  have hn := withField_toNat w f v hf
  unfold fieldOf at *
  rw [hn]
  have hP : 0 < 2 ^ f.lo := by positivity
  have hQ : 0 < 2 ^ f.w := by positivity
  rcases h with h | h
  · have e : 2 ^ g.lo = 2 ^ f.lo * (2 ^ f.w * 2 ^ (g.lo - (f.lo + f.w))) := by
      rw [← Nat.pow_add, ← Nat.pow_add]; congr 1; omega
    rw [e, ← Nat.div_div_eq_div_mul, ← Nat.div_div_eq_div_mul, ← Nat.div_div_eq_div_mul (w.toNat), ← Nat.div_div_eq_div_mul (w.toNat / 2 ^ f.lo)]
    rw [Nat.mul_add_div hP, Nat.div_eq_of_lt (Nat.mod_lt _ hP), Nat.add_zero, Nat.mul_add_div hQ,
      Nat.div_eq_of_lt (Nat.mod_lt _ hQ), Nat.add_zero]
  · rw [← Nat.mod_mul_right_div_self, ← Nat.mod_mul_right_div_self]
    have e : 2 ^ f.lo = 2 ^ g.lo * 2 ^ g.w * 2 ^ (f.lo - (g.lo + g.w)) := by
      rw [← Nat.pow_add, ← Nat.pow_add]; congr 1; omega
    congr 1
    rw [Nat.add_mod, e, Nat.mul_assoc (2 ^ g.lo * 2 ^ g.w), Nat.mul_mod_right, Nat.zero_add, Nat.mod_mod,
      Nat.mod_mul_right_mod]

variable (s : State)

theorem State.wr_eq (f : Fld) (v : Nat) : s.wr f v = s.setWord f.off (withField (s.word f.off) f v) := rfl

/-- The field written. -/
theorem State.rd_wr (f : Fld) (v : Nat) (hf : f.lo + f.w ≤ 32) : (s.wr f v).rd f = v % 2 ^ f.w := by
  unfold State.rd State.wr
  rw [State.word_setWord_self, fieldOf_withField _ _ _ hf]

/-- A field of another word. -/
theorem State.rd_wr_off (f g : Fld) (v : Nat) (h : g.off ≠ f.off) : (s.wr f v).rd g = s.rd g := by
  unfold State.rd State.wr
  rw [State.word_setWord, if_neg h]

/-- Another field of the same word. -/
theorem State.rd_wr_ne (f g : Fld) (v : Nat) (hf : f.lo + f.w ≤ 32) (h : f.lo + f.w ≤ g.lo ∨ g.lo + g.w ≤ f.lo) :
    (s.wr f v).rd g = s.rd g := by
  by_cases ho : g.off = f.off
  · unfold State.rd State.wr
    rw [ho, State.word_setWord_self, fieldOf_withField_ne _ _ _ _ hf h]
  · exact s.rd_wr_off f g v ho

theorem State.word_wr_off (f : Fld) (v o : Nat) (h : o ≠ f.off) : (s.wr f v).word o = s.word o := by
  unfold State.wr
  rw [State.word_setWord, if_neg h]

@[simp] theorem State.wr_pending (f : Fld) (v : Nat) : (s.wr f v).pending = s.pending := rfl
@[simp] theorem State.wr_out (f : Fld) (v : Nat) : (s.wr f v).out = s.out := rfl
@[simp] theorem State.wr_free (f : Fld) (v : Nat) : (s.wr f v).free = s.free := rfl
@[simp] theorem State.wr_time (f : Fld) (v : Nat) : (s.wr f v).time = s.time := rfl
@[simp] theorem State.wr_force (f : Fld) (v : Nat) : (s.wr f v).force = s.force := rfl
@[simp] theorem State.wr_mem (f : Fld) (v : Nat) : (s.wr f v).mem = s.mem := rfl
@[simp] theorem State.wr_eccUnc (f : Fld) (v : Nat) : (s.wr f v).eccUnc = s.eccUnc := rfl
@[simp] theorem State.wr_beat (f : Fld) (v : Nat) : (s.wr f v).beat = s.beat := rfl
@[simp] theorem State.wr_clus (f : Fld) (v : Nat) : (s.wr f v).clus = s.clus := rfl
@[simp] theorem State.wr_cores (f : Fld) (v : Nat) : (s.wr f v).cores = s.cores := rfl
@[simp] theorem State.wr_cics (f : Fld) (v : Nat) : (s.wr f v).cics = s.cics := rfl
@[simp] theorem State.wr_dev (f : Fld) (v : Nat) : (s.wr f v).dev = s.dev := rfl
@[simp] theorem State.wr_ports (f : Fld) (v : Nat) : (s.wr f v).ports = s.ports := rfl
@[simp] theorem State.wr_abortPin (f : Fld) (v : Nat) : (s.wr f v).abortPin = s.abortPin := rfl
@[simp] theorem State.wr_str (f : Fld) (v : Nat) : (s.wr f v).str = s.str := rfl
@[simp] theorem State.wr_qeng (f : Fld) (v : Nat) : (s.wr f v).qeng = s.qeng := rfl
@[simp] theorem State.wr_red (f : Fld) (v : Nat) : (s.wr f v).red = s.red := rfl
@[simp] theorem State.wr_fab (f : Fld) (v : Nat) : (s.wr f v).fab = s.fab := rfl
@[simp] theorem State.wr_jrn (f : Fld) (v : Nat) : (s.wr f v).jrn = s.jrn := rfl
@[simp] theorem State.wr_kn (f : Fld) (v : Nat) : (s.wr f v).kn = s.kn := rfl
@[simp] theorem State.wr_host (f : Fld) (v : Nat) : (s.wr f v).host = s.host := rfl
@[simp] theorem State.wr_fserial (f : Fld) (v : Nat) : (s.wr f v).fserial = s.fserial := rfl
@[simp] theorem State.wr_mon (f : Fld) (v : Nat) : (s.wr f v).mon = s.mon := rfl
@[simp] theorem State.wr_cross (f : Fld) (v : Nat) : (s.wr f v).cross = s.cross := rfl
@[simp] theorem State.wr_pwr (f : Fld) (v : Nat) : (s.wr f v).pwr = s.pwr := rfl
@[simp] theorem State.wr_wh (f : Fld) (v : Nat) : (s.wr f v).wh = s.wh := rfl
@[simp] theorem State.wr_boot (f : Fld) (v : Nat) : (s.wr f v).boot = s.boot := rfl

/-- A message out changes nothing but what has left. -/
theorem State.emit_or (o : Out) : s.emit o = s ∨ s.emit o = { s with out := s.out ++ [o] } := by
  have : ∀ b : Bool, (if (b && s.wh.pinsTaken) = true then s else { s with out := s.out ++ [o] }) = s ∨
      (if (b && s.wh.pinsTaken) = true then s else { s with out := s.out ++ [o] }) = { s with out := s.out ++ [o] } := by
    intro b
    split
    · exact Or.inl rfl
    · exact Or.inr rfl
  exact this _

@[simp] theorem State.emit_hreg (o : Out) : (s.emit o).hreg = s.hreg := by rcases s.emit_or o with h | h <;> rw [h]
@[simp] theorem State.emit_pending (o : Out) : (s.emit o).pending = s.pending := by rcases s.emit_or o with h | h <;> rw [h]
@[simp] theorem State.emit_free (o : Out) : (s.emit o).free = s.free := by rcases s.emit_or o with h | h <;> rw [h]
@[simp] theorem State.emit_time (o : Out) : (s.emit o).time = s.time := by rcases s.emit_or o with h | h <;> rw [h]
@[simp] theorem State.emit_force (o : Out) : (s.emit o).force = s.force := by rcases s.emit_or o with h | h <;> rw [h]
@[simp] theorem State.emit_mem (o : Out) : (s.emit o).mem = s.mem := by rcases s.emit_or o with h | h <;> rw [h]
@[simp] theorem State.emit_eccUnc (o : Out) : (s.emit o).eccUnc = s.eccUnc := by rcases s.emit_or o with h | h <;> rw [h]
@[simp] theorem State.emit_beat (o : Out) : (s.emit o).beat = s.beat := by rcases s.emit_or o with h | h <;> rw [h]
@[simp] theorem State.emit_clus (o : Out) : (s.emit o).clus = s.clus := by rcases s.emit_or o with h | h <;> rw [h]
@[simp] theorem State.emit_cores (o : Out) : (s.emit o).cores = s.cores := by rcases s.emit_or o with h | h <;> rw [h]
@[simp] theorem State.emit_cics (o : Out) : (s.emit o).cics = s.cics := by rcases s.emit_or o with h | h <;> rw [h]
@[simp] theorem State.emit_dev (o : Out) : (s.emit o).dev = s.dev := by rcases s.emit_or o with h | h <;> rw [h]
@[simp] theorem State.emit_ports (o : Out) : (s.emit o).ports = s.ports := by rcases s.emit_or o with h | h <;> rw [h]
@[simp] theorem State.emit_abortPin (o : Out) : (s.emit o).abortPin = s.abortPin := by rcases s.emit_or o with h | h <;> rw [h]
@[simp] theorem State.emit_str (o : Out) : (s.emit o).str = s.str := by rcases s.emit_or o with h | h <;> rw [h]
@[simp] theorem State.emit_qeng (o : Out) : (s.emit o).qeng = s.qeng := by rcases s.emit_or o with h | h <;> rw [h]
@[simp] theorem State.emit_red (o : Out) : (s.emit o).red = s.red := by rcases s.emit_or o with h | h <;> rw [h]
@[simp] theorem State.emit_fab (o : Out) : (s.emit o).fab = s.fab := by rcases s.emit_or o with h | h <;> rw [h]
@[simp] theorem State.emit_jrn (o : Out) : (s.emit o).jrn = s.jrn := by rcases s.emit_or o with h | h <;> rw [h]
@[simp] theorem State.emit_kn (o : Out) : (s.emit o).kn = s.kn := by rcases s.emit_or o with h | h <;> rw [h]
@[simp] theorem State.emit_host (o : Out) : (s.emit o).host = s.host := by rcases s.emit_or o with h | h <;> rw [h]
@[simp] theorem State.emit_fserial (o : Out) : (s.emit o).fserial = s.fserial := by rcases s.emit_or o with h | h <;> rw [h]
@[simp] theorem State.emit_mon (o : Out) : (s.emit o).mon = s.mon := by rcases s.emit_or o with h | h <;> rw [h]
@[simp] theorem State.emit_cross (o : Out) : (s.emit o).cross = s.cross := by rcases s.emit_or o with h | h <;> rw [h]
@[simp] theorem State.emit_pwr (o : Out) : (s.emit o).pwr = s.pwr := by rcases s.emit_or o with h | h <;> rw [h]
@[simp] theorem State.emit_wh (o : Out) : (s.emit o).wh = s.wh := by rcases s.emit_or o with h | h <;> rw [h]
@[simp] theorem State.emit_boot (o : Out) : (s.emit o).boot = s.boot := by rcases s.emit_or o with h | h <;> rw [h]

end Sys2Proof.Machine
end

