-- ==== Sys2Proof/Tests/Slice0.lean ====
section
/-! SUPPORT. Tests of the model by closed evaluation: what WellFormed refuses, worked examples and tables of the spec, and for every
statement with hypotheses a state and operands that meet them (test_witness_...). -/

namespace Sys2Proof.Tests

set_option Elab.async false

open Sys2Proof Sys2Proof.Machine

/-- The state after a command; s itself where it stops. -/
def after (i : Instr) (s : State) : State := match exec i s with
  | .next t => t
  | _ => s

/-- Fields of BAR0 words written one after another. -/
def set (l : List (Fld × Nat)) (s : State) : State := l.foldl (fun t e => t.wr e.1 e.2) s

/-- Domains turned on. -/
def on (l : List Nat) (s : State) : State := set (l.map (fun d => (R.PD_STAT_STATE d, 2))) s

/-- Core 0 of cluster 0 on and running, with registers and a status word. -/
def running (g : List (Nat × Long)) (st : Grain := 0) : State :=
  { on [3, 4, 64] State.reset with cores := [(0, { g := g, st := st, run := .running })] }

/-- Core 0, guard P0. -/
def x0 : Iss := { core := .sample 0 0, guard := 0 }

/-- Mailbox 0 runs rings of 16 entries under a steward that takes commands; one command waits. -/
def serving : State :=
  set [(R.MBX_GSTAT_READY, 1), (R.MB_CTRL_EN 0, 1), (R.MB_CTRL_CMD_LOG2 0, 4), (R.MB_CTRL_CPL_LOG2 0, 4), (R.MB_STAT_STATE 0, 1), (R.MB_DB_TAIL 0, 1), (R.BOOT_STAT_PHASE, 2)]
    { State.reset with boot := { rom := false } }

/-- The same with a session in the Crypto Officer role, or in the User role. -/
def withRole (co : Bool) (s : State) : State := { s with host := { s.host with chans := [(0, { sess := some ⟨1, co, 0, 1⟩ })] } }

/-- A direct command of mailbox 0 with n octets of payload and room for 4,096 octets of data. -/
def hdr (n : Nat) : BHdr := ⟨0, 7, 1, BitVec.ofNat 32 n, true, false, 0, 0x1000, 65536, .ok⟩

/-- Does the framing let a direct command of n octets act, with at most most octets of data, in a state s? -/
def framedB (s : State) (n most : Nat) (role : Option Bool) : Bool :=
  decide (n ≤ 96) && decide (most ≤ 65536) && s.canStart 0 && !s.boot.recovery &&
    (match (s.chan 0).sess with
      | none => role.isNone
      | some x => decide (s.time < x.expires) && (match role with
        | none => true
        | some co => x.co == co))

theorem framed_hdr (s : State) (n : Nat) (most : Nat := 0) (role : Option Bool := none) (h : framedB s n most role = true) :
    Says.framed s (hdr n) n most role := by
  simp only [framedB, Bool.and_eq_true, decide_eq_true_eq, Bool.not_eq_true'] at h
  obtain ⟨⟨⟨⟨hn, hm⟩, hc⟩, hr⟩, hs⟩ := h
  have h0 : (hdr n).ch.toNat = 0 := rfl
  refine ⟨?_, ?_, hr, rfl, ?_, rfl, (show 0x1000 % 8 = 0 by decide), ?_, rfl, ?_, Or.inr ?_, ?_, ?_⟩
  · rw [h0]; decide
  · rw [h0]; exact hc
  · show (7 : BitVec 16) ≠ 0xFFFF; decide
  · exact hn
  · show (BitVec.ofNat 32 n).toNat = n
    simp; omega
  · exact hm
  · rw [h0]; intro x hx; rw [hx] at hs
    simp only [Bool.and_eq_true, decide_eq_true_eq] at hs; exact hs.1
  · rw [h0]
    cases hq : (s.chan 0).sess with
    | none => rw [hq] at hs; cases role with
      | none => trivial
      | some co => simp at hs
    | some x => rw [hq] at hs; cases role with
      | none => trivial
      | some co =>
        simp only [Bool.and_eq_true, decide_eq_true_eq, beq_iff_eq] at hs
        exact ⟨x, rfl, hs.2⟩

/-- An indirect command of mailbox 0 with n octets of payload. -/
def ihdr (n : Nat) : BHdr := { hdr n with ind := true, paddr := 0x2000 }

theorem framed_ihdr (s : State) (n : Nat) (most : Nat := 0) (role : Option Bool := none) (h : framedB s 0 most role = true) (hn : 0 < n ∧ n ≤ 16777216) :
    Says.framed s (ihdr n) n most role := by
  obtain ⟨a, b, c, d, e, f, g, _, i, _, k, l, m⟩ := framed_hdr s 0 most role h
  refine ⟨a, b, c, d, e, f, g, ?_, i, ?_, k, l, m⟩
  · exact ⟨(show 0x2000 % 8 = 0 by decide), hn⟩
  · show (BitVec.ofNat 32 n).toNat = n
    simp; omega

/-! ### Instructions of a core: every statement about a register instruction asks Ready alone -/

theorem test_ready : Ready (running []) x0 1 ∧ Ready (running []) x0 2 := by
  constructor <;> unfold Ready <;> decide

theorem test_witness_MoveResults : Ready (running [(1, 5)]) x0 1 ∧ Ready (running [(1, 5)]) x0 2 := by
  constructor <;> unfold Ready <;> decide

theorem test_witness_AddSubResults : Ready (running [(1, 5), (2, 7)] 2) x0 1 ∧ Ready (running [(1, 5), (2, 7)] 2) x0 2 := by
  constructor <;> unfold Ready <;> decide

theorem test_witness_LogicResults : Ready (running []) x0 1 ∧ Ready (running []) x0 2 := test_ready

theorem test_witness_ShiftResults : Ready (running [(1, 1), (2, 63)]) x0 1 ∧ Ready (running [(1, 1), (2, 63)]) x0 2 := by
  constructor <;> unfold Ready <;> decide

theorem test_witness_CountResults : Ready (running []) x0 1 ∧ Ready (running []) x0 2 := test_ready

/-- The narrowest and the widest field, and the two sides of the illegal ones. -/
theorem test_witness_FieldResults : Ready (running []) x0 2 ∧ (1 ≤ (1 : BitVec 6).toNat ∧ (39 : BitVec 6).toNat + (1 : BitVec 6).toNat ≤ 40) ∧
    (1 ≤ (40 : BitVec 6).toNat ∧ (0 : BitVec 6).toNat + (40 : BitVec 6).toNat ≤ 40) ∧ (0 : BitVec 6).toNat = 0 ∧
    40 < (1 : BitVec 6).toNat + (40 : BitVec 6).toNat := ⟨test_ready.2, by decide, by decide, by decide, by decide⟩

theorem test_witness_DualResults : Ready (running []) x0 1 ∧ Ready (running []) x0 2 ∧ (19 : BitVec 5).toNat < 20 ∧ 20 ≤ (20 : BitVec 5).toNat :=
  ⟨test_ready.1, test_ready.2, by decide, by decide⟩

/-- A gap, a code, the long gap, a value that rounds to a tie away from zero in range 1, and the least that saturates. -/
theorem test_witness_SampleFormatResults : Ready (running [(1, 0x80000)]) x0 2 ∧
    (∀ a ∈ [(0xE0000 : Long), 0x80000, 0x8000000000], Ready (running [(1, a)]) x0 1) ∧
    (|(131071 : Int)| ≤ 131071 ∧ 2 * |(131071 : Int) - 131071 * 16 ^ 0| ≤ 16 ^ 0) ∧
    (2 * |(131080 : Int) - 8193 * 16 ^ 1| ≤ 16 ^ 1 ∧ (2 * |(131080 : Int) - 8193 * 16 ^ 1| = 16 ^ 1 → |(131080 : Int)| < |8193| * 16 ^ 1) ∧
      ∀ j, j < 1 → 262143 * 16 ^ j ≤ 2 * |(131080 : Int)|) ∧ 262143 * 16 ^ 3 ≤ 2 * |(536868864 : Int)| := by
  refine ⟨by unfold Ready; decide, ?_, by decide, by decide, by decide⟩
  intro a h; simp only [List.mem_cons, List.not_mem_nil, or_false] at h
  rcases h with rfl | rfl | rfl <;> unfold Ready <;> decide

theorem test_witness_PredicateResults : Ready (running []) x0 2 ∧ ((1 : BitVec 3) ≠ 2 ∨ (1 : BitVec 3) = 0) ∧ ((0 : BitVec 3) ≠ 0 ∨ (0 : BitVec 3) = 0) ∧
    (11 : BitVec 4).toNat < 12 ∧ (13 : BitVec 4).toNat < 14 := ⟨test_ready.2, by decide, by decide, by decide, by decide⟩

theorem test_witness_AccumulatorResults : Ready (running []) x0 2 := test_ready.2

/-! ### Memory, queue and block instructions -/

/-- G1 = 0x100 and G2 = 0x102 in the local store, G3 the count or increment. -/
def mem0 (n : Long) : State := running [(1, 0x100), (2, 0x102), (3, n), (31, 0x200)]

theorem test_witness_LoadResults : Ready (mem0 0) x0 1 ∧ Ready (mem0 0) x0 2 ∧ grainAt (mem0 0) 0 0x100 false (keyLocal 0 0x100) ∧
    longAt (mem0 0) 0 0x100 false (keyLocal 0 0x100) (keyLocal 0 0x101) := by
  refine ⟨?_, ?_, ?_, ?_⟩
  · unfold Ready; decide
  · unfold Ready; decide
  · unfold grainAt; decide
  · unfold longAt; decide

/-- An odd long under UNAL. -/
theorem test_witness_LoadResults_odd : let s := { mem0 0 with cores := [(0, { (mem0 0).core 0 with mode := 0xF0000 })] }
    Ready s x0 1 ∧ longAt s 0 0x101 false (keyLocal 0 0x101) (keyLocal 0 0x102) := by
  constructor
  · unfold Ready; decide
  · unfold longAt; decide

theorem test_witness_StoreResults : Ready (mem0 0) x0 1 ∧ Ready (mem0 0) x0 2 ∧ grainAt (mem0 0) 0 0x100 true (keyLocal 0 0x100) ∧
    longAt (mem0 0) 0 0x100 true (keyLocal 0 0x100) (keyLocal 0 0x101) := by
  refine ⟨?_, ?_, ?_, ?_⟩
  · unfold Ready; decide
  · unfold Ready; decide
  · unfold grainAt; decide
  · unfold longAt; decide

/-- Old long 0 equal to Gd = G0 and not; and an odd address. -/
theorem test_witness_AtomicResults : Ready (mem0 0) x0 2 ∧ longAt (mem0 0) 0 0x100 true (keyLocal 0 0x100) (keyLocal 0 0x100 + 1) ∧
    (mem0 0).isReg 0 0x100 = false ∧ (mem0 0).isReg 0 (addrAdd 0x100 1) = false ∧
    longOf (mem0 0) (keyLocal 0 0x100) (keyLocal 0 0x100 + 1) = ((mem0 0).core 0).gr 0 ∧
    longOf (mem0 0) (keyLocal 0 0x100) (keyLocal 0 0x100 + 1) ≠ ((mem0 0).core 0).gr 1 ∧ (0x101 % 2 = 1 ∧ (mem0 0).touches 0 0x101 2 = false) := by
  refine ⟨by unfold Ready; decide, by unfold longAt; decide, by decide, by decide, by decide, by decide, by decide⟩

/-- Queue 5 (G4) enabled with room, or disabled and empty; a message of one long waiting. -/
def queued (x : Queue) : State := { running [(1, 0x100), (4, 5)] with qeng := { qs := [(5, x)] } }

theorem test_witness_QueueInstructionResults :
    (let s := queued { en := true, priv := false }
     Ready s x0 1 ∧ Says.bufferAt s 0 0x100 1 false (keyLocal 0 0x100) ∧ Says.accepts s 5) ∧
    (let s := queued { en := true, priv := false, limit := 1, msgs := [{ longs := [9] }] }
     Ready s x0 1 ∧ Says.bufferAt s 0 0x100 1 false (keyLocal 0 0x100) ∧ ¬ Says.accepts s 5 ∧ Says.bufferAt s 0 0x100 8 true (keyLocal 0 0x100) ∧
      (s.queue 5).broken = false) ∧
    (let s := queued { en := true, priv := false }
     Says.bufferAt s 0 0x100 8 true (keyLocal 0 0x100) ∧ (s.queue 5).msgs = []) := by
  refine ⟨⟨?_, ?_, ?_⟩, ⟨?_, ?_, ?_, ?_, ?_⟩, ?_, ?_⟩
  · unfold Ready; decide
  · unfold Says.bufferAt longAt; decide
  · unfold Says.accepts; decide
  · unfold Ready; decide
  · unfold Says.bufferAt longAt; decide
  · unfold Says.accepts; decide
  · unfold Says.bufferAt longAt; decide
  · decide
  · unfold Says.bufferAt longAt; decide
  · decide

/-- Elements at 0x100 (G1) and 0x102 (G2), count G3 = 0 and 1. -/
theorem test_witness_BlockInstructionResults : Ready (mem0 0) x0 2 ∧ Ready (mem0 1) x0 2 ∧ ((mem0 0).core 0).gr 3 = 0 ∧ ((mem0 1).core 0).gr 3 = 1 ∧
    grainAt (mem0 1) 0 0x100 true (keyLocal 0 0x100) ∧ longAt (mem0 1) 0 0x100 true (keyLocal 0 0x100) (keyLocal 0 0x101) ∧
    grainAt (mem0 1) 0 0x102 false (keyLocal 0 0x102) ∧ longAt (mem0 1) 0 0x102 false (keyLocal 0 0x102) (keyLocal 0 0x103) ∧
    grainAt ((mem0 1).setGrain (keyLocal 0 0x100) 7) 0 0x100 false (keyLocal 0 0x100) := by
  refine ⟨?_, ?_, by decide, by decide, ?_, ?_, ?_, ?_, ?_⟩
  · unfold Ready; decide
  · unfold Ready; decide
  · unfold grainAt; decide
  · unfold longAt; decide
  · unfold grainAt; decide
  · unfold longAt; decide
  · unfold grainAt; decide
/-! ### Control, special registers, side units, exceptions -/

/-- Core 0 as given, its cluster on. -/
def core0 (c : Core) : State := { on [3, 4, 64] State.reset with cores := [(0, c)] }

theorem test_witness_JumpResults : Ready (core0 { run := .running, g := [(1, 0x40)], st := 0x8000, l0 := ⟨3, 0, 9⟩ }) x0 1 ∧ Ready (core0 { run := .running }) x0 2 := by
  constructor <;> unfold Ready <;> decide

/-- No level, level 0, both levels active; count 0 and 1; len 0 and 1. -/
theorem test_witness_LoopResults :
    (let s := core0 { run := .running, g := [(1, 1)] }
     Ready s x0 2 ∧ (s.core 0).la0 = false ∧ (s.core 0).la1 = false ∧ (s.core 0).gr 1 ≠ 0 ∧ (s.core 0).gr 2 = 0) ∧
    (let s := core0 { run := .running, g := [(1, 1)], st := 0x8000 }
     Ready s x0 2 ∧ (s.core 0).la0 = true ∧ (s.core 0).la1 = false) ∧
    (let s := core0 { run := .running, g := [(1, 1)], st := 0x18000 }
     Ready s x0 2 ∧ (s.core 0).la0 = true ∧ (s.core 0).la1 = true) := by
  refine ⟨⟨by unfold Ready; decide, ?_⟩, ⟨by unfold Ready; decide, ?_⟩, by unfold Ready; decide, ?_⟩ <;> decide

theorem test_witness_RetxResult : let s := core0 { run := .running, g := [(31, 0x200)] }
    let k := keyLocal 0 0x200
    Ready s x0 1 ∧ (∀ j, j < 8 → longAt s 0 (addrAdd ((s.core 0).gr 31).toNat (2 * j)) false (k + 2 * j) (k + 2 * j + 1)) ∧ ((s.core 0).gr 31).toNat % 2 = 0 ∧
      (longOf s (k + 2) (k + 3)).getLsbD stLA0 = false := by
  refine ⟨by unfold Ready; decide, by unfold longAt; decide, by decide, by decide⟩

theorem test_witness_WaitInstructionResults :
    (let s := core0 { run := .running }
     Ready s x0 1 ∧ (s.core 0).wake = false ∧ s.bit R.WH_CTRL_CORE_EN = true ∧ Ready (set [(R.BEAT_STAT_RUNNING, 1)] s) x0 1 ∧
       (set [(R.BEAT_STAT_RUNNING, 1)] s).bit R.BEAT_STAT_RUNNING = true ∧ Ready (set [(R.WH_CTRL_CORE_EN, 0)] s) x0 1 ∧ (set [(R.WH_CTRL_CORE_EN, 0)] s).bit R.WH_CTRL_CORE_EN = false) ∧
    (let s := core0 { run := .running, wake := true, skip := true }
     Ready s x0 1 ∧ (s.core 0).wake = true) ∧
    (∀ w : Bool, let s := core0 { run := .bwait 4, wake := w }
     s.active 0 = true ∧ (s.core 0).run = .bwait 4 ∧ s.boundaryEvent 0 = none ∧ (s.core 0).side = [] ∧ (s.core 0).haltReq = false ∧ (s.core 0).step = false ∧
       s.pwr.slot = [] ∧ (s.core 0).wake = w) := by
  refine ⟨⟨by unfold Ready; decide, by decide, by decide, by unfold Ready; decide, by decide, by unfold Ready; decide, by decide⟩, ⟨by unfold Ready; decide, by decide⟩, by decide⟩

theorem test_witness_SpecialRegisterResults : Ready (core0 { run := .running }) x0 1 ∧ ((core0 { run := .running }).core 0).la0 = false ∧
    Ready State.reset { core := .steward, guard := 0 } 1 ∧ coreIdx .steward = 1024 ∧ (∀ n : BitVec 5, n = 13 ∨ n = 16 ∨ n = 23 → (1 ≤ n.toNat ∧ n.toNat < 14) ∨ (16 ≤ n.toNat ∧ n.toNat < 24)) ∧
    26 ≤ (26 : BitVec 5).toNat := by
  refine ⟨by unfold Ready; decide, by decide, by unfold Ready; decide, by decide, by decide, by decide⟩

/-- EXACT set; EXACT clear and AFD set; a root and a reciprocal with their integers; a side unit whose result waits. -/
theorem test_witness_SideUnitResults :
    (let s := core0 { run := .running, mode := 0x40000, g := [(1, 10), (2, 3)] }
     Ready s x0 2 ∧ (s.core 0).mode.getLsbD mdEXACT = true ∧ 0 ≤ ((s.core 0).gr 1).toInt ∧ 3 * 3 ≤ ((s.core 0).gr 1).toNat ∧ ((s.core 0).gr 1).toNat < (3 + 1) * (3 + 1) ∧
       (2 * 2344687 - 1) * (2 * 2344687 - 1) ≤ 4 * (((s.core 0).gr 1).toNat * 2 ^ 39) ∧ 4 * (((s.core 0).gr 1).toNat * 2 ^ 39) < (2 * 2344687 + 1) * (2 * 2344687 + 1) ∧
       (2 * 6 - 1) * ((s.core 0).gr 1).toInt.natAbs ≤ 2 * 2 ^ 6 ∧ 2 * 2 ^ 6 < (2 * 6 + 1) * ((s.core 0).gr 1).toInt.natAbs ∧ (78 : BitVec 7).toNat < 79) ∧
    (let s := core0 { run := .running, mode := 0x10000, g := [(1, 0x8000000000)] }
     Ready s x0 2 ∧ (s.core 0).mode.getLsbD mdEXACT = false ∧ ((s.core 0).gr 1).toInt < 0 ∧ ((s.core 0).gr 2) = 0) ∧
    (let s := core0 { run := .running, side := [⟨.div, 0, [(4, 7)], 0, false, true, false⟩] }
     ∃ o, (s.core 0).side = o :: [] ∧ o.failed = false ∧ o.cause = 0) := by
  refine ⟨⟨by unfold Ready; decide, ?_⟩, ⟨by unfold Ready; decide, ?_⟩, ⟨_, rfl, rfl, rfl⟩⟩ <;> decide

/-- A side unit's fault, an overrun, and an interrupt of source 5 with priority 0 stand first at the boundary of core 0, with SP at 0x200. -/
theorem test_witness_ExceptionEntryResult :
    (let s := core0 { run := .running, g := [(31, 0x200)], side := [⟨.div, 0x40, [], 1, false, false, true⟩] }
     s.active 0 = true ∧ Says.canEnter s 0 6 (keyLocal 0 0x1F0) ∧ (s.core 0).mask = 0) ∧
    (let s := core0 { run := .running, g := [(31, 0x200)], ovr := some 9 }
     s.boundaryEvent 0 = some (.overrun 9) ∧ Says.canEnter s 0 10 (keyLocal 0 0x1F0)) ∧
    (let s := { core0 { run := .running, g := [(31, 0x200)] } with cics := [(0, { pend := 32, en := 32, cfg := [(5, 0x1000000)], offers := [(5, 0)] })] }
     s.boundaryEvent 0 = some (.irq 5 0) ∧ Says.canEnter s 0 16 (keyLocal 0 0x1F0)) := by
  refine ⟨⟨by decide, ?_, by decide⟩, ⟨by decide, ?_⟩, by decide, ?_⟩ <;> unfold Says.canEnter <;> decide

theorem test_witness_ReservedEncodingEntry : let s := core0 { run := .running, g := [(31, 0x200)] }
    Ready s x0 1 ∧ Ready s x0 2 ∧ Says.canEnter (s.atFetch x0 1) 0 1 (keyLocal 0 0x1F0) ∧ Says.canEnter (s.atFetch x0 2) 0 1 (keyLocal 0 0x1F0) ∧ (s.core 0).mask.toNat < 2 ∧
      12 ≤ (12 : BitVec 4).toNat ∧ 14 ≤ (14 : BitVec 4).toNat ∧ x0.perr = false ∧ decodeGitik x0.core 0x1FFFF 0 = none ∧ gitikLong 0x1FFFF = true ∧ decodeGitik x0.core 0x0FC00 0 = none ∧
      gitikLong 0x0FC00 = false ∧ (⟨3, 1⟩ : AccArg).ext ≠ 0 := by
  refine ⟨by unfold Ready; decide, by unfold Ready; decide, by unfold Says.canEnter; decide, by unfold Says.canEnter; decide, by decide, by decide, by decide, by decide, by decide, by decide, by decide, by decide, by decide⟩

theorem test_witness_CoreEventResults :
    (let s := core0 { run := .running, leash := 1, shadow := 1 }
     let u := core0 { run := .running, leash := 2, shadow := 2 }
     s.active 0 = true ∧ (s.core 0).leash = 1 ∧ (s.core 0).shadow = 1 ∧ u.active 0 = true ∧ (u.core 0).leash ≠ 1 ∧ (u.core 0).shadow ≠ 1 ∧ s.coreOn 0 = true ∧ s.domOn (domCluster 0) = true ∧ s.wh.haltWait = [] ∧ s.rd R.WH_FAULT_EN_R523 / 2 % 2 = 0 ∧ (s.core 0).takes = true) ∧
    (let s := { core0 { run := .halted 4, report := some [1, 2, 3, 4, 5, 6] } with qeng := { qs := [(0xFFBF, { en := true, priv := true })] } }
     (s.core 0).report = some [1, 2, 3, 4, 5, 6] ∧ s.domOn domQueue = true ∧ Says.accepts s 0xFFBF ∧ s.rd R.FR_SINK_V = 0) := by
  refine ⟨by decide, by decide, by decide, ?_, by decide⟩
  unfold Says.accepts; decide

/-! ### The beat, time and commits -/

theorem test_nolink : Says.noLink State.reset := by unfold Says.noLink; decide

/-- First start; a second with an old grid; a MEMBER; the stop sequence. -/
theorem test_witness_BeatStartStopResults :
    (let s := State.reset
     Says.noLink s ∧ s.rd R.BEAT_CTRL_SRC_SEL = 0 ∧ (0x80000000 : Reg32).extractLsb' 24 4 = 0 ∧ (0xC0000000 : Reg32).extractLsb' 24 4 = 0 ∧ s.domOn domSteward = true ∧
       s.role = roleAlone ∧ s.beat.phase = .stopped ∧ s.beat.everStarted = false ∧ s.bit R.BEAT_STAT_TAI_VALID = false ∧ 0 < s.periodU ∧
       (set [(R.BEAT_STAT_TAI_VALID, 1)] s).bit R.BEAT_STAT_TAI_VALID = true) ∧
    (let s := { set [(R.BEAT_STAT_ROLE, 2)] State.reset with beat := { everStarted := true, num := 9, lastEdge := 1 } }
     Says.noLink s ∧ s.role = roleMember ∧ s.beat.phase = .stopped ∧ 0 < s.periodU) ∧
    (let s := { State.reset with beat := { phase := .stopRamp } }
     s.beat.phase = .stopRamp ∧ Says.noLink s) ∧
    (let s := { State.reset with beat := { phase := .running } }
     s.beat.phase = .running ∧ (0 : Reg32).getLsbD 31 = false) := by
  unfold Says.noLink; decide

theorem test_witness_ServoResults :
    (let s := set [(R.PPS_CTRL_EN, 1), (R.BEAT_CTRL_SRC_SEL, 1), (R.DISC_CTRL_SLEW_MAX, 0)] State.reset
     Says.noLink s ∧ s.domOn domSteward = true ∧ s.role = roleAlone ∧ s.rd R.BEAT_STAT_LOCK < 3 ∧ s.bit R.BEAT_STAT_RUNNING = false ∧ 0 < (4 : BitVec 4).toNat ∧ (4 : BitVec 4).toNat < 5 ∧
       100 ≤ (100 : BitVec 16).toNat ∧ s.rd R.BEAT_CTRL_SRC_SEL = 1 ∧ s.bit R.BEAT_STAT_DISC_PEND = false ∧ s.rd R.DISC_CTRL_SLEW_MAX = 0 ∧ s.bit R.BEAT_STAT_TAI_VALID = false ∧
       s.beat.ppsSec = none ∧ s.bit R.PPS_CTRL_EN = true ∧ (99 : BitVec 16).toNat < 100 ∧ 4 < (5 : BitVec 4).toNat) ∧
    (let s := set [(R.BEAT_CTRL_SRC_SEL, 1), (R.BEAT_STAT_LOCK, 2)] State.reset
     s.rd R.BEAT_CTRL_SRC_SEL ≠ 0 ∧ s.rd R.BEAT_STAT_LOCK = 2 ∧ s.rd R.WH_FAULT_EN_R523 / 8 % 2 = 0) ∧
    (let d : DiscRec := ⟨3, 0, 0, 0, 0, 0, 0⟩
     let s := { State.reset with beat := { wakeRec := some d } }
     s.beat.wakeRec = some d ∧ s.discUnconfigured (discRec d) = true) ∧
    (let d : DiscRec := ⟨3, 0, 0, 0, 0, 0, 0⟩
     let s := { set [(R.J_STAT_STATE, 4)] State.reset with beat := { wakeRec := some d } }
     s.discUnconfigured (discRec d) = false ∧ s.acceptsDisc (discRec d) = false) := by
  unfold Says.noLink; decide

theorem test_witness_ReferenceResults :
    (let f : IrigFrame := { refOk := true, bcdOk := true, doy := 10, hour := 1, minute := 2, sec := 3, year := some 26, sbs := none }
     let s := set [(R.IRIG_CTRL_MODE, 1)] State.reset
     let n := (s.irigSec f).getD 0
     let u := { set [(R.BEAT_CTRL_SRC_SEL, 2), (R.DISC_CTRL_SLEW_MAX, 0)] s with beat := { irigLast := some (n - 1) } }
     Says.noLink s ∧ s.domOn domSteward = true ∧ s.rd R.BEAT_STAT_LOCK < 3 ∧ s.rd R.IRIG_CTRL_MODE = 1 ∧ f.refOk = true ∧ f.bcdOk = true ∧ f.sbs = none ∧ s.rd R.BEAT_CTRL_SRC_SEL ≠ 2 ∧
       Says.noLink u ∧ u.domOn domSteward = true ∧ u.rd R.BEAT_STAT_LOCK < 3 ∧ u.rd R.IRIG_CTRL_MODE = 1 ∧ u.rd R.BEAT_CTRL_SRC_SEL = 2 ∧ u.irigSec f = some n ∧ u.beat.irigLast = some (n - 1) ∧ n - 1 + 1 = n ∧
       (set [(R.BEAT_STAT_TAI_VALID, 1)] u).bit R.BEAT_STAT_TAI_VALID = true ∧ u.bit R.BEAT_STAT_TAI_VALID = false ∧ 0 ≤ (n : Int) * 1000000000 - u.packRel u.time / nsU ∧
       (n : Int) * 1000000000 - u.packRel u.time / nsU < 2 ^ 48 * 1000000000 ∧ u.role = roleAlone ∧ u.bit R.BEAT_STAT_DISC_PEND = false ∧ u.rd R.DISC_CTRL_SLEW_MAX = 0) ∧
    (let s := { set [(R.SVC_STAT_LINK, 1), (R.BEAT_STAT_LOCK, 2)] State.reset with host := { ptp := { State.reset.host.ptp with flags := 2 } } }
     s.bit R.SVC_STAT_LINK = true ∧ s.rd R.BEAT_CTRL_SRC_SEL ≠ 3 ∧ s.role = roleAlone ∧ s.rd R.BEAT_STAT_LOCK = 2 ∧ s.host.ptp.flags.getLsbD 1 = true ∧ (1 : Octet) ≠ s.host.ptp.domain) ∧
    (let s := set [(R.SVC_STAT_LINK, 1), (R.BEAT_CTRL_SRC_SEL, 3)] State.reset
     s.bit R.SVC_STAT_LINK = true ∧ s.rd R.BEAT_CTRL_SRC_SEL = 3) ∧
    (let s := { set [(R.BEAT_CTRL_SRC_SEL, 4), (R.BEATIN_CTRL_DIV, 1), (R.DISC_CTRL_SLEW_MAX, 0)] State.reset with beat := { ran := true } }
     let u := { s with beat := { s.beat with beatInLast := some 0 }, force := s.hreg }
     let w := (u.rdF R.BEATIN_CTRL_DIV : Int) * u.periodU
     let near := { u with time := w }
     s.rd R.BEAT_CTRL_SRC_SEL = 4 ∧ s.beat.ran = true ∧ s.beat.beatInLast = none ∧ u.beat.beatInLast = some 0 ∧ u.bit R.BEAT_STAT_DISC_PEND = false ∧ u.rd R.BEAT_STAT_LOCK < 3 ∧
       0 < u.rdF R.BEATIN_CTRL_DIV ∧ 0 < u.periodU ∧ u.role = roleAlone ∧ u.rd R.DISC_CTRL_SLEW_MAX = 0 ∧ w < 5000 * ((u.time - 0 - w).natAbs : Int) ∧
       near.beat.beatInLast = some 0 ∧ 0 < near.periodU ∧ near.role = roleAlone ∧ near.bit R.BEAT_STAT_DISC_PEND = false ∧ near.rd R.DISC_CTRL_SLEW_MAX = 0 ∧
       5000 * ((near.time - 0 - (near.rdF R.BEATIN_CTRL_DIV : Int) * near.periodU).natAbs : Int) ≤ w) ∧
    State.reset.epochTai + 2 ^ 56 < 2 ^ 48 * 1000000000 ∧ (set [(R.BEAT_STAT_RUNNING, 1)] State.reset).bit R.BEAT_STAT_RUNNING = true ∧ State.reset.rd R.BEAT_STAT_LOCK ≠ 3 := by
  unfold Says.noLink; decide

/-- A Sync to a node whose TAI is valid, and to one whose is not: the arrival stamped at either 0.25 ns step. -/
theorem test_witness_ReferenceResults_sync :
    let s := set [(R.BEAT_CTRL_SRC_SEL, 3), (R.DISC_CTRL_SLEW_MAX, 0), (R.BEAT_STAT_TAI_VALID, 1)] State.reset
    let e : Int := (4 * (5 * 1000000000 + 6) * (nsU / 4) - State.reset.packRel (0 * (nsU / 4))) / nsU
    Says.noLink s ∧ s.domOn domSteward = true ∧ s.rd R.BEAT_STAT_LOCK < 3 ∧ s.rd R.BEAT_CTRL_SRC_SEL = 3 ∧ s.bit R.BEAT_STAT_TAI_VALID = true ∧ s.role = roleAlone ∧
      s.bit R.BEAT_STAT_DISC_PEND = false ∧ s.rd R.DISC_CTRL_SLEW_MAX = 0 ∧ 0 ≤ e ∧ e < 2 ^ 48 * 1000000000 := by
  unfold Says.noLink; decide

/-- A running beat with and without a first edge still to come; a cluster whose guard time has passed; a cluster ready to post. -/
theorem test_witness_EdgeAndCaptureResults :
    (let s := { State.reset with beat := { phase := .running, first := some (5, 100) } }
     s.domOn domSteward = true ∧ s.beat.phase = .running ∧ s.pwr.slot = [] ∧ s.beat.pendStep = none ∧ s.fab.newGrid = none ∧ 0 < s.periodU ∧ Says.noLink s ∧ s.role = roleAlone ∧
       s.beat.lastEdge ≤ 100) ∧
    (({ State.reset with beat := { phase := .running } } : State).beat.first = none) ∧ State.reset.beat.phase = .stopped ∧ (3 : Reg32).getLsbD 0 = true ∧
    (let s := { on [3, 4, 64] State.reset with cores := [(0, { run := .running })], beat := { phase := .running, num := 3, ran := true } , time := 1000000000 * nsU }
     s.domOn (domCluster 0) = true ∧ s.reached 0 2 = false ∧ s.overrunDue 0 = true ∧ s.overrunDue 1 = false) ∧
    (let s := { on [3, 4, 64] State.reset with clus := [(0, { posted := false })] }
     (s.clu 0).posted = false ∧ s.domOn (domCluster 0) = true ∧ s.inReady 0 = true ∧ s.domOn domQueue = true ∧ Says.accepts s (s.readyQ 0)) ∧
    (({ State.reset with clus := [(0, { posted := true })] } : State).clu 0).posted = true := by
  unfold Says.noLink Says.accepts; decide

theorem test_witness_CommitResults :
    (let s := State.reset
     Says.noLink s ∧ s.pwr.slot = [] ∧ (1 : Reg32).getLsbD 0 = true ∧ (1 : Reg32).getLsbD 2 = false ∧ s.bit R.COMMIT_STAT_PENDING = false ∧ s.beat.phase = .stopped ∧
       (4 : Reg32).getLsbD 0 = false ∧ (4 : Reg32).getLsbD 2 = true ∧ s.beat.commit = none ∧ s.role ≠ roleMember) ∧
    (let s := { State.reset with beat := { phase := .running, lastEdge := 1 } }
     s.beat.phase ≠ .stopped ∧ s.beat.first = none ∧ 0 < s.periodU ∧ (3 : Reg32).getLsbD 1 = true ∧ s.edgeAt 0 < s.time + 2000 * nsU) ∧
    (let c : CommitReq := ⟨1, false, false, 0, false⟩
     let s := { set [(R.COMMIT_STAT_PENDING, 1)] State.reset with beat := { phase := .running, lastEdge := 0, commit := some c } }
     Says.noLink s ∧ s.pwr.slot = [] ∧ s.bit R.COMMIT_STAT_PENDING = true ∧ s.beat.commit = some c ∧ s.cutoff = false ∧ s.role = roleAlone ∧ c.immediate = false ∧ s.beat.phase ≠ .stopped ∧ c.target = (s.edgeFrom s.beat.lastEdge).1) ∧
    (let c : CommitReq := ⟨0, false, true, 0, false⟩
     let s := { set [(R.COMMIT_STAT_PENDING, 1)] State.reset with beat := { commit := some c } }
     let u := set [(R.PERIOD_INT_V, 0)] s
     s.immediateDue = true ∧ s.commitFails = [] ∧ u.immediateDue = true ∧ u.commitFails ≠ []) ∧
    (let c : CommitReq := ⟨1, false, false, 0, false⟩
     let s := { set [(R.BEAT_STAT_ROLE, 1)] State.reset with beat := { commit := some c } }
     s.role = roleMaster ∧ s.beat.commit = some c ∧ s.pwr.slot = []) := by
  unfold Says.noLink; decide

/-- No port talks after reset, so no plan changes; no port has a plan or waits for auto-binding. -/
theorem test_witness_CommitResults_ports :
    (∀ p, State.reset.planChanges p = false) ∧
    (∀ p, (State.reset.port p).bind = none ∧ ∀ x, (State.reset.port p).plan = some x → x.byCommit = false) := by
  refine ⟨fun p => ?_, fun p => ⟨rfl, fun x h => ?_⟩⟩
  · have h : State.reset.cfgsNew = [] ∧ State.reset.cfgsIn = [] ∧ State.reset.periodStaged = false := by decide
    have hd : (State.reset.port p).desc = none := rfl
    simp [State.planChanges, planOf, h, hd]
  · cases h

/-- A member and a period its configuration in force holds with; the same with a period of 0. -/
theorem test_witness_CommitResults_period :
    let s := set [(R.BEAT_STAT_ROLE, 2)] State.reset
    let x (a : Nat) : PeriodChange := ⟨a, 0, 1000, false, false⟩
    Says.noLink s ∧ s.role = roleMember ∧ s.beat.commit = none ∧ State.reset.role ≠ roleMember ∧
      ({ s with fab := { s.fab with period := some (x (s.rdW R.PERIOD_INT)) } }).periodConflicts (s.word R.PERIOD_INT) 0 = [] ∧
      ({ s with fab := { s.fab with period := some (x 0) } }).periodConflicts 0 0 ≠ [] := by
  unfold Says.noLink; refine ⟨by decide, by decide, by decide, by decide, by decide +kernel, by decide +kernel⟩

/-- CIC 0 on; the same off; a CIC number no row carries. -/
theorem test_witness_SourceVectorStores :
    ((0 : BitVec 7).toNat ≤ 64 ∧ (on [64] State.reset).domOn (domCic 0) = true) ∧ ((64 : BitVec 7).toNat ≤ 64 ∧ State.reset.domOn (domCic 64) = true) ∧
    ((63 : BitVec 7).toNat ≤ 64 ∧ State.reset.domOn (domCic 63) = false) ∧ 64 < (65 : BitVec 7).toNat := by decide

/-- A source on core 15's stack, one that is not; a hold-off timer in ticks. -/
theorem test_witness_CicRegisterStores :
    (let s := { on [64] State.reset with cics := [(0, { prios := [(15, [(3, 7)])], active := 128 })] }
     (0 : BitVec 7).toNat ≤ 64 ∧ s.domOn (domCic 0) = true ∧ (0 : BitVec 7).toNat < 64 ∧ (3, 7) ∈ (s.cic 0).stack (15 : BitVec 4).toNat ∧
       ((7 : Long).extractLsb' 0 8).toNat = 7 ∧ ((s.cic 0).holdOff (15 : BitVec 4).toNat).runUnit = false ∧
       (({ s with cics := [(0, { hold := [(15, { unit := true, value := 1, remain := 1, runUnit := true })] })] } : State).cic 0).holdOff (15 : BitVec 4).toNat = { unit := true, value := 1, remain := 1, runUnit := true }) ∧
    (State.reset.domOn (domCic 64) = true ∧ (64 : BitVec 7).toNat ≤ 64 ∧ (0 : BitVec 4) = 0) := by decide

theorem test_witness_CicRegisterStores_stray : ∀ p, (p, 7) ∉ (State.reset.cic 64).stack 0 := by
  intro p; have h : (State.reset.cic 64).stack 0 = [] := by decide
  rw [h]; exact List.not_mem_nil

/-- Device source 64 forwarded to CIC 64, to a CIC whose domain is off, to MSI-X masked and unmasked; a pending vector 63; a capture of a domain that is on, and of one that is off with its suppliers on. -/
theorem test_witness_DeviceSourceResults :
    ((63 : BitVec 7).toNat < 64 ∧ (on [3, 4, 127] State.reset).domOn (domCluster 63) = true ∧ (1 : Long).getLsbD 0 = true) ∧
    (let s := { set [(R.DEV_ROUTE_CIC_EN 64, 1), (R.DEV_ROUTE_DEST 64, 64), (R.DEV_ROUTE_HOST_EN 64, 1)] State.reset with dev := { fwd := [(64, 5)], msixEn := true } }
     let off := set [(R.DEV_ROUTE_DEST 64, 63)] s
     let masked := { s with dev := { s.dev with msixFmask := true } }
     ((64 : BitVec 7).toNat, 5) ∈ s.dev.fwd ∧ s.bit (R.DEV_ROUTE_CIC_EN 64) = true ∧ s.rd (R.DEV_ROUTE_DEST 64) ≤ 64 ∧ s.domOn (domCic (s.rd (R.DEV_ROUTE_DEST 64))) = true ∧
       off.rd (R.DEV_ROUTE_DEST 64) ≤ 64 ∧ off.domOn (domCic (off.rd (R.DEV_ROUTE_DEST 64))) = false ∧ ((64 : BitVec 7).toNat, 5) ∈ off.dev.fwd ∧ s.bit (R.DEV_ROUTE_HOST_EN 64) = true ∧ s.dev.msixEn = true ∧
       s.dev.msixFmask = false ∧ s.bit (R.MSIX_VCTRL_MASK (s.rd (R.DEV_ROUTE_VEC 64))) = true ∧ (set [(R.MSIX_VCTRL_MASK 0, 0)] s).rd (R.DEV_ROUTE_VEC 64) = 0 ∧
       (set [(R.MSIX_VCTRL_MASK 0, 0)] s).bit (R.MSIX_VCTRL_MASK 0) = false ∧ (s.word R.MSIX_PBA_LO).getLsbD 0 = false ∧
       masked.dev.msixFmask = true ∧ ((64 : BitVec 7).toNat, 5) ∈ masked.dev.fwd ∧ ({ s with dev := { s.dev with msixEn := false } } : State).dev.msixEn = false) ∧
    (let s := { set [(⟨R.MSIX_PBA_HI, 31, 1⟩, 1)] State.reset with dev := { msixEn := true } }
     (0 : BitVec 32).getLsbD 0 = false ∧ s.dev.msixEn = true ∧ s.dev.msixFmask = false ∧
       (∀ u, u < 64 → u ≠ (63 : BitVec 6).toNat → (s.word (if u < 32 then R.MSIX_PBA_LO else R.MSIX_PBA_HI)).getLsbD (u % 32) = false) ∧
       (s.word (if (63 : BitVec 6).toNat < 32 then R.MSIX_PBA_LO else R.MSIX_PBA_HI)).getLsbD ((63 : BitVec 6).toNat % 32) = true) ∧
    (let x : Capture := { slot := 63, src := 24, dom := 127 }
     let s := { on [0, 1, 3, 4] State.reset with dev := { captures := [x] } }
     let u := on [127] s
     s.dev.captures = [x] ∧ s.pwr.slot = [] ∧ isDomain x.dom = true ∧ (∀ y ∈ suppliers x.dom, s.domOn y = true ∧ ∀ z ∈ suppliers y, s.domOn z = true) ∧
       s.domOn x.dom = false ∧ s.rd (R.PD_STAT_STATE x.dom) ≠ 2 ∧ s.bit (R.PD_STAT_BUSY x.dom) = false ∧ s.bit R.BEAT_STAT_RUNNING = false ∧
       u.dev.captures = [x] ∧ u.domOn x.dom = true ∧ (∀ y ∈ suppliers x.dom, u.domOn y = true ∧ ∀ z ∈ suppliers y, u.domOn z = true)) := by decide

theorem test_witness_QueueRegisterResults :
    (let s := { on [3, 4] State.reset with qeng := { qs := [(5, { en := true, priv := false, broken := true, sweeping := true, leaked := 2, stuck := 1 })] } }
     s.domOn domQueue = true ∧ (s.queue (5 : BitVec 16).toNat).broken = true ∧ (s.queue (5 : BitVec 16).toNat).sweeping = true) := by decide

/-! ### Sample ports -/

/-- Port 15 on SPGRP 3, in a state of its own, with a record. -/
def sport (st : Nat) (x : Port) : State := { set [(R.SP_STAT_STATE 15, st)] (on [3, 19] State.reset) with ports := [(15, x)] }

theorem test_witness_PortLinkResults :
    ((sport spOffSt {}).spState 15 = spOffSt ∧ (sport spOffSt {}).domOn (domSp 15) = true ∧ (sport spIdent {}).spState 15 = spIdent ∧ ((sport spIdent {}).port 15).bind = none ∧
      (sport spTraining {}).spState 15 = spTraining ∧ (sport spHold {}).spState 15 = spHold) ∧
    (let s := sport spTraining { window := 3 }
     s.spState 15 = spTraining ∧ (3 : BitVec 2).toNat = (s.port 15).window ∧ (2 : BitVec 2).toNat ≠ (s.port 15).window ∧ s.bit (R.SP_CTRL_LOOP 15) = false ∧
       (7 : BitVec 3).toNat ≠ s.rd (R.SP_CTRL_GEN_SEL 15) ∧ ¬ (1 ≤ s.rd (R.SP_CTRL_GEN_SEL 15) ∧ s.rd (R.SP_CTRL_GEN_SEL 15) ≤ 3)) ∧
    (sport spActive {}).spState 15 = spActive ∧
    (let s := sport spActive { echo := [4, 9] }
     let u := sport spIdent { echo := [4], echoSum := 100 }
     s.spTalks 15 = true ∧ s.bit (R.SP_CTRL_LOOP 15) = false ∧ (0 : BitVec 24).toNat ≤ (0 : BitVec 24).toNat ∧ (4 : BitVec 16).toNat ∈ (s.port 15).echo ∧ (s.port 15).echo.length ≠ 1 ∧
       u.spTalks 15 = true ∧ u.bit (R.SP_CTRL_LOOP 15) = false ∧ (u.port 15).echo = [(4 : BitVec 16).toNat] ∧ (u.port 15).echoSum + ((7 : BitVec 24).toNat - (0 : BitVec 24).toNat) < 2 ^ 28) ∧
    State.reset.rd R.WH_FAULT_EN_R523 / 4 % 2 = 0 ∧ (sport spHold {}).rd R.WH_FAULT_EN_R523 / 16 % 2 = 0 ∧ State.reset.abortPin = false ∧
      ({ State.reset with abortPin := true } : State).abortPin = true := by decide

/-- A descriptor of a module with 2 inputs and 1 drive: version 1, its CRC-32 right. -/
def descr : List Octet :=
  let b : List Octet := [1, 0, 2, 0] ++ List.replicate 8 5 ++ [0, 1, 0, 0, 2, 0, 1, 0] ++ List.replicate 40 0
  let c := crc32 b
  b ++ [BitVec.ofNat 8 c, BitVec.ofNat 8 (c / 256), BitVec.ofNat 8 (c / 65536), BitVec.ofNat 8 (c / 16777216)]

theorem test_witness_PortMessageResults_desc : descOk descr = true ∧ 1 ≠ (parseDesc descr).ident := by decide +kernel

/-- A message tag whose CRC-32 holds for the body. -/
def mtag (kind tag : Nat) (body : List Octet) : MgmtTag := ⟨BitVec.ofNat 8 tag, BitVec.ofNat 32 (mgmtCrc kind tag body)⟩

theorem test_witness_PortMessageResults_tags :
    (mtag 0x02 9 descr).holds 0x02 descr = true ∧ (mtag 0x04 9 [255]).holds 0x04 [255] = true ∧ (mtag 0x05 9 [255, 3]).holds 0x05 [255, 3] = true ∧
    (mtag 0x09 9 (le 2 0xFFFF ++ le 4 1)).holds 0x09 (le 2 0xFFFF ++ le 4 1) = true ∧ (mtag 0x0B 9 (le 2 1 ++ le 6 2 ++ [7])).holds 0x0B (le 2 1 ++ le 6 2 ++ [7]) = true ∧
    (mtag 0x0C 255 []).holds 0x0C [] = true ∧ (MgmtTag.mk 255 0).holds 0x0C [] = false ∧ (mtag 0x0D 9 [9]).holds 0x0D [9] = true ∧
    (let m : SensorMsg := ⟨0xFFFF, 1, 5, 6, 25, [1, 2]⟩
     (mtag 0x0A 9 (sensorBody m)).holds 0x0A (sensorBody m) = true) ∧ (mtag 0x02 9 []).holds 0x02 [] = true ∧ descOk [] = false := by decide +kernel

/-- The block of beat 4 with four samples under plan 1; the same with its trailer spoiled; a header of another plan. -/
theorem test_witness_PortMessageResults_blocks :
    let cs : List PlanChan := [⟨false, 0, 4, 0⟩]
    let s := { sport spActive { expect := some (1, cs), closed := false } with beat := { num := 5 } }
    let l := beatBlockWords 4 1 [1, 2, 3, 4]
    let bad := l.take 3 ++ [0]
    s.spTalks 15 = true ∧ s.bit (R.SP_CTRL_LOOP 15) = false ∧ s.spState 15 = spActive ∧ (s.port 15).closed = false ∧ (s.port 15).got = false ∧ (s.port 15).expect = some (1, cs) ∧
      (let h := l.headD 0; l = h :: l.tail ∧ hdrSync h = 0xB5 ∧ hdrBeat h = (s.beat.num - 1).toNat % 65536 ∧ hdrPlan h = 1 ∧ hdrWords h < l.tail.length ∧ hdrWords h < bad.tail.length ∧ bad.headD 0 = h) ∧
      (InBlock.mk (l.map some) 0 0 0 {}).crcOk = true ∧ (InBlock.mk (bad.map some) 0 0 0 {}).crcOk = false ∧
      hdrPlan ((beatBlockWords 4 2 []).headD 0) ≠ 1 := by decide +kernel

/-- No block by the deadline and no IN context; bindings that wait. -/
theorem test_witness_PortMessageResults_bind :
    (let e : Nat × List PlanChan := (1, [⟨false, 0, 4, 0⟩])
     let s := sport spActive { expect := some e, closed := false }
     (s.port 15).closed = false ∧ s.inOfPort 15 = [] ∧ (s.port 15).expect = some e ∧ s.spState 15 = spActive ∧ (s.port 15).got = false ∧ 0 < planSamples false e.2) ∧
    (let b : BindJob := ⟨0, 0, 0, false⟩
     let x : Template := ⟨0, 16, [0, 0, 0, 0], [0, 0, 0, 0]⟩
     let s := sport spActive { bind := some b, desc := some (parseDesc [1, 0, 2, 0, 5, 5, 5, 5, 5, 5, 5, 5, 0, 1, 0, 0, 2, 0, 1, 0]) }
     let u := { s with str := { s.str with tmpl := [(15, some x)] } }
     (s.port 15).bind = some b ∧ b.committing = false ∧ (set [(R.COMMIT_STAT_PENDING, 1)] s).bit R.COMMIT_STAT_PENDING = true ∧ (u.port 15).bind = some b ∧
       (∃ d, (u.port 15).desc = some d ∧ 0 < d.inCh + d.drvCh - b.bound) ∧ mget (fun _ => none) u.str.tmpl 15 = some x ∧ u.stageFree = true) := by
  refine ⟨by decide, by decide, by decide, by decide, by decide, ⟨_, rfl, by decide⟩, by decide, by decide +kernel⟩

theorem test_witness_PortMessageResults :
    ((sport spIdent {}).spTalks 15 = true ∧ (sport spIdent {}).bit (R.SP_CTRL_LOOP 15) = false ∧ (sport spIdent {}).spState 15 = spIdent ∧ ((sport spIdent {}).port 15).bind = none) ∧
    ((sport spIdent { ident := some 1 }).port 15).ident = some 1 ∧
    (let x : Plan := ⟨255, none, [], none, false⟩
     let s := sport spHold { plan := some x }
     s.spTalks 15 = true ∧ s.bit (R.SP_CTRL_LOOP 15) = false ∧ (s.port 15).plan = some x ∧ (s.port 15).bind = none ∧ x.answer = none ∧ s.inTime x = true ∧ x.id < 256 ∧ x.byCommit = false ∧
       BitVec.ofNat 8 x.id = 255 ∧ s.spState 15 = spHold) ∧
    (let m : Mgmt := ⟨255, 1, [], 3⟩
     ((sport spActive { mgmt := [m] }).port 15).mgmt = [m] ∧ m.tag = (255 : Octet).toNat ∧ m.sends < 4 ∧ 4 ≤ ({ m with sends := 4 } : Mgmt).sends) ∧
    (let s := set [(R.SP_STAT_HOLD_WHY 15, 1)] (sport spHold {})
     s.spState 15 = spHold ∧ s.rd (R.SP_STAT_HOLD_WHY 15) = 1) ∧
    (let x : Plan := ⟨1, some 16, [], none, false⟩
     let s := sport spHold { plan := some x }
     (s.port 15).plan = some x ∧ x.target = some 16 ∧ x.byCommit = false ∧ x.answer = none ∧ (16 - s.beat.num).toNat ≤ 16) := by decide +kernel
/-! ### Streams and reduction -/

/-- A mailbox with a commit pending; ten longs of an IN context; staged parts at the bounds of their operands. -/
theorem test_witness_StreamCommandResults :
    Says.framed serving (hdr (4 + 5 * (List.replicate 10 (0 : Long)).length)) 54 ∧ Says.framed serving (hdr 8) 8 80 ∧ Says.framed serving (hdr 0) 0 ∧
    Says.framed serving (hdr (16 + 5 * (List.replicate 10 (0 : Long)).length)) 66 ∧ Says.framed serving (hdr 13) (8 + 5 * [(1 : Long)].length) 4 ∧
    Says.framed serving (hdr 8) (8 + 5 * ([] : List Long).length) 4 ∧ Says.framed serving (hdr 4) 4 ∧
    Says.framed serving (ihdr 112) (12 + 5 * (List.replicate 20 (0 : Long)).length) ∧
    Says.framed serving (ihdr 12) 12 (4 + 7 * (1024 : BitVec 16).toNat) ∧ Says.framed (set [(R.COMMIT_STAT_PENDING, 1)] serving) (hdr 0) 0 :=
  ⟨framed_hdr _ _ _ _ (by decide), framed_hdr _ _ _ _ (by decide), framed_hdr _ _ _ _ (by decide), framed_hdr _ _ _ _ (by decide),
   framed_hdr _ _ _ _ (by decide), framed_hdr _ _ _ _ (by decide), framed_hdr _ _ _ _ (by decide), framed_ihdr _ _ _ _ (by decide) (by decide),
   framed_ihdr _ _ _ _ (by decide) (by decide), framed_hdr _ _ _ _ (by decide)⟩

theorem test_witness_StreamCommandResults_operands :
    262144 ≤ (262144 : Reg32).toNat ∧ (262143 : Reg32).toNat < 262144 ∧ (set [(R.COMMIT_STAT_PENDING, 1)] serving).bit R.COMMIT_STAT_PENDING = true ∧
    serving.bit R.COMMIT_STAT_PENDING = false ∧ serving.red.stage = [] ∧ serving.stageUsed + (4096 : Reg32).toNat ≤ 4096 ∧ serving.stageUsed < 4096 ∧
    1 ≤ (1 : Reg32).toNat ∧ (258048 : Reg32).toNat + (4096 : Reg32).toNat ≤ 262144 ∧
    (let c := decodeCtx (List.replicate 10 0)
     c.base + ((2 : Reg32).toNat - 1) * (524287 : Reg32).toNat < 2 ^ 19 ∧ 2 ^ 19 ≤ c.base + ((2 : Reg32).toNat - 1) * (524288 : Reg32).toNat ∧
       (c.ctype = tyIn ∨ c.ctype = tyOut → c.channel + ((2 : Reg32).toNat - 1) * (4095 : BitVec 16).toNat ≤ 4095)) ∧
    mget (fun _ => none) serving.str.stageSub (0 : Reg32).toNat = none ∧ serving.stageSubUsed + 256 ≤ 16384 ∧
    (serving.cfg 0).subCnt < [(1 : Long)].length ∧ (63 : Octet).toNat < 64 ∧ (15 : Octet).toNat < 16 ∧ (List.replicate 10 (0 : Long)).length = 10 ∧
    1 ≤ (262144 : Reg32).toNat ∧ (0 : Reg32).toNat + (262144 : Reg32).toNat ≤ 262144 ∧ 1 ≤ (1 : BitVec 16).toNat ∧ (1024 : BitVec 16).toNat ≤ 1024 ∧
    (serving.str.ctx.map (·.1)).Nodup := by decide

/-- No context of the reset table has a gap beat, and the first entry of the subscriber table is free. -/
theorem test_witness_StreamCommandResults_table :
    (∀ i, bitsOf (serving.ctxL i 10) 20 20 = 0) ∧
    (let s := { serving with str := { serving.str with ctx := [(6, 2)] } }
     [(1 : Long), 1].length ≤ (s.cfg 0).subCnt ∧ [(1 : Long), 1] ≠ []) ∧
    ∃ k, k + [(1 : Long)].length ≤ 65536 ∧ ∀ r ∈ serving.subRanges 0, k + [(1 : Long)].length ≤ r.1 ∨ r.1 + r.2 ≤ k := by
  refine ⟨fun i => ?_, by decide, 0, by decide, by decide⟩
  have h : serving.str.ctx = [] := by decide
  have e : (16 * i + 10) % 16 = 10 := by omega
  simp [State.ctxL, h, mget, lookup, bitsOf, ctxLongReset, e]

/-- A state of the kind RFLOW in force at the start of cluster 0's store, and one staged. -/
def rflow : RState := { src := 262143, slot := 3, kind := kRflow, addr := 0, cfg := [] }

theorem test_witness_ReductionCommandResults :
    Says.framed serving (hdr 41) (21 + redPartLen (.stats (List.replicate 4 0))) ∧ Says.framed serving (hdr 8) 8 ∧
    Says.framed serving (hdr 12) 12 (5 * (512 : BitVec 16).toNat) ∧ Says.framed serving (hdr 10) 10 (5 * (4096 : BitVec 16).toNat) ∧
    Says.framed serving (hdr 4) 4 15 ∧ Says.framed serving (hdr 15) (10 + 5 * [(1 : Long)].length) :=
  ⟨framed_hdr _ _ _ _ (by decide), framed_hdr _ _ _ _ (by decide), framed_hdr _ _ _ _ (by decide), framed_hdr _ _ _ _ (by decide),
   framed_hdr _ _ _ _ (by decide), framed_hdr _ _ _ _ (by decide)⟩

theorem test_witness_ReductionCommandResults_states :
    redPart (.stats (List.replicate 4 0)) = some ((1 : Octet).toNat, (List.range 4).zip (List.replicate 4 0) |>.map (fun e => (4 + e.1, e.2))) ∧
    (let s := { serving with red := { serving.red with states := [rflow] } }
     s.rstate 262143 3 = some rflow ∧ (262143 : Reg32).toNat = rflow.src ∧ (3 : Octet).toNat = rflow.slot ∧ rflow.kind = kRflow ∧ s.rstateNew 262143 3 ≠ none ∧
       s.red.stage = [] ∧ mget (fun _ => none) s.str.stage 262143 = none ∧ ({ rflow with kind := kPkvl } : RState).kind ≠ kRflow ∧ serving.rstateNew 0 0 = none) ∧
    (let s := on [64] serving
     let r := { rflow with addr := 0x40000000, cfg := [(9, 0x40000400)] }
     1 ≤ (82 : BitVec 16).toNat ∧ (0 : BitVec 16).toNat + (82 : BitVec 16).toNat ≤ r.longCount ∧ s.regionOk (r.addr, 2 * r.longCount) = true ∧
       let all := (bitsOf (r.cl 5) 33 6 + 1) * (bitsOf (r.cl 5) 27 6 + 1)
       (0 : BitVec 16).toNat + (1 : BitVec 16).toNat ≤ all ∧ s.regionOk ((r.cl 9).toNat, 2 * all) = true) ∧
    (let r : RState := { rflow with src := 7, kind := kDecim, cfg := [(4, BitVec.ofNat 40 (2 ^ 34))] }
     let x : RStage := ⟨7, 3, some r, [], false⟩
     let s := { serving with red := { serving.red with stage := [x] } }
     s.red.stage = [x] ∧ x.body = some r ∧ r.kind = kDecim ∧ (r.cl 4).getLsbD 34 = true ∧ (0 : BitVec 16).toNat + [(1 : Long)].length ≤ bitsOf (r.cl 4) 23 11 + 1) ∧
    (let it : RedItem := ⟨0, 0, 0, false⟩
     let s := { on [3, 4, 64] State.reset with red := { State.reset.red with engs := [(0, { intake := [it] })] } }
     s.domOn (domCluster 0) = true ∧ (coreIdx .steward) / 16 ≠ (0 : BitVec 6).toNat ∧ (s.eng 0).intake = [it] ∧ s.chain it.src = []) ∧
    (let x : SpecClose := ⟨0, 0, 0, rflow, 0, 0⟩
     (({ State.reset with red := { State.reset.red with engs := [(0, { defer := [x] })] } } : State).eng 0).defer = [x]) ∧
    (35 : BitVec 6).toNat < 36 ∧ 36 ≤ (36 : BitVec 6).toNat := by decide

/-- Context 0 of cluster 0 in force, with longs 0 and 5, cluster 0 on. -/
def contexts (l0 : Nat) (rs : List RState) (x : RedEng := {}) : State :=
  { on [3, 4, 64] State.reset with
    str := { State.reset.str with ctx := [(0, BitVec.ofNat 40 l0), (5, 0x40000000)] }
    red := { State.reset.red with states := rs, engs := [(0, x)] } }

/-- A store to RE_SUBMIT of a slot of a DERIVED feed by core 0; an item of a context with one STATS state; a spectral close whose output is a
RED context; a crossing that is up, and one between PEER_RESET and its handshake. -/
theorem test_witness_ReductionCommandResults_engine :
    (let f : RState := { src := 0, slot := 0, kind := kStats, addr := 0x40000000, cfg := [(0, BitVec.ofNat 40 (2 ^ 36))] }
     let s := contexts (tyDer * 2 ^ 37 + 2 ^ 20 + 2 ^ 13) [f]
     s.domOn (domCluster (0 : BitVec 6).toNat) = true ∧ coreIdx (.sample 0 0) < 1024 ∧ coreIdx (.sample 0 0) / 16 = (0 : BitVec 6).toNat ∧ bitsOf (0 : Long) 22 18 = 0 ∧
       (s.cfg 0).on = true ∧ (s.cfg 0).ctype = tyDer ∧ (s.cfg 0).owner = 0 ∧ (s.cfg 0).redEn = true ∧ s.chain 0 = [f] ∧ f.feed = true ∧
       (s.eng 0).handed.contains (0, (s.core 0).work) = false ∧ (∀ y ∈ [f], y.closedSince (s.openBeat 0) s.beat.num = false) ∧ (s.eng 0).intake.length < 256) ∧
    (let r : RState := { src := 0, slot := 0, kind := kStats, addr := 0x40000000, cfg := [], a := some 0 }
     let it : RedItem := ⟨0, 0, 0, false⟩
     let s := contexts (tyIn * 2 ^ 37 + 2 ^ 20 + 2 ^ 13) [r] { intake := [it] }
     s.domOn (domCluster (0 : BitVec 6).toNat) = true ∧ (s.eng 0).intake = [it] ∧ s.chain it.src = [r] ∧ s.rstate r.src r.slot = some r ∧ r.kind = kStats ∧ r.failed = false ∧
       r.spoiled = false ∧ r.ahead it.inBeat = false ∧ r.a = some 0 ∧ atOrAfter it.inBeat 0 = true ∧ s.bodyOk r = true) ∧
    (let r : RState := { src := 0, slot := 0, kind := kSpec, addr := 0x40000000, cfg := [] }
     let x : SpecClose := ⟨0, 0, 0, r, 0, 0⟩
     let s := contexts (tyRed * 2 ^ 37 + 12 * 2 ^ 20) [r] { defer := [x] }
     s.domOn (domCluster (0 : BitVec 6).toNat) = true ∧ (s.eng 0).defer = [x] ∧ (∀ y ∈ ([] : List SpecClose), y.beat ≠ x.beat) ∧ s.rstate x.src x.slot = some r ∧ r.failed = false ∧ r.frames = [] ∧
       (s.cfg r.outCtx).on = true ∧ (s.cfg r.outCtx).ctype = tyRed ∧ s.ownerOn (s.cfg r.outCtx) = true ∧ (s.cfg r.outCtx).subEn = false ∧ 12 ≤ (s.cfg r.outCtx).spb) ∧
    ((State.reset.crossAt 35).peer = false ∧ State.reset.crossUp 0 = true ∧
      (({ State.reset with cross := [(35, { peer := true })] } : State).crossAt 35).peer = true) := by decide +kernel
/-! ### The fabric -/

/-- A HELLO of version v and serial x. -/
def helloOf (v : Octet) (x : BitVec 64) : HelloMsg := ⟨v, false, false, true, false, false, false, false, 1, 3, x, 2, 0x80, 0x40, 0, 0, 0⟩

/-- Port 7 on, in a state of its own, with a record. -/
def fabp (st : Nat) (x : FPort) : State := { set [(R.FP_STAT_STATE 7, st)] (on [3, 15] State.reset) with fab := { State.reset.fab with ports := [(7, x)] } }

/-- The same with a kennel that is operational and holds a join key. -/
def fabk (st : Nat) (x : FPort) : State := set [(R.KN_STAT_STATE, 3), (R.KN_STAT_JOIN, 1)] (fabp st x)

theorem other_serial (x : BitVec 64) : x ^^^ 1 ≠ x := by
  intro h; have := congrArg (·.getLsbD 0) h; simp at this

theorem test_witness_FabricLinkResults :
    ((fabp fpOff {}).domOn (domFabric 7) = true ∧ (fabp fpOff {}).fpState 7 = fpOff ∧ (fabp fpTraining {}).fpState 7 = fpTraining ∧
      (fabp fpRefused {}).fpState 7 = fpRefused ∧ (fabp fpHello {}).fpState 7 = fpHello ∧ ((fabp fpHello {}).fport 7).peer = none ∧ (fabp fpHello {}).fpLoop 7 = false ∧
      (set [(R.FP_CTRL_LOOP 7, 1)] (fabp fpHello {})).fpLoop 7 = true ∧ 2 ≤ (fabp fpHello {}).fpState 7 ∧ 2 ≤ (fabp fpFenced {}).fpState 7) ∧
    ((2 : BitVec 2).toNat = (if ((fabp fpTraining {}).fport 7).genTry = true then 1 else 2) ∧ (1 : BitVec 2).toNat ≠ 2) ∧
    (let s := fabp fpSync { dreq := [5], dreqSum := 31 }
     (s.fport 7).dreq = [(5 : BitVec 16).toNat] ∧ ((s.fport 7).dreqSum + ((0xFFFFFFFF : Reg32).toNat - (0 : Reg32).toNat)) / 32 < 2 ^ (R.FP_DELAY_DELAY 7).w) ∧
    ((fabk fpAuth {}).fpState 7 = fpAuth ∧ (fabk fpAuth {}).joinOk = true ∧ (fabk fpAuth {}).admitted 7 = true ∧ ((fabk fpAuth {}).fport 7).certOk = false ∧ (fabk fpAuth {}).fpLoop 7 = false ∧
      (let s := fabk fpAuth { certOk := true, peer := some { helloOf 1 3 with encReq := true } }
       (s.fport 7).certOk = true ∧ s.fpState 7 = fpAuth ∧ s.joinOk = true ∧ s.encReq 7 = true ∧ (s.fport 7).peer = some { helloOf 1 3 with encReq := true }) ∧ (fabk fpHello {}).joinOk = true) ∧
    ((fabp fpSync {}).fpState 7 = fpSync ∧ (fabp fpSync {}).fpLoop 7 = false ∧ (fabp fpSync {}).merges 7 = true) ∧
    (let s := set [(R.FP_STAT_ENC 7, 1)] (fabk fpUpSt {})
     s.fpState 7 = fpUpSt ∧ s.bit (R.FP_STAT_ENC 7) = true ∧ s.joinOk = true) ∧
    (let s := fabk fpUpSt { rekey := true, certOk := true }
     s.fpState 7 = fpUpSt ∧ s.joinOk = true ∧ s.fpLoop 7 = false ∧ (s.fport 7).rekey = true ∧ (s.fport 7).certOk = true) := by decide +kernel

/-- A HELLO that goes out in a numbered frame: the port's links are idle, and window and credits let it start. -/
theorem test_witness_FabricLinkResults_sends :
    let s := fabp fpUpSt {}
    s.fpLive 7 = true ∧ (∀ vl, 1 ≤ vl → vl ≤ 3 → (s.linkOf 7 vl).waiting = [] ∧ (s.linkOf 7 vl).again = []) ∧
      s.canSend 7 (Says.msgFrame s 7 (helloOctets (s.ownHello 7))) = true ∧ (fabp fpHello {}).fpLive 7 = false := by
  refine ⟨by decide, fun vl _ _ => ⟨rfl, rfl⟩, by decide +kernel, by decide⟩

/-- HELLOs of the own serial, of another version, of another node in the clear or secured; a peer that changed. -/
theorem test_witness_FabricLinkResults_hello :
    (helloOf 1 Config.serial).serial = Config.serial ∧
    ((helloOf 2 (Config.serial ^^^ 1)).serial ≠ Config.serial ∧ (helloOf 2 (Config.serial ^^^ 1)).ver ≠ 1) ∧
    (let m := helloOf 1 (Config.serial ^^^ 1)
     m.serial ≠ Config.serial ∧ m.ver = 1 ∧ m.encCap = true ∧ ((fabp fpHello {}).bit R.PACK_CTRL_AUTH_REQ || (fabp fpHello {}).bit R.PACK_CTRL_ENC_REQ || m.authReq || m.encReq) = false ∧
      ((fabp fpHello {}).bit R.PACK_CTRL_AUTH_REQ || (fabp fpHello {}).bit R.PACK_CTRL_ENC_REQ || ({ m with authReq := true } : HelloMsg).authReq || m.encReq) = true) ∧
    (let s := fabp fpUpSt { peer := some (helloOf 1 3) }
     (s.fport 7).peer = some (helloOf 1 3) ∧ (helloOf 1 3).serial ≠ (helloOf 1 4).serial) ∧
    (let m := helloOf 1 (Config.serial ^^^ 1)
     let s := fabp fpUpSt { peer := some m }
     s.fpState 7 = fpUpSt ∧ (s.fport 7).peer = some m ∧ m.serial ≠ Config.serial ∧ m.ver = 1 ∧ ({ m with encReq := true, encCap := false } : HelloMsg).encCap = false) :=
  ⟨rfl, ⟨other_serial _, by decide⟩, ⟨other_serial _, by decide, by decide, by decide, by decide⟩, ⟨rfl, by decide⟩, by decide, rfl, other_serial _, by decide, by decide⟩

/-- A record of a node that lists x as its neighbour. -/
def farRec (x : BitVec 64) : Lsr := ⟨x ^^^ 1, 1, 2, false, false, true, true, false, 0x10, 0x40, 1, none, [⟨1, 7, 2, x⟩]⟩

/-- This node, master of a segment of two. -/
def paired : State :=
  let s := fabp fpUpSt { peer := some (helloOf 1 (Config.serial ^^^ 1)), edge := some (3, 0, 0) }
  { set [(R.MBX_GSTAT_READY, 1), (R.PACK_STAT_ADDR_STATE, 1), (R.NODE_ADDR_ADDR, 5), (R.FP_CTRL_TIMING_OK 7, 1)] s with
    fab := { s.fab with lsdb := [(farRec Config.serial, 0)], master := some Config.serial, dirty := true } }

/-- Two records, each listing the other as its neighbour, are one segment. -/
theorem segment_pair (r q : Lsr) (x y : BitVec 64) (g : Octet) (n : r.nbrs = [⟨7, 1, g, y⟩]) (k : r.serial = x) (f1 : q.serial = y)
    (f2 : q.nbrs = [⟨1, 7, 2, x⟩]) (o : y ≠ x) : segmentOf [r, q] x = [r, q] := by
  have o' : ¬ x = y := fun h => o h.symm
  have a1 : nextAll [r, q] x = [y] := by simp [nextAll, recOf, adj, n, k, f1, f2, o']
  have a2 : nextAll [r, q] y = [x] := by simp [nextAll, recOf, adj, n, k, f1, f2, o']
  simp [segmentOf, bfs, bfsRound, a1, a2, k, f1, o, o']

theorem paired_segment : paired.segment = [paired.ownRecord, farRec Config.serial] := by
  have e : paired.liveDb = [paired.ownRecord, farRec Config.serial] := by
    have h : paired.fab.lsdb = [(farRec Config.serial, 0)] := by rfl
    simp [State.liveDb, h, farRec]
  rw [State.segment, e]
  exact segment_pair _ _ _ _ 0 (by rfl) rfl rfl rfl (other_serial _)

/-- The record of a running master of another segment, its grid of another period. -/
def strangeRec : Lsr := { farRec 8 with serial := Config.serial ^^^ 1, master := true, grid := some ⟨0, 1, 0, 0, 0, 0, false⟩, nbrs := [] }

/-- This node, a running master, with that node on port 7, in SYNC. -/
def strangers : State :=
  let s := set [(R.BEAT_STAT_ROLE, 1), (R.BEAT_STAT_RUNNING, 1)] (fabp fpSync { peer := some (helloOf 1 (Config.serial ^^^ 1)) })
  { s with fab := { s.fab with lsdb := [(strangeRec, 0)] } }

/-- A node without neighbours is a segment alone. -/
theorem segment_alone (r q : Lsr) (x y : BitVec 64) (k : r.serial = x) (f : q.serial = y) (n : r.nbrs = []) (m : q.nbrs = []) (o : y ≠ x) :
    segmentOf [r, q] x = [r] ∧ segmentOf [r, q] y = [q] := by
  have o' : ¬ x = y := fun h => o h.symm
  constructor <;> simp [segmentOf, bfs, bfsRound, nextAll, recOf, adj, n, m, k, f, o, o']

/-- Two running masters of nodes that are not adjacent, with grids of another period: the segments of port 7 do not merge. -/
theorem test_witness_FabricLinkResults_fenced : strangers.fpState 7 = fpSync ∧ strangers.fpLoop 7 = false ∧ strangers.merges 7 = false := by
  refine ⟨by decide, by decide, ?_⟩
  have o : (Config.serial ^^^ 1) ≠ Config.serial := other_serial _
  have o' : Config.serial ≠ (Config.serial ^^^ 1) := fun h => o h.symm
  have e : strangers.liveDb = [strangers.ownRecord, strangeRec] := by
    have h : strangers.fab.lsdb = [(strangeRec, 0)] := rfl
    simp [State.liveDb, h, strangeRec]
  have k : strangers.ownRecord.serial = Config.serial := rfl
  have n : strangers.ownRecord.nbrs = [] := by decide +kernel
  have mr : strangers.ownRecord.master = true := by decide +kernel
  have rr : strangers.ownRecord.running = true := by decide +kernel
  have pr : ¬ strangers.ownRecord.prio = 255#8 := by decide +kernel
  have rm : strangers.role = roleMaster := by decide +kernel
  have g : strangers.ownRecord.grid = some strangers.grid := by simp [State.ownRecord, rm]
  have pint : (strangers.grid.pint == 1) = false := by decide +kernel
  have qs : strangeRec.serial = Config.serial ^^^ 1 := rfl
  have qn : strangeRec.nbrs = [] := rfl
  have qm : strangeRec.master = true := rfl
  have qr : strangeRec.running = true := rfl
  have qp : ¬ strangeRec.prio = 255#8 := by decide
  have qg : strangeRec.grid = some ⟨0, 1, 0, 0, 0, 0, false⟩ := rfl
  have pe : (strangers.fport 7).peer = some (helloOf 1 (Config.serial ^^^ 1)) := rfl
  have hs : (helloOf 1 (Config.serial ^^^ 1)).serial = Config.serial ^^^ 1 := rfl
  have c := segment_alone strangers.ownRecord strangeRec _ _ k qs n qn o
  have d1 : runningMaster [strangers.ownRecord] = some strangers.ownRecord := by simp [runningMaster, masterOf, lowest, mr, rr, pr]
  have d2 : runningMaster [strangeRec] = some strangeRec := by simp [runningMaster, masterOf, lowest, qm, qr, qp]
  rw [State.merges, pe]
  simp only [e, hs, c.1, c.2, d1, d2, g, qg, k, qs, pint, Bool.false_and, Bool.or_false]
  exact beq_eq_false_iff_ne.2 o'

/-- A node whose parent, a record of the database with a grid, is on port 7, the delay of the port measured. -/
def follower (role : Nat) (align : Nat) (x : FPort) : State :=
  let r : Lsr := { farRec 8 with serial := 9, aligned := true, grid := some ⟨0, 1, 0, 0, 0, 0, false⟩ }
  let s := set [(R.BEAT_STAT_ROLE, role), (R.FP_DELAY_VALID 7, 1), (R.FP_CTRL_TIMING_OK 7, 1)] (fabp fpUpSt { x with peer := some { helloOf 1 9 with aligned := true } })
  { s with beat := { phase := .running }, fab := { s.fab with parent := some 7, alignCnt := align, edges := 16, lsdb := [(r, 0)], master := some 9 } }

/-- The phase error that TDATA of offset off leaves at a follower. -/
def errOf (s : State) (e : BitVec 6 × BitVec 48 × Int) (off : BitVec 24) : Int :=
  let delay : Int := (2 * (s.rd (R.FP_DELAY_DELAY 7) : Int) - (s.word (R.FP_ASYM 7)).toInt) * (nsU / 2048)
  s.beat.lastEdge + (e.2.1 - s.beat.num).toInt * s.periodU - (e.2.2 - delay - off.toNat * (nsU / 1024))

theorem test_witness_PackResults :
    (let s := { fabp fpSync {} with fab := { (fabp fpSync {}).fab with lsdb := [(farRec 8, 0)] } }
     let r : Lsr := { farRec 8 with seq := 2 }
     s.domOn (domFabric 7) = true ∧ s.fpLoop 7 = false ∧ s.fpLive 7 = true ∧ s.fab.lsdb.length < 4095 ∧ (∀ e ∈ s.fab.lsdb, e.1.serial = r.serial → e.1.seq ≠ r.seq ∧ (r.seq - e.1.seq).toNat < 2 ^ 31) ∧
       (fabp fpOff {}).fpLive 7 = false ∧ s.fab.lsdb.find? (fun e => e.1.serial = (farRec 8).serial) = some (farRec 8, 0) ∧ (farRec 8).seq = 1 ∧
       fabPorts.filter State.reset.fpLive = [] ∧ fabPorts.filter s.fpLive ≠ [] ∧ (∀ q ∈ fabPorts, s.keysWorn q = false)) ∧
    (paired.anyUp = true ∧ paired.rd R.PACK_STAT_ADDR_STATE = 1 ∧ paired.rd R.NODE_ADDR_NODE_ID = 0 ∧ (∀ e ∈ paired.fab.lsdb, e.1.addr.toNat ≠ paired.rd R.NODE_ADDR_ADDR) ∧
      paired.stewardUp = true ∧ paired.fab.dirty = true ∧ State.reset.stewardUp = false ∧ State.reset.fab.dirty = false) ∧
    (paired.domOn (domFabric 7) = true ∧ paired.fpLive 7 = true ∧ paired.role = roleAlone) := by decide

/-- An EDGE of the parent a period after the one before, the seventeenth of it. -/
theorem test_witness_PackResults_edge :
    (let e : BitVec 6 × BitVec 48 × Int := (5, 0, 0)
     let s := { follower roleMember 0 { edge := some e } with time := State.reset.periodU }
     s.role = roleMember ∧ s.fab.parent = some 7 ∧ s.bit R.BEAT_STAT_DISC_PEND = false ∧ s.fpLoop 7 = false ∧ s.fpLive 7 = true ∧ s.domOn (domFabric 7) = true ∧ (s.fport 7).edge = some e ∧
       e.2.2 < s.time ∧ 0 < ((1 : BitVec 48) - e.2.1).toInt * s.periodU ∧ 16 ≤ s.fab.edges ∧
       let rate := (2 ^ 40 + (s.word R.RATE_ADJ).toInt) * (((1 : BitVec 48) - e.2.1).toInt * s.periodU) / (s.time - e.2.2) - 2 ^ 40
       (rate.natAbs : Int) * 10000 ≤ 2 ^ 40) := by decide +kernel

/-- TDATA at a node that joins, at its eighth edge, at a member whose delay is not measured, and far from the parent's edge; parents of other depths. -/
theorem test_witness_PackResults_tdata :
    (let e : BitVec 6 × BitVec 48 × Int := (31, 0, 0)
     let j := follower roleJoining 6 { edge := some e }
     let g := follower roleJoining 7 { edge := some e }
     let m := set [(R.FP_DELAY_VALID 7, 0)] (follower roleMember 0 { edge := some e })
     let lim : Int := 2 ^ min (j.rd R.DISC_CTRL_STEP_EXP) 30 * nsU
     j.role = roleJoining ∧ j.beat.phase = .running ∧ (j.fport 7).edge = some e ∧ ((errOf j e 0).natAbs : Int) < lim ∧ j.fab.alignCnt < 7 ∧
       g.bit (R.FP_DELAY_VALID 7) = true ∧ g.peerAligned 7 = true ∧ ((errOf g e 0).natAbs : Int) ≤ nsU ∧ ((errOf g e 0).natAbs : Int) < lim ∧ 7 ≤ g.fab.alignCnt ∧ g.gridOk = true ∧ e.1.toNat < 32 ∧
       m.role = roleMember ∧ m.bit (R.FP_DELAY_VALID 7) = false ∧
       (let f : BitVec 6 × BitVec 48 × Int := (5, 0, 2000000000 * nsU)
        let u := follower roleMember 0 { edge := some f }
        ¬ ((errOf u f 0).natAbs : Int) < lim ∧ nsU < ((errOf u f 0).natAbs : Int)) ∧
       m.fab.parent = some 7) ∧
    (let x : FPort := { edge := some (1, 0, 0) }
     let s0 := follower roleMember 0 x
     let f := { s0.fab with parent := some 0, ports := s0.fab.ports ++ [(0, { edge := some (5, 0, 0) })] }
     let s := { s0 with fab := f }
     let dep (x : Nat) : Nat := ((s.fport x).edge.map (fun e => e.1.toNat)).getD 63
     s.fab.parent = some 0 ∧ s.bestParent = some 7 ∧ dep 7 + 2 ≤ dep 0 ∧ s0.fab.parent = some 7 ∧ s0.bestParent = some 7 ∧ dep 7 < dep 7 + 2) := by decide +kernel

/-- The own address at a node of no other's: its route is LOCAL. -/
theorem test_witness_PackResults_route :
    0 < paired.ownRecord.addr.toNat ∧ paired.ownRecord.addr.toNat ≤ 4095 ∧
      ∀ r ∈ paired.segment, r.addr = paired.ownRecord.addr → r.serial = Config.serial := by
  refine ⟨by decide, by decide, ?_⟩
  rw [paired_segment]; intro r hr h
  simp only [List.mem_cons, List.not_mem_nil, or_false] at hr
  rcases hr with rfl | rfl
  · rfl
  · exact absurd h (by decide)

/-- The own record in the database; another node's record; a candidate that displaces this master. -/
theorem test_witness_PackResults_master :
    (let s := { State.reset with fab := { State.reset.fab with lsdb := [(State.reset.ownRecord, 0)] } }
     ∃ e ∈ s.fab.lsdb, e.1 = s.ownRecord) ∧
    ((farRec Config.serial).serial ≠ Config.serial ∧ ∃ e ∈ paired.fab.lsdb, e.1.serial = (farRec Config.serial).serial) ∧
    paired.segment.find? (fun r => paired.fab.master = some r.serial) = some paired.ownRecord ∧ farRec Config.serial ∈ paired.segment ∧
    Says.displaces (farRec Config.serial) paired.ownRecord ∧
    (∀ r ∈ paired.segment, Says.displaces r paired.ownRecord → r = farRec Config.serial ∨ electKey (farRec Config.serial) < electKey r) := by
  have k : paired.ownRecord.serial = Config.serial := rfl
  have m : paired.fab.master = some Config.serial := by rfl
  refine ⟨⟨_, List.mem_singleton.2 rfl, rfl⟩, ⟨other_serial _, ⟨_, List.mem_singleton.2 rfl, rfl⟩⟩, ?_, ?_, ⟨by decide, rfl, rfl, by decide⟩, ?_⟩
  · rw [paired_segment]; simp [m, k]
  · rw [paired_segment]; simp
  · rw [paired_segment]; intro r hr hd
    simp only [List.mem_cons, List.not_mem_nil, or_false] at hr
    rcases hr with rfl | rfl
    · exact absurd hd.2.2.2 (Nat.lt_irrefl _)
    · exact Or.inl rfl
/-! ### Traffic -/

/-- A frame on a VL, addressed to the node it reaches. -/
def frm (vl : BitVec 2) (load : Payload) : Frame := ⟨vl, true, true, true, false, false, 0, 2, 8, 0, BitVec.ofNat 16 (payloadOctets load), 0, load⟩

/-- The words of a frame, as they arrive over a line without errors. -/
def words (f : Frame) : RxFrame := ⟨frameWords none f, {}⟩

def sent (n : Nat) : Sent := ⟨0, frm 1 (.qmsg 5 [1]), frameWords none (frm 1 (.qmsg 5 [1])), n⟩

/-- Words that arrive whole, with a bad CRC, out of sequence, of a reserved type, or encrypted without a key, at an idle UP port. -/
theorem test_witness_LinkFrameResults :
    let s := fabp fpUpSt {}
    let f := frm 1 (.qmsg 5 [1])
    let bad := s.frameAt 7 (words { f with crcOk := false }).words
    let late := s.frameAt 7 (words { f with seq := 1 }).words
    let typ := s.frameAt 7 (words (frm 3 .reserved)).words
    let enc := s.frameAt 7 (words { f with enc := true }).words
    s.domOn (domFabric 7) = true ∧ s.fpLoop 7 = false ∧ s.fpUp 7 = true ∧ s.frameAt 7 (words f).words = f ∧ f.vl ≠ 0 ∧ f.seq = (s.linkOf 7 1).expect ∧ f.enc = s.bit (R.FP_STAT_ENC 7) ∧
      bad.vl ≠ 0 ∧ bad.crcOk = false ∧ late.crcOk = true ∧ late.vl = 1 ∧ late.seq ≠ (s.linkOf 7 1).expect ∧ typ.crcOk = true ∧ typ.tagOk = true ∧ typ.vl = 3 ∧ typ.seq = (s.linkOf 7 3).expect ∧
      typ.enc = s.bit (R.FP_STAT_ENC 7) ∧ ftypeOk typ = false ∧ enc.crcOk = true ∧ enc.vl = 1 ∧ enc.seq = (s.linkOf 7 1).expect ∧ enc.load ≠ .token ∧ enc.tagOk = false ∧
      s.waitingOn 7 = 0 ∧ (s.linkOf 7 1).unacked = [] ∧ s.fab.txq = [] ∧ s.schedIn = [] ∧ (s.fport 7).window = 0 ∧ (words f).line.fecUnc = 0 ∧
      (let e := set [(R.WH_FAULT_EN_R523, 0x80), (R.BEAT_STAT_RUNNING, 1)] s
       e.rd R.WH_FAULT_EN_R523 / 2 ^ 7 % 2 = 1 ∧ e.bit R.BEAT_STAT_RUNNING = true ∧ e.wh.reqs = [] ∧ ({ fecUnc := 1 } : FabLine).fecUnc ≠ 0) := by decide +kernel

/-- A queue message for this node; one for another address, with TTL 0, without a route and with one over port 3. -/
theorem test_witness_LinkFrameResults_deliver :
    (let s := on [3, 4] (fabp fpUpSt {})
     let f := frm 3 (.qmsg 5 [1])
     s.frameAt 7 (words f).words = f ∧ f.load = .qmsg 5 [1] ∧ f.wOk = true ∧ f.len.toNat ≤ 2048 ∧ f.dst = 0 ∧ s.domOn domQueue = true ∧
       (fabp fpUpSt {}).domOn domQueue = false) ∧
    (let s0 := set [(R.FP_STAT_STATE 3, fpUpSt)] (fabp fpUpSt {})
     let s := { s0 with fab := { s0.fab with routes := [(0xEFFE, BitVec.ofNat 40 (2 ^ 39 + 3 * 2 ^ 34))] } }
     let f : Frame := { frm 2 (.qmsg 5 [1]) with dst := 0xEFFF }
     let g : Frame := { f with dst := 0xEFFE }
     s.frameAt 7 (words f).words = f ∧ f.dst ≠ 0 ∧ f.dst.toNat ≠ s.ownAddr ∧ f.dst.toNat < 0xF000 ∧ s.frameAt 7 (words { f with ttl := 0 }).words = { f with ttl := 0 } ∧ f.ttl ≠ 0 ∧
       routeValid (s.route f.dst.toNat) = false ∧ s.frameAt 7 (words g).words = g ∧ g.dst.toNat ≠ s.ownAddr ∧ routeValid (s.route g.dst.toNat) = true ∧
       s.fpUp (routePri (s.route g.dst.toNat)) = true ∧ routePri (s.route g.dst.toNat) ≠ 7 ∧ s.domOn (domFabric 7) = true ∧ s.fpUp 7 = true ∧ s.fpLoop 7 = false) := by decide +kernel

theorem test_witness_LinkFrameResults_accepts : Says.accepts (on [3, 4] (fabp fpUpSt {})) (5 : BitVec 16).toNat := by unfold Says.accepts; decide

/-- Frames that wait for their LACK, one sent sixteen times again; transmit queues with a bad and a good message. -/
theorem test_witness_LinkFrameResults_link :
    (let s := fabp fpUpSt { vls := [(1, { unacked := [sent 15] })] }
     let l := s.linkOf 7 1
     let left := l.unacked.filter (fun x => !decide (((0xFFFF : BitVec 16) - x.seq).toNat < 2 ^ 15))
     l.unacked ≠ [] ∧ (∀ x ∈ l.unacked, x.tries < 16) ∧ (∀ x ∈ left, x.tries < 16) ∧ (left.map (·.seq)).Nodup ∧ (l.unacked.map (·.seq)).Nodup ∧ s.waitingOn 7 = 0 ∧ s.schedIn = [] ∧ (s.fport 7).window = 0) ∧
    (let s := fabp fpUpSt { vls := [(1, { unacked := [sent 16] })] }
     16 ≤ (sent 16).tries ∧ sent 16 ∈ (s.linkOf 7 1).unacked) ∧
    (let l0 : Long := BitVec.ofNat 40 (2 ^ 38 + 0xEFFE * 2 ^ 22 + 5 * 2 ^ 6)
     let s0 := set [(R.FP_STAT_STATE 3, fpUpSt)] (on [3, 4] State.reset)
     let s (x : Long) := { s0 with qeng := { qs := [(9, { en := true, priv := false, msgs := [{ longs := [x] }] })] }, fab := { s0.fab with txq := [9], routes := [(0xEFFE, BitVec.ofNat 40 (2 ^ 39 + 3 * 2 ^ 34))] } }
     (s 0).domOn domQueue = true ∧ (s 0).fab.txq = [9] ∧ ((s 0).queue 9).broken = false ∧ ((s 0).queue 9).msgs = [{ longs := [0] }] ∧ qmsgOk 0 = false ∧
       (s l0).domOn domQueue = true ∧ (s l0).fab.txq = [9] ∧ ((s l0).queue 9).broken = false ∧ ((s l0).queue 9).msgs = [{ longs := [l0] }] ∧ qmsgOk l0 = true ∧ bitsOf l0 22 16 < 0xF000 ∧
       bitsOf l0 22 16 ≠ (s l0).ownAddr ∧ routeValid ((s l0).route (bitsOf l0 22 16)) = true ∧ (s l0).fpUp (routePri ((s l0).route (bitsOf l0 22 16))) = true) := by decide +kernel

def str0 : Payload := .stream 0 0 0 0 0 0 []
def ent0 : SchedEnt := ⟨0, 7, 2, 1000, 100000, 7, 0⟩
/-- A member of a running pack that allows VL0; entry 5 forwards flow 0 of port 7 to port 7. -/
def vl0s (h : List HeldFrame) (w : Nat) : State :=
  let s := fabp fpUpSt { window := w }
  { set [(R.TR_CTRL_VL0_EN, 1), (R.BEAT_STAT_ROLE, 2), (R.TR_CTRL_WHISTLE_EN, 1)] s with
    beat := { phase := .running }, fab := { s.fab with sched := [(5, some ent0)], held := h } }

theorem test_witness_ScheduledTrafficResults :
    (let s := fabp fpUpSt { expectTok := true }
     let f := frm 0 str0
     s.frameAt 7 (words f).words = f ∧ s.fpLoop 7 = false ∧ f.tagOk = true ∧ s.domOn (domFabric 7) = true ∧ s.fpUp 7 = true ∧ f.vl = 0 ∧ f.crcOk = true ∧ f.enc = s.bit (R.FP_STAT_ENC 7) ∧ f.wOk = true ∧ f.len.toNat ≤ 2048 ∧ f.load = .stream 0 0 0 0 0 0 [] ∧ s.vl0Ok = false ∧
       (s.fport 7).expectTok = true ∧ (s.fport 7).gotTok = false ∧ ((fabp fpUpSt {}).fport 7).expectTok = false ∧ s.entry 5 = none ∧ s.schedIn = []) ∧
    (let s := vl0s [] 0
     let f := frm 0 str0
     s.frameAt 7 (words f).words = f ∧ s.vl0Ok = true ∧ s.vl0Here f = false ∧ s.schedIn = [(5, ent0)] ∧ ent0.kind = 2 ∧ ent0.flow = f.seq ∧ ent0.inp.toNat = 7 ∧ (s.fport ent0.port.toNat).window ≠ 5 + 1 ∧
       ({ s with fab := { s.fab with sched := [] } } : State).schedIn = [] ∧ s.entry 5 = some ent0) ∧
    (let g := frm 0 str0
     let s := vl0s [⟨5, g, 0⟩] 0
     let u := set [(R.TR_CTRL_VL0_EN, 0)] s
     s.beat.phase ≠ .stopped ∧ s.beat.first = none ∧ u.vl0Ok = false ∧ u.beat.phase ≠ .stopped ∧ s.vl0Ok = true ∧ s.fpUp 7 = true ∧ s.fab.held = [⟨5, g, 0⟩] ∧ g.crcOk = true ∧
       max s.time (s.beat.lastEdge + ent0.start.toNat * nsU) + s.blocksU 7 (frameW (s.dress 7 g).len.toNat + 1) ≤ s.beat.lastEdge + ent0.start.toNat * nsU + ent0.length.toNat * nsU) ∧
    (let s := vl0s [] 6
     (s.fport 7).window = 5 + 1 ∧ s.waitingOn 7 = 0 ∧ (∀ y ∈ s.schedIn, y.2.port = ent0.port → y.2.start.toNat ≤ ent0.start.toNat) ∧ s.vl0Ok = true ∧ s.fpUp 7 = true ∧
       (∀ h ∈ s.fab.held, h.entry ≠ 5)) ∧
    (let s := vl0s [] 0
     s.aligned = true ∧ s.bit R.TR_CTRL_WHISTLE_EN = true ∧ s.beat.phase ≠ .stopped ∧ s.time + 2000 * nsU ≤ s.edgeAt 100 ∧ s.wh.armed.length < 16 ∧
       ¬ (State.reset.aligned = true)) ∧
    (let r : FaultRep := ⟨0, 0, 0, false, false, false, 1, 65535, 0, 0, 0, 0⟩
     let s := { set [(R.FR_CTRL_WINDOW, 1)] State.reset with boot := { rom := false } }
     let u := { s with fab := { s.fab with open_ := [⟨r, 0⟩] } }
     (s.core 1024).takes = true ∧ s.boot.rom = false ∧ s.rd R.FR_CTRL_WINDOW ≠ 0 ∧ (∀ o ∈ s.fab.open_, sameKey o.rep r = false) ∧ s.time ≤ s.repClose r ∧ s.fab.open_.length < 256 ∧
       u.fab.open_ = [⟨r, 0⟩] ∧ sameKey r r = true ∧ u.fab.open_[(0 : Octet).toNat]? = some ⟨r, 0⟩ ∧ u.repHere r = true ∧ u.fab.open_.length ≤ 256) := by
  (repeat' apply And.intro) <;> decide +kernel

theorem test_witness_PackCommandResults :
    Says.framed serving (hdr 0) 0 24 ∧ Says.framed serving (hdr 4) 4 (5 * (1 : BitVec 16).toNat) ∧ Says.framed serving (hdr 4) 4 (4 + 154 * (64 : BitVec 16).toNat) ∧
    Says.framed serving (hdr 20) (4 + 16 * [ent0].length) ∧ Says.framed serving (ihdr 4100) (4 + 16 * 256) ∧ Says.framed serving (hdr 4) 4 ∧
    Says.framed serving (hdr 8) 8 (16 * (256 : BitVec 16).toNat) ∧ Says.framed serving (hdr 4) (4 + 2 * ([] : List (BitVec 16)).length) ∧ Says.framed serving (hdr 8) 8 ∧
    Says.framed serving (hdr 45) (5 * (8 + 1)) ∧ Says.framed serving (hdr 40) (5 * (7 + 1)) :=
  ⟨framed_hdr _ _ _ _ (by decide), framed_hdr _ _ _ _ (by decide), framed_hdr _ _ _ _ (by decide), framed_hdr _ _ _ _ (by decide), framed_ihdr _ _ _ _ (by decide) (by decide),
   framed_hdr _ _ _ _ (by decide), framed_hdr _ _ _ _ (by decide), framed_hdr _ _ _ _ (by decide), framed_hdr _ _ _ _ (by decide), framed_hdr _ _ _ _ (by decide), framed_hdr _ _ _ _ (by decide)⟩

theorem test_witness_PackCommandResults_operands :
    (let s := set [(R.J_STAT_STATE, jRunning)] serving
     s.jState = jRunning ∧ (7 : Octet).toNat < 8 ∧ 8 ≤ (8 : Octet).toNat) ∧
    ((4095 : BitVec 16).toNat + (1 : BitVec 16).toNat ≤ 4096 ∧ (3840 : BitVec 16).toNat + 256 ≤ 4096 ∧ (1 : Octet).toNat ≤ 1 ∧ serving.fab.groupStage.length < 256) ∧
    (5 : BitVec 16).toNat ∉ serving.fab.txq ∧ serving.fab.txq.length < 64 ∧
    (let s := { serving with fab := { serving.fab with txq := List.replicate 64 6 } }
     (5 : BitVec 16).toNat ∉ s.fab.txq ∧ 64 ≤ s.fab.txq.length) ∧
    (let l0 : Long := BitVec.ofNat 40 (2 ^ 38 + 0xEFFF * 2 ^ 22 + 5 * 2 ^ 6)
     qmsgOk l0 = true ∧ l0.extractLsb' 0 6 = 0 ∧ bitsOf l0 22 16 < 0xF000 ∧ bitsOf l0 22 16 ≠ serving.ownAddr ∧ routeValid (serving.route (bitsOf l0 22 16)) = false ∧ qmsgOk 0 = false ∧
       (1 : Long).extractLsb' 0 6 ≠ 0) ∧
    (let l0 : Long := BitVec.ofNat 40 (2 ^ 38 + 0xEFFE * 2 ^ 22 + 5 * 2 ^ 6)
     let s0 := set [(R.FP_STAT_STATE 3, fpUpSt)] serving
     let s := { s0 with fab := { s0.fab with routes := [(0xEFFE, BitVec.ofNat 40 (2 ^ 39 + 3 * 2 ^ 34))] } }
     bitsOf l0 22 16 < 0xF000 ∧ bitsOf l0 22 16 ≠ s.ownAddr ∧ routeValid (s.route (bitsOf l0 22 16)) = true ∧ s.fpUp (routePri (s.route (bitsOf l0 22 16))) = true) := by decide +kernel

/-- The database holds at least this node's own record and here nothing else. -/
theorem test_witness_PackCommandResults_lsdb : serving.liveDb.length ≤ (1 : BitVec 16).toNat := by
  have h : serving.fab.lsdb = [] := by decide
  simp [State.liveDb, h]
/-! ### The journal -/

def quietB (s : State) : Bool :=
  decide (s.jrn.release = [] ∧ (s.jrn.ring = true → 0 < s.commonSegs) ∧ s.jrn.sealing = none ∧ s.jrn.sealTodo = [] ∧ s.jrn.pf = none ∧ s.jrn.compact = none ∧ s.jrn.stopping = none ∧ s.pwr.slot = [] ∧
    (∀ g ∈ s.jrn.segs, g.chain = 0 → g.filled = true → g.indexed = true) ∧ (s.jrn.segs.filter (fun g => g.chain = 1)).length ≤ 8 ∧
    (s.jrn.segs.filter (fun g => g.chain = 2)).length ≤ 8)

theorem quiet_of {s : State} (h : quietB s = true) : Says.quiet s := by
  obtain ⟨m, n, a, b, c, d, e, f, g, x, y⟩ := of_decide_eq_true h
  exact ⟨m, n, a, b, c, d, e, f, g, fun k hk => by rcases hk with rfl | rfl; exacts [x, y]⟩

/-- The journal in a state of its own, with its record; namespace 0 in use, a steward that runs. -/
def jr (st : Nat) (j : Journal) : State :=
  { set [(R.J_STAT_STATE, st), (R.J_STAT_NS_USE, 1), (R.BUF_CEIL_V, 64)] (on [6, 7] State.reset) with jrn := j, boot := { rom := false } }

def blk (st : BlockState) : Block := ⟨0, 0, 0, 0, [⟨4, 0, 0, 0, List.replicate 24 0⟩], 0, st, 0, []⟩
def jrec (ty : Octet) : JRec := ⟨ty, 0, 0, false, false, []⟩

theorem test_witness_JournalRecordResults :
    (State.reset.pwr.slot = [] ∧ (4 ≤ (jrec 10).rtype.toNat ∧ (jrec 10).rtype.toNat ≤ 10) ∧ (jrec 1).rtype.toNat = 1 ∧ (jrec 1).body.length ≤ 1024 ∧
      ¬ (4 ≤ (jrec 3).rtype.toNat ∧ (jrec 3).rtype.toNat ≤ 10)) ∧
    ((jr 4 {}).jState = 4 ∧ (jr 4 {}).jrn.pf = none ∧ (jr 6 {}).jState = 6 ∧ (jr 0 {}).jState = 0 ∧ (jr 0 {}).holdTakes (jrec 4) = true ∧ (jr 5 {}).jState = 5) ∧
    (let s := jr 3 { blocks := [blk .opened], nsSegs := [(0, 7)] }
     let u := set [(R.BUF_CEIL_V, 1)] s
     let left (x : State) (c : Nat) : Nat := 2 * x.nsInUse.length - mget (fun _ => 0) x.jrn.dip c
     let f (x : State) (y : Nat) : Bool := if 4 ≤ y then decide (x.bufUsed < x.rd R.BUF_CEIL_V) else decide (x.bufUsed + 4 < x.rd R.BUF_CEIL_V ∧ left x 0 + left x 1 + left x 2 < x.freeSegs)
     s.jState = 3 ∧ s.jrn.pf = none ∧ s.jrn.ring = false ∧ s.openBlock 0 = some (blk .opened) ∧ ((blk .opened).recs.map (fun x => x.octets.length)).sum + 0 + 23 ≤ 1048384 ∧
       f s 4 = true ∧ f s 3 = true ∧ f u 4 = false ∧ f u 3 = false) ∧
    (let s := jr 1 { archive := some 5, nsSegs := [(3, 1)] }
     let r : RecoveryScan := ⟨8, 1, none, [100, 100, 100, 100]⟩
     s.jState = 1 ∧ s.jrn.entering = false ∧ s.jrn.blocks = [] ∧ s.jrn.segs = [] ∧ s.jrn.dip = [] ∧ s.jrn.hold = [] ∧ s.jrn.archive ≠ none ∧ r.lastGood = none ∧ r.usable.toNat = 2 ^ 3 ∧
       s.rd (R.S_STAT_NSSTATE 3) ≠ 3 ∧ mget (fun _ => 0) s.jrn.nsSegs 3 ≠ 0 ∧ quietB s = true ∧ ({ r with usable := 0 } : RecoveryScan).usable = 0) ∧
    (let s := jr 3 { blocks := [blk .opened] }
     s.jState = 3 ∧ quietB s = true ∧ s.jrn.blocks = [blk .opened] ∧ (blk .opened).state = .opened ∧ (blk .opened).chain < 3) ∧
    (let l : StoreLink := ⟨3, 2, true, true, true, 7⟩
     State.reset.domOn domStore = false ∧ l.gen.toNat ≤ 3 ∧ 1 ≤ l.gen.toNat ∧ (jr 0 {}).domOn domStore = true ∧ ({ l with gen := 0 } : StoreLink).gen = 0) := by decide

/-- No module of the reset state has told of a sensor; an essential record does not fit a full hold area. -/
theorem test_witness_JournalRecordResults_hold :
    (∀ p, ((jr 1 { archive := some 5, nsSegs := [(3, 1)] }).port p).sensors = []) ∧
    (jr 0 { hold := List.replicate 253 ⟨4, 0, 0, false, false, List.replicate 1024 0⟩ }).holdTakes (jrec 4) = false :=
  ⟨fun _ => rfl, by decide +kernel⟩

/-- A seal that waits for the kennel, or for its blocks; blocks, commands and rates. -/
theorem test_witness_JournalMediaResults :
    (let x : Seal := ⟨0, 0, 0, 0, 0, true⟩
     let s := jr 3 { sealing := some x }
     s.jState = 3 ∧ s.jrn.pf = none ∧ s.ctxOn = [] ∧ s.stewardRuns = true ∧ quietB { s with jrn := { s.jrn with sealing := none } } = true ∧ s.jrn.sealing = some x ∧ x.asked = true ∧
       s.openBlock 0 = none ∧ s.pwr.slot = [] ∧ ((jr 0 {}).jState ≠ 3 ∧ (jr 0 {}).jState ≠ 4)) ∧
    (let s := jr 3 { blocks := [blk .opened] }
     quietB s = true ∧ s.jrn.blocks = [blk .opened] ∧ (blk .opened).state = .opened ∧ (blk .opened).chain = 0 ∧ (blk .opened).recs ≠ [] ∧ s.sealedOf 0 ≤ (blk .opened).bseq) ∧
    (let x : Seal := ⟨0, 0, 0, 0, 0, false⟩
     let s := jr 3 { sealing := some x, blocks := [blk .closed] }
     let u := jr 3 { sealing := some x, blocks := [blk .durable] }
     let v := set [(R.PD_STAT_STATE 2, 2), (R.KN_STAT_STATE, 3), (R.KN_STAT_SEAL, 1)] u
     s.jrn.sealing = some x ∧ x.asked = false ∧ (∃ b ∈ s.jrn.blocks, b.chain = x.chain ∧ b.bseq ≤ x.bseq ∧ b.state ≠ .durable) ∧
       (∀ b ∈ u.jrn.blocks, b.chain = x.chain → b.bseq ≤ x.bseq → b.state = .durable) ∧ u.stewardRuns = true ∧ ¬ (u.knLive = true ∧ u.knState = knOperational ∧ u.bit R.KN_STAT_SEAL = true) ∧
       quietB { u with jrn := { u.jrn with sealing := none } } = true ∧ v.knLive = true ∧ v.knState = knOperational ∧ v.bit R.KN_STAT_SEAL = true ∧ v.stewardRuns = true) ∧
    (let x : Seal := ⟨0, 0, 0, 0, 0, true⟩
     let s := jr 3 { sealing := some x, blocks := [blk .opened] }
     s.jState = 3 ∧ quietB { s with jrn := { s.jrn with sealing := none } } = true ∧ s.jrn.sealing = some x ∧ s.jrn.lossOf = [] ∧ s.openBlock x.chain = some (blk .opened) ∧
       ((blk .opened).recs.map (fun y => y.octets.length)).sum + 300 ≤ 1048384 ∧ s.bufUsed < s.rd R.BUF_CEIL_V) ∧
    (State.reset.jrn.sealing = none ∧ State.reset.cmdsOf 3 = [] ∧ quietB State.reset = true) ∧
    (let s := jr 3 { blocks := [blk .closed], cmds := [(0, [(.write 0 0 true, 2)])] }
     let u := set [(R.J_STAT_NS_USE, 5)] (jr 3 { blocks := [blk .closed], cmds := [(0, [(.write 0 0 false, 3)])] })
     s.cmdsOf 0 = [(.write 0 0 true, 2)] ∧ quietB s = true ∧ 2 < 3 ∧ u.cmdsOf 0 = [(.write 0 0 false, 3)] ∧ quietB u = true ∧ u.rd R.J_STAT_NS_USE = 2 ^ 0 + 2 ^ 2 ∧ s.nsInUse = [0] ∧
       (∃ b ∈ u.jrn.blocks, b.chain = 0 ∧ b.bseq = 0 ∧ b.ns = 0 ∧ b.state = .closed)) ∧
    (let s := jr 3 { blocks := [blk .written], cmds := [(0, [(.flush 0, 0)])] }
     s.cmdsOf 0 = [(.flush 0, 0)] ∧ quietB s = true) ∧
    (let s := set [(R.S_RATE_V 0, 1000), (R.HOLDUP_V, 2000)] (jr 3 {})
     s.jState = 3 ∧ (0 : Nat) ∈ s.nsInUse ∧ (999999999 : BitVec 40).toNat < s.rdW (R.S_RATE 0) * 1000000 ∧ s.rdW (R.S_RATE 0) * 1000000 ≤ (1000000000 : BitVec 40).toNat ∧
       (∀ o ∈ s.nsInUse, 999 ≤ if o = 0 then (999999999 : BitVec 40).toNat / 1000000 else s.rdW (R.S_RATE o)) ∧
       s.nsInUse.length * 999 < 2 ^ 32 ∧ (s.rdW R.HOLDUP - 1000) * (s.nsInUse.length * 999) / 1048576 < 65536) := by
  (repeat' apply And.intro) <;> decide

/-- A tombstone on its way to the medium: the segment it releases is the one the archive holds. -/
theorem test_witness_JournalMediaResults_release :
    let g : Segment := ⟨5, 0, 0, 0, true, 0, 0, 0, 0, true⟩
    let s := jr 3 { blocks := [blk .closed], segs := [g], release := [(5, 0)], cmds := [(0, [(.write 0 0 true, 0)])] }
    s.cmdsOf 0 = [(.write 0 0 true, 0)] ∧ quietB { s with jrn := { s.jrn with release := [] } } = true ∧ s.jrn.release = [(g.seg, 0)] ∧ s.jrn.blocks = [blk .closed] ∧
      (blk .closed).chain = 0 ∧ (blk .closed).bseq = 0 ∧ (blk .closed).seg ≠ g.seg ∧ (blk .closed).state = .closed ∧ s.jState = 3 ∧ s.jrn.segs = [g] ∧ s.jrn.delCh = none := by
  decide

/-- The rate tests of the first entry to RUNNING: the last one is outstanding. -/
theorem test_witness_JournalMediaResults_rate :
    let s := jr 1 { cmds := [(0, [(.rateTest, 0)])], entering := true }
    s.cmdsOf 0 = [(.rateTest, 0)] ∧ quietB s = true ∧ s.jState = 1 ∧ s.jrn.entering = true ∧ s.jrn.hold = [] ∧ (∀ o, (s.port o).sensors = []) ∧ ∀ o, o ≠ 0 → s.cmdsOf o = [] := by
  refine ⟨by decide, by decide, by decide, rfl, rfl, fun o => rfl, fun o ho => ?_⟩
  have h : (jr 1 { cmds := [(0, [(.rateTest, 0)])], entering := true }).jrn.cmds = [(0, [(.rateTest, 0)])] := by decide
  simp [State.cmdsOf, h, mget, lookup, ho]

/-- Mailbox 0 served, in the Crypto Officer role, with a journal. -/
def served (st : Nat) (j : Journal) : State :=
  withRole true { set [(R.J_STAT_STATE, st), (R.J_STAT_NS_USE, 1), (R.BUF_CEIL_V, 64), (R.S_STAT_READY 0, 1), (R.PD_STAT_STATE 2, 2), (R.KN_STAT_STATE, 3)] (on [6, 7] serving) with jrn := j }

theorem test_witness_JournalCommandResults :
    Says.framed (served 2 {}) (hdr 20) 20 8 (some true) ∧ Says.framed (served 2 {}) (hdr 0) 0 32 ∧ Says.framed (served 2 {}) (hdr 4) 4 4 ∧
    Says.framed (served 2 {}) (hdr 20) 20 (65536 : Reg32).toNat ∧ Says.framed (served 2 {}) (hdr 12) 12 12 ∧ Says.framed (served 3 {}) (hdr 8) 8 4 (some true) ∧
    Says.framed (served 3 {}) (hdr 16) (12 + 4 * [(0 : Reg32)].length) ∧ Says.framed (served 3 {}) (hdr 0) 0 16 ∧ Says.framed (served 3 {}) (ihdr 3864) (8 + 3856) :=
  ⟨framed_hdr _ _ _ _ (by decide +kernel), framed_hdr _ _ _ _ (by decide +kernel), framed_hdr _ _ _ _ (by decide +kernel), framed_hdr _ _ _ _ (by decide +kernel), framed_hdr _ _ _ _ (by decide +kernel),
   framed_hdr _ _ _ _ (by decide +kernel), framed_hdr _ _ _ _ (by decide +kernel), framed_hdr _ _ _ _ (by decide +kernel), framed_ihdr _ _ _ _ (by decide +kernel) (by decide)⟩

theorem test_witness_JournalCommandResults_states :
    (let s := served 2 {}
     let l := (List.range 4).filter (fun p => (1 : Octet).toNat / 2 ^ p % 2 = 1)
     (∀ p ∈ l, [(7 : Reg32)].getD p 0 ≠ 0) ∧ s.jState = 2 ∧ (∀ p ∈ l, s.bit (R.S_STAT_READY p) = true ∧ s.rd (R.S_STAT_NSSTATE p) ≠ 2) ∧ s.domOn domKennel = true ∧
       s.knState = knOperational ∧ (served 3 {}).jState = 3 ∧ s.domOn domMem = true ∧ s.domOn domStore = true ∧ s.jrn.archive = none ∧
       (served 2 { archive := some 1 }).jrn.archive ≠ none ∧ (served 2 { archive := some 1 }).jrn.recovered = false ∧ serving.domOn domMem = false) ∧
    (let s := served 3 {}
     s.jState = 3 ∧ quietB s = true ∧ s.ctxOn = [] ∧ s.jrn.blocks = [] ∧ s.jrn.segs = [] ∧ s.jrn.dip = [] ∧ quietB (served 3 { blocks := [blk .opened] }) = true ∧ s.jrn.pf = none ∧ s.jrn.stopping = none ∧
       0 < s.rd R.BUF_CEIL_V ∧ s.sealedOf 1 ≤ s.nextBseq 1 ∧ s.nsInUse = [0] ∧ s.jrn.testCh = none ∧ (served 3 { testCh := some 1 }).jrn.testCh ≠ none ∧
       mget (fun _ => 0) (served 3 { nsSegs := [(0, 1)] }).jrn.nsSegs 0 ≠ 0) ∧
    ((10000 : Reg32).toNat ≤ 3600000000 ∧ (9999 : Reg32).toNat < 10000 ∧ 3600000000 < (3600000001 : Reg32).toNat ∧ (2000 : Reg32).toNat ≤ 1000000 ∧
      (1000000 - 1000) * (served 2 {}).rdW (R.S_RATE 0) / 1048576 < 65536) ∧
    ((0 : Reg32).toNat + (65536 : Reg32).toNat ≤ 1048576 ∧ (blk .closed).state = .closed ∧ (blk .durable).state = .durable ∧ (blk .closed).chain = (0 : Octet).toNat ∧
      (∃ x ∈ (blk .closed).recs, x.beat ≤ 0) ∧ (∃ x ∈ (blk .closed).recs, 0 ≤ x.beat)) := by decide +kernel

theorem test_witness_JournalCommandResults_more :
    (let g : Segment := ⟨0, 0, 0, 0, true, 0, 0, 0, 0, true⟩
     let s := served 4 { segs := [g], sealed := [(0, 1)], freed := [g] }
     let b : Block := { blk .opened with bseq := 1 }
     let u := served 4 { segs := [g], sealed := [(0, 1)], heads := [(0, 2)], blocks := [b] }
     let hits (s : State) := s.jrn.segs.filter (fun g => decide (g.chain = 0 ∧ g.last ≤ (0 : BitVec 64).toNat))
     s.jState = 4 ∧ s.jrn.pf = none ∧ s.jrn.stopping = none ∧ s.jrn.delCh = none ∧ s.jrn.release = [] ∧ (0 : BitVec 64).toNat < s.sealedOf 0 ∧
       (∀ g ∈ s.jrn.segs, g.chain = 0 → g.filled = false → (0 : BitVec 64).toNat < g.first) ∧ s.sealedOf 0 ≤ (1 : BitVec 64).toNat ∧ g ∈ s.jrn.freed ∧ g.first ≤ 0 ∧ 0 ≤ g.last ∧
       hits (served 4 { sealed := [(0, 1)] }) = [] ∧
       u.jState = 4 ∧ (0 : BitVec 64).toNat < u.sealedOf 0 ∧ hits u = [g] ∧ quietB u = true ∧ u.jrn.blocks = [b] ∧ b.state = .opened ∧ b.chain = 0 ∧ b.bseq + 1 = u.nextBseq 0 ∧
       (b.recs.map (fun x => x.octets.length)).sum + 96 ≤ 1048384) ∧
    (let w : Window := ⟨1, 2, 0, 1, [0], none, [0], 0⟩
     let s := served 3 { windows := [w] }
     s.jrn.windows = [w] ∧ w.wid = (1 : Reg32).toNat ∧ w.mask / 2 % 2 = 1 ∧ w.trig = none ∧ ({ w with mask := 1 } : Window).mask / 2 % 2 = 0 ∧ (∀ x ∈ s.jrn.windows, x.wid ≠ (2 : Reg32).toNat)) ∧
    (let s := served 2 { items := [(9, some (0, [1]))] }
     s.jState ≠ 3 ∧ s.holdTakes ⟨0x11, 2, s.beat.num, false, false, Says.num 4 9 ++ Says.num 1 0 ++ [0] ++ Says.num 2 1 ++ [1]⟩ = true ∧
       mget (fun _ => none) s.jrn.items (9 : Reg32).toNat = some (0, [1]) ∧ mget (fun _ => none) s.jrn.items (8 : Reg32).toNat = none) := by decide +kernel

/-- A context whose store holds a window and the three beats the hardware keeps; the rate it needs is the journal's. -/
theorem test_witness_JournalCommandResults_arm :
    let s := { set [(R.RATE_G_V, 16000)] (served 3 {}) with str := { State.reset.str with ctx := [(0, 0x2000100000), (2, 0x600)] } }
    let cs := [(0 : Reg32)].map (fun c => s.cfg c.toNat)
    (1 : BitVec 16) ≠ 0 ∧ (∀ c ∈ cs, c.on = true ∧ (0 : BitVec 16).toNat + 3 ≤ c.depth) ∧ (∀ c ∈ cs, ∀ d ∈ cs, c.store = d.store) ∧
    (cs.map (fun c => (c.octets : ℚ))).sum + s.journaled ≤ ((min 16000000000 (s.rdW R.RATE_G * 1000000) : Nat) : ℚ) *
          (((s.rdW R.PERIOD_ACT_INT * 2 ^ 32 + s.rdW R.PERIOD_ACT_FRAC : Nat) : ℚ) / (2 ^ 32 * 10 ^ 9)) := by
  refine ⟨by decide, by decide +kernel, by decide +kernel, by decide +kernel⟩
/-! ### The kennel -/

/-- The kennel on, in a state of its own, with its record; mailbox 0 served with a session. -/
def ken (co : Bool) (st : Nat) (k : Kennel) : State := withRole co { set [(R.PD_STAT_STATE 2, 2), (R.KN_STAT_STATE, st)] serving with kn := k }

theorem test_witness_KennelEventResults :
    (let s := ken true 3 {}
     s.pwr.slot = [] ∧ s.kn.running = false ∧ s.domOn domKennel = true ∧ s.knState ≠ 0 ∧ s.knState ≠ 7 ∧ s.knState ≠ 6 ∧ (ken true 6 {}).knState = 6 ∧ s.kn.zCmd = none ∧
       (set [(R.PD_STAT_STATE 2, 0)] State.reset).domOn domKennel = false ∧ State.reset.bit (R.PD_STAT_BUSY domKennel) = false ∧ (ken true 3 { running := true }).kn.running = true ∧ s.kn.testCmds = [] ∧
       (ken true 7 {}).knState = 7 ∧ (ken true 5 {}).knState = 5) ∧
    (let b : Busy := ⟨5, 0, 0, 0, true, true, false⟩
     let s0 := ken true 3 { running := true, zCmd := some 15 }
     let s := { s0 with host := { s0.host with chans := [(15, { busy := some b })], linkUp := true } }
     s.kn.zCmd = some 15 ∧ Says.canEnd s 15 b ∧ s.kn.testCmds = []) ∧
    (let s := ken true 1 {}
     s.knState = 1 ∧ s.kn.latched = false ∧ SelfTest.passed = .passed ∧ (ken true 1 { latched := true }).kn.latched = true) ∧
    ((State.reset.chan 19).sess = none ∧ ((ken true 3 {}).chan 0).sess ≠ none) := by
  refine ⟨by decide, ⟨by decide, by unfold Says.canEnd; (repeat' apply And.intro) <;> decide, by decide⟩, by decide, by decide⟩

/-- R438: the message an operator signs has 68 octets; the challenge lies from octet 12 on. -/
theorem test_auth_message :
    let m := ({ State.reset with kn := { chals := [(9, 0x0102, 10)] } }).authMessage 17 9 2 15
    m.length = 68 ∧ m.take 4 = [0x4B, 0x41, 0x55, 0x54] ∧ (m.drop 12).take 3 = [2, 1, 0] ∧ m.drop 60 = [9, 0, 0, 0, 2, 15, 17, 0] := by decide

theorem test_witness_KennelCommandResults :
    Says.framed (ken true 3 {}) (hdr 0) 0 ∧ Says.framed (ken true 5 {}) (hdr 0) 0 52 ∧ Says.framed (ken true 6 {}) (hdr 4) 4 ∧ Says.framed (ken true 3 {}) (hdr 4) 4 (4 + 4096) ∧
    Says.framed (ken true 3 {}) (ihdr 104) 104 ∧ Says.framed (ken true 2 {}) (ihdr 100) 100 ∧ Says.framed (ken true 3 {}) (ihdr 104) 104 0 (some true) ∧
    Says.framed (ken true 3 {}) (hdr 4) 4 0 (some true) ∧ Says.framed (ken true 3 {}) (hdr 12) (4 + 8 * [(1 : BitVec 64)].length) 0 (some true) ∧
    Says.framed (ken true 4 {}) (hdr 6) (4 + [(0x30 : Octet), 0].length) 0 (some true) ∧ Says.framed (ken false 3 {}) (hdr 4) 4 (1024 : BitVec 16).toNat (some false) ∧
    Says.framed (ken false 3 {}) (hdr 48) 48 192 (some false) :=
  ⟨framed_hdr _ _ _ _ (by decide +kernel), framed_hdr _ _ _ _ (by decide +kernel), framed_hdr _ _ _ _ (by decide +kernel), framed_hdr _ _ _ _ (by decide +kernel),
   framed_ihdr _ _ _ _ (by decide +kernel) (by decide), framed_ihdr _ _ _ _ (by decide +kernel) (by decide), framed_ihdr _ _ _ _ (by decide +kernel) (by decide),
   framed_hdr _ _ _ _ (by decide +kernel), framed_hdr _ _ _ _ (by decide +kernel), framed_hdr _ _ _ _ (by decide +kernel), framed_hdr _ _ _ _ (by decide +kernel),
   framed_hdr _ _ _ _ (by decide +kernel)⟩

theorem test_witness_KennelCommandResults_states :
    (let s := ken true 3 { coKeys := [(0, some [1]), (3, some [2])], usrKeys := [(15, some [3])], chals := [(9, 0, 10)] }
     s.kn.running = false ∧ s.domOn domKennel = true ∧ s.knState = 3 ∧ (∃ c ∈ s.kn.chals, c.1 = (9 : Reg32).toNat ∧ s.time ≤ c.2.2) ∧ s.opKey (1 : Octet).toNat (3 : Octet).toNat ≠ none ∧
       s.opKey (2 : Octet).toNat (15 : Octet).toNat ≠ none ∧ s.opKey 1 1 = none ∧ s.kn.coKeys.length ≠ 1 ∧ (ken true 3 { coKeys := [(3, some [2])] }).kn.coKeys.length = 1 ∧
       s.kn.hard = false ∧ (ken true 5 { hard := true }).kn.hard = true ∧ s.kn.cur < s.kn.slots.length ∧ mget (fun _ => 0) s.kn.counters 7 < 127 ∧
       127 ≤ mget (fun _ => 0) (ken true 3 { counters := [(7, 127)] }).kn.counters 7) ∧
    (let s := ken true 6 { slots := [.zeroized true, .unused, .unused, .unused] }
     s.knState = 6 ∧ s.bit R.KN_STAT_ZPIN = false ∧ 1 < s.kn.slots.length ∧ s.kn.slots[1]? = some .unused ∧ (∀ j, j < 1 → s.kn.slots[j]? ≠ some .unused) ∧
       s.kn.slots.getD (0 : Octet).toNat .unused = .zeroized true ∧ s.kn.slots.getD (3 : Octet).toNat .unused = .unused ∧ 4 ≤ (4 : Octet).toNat ∧
       (ken true 6 { slots := [.zeroized true] }).kn.slots.all (fun x => x ≠ .unused) = true ∧ (set [(R.KN_STAT_ZPIN, 1)] s).bit R.KN_STAT_ZPIN = true) ∧
    (∀ x, ((ken false 3 {}).chan 0).sess = some x → x.co = false) := by
  refine ⟨by decide +kernel, by decide +kernel, fun x h => ?_⟩
  have e : ((ken false 3 {}).chan 0).sess = some ⟨1, false, 0, 1⟩ := by decide +kernel
  rw [e] at h; cases h; rfl

/-- The key of a role: 97 octets; a certificate the size of its record. -/
theorem test_witness_KennelCommandResults_lengths :
    (List.replicate 97 (0 : Octet)).length = 97 ∧ (List.replicate 48 (0 : Octet)).length = 48 ∧ ¬ ((3 : Octet) = 1 ∧ (3 : Octet).toNat < 4 ∨ (3 : Octet) = 2 ∧ (3 : Octet).toNat < 16) := by decide
/-! ### The host interface -/

def ev0 : Event := ⟨0x40, 4, 0, List.replicate 36 0⟩

theorem test_witness_MailboxResults :
    (serving.rd (R.MB_STAT_STATE 0) = 1 ∧ serving.cmdSize 0 ≤ (16 : Reg32).toNat % 4096 ∧ ¬ serving.cmdSize 0 ≤ (15 : Reg32).toNat % 4096 ∧ (0x40000000 : Reg32).getLsbD 30 = true ∧
      (0x8000CC00 : Reg32).getLsbD 30 = false ∧ (0x8000CC00 : Reg32).getLsbD 31 = true ∧ serving.rd (R.MB_STAT_STATE 15) = 0 ∧ serving.bit (R.MB_CTRL_EN 15) = false ∧
      (0x80003C00 : Reg32).getLsbD 31 = true ∧ (0 : Reg32).getLsbD 31 = false ∧ serving.bit (R.MB_CTRL_EN 0) = true ∧ (serving.chan 0).busy = none ∧ serving.host.evtMbx = none) ∧
    (let s0 := on [5] serving
     let s := { s0 with host := { s0.host with evtMbx := some 0, events := [ev0], linkUp := true, chans := [(0, { busy := some ⟨5, 0, 0, 0, true, true, false⟩ })] } }
     let u := set [(R.MB_CPL_HEAD_V 0, 1)] s
     s.stewardUp = true ∧ s.host.evtMbx = some 0 ∧ s.host.events = [ev0] ∧ s.domOn domHost = true ∧ s.host.linkUp = true ∧ s.host.d3hot = false ∧ s.rd (R.MB_STAT_STATE 0) = 1 ∧
       (s.rd (R.MB_STAT_CTAIL 0) + 1) % s.cplSize 0 ≠ s.rd (R.MB_CPL_HEAD_V 0) ∧ (u.rd (R.MB_STAT_CTAIL 0) + 1) % u.cplSize 0 = u.rd (R.MB_CPL_HEAD_V 0) ∧
       (s.chan 0).busy = some ⟨5, 0, 0, 0, true, true, false⟩) ∧
    (let s0 := set [(R.SVC_STAT_LINK, 1)] serving
     let s := { s0 with host := { s0.host with chans := [(19, { events := [ev0] })] } }
     s.stewardUp = true ∧ s.bit R.SVC_STAT_LINK = true ∧ (s.chan (16 + (3 : BitVec 2).toNat)).events = [ev0] ∧ 128 ≤ s.host.svc.mtu.toNat ∧ ev0.arg.length = 36) ∧
    (State.reset.domOn domHost = false ∨ State.reset.domOn domHost = true) ∧ (set [(R.PD_STAT_STATE 5, 0)] State.reset).domOn domHost = false ∧ (on [5] State.reset).domOn domHost = true ∧
    (State.reset.canStart 15 = false ∧ 20 ≤ ({ hdr 0 with ch := 20 } : BHdr).ch.toNat ∧ (2 : BitVec 8) ≠ 1 ∧ (1 : Reg32) ≠ 0) := by decide +kernel

theorem test_witness_MailboxResults_framed :
    Says.framed serving (hdr 0) 0 ∧ Says.framed (withRole false serving) (hdr 8) 8 ∧ Says.framed serving (hdr 0) 0 36 ∧ Says.framed serving (hdr 4) 4 ∧
    (∀ x, ((withRole false serving).chan 0).sess = some x → x.co = false) := by
  refine ⟨framed_hdr _ _ _ _ (by decide), framed_hdr _ _ _ _ (by decide), framed_hdr _ _ _ _ (by decide), framed_hdr _ _ _ _ (by decide), fun x h => ?_⟩
  have e : ((withRole false serving).chan 0).sess = some ⟨1, false, 0, 1⟩ := by decide
  rw [e] at h; cases h; rfl

/-- The SVC port up; channel 19 held by source 5 with a session 77, the others free or held by others. -/
def svcs (l : List (Nat × Chan)) : State := let s := set [(R.SVC_STAT_LINK, 1)] serving
  { s with host := { s.host with chans := l } }

def dgram (ses seq : BitVec 64) (op : BitVec 16) (sig : Bool) : SvcDatagram := ⟨5, ses, seq, true, op, 1, sig⟩

theorem test_witness_SvcResults :
    (let s := svcs [(19, { src := some 5, sess := some ⟨77, true, 0, 1⟩, seq := 3 })]
     let d := dgram 77 3 0x0101 false
     s.stewardUp = true ∧ s.bit R.SVC_STAT_LINK = true ∧ d.magicOk = true ∧ State.reset.stewardUp = false ∧ (∀ j, j < 20 → 16 ≤ j → j ≠ 19 → (s.chan j).src ≠ some d.src) ∧
       (s.chan 19).src = some d.src ∧ d.session ≠ 0 ∧ (s.chan 19).sess = some ⟨77, true, 0, 1⟩ ∧ d.session.toNat = 77 ∧ d.seq.toNat ≤ (s.chan 19).seq ∧
       (s.chan 19).seq < (dgram 77 4 0x0101 true).seq.toNat ∧ (dgram 77 4 0x0101 true).sigOk = true ∧ d.sigOk = false ∧ d.opcode ∈ [0x0101#16, 0x0103, 0x0201, 0x0510, 0x0A06]) ∧
    (let s := svcs [(16, { src := some 1 }), (17, { src := some 2 }), (18, { src := some 3 })]
     let d := dgram 0 0 0x0604 false
     (s.chan 19).src = none ∧ (∀ j, j < 20 → 16 ≤ j → (s.chan j).src ≠ some d.src ∧ (j < 19 → (s.chan j).src ≠ none)) ∧ d.session = 0 ∧
       d.opcode ∈ [0x0101#16, 0x0102, 0x0601, 0x0602, 0x0603, 0x0604] ∧ (dgram 0 0 0x0103 false).opcode ∈ [0x0103#16, 0x0201, 0x0501, 0x0608, 0x0A06] ∧
       (dgram 0 0 0x0B01 false).opcode ∈ [0x0000#16, 0x0109, 0x0511, 0x0B01] ∧ (s.chan 19).sess = none ∧ (dgram 1 0 0x0101 false).session ≠ 0 ∧ (s.chan 16).src ≠ none ∧ (s.chan 16).sess = none) ∧
    (let s := svcs [(16, { src := some 1 }), (17, { src := some 2 }), (18, { src := some 3 }), (19, { src := some 4 })]
     ∀ j, j < 20 → 16 ≤ j → (s.chan j).src ≠ some 5 ∧ (s.chan j).src ≠ none) ∧
    (State.reset.bit R.SVC_STAT_LINK = false ∧ (set [(R.SVC_STAT_LINK, 1)] State.reset).bit R.SVC_STAT_LINK ≠ false) ∧
    State.reset.host.exports[(63 : BitVec 6).toNat]? = none := by
  (repeat' apply And.intro) <;> decide +kernel

/-- Context 0 of cluster 0: SPB 1, LIN20, depth 3, its slots from the start of the store; v, the low grain of its first slot's header; an export
of it due from beat 0. -/
def exporting (v : Grain) : State :=
  let s := set [(R.SVC_STAT_LINK, 1)] (on [3, 4, 64] serving)
  { s with boot := { rom := false }, str := { s.str with ctx := [(0, 0x2000100000), (2, 0x600)] }, mem := if v = 0 then [] else [(clusterBase 0, v)],
           host := { s.host with exports := [(⟨0, 1, false, 9, 0⟩, 0, 0)] } }

theorem test_witness_SvcResults_export :
    let e : ExportEntry := ⟨0, 1, false, 9, 0⟩
    let c := (exporting 1).cfg 0
    (exporting 1).host.exports[(0 : BitVec 6).toNat]? = some (e, 0, 0) ∧ (exporting 1).stewardRuns = true ∧ c.on = true ∧ (exporting 1).ownerOn c = true ∧
      (((exporting 1).long (c.slotAt (BitVec.ofNat 48 (0 + 0)))).getLsbD 0 = true) ∧ (((exporting 0).long (c.slotAt (BitVec.ofNat 48 (0 + 0)))).getLsbD 0 = false) ∧
      (((exporting 1).long (c.slotAt 0)).extractLsb' 16 24).toNat = (0 + 1 - 1) % 2 ^ 24 ∧ ((exporting 1).beat.num - BitVec.ofNat 48 (0 + (1 - 1))).toNat < c.depth ∧
      36 + 5 * 1 + (1 * c.spb * (if c.store = 2 then 40 else 20) + 7) / 8 + (if e.ip6 = true then 48 else 28) ≤ (exporting 1).host.svc.mtu.toNat ∧
      (exporting 1).bit R.SVC_STAT_LINK = true ∧ (exporting 1).eccUnc = [] := by
  (repeat' apply And.intro) <;> decide +kernel

theorem test_witness_SvcResults_commands :
    Says.framed serving (hdr 56) 56 ∧ Says.framed serving (hdr 32) (4 + 28 * [(⟨0, 4096, true, 0, 0⟩ : ExportEntry)].length) ∧ Says.framed serving (ihdr 1824) (4 + 28 * 65) ∧ Says.framed serving (hdr 0) 0 80 ∧
    (set [(R.J_STAT_STATE, jRunning)] serving).jState = 3 ∧ 9000 < (9001 : BitVec 16).toNat ∧ (1500 : BitVec 16).toNat ≤ 9000 :=
  ⟨framed_hdr _ _ _ _ (by decide), framed_hdr _ _ _ _ (by decide), framed_ihdr _ _ _ _ (by decide) (by decide), framed_hdr _ _ _ _ (by decide), by decide, by decide, by decide⟩

/-- The header of the worked example's CTX_READ (15_host_and_steward.md): OPCODE 0x0204, TAG 0x003F, LEN 8, BVER 1, RADDR 0x1_2342_0000, RCAP 80. -/
theorem test_command_entry :
    let e : List Octet := [0x04, 0x02, 0x3F, 0, 8, 0, 0, 0, 0, 0, 0, 1, 0, 0, 0, 0, 0, 0, 0x42, 0x23, 1, 0, 0, 0, 80, 0, 0, 0, 0, 0, 0, 0, 0x43] ++ List.replicate 95 0
    readEntry 1 .ok e = (0x0204, ⟨1, 0x3F, 1, 8, true, false, 0, 0x123420000, 80, .ok⟩) ∧
      ((readEntry 1 .ok (e.set 13 1)).2).zeros = false ∧ ((readEntry 1 .ok (e.set 8 1)).2).ind = true := by decide

/-- The completion of the worked example: TAG 0x003F, OK, DLEN 80, CIDX 63, CFLAGS 0x03, at 0x1_2341_0FC0. -/
theorem test_completion_entry :
    cplOctets 0x3F 0 80 63 true true false [] = [0x3F, 0, 0, 0, 80, 0, 0, 0, 63, 0, 3, 0, 0, 0, 0, 0] ++ List.replicate 48 0 ∧
      (set [(R.MB_CPL_HI_V 1, 1), (R.MB_CPL_LO_V 1, 0x23410000 / 64)] State.reset).cplAddr 1 63 = 0x123410FC0 := by decide
/-! ### Windows and register access -/

/-- The device as a host in D0 with its link up reaches it, both windows placed at grain 2^32 hi + lo. -/
def win (hi lo : Nat) : State :=
  let s := set [(⟨R.BAR2_BASE_LO, 0, 32⟩, lo), (R.BAR2_BASE_HI_V, hi), (⟨R.BAR4_BASE_LO, 0, 32⟩, lo), (R.BAR4_BASE_HI_V, hi)] (on [3, 4, 5, 6, 64] serving)
  { s with host := { s.host with linkUp := true } }

theorem test_witness_WindowResults :
    (let s := win 0 0x40000000
     s.domOn domHost = true ∧ s.host.linkUp = true ∧ s.host.d3hot = false ∧ State.reset.host.d3hot = false ∧ (set [(R.PD_STAT_STATE 5, 0)] State.reset).domOn domHost = false ∧
       (1 : BitVec 29).toNat % 4 ≠ 0 ∧ (4 : BitVec 29).toNat % 4 = 0 ∧ (7 : BitVec 4) ≠ 0xF ∧
       s.winPlace ((s.rdW R.BAR2_BASE_HI * 2 ^ 32 + s.rdW R.BAR2_BASE_LO + (4 : BitVec 29).toNat / 4) % 2 ^ 40 / 2 * 2) = .mem 0x40000000 ∧ s.badLong 0x40000000 = false) ∧
    (let s := win 0 0x50000000
     s.winPlace ((s.rdW R.BAR2_BASE_HI * 2 ^ 32 + s.rdW R.BAR2_BASE_LO + (4 * 28 : BitVec 29).toNat / 4) % 2 ^ 40 / 2 * 2) = .ctx 0 14 ∧
       s.winPlace ((s.rdW R.BAR2_BASE_HI * 2 ^ 32 + s.rdW R.BAR2_BASE_LO + (4 * 31 : BitVec 29).toNat / 4) % 2 ^ 40 / 2 * 2) = .ctx 0 15) ∧
    (let s := win 255 0xF8000000
     s.winPlace ((s.rdW R.BAR2_BASE_HI * 2 ^ 32 + s.rdW R.BAR2_BASE_LO + (4 : BitVec 29).toNat / 4) % 2 ^ 40 / 2 * 2) = .none ∧
       s.winPlace ((s.rdW R.BAR4_BASE_HI * 2 ^ 32 + s.rdW R.BAR4_BASE_LO + 2 * ((0 : BitVec 29).toNat / 5)) % 2 ^ 40 / 2 * 2) = .none) ∧
    (4096 < (4097 : BitVec 13).toNat ∧ 2 ^ 29 < (536870911 : BitVec 29).toNat + (2 : BitVec 13).toNat ∧ (536870911 : BitVec 29).toNat + (1 : BitVec 13).toNat ≤ 2 ^ 29 ∧
      536870910 ≤ (536870910 : BitVec 29).toNat) ∧
    (let s := win 0 0x40000000
     (∀ o, o < 11 → ∃ k ∈ [0x40000000, 0x40000002, 0x40000004], s.winPlace ((s.rdW R.BAR4_BASE_HI * 2 ^ 32 + s.rdW R.BAR4_BASE_LO + 2 * (o / 5)) % 2 ^ 40 / 2 * 2) = .mem k ∧ s.badLong k = false) ∧
       (5 : BitVec 29).toNat / 5 = ((5 : BitVec 29).toNat + [some (1 : Octet), none, none, none, some 2].length - 1) / 5) ∧
    (let s := win 0 0x40000000
     (∀ j, j < 3 → s.stewPlace (0x40000000 + 2 * j) = .mem (0x40000000 + 2 * j)) ∧ s.stewPlace 0x41000000 = .off ∧ s.stewPlace 0x3000000000 = .bad ∧ (8193 : BitVec 16).toNat > 8192 ∧
       (0x50000000 : Nat) = 0x50000000 + 32 * 0 + 2 * 0) := by
  (repeat' apply And.intro) <;> decide +kernel

theorem test_witness_WindowResults_framed :
    Says.framed (win 0 0x40000000) (hdr 8) 8 (5 * (8192 : BitVec 16).toNat) ∧ Says.framed (win 0 0x40000000) (hdr 13) (8 + 5 * [(1 : Long)].length) ∧
    Says.framed (win 0 0x40000000) (ihdr 40968) (8 + 5 * 8192) :=
  ⟨framed_hdr _ _ _ _ (by decide +kernel), framed_hdr _ _ _ _ (by decide +kernel), framed_ihdr _ _ _ _ (by decide +kernel) (by decide)⟩

theorem test_witness_RegisterAccessResults :
    (win 0 0).pwr.slot = [] ∧ Says.noLink (win 0 0) ∧ (win 0 0).domOn domHost = true ∧ (win 0 0).host.linkUp = true ∧ (win 0 0).host.d3hot = false ∧ (win 0 0).domOn domSteward = true ∧
    ((win 0 0).core 1024).takes = true ∧ ((({ win 0 0 with cores := [(1024, {})] } : State).core 1024).takes = false) ∧ ({ win 0 0 with host := { (win 0 0).host with d3hot := true } } : State).host.d3hot = true ∧
    (2 : BitVec 16).toNat % 4 ≠ 0 ∧ (win 0 0).bit R.COMMIT_STAT_PENDING = false ∧ (set [(R.COMMIT_STAT_PENDING, 1)] (win 0 0)).bit R.COMMIT_STAT_PENDING = true := by
  unfold Says.noLink; (repeat' apply And.intro) <;> decide +kernel

/-! ### Time and cores -/

/-- Cluster 0 on, its core 15 held, core 0 halted, core 1 running; DRAM on. -/
def cored : State := { set [(R.DDR_STAT_STATE 0, 2), (R.DDR_STAT_V 0, 8)] (on [3, 4, 6, 64] serving) with cores := [(0, { run := .halted 2 }), (1, { run := .running })] }

theorem test_witness_TimeAndCoreCommandResults :
    (let s := serving
     s.role = roleAlone ∧ (set [(R.BEAT_STAT_ROLE, 2)] s).role = roleMember ∧ 1000000000 ≤ (1000000000 : Reg32).toNat ∧ (999999999 : Reg32).toNat < 1000000000 ∧ s.jState = 0 ∧ s.jrn.pf = none ∧
       s.holdUsed + 100 ≤ 262144 ∧ 2 ^ 55 ≤ (0xFF80000000000000 : BitVec 64).toInt.natAbs ∧ (0xFF80000000000001 : BitVec 64).toInt.natAbs < 2 ^ 55 ∧ s.beat.ppsSec = none) ∧
    (let c : PtpConfig := ⟨1, 2, 127, 3, 0xF9, 4, 5, 0, 0⟩
     c.profile.toNat ≤ 1 ∧ c.transport.toNat ≤ 2 ∧ c.domain.toNat ≤ 127 ∧ c.flags.toNat ≤ 3 ∧ -7 ≤ c.logSync.toInt ∧ c.logSync.toInt ≤ 1 ∧ -3 ≤ c.logAnnounce.toInt ∧ c.logAnnounce.toInt ≤ 4 ∧
       -7 ≤ c.logDelayReq.toInt ∧ c.logDelayReq.toInt ≤ 5 ∧ ¬ ({ c with profile := 2 } : PtpConfig).profile.toNat ≤ 1) ∧
    (let s := cored
     s.domOn (domCluster 0) = true ∧ s.domOn (domCluster 63) = false ∧ (s.core 0).isHalted = true ∧ (s.core 15).run = .held ∧ (s.core 1).run ≠ .held ∧ (s.core 1).isHalted = false ∧
       (∀ k, k < 16 → (0x8001 : BitVec 16).getLsbD k = true → (s.core (16 * 0 + k)).run = .held ∨ (s.core (16 * 0 + k)).isHalted = true) ∧ (0x7FFF : Long).toNat + 1 ≤ 0x8000 ∧
       0x10000 ≤ (0x8FFFF : Long).toNat ∧ (0x8FFFF : Long).toNat + 1 ≤ 0x90000 ∧ s.domOn domQueue = true ∧ Says.accepts s (5 : BitVec 16).toNat ∧
       s.bit R.BEAT_STAT_RUNNING = false ∧ (set [(R.BEAT_STAT_RUNNING, 1)] s).bit R.BEAT_STAT_RUNNING = true ∧ s.domOn domMem = true ∧ (set [(R.PD_STAT_STATE 6, 0)] s).domOn domMem = false ∧
       (0x1000000000 : Long).toNat % 0x800000000 + 1 ≤ s.dramGrains (((0x1000000000 : Long).toNat - 0x1000000000) / 0x800000000) ∧
       (0x1000000000 : Long).toNat % 0x800000000 + 1 ≤ (set [(R.PD_STAT_STATE 6, 0)] s).dramInstalled (((0x1000000000 : Long).toNat - 0x1000000000) / 0x800000000)) := by
  unfold Says.accepts; (repeat' apply And.intro) <;> decide +kernel

theorem test_witness_TimeAndCoreCommandResults_framed :
    Says.noLink cored ∧ Says.framed cored (hdr 12) 12 ∧ Says.framed cored (hdr 8) 8 ∧ Says.framed cored (hdr 0) 0 36 ∧ Says.framed cored (hdr 19) (16 + (20 * [(1 : Grain)].length + 7) / 8) 48 ∧
    Says.framed cored (hdr 4) 4 16 ∧ (∀ k, cored.badLong k = false) ∧ ∀ i, (cored.core i).haltReq = false := by
  refine ⟨by unfold Says.noLink; decide +kernel, framed_hdr _ _ _ _ (by decide +kernel), framed_hdr _ _ _ _ (by decide +kernel), framed_hdr _ _ _ _ (by decide +kernel),
    framed_hdr _ _ _ _ (by decide +kernel), framed_hdr _ _ _ _ (by decide +kernel), fun k => by rfl, fun i => ?_⟩
  have h : cored.cores = [(0, { run := .halted 2 }), (1, { run := .running })] := by rfl
  simp only [State.core, h, mget, lookup]
  split
  · rfl
  · split
    · rfl
    · simp only [Option.getD_none, coreReset]; split <;> rfl
/-! ### Power -/

/-- Is the request free to act (R499 to R501): as the statement's free, by closed evaluation? -/
def freeB (s : State) (d : Nat) (st : Nat) : Bool :=
  decide (1 ≤ d ∧ d < 20 ∨ 64 ≤ d ∧ d < 128) && decide (st ≤ 2) && decide (d = 5 → st = 2) && (st != 2 || (Says.needs d).all s.domOn) &&
    (st == 2 || s.rd (R.PD_STAT_STATE d) != 2 || (List.range 128).all (fun e => !(Says.needs e).contains d || (decide (20 ≤ e) && decide (e < 64)) || !s.domOn e))

def withTrans (d : Nat) (r : PwrReq) (s : State) : State := { s with pwr := { s.pwr with trans := [(d, some r)] } }

theorem test_witness_PowerResults_set :
    Says.framed serving (hdr 4) 4 4 ∧ (20 : Octet).toNat = 20 ∧ 2 < (3 : Octet).toNat ∧ (∃ e ∈ Says.needs 64, serving.domOn e = false) ∧
    (let s := on [3, 4, 64] serving
     s.rd (R.PD_STAT_STATE 3) = 2 ∧ 3 ∈ Says.needs 64 ∧ s.domOn 64 = true ∧ freeB s 64 0 = true ∧ freeB s 127 2 = true ∧ freeB s 64 2 = true ∧ s.rd (R.PD_STAT_STATE 64) = 2 ∧ s.slotOf 64 = none ∧
       s.bit (R.PD_STAT_BUSY 64) = false ∧ (set [(R.PD_STAT_BUSY 127, 1)] s).bit (R.PD_STAT_BUSY 127) = true ∧ freeB (set [(R.PD_STAT_BUSY 127, 1)] s) 127 2 = true ∧ s.rd (R.PD_STAT_STATE 127) ≠ 2 ∧
       s.bit R.BEAT_STAT_RUNNING = false ∧ (∀ k, k < 16 → (s.core (16 * 0 + k)).run ≠ .running) ∧ (set [(R.BEAT_STAT_RUNNING, 1)] s).bit R.BEAT_STAT_RUNNING = true ∧
       freeB (set [(R.BEAT_STAT_RUNNING, 1)] s) 64 1 = true ∧ freeB s 6 2 = true ∧ (6 : Nat) < 64) := by
  refine ⟨framed_hdr _ _ _ _ (by decide +kernel), ?_⟩
  (repeat' apply And.intro) <;> decide +kernel

theorem test_witness_PowerResults_commands :
    Says.framed serving (hdr 4) 4 (4 * (128 : Octet).toNat) ∧ Says.framed serving (hdr 4) 4 ∧ Says.framed serving (hdr 4) 4 46 ∧
    (128 : Octet).toNat + 0 ≤ 128 ∧ (3 < (4 : Octet).toNat ∧ (3 : Octet).toNat ≤ 3) ∧
    (let s := set [(R.DDR_STAT_STATE 3, 2), (R.DDR_STAT_TYPE 3, 2), (R.PD_STAT_STATE 6, 2)] serving
     s.rd R.PWR_STAT_DPL ≠ 3 ∧ (s.rd R.PWR_STAT_DPL = 0 ∨ (set [(R.PWR_STAT_DPL, 0)] s).rd R.PWR_STAT_DPL = 0) ∧ s.rd (R.DDR_STAT_STATE 3) = 2 ∧ s.rd (R.DDR_STAT_TYPE 3) = 2 ∧ s.domOn domMem = true) ∧
    mget (fun _ => none) serving.pwr.speed 63 = none ∧ serving.pwr.measCmd = none ∧ (List.range 64).filter (fun k => serving.domOn (64 + k)) = [] ∧
    (List.range 64).filter (fun k => (on [127] serving).domOn (64 + k)) = [63] := by
  refine ⟨framed_hdr _ _ _ _ (by decide +kernel), framed_hdr _ _ _ _ (by decide +kernel), framed_hdr _ _ _ _ (by decide +kernel), ?_⟩
  (repeat' apply And.intro) <;> decide +kernel

/-- Transitions under way: a cluster to on at an edge, a cluster off, MEM on with its command on mailbox 15, retention. -/
theorem test_witness_PowerResults_ends :
    (let s := withTrans 127 ⟨2, 1, none⟩ (set [(R.BEAT_STAT_RUNNING, 1)] serving)
     s.pwr.slot = [] ∧ mget (fun _ => none) s.pwr.trans 127 = some ⟨2, 1, none⟩ ∧ s.bit R.BEAT_STAT_RUNNING = true ∧ mget (fun _ => none) s.pwr.trans 64 = none ∧ s.kn.latched = false) ∧
    (let b : Busy := ⟨5, 0, 0, 0, true, true, false⟩
     let s0 := withTrans 64 ⟨0, 1, some 15⟩ (on [3, 4, 5] serving)
     let s := { s0 with host := { s0.host with chans := [(15, { busy := some b })], linkUp := true } }
     mget (fun _ => none) s.pwr.trans 64 = some ⟨0, 1, some 15⟩ ∧ (s.chan 15).busy = some b ∧ b.discard = false ∧ b.ringOk = true ∧ s.domOn domHost = true ∧ s.host.linkUp = true ∧ s.host.d3hot = false ∧
       s.rd (R.MB_STAT_STATE 15) ≠ 2 ∧ (s.core 1024).run ≠ .locked) ∧
    (let s := withTrans 6 ⟨2, 1, none⟩ serving
     mget (fun _ => none) s.pwr.trans 6 = some ⟨2, 1, none⟩ ∧ s.rd (R.PD_STAT_STATE 6) = 0) ∧
    (set [(R.PD_STAT_STATE 64, 1)] serving).rd (R.PD_STAT_STATE 64) = 1 ∧ ({ serving with pwr := { retrain := true } } : State).pwr.retrain = true ∧ serving.pwr.retrain = false := by
  (repeat' apply And.intro) <;> decide +kernel

theorem test_witness_PowerResults_speed :
    (on [127] serving).domOn (64 + 63) = true ∧ 63 ∉ serving.pwr.measuring ∧ serving.domOn (64 + 63) = false ∧ (List.replicate 20 (0 : BitVec 16)).length ≠ 21 ∧
    (List.replicate 21 (0 : BitVec 16)).length = 21 ∧ [63].filter (fun k => decide (k ≠ 63)) = ([] : List Nat) ∧ [0, 63].filter (fun k => decide (k ≠ 63)) ≠ [] ∧
    ({ serving with pwr := { measCmd := some (0, [63]) } } : State).pwr.measCmd = some (0, [63]) ∧ serving.pwr.trip = false ∧ ({ serving with pwr := { trip := true } } : State).pwr.trip = true := by
  (repeat' apply And.intro) <;> decide +kernel

/-! ### Whistle and debug -/

def img1 : WhImage := ⟨1, [], 0, 0, 0⟩

theorem test_witness_WhistleDebugResults :
    (let s := serving
     s.jState = 0 ∧ s.jrn.pf = none ∧ s.jrn.hold = [] ∧ s.jrn.windows = [] ∧ s.wh.deferred = none ∧ s.wh.reqs = [] ∧ s.wh.images.length < 2 ∧ s.bit R.BEAT_STAT_RUNNING = false ∧
       (set [(R.BEAT_STAT_RUNNING, 1)] s).bit R.BEAT_STAT_RUNNING = true) ∧
    (let s := set [(R.WH_CTRL_PIN_MODE, 3)] serving
     s.rd R.WH_CTRL_PIN_MODE = 3 ∧ s.wh.pinQuiet ≤ s.time ∧ ¬ (1 : Int) ≤ ({ s with wh := { s.wh with pinQuiet := 1 } } : State).time) ∧
    (let s := { serving with wh := { images := [img1] } }
     s.wh.images = [img1] ∧ s.wh.deferred = none ∧ (set [(R.WH_CTRL_FREEZE, 0)] s).bit R.WH_CTRL_FREEZE = false ∧ (set [(R.WH_CTRL_FREEZE, 1)] s).bit R.WH_CTRL_FREEZE = true ∧ serving.wh.images = []) ∧
    (let d : BitVec 48 × List WhReq := (0, [⟨0, 1, 0, none, 0, none⟩])
     let s := { serving with wh := { images := [img1, img1], deferred := some d } }
     s.wh.deferred = some d ∧ d.2 ≠ [] ∧ s.wh.reqs = [] ∧ [img1].length < 2 ∧ (∀ x ∈ d.2, x.ch = none)) ∧
    (let s := { on [3, 4, 64] serving with wh := { tapDebug := true, tapIr := 0x20 } }
     s.pwr.slot = [] ∧ s.stewardUp = true ∧ s.wh.tapDebug = true ∧ s.wh.tapIr = 0x20 ∧ serving.wh.tapDebug = false ∧ (0x40000000 : Long).toNat % 2 = 0 ∧ s.stewPlace (0x40000000 : Long).toNat = .mem 0x40000000 ∧
       s.badLong 0x40000000 = false) := by
  (repeat' apply And.intro) <;> decide +kernel

/-- A member of a running pack that may whistle; with one port of its tree, UP. -/
def packer : State := { set [(R.BEAT_STAT_ROLE, 2), (R.TR_CTRL_WHISTLE_EN, 1), (R.FP_STAT_STATE 7, 5)] serving with
  beat := { phase := .running }, fab := { State.reset.fab with ports := [(7, { edge := some (1, 0, 0) })], parent := some 7 } }

theorem test_witness_WhistleDebugResults_commands :
    (Says.framed serving (hdr 4) 4 ∧ Says.framed serving (hdr 12) 12 ∧ Says.framed serving (hdr 4) 4 (4 + 4 * (8192 : BitVec 16).toNat) ∧ Says.framed serving (hdr 18) 18 10 ∧
      Says.framed (withRole true serving) (hdr 4) 4 0 (some true)) ∧
    (serving.aligned = false ∧ packer.aligned = true ∧ ((1 : BitVec 48) - packer.beat.num).toNat < 2 ∧ 2 ≤ ((100 : BitVec 48) - packer.beat.num).toNat ∧ ((100 : BitVec 48) - packer.beat.num).toNat < 2 ^ 47 ∧
      packer.bit R.TR_CTRL_WHISTLE_EN = true ∧ packer.beat.phase ≠ .stopped ∧ packer.time + 2000 * nsU ≤ packer.edgeAt 100 ∧ packer.wh.armed.length < 16 ∧ packer.fpUp 7 = true ∧
      (packer.linkOf 7 2).waiting = [] ∧ Says.noLink (set [(R.FP_STAT_STATE 7, 0)] packer)) ∧
    (serving.wh.latest = none ∧ ({ serving with wh := { latest := some img1 } } : State).wh.latest = some img1) ∧
    (let s := { on [3, 4, 64] serving with cores := [(0, { run := .halted 4 }), (15, { run := .running })] }
     s.domOn (64 + 0) = true ∧ s.domOn (64 + 63) = false ∧ s.wh.haltWait = [] ∧ (∀ k, k < 16 → (1 : BitVec 16).getLsbD k = true → (s.core (16 * 0 + k)).run = .halted 4) ∧
       (0x8000 : BitVec 16) = BitVec.ofNat 16 (2 ^ 15) ∧ (s.core 15).takes = true ∧ s.rd R.WH_FAULT_EN_R523 / 2 % 2 = 0 ∧ (s.core 1).run = .held) ∧
    ((89 : Octet).toNat < 90 ∧ ¬ ((36 : Octet).toNat ≤ 35) ∧ (1 : Octet).toNat ≤ 1 ∧ 1 < (2 : Octet).toNat) := by
  refine ⟨⟨framed_hdr _ _ _ _ (by decide +kernel), framed_hdr _ _ _ _ (by decide +kernel), framed_hdr _ _ _ _ (by decide +kernel), framed_hdr _ _ _ _ (by decide +kernel),
    framed_hdr _ _ _ _ (by decide +kernel)⟩, ?_⟩
  unfold Says.noLink; (repeat' apply And.intro) <;> decide +kernel

/-- This node's record, with one neighbour at port 7. -/
def nearRec (x : BitVec 64) : Lsr := { farRec x with serial := x, addr := 1, nbrs := [⟨7, 1, 0, x ^^^ 1⟩] }

/-- The tree of a pack of two nodes is its one link, whichever is the root. -/
theorem test_witness_WhistleDebugResults_tree :
    ({ packer with fab := { packer.fab with lsdb := [(nearRec Config.serial, 0), (farRec Config.serial, 0)] } } : State).treePorts = [7] := by
  have f : ∀ x, (farRec x).serial = x ^^^ 1 ∧ (farRec x).nbrs = [⟨1, 7, 2, x⟩] ∧ (nearRec x).serial = x ∧ (nearRec x).nbrs = [⟨7, 1, 0, x ^^^ 1⟩] :=
    fun x => ⟨rfl, rfl, rfl, rfl⟩
  unfold State.treePorts State.graph
  simp only [List.map_cons, List.map_nil]
  have o := other_serial Config.serial
  obtain ⟨f1, f2, f3, f4⟩ := f Config.serial
  generalize nearRec Config.serial = r at f3 f4 ⊢
  generalize farRec Config.serial = q at f1 f2 ⊢
  generalize Config.serial = x at f1 f2 f3 f4 o ⊢
  generalize x ^^^ 1 = y at f1 f4 o
  have o' : ¬ x = y := fun h => o h.symm
  rw [segment_pair r q x y 0 f4 f3 f1 f2 o]
  have a1 : nextAll [r, q] x = [y] := by simp [nextAll, recOf, adj, f4, f3, f1, f2, o']
  have a2 : nextAll [r, q] y = [x] := by simp [nextAll, recOf, adj, f4, f3, f1, f2, o']
  have ad (z : Lsr) (h : z = r ∨ z = q) : adj [r, q] z = if z.serial = x then [(⟨7, 1, 0, y⟩, q)] else [(⟨1, 7, 2, x⟩, r)] := by
    rcases h with rfl | rfl <;> simp [adj, recOf, f4, f3, f1, f2, o, o']
  by_cases lt : y < x
  · have g : graphOf [r, q] = ⟨[r, q], [(y, 0), (x, 1)]⟩ := by
      simp [graphOf, rootOf, f1, f3, lt, bfs, bfsRound, a1, a2, o, o']
    rw [g]
    generalize hg : (⟨[r, q], [(y, 0), (x, 1)]⟩ : Sys2Proof.Machine.Graph) = gr
    have hd : gr.db = [r, q] := by rw [← hg]
    have u : ∀ z w : Lsr, gr.isUp z w = Machine.Graph.isUp ⟨[r, q], [(y, 0), (x, 1)]⟩ z w := fun z w => by rw [hg]
    have u1 : gr.isUp q r = true := by rw [u]; simp [Machine.Graph.isUp, Machine.Graph.level, distOf, f1, f3, o, o']
    have u2 : gr.isUp r q = false := by rw [u]; simp [Machine.Graph.isUp, Machine.Graph.level, distOf, f1, f3, o, o']
    have d1 : gr.down y = [x] := by simp [Machine.Graph.down, hd, recOf, f1, f3, o, o', ad, u1]
    have d2 : gr.down x = [] := by simp [Machine.Graph.down, hd, recOf, f1, f3, o, o', ad, u2]
    have l1 : gr.downLen x y = none := by simp [Machine.Graph.downLen, hd, bfs, bfsRound, d2, distOf, o, o']
    have l2 : gr.downLen y y = some 0 := by simp [Machine.Graph.downLen, hd, bfs, bfsRound, d1, d2, distOf, o, o']
    have h2 : gr.hops y 2 y = some 0 := by simp [Machine.Graph.hops, l2]
    have p1 : gr.ports r y = some (7, 7) := by
      simp [Machine.Graph.ports, Machine.Graph.cands, hd, f1, f3, l1, l2, ad, o, o', u1, h2, bestCand]
    simp [hd, rootOf, recOf, f1, f3, lt, ad, o, o', p1]
  · have g : graphOf [r, q] = ⟨[r, q], [(x, 0), (y, 1)]⟩ := by
      simp [graphOf, rootOf, f1, f3, lt, bfs, bfsRound, a1, a2, o, o']
    rw [g]
    generalize hg : (⟨[r, q], [(x, 0), (y, 1)]⟩ : Sys2Proof.Machine.Graph) = gr
    have hd : gr.db = [r, q] := by rw [← hg]
    have u : ∀ z w : Lsr, gr.isUp z w = Machine.Graph.isUp ⟨[r, q], [(x, 0), (y, 1)]⟩ z w := fun z w => by rw [hg]
    have u1 : gr.isUp r q = true := by rw [u]; simp [Machine.Graph.isUp, Machine.Graph.level, distOf, f1, f3, o, o']
    have u2 : gr.isUp q r = false := by rw [u]; simp [Machine.Graph.isUp, Machine.Graph.level, distOf, f1, f3, o, o']
    have d1 : gr.down x = [y] := by simp [Machine.Graph.down, hd, recOf, f1, f3, o, o', ad, u1]
    have d2 : gr.down y = [] := by simp [Machine.Graph.down, hd, recOf, f1, f3, o, o', ad, u2]
    have l1 : gr.downLen y x = none := by simp [Machine.Graph.downLen, hd, bfs, bfsRound, d2, distOf, o, o']
    have l2 : gr.downLen x x = some 0 := by simp [Machine.Graph.downLen, hd, bfs, bfsRound, d1, d2, distOf, o, o']
    have h2 : gr.hops x 2 x = some 0 := by simp [Machine.Graph.hops, l2]
    have p1 : gr.ports q x = some (1, 1) := by
      simp [Machine.Graph.ports, Machine.Graph.cands, hd, f1, f3, l1, l2, ad, o, o', u1, h2, bestCand]
    simp [hd, rootOf, recOf, f1, f3, lt, ad, o, o', p1]
/-! ### Resets and boot -/

theorem test_witness_ResetResults :
    (let s := State.reset
     Says.calm s true ∧ Says.calm s false ∧ ({ s with abortPin := true } : State).abortPin = true ∧ ({ s with kn := { hard := true } } : State).kn.hard = true ∧ s.kn.cut = false ∧ s.kn.running = false) ∧
    ((0xD1CE0001 : Reg32).toNat / 65536 = 0xD1CE ∧ (0xD1CE0001 : Reg32).getLsbD 0 = true ∧ (0xD1CE0001 : Reg32).getLsbD 1 = false ∧ (0xD1CE0001 : Reg32).getLsbD 2 = false ∧
      (0xD1CE0002 : Reg32).getLsbD 1 = true ∧ (0xD1CE0004 : Reg32).getLsbD 2 = true ∧ ¬ (0xD1CD0007 : Reg32).toNat / 65536 = 0xD1CE ∧ (0x40000000 : Reg32).getLsbD 30 = true) ∧
    (let s := ken true 3 {}
     s.domOn domKennel = true ∧ s.kn.cut = false ∧ s.kn.running = false ∧ s.kn.hard = false ∧ (set [(R.PD_STAT_STATE 2, 0)] s).domOn domKennel = false ∧ s.stewardRuns = true ∧ State.reset.stewardRuns = false ∧
       (ken true 7 {}).knState = knLocked) ∧
    (let s := { set [(R.STEW_WDT_EN, 1), (R.LOCKUP_CTRL_AUTO, 1)] State.reset with cores := [(1024, { run := .locked })] }
     s.pwr.slot = [] ∧ s.bit R.STEW_WDT_EN = true ∧ s.domOn domSteward = true ∧ s.bit R.LOCKUP_CTRL_AUTO = true ∧ (s.core 1024).run = .locked ∧ State.reset.bit R.STEW_WDT_EN = false ∧
       State.reset.bit R.LOCKUP_CTRL_AUTO = false) := by
  unfold Says.calm; (repeat' apply And.intro) <;> decide +kernel

theorem test_witness_ResetResults_framed : Says.framed (withRole true serving) (hdr 4) 4 0 (some true) := framed_hdr _ _ _ _ (by decide +kernel)

def good : SlotImage := ⟨1, 0x01020003, 127, [5]⟩

/-- The ROM before it has looked at its slots, with boot headers; firmware that has just started. -/
def rom (a b : Option BootHdr) : State := { State.reset with boot := { hdr0 := a, hdr1 := b } }

theorem test_witness_BootResults :
    (let s := rom (some ⟨4, 1, true, 0⟩) (some ⟨3, 0, false, 0⟩)
     s.domOn domSteward = true ∧ s.boot.rom = true ∧ s.boot.recovery = false ∧ s.rd R.BOOT_STAT_PHASE = 0 ∧ ¬ (s.rd R.KN_ERR_CAUSE = 9 ∧ s.knState = knError) ∧ s.rd R.BOOT_STAT_MODE % 2 = 0 ∧
       s.boot.hdr0 = some ⟨4, 1, true, 0⟩ ∧ s.boot.hdr1 = some ⟨3, 0, false, 0⟩ ∧ 3 ≤ 4 ∧ Says.goodImage s 0 good ∧ ¬ Says.goodImage s 0 ⟨2, 0, 127, []⟩ ∧
       ¬ Says.goodImage { s with kn := { counters := [(0, 127)] } } 0 ⟨1, 0, 126, []⟩) ∧
    (let s := set [(R.KN_ERR_CAUSE, 9), (R.KN_STAT_STATE, knError)] (rom none none)
     s.rd R.KN_ERR_CAUSE = 9 ∧ s.knState = knError ∧ (set [(R.BOOT_STAT_MODE, 3)] (rom none none)).rd R.BOOT_STAT_MODE % 2 = 1 ∧ (rom none none).boot.hdr0 = none ∧ (rom none none).boot.hdr1 = none) ∧
    (let s := set [(R.BOOT_STAT_PHASE, 1)] { State.reset with boot := { rom := false } }
     s.domOn domSteward = true ∧ s.boot.rom = false ∧ s.rd R.BOOT_STAT_PHASE = 1 ∧ s.bit R.BOOT_STAT_BRINGUP = false ∧ s.pwr.slot = [] ∧ s.bit R.BEAT_STAT_RUNNING = false ∧ s.pwr.trans = [] ∧
       s.pwr.measCmd = none ∧ s.pwr.measuring = [] ∧ (∀ d, d < 128 → s.bit (R.PD_STAT_BUSY d) = false) ∧ s.rd (R.PD_STAT_STATE 6) = 0 ∧ s.bootItem 0x00010001 = none ∧
       (set [(R.BOOT_STAT_MODE, 2)] s).rd R.BOOT_STAT_MODE = 2 ∧ (set [(R.BOOT_STAT_BRINGUP, 1)] s).bit R.BOOT_STAT_BRINGUP = true ∧ Says.noLink s ∧ quietB s = true ∧ s.host.due = []) ∧
    ((List.replicate 1344 (0 : BitVec 16)).length = 1344 ∧ [(1 : BitVec 16), 0, 0, 0].length = 4 ∧ [(1 : BitVec 16)].length ≠ 4) := by
  unfold Says.noLink Says.goodImage; (repeat' apply And.intro) <;> decide +kernel

theorem test_witness_BootResults_commands :
    (Says.framed serving (hdr 0) 0 40 ∧ Says.framed (withRole true serving) (hdr 13) (12 + [(1 : Octet)].length) 0 (some true) ∧ Says.framed (withRole true serving) (ihdr 65548) (12 + 65536) 0 (some true) ∧
      Says.framed (withRole true serving) (hdr 4) 4 4 (some true) ∧ Says.framed serving (ihdr 5) (ihdr 5).len.toNat ∧ Says.framed serving (hdr 5) (hdr 5).len.toNat) ∧
    (let s := { serving with boot := { rom := false, flash := [(1, some [9])] } }
     2 ≤ (2 : Octet).toNat ∧ 1048576 < (1048575 : Reg32).toNat + 2 ∧ s.rd R.BOOT_STAT_SLOT = 0 ∧ s.rd R.BOOT_STAT_SLOT ≠ 1 ∧ mget (fun _ => none) s.boot.flash 1 = some [9] ∧ [(9 : Octet)].length = (1 : Reg32).toNat) ∧
    (serving.bit R.BOOT_STAT_TRIAL = false ∧ (set [(R.BOOT_STAT_TRIAL, 1)] serving).bit R.BOOT_STAT_TRIAL = true ∧ (ken true 3 {}).knLive = true ∧ (ken true 7 {}).knLive = false) ∧
    (let s := { set [(R.MB_CTRL_EN 0, 1), (R.MB_CTRL_CMD_LOG2 0, 4), (R.MB_CTRL_CPL_LOG2 0, 4), (R.MB_STAT_STATE 0, 1), (R.MB_DB_TAIL 0, 1)] State.reset with boot := { recovery := true } }
     Says.romTakes s (ihdr 16777216) ∧ Says.goodImage s 1 good) := by
  refine ⟨⟨framed_hdr _ _ _ _ (by decide +kernel), framed_hdr _ _ _ _ (by decide +kernel), framed_ihdr _ _ _ _ (by decide +kernel) (by decide), framed_hdr _ _ _ _ (by decide +kernel),
    framed_ihdr _ _ _ _ (by decide +kernel) (by decide), framed_hdr _ _ _ _ (by decide +kernel)⟩, ?_⟩
  unfold Says.romTakes Says.goodImage; (repeat' apply And.intro) <;> decide +kernel

/-! ### The machine -/

/-- Operands a row carries, and operands it does not: a CIC number above 64. -/
theorem test_witness_StepRunsFront : carried (.pendSet 64 7 0) = true ∧ carried (.pendSet 65 7 0) = false := by decide

theorem test_witness_IdleStep : State.reset.pending = [] ∧ State.reset.domOn domSteward = true ∧ (set [(R.PD_STAT_STATE 1, 0)] State.reset).domOn domSteward = false ∧
    (set [(R.PD_STAT_STATE 1, 0)] State.reset).pending = [] := by decide

/-- A settled state with a command at the front of its queue: a source of CIC 64 is pending and not enabled; its step goes on. -/
theorem test_witness_StepKeepsSettled :
    let s := { State.reset with pending := [.heartbeat 0 ⟨0, 0⟩], cics := [(64, { pend := 1 })] }
    offersRight s ∧ levelsRight s ∧ ∃ t, step s = .next t := by
  refine ⟨?_, ?_, ?_⟩
  · have h : ∀ c, ({ State.reset with pending := [.heartbeat 0 ⟨0, 0⟩], cics := [(64, { pend := 1 })] } : State).cic c = if c = 64 then { pend := 1 } else {} := by
      intro c; simp only [State.cic, mget, lookup]; split <;> simp_all
    intro c src
    have d : ∀ k, ({ State.reset with pending := [.heartbeat 0 ⟨0, 0⟩], cics := [(64, { pend := 1 })] } : State).deliverable c src k = false := by
      intro k; simp only [State.deliverable, h]; split <;> simp
    refine ⟨fun k m => ?_, fun j k m _ => ?_, fun _ k m => ?_⟩
    · rw [h] at m; split at m <;> simp at m
    · rw [h] at m; split at m <;> simp at m
    · rw [d] at m; simp at m
  · unfold levelsRight; decide +kernel
  · exact ⟨_, rfl⟩
/-! ### WellFormed: operands no row carries are met with illFormed, the last that one can carry are not -/

def ill (i : Instr) (s : State := State.reset) : Bool := match exec i s with
  | .fault .illFormed => true
  | _ => false

/-- R262, R264: CIC numbers 0 to 64, core 0 alone of the steward's. -/
theorem test_wellformed_cic :
    [Instr.pendSet 65 0 1, .pendClr 65 0 1, .enSet 127 0 1, .enClr 65 0 1, .raiseDev 65 1, .srcCfgWrite 65 0 0, .holdoffWrite 65 0 0, .holdoffExpire 65 0, .eoi 64 1 0, .maskWrite 64 15 0,
      .eoi 65 0 0].all ill = true ∧
    [Instr.pendSet 64 0 1, .pendClr 64 7 1, .enSet 63 0 1, .enClr 0 0 1, .srcCfgWrite 64 255 0, .eoi 64 0 0, .eoi 63 15 0, .maskWrite 0 15 0].all (fun i => !ill i) = true := by decide +kernel

/-- R464: channels 0 to 19 of a Bertia command. -/
theorem test_wellformed_header :
    [Instr.nopCommand { hdr 0 with ch := 20 }, .devInfo { hdr 0 with ch := 31 }, .ctxStage { hdr 54 with ch := 20 } 0 []].all ill = true ∧ ill (.nopCommand { hdr 0 with ch := 19 }) = false := by
  decide +kernel

/-- Rows that name the bit of the word they write. -/
theorem test_wellformed_bits :
    [Instr.beatRunStart 0x7FFFFFFF, .beatRunStop 0x80000000, .commitGo 0xFFFFFFFE, .commitCancel 0xFFFFFFFB, .mbCtrlEn 0 0x40000000, .rstCtrlDevice 0xD1CE0006, .rstCtrlSteward 0xD1CE0005,
      .rstCtrlKennel 0xD1CE0003, .stewWdtKick 0xBFFFFFFF].all ill = true ∧
    [Instr.beatRunStart 0x80000000, .beatRunStop 0, .commitGo 1, .commitCancel 4, .mbCtrlEn 0 0x80000000, .rstCtrlDevice 1, .rstCtrlSteward 2, .rstCtrlKennel 4, .stewWdtKick 0x40000000].all
      (fun i => !ill i) = true := by decide +kernel

/-- Sizes: the windows, words of BAR0, clock crossings, link generations, and lists that have one length. -/
theorem test_wellformed_sizes :
    [Instr.bar2Read 2, .bar2Write 1 15 0, .bar4Read 0 4097, .bar4Read 0x1FFFFFFF 2, .bar4Write 0x1FFFFFFF [none, none], .registerWrite .host 2 15 0, .readClear .steward 1,
      .crossingResync 36 (.dropped 1), .storeLinkChange 0 ⟨4, 0, false, false, false, 0⟩, .speedTableMeasured 0 [] 0, .bringUp ⟨0, [], [], 0, 0⟩, .knInit (hdr 99) (List.replicate 96 0)].all ill = true ∧
    [Instr.bar2Read 4, .bar2Write 0 15 0, .bar4Read 0x1FFFF000 4096, .bar4Write 0x1FFFFFFF [none], .registerWrite .host 4 15 0, .readClear .steward 0, .crossingResync 35 (.dropped 1),
      .storeLinkChange 0 ⟨3, 0, false, false, false, 0⟩, .speedTableMeasured 0 (List.replicate 21 0) 0].all (fun i => !ill i) = true := by decide +kernel

/-! ### Worked examples of the spec -/

/-- 00_scope: cluster 63's shared memory. -/
theorem test_cluster_base : clusterBase 0 = 0x40000000 ∧ clusterBase 63 = 0x41F80000 := by decide

/-- 04, worked example: the battery-pack table's IN contexts and its drive. -/
def tableIn (k : Nat) : CtxCfg := decodeCtx [BitVec.ofNat 40 (1 * 2 ^ 37 + 1 * 2 ^ 35 + 2 * 2 ^ 33 + 32 * 2 ^ 20), 0, BitVec.ofNat 40 (4224 * k * 2 ^ 21 + 64 * 2 ^ 9), 0x0030000000, 0xFFFFFFFB1E]
def tableOut : CtxCfg := decodeCtx [BitVec.ofNat 40 (2 * 2 ^ 37 + 32 * 2 ^ 20), 0, BitVec.ofNat 40 (0x18C00 * 2 ^ 21 + 4 * 2 ^ 9)]

theorem test_example_slots :
    (tableIn 0).slot = 66 ∧ (tableIn 0).depth * (tableIn 0).slot = 0x1080 ∧ (tableIn 5).slotAt 1000003 = 0x40005346 ∧ tableOut.slot = 34 ∧ tableOut.slotAt 1000004 = 0x40018C00 := by decide

/-- The same: code 0x4_C350 is stored as 0x00_0009_22DE. -/
theorem test_example_calibration : calIn (tableIn 0) 0x4C350 = (0x00000922DE, false) := by decide

/-- The same: the ramp from 12,000 over 4 beats. -/
theorem test_example_ramp :
    (rampCodes 12000 4 32 1).head? = some 11906 ∧ (rampCodes 12000 4 32 1).getLast? = some 9000 ∧ (rampCodes 12000 4 32 2).getLast? = some 6000 ∧ (rampCodes 12000 4 32 4).getLast? = some 0 := by decide

/-- 05, worked example: a drive correction, instruction by instruction. -/
theorem test_example_macd :
    ((after (.macd x0 1 true 4 5) (running [(4, 0xFF25402EE0), (5, 0xE000040000)])).core 0).ac 1 = 3604480000 := by decide +kernel
theorem test_example_macd_adds :
    ((after (.macd x0 1 false 6 7) { running [(6, 0xEC7803D090), (7, 0x6000010000)] with
      cores := [(0, { g := [(6, 0xEC7803D090), (7, 0x6000010000)], acc := [(1, 3604480000)], run := .running })] }).core 0).ac 1 = BitVec.ofInt 80 (-11468800000) := by decide +kernel
theorem test_example_accr :
    let t := after (.accr x0 8 1 true true 19) { running [] with cores := [(0, { acc := [(1, BitVec.ofInt 80 (-11468800000))], run := .running })] }
    (t.core 0).gr 8 = 0xFFFFFFAA8D ∧ (t.core 0).st = 0 := by decide +kernel

/-- 03, worked example: words of the table's input block and drive block; the delay of 212.5 ns. -/
theorem test_example_port : blockWords (24 * 32) = 242 ∧ blockWords 32 = 12 := by decide
theorem test_example_delay :
    let s := { set [(R.SP_STAT_STATE 15, 3)] (on [3, 19] State.reset) with ports := [(15, { echo := [4], echoSum := 15 * 13600 })] }
    (after (.echoReply 15 4 15872 29472) s).rd (R.SP_DELAY_DELAY 15) = 0x1A90 := by decide +kernel

/-- 08, worked example: the handler's two writes of 130 to EOI(1). -/
theorem test_example_eoi :
    let s := { on [64] State.reset with cics := [(0, { cfg := [(130, 0x0600230000)], pend := BitVec.ofNat 256 (2 ^ 130), en := BitVec.ofNat 256 (2 ^ 130), active := BitVec.ofNat 256 (2 ^ 130), prios := [(1, [(3, 130)])] })] }
    let t := after (.eoi 0 1 130) s
    (t.cic 0).active.getLsbD 130 = false ∧ (t.cic 0).pend.getLsbD 130 = true ∧ (t.cic 0).strayCnt = 0 ∧ ((after (.eoi 0 1 130) t).cic 0).strayCnt = 1 ∧
      ((after (.eoi 0 1 130) t).cic 0).stray = true := by decide +kernel

/-- 09, worked example: QCFG(0x0C10) := 0x80_4000_0C00. -/
theorem test_example_qcfg :
    let q := (after (.qcfgWrite 0x0C10 0x8040000C00) (on [3, 4] State.reset)).queue 0x0C10
    q.en = true ∧ q.priv = false ∧ q.limit = 4096 ∧ q.level = 3072 := by decide +kernel

/-- 12, worked example: a block of 2 CAL40 elements has 7 blocks and carries SPEC 0x280_0800_4000. -/
theorem test_example_frame : frameW (4 + 2 * 5) + 1 = 7 ∧ 0xA00 * 2 ^ 30 + 2 * 2 ^ 26 + 2 * 2 ^ 13 = 0x28008004000 := by decide

/-- 15, worked example: MB_CTRL(1) := 0x8000_6600 starts mailbox 1 with rings of 64; long 14 of context 0x43 lies at long 1,086 of the BAR4 window. -/
theorem test_example_mailbox :
    let t := after (.mbCtrlEn 1 0x80006600) State.reset
    t.cmdSize 1 = 64 ∧ t.cplSize 1 = 64 ∧ t.rd (R.MB_STAT_STATE 1) = 1 := by decide +kernel
theorem test_example_context_window : (on [3] State.reset).winPlace (0x50000000 + 2 * 1086) = .ctx 0x43 14 := by decide +kernel

/-- 16, worked example: at 0.66 V the boost of R509 asks for 1.25 x 780 = 975, and takes 0.72 V. -/
theorem test_example_boost : boost [200, 240, 300, 360, 420, 500, 600, 700, 780, 842, 922, 1000, 1080, 1150, 1220, 1290, 1350, 1410, 1470, 1530, 1590] 66 = 72 := by decide

/-- 02: the period of 156.25 us is 156,250 ns. -/
theorem test_example_period : (set [(R.PERIOD_ACT_INT_V, 156250), (R.PERIOD_ACT_FRAC_V, 0)] State.reset).periodU = 156250 * nsU := by decide +kernel

/-- 07, worked example: core 12.7 stores to the odd long at 0x10_0000_0401, whose second half meets an uncorrectable error. -/
def copying : State :=
  { set [(R.DDR_STAT_STATE 0, 2), (R.DDR_STAT_V 0, 8)] (on [3, 4, 6, 76] State.reset) with
    eccUnc := [0x1000000402]
    cores := [(199, { g := [(8, 0x1234500001), (10, 0x1000000401), (31, 0x7F00)], st := 0x8000, mode := 0xA0000, slim := 0x7E00, l0 := ⟨3, 0x1002, 0x1009⟩, pc := 0x1008, run := .running })] }

theorem test_example_fault :
    let t := after (.stl { core := .sample 12 7, guard := 0 } (.long 8 10 0)) copying
    let c := t.core 199
    c.faddr = 0x1000000402 ∧ c.finfo = 0xD06800000 ∧ c.pc = 0x18 ∧ c.mask = 2 ∧ c.gr 31 = 0x7EF0 ∧ t.grain 0x1000000401 = 0x00001 := by decide +kernel
theorem test_example_frame_longs :
    let t := after (.stl { core := .sample 12 7, guard := 0 } (.long 8 10 0)) copying
    let l (k : Nat) : Long := t.long (keyLocal 199 (0x7EF0 + 2 * k))
    l 0 = 0x1008 ∧ l 1 = 0xA000008000 ∧ l 2 = 0xC00000001 ∧ l 3 = 3 ∧ l 4 = 0x1002 ∧ l 5 = 0x1009 := by decide +kernel

/-- R140, R141, R144, R145, written out bit by bit: ADD G3, G5 under P2; ADDI G3, G5, #-1 under P0, its head in the grain at the address; MUL in
mode 2; BRA with D not zero, which is reserved. -/
theorem test_decode_words :
    let i (g : BitVec 3) : Iss := { core := .sample 0 0, guard := g }
    decodeGitik (.sample 0 0) 0b01000000110001100101 0 = some (.add (i 2) (.short 3 5)) ∧
    decodeGitik (.sample 0 0) 0b00010000000100011001 0b01111111111111111111 = some (.addi (i 0) 3 5 0x3FFFF) ∧
    decodeGitik (.sample 0 0) 0b00010110000000011001 0b01001110000000000010 = some (.mul (i 0) 2 3 5 7) ∧
    decodeGitik (.sample 0 0) 0b00010011000000001000 0 = none := by decide

end Sys2Proof.Tests
end

/-! SUPPORT. States in which a register write sets nothing else going: no domain waits for a transition and no fabric link is in
SYNC or UP, so the node's record stays at home (R349) and no waiting request is tried (R502). -/

namespace Sys2Proof.Machine

open Sys2Proof

-- One proof after another, as in the tests: theorems checked side by side need more threads than the check's memory limit allows.
set_option Elab.async false

/-- No domain waits for a transition (R502) and no fabric link is in SYNC or UP (R349). -/
structure State.Calm (s : State) : Prop where
  slot : s.pwr.slot = []
  link : Says.noLink s

namespace State.Calm

variable {s t : State}

/-- A write of a word that is no FP_STAT. -/
theorem setWord (h : s.Calm) (off : Nat) (v : Reg32) (ho : off % 128 ≠ 4 ∨ off < 0x6100 ∨ 0x6500 ≤ off := by decide) :
    (s.setWord off v).Calm where
  slot := h.slot
  link := by
    have hw : ∀ p ∈ fabPorts, (s.setWord off v).fpLive p = s.fpLive p := by
      intro p hp
      have hp8 : p < 8 := by revert p; decide
      have hne : 0x6104 + 0x80 * p ≠ off := by omega
      unfold State.fpLive State.fpState State.rd
      rw [State.word_setWord, if_neg hne]
    have hl : fabPorts.any s.fpLive = false := h.link
    rw [List.any_eq_false] at hl
    exact List.any_eq_false.mpr fun p hp => by rw [hw p hp]; exact hl p hp

/-- Neither the power block nor the BAR0 words differ. -/
theorem same (h : s.Calm) (hp : t.pwr = s.pwr) (hr : t.hreg = s.hreg) : t.Calm where
  slot := by rw [hp]; exact h.slot
  link := by
    have hw : t.fpLive = s.fpLive := by
      funext p
      unfold State.fpLive State.fpState State.rd State.word
      rw [hr]
    show fabPorts.any t.fpLive = false
    rw [hw]
    exact h.link

theorem wr (h : s.Calm) (f : Fld) (v : Nat) (ho : f.off % 128 ≠ 4 ∨ f.off < 0x6100 ∨ 0x6500 ≤ f.off := by dsimp only; omega) :
    (s.wr f v).Calm := h.setWord f.off _ ho

theorem set1 (h : s.Calm) (f : Fld) (ho : f.off % 128 ≠ 4 ∨ f.off < 0x6100 ∨ 0x6500 ≤ f.off := by dsimp only; omega) :
    (s.set1 f).Calm := h.wr f _ ho

theorem satAdd (h : s.Calm) (f : Fld) (n : Nat) (ho : f.off % 128 ≠ 4 ∨ f.off < 0x6100 ∨ 0x6500 ≤ f.off := by dsimp only; omega) :
    (s.satAdd f n).Calm := h.wr f _ ho

theorem inc (h : s.Calm) (f : Fld) (ho : f.off % 128 ≠ 4 ∨ f.off < 0x6100 ∨ 0x6500 ≤ f.off := by dsimp only; omega) :
    (s.inc f).Calm := h.satAdd f 1 ho

theorem onHost (h : s.Calm) (f : HostIf → HostIf) : (s.onHost f).Calm := h.same rfl rfl
theorem onJrn (h : s.Calm) (f : Journal → Journal) : (s.onJrn f).Calm := h.same rfl rfl
theorem onBeat (h : s.Calm) (f : Beat → Beat) : (s.onBeat f).Calm := h.same rfl rfl
theorem onWh (h : s.Calm) (f : Whistle → Whistle) : (s.onWh f).Calm := h.same rfl rfl
theorem setChan (h : s.Calm) (ch : Nat) (c : Chan) : (s.setChan ch c).Calm := h.same rfl rfl
theorem freeNext (h : s.Calm) : s.freeNext.Calm := h.same rfl rfl
theorem emit (h : s.Calm) (o : Out) : (s.emit o).Calm := h.same (s.emit_pwr o) (s.emit_hreg o)

theorem ite {c : Prop} [Decidable c] (hs : s.Calm) (ht : t.Calm) : (if c then s else t).Calm := by
  split <;> assumption

theorem foldl {α : Type} (h : s.Calm) (f : State → α → State) (l : List α) (hf : ∀ u a, u.Calm → (f u a).Calm) :
    (l.foldl f s).Calm := List.foldlRecOn l f h fun u hu a _ => hf u a hu

/-- With no link to send on and no key in use, packSettle changes nothing. -/
theorem packSettle_eq (h : s.Calm) : s.packSettle = s := by
  have hl : fabPorts.any s.fpLive = false := h.link
  have hk : fabPorts.find? s.keysWorn = none := by
    rw [List.find?_eq_none]
    intro p hp
    have hdown := List.any_eq_false.mp hl p hp
    rw [State.fpLive, Bool.not_eq_true, Bool.or_eq_false_iff] at hdown
    simp [State.keysWorn, State.fpUp, hdown.2]
  unfold State.packSettle
  simp only [hl, Bool.and_false, Bool.false_and, Bool.false_eq_true, if_false, hk]

theorem pwrSweep_eq (h : s.Calm) : s.pwrSweep = s := by
  unfold State.pwrSweep
  rw [h.slot]
  rfl

theorem ignoredWrite (h : s.Calm) : s.ignoredWrite.Calm := (h.set1 R.COMMIT_STAT_IGNORED).set1 R.BEAT_INT_STAT_IGNORED

/-! ### Events and the journal's intake -/

theorem hostEventAt (h : s.Calm) (beat : BitVec 48) (code cls : Nat) (arg : List Octet) : (s.hostEventAt beat code cls arg).Calm := by
  unfold State.hostEventAt
  refine ite h (foldl ?_ _ _ ?_)
  · refine ite ?_ h
    exact ite ((h.onHost _).inc R.EVT_LOST_V) (h.onHost _)
  · intro u ch hu
    refine ite ?_ hu
    exact ite ((hu.setChan _ _).inc R.EVT_LOST_V) (hu.setChan _ _)

theorem setJState (h : s.Calm) (n : Nat) : (s.setJState n).Calm :=
  ite h (((h.wr R.J_STAT_STATE _).set1 R.J_EVT_STATE).hostEventAt _ _ _ _)

theorem jCounts (h : s.Calm) : s.jCounts.Calm :=
  (ite h ((h.wr R.BUF_USED_V _).wr R.BUF_USED_TOG _)).wr R.FREE_SEG_V _

theorem nvme (h : s.Calm) (p : Nat) (c : NvmeCmd) : (s.nvme p c).Calm := (h.onJrn _).emit _

theorem closeAs (h : s.Calm) (chain flags : Nat) (filled fua : Bool) : (s.closeAs chain flags filled fua).Calm := by
  unfold State.closeAs
  split
  · exact h
  · exact ((h.onJrn _).nvme _ _).jCounts

theorem newBlock (h : s.Calm) (chain bflags : Nat) (ht : s.newBlock chain bflags = some t) : t.Calm := by
  obtain ⟨x, -, rfl⟩ := Option.map_eq_some_iff.mp ht
  exact h.onJrn _

theorem putRec (h : s.Calm) (r : JRec) (flags : Nat) (ht : s.putRec r flags = some t) : t.Calm := by
  unfold State.putRec at ht
  extract_lets oct chain fits put at ht
  have hput : ∀ u : State, u.Calm → (put u).Calm := fun u hu => hu.onJrn _
  by_cases hf : fits s = true
  · rw [if_pos hf] at ht
    exact Option.some.inj ht ▸ hput s h
  · rw [if_neg hf] at ht
    obtain ⟨u, hu, rfl⟩ := Option.map_eq_some_iff.mp ht
    exact (hput u ((h.closeAs _ _ _ _).newBlock _ _ hu)).jCounts

theorem placeRec (h : s.Calm) (r : JRec) (ht : s.placeRec r = some t) : t.Calm := by
  obtain ⟨u, hu, rfl⟩ := Option.map_eq_some_iff.mp ht
  exact ((h.putRec _ _ hu).onJrn _).jCounts

theorem refuseRec (h : s.Calm) (r : JRec) : (s.refuseRec r).Calm := by
  have hm : (s.markLoss r).Calm := h.same rfl rfl
  unfold State.refuseRec
  split
  · exact (hm.inc R.DROP_ESS_V).set1 R.J_EVT_DROP
  · exact (hm.inc R.DROP_BULK_V).set1 R.J_EVT_DROP

theorem admitOne (h : s.Calm) (r : JRec) : (s.admitOne r).Calm := by
  unfold State.admitOne
  split
  · next t ht => exact h.placeRec r ht
  · exact ite (((h.refuseRec r).setJState _).set1 R.J_EVT_FULL) (h.refuseRec r)

theorem ringRelease (h : s.Calm) : s.ringRelease.Calm := by
  unfold State.ringRelease
  split
  · split
    · next t ht =>
      obtain ⟨g, -, hg⟩ := Option.bind_eq_some_iff.mp ht
      obtain ⟨u, hu, rfl⟩ := Option.map_eq_some_iff.mp hg
      exact ((h.placeRec _ hu).onJrn _).closeAs 0 0 false true
    · exact h
  · exact h

theorem offerRec (h : s.Calm) (r : JRec) : (s.offerRec r).Calm := by
  have hr := h.refuseRec r
  have hm : (s.markLoss r).Calm := h.same rfl rfl
  have hq := h.ringRelease
  have hqr := hq.refuseRec r
  have hp : ((splitParts r).foldl State.admitOne s.ringRelease).Calm := hq.foldl _ _ fun u x hu => hu.admitOne x
  unfold State.offerRec
  exact ite (ite (hm.inc R.PF_REFUSED_V) hr) (ite (ite hp (ite hqr (ite hqr (hqr.set1 R.J_EVT_FULL)))) (ite hr (ite (h.onJrn _) hr)))

/-! ### Mailboxes and completions -/

theorem mbHalt (h : s.Calm) (m err : Nat) : (s.mbHalt m err).Calm :=
  ((h.wr (R.MB_STAT_STATE m) 2).wr (R.MB_STAT_ERR m) err).set1 (R.MB_EVT_HALT m)

theorem mbOff (h : s.Calm) (m : Nat) : (s.mbOff m).Calm :=
  ((((((h.wr (R.MB_DB_TAIL m) 0).wr (R.MB_STAT_CHEAD m) 0).wr (R.MB_STAT_CTAIL m) 0).wr (R.MB_CPL_HEAD_V m) 0).wr
    (R.MB_STAT_ERR m) 0).wr (R.MB_CTRL_EN m) 0).wr (R.MB_STAT_STATE m) 0

theorem ringEntry (h : s.Calm) (m tag status dlen cidx : Nat) (ext lost : Bool) (data : List Octet) :
    (s.ringEntry m tag status dlen cidx ext lost data).Calm := ((h.emit _).wr (R.MB_STAT_CTAIL m) _).setChan m _

/-- A completion counted and shown by its event. -/
theorem countDone (h : s.Calm) (m : Nat) : ((s.inc (R.MB_DONE_V m)).set1 (R.MB_EVT_CPL m)).Calm :=
  (h.inc (R.MB_DONE_V m)).set1 (R.MB_EVT_CPL m)

theorem completeSmall (h : s.Calm) (ch need : Nat) : (s.completeSmall ch need).Calm := by
  unfold State.completeSmall
  extract_lets c
  split
  · exact h
  · have hs := h.setChan ch { c with busy := none }
    exact ite (hs.mbHalt _ _) ((hs.ringEntry _ _ _ _ _ _ _ _).countDone _)

theorem svcSend (h : s.Calm) (peer session seq tag status : Nat) (data : List Octet) :
    (s.svcSend peer session seq tag status data).Calm :=
  ite h (h.foldl _ _ fun _ _ hu => hu.emit _)

theorem endUnseen (h : s.Calm) (ch : Nat) (discard : Bool) : (s.endUnseen ch discard).Calm := by
  unfold State.endUnseen
  extract_lets st s1
  have h1 : s1.Calm := ite h (h.inc (R.MB_DONE_V ch))
  exact ite (h.mbOff ch) (ite (h1.wr (R.MB_STAT_STATE ch) 0) h1)

theorem complete (h : s.Calm) (ch status : Nat) (data : List Octet) : (s.complete ch status data).Calm := by
  unfold State.complete
  extract_lets c s1 ext
  split
  · exact h
  · extract_lets fail st d s2 s3 s4 s5
    have h1 : s1.Calm := h.setChan ch _
    have h2 : s2.Calm := ite (h1.set1 R.HOST_ERR_DMA) h1
    have h3 : s3.Calm := ite (h2.emit _) h2
    have h5 : s5.Calm := (h3.ringEntry _ _ _ _ _ _ _ _).countDone ch
    exact ite h (ite (ite h1 (h1.endUnseen _ _)) (ite (h.completeSmall _ _)
      (ite (ite (h3.mbHalt _ _) (ite (h5.wr (R.MB_STAT_STATE ch) 0) h5)) (h1.svcSend _ _ _ _ _ _))))

theorem mbEnable (h : s.Calm) (m : Nat) (v : Reg32) : (s.mbEnable m v).Calm := by
  unfold State.mbEnable
  extract_lets on s1 s2 st
  have h1 : s1.Calm := ite h ((h.wr (R.MB_CTRL_CMD_LOG2 m) _).wr (R.MB_CTRL_CPL_LOG2 m) _)
  have h2 : s2.Calm := h1.wr (R.MB_CTRL_EN m) _
  exact ite (ite ((h2.wr (R.MB_STAT_STATE m) 1).setChan m _) (h2.mbHalt _ _)) (ite (h2.wr (R.MB_STAT_STATE m) 0) h2)

theorem doorbellWrite (h : s.Calm) (m : Nat) (v : Reg32) : (s.doorbellWrite m v).Calm := by
  have h1 := h.wr (R.MB_DB_TAIL m) (v.toNat % 4096)
  exact ite (h1.mbHalt _ _) h1

theorem countSessions (h : s.Calm) : s.countSessions.Calm := by
  have h1 := h.wr R.KN_STAT_SESSIONS ((List.range 20).filter (fun ch => (s.chan ch).sess.isSome)).length
  exact ite h1 ((h1.wr R.SVC_STAT_SESS _).set1 R.SVC_EVT_SESSION)

theorem unsubscribe (h : s.Calm) (ch : Nat) : (s.unsubscribe ch).Calm :=
  ite (((h.onHost _).wr R.MBX_GSTAT_EVT_ON 0).wr R.MBX_GSTAT_EVT_MBX 0) h

theorem chanReset (h : s.Calm) (ch : Nat) (lost : Bool) : (s.chanReset ch lost).Calm :=
  ((h.setChan ch _).unsubscribe ch).countSessions

theorem mbReset (h : s.Calm) (m : Nat) : (s.mbReset m).Calm := by
  have h1 := (h.wr (R.MB_STAT_STATE m) 3).chanReset m false
  exact ite (h1.mbOff m) h1

/-! ### The whistle block -/

theorem triggerWindows (h : s.Calm) (p : Window → Bool) (n : BitVec 48) : (s.triggerWindows p n).Calm :=
  ite ((h.onJrn _).set1 R.J_STAT_EW_ACTIVE) h

theorem latch (h : s.Calm) (l : List WhReq) (n : BitVec 48) (t : Int) (stopped : Bool) (due : Option (BitVec 48)) :
    (s.latch l n t stopped due).Calm := by
  unfold State.latch
  extract_lets seq tag src hdr words img s1 s2 s3 s4 s5 s6 s7 pm s8
  have h1 : s1.Calm := h.onWh _
  have h2 : s2.Calm := (((h1.satAdd R.WH_MERGED_V _).set1 R.WH_EVT_LATCHED).wr R.WH_STAT_SRC _).wr R.WH_STAT_WORDS _
  have h3 : s3.Calm := ite (h2.set1 R.WH_EVT_DEFERRED) h2
  have h4 : s4.Calm := h3.setWord R.WH_BEAT_LO _
  have h5 : s5.Calm := h4.onWh _
  have h7 : s7.Calm := (h5.offerRec _).triggerWindows _ _
  have h8 : s8.Calm := ite ((h7.onWh _).emit _) h7
  exact h8.foldl _ _ fun _ _ hu => hu.complete _ _ _

theorem latchDue (h : s.Calm) (l : List WhReq) (n : BitVec 48) (t : Int) (stopped : Bool) : (s.latchDue l n t stopped).Calm := by
  unfold State.latchDue
  refine ite h (ite (h.latch _ _ _ _ _) ?_)
  split
  · exact h.onWh _
  · exact (h.onWh _).inc R.WH_SKIP_V

theorem whRequest (h : s.Calm) (r : WhReq) : (s.whRequest r).Calm := by
  unfold State.whRequest
  extract_lets s1
  have h1 : s1.Calm := h.onWh _
  exact ite h (ite h1 ((h1.onWh _).latchDue _ _ _ _))

theorem whFault (h : s.Calm) (bit : Nat) : (s.whFault bit).Calm := ite (h.whRequest _) h

/-! ### The beat -/

theorem disc (h : s.Calm) (cause : Nat) (before after step unc : Int) : (s.disc cause before after step unc).Calm :=
  (h.offerRec _).set1 R.BEAT_INT_STAT_DISC

theorem setLock (h : s.Calm) (n : Nat) : (s.setLock n).Calm := by
  unfold State.setLock
  extract_lets old s1 s2
  have h1 : s1.Calm := (h.wr R.BEAT_STAT_LOCK n).set1 R.BEAT_INT_STAT_LOCK_CHG
  have h2 : s2.Calm := ite (h1.disc _ _ _ _ _) h1
  exact ite h (ite (((h2.onBeat _).set1 R.BEAT_INT_STAT_HOLDOVER).whFault 3) h2)

theorem servoStart (h : s.Calm) : s.servoStart.Calm :=
  ite (((h.onBeat _).wr R.BEAT_STAT_SRC_ACT _).setLock _) (h.wr R.BEAT_STAT_SRC_ACT 0)

theorem servoOff (h : s.Calm) : s.servoOff.Calm :=
  (((h.onBeat _).setWord R.RATE_ADJ _).wr R.BEAT_STAT_SRC_ACT 0).setLock _

theorem srcSelWrite (h : s.Calm) (sel : Nat) : (s.srcSelWrite sel).Calm := by
  unfold State.srcSelWrite
  extract_lets old s0 s1 s2
  have h0 : s0.Calm := ite h (h.wr R.IRIG_STAT_VALID 0)
  have h1 : s1.Calm := (h0.wr R.BEAT_CTRL_SRC_SEL sel).onBeat _
  have h2 : s2.Calm := ite (h1.freeNext.disc _ _ _ _ _) h1
  exact ite h (ite h2.servoOff h2.servoStart)

theorem beatCtrlRest (h : s.Calm) (v : Reg32) : (s.beatCtrlRest v).Calm := by
  have h1 := h.wr R.BEAT_CTRL_ALIGN_SEC (v.toNat / 2 ^ 30 % 2)
  exact ite h1 (h1.srcSelWrite _)

theorem startBeat (h : s.Calm) (align : Bool) : (s.startBeat align).Calm := (h.onBeat _).wr R.BEAT_STAT_RUNNING 1

theorem startMember (h : s.Calm) : s.startMember.Calm := (h.onBeat _).wr R.BEAT_STAT_RUNNING 1

theorem beatRunStart (h : s.Calm) (v : Reg32) : (s.beatRunStart v).Calm := by
  unfold State.beatRunStart
  extract_lets s1 s2
  have h1 : s1.Calm := h.beatCtrlRest v
  have h2 : s2.Calm := (h1.wr R.BEAT_CTRL_RUN 1).servoStart
  exact ite h1 (ite h2 (ite (h2.startBeat _) (ite h2.startMember (h2.onBeat _))))

theorem stopBeat (h : s.Calm) : s.stopBeat.Calm := ite ((h.onBeat _).wr R.BEAT_STAT_STOPPING 1) (h.onBeat _)

theorem beatRunStop (h : s.Calm) (v : Reg32) : (s.beatRunStop v).Calm := ((h.beatCtrlRest v).wr R.BEAT_CTRL_RUN 0).stopBeat

end State.Calm

end Sys2Proof.Machine

/-! SUPPORT. REGISTER_WRITE and READ_CLEAR (R5, R467, R496): what a settled state shows of an access, whom an access reaches, and
what a write and a read of a word do. -/

namespace Sys2Proof.Machine

open Sys2Proof

-- One proof after another, as in the tests: theorems checked side by side need more threads than the check's memory limit allows.
set_option Elab.async false

variable (s : State)

/-! ### What a settled state shows -/

theorem sensed_settle {s u : State} (hd : u.dev = s.dev) (hc : u.cics = s.cics) : Says.sensed s u.settle := by
  refine ⟨?_, fun c => ?_⟩
  · rw [← hd]
    rfl
  · have hcic : u.cic c = s.cic c := by unfold State.cic; rw [hc]
    rw [State.settle_cic, hcic]

/-- A write of BAR0 words, settled, shows in them alone. -/
theorem regsOnly_settle {u : State} {l : List Nat} (hu : u = { s with hreg := u.hreg }) (hw : Says.words s u l) :
    Says.regsOnly s u.settle l := by
  refine ⟨?_, sensed_settle ?_ ?_, hw⟩ <;> rw [hu]
  rfl

/-- The same with messages out. -/
theorem hostOnly_settle {r : SMap Reg32} {o : List Out} {l : List Nat} (hw : Says.words s { s with hreg := r } l) :
    Says.hostOnly s (State.settle { s with hreg := r, out := o }) l := ⟨rfl, sensed_settle rfl rfl, hw⟩

theorem words_refl (l : List Nat) : Says.words s s l := fun _ _ => rfl

theorem words_setWord (off : Nat) (v : Reg32) : Says.words s (s.setWord off v) [off] := by
  intro o ho
  rw [State.word_setWord, if_neg (by simpa using ho)]

/-- Writing what a word holds changes no word. -/
theorem word_setWord_word (off o : Nat) : (s.setWord off (s.word off)).word o = s.word o := by
  rw [State.word_setWord]
  split
  · next h => rw [h]
  · rfl

theorem words_setWord_word (off : Nat) : Says.words s (s.setWord off (s.word off)) [] := fun o _ => word_setWord_word s off o

theorem regsOnly_setWord (off : Nat) (v : Reg32) : Says.regsOnly s (s.setWord off v).settle [off] :=
  regsOnly_settle s rfl (words_setWord s off v)

/-! ### Whom an access reaches (R466, R496) -/

theorem accessOk_host_iff :
    s.accessOk .host = true ↔ s.domOn domHost = true ∧ s.host.linkUp = true ∧ s.host.d3hot = false := by
  simp [State.accessOk, State.hostLive, State.dmaUp]

theorem accessOk_steward_iff : s.accessOk .steward = true ↔ s.domOn domSteward = true ∧ (s.core 1024).takes = true := by
  simp [State.accessOk]

theorem exec_registerWrite_misaligned (who : Accessor) (off : BitVec 16) (be : BitVec 4) (v : Reg32) (h4 : off.toNat % 4 ≠ 0) :
    exec (.registerWrite who off be v) s = .fault .illFormed := if_pos h4

theorem exec_readClear_misaligned (who : Accessor) (off : BitVec 16) (h4 : off.toNat % 4 ≠ 0) :
    exec (.readClear who off) s = .fault .illFormed := if_pos h4

theorem exec_registerWrite_unreached (hs : s.Calm) (who : Accessor) (off : BitVec 16) (be : BitVec 4) (v : Reg32)
    (h4 : off.toNat % 4 = 0) (ha : ¬ s.accessOk who = true) : exec (.registerWrite who off be v) s = .next s.settle := by
  show execRegisterWrite who off be v s = _
  unfold execRegisterWrite doneP
  rw [if_neg (not_not.mpr h4), if_pos (by simpa using ha), hs.pwrSweep_eq, done_eq]

theorem exec_readClear_unreached (who : Accessor) (off : BitVec 16) (h4 : off.toNat % 4 = 0) (ha : ¬ s.accessOk who = true) :
    exec (.readClear who off) s = .next s.settle := by
  show execReadClear who off s = _
  unfold execReadClear
  rw [if_neg (not_not.mpr h4), if_pos (by simpa using ha), done_eq]

/-- A host write without every byte enable (R467). -/
theorem exec_registerWrite_partial (hs : s.Calm) (off : BitVec 16) (be : BitVec 4) (v : Reg32) (h4 : off.toNat % 4 = 0)
    (ha : s.accessOk .host = true) (hbe : be ≠ 0xF) :
    exec (.registerWrite .host off be v) s = .next (s.set1 R.HOST_ERR_SIZE).settle := by
  show execRegisterWrite .host off be v s = _
  unfold execRegisterWrite doneP
  rw [if_neg (not_not.mpr h4), if_neg (by simpa using ha), if_pos ⟨rfl, hbe⟩, (hs.set1 R.HOST_ERR_SIZE).pwrSweep_eq, done_eq]

/-- A write that arrives ends with its effect, where that sets nothing else going. -/
theorem exec_registerWrite_reached {who : Accessor} {off : Nat} {v : Reg32} (ha : s.accessOk who = true) (hlt : off < 2 ^ 16)
    (h4 : off % 4 = 0) (hc : (s.regEffect who off v).Calm) :
    exec (.registerWrite who (BitVec.ofNat 16 off) 0xF v) s = .next (s.regEffect who off v).settle := by
  have hoff : (BitVec.ofNat 16 off).toNat = off := by rw [BitVec.toNat_ofNat, Nat.mod_eq_of_lt hlt]
  show execRegisterWrite who (BitVec.ofNat 16 off) 0xF v s = _
  unfold execRegisterWrite doneP State.regWrite
  rw [hoff, if_neg (not_not.mpr h4), if_neg (by simpa using ha), if_neg (by simp), hc.packSettle_eq, hc.pwrSweep_eq, done_eq]

theorem exec_readClear_reached {who : Accessor} {off : Nat} (ha : s.accessOk who = true) (hlt : off < 2 ^ 16) (h4 : off % 4 = 0) :
    exec (.readClear who (BitVec.ofNat 16 off)) s =
      .next ((s.regRead off).2.emit (.readData off (s.regRead off).1)).settle := by
  have hoff : (BitVec.ofNat 16 off).toNat = off := by rw [BitVec.toNat_ofNat, Nat.mod_eq_of_lt hlt]
  show execReadClear who (BitVec.ofNat 16 off) s = _
  unfold execReadClear
  rw [hoff, if_neg (not_not.mpr h4), if_neg (by simpa using ha), done_eq]

/-! ### Words without an effect of their own -/

/-- A mask of all 32 bits, as simp writes the complement of none. -/
theorem and_fullWord (w : Reg32) : w &&& 4294967295#32 = w := BitVec.and_allOnes

/-- A word with no staged bits: RW bits take the value, W1C bits written 1 clear (R5). -/
theorem State.plainWrite_unstaged {off : Nat} {rw w1c : Reg32} (v : Reg32) (hs : accMask off .stg = 0) (hr : accMask off .rw = rw)
    (hc : accMask off .w1c = w1c) :
    s.plainWrite off v = s.setWord off (((s.word off &&& ~~~rw) ||| (v &&& rw)) &&& ~~~(v &&& w1c)) := by
  simp [State.plainWrite, hs, hr, hc]

/-- A word with no bit a write reaches, or no word at all, keeps its value (R5, R9). -/
theorem State.plainWrite_readOnly {off : Nat} (v : Reg32) (hs : accMask off .stg = 0) (hr : accMask off .rw = 0)
    (hc : accMask off .w1c = 0) : s.plainWrite off v = s.setWord off (s.word off) := by
  rw [s.plainWrite_unstaged v hs hr hc]
  simp [and_fullWord]

/-- A word of staged bits alone, with no commit pending (R5, R8). -/
theorem State.plainWrite_staged {off : Nat} {stg : Reg32} (v : Reg32) (hp : s.bit R.COMMIT_STAT_PENDING = false)
    (hs : accMask off .stg = stg) (hr : accMask off .rw = 0) (hc : accMask off .w1c = 0) :
    s.plainWrite off v = s.setWord off ((s.word off &&& ~~~stg) ||| (v &&& stg)) := by
  simp [and_fullWord, State.plainWrite, State.pendingCommit, hp, hs, hr, hc]

/-- A word of staged bits alone, while a commit is pending (R47). -/
theorem State.plainWrite_held {off : Nat} (v : Reg32) (hp : s.bit R.COMMIT_STAT_PENDING = true)
    (hs : accMask off .stg ≠ 0#32) (hr : accMask off .rw = 0) (hc : accMask off .w1c = 0) :
    s.plainWrite off v = (s.setWord off (s.word off)).ignoredWrite := by
  simp [and_fullWord, State.plainWrite, State.pendingCommit, hp, hs, hr, hc]

theorem State.bit_set1_off (f g : Fld) (h : g.off ≠ f.off) : (s.set1 f).bit g = s.bit g := by
  unfold State.bit State.set1
  rw [State.rd_wr_off _ _ _ _ h]

theorem State.bit_set1 (f : Fld) (hf : f.lo + f.w ≤ 32) (hw : 0 < f.w) : (s.set1 f).bit f = true := by
  have h2 : 2 ≤ 2 ^ f.w := by
    calc 2 = 2 ^ 1 := rfl
      _ ≤ 2 ^ f.w := Nat.pow_le_pow_right (by decide) hw
  unfold State.bit State.set1
  rw [State.rd_wr _ _ _ hf, Nat.mod_eq_of_lt (by omega), bne_iff_ne]
  omega

theorem State.wr_wr_hreg (f g : Fld) (v w : Nat) : (s.wr f v).wr g w = { s with hreg := ((s.wr f v).wr g w).hreg } := rfl

theorem State.ignoredWrite_hreg : s.ignoredWrite = { s with hreg := s.ignoredWrite.hreg } := s.wr_wr_hreg _ _ _ _

/-- A write ignored shows in both IGNORED bits and nowhere else (R47). -/
theorem State.words_ignoredWrite : Says.words s s.ignoredWrite [R.COMMIT_STAT, R.BEAT_INT_STAT] := by
  intro o ho
  simp only [List.mem_cons, List.not_mem_nil, or_false, not_or] at ho
  unfold State.ignoredWrite State.set1
  rw [State.word_wr_off _ _ _ _ ho.2, State.word_wr_off _ _ _ _ ho.1]

theorem State.ignoredWrite_bits :
    s.ignoredWrite.bit R.COMMIT_STAT_IGNORED = true ∧ s.ignoredWrite.bit R.BEAT_INT_STAT_IGNORED = true := by
  refine ⟨?_, State.bit_set1 _ _ (by decide) (by decide)⟩
  unfold State.ignoredWrite
  rw [State.bit_set1_off _ _ _ (by decide), State.bit_set1 _ _ (by decide) (by decide)]

/-! ### The access codes of the words the statement names (R5, R64, R425) -/

theorem accMask_J_EVT_EN : accMask R.J_EVT_EN .stg = 0 ∧ accMask R.J_EVT_EN .rw = 0xFF ∧ accMask R.J_EVT_EN .w1c = 0 := by
  decide +kernel

theorem accMask_J_EVT : accMask R.J_EVT .stg = 0 ∧ accMask R.J_EVT .rw = 0 ∧ accMask R.J_EVT .w1c = 0xFF := by decide +kernel

theorem accMask_J_CFG : accMask R.J_CFG .stg = 0x1FFF0000 ∧ accMask R.J_CFG .rw = 0 ∧ accMask R.J_CFG .w1c = 0 := by decide +kernel

/-- Words that a write leaves: RO, RC, and offsets where no register stands. -/
theorem accMask_readOnly {off : Nat} (h : off ∈ [R.SEAL_IVL, R.DROP_ESS, R.J_STAT, 0x7050, 0x0900]) :
    accMask off .stg = 0 ∧ accMask off .rw = 0 ∧ accMask off .w1c = 0 := by
  revert off
  decide +kernel

theorem accMask_DROP_ESS_rc : accMask R.DROP_ESS .rc = 0xFFFFFFFF := by decide +kernel

theorem accMask_SEAL_IVL_rc : accMask R.SEAL_IVL .rc = 0 := by decide +kernel

theorem wordReset_DROP_ESS : wordReset R.DROP_ESS = 0 := by decide +kernel

/-- The words of the journal's block, and those where no block stands, have no effect of their own. -/
theorem State.regEffect_plain {off : Nat} (who : Accessor) (v : Reg32) (h : off = 0x0900 ∨ 0x7000 ≤ off ∧ off < 0x8000) :
    s.regEffect who off v = s.plainWrite off v := by
  unfold State.regEffect
  dsimp only [R.BEAT_CTRL, R.COMMIT, R.TIME_CAP_CTRL, R.IRIG_CTRL, R.DRV_ABORT_CTRL, R.TR_CTRL, R.WH_FIRE, R.RST_CTRL, R.STEW_WDT]
  repeat rw [if_neg (by omega)]

end Sys2Proof.Machine

/-! Settles O55: REGISTER_WRITE and READ_CLEAR by the host and by the steward. -/

namespace Sys2Proof.Machine

open Sys2Proof

-- One proof after another, as in the tests: theorems checked side by side need more threads than the check's memory limit allows.
set_option Elab.async false

variable {s : State} {who : Accessor}

/-- A write, with its effect, of a word that has none of its own and takes the value w. -/
theorem exec_registerWrite_setWord (hs : s.Calm) (ha : s.accessOk who = true) {off : Nat} {v w : Reg32}
    (hoff : off = 0x0900 ∨ 0x7000 ≤ off ∧ off < 0x8000) (h4 : off % 4 = 0) (hw : s.plainWrite off v = s.setWord off w) :
    exec (.registerWrite who (BitVec.ofNat 16 off) 0xF v) s = .next (s.setWord off w).settle := by
  have he : s.regEffect who off v = s.setWord off w := (s.regEffect_plain who v hoff).trans hw
  rw [exec_registerWrite_reached s ha (by omega) h4 (he ▸ hs.setWord off w (by omega)), he]

/-- A word that no write reaches is left. -/
theorem exec_registerWrite_readOnly (hs : s.Calm) (ha : s.accessOk who = true) (v : Reg32) {off : Nat}
    (h : off ∈ [R.SEAL_IVL, R.DROP_ESS, R.J_STAT, 0x7050, 0x0900]) :
    ∃ t, exec (.registerWrite who (BitVec.ofNat 16 off) 0xF v) s = .next t ∧ Says.regsOnly s t [] := by
  obtain ⟨hstg, hrw, hw1c⟩ := accMask_readOnly h
  have hoff : (off = 0x0900 ∨ 0x7000 ≤ off ∧ off < 0x8000) ∧ off % 4 = 0 := by revert off; decide
  exact ⟨_, exec_registerWrite_setWord hs ha hoff.1 hoff.2 (s.plainWrite_readOnly v hstg hrw hw1c),
    regsOnly_settle s rfl (words_setWord_word s off)⟩

/-- While a commit is pending a write of J_CFG only sets both IGNORED bits (R47). -/
theorem exec_registerWrite_held (hs : s.Calm) (ha : s.accessOk who = true) (v : Reg32) (hp : s.bit R.COMMIT_STAT_PENDING = true) :
    ∃ t, exec (.registerWrite who (BitVec.ofNat 16 R.J_CFG) 0xF v) s = .next t ∧
      Says.regsOnly s t [R.COMMIT_STAT, R.BEAT_INT_STAT] ∧ t.bit R.COMMIT_STAT_IGNORED = true ∧ t.bit R.BEAT_INT_STAT_IGNORED = true := by
  obtain ⟨hstg, hrw, hw1c⟩ := accMask_J_CFG
  let u := s.setWord R.J_CFG (s.word R.J_CFG)
  have he : s.regEffect who R.J_CFG v = u.ignoredWrite :=
    (s.regEffect_plain who v (by decide)).trans (s.plainWrite_held v hp (by rw [hstg]; decide) hrw hw1c)
  have hc : u.ignoredWrite.Calm := (hs.setWord R.J_CFG (s.word R.J_CFG)).ignoredWrite
  have hwords : Says.words s u.ignoredWrite [R.COMMIT_STAT, R.BEAT_INT_STAT] := fun o ho =>
    (u.words_ignoredWrite o ho).trans (word_setWord_word s R.J_CFG o)
  refine ⟨u.ignoredWrite.settle, ?ends, regsOnly_settle s (u.ignoredWrite_hreg.trans rfl) hwords, ?bits⟩
  case ends => rw [exec_registerWrite_reached s ha (by decide) (by decide) (he ▸ hc), he]
  case bits =>
    rw [State.settle_bit, State.settle_bit]
    exact u.ignoredWrite_bits

/-! ### Writes with the effect of a command of their own -/

theorem regEffect_MB_DB (m : Nat) (hm : m < 16) (v : Reg32) : s.regEffect who (R.MB_DB m) v = s.doorbellWrite m v := by
  have hdiv : (0x414 + 0x40 * m - 0x400) / 0x40 = m := by omega
  have hmod : (0x414 + 0x40 * m - 0x400) % 0x40 = 0x14 := by omega
  unfold State.regEffect
  rw [if_pos (by dsimp only [R.MB_DB]; omega), hdiv, hmod]
  rfl

theorem regEffect_MB_CTRL (m : Nat) (hm : m < 16) (v : Reg32) :
    s.regEffect who (R.MB_CTRL m) v = if v.getLsbD 30 = true then s.mbReset m else s.mbEnable m v := by
  have hdiv : (0x400 + 0x40 * m - 0x400) / 0x40 = m := by omega
  have hmod : (0x400 + 0x40 * m - 0x400) % 0x40 = 0 := by omega
  unfold State.regEffect
  rw [if_pos (by dsimp only [R.MB_CTRL]; omega), hdiv, hmod]
  rfl

theorem exec_registerWrite_MB_DB (hs : s.Calm) (ha : s.accessOk who = true) (mb : BitVec 4) (v : Reg32) :
    exec (.registerWrite who (BitVec.ofNat 16 (R.MB_DB mb.toNat)) 0xF v) s = exec (.mbDbWrite mb v) s := by
  have hm : mb.toNat < 16 := mb.isLt
  have he := regEffect_MB_DB (s := s) (who := who) mb.toNat hm v
  rw [exec_registerWrite_reached s ha (by dsimp only [R.MB_DB]; omega) (by dsimp only [R.MB_DB]; omega)
    (he ▸ hs.doorbellWrite _ v), he]
  rfl

theorem exec_registerWrite_MB_CTRL (hs : s.Calm) (ha : s.accessOk who = true) (mb : BitVec 4) (v : Reg32) :
    exec (.registerWrite who (BitVec.ofNat 16 (R.MB_CTRL mb.toNat)) 0xF v) s =
      exec (if v.getLsbD 30 = true then .mbCtrlReset mb else .mbCtrlEn mb v) s := by
  have hm : mb.toNat < 16 := mb.isLt
  have he := regEffect_MB_CTRL (s := s) (who := who) mb.toNat hm v
  rw [exec_registerWrite_reached s ha (by dsimp only [R.MB_CTRL]; omega) (by dsimp only [R.MB_CTRL]; omega)
    (he ▸ (hs.mbReset _).ite (hs.mbEnable _ v)), he]
  split
  · rfl
  · next h => exact (doneIf_true _ _ (by simpa using h)).symm

theorem exec_registerWrite_BEAT_CTRL (hs : s.Calm) (ha : s.accessOk who = true) (v : Reg32) :
    exec (.registerWrite who (BitVec.ofNat 16 R.BEAT_CTRL) 0xF v) s =
      exec (if v.getLsbD 31 = true then .beatRunStart v else .beatRunStop v) s := by
  have he : s.regEffect who R.BEAT_CTRL v = if v.getLsbD 31 = true then s.beatRunStart v else s.beatRunStop v := rfl
  rw [exec_registerWrite_reached s ha (by decide) (by decide) (he ▸ (hs.beatRunStart v).ite (hs.beatRunStop v)), he]
  split
  · next h =>
    show _ = doneIf (v.getLsbD 31) (s.beatRunStart v).packSettle
    rw [(hs.beatRunStart v).packSettle_eq, doneIf_true _ _ h]
  · next h =>
    show _ = doneIf (!v.getLsbD 31) (s.beatRunStop v).packSettle
    rw [(hs.beatRunStop v).packSettle_eq, doneIf_true _ _ (by simpa using h)]

theorem exec_registerWrite_WH_FIRE (hs : s.Calm) (ha : s.accessOk who = true) (v : Reg32) :
    exec (.registerWrite who (BitVec.ofNat 16 R.WH_FIRE) 0xF v) s = exec (.whFireWrite v) s := by
  have he : s.regEffect who R.WH_FIRE v = s.whRequest ⟨0, v.setWidth 16, 0, none, s.time, none⟩ := rfl
  rw [exec_registerWrite_reached s ha (by decide) (by decide) (he ▸ hs.whRequest _), he]
  rfl

/-! ### Reads -/

/-- A word without a counter is read and left. -/
theorem regRead_SEAL_IVL : s.regRead R.SEAL_IVL = (s.rdW R.SEAL_IVL, s) := by
  have hl : s.latchRead R.SEAL_IVL = none := rfl
  have hr : s.readWord R.SEAL_IVL = s.word R.SEAL_IVL := rfl
  unfold State.regRead
  rw [hl, hr, accMask_SEAL_IVL_rc]
  rfl

/-- A counter is read and returns to 0 (R5). -/
theorem regRead_DROP_ESS : s.regRead R.DROP_ESS = (s.rdW R.DROP_ESS, s.setWord R.DROP_ESS 0) := by
  have hl : s.latchRead R.DROP_ESS = none := rfl
  have hr : s.readWord R.DROP_ESS = s.word R.DROP_ESS := rfl
  unfold State.regRead
  rw [hl, hr, accMask_DROP_ESS_rc, wordReset_DROP_ESS]
  simp [State.rdW]

/-- BEAT_NUM_LO latches the upper half of the beat number (R32). -/
theorem regRead_BEAT_NUM_LO :
    s.regRead R.BEAT_NUM_LO = (s.beat.num.toNat % 2 ^ 32, s.wrW R.BEAT_NUM_HI (s.beat.num.toNat / 2 ^ 32)) := rfl

theorem rdW_wrW (off n : Nat) (hn : n < 2 ^ 32) : (s.wrW off n).rdW off = n := by
  unfold State.rdW State.wrW
  rw [State.word_setWord_self, BitVec.toNat_ofNat, Nat.mod_eq_of_lt hn]

/-- Settles O55: the reach of an access, the access codes of R5, and the words whose write is a command of its own. With nothing
waiting and no link, what doneP and packSettle add to such a command is nothing (State.Calm). -/
theorem registerAccessResults : Obligations.RegisterAccessResults := by
  intro s hslot hlink host stew
  have hs : s.Calm := ⟨hslot, hlink⟩
  have hself : Says.regsOnly s s.settle [] := regsOnly_settle s rfl (words_refl s [])
  refine ⟨?misaligned, ?noHost, ?noSteward, ?partialWrite, ?reached, ?watchdog⟩
  case misaligned =>
    exact fun who off be v h4 => ⟨exec_registerWrite_misaligned s who off be v h4, exec_readClear_misaligned s who off h4⟩
  case noHost =>
    intro hn off be v h4
    have ha := (accessOk_host_iff s).not.mpr hn
    exact ⟨⟨_, exec_registerWrite_unreached s hs _ off be v h4 ha, hself⟩, ⟨_, exec_readClear_unreached s _ off h4 ha, hself⟩⟩
  case noSteward =>
    intro hn off be v h4
    have ha := (accessOk_steward_iff s).not.mpr hn
    exact ⟨⟨_, exec_registerWrite_unreached s hs _ off be v h4 ha, hself⟩, ⟨_, exec_readClear_unreached s _ off h4 ha, hself⟩⟩
  case partialWrite =>
    intro hh off be v h4 hbe
    exact ⟨_, exec_registerWrite_partial s hs off be v h4 ((accessOk_host_iff s).mpr hh) hbe, regsOnly_setWord s _ _,
      s.bit_set1 R.HOST_ERR_SIZE (by decide) (by decide)⟩
  case watchdog =>
    intro hh v
    exact ⟨_, exec_registerWrite_reached s ((accessOk_host_iff s).mpr hh) (by decide) (by decide) hs, hself⟩
  case reached =>
    intro who hwho v put
    have ha : s.accessOk who = true := by
      cases who
      · exact (accessOk_host_iff s).mpr hwho
      · exact (accessOk_steward_iff s).mpr hwho
    refine ⟨?rw, ?w1c, ?readOnly, ?staged, ?held, fun mb => ⟨exec_registerWrite_MB_DB hs ha mb v, exec_registerWrite_MB_CTRL hs ha mb v⟩,
      exec_registerWrite_BEAT_CTRL hs ha v, exec_registerWrite_WH_FIRE hs ha v, ?counter, ?plainRead, ?latch⟩
    case rw =>
      obtain ⟨hstg, hrw, hw1c⟩ := accMask_J_EVT_EN
      refine ⟨_, exec_registerWrite_setWord hs ha (by decide) (by decide) (s.plainWrite_unstaged v hstg hrw hw1c), regsOnly_setWord s _ _, ?_⟩
      rw [State.settle_word, State.word_setWord_self]
      simp [and_fullWord]
    case w1c =>
      obtain ⟨hstg, hrw, hw1c⟩ := accMask_J_EVT
      refine ⟨_, exec_registerWrite_setWord hs ha (by decide) (by decide) (s.plainWrite_unstaged v hstg hrw hw1c), regsOnly_setWord s _ _, ?_⟩
      rw [State.settle_word, State.word_setWord_self]
      simp [and_fullWord]
    case readOnly =>
      intro off h
      exact exec_registerWrite_readOnly hs ha v (by simpa using h)
    case staged =>
      intro hp
      obtain ⟨hstg, hrw, hw1c⟩ := accMask_J_CFG
      exact ⟨_, exec_registerWrite_setWord hs ha (by decide) (by decide) (s.plainWrite_staged v hp hstg hrw hw1c),
        regsOnly_setWord s _ _, s.word_setWord_self _ _⟩
    case held => exact exec_registerWrite_held hs ha v
    case counter =>
      refine ⟨_, exec_readClear_reached s ha (by decide) (by decide), ?_⟩
      rw [regRead_DROP_ESS]
      refine ⟨hostOnly_settle s (words_setWord s R.DROP_ESS 0), rfl, ?_, rfl⟩
      exact congrArg BitVec.toNat (s.word_setWord_self R.DROP_ESS 0)
    case plainRead =>
      refine ⟨_, exec_readClear_reached s ha (by decide) (by decide), ?_⟩
      rw [regRead_SEAL_IVL]
      exact ⟨hostOnly_settle s (words_refl s []), rfl, rfl⟩
    case latch =>
      have hn : s.beat.num.toNat / 2 ^ 32 < 2 ^ 32 := by have := s.beat.num.isLt; omega
      refine ⟨_, exec_readClear_reached s ha (by decide) (by decide), ?_⟩
      rw [regRead_BEAT_NUM_LO]
      exact ⟨hostOnly_settle s (words_setWord s R.BEAT_NUM_HI _), rfl, rdW_wrW _ _ hn, rfl⟩

end Sys2Proof.Machine

/-! SUPPORT. What the work around an edge leaves alone (R18, R26): the grid of the beat and clock time that only rises; for what
happens before an edge acts, the beat, the words of its block and a GRID that waits; for reports and records, memory and the cores. -/

namespace Sys2Proof.Machine

open Sys2Proof

-- One proof after another, as in the tests: theorems checked side by side need more threads than the check's memory limit allows.
set_option Elab.async false

/-- What the edges of a beat follow from (R26, R33 to R35): its phase, number, last edge, an edge still to come, and pack time's
offset. -/
def Beat.grid (z : Beat) : BeatPhase × BitVec 48 × Int × Option (BitVec 48 × Int) × Int := (z.phase, z.num, z.lastEdge, z.first, z.off)

/-- From o, whose beat is not stopped, s has been reached with the grid kept and no time undone. Under clock nothing of the beat
differs, nor a GRID that waits, nor a word of the beat's registers (R63, R64); under store neither memory, cores nor CICs do. -/
structure State.Keeps (store clock : Bool) (o s : State) : Prop where
  moving : s.beat.phase ≠ .stopped
  grid : s.beat.grid = o.beat.grid
  time : o.time ≤ s.time
  beat : clock = true → s.beat = o.beat
  newGrid : clock = true → s.fab.newGrid = o.fab.newGrid
  word : clock = true → ∀ w, 0x4000 ≤ w → w < 0x5000 → s.word w = o.word w
  mem : store = true → s.mem = o.mem
  cores : store = true → s.cores = o.cores
  cics : store = true → s.cics = o.cics

/-- Under clock, an offset is not of the beat's registers. -/
def Outside (clock : Bool) (off : Nat) : Prop := clock = true → off < 0x4000 ∨ 0x5000 ≤ off

namespace State.Keeps

-- a stands for store, b for clock.
variable {a b : Bool} {o s t : State}

theorem refl (h : s.beat.phase ≠ .stopped) : s.Keeps a b s where
  moving := h
  grid := rfl
  time := le_rfl
  beat _ := rfl
  newGrid _ := rfl
  word _ _ _ _ := rfl
  mem _ := rfl
  cores _ := rfl
  cics _ := rfl

/-- A step that touches nothing of what is kept. -/
theorem same (h : o.Keeps a b s) (hb : t.beat = s.beat := by rfl) (ht : t.time = s.time := by rfl)
    (hg : t.fab.newGrid = s.fab.newGrid := by rfl) (hr : t.hreg = s.hreg := by rfl) (hm : t.mem = s.mem := by rfl)
    (hc : t.cores = s.cores := by rfl) (hi : t.cics = s.cics := by rfl) : o.Keeps a b t where
  moving := by rw [hb]; exact h.moving
  grid := by rw [hb]; exact h.grid
  time := by rw [ht]; exact h.time
  beat k := by rw [hb]; exact h.beat k
  newGrid k := by rw [hg]; exact h.newGrid k
  word k w hl hu := by unfold State.word; rw [hr]; exact h.word k w hl hu
  mem k := by rw [hm]; exact h.mem k
  cores k := by rw [hc]; exact h.cores k
  cics k := by rw [hi]; exact h.cics k

/-- A step that may touch memory, cores and CICs. -/
theorem stored (h : o.Keeps false b s) (hb : t.beat = s.beat := by rfl) (ht : t.time = s.time := by rfl)
    (hg : t.fab.newGrid = s.fab.newGrid := by rfl) (hr : t.hreg = s.hreg := by rfl) : o.Keeps false b t where
  moving := by rw [hb]; exact h.moving
  grid := by rw [hb]; exact h.grid
  time := by rw [ht]; exact h.time
  beat k := by rw [hb]; exact h.beat k
  newGrid k := by rw [hg]; exact h.newGrid k
  word k w hl hu := by unfold State.word; rw [hr]; exact h.word k w hl hu
  mem := nofun
  cores := nofun
  cics := nofun

/-- A step that may touch anything but the grid. -/
theorem rides (h : o.Keeps false false s) (hb : t.beat.grid = s.beat.grid) (ht : s.time ≤ t.time) : o.Keeps false false t where
  moving := by rw [show t.beat.phase = s.beat.phase from congrArg (·.1) hb]; exact h.moving
  grid := by rw [hb]; exact h.grid
  time := h.time.trans ht
  beat := nofun
  newGrid := nofun
  word := nofun
  mem := nofun
  cores := nofun
  cics := nofun

theorem ite {p : Prop} [Decidable p] (hs : o.Keeps a b s) (ht : o.Keeps a b t) : o.Keeps a b (if p then s else t) := by
  split <;> assumption

theorem foldl {α : Type} (h : o.Keeps a b s) (f : State → α → State) (l : List α) (hf : ∀ u x, o.Keeps a b u → o.Keeps a b (f u x)) :
    o.Keeps a b (l.foldl f s) := List.foldlRecOn l f h fun u hu x _ => hf u x hu

/-- A fold that carries more than the state. -/
theorem foldlFst {α β : Type} {p : State × β} (h : o.Keeps a b p.1) (f : State × β → α → State × β) (l : List α)
    (hf : ∀ u x, o.Keeps a b u.1 → o.Keeps a b (f u x).1) : o.Keeps a b (l.foldl f p).1 :=
  List.foldlRecOn (motive := fun u => o.Keeps a b u.1) l f h fun u hu x _ => hf u x hu

/-! ### One part of the state -/

theorem onJrn (h : o.Keeps a b s) (f : Journal → Journal) : o.Keeps a b (s.onJrn f) := h.same
theorem onStr (h : o.Keeps a b s) (f : Streams → Streams) : o.Keeps a b (s.onStr f) := h.same
theorem onRed (h : o.Keeps a b s) (f : Red → Red) : o.Keeps a b (s.onRed f) := h.same
theorem onHost (h : o.Keeps a b s) (f : HostIf → HostIf) : o.Keeps a b (s.onHost f) := h.same
theorem onQEng (h : o.Keeps a b s) (f : QEngine → QEngine) : o.Keeps a b (s.onQEng f) := h.same
theorem onKn (h : o.Keeps a b s) (f : Kennel → Kennel) : o.Keeps a b (s.onKn f) := h.same
theorem onPwr (h : o.Keeps a b s) (f : Power → Power) : o.Keeps a b (s.onPwr f) := h.same
theorem onWh (h : o.Keeps a b s) (f : Whistle → Whistle) : o.Keeps a b (s.onWh f) := h.same
theorem onBoot (h : o.Keeps a b s) (f : Boot → Boot) : o.Keeps a b (s.onBoot f) := h.same
theorem onDev (h : o.Keeps a b s) (f : Dev → Dev) : o.Keeps a b (s.onDev f) := h.same
theorem onPort (h : o.Keeps a b s) (p : Nat) (f : Port → Port) : o.Keeps a b (s.onPort p f) := h.same
theorem onFab (h : o.Keeps a b s) (f : Fabric → Fabric) (hf : (f s.fab).newGrid = s.fab.newGrid := by rfl) :
    o.Keeps a b (s.onFab f) := h.same rfl rfl hf

/-- An update of the fabric, a GRID that waits included. -/
theorem onFabAny (h : o.Keeps false false s) (f : Fabric → Fabric) : o.Keeps false false (s.onFab f) := h.rides rfl le_rfl

/-- An update of the beat that leaves the grid. -/
theorem onBeat (h : o.Keeps false false s) (f : Beat → Beat) (hf : ∀ z, (f z).grid = z.grid := by exact fun _ => rfl) :
    o.Keeps false false (s.onBeat f) := h.rides (hf _) le_rfl

theorem setClu (h : o.Keeps a b s) (c : Nat) (x : Cluster) : o.Keeps a b (s.setClu c x) := h.same
theorem setQueue (h : o.Keeps a b s) (q : Nat) (x : Queue) : o.Keeps a b (s.setQueue q x) := h.same
theorem setChan (h : o.Keeps a b s) (ch : Nat) (c : Chan) : o.Keeps a b (s.setChan ch c) := h.same
theorem setFport (h : o.Keeps a b s) (p : Nat) (x : FPort) : o.Keeps a b (s.setFport p x) := h.same
theorem onFp (h : o.Keeps a b s) (p : Nat) (f : FPort → FPort) : o.Keeps a b (s.onFp p f) := h.same
theorem setEng (h : o.Keeps a b s) (c : Nat) (x : RedEng) : o.Keeps a b (s.setEng c x) := h.same
theorem setRState (h : o.Keeps a b s) (r : RState) : o.Keeps a b (s.setRState r) := h.same
theorem setCtxL (h : o.Keeps a b s) (i l : Nat) (v : Long) : o.Keeps a b (s.setCtxL i l v) := h.same
theorem setForce (h : o.Keeps a b s) (off : Nat) (v : Reg32) : o.Keeps a b (s.setForce off v) := h.same
theorem freeNext (h : o.Keeps a b s) : o.Keeps a b s.freeNext := h.same
theorem setCore (h : o.Keeps false b s) (i : Nat) (c : Core) : o.Keeps false b (s.setCore i c) := h.stored
theorem onCore (h : o.Keeps false b s) (i : Nat) (f : Core → Core) : o.Keeps false b (s.onCore i f) := h.stored
theorem setCic (h : o.Keeps false b s) (c : Nat) (x : Cic) : o.Keeps false b (s.setCic c x) := h.stored
theorem setGrain (h : o.Keeps false b s) (k : Nat) (v : Grain) : o.Keeps false b (s.setGrain k v) := h.stored

theorem setLong (h : o.Keeps false b s) (k : Nat) (v : Long) : o.Keeps false b (s.setLong k v) := by
  unfold State.setLong
  exact ite h.stored h.stored

theorem emit (h : o.Keeps a b s) (m : Out) : o.Keeps a b (s.emit m) := by
  rcases s.emit_or m with he | he <;> rw [he]
  · exact h
  · exact h.same

/-! ### Words of BAR0 -/

/-- A word outside the beat's registers. -/
theorem setWord (h : o.Keeps a b s) (off : Nat) (v : Reg32) (ho : Outside b off := by rintro ⟨⟩ <;> decide) :
    o.Keeps a b (s.setWord off v) :=
  { h with word := fun k w hl hu => by rw [State.word_setWord, if_neg (by have := ho k; omega)]; exact h.word k w hl hu }

theorem wr (h : o.Keeps a b s) (f : Fld) (v : Nat) (ho : Outside b f.off := by rintro ⟨⟩ <;> dsimp only <;> omega) :
    o.Keeps a b (s.wr f v) := h.setWord f.off _ ho

theorem wb (h : o.Keeps a b s) (f : Fld) (v : Bool) (ho : Outside b f.off := by rintro ⟨⟩ <;> dsimp only <;> omega) :
    o.Keeps a b (s.wb f v) := h.wr f _ ho

theorem wrW (h : o.Keeps a b s) (off v : Nat) (ho : Outside b off := by rintro ⟨⟩ <;> decide) :
    o.Keeps a b (s.wrW off v) := h.setWord off _ ho

theorem set1 (h : o.Keeps a b s) (f : Fld) (ho : Outside b f.off := by rintro ⟨⟩ <;> dsimp only <;> omega) :
    o.Keeps a b (s.set1 f) := h.wr f _ ho

theorem satAdd (h : o.Keeps a b s) (f : Fld) (n : Nat) (ho : Outside b f.off := by rintro ⟨⟩ <;> dsimp only <;> omega) :
    o.Keeps a b (s.satAdd f n) := h.wr f _ ho

theorem inc (h : o.Keeps a b s) (f : Fld) (ho : Outside b f.off := by rintro ⟨⟩ <;> dsimp only <;> omega) :
    o.Keeps a b (s.inc f) := h.satAdd f 1 ho

theorem incWrap (h : o.Keeps a b s) (f : Fld) (ho : Outside b f.off := by rintro ⟨⟩ <;> dsimp only <;> omega) :
    o.Keeps a b (s.incWrap f) := h.wr f _ ho

theorem toggle (h : o.Keeps a b s) (f : Fld) (ho : Outside b f.off := by rintro ⟨⟩ <;> dsimp only <;> omega) :
    o.Keeps a b (s.toggle f) := h.wr f _ ho

theorem countDrop (h : o.Keeps a b s) (cnt evt : Fld) (hc : Outside b cnt.off := by rintro ⟨⟩ <;> dsimp only <;> omega)
    (he : Outside b evt.off := by rintro ⟨⟩ <;> dsimp only <;> omega) : o.Keeps a b (s.countDrop cnt evt) := (h.inc cnt hc).set1 evt he

/-! ### Events, completions and the journal's intake -/

theorem hostEventAt (h : o.Keeps a b s) (beat : BitVec 48) (code cls : Nat) (arg : List Octet) :
    o.Keeps a b (s.hostEventAt beat code cls arg) := by
  unfold State.hostEventAt
  refine ite h (foldl ?_ _ _ fun u ch hu => ?_)
  · exact ite (ite ((h.onHost _).inc R.EVT_LOST_V) (h.onHost _)) h
  · exact ite (ite ((hu.setChan _ _).inc R.EVT_LOST_V) (hu.setChan _ _)) hu

theorem hostEvent (h : o.Keeps a b s) (code cls : Nat) (arg : List Octet) : o.Keeps a b (s.hostEvent code cls arg) := h.hostEventAt _ _ _ _

theorem hostEventDue (h : o.Keeps a b s) (beat : BitVec 48) (code cls : Nat) (arg : List Octet) :
    o.Keeps a b (s.hostEventDue beat code cls arg) := ite (h.hostEventAt _ _ _ _) (h.onHost _)

theorem setJState (h : o.Keeps a b s) (n : Nat) : o.Keeps a b (s.setJState n) :=
  ite h (((h.wr R.J_STAT_STATE _).set1 R.J_EVT_STATE).hostEvent _ _ _)

theorem jCounts (h : o.Keeps a b s) : o.Keeps a b s.jCounts :=
  (ite h ((h.wr R.BUF_USED_V _).toggle R.BUF_USED_TOG)).wr R.FREE_SEG_V _

theorem nvme (h : o.Keeps a b s) (p : Nat) (c : NvmeCmd) : o.Keeps a b (s.nvme p c) := (h.onJrn _).emit _

theorem closeAs (h : o.Keeps a b s) (chain flags : Nat) (filled fua : Bool) : o.Keeps a b (s.closeAs chain flags filled fua) := by
  unfold State.closeAs
  split
  · exact h
  · exact ((h.onJrn _).nvme _ _).jCounts

theorem newBlock (h : o.Keeps a b s) (chain bflags : Nat) (ht : s.newBlock chain bflags = some t) : o.Keeps a b t := by
  obtain ⟨x, -, rfl⟩ := Option.map_eq_some_iff.mp ht
  exact h.onJrn _

theorem putRec (h : o.Keeps a b s) (r : JRec) (flags : Nat) (ht : s.putRec r flags = some t) : o.Keeps a b t := by
  unfold State.putRec at ht
  extract_lets oct chain fits put at ht
  split at ht
  · exact Option.some.inj ht ▸ h.onJrn _
  · obtain ⟨u, hu, rfl⟩ := Option.map_eq_some_iff.mp ht
    exact (((h.closeAs _ _ _ _).newBlock _ _ hu).onJrn _).jCounts

theorem placeRec (h : o.Keeps a b s) (r : JRec) (ht : s.placeRec r = some t) : o.Keeps a b t := by
  obtain ⟨u, hu, rfl⟩ := Option.map_eq_some_iff.mp ht
  exact ((h.putRec _ _ hu).onJrn _).jCounts

theorem markLoss (h : o.Keeps a b s) (r : JRec) : o.Keeps a b (s.markLoss r) := h.same

theorem refuseRec (h : o.Keeps a b s) (r : JRec) : o.Keeps a b (s.refuseRec r) := by
  unfold State.refuseRec
  split
  · exact ((h.markLoss r).inc R.DROP_ESS_V).set1 R.J_EVT_DROP
  · exact ((h.markLoss r).inc R.DROP_BULK_V).set1 R.J_EVT_DROP

theorem admitOne (h : o.Keeps a b s) (r : JRec) : o.Keeps a b (s.admitOne r) := by
  unfold State.admitOne
  split
  · next t ht => exact h.placeRec r ht
  · exact ite (((h.refuseRec r).setJState _).set1 R.J_EVT_FULL) (h.refuseRec r)

theorem ringRelease (h : o.Keeps a b s) : o.Keeps a b s.ringRelease := by
  unfold State.ringRelease
  split
  · split
    · next t ht =>
      obtain ⟨g, -, hg⟩ := Option.bind_eq_some_iff.mp ht
      obtain ⟨u, hu, rfl⟩ := Option.map_eq_some_iff.mp hg
      exact ((h.placeRec _ hu).onJrn _).closeAs 0 0 false true
    · exact h
  · exact h

theorem offerRec (h : o.Keeps a b s) (r : JRec) : o.Keeps a b (s.offerRec r) := by
  have hr := h.refuseRec r
  have hq := h.ringRelease
  have hqr := hq.refuseRec r
  unfold State.offerRec
  exact ite (ite ((h.markLoss r).inc R.PF_REFUSED_V) hr) (ite (ite (hq.foldl _ _ fun u x hu => hu.admitOne x)
    (ite hqr (ite hqr (hqr.set1 R.J_EVT_FULL)))) (ite hr (ite (h.onJrn _) hr)))

theorem mbHalt (h : o.Keeps a b s) (m err : Nat) (hm : m < 16) : o.Keeps a b (s.mbHalt m err) :=
  ((h.wr (R.MB_STAT_STATE m) 2).wr (R.MB_STAT_ERR m) err).set1 (R.MB_EVT_HALT m)

theorem mbOff (h : o.Keeps a b s) (m : Nat) (hm : m < 16) : o.Keeps a b (s.mbOff m) :=
  ((((((h.wr (R.MB_DB_TAIL m) 0).wr (R.MB_STAT_CHEAD m) 0).wr (R.MB_STAT_CTAIL m) 0).wr (R.MB_CPL_HEAD_V m) 0).wr
    (R.MB_STAT_ERR m) 0).wr (R.MB_CTRL_EN m) 0).wr (R.MB_STAT_STATE m) 0

theorem ringEntry (h : o.Keeps a b s) (m tag status dlen cidx : Nat) (ext lost : Bool) (data : List Octet) (hm : m < 16) :
    o.Keeps a b (s.ringEntry m tag status dlen cidx ext lost data) := ((h.emit _).wr (R.MB_STAT_CTAIL m) _).setChan m _

/-- A completion counted and shown by its event. -/
theorem countDone (h : o.Keeps a b s) (m : Nat) (hm : m < 16) : o.Keeps a b ((s.inc (R.MB_DONE_V m)).set1 (R.MB_EVT_CPL m)) :=
  (h.inc (R.MB_DONE_V m)).set1 (R.MB_EVT_CPL m)

theorem completeSmall (h : o.Keeps a b s) (ch need : Nat) (hm : ch < 16) : o.Keeps a b (s.completeSmall ch need) := by
  unfold State.completeSmall
  extract_lets c
  split
  · exact h
  · exact ite ((h.setChan ch _).mbHalt _ _ hm) (((h.setChan ch _).ringEntry _ _ _ _ _ _ _ _ hm).countDone ch hm)

theorem svcSend (h : o.Keeps a b s) (peer session seq tag status : Nat) (data : List Octet) :
    o.Keeps a b (s.svcSend peer session seq tag status data) := ite h (h.foldl _ _ fun _ _ hu => hu.emit _)

theorem endUnseen (h : o.Keeps a b s) (ch : Nat) (discard : Bool) (hm : ch < 16) : o.Keeps a b (s.endUnseen ch discard) := by
  have h1 := h.inc (R.MB_DONE_V ch)
  exact ite (h.mbOff ch hm) (ite ((ite h h1).wr (R.MB_STAT_STATE ch) 0) (ite h h1))

theorem complete (h : o.Keeps a b s) (ch status : Nat) (data : List Octet) : o.Keeps a b (s.complete ch status data) := by
  unfold State.complete
  extract_lets c s1 ext
  split
  · exact h
  · extract_lets fail st d s2 s3 s4 s5
    have h1 : o.Keeps a b s1 := h.setChan ch _
    have h3 : o.Keeps a b s3 := ite ((ite (h1.set1 R.HOST_ERR_DMA) h1).emit _) (ite (h1.set1 R.HOST_ERR_DMA) h1)
    split
    · exact h
    · split
      · split
        · exact h1
        · exact h1.endUnseen ch _ (by omega)
      · split
        · next hsmall => exact h.completeSmall ch _ hsmall.1
        · split
          · next hm =>
            have h5 : o.Keeps a b s5 := (h3.ringEntry _ _ _ _ _ _ _ _ hm).countDone ch hm
            exact ite (h3.mbHalt ch 2 hm) (ite (h5.wr (R.MB_STAT_STATE ch) 0) h5)
          · exact h1.svcSend _ _ _ _ _ _

/-! ### Frames and fault reports -/

theorem setLink (h : o.Keeps a b s) (p vl : Nat) (l : Link) : o.Keeps a b (s.setLink p vl l) := h.setFport p _

theorem frameOut (h : o.Keeps a b s) (p : Nat) (f : Frame) : o.Keeps a b (s.frameOut p f).2 := ite (h.setFport p _) h

theorem startFrame (h : o.Keeps a b s) (p : Nat) (f : Frame) : o.Keeps a b (s.startFrame p f) :=
  (((h.frameOut p _).setLink p _ _).emit _).inc (R.TX_BE_V p)

theorem sendNext (h : o.Keeps a b s) (p vl : Nat) : o.Keeps a b (s.sendNext p vl) := by
  unfold State.sendNext
  extract_lets l
  split
  · split
    · exact ((h.setLink p vl _).emit _).inc (R.FP_RETRY_V p)
    · exact h.setLink p vl _
  · exact (h.setLink p vl _).startFrame p _
  · exact h

theorem flushPort (p n : Nat) : ∀ {s : State}, o.Keeps a b s → o.Keeps a b (State.flushPort p n s) := by
  induction n with
  | zero => exact fun h => h
  | succ n ih =>
    intro s h
    unfold State.flushPort
    split
    · exact h
    · exact ih (h.sendNext p _)

theorem sendOn (h : o.Keeps a b s) (p : Nat) (f : Frame) : o.Keeps a b (s.sendOn p f) := by
  unfold State.sendOn
  extract_lets g vl l s1 l1 need
  have h1 : o.Keeps a b s1 := flushPort p _ (h.setLink p vl _)
  exact ite (h1.inc (R.CRED_WAIT_V p)) h1

theorem originate (h : o.Keeps a b s) (f : Frame) : o.Keeps a b (s.originate f) :=
  ite (h.sendOn _ f) (ite (h.sendOn _ f) (h.countDrop R.DROP_NOROUTE_V R.PACK_EVT_NOROUTE))

theorem broadcast (h : o.Keeps a b s) (f : Frame) (but : Option Nat) : o.Keeps a b (s.broadcast f but) :=
  h.foldl _ _ fun _ _ hu => ite (hu.sendOn _ f) hu

theorem sendTo (h : o.Keeps a b s) (vl dst : Nat) (load : Payload) : o.Keeps a b (s.sendTo vl dst load) :=
  ite (h.foldl _ _ fun _ _ hu => hu.originate _) (ite (h.broadcast _ _) (h.originate _))

theorem sendReport (h : o.Keeps a b s) (r : FaultRep) : o.Keeps a b (s.sendReport r) := ite (h.hostEvent _ _ _) (h.sendTo _ _ _)

theorem frCount (h : o.Keeps a b s) : o.Keeps a b s.frCount := h.wr R.FR_STAT_V _

theorem takeReport (h : o.Keeps a b s) (r : FaultRep) : o.Keeps a b (s.takeReport r) :=
  ite (h.sendReport _) (ite (h.sendReport _) (ite (h.onFab _) (ite ((h.countDrop R.FR_LATE_V R.PACK_EVT_FR_OVERFLOW).sendReport _)
    (ite ((h.countDrop R.FR_OVERFLOW_V R.PACK_EVT_FR_OVERFLOW).sendReport _) (h.onFab _).frCount))))

theorem witness (h : o.Keeps a b s) (code origin : Nat) : o.Keeps a b (s.witness code origin) := ite h ((h.onFab _).takeReport _)

theorem selfFault (h : o.Keeps a b s) (code unit : Nat) (arg : List Octet) : o.Keeps a b (s.selfFault code unit arg) := by
  have h1 : o.Keeps a b (s.hostEvent code 6 arg) := h.hostEvent _ _ _
  exact ite (takeReport (h1.freeNext.same) _) h1

/-! ### The whistle's requests and the governor -/

theorem triggerWindows (h : o.Keeps a b s) (p : Window → Bool) (n : BitVec 48) : o.Keeps a b (s.triggerWindows p n) :=
  ite ((h.onJrn _).set1 R.J_STAT_EW_ACTIVE) h

theorem latch (h : o.Keeps a b s) (l : List WhReq) (n : BitVec 48) (t : Int) (stopped : Bool) (due : Option (BitVec 48)) :
    o.Keeps a b (s.latch l n t stopped due) := by
  unfold State.latch
  extract_lets seq tag src hdr words img s1 s2 s3 s4 s5 s6 s7 pm s8
  have h1 : o.Keeps a b s1 := h.onWh _
  have h2 : o.Keeps a b s2 := (((h1.satAdd R.WH_MERGED_V _).set1 R.WH_EVT_LATCHED).wr R.WH_STAT_SRC _).wr R.WH_STAT_WORDS _
  have h3 : o.Keeps a b s3 := ite (h2.set1 R.WH_EVT_DEFERRED) h2
  have h5 : o.Keeps a b s5 := (h3.wrW R.WH_BEAT_LO _).onWh _
  have h7 : o.Keeps a b s7 := (h5.offerRec _).triggerWindows _ _
  have h8 : o.Keeps a b s8 := ite ((h7.onWh _).emit _) h7
  exact h8.foldl _ _ fun _ _ hu => hu.complete _ _ _

theorem latchDue (h : o.Keeps a b s) (l : List WhReq) (n : BitVec 48) (t : Int) (stopped : Bool) :
    o.Keeps a b (s.latchDue l n t stopped) := by
  unfold State.latchDue
  refine ite h (ite (h.latch _ _ _ _ _) ?_)
  split
  · exact h.onWh _
  · exact (h.onWh _).inc R.WH_SKIP_V

theorem whRequest (h : o.Keeps a b s) (r : WhReq) : o.Keeps a b (s.whRequest r) :=
  ite h (ite (h.onWh _) (((h.onWh _).onWh _).latchDue _ _ _ _))

theorem whFault (h : o.Keeps a b s) (bit : Nat) : o.Keeps a b (s.whFault bit) := ite (h.whRequest _) h

theorem overrunEvent (h : o.Keeps a b s) (c : Nat) : o.Keeps a b (s.overrunEvent c) := ite h ((h.onHost _).selfFault _ _ _)

theorem govClear (h : o.Keeps a b s) (c : Nat) (n : Option (BitVec 48)) : o.Keeps a b (s.govClear c n) := h.setClu c _

theorem setVolt (h : o.Keeps a b s) (c v : Nat) (hc : c < 64) : o.Keeps a b (s.setVolt c v) :=
  ite h ((h.wr (R.CL_VOLT_V c) v).toggle (R.CL_VOLT_TOG c))

theorem govBoost (h : o.Keeps a b s) (c : Nat) (hc : c < 64) : o.Keeps a b (s.govBoost c) :=
  ite h (govClear (setClu (wr (wb (inc (setVolt (ite (h.set1 R.PWR_EVT_CEIL) h) c _ hc) (R.CL_BOOST_V c)) (R.CL_VOLT_AT_CEIL c) _)
    (R.CL_VOLT_AT_FLOOR c) 0) c _) c none)

end State.Keeps

end Sys2Proof.Machine

/-! SUPPORT. What the end of a beat leaves alone (R18, R26): blocks are written and reduced, notices posted and tokens missed without
a change to the beat or to its registers. -/

namespace Sys2Proof.Machine

open Sys2Proof

-- One proof after another, as in the tests: theorems checked side by side need more threads than the check's memory limit allows.
set_option Elab.async false

namespace State.Keeps

variable {a b : Bool} {o s t : State}

/-! ### Queues and interrupts -/

theorem cicEdge (h : o.Keeps false b s) (c src : Nat) : o.Keeps false b (s.cicEdge c src) := ite (h.setCic c _) h

theorem countRefusal (h : o.Keeps a b s) (q : Nat) (w : Refuse) : o.Keeps a b (s.countRefusal q w) :=
  ite ((h.setQueue q _).onQEng _) (h.setQueue q _)

theorem trackPool (h : o.Keeps a b s) : o.Keeps a b s.trackPool := h.onQEng _

theorem levelEdge (h : o.Keeps false b s) (q : Nat) : o.Keeps false b (s.levelEdge q) := ite (h.cicEdge _ _) h

theorem enqueue (h : o.Keeps false b s) (q : Nat) (m : Msg) : o.Keeps false b (s.enqueue q m) := by
  unfold State.enqueue
  split
  · exact h.countRefusal q _
  · exact ((h.setQueue q _).trackPool).levelEdge q

theorem foundUnc (h : o.Keeps a b s) (k : Nat) : o.Keeps a b (s.foundUnc k) := by
  unfold State.foundUnc
  split
  · exact (h.set1 (R.DDR_EVT_UNC ((k - 0x1000000000) / 0x800000000))).selfFault _ _ _
  · exact ite (h.selfFault _ _ _) (ite (h.selfFault _ _ _) h)

theorem scan (h : o.Keeps a b s) (x n : Nat) : o.Keeps a b (s.scan x n) := h.foldl _ _ fun _ k hu => hu.foundUnc k

/-! ### Streams -/

theorem putElem (h : o.Keeps false b s) (c : CtxCfg) (x j : Nat) (v : Long) : o.Keeps false b (s.putElem c x j v) :=
  ite (h.setLong _ _) (h.setGrain _ _)

theorem putElems (c : CtxCfg) (x : Nat) (l : List Long) : ∀ (j : Nat) {s : State}, o.Keeps false b s →
    o.Keeps false b (State.putElems c x j l s) := by
  induction l with
  | nil => exact fun _ _ h => h
  | cons v r ih => exact fun j _ h => ih (j + 1) (h.putElem c x j v)

theorem countGaps (h : o.Keeps a b s) (i n : Nat) (e : BitVec 48) (beat : Bool) : o.Keeps a b (s.countGaps i n e beat) :=
  ite (((h.setCtxL i 10 _).setCtxL i 10 _).setCtxL i 12 _) (h.setCtxL i 10 _)

theorem countOvr (h : o.Keeps a b s) (i : Nat) : o.Keeps a b (s.countOvr i) := h.setCtxL i 11 _

theorem countClip (h : o.Keeps a b s) (i n : Nat) : o.Keeps a b (s.countClip i n) := h.setCtxL i 11 _

theorem setGathered (h : o.Keeps a b s) (i : Nat) (l : List (BitVec 48 × Long × List Long)) : o.Keeps a b (s.setGathered i l) := h.onJrn _

theorem flushGather (h : o.Keeps a b s) (i : Nat) : o.Keeps a b (s.flushGather i) := ite h ((h.setGathered i []).offerRec _)

theorem windowStat (h : o.Keeps a b s) : o.Keeps a b s.windowStat := h.wb R.J_STAT_EW_ACTIVE _

theorem windowOne (h : o.Keeps a b s) (wid i : Nat) (e : BitVec 48) (hdr : Long) (l : List Long) : o.Keeps a b (s.windowOne wid i e hdr l) := by
  unfold State.windowOne
  split
  · exact h
  · exact ite ((((h.offerRec _).onJrn _).set1 R.J_EVT_EW_DONE).windowStat) ((h.offerRec _).onJrn _)

theorem windowSlot (h : o.Keeps a b s) (i : Nat) (e : BitVec 48) (hdr : Long) (l : List Long) : o.Keeps a b (s.windowSlot i e hdr l) :=
  h.foldl _ _ fun _ w hu => hu.windowOne w.wid i e hdr l

theorem gatherSlot (h : o.Keeps a b s) (i : Nat) (e : BitVec 48) (hdr : Long) (l : List Long) : o.Keeps a b (s.gatherSlot i e hdr l) := by
  have hw := h.windowSlot i e hdr l
  unfold State.gatherSlot
  extract_lets w gap s1 s2
  have h1 : o.Keeps a b s1 := ite (hw.flushGather i) hw
  have h2 : o.Keeps a b s2 := h1.setGathered i _
  exact ite hw (ite (h2.flushGather i) h2)

theorem redRecord (h : o.Keeps a b s) (i : Nat) (e : BitVec 48) (l : List Long) : o.Keeps a b (s.redRecord i e l) := ite (h.offerRec _) h

theorem setRemBlocks (h : o.Keeps a b s) (i : Nat) (l : List RemBlk) : o.Keeps a b (s.setRemBlocks i l) := h.onStr _

theorem remTake (h : o.Keeps false b s) (d fmt store spb offs : Nat) (e : BitVec 48) (l : List Long) :
    o.Keeps false b (s.remTake d fmt store spb offs e l) :=
  ite ((h.countOvr d).setRemBlocks d _) (ite (h.countOvr d) (ite (putElems _ _ _ _ (h.setRemBlocks d _)) (h.setRemBlocks d _)))

theorem localDeliver (h : o.Keeps false b s) (d i : Nat) (c : CtxCfg) (e : BitVec 48) (l : List Long) :
    o.Keeps false b (s.localDeliver d i c e l) := ite (h.remTake _ _ _ _ _ _ _) (ite (h.countOvr d) h)

theorem eligible (h : o.Keeps a b s) (e : Nat) (x : SendBlk) : o.Keeps a b (s.eligible e x) :=
  ite ((h.onFab _).countDrop R.VL0_STALE_V R.PACK_EVT_VL0_LOSS) (h.onFab _)

theorem sendVl1 (h : o.Keeps a b s) (i : Nat) (c : CtxCfg) (node dctx : Nat) (e : BitVec 48) (l : List Long) :
    o.Keeps a b (s.sendVl1 i c node dctx e l) := h.foldl _ _ fun _ _ hu => hu.foldl _ _ fun _ _ hv => hv.originate _

theorem sendBlock (h : o.Keeps false b s) (i : Nat) (e : BitVec 48) (l : List Long) : o.Keeps false b (s.sendBlock i e l) :=
  ite (h.foldl _ _ fun _ _ hu => ite (hu.foldl _ _ fun _ n hv => hv.eligible n _)
    (ite (hu.sendVl1 _ _ _ _ _ _) (ite (hu.localDeliver _ _ _ _ _) hu))) h

/-! ### Reductions -/

theorem wl (h : o.Keeps false b s) (r : RState) (l : Nat) (v : Long) : o.Keeps false b (s.wl r l v) := h.setLong _ v

theorem setReReg (h : o.Keeps a b s) (c off : Nat) (v : Long) : o.Keeps a b (s.setReReg c off v) := h.setEng c _

theorem writeReErr (h : o.Keeps false b s) (c : Nat) (err en : Long) : o.Keeps false b (s.writeReErr c err en) :=
  ite (((h.setReReg c _ _).setReReg c _ _).cicEdge c 65) ((h.setReReg c _ _).setReReg c _ _)

theorem setReErr (h : o.Keeps false b s) (c bit : Nat) : o.Keeps false b (s.setReErr c bit) := h.writeReErr c _ _

theorem failState (h : o.Keeps false b s) (r : RState) (e : Nat × Nat) : o.Keeps false b (s.failState r e) := by
  have h1 := (h.setRState { r with failed := true }).setReReg (s.rowner r) 0x010 (BitVec.ofNat 40 (r.src * 2 ^ 22 + r.slot * 2 ^ 20))
  exact ((ite (h1.wl r 2 _) h1).scan _ _).setReErr _ 3

theorem spoil (h : o.Keeps a b s) (x n : Nat) : o.Keeps a b (s.spoil x n) := ite (h.onRed _) h

theorem storeStats (h : o.Keeps false b s) (r : RState) (x : StatsRun) : o.Keeps false b (s.storeStats r x) :=
  h.foldl _ _ fun _ e hu => hu.wl r e.1 e.2

theorem takeStats (h : o.Keeps false b s) (r : RState) (l : List Int) : o.Keeps false b (s.takeStats r l) := (h.storeStats r _).setRState _

theorem addMat (h : o.Keeps false b s) (r : RState) (i n : Nat) : o.Keeps false b (s.addMat r i n).1 := h.setLong _ _

theorem addDelta (h : o.Keeps false b s) (r : RState) (i n : Nat) : o.Keeps false b (s.addDelta r i n).1 := by
  unfold State.addDelta
  split
  · exact h.setGrain _ _
  · exact h

theorem addBin (h : o.Keeps false b s) (r : RState) (i n : Nat) : o.Keeps false b (s.addBin r i n).1 := (h.addMat r i n).addDelta r i n

theorem countCycle (h : o.Keeps false b s) (r : RState) (f : Flow) (u v : Int) (full : Bool) :
    o.Keeps false b (s.countCycle r f u v full).1 := by
  unfold State.countCycle
  extract_lets x
  split
  · exact h.foldlFst _ _ fun u e hu => hu.addBin r e.1 e.2
  · exact h
  · exact h

theorem spillOut (h : o.Keeps false b s) (r : RState) (f : Flow) : o.Keeps false b (s.spillOut r f).1 := by
  unfold State.spillOut
  extract_lets len
  split
  · next x rest hst =>
    split
    · split
      · exact h.countCycle r f _ _ _
      · exact h
    · extract_lets v d x c g w
      have hc : o.Keeps false b c.1 := by
        unfold c
        split
        · exact h.countCycle r _ _ _ _
        · exact h
      split
      · exact hc.setLong _ _
      · exact hc
  · exact h

theorem spillIn (r : RState) (n : Nat) : ∀ p : State × Flow, o.Keeps false b p.1 → o.Keeps false b (State.spillIn r n p).1 := by
  induction n with
  | zero => exact fun _ h => h
  | succ n ih =>
    intro p h
    unfold State.spillIn
    split
    · exact ih _ h
    · exact h

theorem fourPoint (r : RState) (n : Nat) : ∀ p : State × Flow, o.Keeps false b p.1 → o.Keeps false b (State.fourPoint r n p).1 := by
  induction n with
  | zero => exact fun _ h => h
  | succ n ih =>
    intro p h
    unfold State.fourPoint
    split
    · split
      · exact ih _ (spillIn r 4 _ (h.countCycle r _ _ _ _))
      · exact h
    · exact h

theorem pushPoint (h : o.Keeps false b s) (r : RState) (f : Flow) (x : Int) : o.Keeps false b (s.pushPoint r f x).1 := by
  unfold State.pushPoint
  split
  · exact h
  · refine fourPoint r _ _ ?_
    dsimp only
    split
    · exact h.spillOut r f
    · exact h

theorem putStack (r : RState) (l : List Int) : ∀ (k : Nat) {s : State}, o.Keeps false b s → o.Keeps false b (State.putStack r k l s) := by
  induction l with
  | nil => exact fun _ _ h => h
  | cons x l ih => exact fun k _ h => ih (k + 1) (h.wl r _ _)

theorem storeFlow (h : o.Keeps false b s) (r : RState) (f : Flow) : o.Keeps false b (s.storeFlow r f) := by
  unfold State.storeFlow
  split
  · exact h.failState r _
  · exact (putStack r _ _ (h.foldl _ _ fun _ e hu => hu.wl r e.1 e.2)).setRState _

theorem takeFlow (h : o.Keeps false b s) (r : RState) (l : List Int) : o.Keeps false b (s.takeFlow r l) := by
  unfold State.takeFlow
  refine storeFlow (foldlFst h _ _ fun u x hu => ?_) r _
  dsimp only
  split
  · exact hu.pushPoint r _ _
  · exact hu

theorem takePkvl (h : o.Keeps false b s) (r : RState) (l : List (Int × Nat)) : o.Keeps false b (s.takePkvl r l) :=
  setRState (h.foldl _ _ fun _ e hu => hu.wl r e.1 e.2) _

theorem putRow (h : o.Keeps false b s) (r : RState) (p : Nat) (l : List (Nat × Nat × Option Long)) : o.Keeps false b (s.putRow r p l) :=
  h.foldl _ _ fun _ _ hu => by
    split
    · exact ite (hu.setLong _ _) hu
    · exact hu

theorem putAcc (x : Nat) (d : List Long) (n : Nat) : ∀ {s : State}, o.Keeps false b s → o.Keeps false b (State.putAcc x d n s) := by
  induction n with
  | zero => exact fun h => h
  | succ n ih => exact fun h => ih (h.setLong _ _)

theorem specFrames (n : Nat) : ∀ (r : RState) {s : State}, o.Keeps false b s → o.Keeps false b (State.specFrames n r s) := by
  induction n with
  | zero => exact fun _ _ h => h
  | succ n ih =>
    intro r s h
    unfold State.specFrames
    split
    · exact h
    · extract_lets f spb lo ms fr gap k d r1 s1 s2
      have h1 : o.Keeps false b s1 := (h.wl r 17 _).wl r 18 _
      have h2 : o.Keeps false b s2 := ite h1 (putAcc _ _ _ h1)
      exact ite (ite (h.failState r _) (ite (h.failState r _) (ih _ (h2.setRState _)))) h

theorem takeSpec (h : o.Keeps false b s) (r : RState) (m : Nat) (e : BitVec 48) (l : List (Option Int)) :
    o.Keeps false b (s.takeSpec r m e l) := by
  unfold State.takeSpec
  extract_lets spb r0 pos vals t0 keep rows r1 s1 fill new
  have h1 : o.Keeps false b s1 := ite (h.wl _ 16 _) h
  have hfill : ∀ u k, o.Keeps false b u → o.Keeps false b (fill u k) := by
    intro u k hu
    unfold fill
    split
    · exact hu
    · exact hu.wl r0 _ _
  exact ite (specFrames _ _ (h1.setRState r1)) (ite (h1.failState r1 _) (specFrames _ _ (setRState (foldl (h1.putRow r0 t0 new) _ _ hfill) r1)))

theorem putY (h : o.Keeps false b s) (r : RState) (l : Nat) (y : Int) : o.Keeps false b (s.putY r l y) := (h.wl r l _).wl r (l + 1) _

theorem srsStep (h : o.Keeps false b s) (r : RState) (x x1 x2 : Int) (first : Bool) (i : Nat) :
    o.Keeps false b (s.srsStep r x x1 x2 first i).1 := (((h.putY r _ _).putY r _ _).wl r _ _).wl r _ _

theorem takeSrs (h : o.Keeps false b s) (r : RState) (l : List (Option Int)) : o.Keeps false b (s.takeSrs r l) := by
  unfold State.takeSrs
  refine setRState (foldlFst h _ _ fun u x hu => wl (wl ?_ r 5 _) r 6 _) _
  exact foldlFst (p := (u.1, u.2.1)) hu _ _ fun v i hv => hv.srsStep r _ _ _ _ i

theorem takeDecim (h : o.Keeps false b s) (r : RState) (l : List (Option Int)) : o.Keeps false b (s.takeDecim r l) := by
  unfold State.takeDecim
  extract_lets osh
  refine ite (h.failState r _) (setRState (foldlFst h _ _ fun u v hu => ?_) _)
  dsimp only
  split
  · exact hu
  · have h2 : ∀ x y z, o.Keeps false b (((u.1.setLong x y).wl r 8 y).wl r 7 z) := fun x y z => ((hu.setLong x y).wl r 8 y).wl r 7 z
    split
    · exact (h2 _ _ _).failState _ _
    · split
      · exact h2 _ _ _
      · exact h2 _ _ _

theorem redState (h : o.Keeps false b s) (it : RedItem) (l : List (Option Int)) (r : RState) : o.Keeps false b (s.redState it l r) := by
  unfold State.redState
  split
  · exact h
  · next q _ =>
    refine ite h (ite (h.failState q _) ?_)
    extract_lets v g r1 s1
    have h1 : o.Keeps false b s1 := (h.wl q 3 _).setRState r1
    refine ite h1 (ite (h1.takeStats r1 v) (ite (h1.takeFlow r1 v) (ite (h1.takePkvl r1 _) (ite (h1.takeSpec r1 0 _ l)
      (ite ?_ (ite (h1.takeSrs r1 l) (h1.takeDecim r1 l)))))))
    split
    · exact ite h1 (ite (h1.failState _ _) (h1.takeSpec _ _ _ _))
    · exact h1

theorem redItem (h : o.Keeps false b s) (it : RedItem) : o.Keeps false b (s.redItem it) := h.foldl _ _ fun _ r hu => hu.redState it _ r

theorem intakeDrop (h : o.Keeps false b s) (c : Nat) (it : RedItem) : o.Keeps false b (s.intakeDrop c it) :=
  ((h.foldl _ _ fun _ r hu => (hu.wl r 3 _).setRState _).setReReg c _ _).setReErr c 2

theorem intake (h : o.Keeps false b s) (c : Nat) (it : RedItem) : o.Keeps false b (s.intake c it) := by
  unfold State.intake
  extract_lets put drop
  have hput : ∀ u, o.Keeps false b u → o.Keeps false b (put u) := fun u hu => hu.setEng c _
  refine ite (hput _ h) (ite (h.freeNext.intakeDrop c it) ?_)
  split
  · exact ite (hput _ h.freeNext) (hput _ ((h.freeNext.setEng c _).redItem _))
  · exact hput _ h.freeNext

theorem redHand (h : o.Keeps false b s) (i : Nat) (e n : BitVec 48) : o.Keeps false b (s.redHand i e n) := by
  unfold State.redHand
  refine ite ?_ h
  split
  · exact h
  · exact ite h (h.intake _ _)

theorem putRecord (x spb : Nat) (l : List Long) : ∀ (i : Nat) {s : State}, o.Keeps false b s →
    o.Keeps false b (State.putRecord x spb i l s) := by
  induction l with
  | nil => exact fun _ _ h => h
  | cons v l ih =>
    intro i s h
    have h1 : o.Keeps false b (if 2 * i < spb then s.setGrain (x + 2 + 2 * i) (v.setWidth 20) else s) := ite (h.setGrain _ _) h
    exact ih (i + 1) (ite (h1.setGrain _ _) h1)

theorem postNote (h : o.Keeps false b s) (c : Nat) (r : RState) (err : Bool) (e : BitVec 48) (gseq : Nat) :
    o.Keeps false b (s.postNote c r err e gseq) := by
  unfold State.postNote
  extract_lets q ok m s1 x s2
  have h2 : o.Keeps false b s2 := setEng (ite (h.enqueue q m) h) c _
  exact ite h (ite h2 (h2.setReErr c 4))

theorem writeRecord (h : o.Keeps false b s) (r : RState) (e : BitVec 48) (whole : Bool) (l : List Long) :
    o.Keeps false b (s.writeRecord r e whole l) :=
  ite (redRecord (windowSlot (sendBlock (setLong (ite h (putRecord _ _ _ _ h)) _ _) _ _ _) _ _ _ _) _ _ _) h

theorem putSpec (h : o.Keeps false b s) (r : RState) (gseq k kg : Nat) : o.Keeps false b (s.putSpec r gseq k kg) :=
  h.foldl _ _ fun _ _ hu => hu.setLong _ _

theorem putGroup (h : o.Keeps false b s) (r : RState) (e : BitVec 48) (gseq : Nat) (part ovf : Bool) (l : List Long) :
    o.Keeps false b (s.putGroup r e gseq part ovf l) := by
  have h1 := h.writeRecord r e false
  exact postNote (ite ((h1 _).setReErr _ 0) (h1 _)) _ _ _ _ _

theorem failClose (h : o.Keeps false b s) (r : RState) (p : Nat × Nat) (e : BitVec 48) (quiet : Bool) :
    o.Keeps false b (s.failClose r p e quiet) := ite (h.failState r p) ((h.failState r p).writeRecord r e true [])

theorem writeSpec (h : o.Keeps false b s) (x : SpecClose) : o.Keeps false b (s.writeSpec x) := by
  unfold State.writeSpec
  extract_lets k out
  split
  · exact h
  · exact ite (h.writeRecord _ _ _ _) (ite (h.failClose _ _ _ _) (ite (h.failClose _ _ _ _) (putGroup (ite h (h.putSpec _ _ _ _)) _ _ _ _ _ _)))

theorem redDone (h : o.Keeps false b s) (c : Nat) (e : BitVec 48) : o.Keeps false b (s.redDone c e) := ite h (h.cicEdge c 64)

theorem specNext (h : o.Keeps false b s) (c : Nat) : o.Keeps false b (s.specNext c) := by
  unfold State.specNext
  refine ite h ?_
  split
  · exact h
  · exact ((h.setEng c _).writeSpec _).redDone c _

theorem specDueGo (c : Nat) (n : BitVec 48) (k m : Nat) : ∀ {s : State}, o.Keeps false b s → o.Keeps false b (State.specDueGo c n k m s) := by
  induction m with
  | zero => exact fun h => h
  | succ m ih =>
    intro s h
    unfold State.specDueGo
    split
    · exact h
    · exact ite (ih (h.specNext c)) h

theorem specDue (h : o.Keeps false b s) (n : BitVec 48) : o.Keeps false b (s.specDue n) :=
  h.foldl _ _ fun u c hu => by
    refine ite hu ?_
    split
    · exact specDueGo c n _ _ hu
    · exact hu

/-! ### The last beat's input and its tokens -/

theorem noticeTo (h : o.Keeps false b s) (c : Nat) (tag : BitVec 36) (e : BitVec 48) : o.Keeps false b (s.noticeTo c tag e) :=
  h.foldl _ _ fun _ _ hu => hu.onCore _ _

theorem writeSlot (h : o.Keeps false b s) (c : CtxCfg) (e : BitVec 48) (l : List Long) (hdr : Long) : o.Keeps false b (s.writeSlot c e l hdr) :=
  ((putElems _ _ _ _ h).setLong _ _).spoil _ _

theorem noteIn (h : o.Keeps a b s) (c : CtxCfg) (gaps : Nat) (deadline : Bool) : o.Keeps a b (s.noteIn c gaps deadline) := h.setClu _ _

theorem inFinal (h : o.Keeps false b s) (i : Nat) (e : BitVec 48) (l : List (Option Grain)) (deadline : Bool) :
    o.Keeps false b (s.inFinal i e l deadline) :=
  ite ((h.onStr _).countGaps i _ e true)
    (((((((((h.onStr _).countGaps i _ e _).countClip i _).writeSlot _ e _ _).noteIn _ _ _).sendBlock i e _).redHand i e _).gatherSlot i e _ _))

theorem portDeadline (h : o.Keeps false b s) (p : Nat) : o.Keeps false b (s.portDeadline p) := by
  have h1 := (h.inc (R.SP_LATE_V p)).set1 (R.SP_EVT_LATE p)
  exact ite h (onPort (foldl (ite h1 h) _ _ fun u i hu => ite hu (hu.inFinal i _ _ true)) p _)

theorem postReady (h : o.Keeps false b s) (c : Nat) : o.Keeps false b (s.postReady c) := by
  unfold State.postReady
  extract_lets q ok s1 x s2
  have h2 : o.Keeps false b s2 := setClu (ite (h.enqueue q _) h) c _
  exact ite h (ite (h2.noticeTo c _ _) h2)

theorem endBeat (h : o.Keeps false b s) : o.Keeps false b s.endBeat :=
  foldl (h.foldl _ _ fun _ p hu => hu.portDeadline p) _ _ fun _ c hu => hu.postReady c

theorem tokenMiss (h : o.Keeps a b s) (p : Nat) : o.Keeps a b (s.tokenMiss p) :=
  ite (((h.onFp p _).countDrop R.TOKEN_MISS_V R.PACK_EVT_TOKEN_MISS).witness _ _) h

theorem tokensEnd (h : o.Keeps a b s) : o.Keeps a b s.tokensEnd := h.foldl _ _ fun _ p hu => hu.tokenMiss p

end State.Keeps

end Sys2Proof.Machine

/-! SUPPORT. What the work of an edge leaves alone (R18, R26), first part: reductions closed, disciplines, links, elections and the
kennel do not move the grid of the beat. -/

namespace Sys2Proof.Machine

open Sys2Proof

-- One proof after another, as in the tests: theorems checked side by side need more threads than the check's memory limit allows.
set_option Elab.async false

namespace State.Keeps

variable {a b : Bool} {o s t : State}

theorem unpark (h : o.Keeps false false s) (c : Nat) : o.Keeps false false (s.unpark c) := h.foldl _ _ fun _ _ hu => ite ((hu.wr _ _).setCic c _) hu

/-! ### Groups of reductions closed (R302) -/

theorem halfPairs (r : RState) : ∀ (l : List Int) (p : State × Flow), o.Keeps false b p.1 → o.Keeps false b (State.halfPairs r l p).1
  | x :: y :: l, (_, f), h => halfPairs r (y :: l) _ (h.countCycle r f x y false)
  | [_], _, h => h
  | [], _, h => h

theorem closeResidue (h : o.Keeps false b s) (r : RState) : o.Keeps false b (s.closeResidue r) := by
  unfold State.closeResidue
  exact storeFlow (halfPairs r _ _ h) r _

theorem applyClear (h : o.Keeps false b s) (r : RState) : o.Keeps false b (s.applyClear r) := by
  unfold State.applyClear
  extract_lets n s1 f
  have h1 : o.Keeps false b s1 := ite (h.foldl _ _ fun _ _ hu => hu.setLong _ _) h
  exact ite (h.failState r _) (ite (h1.storeFlow r _) h1)

theorem freeBody (h : o.Keeps a b s) (n : Nat) : o.Keeps a b (State.freeBody n s).st :=
  List.foldlRecOn (motive := fun c : Closed => o.Keeps a b c.st) (List.range n) _ h fun _ hc _ _ => hc.freeNext

theorem closeStats (h : o.Keeps false b s) (r : RState) : o.Keeps false b (s.closeStats r).st := h.storeStats r _

theorem closeFlow (h : o.Keeps false b s) (r : RState) (spb : Nat) : o.Keeps false b (s.closeFlow r spb).st :=
  ((h.foldl _ _ fun _ _ hu => hu.setGrain _ 0).wl r 16 0).wl r 17 0

theorem closeSrs (h : o.Keeps a b s) (r : RState) : o.Keeps a b (s.closeSrs r).st := by
  unfold State.closeSrs
  extract_lets n head c
  split
  · exact h
  · exact h.freeBody _

theorem closeDecim (h : o.Keeps a b s) (r : RState) (spb : Nat) : o.Keeps a b (s.closeDecim r spb).st :=
  List.foldlRecOn (motive := fun x : List Grain × State => o.Keeps a b x.2) (List.range _) _ h fun _ hu _ _ => hu.freeNext

/-- What a close of a group by its kind gives. -/
theorem closed (h : o.Keeps false b s) (r : RState) (n spb m : Nat) : o.Keeps false b (if r.spoiled then State.freeBody n s
    else if r.kind = kStats then s.closeStats r
    else if r.kind = kRflow then s.closeFlow r spb
    else if r.kind = kPkvl then s.closePkvl r spb
    else if r.kind = kSrs then s.closeSrs r
    else s.closeDecim r m).st := by
  repeat' split
  · exact h.freeBody n
  · exact h.closeStats r
  · exact h.closeFlow r spb
  · exact h
  · exact h.closeSrs r
  · exact h.closeDecim r m

theorem closeGroup (h : o.Keeps false b s) (r : RState) (e : BitVec 48) (part quiet : Bool) : o.Keeps false b (s.closeGroup r e part quiet) := by
  unfold State.closeGroup
  extract_lets c s0 r0 gseq s1 spb kg x s2 y cl r1 s3 s4
  have h0 : o.Keeps false b s0 := ite (h.closeResidue r) h
  refine ite (ite h0 (h0.writeRecord _ _ _ _)) ?_
  split
  · exact h0.failClose _ _ _ _
  · have h1 : o.Keeps false b s1 := h0.wl r0 2 _
    have h2 : o.Keeps false b s2 := (h1.wl r0 17 0).setRState _
    have hcl : o.Keeps false b cl.st := h1.closed r0 _ _ _
    have h3 : o.Keeps false b s3 := ite (hcl.postNote c r0 true e gseq) (hcl.putGroup r0 e gseq _ _ _)
    exact ite (h1.setRState _) (ite (ite (h2.postNote c r0 true e gseq) (h2.setEng c _)) ((h3.applyClear r1).setRState _))

theorem drainIntake (c : Nat) (n : BitVec 48) (k : Nat) : ∀ {s : State}, o.Keeps false b s → o.Keeps false b (State.drainIntake c n k s) := by
  induction k with
  | zero => exact fun h => h
  | succ k ih =>
    intro s h
    unfold State.drainIntake
    split
    · exact h
    · exact ih ((h.setEng c _).redItem _)

theorem flushSpec (h : o.Keeps false b s) (c src slot : Nat) : o.Keeps false b (s.flushSpec c src slot) :=
  foldl (h.setEng c _) _ _ fun _ x hu => hu.writeSpec x

theorem closeCluster (h : o.Keeps false b s) (c : Nat) (n : BitVec 48) : o.Keeps false b (s.closeCluster c n) := by
  unfold State.closeCluster
  extract_lets s1 due s2 wrote x s3
  have h1 : o.Keeps false b s1 := drainIntake c n _ h
  have h2 : o.Keeps false b s2 := h1.foldl _ _ fun u r hu => by
    split
    · exact hu.closeGroup _ _ _ _
    · exact hu
  have h3 : o.Keeps false b s3 := h2.setEng c _
  exact ite h (ite h1 (ite (h3.redDone c _) h3))

theorem redClose (h : o.Keeps false b s) (n : BitVec 48) : o.Keeps false b (s.redClose n) := h.foldl _ _ fun _ c hu => hu.closeCluster c n

theorem redBusy (h : o.Keeps a b s) (p : Nat) : o.Keeps a b (s.redBusy p) :=
  h.foldl _ _ fun _ c hu => ite hu (ite (hu.setReReg c _ _).freeNext (hu.setReReg c _ _))

/-! ### Whistles and disciplines -/

theorem latchEdge (h : o.Keeps a b s) (n : BitVec 48) (e : Int) : o.Keeps a b (s.latchEdge n e) := (h.onWh _).latchDue _ _ _ _

theorem emitDisc (h : o.Keeps false false s) (d : DiscRec) : o.Keeps false false (s.emitDisc d) := (h.offerRec _).set1 _

theorem disc (h : o.Keeps false false s) (cause : Nat) (before after step unc : Int) :
    o.Keeps false false (s.disc cause before after step unc) := h.emitDisc _

theorem setLock (h : o.Keeps false false s) (n : Nat) : o.Keeps false false (s.setLock n) := by
  unfold State.setLock
  extract_lets old s1 s2
  have h1 : o.Keeps false false s1 := (h.wr _ _).set1 _
  have h2 : o.Keeps false false s2 := ite (h1.disc _ _ _ _ _) h1
  exact ite h (ite (((h2.onBeat _).set1 _).whFault 3) h2)

theorem servoStart (h : o.Keeps false false s) : o.Keeps false false s.servoStart := ite (((h.onBeat _).wr _ _).setLock _) (h.wr _ _)

theorem ppsExpire (h : o.Keeps false false s) : o.Keeps false false s.ppsExpire := by
  unfold State.ppsExpire
  split
  · exact ite ((h.onBeat _).complete _ _ _) h
  · exact h

theorem servoResume (h : o.Keeps false false s) : o.Keeps false false s.servoResume := by
  unfold State.servoResume
  split
  · exact h
  · extract_lets fin
    have hfin : ∀ u, o.Keeps false false u → o.Keeps false false (fin u) := fun u hu => (hu.onBeat _).wr _ _
    exact ite (hfin _ ((h.hostEventDue _ _ _ _).set1 _)) (ite (hfin _ (h.emitDisc _)) h)

theorem takePeriod (h : o.Keeps false false s) (p q : Nat) : o.Keeps false false (s.takePeriod p q) := by
  have h1 := (h.wrW R.PERIOD_ACT_INT p).wrW R.PERIOD_ACT_FRAC q
  exact ite ((((h1.setWord _ _).setWord _ _).setForce _ _).setForce _ _) h1

theorem capture (h : o.Keeps false false s) (e : Int) (n : BitVec 48) : o.Keeps false false (s.capture e n) :=
  (((((h.wrW _ _).wrW _ _).wrW _ _).wrW _ _).wrW _ _).wr _ _

/-! ### Links, elections and records of the fabric -/

theorem dropHeld (h : o.Keeps a b s) (which : Nat → Bool) : o.Keeps a b (s.dropHeld which) :=
  foldl (h.onFab _) _ _ fun _ _ hu => hu.countDrop R.VL0_NOSCHED_V R.PACK_EVT_VL0_LOSS

theorem routeFrame (h : o.Keeps a b s) (f : Frame) : o.Keeps a b (s.routeFrame f) :=
  ite (h.countDrop R.DROP_TTL_V R.PACK_EVT_NOROUTE) (ite (h.sendOn _ _) (ite (h.sendOn _ _) (h.countDrop R.DROP_NOROUTE_V R.PACK_EVT_NOROUTE)))

theorem sendMsg (h : o.Keeps a b s) (p : Nat) (l : List Octet) : o.Keeps a b (s.sendMsg p l) := ite (h.sendOn p _) (h.emit _)

theorem flood (h : o.Keeps a b s) (r : Lsr) (but : Option Nat) : o.Keeps a b (s.flood r but) :=
  h.foldl _ _ fun _ p hu => ite (hu.sendMsg p _) hu

theorem issueRecord (h : o.Keeps a b s) : o.Keeps a b s.issueRecord := ((h.onFab _).onFab _).flood _ none

theorem fixAddr (h : o.Keeps false false s) : o.Keeps false false s.fixAddr := by
  have hset : ∀ x y, o.Keeps false false ((s.wr R.NODE_ADDR_ADDR x).wr R.PACK_STAT_ADDR_STATE y) := fun x y => (h.wr _ x).wr _ y
  exact ite (ite (hset _ _) (hset _ _)) (ite (hset _ _) (hset _ _))

theorem losesBeat (h : o.Keeps false false s) : o.Keeps false false s.losesBeat := ((h.onBeat _).onFab _).setLock _

theorem regainsBeat (h : o.Keeps false false s) : o.Keeps false false s.regainsBeat := ite ((h.onBeat _).setLock _) h

theorem setParent (h : o.Keeps false false s) (p : Option Nat) : o.Keeps false false (s.setParent p) := by
  have h1 := h.foldl (fun t q => t.wb (R.FP_STAT_PARENT q) (p == some q)) fabPorts fun _ _ hu => hu.wb _ _
  have h2 := (h1.wb R.PACK_STAT_PARENT_VALID p.isSome).wr R.PACK_STAT_PARENT (p.getD 0)
  exact ite h2 (h2.onFab _)

/-- Neither a beat nor a member's beat is started where one runs. -/
theorem setRole (h : o.Keeps false false s) (r : Nat) : o.Keeps false false (s.setRole r) := by
  unfold State.setRole
  extract_lets old s0 s1 s2 s3 s4
  have h0 : o.Keeps false false s0 := ite h (h.dropHeld _)
  have h1 : o.Keeps false false s1 := (h0.wr _ _).wr _ _
  have h2 : o.Keeps false false s2 := ite h1 (h1.wr _ _)
  have h3 : o.Keeps false false s3 := h2.setParent none
  have h4 : o.Keeps false false s4 := ite (ite h3 (h3.setLock _)) (ite h3.servoStart h3)
  rw [if_neg (c := s4.beat.startWait = true ∧ s4.beat.phase = .stopped) fun k => h4.moving k.2,
    if_neg (c := r = roleMember ∧ s2.beat.startWait = true ∧ s2.beat.phase = .stopped) fun k => h2.moving k.2.2]
  exact ite h (ite h4 h2)

theorem setMaster (h : o.Keeps false false s) (m : Option Lsr) : o.Keeps false false (s.setMaster m) := by
  unfold State.setMaster
  extract_lets ser x w s1 s2
  have hw : ∀ u, o.Keeps false false u → o.Keeps false false (w u) := fun u hu =>
    ((((hu.wr _ _).wr _ _).wr _ _).wrW _ _).wrW _ _
  have h2 : o.Keeps false false s2 := ((hw _ (h.onFab _)).inc _).hostEvent _ _ _
  refine ite (hw s h) ?_
  split
  · exact (h2.onFabAny _).regainsBeat
  · exact h2

theorem elect (h : o.Keeps false false s) : o.Keeps false false s.elect := ((h.onFab _).setMaster _).setRole _

theorem arrivals (h : o.Keeps a b s) : o.Keeps a b s.arrivals := h.foldl _ _ fun _ _ hu => ite hu ((hu.onFab _).hostEvent _ _ _)

theorem refreshOwn (h : o.Keeps a b s) : o.Keeps a b s.refreshOwn := ite h h.issueRecord

theorem packUpdate (h : o.Keeps false false s) : o.Keeps false false s.packUpdate := 
  (h.fixAddr.elect.arrivals.refreshOwn.wr _ _).wb _ _

theorem reroute (h : o.Keeps a b s) (p : Nat) : o.Keeps a b (s.reroute p) := by
  unfold State.reroute
  extract_lets fs mine s1
  have h1 : o.Keeps a b s1 := (h.onFp p _).onFab _
  refine h1.foldl _ _ fun u f hu => ite hu ?_
  split
  · exact hu.takeReport _
  · exact ite (hu.broadcast _ _) (hu.routeFrame _)

theorem parentGone (h : o.Keeps false false s) (p : Nat) : o.Keeps false false (s.parentGone p) :=
  ite (ite (h.setParent none).losesBeat (h.setParent none)) h

theorem fpLeave (h : o.Keeps false false s) (p n : Nat) : o.Keeps false false (s.fpLeave p n) := by
  unfold State.fpLeave
  extract_lets old x peer was s0 s1 s2 s3 s4 s5
  have h0 : o.Keeps false false s0 := (((h.wr _ _).wr _ _).wr _ _).wr _ _
  have h1 : o.Keeps false false s1 := ite h0 (((h0.wr _ _).wr _ _).wr _ _)
  have h2 : o.Keeps false false s2 := ite ((h1.set1 _).inc _) h1
  have h3 : o.Keeps false false s3 := ite ((h2.reroute p).witness 1 peer) h2
  have h5 : o.Keeps false false s5 := ((h3.setFport p _).parentGone p).packUpdate
  exact ite h5.issueRecord h5

theorem fpRefuse (h : o.Keeps false false s) (p reason : Nat) : o.Keeps false false (s.fpRefuse p reason) :=
  (((h.fpLeave p fpRefused).wr _ _).set1 _).selfFault _ _ _

theorem authStart (h : o.Keeps false false s) (p : Nat) : o.Keeps false false (s.authStart p) := ite (h.fpRefuse p 1) ((h.onFp p _).emit _)

theorem fpEnable (h : o.Keeps false false s) (p : Nat) (en : Bool) : o.Keeps false false (s.fpEnable p en) := by
  have h1 : o.Keeps false false (s.wb (R.FP_CTRL_EN p) en) := h.wb _ _
  exact ite (ite ((h1.setFport p _).wr _ _) h1) (ite h1 (h1.fpLeave p fpOff))

theorem rekey (h : o.Keeps false false s) (p : Nat) : o.Keeps false false (s.rekey p) := ite ((h.onFp p _).authStart p) h

theorem packSettle (h : o.Keeps false false s) : o.Keeps false false s.packSettle := by
  unfold State.packSettle
  extract_lets s1
  have h1 : o.Keeps false false s1 := ite h.packUpdate h
  split
  · exact h1.rekey _
  · exact h1

theorem dropLinkKeys (h : o.Keeps false false s) : o.Keeps false false s.dropLinkKeys :=
  h.foldl _ _ fun _ p hu => ite ((hu.fpRefuse p 1).onFp p _) (ite (hu.fpLeave p fpTraining) hu)

theorem startVl0 (h : o.Keeps a b s) (p : Nat) (f : Frame) : o.Keeps a b (s.startVl0 p f) := by
  unfold State.startVl0
  extract_lets g n s1 x s2
  have h2 : o.Keeps a b s2 := (((h.onFp p _).frameOut p g).emit _).inc (R.TX_VL0_V p)
  exact ite h2 ((h2.inc (R.VL0_STOMP_V p)).set1 R.PACK_EVT_VL0_LOSS)

theorem sendToken (h : o.Keeps a b s) (p : Nat) (last : Bool) : o.Keeps a b (s.sendToken p last) := ite (h.startVl0 p _) h

theorem fabEdge (h : o.Keeps false false s) : o.Keeps false false s.fabEdge :=
  foldl (onFab (h.foldl _ _ fun _ p hu => ((hu.wr _ _).toggle _).onFp p _) _) _ _ fun _ p hu => hu.sendToken p true

/-! ### Channels and the kennel -/

theorem countSessions (h : o.Keeps false false s) : o.Keeps false false s.countSessions :=
  ite (h.wr _ _) (((h.wr _ _).wr _ _).set1 _)

theorem closeSession (h : o.Keeps false false s) (ch : Nat) : o.Keeps false false (s.closeSession ch) :=
  ite h (countSessions (h.setChan ch _))

theorem knShow (h : o.Keeps false false s) : o.Keeps false false s.knShow := ((h.wr _ _).wr _ _).wrW _ _

theorem setKnState (h : o.Keeps false false s) (n : Nat) : o.Keeps false false (s.setKnState n) := ite h (((h.wr _ _).set1 _).knShow.hostEvent _ _ _)

theorem abandonSeal (h : o.Keeps false false s) : o.Keeps false false s.abandonSeal := by
  unfold State.abandonSeal
  split
  · exact ite (ite (h.onJrn _) (((h.onJrn _).wr _ _).set1 _)) h
  · exact h

theorem volatileZero (h : o.Keeps false false s) : o.Keeps false false s.volatileZero :=
  ((onKn (h.foldl _ _ fun _ ch hu => hu.closeSession ch) _).dropLinkKeys).abandonSeal

theorem endTests (h : o.Keeps a b s) (cause : Nat) : o.Keeps a b (s.endTests cause) := foldl (h.onKn _) _ _ fun _ _ hu => hu.complete _ _ _

theorem zeroEnd (h : o.Keeps false false s) : o.Keeps false false s.zeroEnd := by
  unfold State.zeroEnd
  extract_lets s1
  have h1 : o.Keeps false false s1 := (h.onKn _).wr _ _
  split
  · exact h1.complete _ _ _
  · exact h1

theorem zeroStart (h : o.Keeps false false s) : o.Keeps false false s.zeroStart := by
  have h1 : o.Keeps false false (s.volatileZero.wr R.KN_STAT_ZBUSY 1) := h.volatileZero.wr _ _
  exact ite h1.zeroEnd (h1.onKn _)

theorem kennelOn (h : o.Keeps false false s) : o.Keeps false false s.kennelOn := by
  have h2 := (((h.wr (R.PD_STAT_PEND domKennel) 0).wr (R.PD_STAT_PEND_STATE domKennel) 0).wr (R.PD_STAT_WAIT domKennel) 0).onPwr
    fun z => { z with slot := mset (fun _ => none) z.slot domKennel none }
  exact ite h2 (((h2.wr _ _).wr _ _).onPwr _)

theorem burnSlot (h : o.Keeps false false s) : o.Keeps false false s.burnSlot := ((h.onKn _).wr _ _).wr _ _

theorem finishCut (h : o.Keeps false false s) : o.Keeps false false s.finishCut := ite (h.burnSlot.set1 _).zeroEnd h

theorem kennelStart (h : o.Keeps false false s) : o.Keeps false false s.kennelStart := by
  unfold State.kennelStart
  extract_lets s2 s3
  have h3 : o.Keeps false false s3 := ((((h.finishCut.volatileZero.setCore _ _).wr _ _).wr _ _).wr _ _).setKnState _
  exact ite h3.zeroStart h3

theorem kennelStop (h : o.Keeps false false s) : o.Keeps false false s.kennelStop := ((h.volatileZero.wr _ _).setKnState knOff).endTests 0

theorem kennelLock (h : o.Keeps false false s) : o.Keeps false false s.kennelLock :=
  (((((h.volatileZero.onKn _).wr _ _).wr _ _).set1 _).setKnState knLocked |>.selfFault _ _ _).endTests 8

theorem haltDone (h : o.Keeps a b s) : o.Keeps a b s.haltDone := h.foldl _ _ fun _ _ hu => ite ((hu.onWh _).complete _ _ _) hu

theorem halt (h : o.Keeps false false s) (i reason : Nat) (rec : Option (Long × Long)) : o.Keeps false false (s.halt i reason rec) := by
  unfold State.halt
  extract_lets c0 c s1
  have h1 : o.Keeps false false s1 := h.setCore i _
  exact ite (((h1.onCore _ _).wr _ _).emit _) (ite (kennelLock (h1.onCore _ _)) ((((h1.setCore i _).cicEdge _ 67).whFault 1).haltDone))

end State.Keeps

end Sys2Proof.Machine

/-! SUPPORT. What the work of an edge leaves alone (R18, R26), second part: sensor ports, streams, resets, power and commits do not
move the grid of the beat. -/

namespace Sys2Proof.Machine

open Sys2Proof

-- One proof after another, as in the tests: theorems checked side by side need more threads than the check's memory limit allows.
set_option Elab.async false

namespace State.Keeps

variable {a b : Bool} {o s t : State}

/-! ### Sensor ports -/

theorem mgmtSend (h : o.Keeps a b s) (p kind : Nat) (l : List Octet) : o.Keeps a b (s.mgmtSend p kind l) := by
  have h1 := (h.onPort p fun x => { x with nextTag := ((s.port p).nextTag + 1) % 256 }).emit (.sample p (spMgmt (s.port p).nextTag kind l))
  exact ite (h1.emit _) (h1.onPort p _)

theorem sendPlan (h : o.Keeps false false s) (p pq : Nat) (target : Option (BitVec 48)) (l : List PlanChan) (byCommit : Bool) :
    o.Keeps false false (s.sendPlan p pq target l byCommit) := (((h.onPort p _).wr _ _).wr _ _).mgmtSend p _ _

theorem arrivalPlan (h : o.Keeps false false s) (p : Nat) : o.Keeps false false (s.arrivalPlan p) := h.sendPlan p _ _ _ _

theorem dropPlan (h : o.Keeps false false s) (p : Nat) : o.Keeps false false (s.dropPlan p) := ((h.onPort p _).wr _ _).wr _ _

theorem sensorId (h : o.Keeps a b s) (p ev : Nat) (m : SensorMsg) (known : Bool) : o.Keeps a b (s.sensorId p ev m known) :=
  (h.foldl _ _ fun _ i hu => (hu.setCtxL i 7 _).freeNext).offerRec _

theorem forgetSensors (h : o.Keeps a b s) (p : Nat) : o.Keeps a b (s.forgetSensors p) := by
  unfold State.forgetSensors
  exact (h.foldl _ _ fun _ _ hu => hu.sensorId p 6 _ false).onPort p _

theorem spTrain (h : o.Keeps false false s) (p : Nat) : o.Keeps false false (s.spTrain p) := by
  unfold State.spTrain
  exact (h.wr _ _).onPort p _

theorem arrivalEvent (h : o.Keeps a b s) (p code : Nat) : o.Keeps a b (s.arrivalEvent p code) := by
  unfold State.arrivalEvent
  split
  · exact h
  · exact h.hostEvent _ _ _

theorem spClear (h : o.Keeps false false s) (p : Nat) : o.Keeps false false (s.spClear p) := by
  have h0 : o.Keeps false false (s.bindLost p) := ite ((h.arrivalEvent p 0xFF).onPort p _) h
  exact (h0.onPort p _).foldl _ _ fun _ _ hu => hu.wr _ _

theorem spLeave (h : o.Keeps false false s) (p : Nat) (train : Bool) : o.Keeps false false (s.spLeave p train) := by
  unfold State.spLeave
  extract_lets st s1 s2 s3 s4
  have h1 : o.Keeps false false s1 := ite (h.forgetSensors p) h
  have h2 : o.Keeps false false s2 := ite (h1.inc _) h1
  have h3 : o.Keeps false false s3 := ite (((h2.set1 _).hostEvent _ _ _).whFault 4) h2
  exact ite ((h3.spClear p).spTrain p) ((h3.spClear p).wr _ _)

theorem becomeActive (h : o.Keeps false false s) (p : Nat) : o.Keeps false false (s.becomeActive p) := by
  unfold State.becomeActive
  exact (((h.wr _ _).wr _ _).wb _ _).onPort p _

theorem arrive (h : o.Keeps a b s) (p : Nat) : o.Keeps a b (s.arrive p) := ite (h.onPort p _) (h.arrivalEvent p 0)

theorem periodRefuse (h : o.Keeps false false s) (code : Nat) : o.Keeps false false (s.periodRefuse code) := by
  unfold State.periodRefuse
  split
  · extract_lets s1
    have h1 : o.Keeps false false s1 := (h.onFabAny _).set1 _
    refine ite h ?_
    split
    · exact h1.sendTo _ _ _
    · exact h1
  · exact h

theorem spGroupOff (h : o.Keeps false false s) (g : Nat) : o.Keeps false false (s.spGroupOff g) :=
  h.foldl _ _ fun _ p hu => ((hu.spLeave p false).onPort p _).foldl _ _ fun _ _ hv => hv.setWord _ _

theorem spGroupOn (h : o.Keeps false false s) (g : Nat) : o.Keeps false false (s.spGroupOn g) :=
  h.foldl _ _ fun _ p hu => ite (hu.spTrain p) hu

theorem writeHeader (h : o.Keeps false b s) (c : CtxCfg) (e : BitVec 48) (hdr : Long) : o.Keeps false b (s.writeHeader c e hdr) :=
  (h.setLong _ _).spoil _ 2

theorem passIn (h : o.Keeps false b s) (p : Nat) (e : BitVec 48) : o.Keeps false b (s.passIn p e) :=
  h.foldl _ _ fun _ i hu => ite hu (hu.inFinal i e _ false)

theorem badBlock (h : o.Keeps false false s) (p : Nat) : o.Keeps false false (s.badBlock p) := (h.inc _).set1 _

theorem lateData (h : o.Keeps a b s) (p n : Nat) (l : List (Option Grain)) : o.Keeps a b (s.lateData p n l) := by
  unfold State.lateData
  split
  · exact h
  · exact h.foldl _ _ fun _ i hu => hu.countOvr i

theorem takeBlock (h : o.Keeps false false s) (p : Nat) (k : InBlock) : o.Keeps false false (s.takeBlock p k) := by
  have hb := h.badBlock p
  unfold State.takeBlock
  extract_lets x
  refine ite h ?_
  split
  · exact ite h hb
  · extract_lets m n l s2
    have h2 : o.Keeps false false s2 := h.onPort p _
    exact ite (h.lateData p _ l) (ite (hb.lateData p 0 l) (ite (hb.onPort p _) (ite (h2.passIn p _) h2)))

/-! ### Streams of the edge -/

theorem setGuard (h : o.Keeps a b s) (i : Nat) (g : Guard) : o.Keeps a b (s.setGuard i g) := (h.setCtxL i 13 _).setCtxL i 14 _

theorem outBlock (h : o.Keeps false b s) (i : Nat) (e : BitVec 48) : o.Keeps false b (s.outBlock i e).1 := by
  unfold State.outBlock
  extract_lets c r14 s0 g elems
  have h0 : o.Keeps false b s0 := ite (h.scan _ _) h
  split
  extract_lets hdr s1
  have h1 : o.Keeps false b s1 := ite ((h0.writeHeader c e hdr).gatherSlot i e hdr _) h0
  split
  · exact h1.setGuard i _
  · split
    next heq =>
    refine setGuard ?_ i _
    split at heq
    · injection heq with hs
      exact hs ▸ (((h1.countClip i _).countGaps i _ e _).onStr _)
    · injection heq with hs
      exact hs ▸ ((h1.countGaps i 0 e true).onStr _)

theorem outBlocks (e : BitVec 48) (l : List Nat) : ∀ p : State × List (Nat × List Int), o.Keeps false b p.1 →
    o.Keeps false b (State.outBlocks e l p).1 := by
  induction l with
  | nil => exact fun _ h => h
  | cons i r ih => exact fun _ h => ih _ (h.outBlock i e)

theorem driveEdge (h : o.Keeps false b s) (e : BitVec 48) : o.Keeps false b (s.driveEdge e).1 := outBlocks e _ _ h

theorem derEdge (h : o.Keeps false b s) (i : Nat) (e : BitVec 48) : o.Keeps false b (s.derEdge i e) := by
  unfold State.derEdge
  extract_lets c took l gaps hdr s1
  have h1 : o.Keeps false b s1 := (writeHeader (ite (h.scan _ _) h) c e hdr).countGaps i gaps e _
  exact ite h (((h1.sendBlock i e _).redHand i e _).gatherSlot i e hdr l)

theorem remEdge (h : o.Keeps false b s) (i : Nat) (n : BitVec 48) : o.Keeps false b (s.remEdge i n) := by
  unfold State.remEdge
  extract_lets c e blk s0 was whole miss s1 l gaps hdr s2 s3
  have h0 : o.Keeps false b s0 := h.setRemBlocks i _
  have h1 : o.Keeps false b s1 := h0.foldl _ _ fun _ j hu => hu.putElem c _ j _
  have h2 : o.Keeps false b s2 := ((h1.setLong _ hdr).spoil _ _).countGaps i gaps e _
  have h3 : o.Keeps false b s3 := ite (h2.witness _ _) h2
  exact ite h0 ((h3.redHand i e n).gatherSlot i e hdr l)

theorem slotEdge (h : o.Keeps false b s) (n : BitVec 48) : o.Keeps false b (s.slotEdge n) :=
  (h.foldl _ _ fun _ i hu => hu.derEdge i (n - 1)).foldl _ _ fun _ i hu => hu.remEdge i n

theorem timEdge (h : o.Keeps false b s) (n : BitVec 48) (e : Int) : o.Keeps false b (s.timEdge n e) :=
  h.foldl _ _ fun _ i hu => ite (((hu.writeSlot _ n _ _).sendBlock i n _).windowSlot i n _ _) hu

theorem openReady (h : o.Keeps a b s) : o.Keeps a b s.openReady := h.foldl _ _ fun _ c hu => ite (hu.setClu c _) hu

theorem newBeat (h : o.Keeps a b s) : o.Keeps a b s.newBeat :=
  ((h.onStr _).foldl _ _ fun _ c hu => ite (hu.setClu c _) hu).foldl _ _ fun _ p hu => hu.onPort p _

theorem windowsEnd (h : o.Keeps a b s) (n : BitVec 48) : o.Keeps a b (s.windowsEnd n) :=
  ite ((h.onJrn _).set1 R.J_EVT_EW_DONE).windowStat (h.onJrn _)

theorem windowPast (h : o.Keeps a b s) (w : Window) (n : BitVec 48) (i : Nat) : o.Keeps a b (s.windowPast w n i) :=
  h.foldl _ _ fun _ _ hu => ite hu (ite ((hu.scan _ _).windowOne _ _ _ _ _) (ite hu
    (((hu.inc R.EW_LOST_V).set1 R.J_EVT_DROP).windowOne _ _ _ _ _)))

theorem windowsOpen (h : o.Keeps a b s) (n : BitVec 48) : o.Keeps a b (s.windowsOpen n) :=
  (h.windowsEnd n).foldl _ _ fun _ w hu => hu.foldl _ _ fun _ i hv => hv.windowPast w n i

/-! ### What a loss of power resets -/

theorem wordsReset (h : o.Keeps false false s) (lo hi : Nat) : o.Keeps false false (s.wordsReset lo hi) := h.rides rfl le_rfl

theorem dropMem (h : o.Keeps false b s) (lo hi : Nat) : o.Keeps false b (s.dropMem lo hi) := h.stored

theorem setMem (h : o.Keeps false b s) (m : SMap Grain) : o.Keeps false b { s with mem := m } := h.stored

theorem peerReset (h : o.Keeps a b s) (l : List Nat) : o.Keeps a b (s.peerReset l) := h.foldl _ _ fun _ _ hu => hu.same

theorem dropReads (h : o.Keeps a b s) (p : Nat) : o.Keeps a b (s.dropReads p) := h.foldl _ _ fun _ _ hu => by
  split
  · exact hu.complete _ _ _
  · exact hu

theorem dropWaits (h : o.Keeps a b s) : o.Keeps a b s.dropWaits := (h.onJrn _).foldl _ _ fun _ _ hu => hu.complete _ _ _

theorem jrnReset (h : o.Keeps false false s) : o.Keeps false false s.jrnReset := by
  unfold State.jrnReset
  extract_lets s2 s3
  have h3 : o.Keeps false false s3 := (h.foldl _ _ fun _ p hu => hu.dropReads p).dropWaits.wordsReset 0x7000 0x7200
  exact h3.onJrn _

theorem chanReset (h : o.Keeps false false s) (ch : Nat) (lost : Bool) : o.Keeps false false (s.chanReset ch lost) := by
  unfold State.chanReset
  extract_lets c busy
  exact (ite (((h.setChan ch _).onHost _ |>.wr _ _).wr _ _) (h.setChan ch _)).countSessions

theorem hostReset (h : o.Keeps false false s) : o.Keeps false false s.hostReset :=
  (((((((h.foldl _ _ fun _ ch hu => hu.chanReset ch false).wordsReset _ _).wordsReset _ _).wordsReset _ _).wordsReset _ _).onDev _).onHost
    _).peerReset [29]

theorem forgetWaits (h : o.Keeps false false s) : o.Keeps false false s.forgetWaits := by
  unfold State.forgetWaits
  exact ((((h.onPwr _).onWh _).onJrn _).onKn _).onBeat _

theorem coreReset (h : o.Keeps false b s) (i : Nat) (r : RunState) : o.Keeps false b (s.coreReset i r) :=
  ite ((h.setCore i _).setCic _ _) (h.setCore i _)

theorem stewardReset (h : o.Keeps false false s) : o.Keeps false false s.stewardReset := by
  unfold State.stewardReset
  extract_lets s1 s2 s3 s4 x s5 s6
  have h1 : o.Keeps false false s1 := h.forgetWaits.foldl _ _ fun _ ch hu => hu.chanReset ch true
  have h2 : o.Keeps false false s2 := List.foldlRecOn _ _ h1 fun u hu m hm => ite (hu.mbHalt m 3 (List.mem_range.mp hm))
    (ite (hu.mbOff m (List.mem_range.mp hm)) hu)
  have h4 : o.Keeps false false s4 := ((((h2.wr _ _).wrW _ _).onHost _).onFab _).frCount
  have h5 : o.Keeps false false s5 := (h4.coreReset 1024 .running).setMem _
  have h6 : o.Keeps false false s6 := ite ((h5.wr _ _).emit _) h5
  exact ((h6.wr _ _).onBoot _).peerReset [29]

theorem clusterOff (h : o.Keeps false b s) (c : Nat) : o.Keeps false b (s.clusterOff c) := by
  unfold State.clusterOff
  exact (((((h.dropMem _ _).dropMem _ _).foldl _ _ fun _ _ hu => hu.coreReset _ .held).setCic c _).setEng c _).onRed _

theorem storeDown (h : o.Keeps false false s) (p : Nat) : o.Keeps false false (s.storeDown p) :=
  (((ite h (h.set1 (R.S_EVT_LINKDN p))).wr _ _).wr _ _).wr _ _

theorem measEnd (h : o.Keeps a b s) (c : Nat) : o.Keeps a b (s.measEnd c) := by
  have h1 := h.onPwr fun z => { z with measuring := z.measuring.filter (· ≠ c) }
  unfold State.measEnd
  split
  · exact h1
  · exact ite ((h1.onPwr _).complete _ _ _) (h1.onPwr _)

/-! ### Voltage and slack -/

theorem setVoltAny (h : o.Keeps false false s) (c v : Nat) : o.Keeps false false (s.setVolt c v) := ite h ((h.wr _ _).toggle _)

theorem voltKeep (h : o.Keeps false false s) (c : Nat) : o.Keeps false false (s.voltKeep c) := by
  unfold State.voltKeep
  extract_lets s1
  have h1 : o.Keeps false false s1 := (h.wb _ _).wb _ _
  exact ite h1 (((h1.setVoltAny c _).wr _ _).wr _ _)

theorem govBoostAny (h : o.Keeps false false s) (c : Nat) : o.Keeps false false (s.govBoost c) :=
  ite h (((((setVoltAny (ite (h.set1 R.PWR_EVT_CEIL) h) c _).inc _).wb _ _).wr _ _).setClu c _ |>.govClear c none)

theorem govStep (h : o.Keeps false false s) (c : Nat) (m : Int) : o.Keeps false false (s.govStep c m) := by
  unfold State.govStep
  extract_lets p target db pc s1 v want lo hi s2 v2
  have h1 : o.Keeps false false s1 := h.wr _ _
  have h2 : o.Keeps false false s2 := ite (h1.set1 _) h1
  exact ite h1 (((h2.setVoltAny c v2).wb _ _).wb _ _)

theorem govCount (h : o.Keeps false false s) (c : Nat) (n : BitVec 48) (slack : Int) : o.Keeps false false (s.govCount c n slack) := by
  unfold State.govCount
  extract_lets x
  refine ite h (ite (h.govBoostAny c) ?_)
  split
  · exact h
  · exact ite h (ite ((h.setClu c _).govStep c _) (h.setClu c _))

theorem slackPut (h : o.Keeps false false s) (c : Nat) (n : BitVec 48) (v : Int) (idle : Bool) : o.Keeps false false (s.slackPut c n v idle) := by
  unfold State.slackPut
  extract_lets w s1 s2
  have h1 : o.Keeps false false s1 := (((h.wr _ _).wb _ _).wr _ _).toggle _
  have h2 : o.Keeps false false s2 := ite (h1.wr _ _) h1
  exact h2.govCount c n v

theorem slackTime (h : o.Keeps false false s) (c : Nat) (n : BitVec 48) (e : Int) : o.Keeps false false (s.slackTime c n e) :=
  h.freeNext.slackPut c n _ false

theorem slackOwed (h : o.Keeps false false s) (c : Nat) : o.Keeps false false (s.slackOwed c) := by
  unfold State.slackOwed
  extract_lets x s1
  split
  · exact h
  · have h1 : o.Keeps false false s1 := h.setClu c _
    split
    · exact h1.slackTime c _ _
    · exact h1.slackPut c _ _ false

theorem slackNow (h : o.Keeps false false s) (c : Nat) (n : BitVec 48) (e p : Int) : o.Keeps false false (s.slackNow c n e p) := by
  unfold State.slackNow
  extract_lets x
  refine ite (h.slackPut c _ p true) ?_
  split
  · exact ite (h.slackTime c _ _) (h.setClu c _)
  · exact h.setClu c _

theorem slackEdge (h : o.Keeps false false s) (n : BitVec 48) (e p : Int) (beat : Bool) : o.Keeps false false (s.slackEdge n e p beat) :=
  h.foldl _ _ fun _ c hu => ite (hu.wr _ _) (setClu (ite ((hu.slackOwed c).slackNow c n e p) (hu.slackOwed c)) c _)

/-! ### Power -/

theorem ddrTrained (h : o.Keeps false false s) (trained : BitVec 4) (gib : List (BitVec 16)) (ddr5 : BitVec 4) :
    o.Keeps false false (s.ddrTrained trained gib ddr5) := h.foldl _ _ fun u k hu => by
  have h1 := fun x y z => ((hu.wr (R.DDR_STAT_STATE k) x).wr (R.DDR_STAT_TYPE k) y).wr (R.DDR_STAT_V k) z
  exact ite (hu.wrW _ _) (ite (h1 _ _ _) ((h1 _ _ _).set1 _))

/-- A wake adds the time slept. -/
theorem wake (h : o.Keeps false false s) : o.Keeps false false s.wake := by
  unfold State.wake
  split
  · exact h
  · extract_lets cal ticks el tick unc t s1 s2 d
    have hticks : 0 ≤ ticks := Int.natCast_nonneg _
    have hel : 0 ≤ el := by
      unfold el
      split
      · exact mul_nonneg (mul_nonneg hticks (Int.natCast_nonneg _)) (by decide)
      · exact Int.ediv_nonneg (mul_nonneg (mul_nonneg hticks (by decide)) (by decide)) (by decide)
    have h1 : o.Keeps false false s1 := h.rides rfl (le_add_of_nonneg_right hel)
    exact ((((h1.onBeat _).wrW _ _).onBeat _).wr _ _).servoResume

theorem slotPut (h : o.Keeps false false s) (d : Nat) (r : Option PwrReq) : o.Keeps false false (s.slotPut d r) := by
  unfold State.slotPut
  extract_lets s1
  have h1 : o.Keeps false false s1 := h.onPwr _
  split
  · exact ((h1.wr _ _).wr _ _).wb _ _
  · exact ((h1.wr _ _).wr _ _).wr _ _

theorem pwrLeave (h : o.Keeps false false s) (d dst : Nat) : o.Keeps false false (s.pwrLeave d dst) := by
  unfold State.pwrLeave
  extract_lets s0 c s1
  have h0 : o.Keeps false false s0 := ite (h.peerReset _) h
  have h1 : o.Keeps false false s1 := ite (h0.measEnd c) h0
  exact ite (ite ((h1.setClu c _).setVoltAny c _) h1) (ite (ite h0 (h0.fpLeave _ fpOff)) (ite (h0.spGroupOff _)
    (ite (h0.foldl _ _ fun _ p hu => hu.storeDown p) (ite h0.kennelStop (ite (h0.onHost _) (ite (h0.onBeat _) h0))))))

theorem pwrLost (h : o.Keeps false false s) (d : Nat) : o.Keeps false false (s.pwrLost d) := by
  have hq : o.Keeps false false { s.onHost (fun z => { z with due := z.due.filter (fun x => !x.fault) }) with qeng := {} } := h.rides rfl le_rfl
  exact ite (h.clusterOff _) (ite ((((h.wordsReset _ _).wordsReset _ _).wordsReset _ _).setFport _ _) (ite ((h.onStr _).onRed _) (ite hq
    (ite h.hostReset (ite ((h.dropMem _ _).jrnReset.foldl _ _ fun _ _ hu => hu.wr _ _) (ite h.jrnReset (ite (ite h.kennelOn h) h)))))))

theorem pwrFound (h : o.Keeps false false s) (d was : Nat) : o.Keeps false false (s.pwrFound d was) := by
  unfold State.pwrFound
  extract_lets c s1 v s2
  have h1 : o.Keeps false false s1 := h.foldl _ _ fun _ _ hu => hu.onCore _ _
  have h2 : o.Keeps false false s2 := ite ((h1.setCic c _).onRed _) h1
  exact ite ((((h2.setVoltAny c v).govClear c none).setClu c _).voltKeep c |>.unpark c) (ite (ite (h.fpEnable _ true) h) (ite (h.spGroupOn _)
    (ite h.kennelStart (ite (unpark (wake (ite h.stewardReset h)) 64) h))))

theorem pwrStart (h : o.Keeps false false s) (d : Nat) (r : PwrReq) : o.Keeps false false (s.pwrStart d r) :=
  ((((ite ((h.slotPut d none).pwrLeave d _) (h.slotPut d none)).wr _ _).wr _ _).onPwr _).wr _ _

theorem pwrTry (h : o.Keeps false false s) (d : Nat) (e : Option (BitVec 48)) : o.Keeps false false (s.pwrTry d e) := by
  unfold State.pwrTry
  split
  · exact h
  · exact ite h (ite (h.slotPut d none) (ite (h.pwrStart d _) (h.wr _ _)))

theorem pwrSweep (h : o.Keeps false false s) : o.Keeps false false s.pwrSweep := h.foldl _ _ fun _ e hu => hu.pwrTry e.1 none

theorem pwrArrive (h : o.Keeps false false s) (d : Nat) (e : TransitionEnd) : o.Keeps false false (s.pwrArrive d e) := by
  unfold State.pwrArrive
  split
  · exact h
  · extract_lets was s1 s2 s3 s4 s5
    have h2 : o.Keeps false false s2 := ((((h.wr _ _).wr _ _).incWrap _).set1 _).onPwr _
    have h3 : o.Keeps false false s3 := ite (h2.pwrLost d) (ite (h2.pwrFound d was) h2)
    have h4 : o.Keeps false false s4 := by
      unfold s4
      split
      · exact ite (h3.ddrTrained _ _ _) h3
      · exact h3
    have h5 : o.Keeps false false s5 := by
      unfold s5
      split
      · exact h4.complete _ _ _
      · exact h4
    exact (h5.wr _ _).pwrTry d none

theorem pwrEdge (h : o.Keeps false false s) (n : BitVec 48) : o.Keeps false false (s.pwrEdge n) :=
  (h.foldl _ _ fun _ _ hu => ite (hu.pwrTry _ _) hu).foldl _ _ fun _ d hu => hu.pwrArrive d .plain

/-! ### Commits -/

theorem configRec (h : o.Keeps a b s) (l : List (Nat × Nat × List Octet)) : o.Keeps a b (s.configRec l) := (h.offerRec _).freeNext

theorem cutState (h : o.Keeps false b s) (n : Option (BitVec 48)) (src slot : Nat) : o.Keeps false b (s.cutState n src slot) := by
  unfold State.cutState
  split
  · exact h
  · extract_lets c due e s1 wrote
    have h1 : o.Keeps false b s1 := ((h.flushSpec c src slot).closeGroup _ e _ _).flushSpec c src slot
    exact ite h (ite (h1.setEng c _) h1)

theorem redCut (h : o.Keeps false b s) (n : Option (BitVec 48)) (all : List RState) : o.Keeps false b (s.redCut n all) := by
  unfold State.redCut
  extract_lets isOf gone again cs s1 s2 s3
  have h1 : o.Keeps false b s1 := h.foldl _ _ fun _ c hu => ite (drainIntake c _ _ hu) hu
  have h2 : o.Keeps false b s2 := h1.foldl _ _ fun _ r hu => hu.cutState n r.src r.slot
  have h3 : o.Keeps false b s3 := h2.foldl _ _ fun _ r hu => by
    split
    · exact ite (hu.closeResidue _) hu
    · exact hu
  exact ite h3 (h3.foldl _ _ fun _ c hu => ite ((hu.setEng c _).cicEdge c 64) hu)

theorem writeState (h : o.Keeps false b s) (r : RState) (l : List (Nat × Long)) : o.Keeps false b (s.writeState r l) := by
  unfold State.writeState
  extract_lets hist coef s1 s2 s3 s4
  split
  · exact h.failState r _
  · have h1 : o.Keeps false b s1 := h.foldl _ _ fun _ e hu => hu.wl r e.1 e.2
    have h2 : o.Keeps false b s2 := h1.foldl _ _ fun _ x hu => hu.wl r x 0
    have h3 : o.Keeps false b s3 := ite (h2.foldl _ _ fun _ _ hu => hu.setLong _ 0) h2
    have h4 : o.Keeps false b s4 := h3.foldl _ _ fun _ _ hu => hu.setLong _ _
    exact (h4.wl r 2 _).wl r 3 0

theorem redStart (h : o.Keeps false b s) (n : Option (BitVec 48)) (new : List (RState × Bool)) (stage : List RStage) :
    o.Keeps false b (s.redStart n new stage) := (h.onRed _).foldl _ _ fun _ _ hu => ite (by
  split
  · exact hu.writeState _ _
  · exact hu) hu

theorem redBegin (h : o.Keeps false b s) (n : BitVec 48) : o.Keeps false b (s.redBegin n) := h.foldl _ _ fun _ r hu =>
  ite hu (ite (hu.setRState _) (ite (writeState (setRState (ite (hu.closeResidue r) hu) _) _ _) hu))

theorem applyWords (h : o.Keeps false false s) (n : Option (BitVec 48)) : o.Keeps false false (s.applyWords n) :=
  (((h.foldl _ _ fun _ _ hu => hu.setForce _ _).setWord _ _).setWord _ _).foldl _ _ fun _ c hu => hu.govClear c n

theorem applyCtx (h : o.Keeps false b s) (i since : Nat) (l : List Long) : o.Keeps false b (s.applyCtx i since l) := by
  unfold State.applyCtx
  extract_lets keep c d s1 ring s2 other s3
  have h1 : o.Keeps false b s1 := h.foldl _ _ fun _ _ hu => hu.setCtxL i _ _
  have h2 : o.Keeps false b s2 := ite (h1.foldl _ _ fun _ _ hu => (hu.setLong _ 0).spoil _ 2) h1
  have h3 : o.Keeps false b s3 := ite ((h2.setRemBlocks i []).onStr _) h2
  exact ite h3 (h3.onStr _)

theorem applySubs (h : o.Keeps a b s) : o.Keeps a b s.applySubs := by
  unfold State.applySubs
  refine onStr (h.foldl _ _ fun u e hu => ?_) _
  split
  · exact hu.onStr _
  · exact hu

theorem applySched (h : o.Keeps false false s) : o.Keeps false false s.applySched :=
  ite h (((foldl ((h.onFab _).onFab _) _ _ fun _ _ hu => hu.countDrop _ _).incWrap _ |>.wb _ _).wr _ _)

theorem holdLift (h : o.Keeps false false s) (p : Nat) : o.Keeps false false (s.holdLift p) := by
  unfold State.holdLift
  extract_lets s1 s2
  have h1 : o.Keeps false false s1 := h.becomeActive p
  have h2 : o.Keeps false false s2 := ite h1 (h1.arrivalPlan p)
  exact ite (ite (h2.arrive p) h2) h

theorem applySet (h : o.Keeps false false s) (n : Option (BitVec 48)) : o.Keeps false false (s.applySet n) := by
  unfold State.applySet
  extract_lets all new ctxs stage since s1 s2 s3 s4 s5 s6 s7
  have h2 : o.Keeps false false s2 := ((h.redCut n all).foldl _ _ fun _ e hu => hu.flushGather e.1).applyWords n
  have h3 : o.Keeps false false s3 := h2.foldl _ _ fun _ e hu => hu.applyCtx e.1 since e.2
  have h5 : o.Keeps false false s5 := (h3.applySubs.onStr _).onRed _
  have h7 : o.Keeps false false s7 := (h5.redStart n new stage).applySched.foldl _ _ fun _ c hu => hu.voltKeep c
  exact h7.foldl _ _ fun _ p hu => hu.holdLift p

theorem dropCommitPlans (h : o.Keeps false false s) : o.Keeps false false s.dropCommitPlans :=
  h.foldl _ _ fun _ p hu => ite (ite ((hu.dropPlan p).arrivalPlan p) (hu.dropPlan p)) hu

theorem cancelPeriod (h : o.Keeps false false s) (n : BitVec 48) : o.Keeps false false (s.cancelPeriod n) := (h.set1 _).sendTo _ _ _

theorem bindOver (h : o.Keeps a b s) (code : Option Nat) : o.Keeps a b (s.bindOver code) := h.foldl _ _ fun _ p hu => by
  split
  · refine ite hu ?_
    split
    · exact (hu.onPort p _).arrivalEvent p _
    · exact ite ((hu.onPort p _).arrivalEvent p 0) (hu.onPort p _)
  · exact hu

theorem commitOver (h : o.Keeps false false s) : o.Keeps false false s.commitOver := ((h.onBeat _).wr _ _).wr _ _

theorem commitFailed (h : o.Keeps false false s) (code : Nat) : o.Keeps false false (s.commitFailed code) := ((h.set1 _).set1 _).wr _ _

theorem commitRun (h : o.Keeps false false s) (n : Option (BitVec 48)) : o.Keeps false false (s.commitRun n) := by
  unfold State.commitRun
  extract_lets codes items s0 s1 s2
  have h0 : o.Keeps false false s0 := h.wr _ _
  have h1 : o.Keeps false false s1 := (h0.applySet n).commitOver
  have h2 : o.Keeps false false s2 := (((h1.set1 _).set1 _).configRec items).bindOver none
  exact ite (ite (h2.foldl _ _ fun _ p hu => hu.onPort p _) h2) ((((h0.commitFailed _).commitOver.configRec items).dropCommitPlans).bindOver _)

theorem periodWatch (h : o.Keeps false false s) (n : BitVec 48) : o.Keeps false false (s.periodWatch n) := by
  unfold State.periodWatch
  extract_lets s1
  have h1 : o.Keeps false false s1 := by
    unfold s1
    split
    · exact ite (h.periodRefuse _) h
    · exact h
  split
  · exact ite (h1.cancelPeriod _) h1
  · exact h1

theorem periodEdge (h : o.Keeps false false s) (n : BitVec 48) : o.Keeps false false (s.periodEdge n) := by
  unfold State.periodEdge
  split
  · exact ite h (ite (h.onFab _).dropCommitPlans ((h.onFab _).takePeriod _ _))
  · exact h

theorem commitEdge (h : o.Keeps false false s) (n : BitVec 48) : o.Keeps false false (s.commitEdge n) := by
  unfold State.commitEdge
  extract_lets s1
  have h1 : o.Keeps false false s1 := by
    unfold s1
    split
    · exact ite (h.commitRun _) h
    · exact h
  exact h1.periodEdge n

/-! ### The edge's own output -/

theorem planInForce (h : o.Keeps false false s) (p : Nat) : o.Keeps false false (s.planInForce p) := by
  unfold State.planInForce
  split
  · exact ((h.dropPlan p).wr _ _).onPort p _
  · exact h

theorem plansEdge (h : o.Keeps false false s) (n : BitVec 48) (due : List Nat) : o.Keeps false false (s.plansEdge n due) :=
  ((h.foldl _ _ fun _ p hu => hu.onPort p _).foldl _ _ fun _ p hu => hu.planInForce p).foldl _ _ fun _ p hu => hu.arrivalPlan p

theorem sendDrive (h : o.Keeps false false s) (p beat plan : Nat) (codes : List Grain) : o.Keeps false false (s.sendDrive p beat plan codes) :=
  ite ((h.emit _).takeBlock p _) (h.emit _)

theorem markPorts (h : o.Keeps false false s) (n : BitVec 48) (due : List Nat) (l : List (Nat × Nat × List Grain)) :
    o.Keeps false false (s.markPorts n due l) :=
  (h.foldl _ _ fun _ _ hu => (hu.emit _).freeNext).foldl _ _ fun _ _ hu => ite (hu.sendDrive _ _ _ _) hu

theorem arbitrate (h : o.Keeps a b s) (k : Nat) : o.Keeps a b (s.arbitrate k) := h.same

theorem beatOut (h : o.Keeps a b s) (n : BitVec 48) : o.Keeps a b (s.beatOut n) := ite (h.emit _) h

theorem edgeBlocks (h : o.Keeps a b s) (n : BitVec 48) : o.Keeps a b (s.edgeBlocks n) :=
  ite (h.foldl _ _ fun _ _ hu => ((hu.emit _).emit _).freeNext) h

theorem coreBusy (h : o.Keeps a b s) (i : Nat) : o.Keeps a b (s.coreBusy i) := ite (h.setClu _ _) h

theorem coreGo (h : o.Keeps false false s) (i : Nat) : o.Keeps false false (s.coreGo i) := by
  have h1 := (h.onCore i fun c => { c with run := .running, work := s.beat.num }).coreBusy i
  exact ite (ite ((h1.onCore i _).halt i _ _) h1) h

theorem startCores (h : o.Keeps false false s) : o.Keeps false false s.startCores := (h.onHost _).foldl _ _ fun _ i hu => hu.coreGo i

theorem holdEdge (h : o.Keeps false b s) : o.Keeps false b s.holdEdge := h.foldl _ _ fun _ _ hu => ite (hu.setCic _ _) hu

theorem exportEdge (h : o.Keeps a b s) : o.Keeps a b s.exportEdge := by
  unfold State.exportEdge
  split
  · exact h.onHost _
  · exact h

theorem edgeSources (h : o.Keeps false b s) : o.Keeps false b s.edgeSources := h.foldl _ _ fun _ c hu => hu.cicEdge c 68

/-- A beat that runs is not brought to an end. -/
theorem stopEdge (h : o.Keeps a b s) (hr : o.beat.phase = .running) : o.Keeps a b s.stopEdge := by
  have hs : s.beat.phase = .running := (congrArg (·.1) h.grid).trans hr
  unfold State.stopEdge
  rw [hs]
  exact h

end State.Keeps

end Sys2Proof.Machine

/-! SUPPORT. EDGE (R18, R26): the next edge of the grid, and the beat as it leaves it. -/

namespace Sys2Proof.Machine

open Sys2Proof

-- One proof after another, as in the tests: theorems checked side by side need more threads than the check's memory limit allows.
set_option Elab.async false

/-- The beat at edge n, at instant e, before anything else happens there. -/
def State.atEdge (s : State) (n : BitVec 48) (e : Int) : State :=
  { s with time := max s.time e }.onBeat (fun z => { z with num := n, lastEdge := e, first := none, ran := true })

variable {a : Bool} {o s : State} {n : BitVec 48} {e : Int}

theorem atEdge_grid : (s.atEdge n e).beat.grid = (s.beat.phase, n, e, none, s.beat.off) := rfl

/-! ### The next edge -/

theorem State.Keeps.periodU (h : o.Keeps a true s) : s.periodU = o.periodU := by
  have hw : ∀ off, 0x4000 ≤ off → off < 0x5000 → s.rdW off = o.rdW off := fun off hl hu => congrArg BitVec.toNat (h.word rfl off hl hu)
  unfold State.periodU
  rw [hw R.PERIOD_ACT_INT (by decide) (by decide), hw R.PERIOD_ACT_FRAC (by decide) (by decide)]

theorem State.Keeps.edgeFrom (h : o.Keeps a true s) (e : Int) : s.edgeFrom e = o.edgeFrom e := by
  unfold State.edgeFrom State.gridFrom
  rw [h.beat rfl, h.periodU]

/-- An edge still to come, at the last one or later, is the next. -/
theorem edgeFrom_first {x : BitVec 48 × Int} (hp : 0 < s.periodU) (hf : s.beat.first = some x) (hx : s.beat.lastEdge ≤ x.2) :
    s.edgeFrom s.beat.lastEdge = x := by
  obtain ⟨m, f⟩ := x
  have hk : max 0 ((s.beat.lastEdge - f + s.periodU - 1) / s.periodU) = 0 :=
    max_eq_left (Int.lt_add_one_iff.mp (Int.ediv_lt_of_lt_mul hp (by dsimp only at hx; omega)))
  unfold State.edgeFrom
  rw [hf]
  dsimp only
  rw [hk, zero_mul, add_zero]
  exact congrArg (·, f) (BitVec.add_zero m)

/-- With none still to come, the next edge is a period after the last. -/
theorem edgeFrom_none (hp : 0 < s.periodU) (hf : s.beat.first = none) :
    s.edgeFrom s.beat.lastEdge = (s.beat.num + 1, s.beat.lastEdge + s.periodU) := by
  have hk : max 1 ((s.beat.lastEdge - s.beat.lastEdge + s.periodU - 1) / s.periodU) = 1 :=
    max_eq_left ((Int.ediv_lt_of_lt_mul hp (by omega) : _ < (1 : Int)).le)
  unfold State.edgeFrom
  rw [hf]
  dsimp only
  unfold State.gridFrom
  dsimp only
  rw [hk, one_mul]
  rfl

/-! ### The edge, step by step -/

theorem ppsExpire_newGrid (hm : s.beat.phase ≠ .stopped) : s.ppsExpire.fab.newGrid = s.fab.newGrid := by
  unfold State.ppsExpire
  split
  · split
    · exact ((State.Keeps.refl (a := true) (b := true) (s := s.onBeat fun z => { z with ppsSec := none }) hm).complete _ _ _).newGrid rfl
    · rfl
  · rfl

theorem applyStep_none (h : s.beat.pendStep = none) : s.applyStep = s := by
  unfold State.applyStep
  rw [h]

theorem applyGrid_none (h : s.fab.newGrid = none) : s.applyGrid = s := by
  unfold State.applyGrid
  rw [h]

/-- With no step and no GRID to apply, the edge's own time moves the beat to it and nothing further. -/
theorem edgeTime_keeps (hr : s.beat.phase ≠ .stopped) (hs : s.beat.pendStep = none) (hg : s.fab.newGrid = none) :
    (s.atEdge n e).Keeps false false (s.edgeTime n e) := by
  unfold State.edgeTime
  extract_lets s1 s2 s3 s4
  have h1 : (s.atEdge n e).Keeps false false s1 := State.Keeps.refl (s := s.atEdge n e) hr
  have h2 : (s.atEdge n e).Keeps false false s2 := h1.onStr _
  have h3 : (s.atEdge n e).Keeps false false s3 := by
    unfold s3
    rw [applyStep_none (show s2.beat.pendStep = none from hs), applyGrid_none ((ppsExpire_newGrid (s := s2) hr).trans hg)]
    exact h2.ppsExpire
  have h4 : (s.atEdge n e).Keeps false false s4 := State.Keeps.ite ((h3.onBeat _).capture _ _) h3
  exact h4.timEdge n e

theorem edgeAct_keeps (hr : s.beat.phase = .running) (hs : s.beat.pendStep = none) (hg : s.fab.newGrid = none) (ran : Bool) :
    (s.atEdge n e).Keeps false false (s.edgeAct n e ran) := by
  have hm : s.beat.phase ≠ .stopped := by rw [hr]; decide
  unfold State.edgeAct
  extract_lets s1 s2 d s3 due s4 s5 s6 s7 s8
  have h1 : (s.atEdge n e).Keeps false false s1 := ((edgeTime_keeps hm hs hg).edgeBlocks n).edgeSources
  have h2 : (s.atEdge n e).Keeps false false s2 := (h1.latchEdge n e).windowsOpen n
  have h3 : (s.atEdge n e).Keeps false false s3 := ((h2.driveEdge (n - 1)).periodWatch n).commitEdge n
  have h4 : (s.atEdge n e).Keeps false false s4 := ((h3.newBeat.plansEdge n due).fabEdge).slotEdge n
  have h5 : (s.atEdge n e).Keeps false false s5 := (h4.markPorts n due d.2).arbitrate _
  have h6 : (s.atEdge n e).Keeps false false s6 := ((h5.redBegin n).redClose n).redBusy _
  have h7 : (s.atEdge n e).Keeps false false s7 := (h6.slackEdge n e _ ran).pwrEdge n
  have h8 : (s.atEdge n e).Keeps false false s8 := (h7.foldl _ _ fun _ c hu => hu.voltKeep c).openReady
  exact ((((h8.holdEdge).beatOut n).startCores).exportEdge.stopEdge hr).packSettle

/-- What ends the last beat leaves the clock as it is. -/
theorem lastBeat_keeps (hm : s.beat.phase ≠ .stopped) (ran : Bool) :
    s.Keeps false true (if ran then s.endBeat.tokensEnd else s) :=
  State.Keeps.ite (State.Keeps.refl hm).endBeat.tokensEnd (State.Keeps.refl hm)

/-- An edge, with no step and no GRID to apply: what it leaves has the grid of the beat at that edge. -/
theorem edge_keeps (hd : s.domOn domSteward = true) (hr : s.beat.phase = .running) (hs : s.beat.pendStep = none) (hg : s.fab.newGrid = none) :
    ∃ u : State, u.beat = s.beat ∧
      (u.atEdge (s.edgeFrom s.beat.lastEdge).1 (s.edgeFrom s.beat.lastEdge).2).Keeps false false s.edge := by
  have hm : s.beat.phase ≠ .stopped := by rw [hr]; decide
  have hgo : ¬ (!s.hasEdges || !s.domOn domSteward) = true := by simp [State.hasEdges, hr, hd]
  have h1 := lastBeat_keeps hm s.beat.first.isNone
  refine ⟨_, (h1.specDue (s.edgeFrom s.beat.lastEdge).1).beat rfl, ?_⟩
  have he := h1.edgeFrom s.beat.lastEdge
  have hb := h1.beat rfl
  unfold State.edge
  rw [if_neg hgo]
  dsimp only
  rw [hb, he]
  have h2 := h1.specDue (s.edgeFrom s.beat.lastEdge).1
  exact edgeAct_keeps (by rw [h2.beat rfl, hr]) (by rw [h2.beat rfl, hs]) (by rw [h2.newGrid rfl, hg]) _

/-- EDGE of a running beat: the next edge is the last one (R26), at or before the time reached. -/
theorem exec_edge (hd : s.domOn domSteward = true) (hr : s.beat.phase = .running) (hs : s.beat.pendStep = none) (hg : s.fab.newGrid = none) :
    ∃ t, exec .edge s = .next t ∧ (t.beat.num, t.beat.lastEdge) = s.edgeFrom s.beat.lastEdge ∧ t.beat.first = none ∧
      t.beat.lastEdge ≤ t.time ∧ t.beat.off = s.beat.off := by
  obtain ⟨u, hu, hk⟩ := edge_keeps hd hr hs hg
  have hk := hk.pwrSweep
  have hgrid := hk.grid.trans atEdge_grid
  rw [hu] at hgrid
  simp only [Beat.grid, Prod.mk.injEq] at hgrid
  obtain ⟨-, hnum, hlast, hfirst, hoff⟩ := hgrid
  refine ⟨s.edge.pwrSweep.settle, rfl, ?_⟩
  generalize s.edge.pwrSweep = v at hk hnum hlast hfirst hoff ⊢
  rw [State.settle_beat, State.settle_time]
  exact ⟨Prod.ext hnum hlast, hfirst, hlast.le.trans ((le_max_right _ _).trans hk.time), hoff⟩

/-- EDGE of a stopped beat does nothing. -/
theorem exec_edge_stopped (hr : s.beat.phase = .stopped) (hslot : s.pwr.slot = []) :
    ∃ t, exec .edge s = .next t ∧ Says.regsOnly s t [] := by
  have he : s.edge = s := by
    unfold State.edge
    rw [if_pos (by simp [State.hasEdges, hr])]
  refine ⟨s.settle, ?_, regsOnly_settle s rfl (words_refl s [])⟩
  show done s.edge.pwrSweep = _
  rw [he, State.pwrSweep_none s hslot, done_eq]

end Sys2Proof.Machine

/-! SUPPORT. TIME_CAPTURE, BEATREADY_POST and BEAT_OVERRUN (R27, R32, R55, R114): the registers they write, and the cores they mark. -/

namespace Sys2Proof.Machine

open Sys2Proof

-- One proof after another, as in the tests: theorems checked side by side need more threads than the check's memory limit allows.
set_option Elab.async false

variable {s t u : State}

/-! ### Captures -/

/-- From s, u has been reached by changes of BAR0 words and of the beat alone. -/
def State.Wrote (s u : State) : Prop := ∃ r b, u = { s with hreg := r, beat := b }

namespace State.Wrote

theorem refl (s : State) : s.Wrote s := ⟨_, _, rfl⟩

theorem setWord (h : s.Wrote u) (off : Nat) (v : Reg32) : s.Wrote (u.setWord off v) := by
  obtain ⟨r, b, rfl⟩ := h
  exact ⟨_, b, rfl⟩

theorem wr (h : s.Wrote u) (f : Fld) (v : Nat) : s.Wrote (u.wr f v) := h.setWord f.off _

theorem wrW (h : s.Wrote u) (off v : Nat) : s.Wrote (u.wrW off v) := h.setWord off _

theorem onBeat (h : s.Wrote u) (f : Beat → Beat) : s.Wrote (u.onBeat f) := by
  obtain ⟨r, b, rfl⟩ := h
  exact ⟨r, _, rfl⟩

theorem mem (h : s.Wrote u) : u.mem = s.mem := by
  obtain ⟨r, b, rfl⟩ := h
  rfl

theorem cores (h : s.Wrote u) : u.cores = s.cores := by
  obtain ⟨r, b, rfl⟩ := h
  rfl

theorem capture (h : s.Wrote u) (e : Int) (n : BitVec 48) : s.Wrote (u.capture e n) :=
  (((((h.wrW _ _).wrW _ _).wrW _ _).wrW _ _).wrW _ _).wr _ _

/-- Settled, such a state shows in those words and the beat alone. -/
theorem beatOnly {l : List Nat} (h : s.Wrote u) (hw : Says.words s u l) : Says.beatOnly s u.settle l := by
  obtain ⟨r, b, rfl⟩ := h
  exact ⟨rfl, sensed_settle rfl rfl, hw⟩

end State.Wrote

theorem word_wrW_ne (off o v : Nat) (h : o ≠ off) : (s.wrW off v).word o = s.word o := by
  unfold State.wrW
  rw [State.word_setWord, if_neg h]

theorem rdW_wrW_ne (off o v : Nat) (h : o ≠ off) : (s.wrW off v).rdW o = s.rdW o := congrArg BitVec.toNat (word_wrW_ne off o v h)

/-- A word from a number is the number modulo 2^32. -/
theorem rdW_wrW_mod (off v : Nat) : (s.wrW off v).rdW off = v % 2 ^ 32 := by
  unfold State.rdW State.wrW
  rw [State.word_setWord_self, BitVec.toNat_ofNat]

theorem rdW_wr_off (f : Fld) (v o : Nat) (h : o ≠ f.off) : (s.wr f v).rdW o = s.rdW o := congrArg BitVec.toNat (s.word_wr_off f v o h)

section capture

variable (s) (e : Int) (n : BitVec 48)

theorem rdW_capture_frac : (s.capture e n).rdW R.TIME_CAP_FRAC = fracOf (s.packAt e) % 2 ^ 32 := by
  unfold State.capture
  rw [rdW_wr_off _ _ _ (by decide), rdW_wrW_ne _ _ _ (by decide), rdW_wrW_ne _ _ _ (by decide), rdW_wrW_ne _ _ _ (by decide),
    rdW_wrW_ne _ _ _ (by decide), rdW_wrW_mod]

theorem rdW_capture_nsLo : (s.capture e n).rdW R.TIME_CAP_NS_LO = nsOf (s.packAt e) % 2 ^ 32 := by
  unfold State.capture
  rw [rdW_wr_off _ _ _ (by decide), rdW_wrW_ne _ _ _ (by decide), rdW_wrW_ne _ _ _ (by decide), rdW_wrW_ne _ _ _ (by decide), rdW_wrW_mod]

theorem rdW_capture_nsHi : (s.capture e n).rdW R.TIME_CAP_NS_HI = nsOf (s.packAt e) / 4294967296 % 2 ^ 32 := by
  unfold State.capture
  rw [rdW_wr_off _ _ _ (by decide), rdW_wrW_ne _ _ _ (by decide), rdW_wrW_ne _ _ _ (by decide), rdW_wrW_mod]

theorem rdW_capture_beatLo : (s.capture e n).rdW R.TIME_CAP_BEAT_LO = n.toNat % 2 ^ 32 := by
  unfold State.capture
  rw [rdW_wr_off _ _ _ (by decide), rdW_wrW_ne _ _ _ (by decide), rdW_wrW_mod]

theorem rdW_capture_beatHi : (s.capture e n).rdW R.TIME_CAP_BEAT_HI = n.toNat / 4294967296 % 2 ^ 32 := by
  unfold State.capture
  rw [rdW_wr_off _ _ _ (by decide), rdW_wrW_mod]

theorem bit_capture_done : (s.capture e n).bit R.TIME_CAP_CTRL_DONE = true := by
  unfold State.capture State.bit
  rw [State.rd_wr _ _ _ (by decide)]
  rfl

theorem rd_capture_edge : (s.capture e n).rd R.TIME_CAP_CTRL_EDGE = s.rd R.TIME_CAP_CTRL_EDGE := by
  unfold State.capture
  rw [State.rd_wr_ne _ _ _ _ (by decide) (by decide)]
  unfold State.rd
  rw [word_wrW_ne _ _ _ (by decide), word_wrW_ne _ _ _ (by decide), word_wrW_ne _ _ _ (by decide), word_wrW_ne _ _ _ (by decide),
    word_wrW_ne _ _ _ (by decide)]

theorem words_capture : Says.words s (s.capture e n)
    [R.TIME_CAP_CTRL, R.TIME_CAP_FRAC, R.TIME_CAP_NS_LO, R.TIME_CAP_NS_HI, R.TIME_CAP_BEAT_LO, R.TIME_CAP_BEAT_HI] := by
  intro o ho
  simp only [List.mem_cons, List.not_mem_nil, or_false, not_or] at ho
  obtain ⟨hctrl, hfrac, hlo, hhi, hblo, hbhi⟩ := ho
  unfold State.capture
  rw [State.word_wr_off _ _ _ _ hctrl, word_wrW_ne _ _ _ hbhi, word_wrW_ne _ _ _ hblo, word_wrW_ne _ _ _ hhi, word_wrW_ne _ _ _ hlo,
    word_wrW_ne _ _ _ hfrac]

end capture

theorem nsOf_lt (e : Int) : nsOf e < 2 ^ 56 := by unfold nsOf; omega

theorem fracOf_lt (e : Int) : fracOf e < 2 ^ 24 := by
  unfold fracOf nsU
  omega

/-- The capture registers hold the pack time (R28). -/
theorem packTime_capture (e : Int) (n : BitVec 48) : ((s.capture e n).rdW R.TIME_CAP_NS_HI * 2 ^ 32 + (s.capture e n).rdW R.TIME_CAP_NS_LO) * 2 ^ 24 +
    (s.capture e n).rdW R.TIME_CAP_FRAC = (packTime (s.packAt e)).toNat := by
  have hns := nsOf_lt (s.packAt e)
  have hfrac := fracOf_lt (s.packAt e)
  rw [rdW_capture_nsHi, rdW_capture_nsLo, rdW_capture_frac, packTime, BitVec.toNat_ofNat]
  omega

theorem beat_capture (e : Int) (n : BitVec 48) :
    (s.capture e n).rdW R.TIME_CAP_BEAT_HI * 2 ^ 32 + (s.capture e n).rdW R.TIME_CAP_BEAT_LO = n.toNat := by
  have hn := n.isLt
  rw [rdW_capture_beatHi, rdW_capture_beatLo]
  omega

/-- A write of EDGE with DONE cleared: what both kinds of capture begin with. -/
def State.captureArmed (s : State) (edge : Bool) : State :=
  ((s.wr R.TIME_CAP_CTRL_EDGE (if edge then 1 else 0)).wr R.TIME_CAP_CTRL_DONE 0).onBeat (fun z => { z with capEdge := edge })

theorem timeCapture_eq (v : Reg32) (hv : v.getLsbD 0 = true) : s.timeCapture v =
    if v.getLsbD 1 then s.captureArmed true else (s.captureArmed false).capture s.time s.beat.num := by
  unfold State.timeCapture
  dsimp only
  rw [if_pos hv]
  cases v.getLsbD 1 <;> simp only [State.captureArmed, Bool.false_eq_true, if_false, if_true]

theorem word_onBeat (f : Beat → Beat) (o : Nat) : (s.onBeat f).word o = s.word o := rfl

theorem rd_onBeat (f : Beat → Beat) (x : Fld) : (s.onBeat f).rd x = s.rd x := rfl

theorem word_captureArmed (edge : Bool) (o : Nat) (ho : o ≠ R.TIME_CAP_CTRL) : (s.captureArmed edge).word o = s.word o := by
  unfold State.captureArmed
  rw [word_onBeat, State.word_wr_off _ _ _ _ ho, State.word_wr_off _ _ _ _ ho]

theorem bit_captureArmed_edge (edge : Bool) : (s.captureArmed edge).bit R.TIME_CAP_CTRL_EDGE = edge := by
  unfold State.captureArmed State.bit
  rw [rd_onBeat, State.rd_wr_ne _ _ _ _ (by decide) (by decide), State.rd_wr _ _ _ (by decide)]
  cases edge <;> rfl

theorem bit_captureArmed_done (edge : Bool) : (s.captureArmed edge).bit R.TIME_CAP_CTRL_DONE = false := by
  unfold State.captureArmed State.bit
  rw [rd_onBeat, State.rd_wr _ _ _ (by decide)]
  rfl

theorem captureArmed_wrote (edge : Bool) : s.Wrote (s.captureArmed edge) := (((State.Wrote.refl s).wr _ _).wr _ _).onBeat _

theorem beat_captureArmed (edge : Bool) : (s.captureArmed edge).beat = { s.beat with capEdge := edge } := by
  unfold State.captureArmed
  rw [State.onBeat_beat, State.wr_beat, State.wr_beat]

theorem capture_beat (e : Int) (n : BitVec 48) : (s.capture e n).beat = s.beat := by
  unfold State.capture State.wrW
  rw [State.wr_beat, State.setWord_beat, State.setWord_beat, State.setWord_beat, State.setWord_beat, State.setWord_beat]

/-- A capture of the next edge waits (R27). -/
theorem exec_timeCapture_edge (v : Reg32) (hv : v.getLsbD 0 = true) (he : v.getLsbD 1 = true) :
    exec (.timeCapture v) s = .next (s.captureArmed true).settle := by
  show done (s.timeCapture v) = _
  rw [timeCapture_eq v hv, if_pos he, done_eq]

/-- A capture at once (R27). -/
theorem exec_timeCapture_now (v : Reg32) (hv : v.getLsbD 0 = true) (he : v.getLsbD 1 = false) :
    exec (.timeCapture v) s = .next ((s.captureArmed false).capture s.time s.beat.num).settle := by
  show done (s.timeCapture v) = _
  rw [timeCapture_eq v hv, if_neg (by rw [he]; decide), done_eq]

/-! ### Cores of a cluster -/

/-- A fold whose every step changes one part of the state changes that part alone. -/
theorem foldl_part {α β : Type} {f : State → α → State} (get : State → β) (put : State → β → State) (hself : ∀ u, put u (get u) = u)
    (htwice : ∀ u x y, put (put u x) y = put u y) (hf : ∀ u k, f u k = put u (get (f u k))) (l : List α) :
    l.foldl f s = put s (get (l.foldl f s)) :=
  List.foldlRecOn (motive := fun u => u = put s (get u)) l f (hself s).symm fun u hu k _ =>
    (hf u k).trans ((congrArg (fun v => put v (get (f u k))) hu).trans (htwice s _ _))

theorem foldl_cores {f : State → Nat → State} (hf : ∀ u k, f u k = { u with cores := (f u k).cores }) (l : List Nat) :
    l.foldl f s = { s with cores := (l.foldl f s).cores } :=
  foldl_part State.cores (fun u x => { u with cores := x }) (fun _ => rfl) (fun _ _ _ => rfl) hf l

theorem noticeTo_eq (c : Nat) (tag : BitVec 36) (b : BitVec 48) : s.noticeTo c tag b = { s with cores := (s.noticeTo c tag b).cores } :=
  foldl_cores (fun _ _ => rfl) _

theorem setOvr_setOvr (c : Core) (b : BitVec 48) : (c.setOvr b).setOvr b = c.setOvr b := by
  cases h : c.ovr <;> simp [Core.setOvr, h]

theorem setOvr_ovr (c : Core) (b : BitVec 48) : (c.setOvr b).ovr = some (c.ovr.getD b) := by
  cases h : c.ovr <;> simp [Core.setOvr, h]

theorem setOvr_takes (c : Core) (b : BitVec 48) : (c.setOvr b).takes = c.takes := by
  cases h : c.ovr <;> simp [Core.setOvr, Core.takes, h]

theorem setOvr_completed (c : Core) (b : BitVec 48) : (c.setOvr b).completed = c.completed := by
  cases h : c.ovr <;> simp [Core.setOvr, h]

/-- A core of cluster c marked, where it did not complete beat m (R55, R123). -/
def State.markCore (c : Nat) (m b : BitVec 48) (s : State) (k : Nat) : State :=
  if s.reached (16 * c + k) m then s else s.onCore (16 * c + k) (fun x => x.setOvr b)

theorem markCore_eq (c : Nat) (m b : BitVec 48) (s : State) (k : Nat) : s.markCore c m b k = { s with cores := (s.markCore c m b k).cores } := by
  unfold State.markCore
  split <;> rfl

theorem core_markCore (c : Nat) (m b : BitVec 48) (k j : Nat) :
    (s.markCore c m b k).core j = if j = 16 * c + k ∧ s.reached j m = false then (s.core j).setOvr b else s.core j := by
  unfold State.markCore State.onCore
  by_cases hj : j = 16 * c + k
  · subst hj
    cases hr : s.reached (16 * c + k) m <;> simp
  · rw [if_neg (c := _ ∧ _) (fun h => hj h.1)]
    split
    · rfl
    · rw [State.core_setCore, if_neg hj]

/-- A mark does not change who completed the beat. -/
theorem reached_markCore (c : Nat) (m b : BitVec 48) (k j : Nat) : (s.markCore c m b k).reached j m = s.reached j m := by
  have hd : (s.markCore c m b k).domOn (domCluster (j / 16)) = s.domOn (domCluster (j / 16)) := by rw [markCore_eq]; rfl
  unfold State.reached
  dsimp only
  rw [core_markCore, hd]
  split
  · rw [setOvr_takes, setOvr_completed]
  · rfl

/-- Marked are the cores of the list that did not complete the beat, and no others. -/
theorem core_markCores (c : Nat) (m b : BitVec 48) (l : List Nat) (j : Nat) : ∀ s : State, (l.foldl (State.markCore c m b) s).core j =
    if (∃ k ∈ l, j = 16 * c + k) ∧ s.reached j m = false then (s.core j).setOvr b else s.core j := by
  induction l with
  | nil => intro s; simp
  | cons k l ih =>
    intro s
    rw [List.foldl_cons, ih, reached_markCore, core_markCore]
    cases hr : s.reached j m with
    | true => simp
    | false =>
      by_cases hk : j = 16 * c + k
      · by_cases hl : ∃ x ∈ l, j = 16 * c + x <;> simp [hk, setOvr_setOvr]
      · simp [hk]

/-! ### The notice of a ready cluster (R114, R115) -/

theorem refuseWhy_none {q : Nat} (h : Says.accepts s q) : s.refuseWhy q = none := by
  obtain ⟨hen, hbroken, hsweeping, hlimit, hfree, hrsv⟩ := h
  have hl : ¬ ((s.queue q).limit ≠ 0 ∧ (s.queue q).limit.toNat ≤ (s.queue q).msgs.length) := by
    rintro ⟨h0, h1⟩
    rcases hlimit with h | h
    · exact h0 h
    · omega
  have hr : ¬ ((!(s.queue q).priv) = true ∧ s.poolFree ≤ s.poolRsv) := by
    rintro ⟨h0, h1⟩
    unfold State.poolRsv at h1
    rcases hrsv with h | h
    · simp [h] at h0
    · omega
  unfold State.refuseWhy State.fullWhy
  dsimp only
  rw [if_neg (by simp [hen]), if_neg (by simp [hbroken, hsweeping]), if_neg hl, if_neg (by omega), if_neg hr]

/-- An interrupt at a level changes no more than the CICs. -/
theorem cicEdge_eq (c n : Nat) : s.cicEdge c n = { s with cics := (s.cicEdge c n).cics } := by
  unfold State.cicEdge
  split <;> rfl

theorem levelEdge_eq (q : Nat) : s.levelEdge q = { s with cics := (s.levelEdge q).cics } := by
  unfold State.levelEdge
  dsimp only
  split
  · exact cicEdge_eq _ _
  · rfl

/-- An accepted message joins its queue's others. -/
theorem enqueue_accepted {q : Nat} (h : Says.accepts s q) (m : Msg) :
    s.enqueue q m = { s with qeng := (s.enqueue q m).qeng, cics := (s.enqueue q m).cics } ∧
      ((s.enqueue q m).queue q).msgs = (s.queue q).msgs ++ [m] := by
  unfold State.enqueue
  rw [refuseWhy_none h]
  dsimp only
  rw [levelEdge_eq]
  refine ⟨rfl, ?_⟩
  show ((s.setQueue q { s.queue q with msgs := (s.queue q).msgs ++ [m] }).queue q).msgs = _
  rw [State.queue_setQueue_self]

theorem exec_beatReadyPost (c : BitVec 6) (hp : (s.clu c.toNat).posted = false) (hd : s.domOn (domCluster c.toNat) = true)
    (hi : s.inReady c.toNat = true) (hq : s.domOn domQueue = true) (ha : Says.accepts s (s.readyQ c.toNat)) :
    ∃ t, exec (.beatReadyPost c) s = .next t ∧ (t.clu c.toNat).posted = true ∧ (t.clu c.toNat).lostPrev = false ∧
      (t.queue (s.readyQ c.toNat)).msgs = (s.queue (s.readyQ c.toNat)).msgs ++ [s.readyNotice c.toNat] ∧ t.mem = s.mem ∧ t.hreg = s.hreg := by
  refine ⟨(s.postReady c.toNat).settle, rfl, ?_⟩
  obtain ⟨heq, hmsgs⟩ := enqueue_accepted ha (s.readyNotice c.toNat)
  have hacc : s.accepts (s.readyQ c.toNat) = true := by rw [State.accepts, refuseWhy_none ha]; rfl
  have hgo : ¬ ((s.clu c.toNat).posted || !s.domOn (domCluster c.toNat) || !s.inReady c.toNat) = true := by simp [hp, hd, hi]
  unfold State.postReady
  rw [if_neg hgo]
  simp only [hq, hacc, Bool.and_self, Bool.not_true, if_true]
  generalize s.enqueue (s.readyQ c.toNat) (s.readyNotice c.toNat) = u at heq hmsgs ⊢
  have hmem : u.mem = s.mem := by rw [heq]
  have hreg : u.hreg = s.hreg := by rw [heq]
  have hn := noticeTo_eq (s := u.setClu c.toNat { u.clu c.toNat with posted := true, lostPrev := false }) c.toNat
    (BitVec.ofNat 36 (s.beat.num - 1).toNat) s.beat.num
  generalize State.noticeTo _ _ _ _ = v at hn ⊢
  have hclu : v.clu c.toNat = { u.clu c.toNat with posted := true, lostPrev := false } := by
    rw [hn]
    exact (u.clu_setClu _ _ _).trans (if_pos rfl)
  have hqueue : v.queue (s.readyQ c.toNat) = u.queue (s.readyQ c.toNat) := by
    rw [hn]
    rfl
  have hvmem : v.mem = u.mem := by rw [hn]; rfl
  have hvreg : v.hreg = u.hreg := by rw [hn]; rfl
  rw [State.settle_clu, State.settle_queue, State.settle_mem, State.settle_hreg]
  exact ⟨congrArg Cluster.posted hclu, congrArg Cluster.lostPrev hclu, (congrArg Queue.msgs hqueue).trans hmsgs, hvmem.trans hmem,
    hvreg.trans hreg⟩

theorem exec_beatReadyPost_again (c : BitVec 6) (hp : (s.clu c.toNat).posted = true) :
    ∃ t, exec (.beatReadyPost c) s = .next t ∧ Says.regsOnly s t [] := by
  refine ⟨s.settle, ?_, regsOnly_settle s rfl (words_refl s [])⟩
  show done (s.postReady c.toNat) = _
  unfold State.postReady
  rw [if_pos (by simp [hp]), done_eq]

/-! ### Overruns (R55) -/

theorem word_setClu (c o : Nat) (x : Cluster) : (s.setClu c x).word o = s.word o := rfl

theorem word_setVolt (c v o : Nat) (ho : o < 0x3408) : (s.setVolt c v).word o = s.word o := by
  unfold State.setVolt
  split
  · rfl
  · exact (State.word_wr_off _ _ _ _ (by dsimp only; omega)).trans (State.word_wr_off _ _ _ _ (by dsimp only; omega))

/-- A boost leaves the power domains' words. -/
theorem word_govBoost (c o : Nat) (hl : 0x3100 ≤ o) (hu : o < 0x3408) : (s.govBoost c).word o = s.word o := by
  unfold State.govBoost
  extract_lets x tab want ceil s1 s2
  have h1 : s1.word o = s.word o := by
    unfold s1
    split
    · exact State.word_wr_off _ _ _ _ (by dsimp only; omega)
    · rfl
  have h2 : s2.word o = s.word o := by
    unfold s2 State.wb State.inc State.satAdd
    rw [State.word_wr_off _ _ _ _ (by dsimp only; omega), State.word_wr_off _ _ _ _ (by dsimp only; omega),
      State.word_wr_off _ _ _ _ (by dsimp only; omega), word_setVolt _ _ _ hu, h1]
  split
  · rfl
  · rw [State.govClear, word_setClu, word_setClu, h2]

theorem domOn_of_word {d : Nat} (h : t.word (0x3100 + 0x4 * d) = s.word (0x3100 + 0x4 * d)) : t.domOn d = s.domOn d := by
  unfold State.domOn State.bit State.rd
  rw [h]

theorem getLsbD_wr_bit (off i : Nat) (hi : i < 32) : ((s.wr ⟨off, i, 1⟩ 1).word off).getLsbD i = true := by
  have h : fieldOf ((s.wr ⟨off, i, 1⟩ 1).word off) ⟨off, i, 1⟩ = 1 := s.rd_wr ⟨off, i, 1⟩ 1 (by dsimp only; omega)
  rw [BitVec.getLsbD, Nat.testBit_eq_decide_div_mod_eq]
  exact decide_eq_true h

theorem pend_edgeEvent (x : Cic) (n : Nat) (hn : n < 256) : (x.edgeEvent n).pend.getLsbD n = true := by
  unfold Cic.edgeEvent
  dsimp only
  split
  · assumption
  · split <;> simp [vecBit, hn]

theorem overrun_not_due (c : BitVec 6) (h : s.overrunDue c.toNat = false) : ∃ t, exec (.beatOverrun c) s = .next t ∧ Says.regsOnly s t [] := by
  refine ⟨s.settle, ?_, regsOnly_settle s rfl (words_refl s [])⟩
  show done (s.overrun c.toNat) = _
  unfold State.overrun
  rw [if_pos (by simp [h]), done_eq]

/-- The words of an overrun of cluster c: OVR_CNT, OVR_BEAT, OVR_SUM and BEAT_INT_STAT.OVERRUN. -/
def State.overrunWords (s : State) (c : Nat) : State :=
  (((s.inc (R.OVR_CNT_V c)).wr (R.OVR_BEAT_V c) s.beat.num.toNat).wr ⟨if c < 32 then R.OVR_SUM_LO else R.OVR_SUM_HI, c % 32, 1⟩ 1).set1
    R.BEAT_INT_STAT_OVERRUN

section words

variable (s) (c : Nat)

theorem sumOff_cases : (if c < 32 then R.OVR_SUM_LO else R.OVR_SUM_HI) = 0x40B0 ∨ (if c < 32 then R.OVR_SUM_LO else R.OVR_SUM_HI) = 0x40B4 := by
  split
  · exact Or.inl rfl
  · exact Or.inr rfl

theorem rd_overrunWords_cnt : (s.overrunWords c).rd (R.OVR_CNT_V c) = min (s.rd (R.OVR_CNT_V c) + 1) (2 ^ (R.OVR_CNT_V c).w - 1) := by
  have hs := sumOff_cases c
  unfold State.overrunWords State.set1 State.inc State.satAdd
  rw [State.rd_wr_off _ _ _ _ (by dsimp only; omega), State.rd_wr_off _ _ _ _ (by dsimp only; omega),
    State.rd_wr_off _ _ _ _ (by dsimp only; omega), State.rd_wr _ _ _ (by dsimp only; omega)]
  exact Nat.mod_eq_of_lt (lt_of_le_of_lt (min_le_right _ _) (by dsimp only; omega))

theorem sum_overrunWords : ((s.overrunWords c).word (if c < 32 then R.OVR_SUM_LO else R.OVR_SUM_HI)).getLsbD (c % 32) = true := by
  have hs := sumOff_cases c
  unfold State.overrunWords State.set1
  rw [State.word_wr_off _ _ _ _ (by dsimp only; omega)]
  exact getLsbD_wr_bit _ _ (Nat.mod_lt _ (by decide))

theorem bit_overrunWords : (s.overrunWords c).bit R.BEAT_INT_STAT_OVERRUN = true := State.bit_set1 _ _ (by decide) (by decide)

theorem beat_overrunWords : (s.overrunWords c).beat = s.beat := by
  unfold State.overrunWords State.set1 State.inc State.satAdd
  rw [State.wr_beat, State.wr_beat, State.wr_beat, State.wr_beat]

theorem word_overrunWords (o : Nat) (ho : o < 0x4000) : (s.overrunWords c).word o = s.word o := by
  have hs := sumOff_cases c
  unfold State.overrunWords State.set1 State.inc State.satAdd
  rw [State.word_wr_off _ _ _ _ (by dsimp only; omega), State.word_wr_off _ _ _ _ (by dsimp only; omega),
    State.word_wr_off _ _ _ _ (by dsimp only; omega), State.word_wr_off _ _ _ _ (by dsimp only; omega)]

theorem domOn_overrunWords (d : Nat) (hd : d < 0x300) : (s.overrunWords c).domOn d = s.domOn d :=
  domOn_of_word (word_overrunWords s c _ (by omega))

end words

theorem overrunWords_wrote (c : Nat) : s.Wrote (s.overrunWords c) := ((((State.Wrote.refl s).wr _ _).wr _ _).wr _ _).wr _ _

theorem foldl_countOvr (l : List Nat) : l.foldl (fun t i => t.countOvr i) s = { s with str := (l.foldl (fun t i => t.countOvr i) s).str } :=
  foldl_part State.str (fun u x => { u with str := x }) (fun _ => rfl) (fun _ _ _ => rfl) (fun _ _ => rfl) l

theorem rd_atTime (x : Int) (f : Fld) : ({ s with time := x } : State).rd f = s.rd f := rfl

theorem domOn_atTime (x : Int) (d : Nat) : ({ s with time := x } : State).domOn d = s.domOn d := rfl

theorem reached_setClu (c : Nat) (x : Cluster) (j : Nat) (m : BitVec 48) : (s.setClu c x).reached j m = s.reached j m := rfl

theorem core_setClu (c : Nat) (x : Cluster) (j : Nat) : (s.setClu c x).core j = s.core j := rfl

theorem word_of_hreg (h : t.hreg = s.hreg) (o : Nat) : t.word o = s.word o := by
  unfold State.word
  rw [h]

/-- The interrupt of source n reaches a CIC whose domain is on. -/
theorem pend_cicEdge (c n : Nat) (hc : c < 65) (hn : n < 256) (hd : s.domOn (domCic c) = true) : ((s.cicEdge c n).cic c).pend.getLsbD n = true := by
  unfold State.cicEdge
  rw [if_pos ⟨hc, hd⟩, State.cic_setCic_self]
  exact pend_edgeEvent _ _ hn

/-- What an overrun of cluster c has changed, but for its reports, once its words are written: the marks of the cores that did not
complete beat m, and source 66 of the cluster's CIC. -/
structure State.Overran (w u : State) (c : Nat) (m b : BitVec 48) : Prop where
  beat : u.beat = w.beat
  word : ∀ o, 0x4000 ≤ o → o < 0x5000 → u.word o = w.word o
  mem : u.mem = w.mem
  core : ∀ j, u.core j = if (∃ k ∈ List.range 16, j = 16 * c + k) ∧ w.reached j m = false then (w.core j).setOvr b else w.core j
  pend : (u.cic c).pend.getLsbD 66 = true

/-- From the words on: the marks, the counts, the boost and the interrupt. -/
theorem overran (w : State) (x : Cluster) (f : Streams → Streams) (l : List Nat) (c : Nat) (m b : BitVec 48) (hc : c < 64)
    (hr : w.beat.phase ≠ .stopped) (hd : w.domOn (domCluster c) = true) :
    w.Overran ((((l.foldl (fun t i => t.countOvr i) ((List.range 16).foldl (State.markCore c m b) (w.setClu c x))).onStr f).govBoost
      c).cicEdge c 66) c m b := by
  have hA := foldl_cores (s := w.setClu c x) (markCore_eq c m b) (List.range 16)
  have hcore := fun j => core_markCores c m b (List.range 16) j (w.setClu c x)
  generalize List.foldl (State.markCore c m b) (w.setClu c x) (List.range 16) = A at hA hcore ⊢
  have hB := foldl_countOvr (s := A) l
  generalize List.foldl (fun t i => t.countOvr i) A l = B at hB ⊢
  have hbeat : (B.onStr f).beat = w.beat := by rw [State.onStr_beat, hB]; show A.beat = _; rw [hA]; rfl
  have hreg : (B.onStr f).hreg = w.hreg := by rw [State.onStr_hreg, hB]; show A.hreg = _; rw [hA]; rfl
  have hmem : (B.onStr f).mem = w.mem := by rw [State.onStr_mem, hB]; show A.mem = _; rw [hA]; rfl
  have hcores : (B.onStr f).cores = A.cores := by rw [State.onStr_cores, hB]
  generalize B.onStr f = C at hbeat hreg hmem hcores ⊢
  have hC : C.Keeps true true (C.govBoost c) := (State.Keeps.refl (by rw [hbeat]; exact hr)).govBoost c hc
  have hdom : (C.govBoost c).domOn (domCic c) = true := by
    rw [domCic, if_pos hc, domOn_of_word ((word_govBoost c _ (by omega) (by unfold domCluster; omega)).trans (word_of_hreg hreg _)), hd]
  have hpend := pend_cicEdge c 66 (by omega) (by decide) hdom
  have hE := cicEdge_eq (s := C.govBoost c) c 66
  generalize C.govBoost c = D at hC hpend hE ⊢
  generalize D.cicEdge c 66 = E at hpend hE ⊢
  have hEbeat : E.beat = D.beat := by rw [hE]
  have hEreg : E.hreg = D.hreg := by rw [hE]
  have hEmem : E.mem = D.mem := by rw [hE]
  have hEcores : E.cores = A.cores := by rw [hE]; exact (hC.cores rfl).trans hcores
  refine ⟨hEbeat.trans ((hC.beat rfl).trans hbeat), fun o hl hu => ?_, hEmem.trans ((hC.mem rfl).trans hmem), fun j => ?_, hpend⟩
  · rw [word_of_hreg hEreg, hC.word rfl o hl hu, word_of_hreg hreg]
  · rw [State.core, hEcores]
    have hj := hcore j
    rw [reached_setClu, core_setClu] at hj
    exact hj

/-- An overrun that is due, step by step. -/
theorem overrun_eq (c : Nat) (h : s.overrunDue c = true) : ∃ (e : Int) (x : Cluster) (f : Streams → Streams) (l : List Nat), s.overrun c =
    ((((((l.foldl (fun t i => t.countOvr i) ((List.range 16).foldl (State.markCore c (s.beat.num - 1) s.beat.num)
      ((({ s with time := e } : State).overrunWords c).setClu c x))).onStr f).govBoost c).cicEdge c 66).whFault 0).overrunEvent c) := by
  unfold State.overrun
  rw [if_neg (by simp [h])]
  exact ⟨_, _, _, _, rfl⟩

/-- BEAT_OVERRUN that is due (R55, R123): counted, summed, pending as source 66, and marked at the cores that did not complete. -/
theorem exec_beatOverrun (c : BitVec 6) (h : s.overrunDue c.toNat = true) : ∃ t, exec (.beatOverrun c) s = .next t ∧
    t.rd (R.OVR_CNT_V c.toNat) = min (s.rd (R.OVR_CNT_V c.toNat) + 1) (2 ^ (R.OVR_CNT_V c.toNat).w - 1) ∧
    (t.word (if c.toNat < 32 then R.OVR_SUM_LO else R.OVR_SUM_HI)).getLsbD (c.toNat % 32) = true ∧ t.bit R.BEAT_INT_STAT_OVERRUN = true ∧
    (t.cic c.toNat).pend.getLsbD 66 = true ∧ t.mem = s.mem ∧
    (∀ k, k < 16 → (t.core (16 * c.toNat + k)).ovr = if s.reached (16 * c.toNat + k) (s.beat.num - 1) = true then (s.core (16 * c.toNat + k)).ovr
      else some (((s.core (16 * c.toNat + k)).ovr).getD s.beat.num)) ∧
    ∀ j, j / 16 ≠ c.toNat → t.core j = s.core j := by
  have hc : c.toNat < 64 := c.isLt
  refine ⟨(s.overrun c.toNat).settle, rfl, ?_⟩
  obtain ⟨e, x, f, l, heq⟩ := overrun_eq c.toNat h
  rw [heq]
  generalize c.toNat = n at hc h ⊢
  simp only [State.overrunDue, State.hasEdges, Bool.and_eq_true, bne_iff_ne] at h
  obtain ⟨⟨⟨⟨hr, -⟩, hd⟩, -⟩, -⟩ := h
  have hwrote := overrunWords_wrote (s := { s with time := e }) n
  have hdom := domOn_overrunWords { s with time := e } n
  have hcnt := rd_overrunWords_cnt { s with time := e } n
  have hsum := sum_overrunWords { s with time := e } n
  have hbit := bit_overrunWords { s with time := e } n
  have hbeat := beat_overrunWords { s with time := e } n
  rw [rd_atTime] at hcnt
  generalize State.overrunWords _ n = w at hwrote hdom hcnt hsum hbit hbeat ⊢
  have hwd : w.domOn (domCluster n) = s.domOn (domCluster n) := (hdom _ (by unfold domCluster; omega)).trans (domOn_atTime e _)
  have hwcore : ∀ j, w.core j = s.core j := fun j => congrArg (fun m => mget coreReset m j) hwrote.cores
  obtain ⟨hub, hword, hmem, hcore, hpend⟩ := overran w x f l n (s.beat.num - 1) s.beat.num hc (by rw [hbeat]; exact hr) (hwd.trans hd)
  generalize State.cicEdge _ n 66 = u at hub hword hmem hcore hpend ⊢
  have hk : u.Keeps true true ((u.whFault 0).overrunEvent n) :=
    ((State.Keeps.refl (by rw [hub, hbeat]; exact hr)).whFault 0).overrunEvent n
  generalize (u.whFault 0).overrunEvent n = v at hk ⊢
  have hv : ∀ o, 0x4000 ≤ o → o < 0x5000 → v.word o = w.word o := fun o hl hu => (hk.word rfl o hl hu).trans (hword o hl hu)
  have hvcore : ∀ j, v.core j = u.core j := fun j => congrArg (fun m => mget coreReset m j) (hk.cores rfl)
  have hreach : ∀ j, j / 16 = n → w.reached j (s.beat.num - 1) = s.reached j (s.beat.num - 1) := by
    rintro j rfl
    unfold State.reached
    rw [hwcore, hwd]
  refine ⟨?cnt, ?sum, ?bit, ?pend, (hk.mem rfl).trans (hmem.trans hwrote.mem), ?marked, ?others⟩
  case cnt =>
    rw [State.settle_rd, State.rd, hv _ (by dsimp only; omega) (by dsimp only; omega)]
    exact hcnt
  case sum =>
    have ho := sumOff_cases n
    rw [State.settle_word, hv _ (by omega) (by omega)]
    exact hsum
  case bit =>
    rw [State.settle_bit, State.bit, State.rd, hv _ (by decide) (by decide)]
    exact hbit
  case pend =>
    rw [State.settle_cic, State.cic, hk.cics rfl]
    exact hpend
  case marked =>
    intro k hkk
    rw [State.settle_core, hvcore, hcore, hreach _ (by omega), hwcore]
    cases hr : s.reached (16 * n + k) (s.beat.num - 1) with
    | true => rw [if_neg (fun h => absurd h.2 (by decide)), if_pos rfl]
    | false => rw [if_pos ⟨⟨k, List.mem_range.mpr hkk, rfl⟩, rfl⟩, if_neg (by decide), setOvr_ovr]
  case others =>
    intro j hj
    rw [State.settle_core, hvcore, hcore, if_neg, hwcore]
    rintro ⟨⟨k, hk, rfl⟩, -⟩
    have := List.mem_range.mp hk
    omega

end Sys2Proof.Machine

/-! PROOFS. EDGE, TIME_CAPTURE, BEAT_NUM_LO_READ, BEAT_OVERRUN and BEATREADY_POST (R18, R26, R27, R32, R55). -/

namespace Sys2Proof.Machine

open Sys2Proof

-- One proof after another, as in the tests: theorems checked side by side need more threads than the check's memory limit allows.
set_option Elab.async false

variable {s : State}

/-- A capture of the next edge (R27): EDGE set, DONE clear, the registers as they were. -/
theorem capture_edge_results (v : Reg32) (hv : v.getLsbD 0 = true) (he : v.getLsbD 1 = true) :
    ∃ u : State, exec (.timeCapture v) s = .next u.settle ∧ s.Wrote u ∧ (∀ o, o ≠ R.TIME_CAP_CTRL → u.word o = s.word o) ∧
      u.bit R.TIME_CAP_CTRL_EDGE = true ∧ u.bit R.TIME_CAP_CTRL_DONE = false ∧ u.beat = { s.beat with capEdge := true } :=
  ⟨_, exec_timeCapture_edge v hv he, captureArmed_wrote true, fun o => word_captureArmed true o, bit_captureArmed_edge true,
    bit_captureArmed_done true, beat_captureArmed true⟩

theorem packAt_captureArmed (edge : Bool) (e : Int) : (s.captureArmed edge).packAt e = s.packAt e := by
  unfold State.packAt
  rw [beat_captureArmed]

/-- A capture at once (R27): EDGE clear, DONE set, pack time and beat number in the capture registers. -/
theorem capture_now_results (v : Reg32) (hv : v.getLsbD 0 = true) (he : v.getLsbD 1 = false) :
    ∃ u : State, exec (.timeCapture v) s = .next u.settle ∧ s.Wrote u ∧
      Says.words s u [R.TIME_CAP_CTRL, R.TIME_CAP_FRAC, R.TIME_CAP_NS_LO, R.TIME_CAP_NS_HI, R.TIME_CAP_BEAT_LO, R.TIME_CAP_BEAT_HI] ∧
      u.bit R.TIME_CAP_CTRL_EDGE = false ∧ u.bit R.TIME_CAP_CTRL_DONE = true ∧ u.beat = { s.beat with capEdge := false } ∧
      (u.rdW R.TIME_CAP_NS_HI * 2 ^ 32 + u.rdW R.TIME_CAP_NS_LO) * 2 ^ 24 + u.rdW R.TIME_CAP_FRAC = (packTime s.packNow).toNat ∧
      u.rdW R.TIME_CAP_BEAT_HI * 2 ^ 32 + u.rdW R.TIME_CAP_BEAT_LO = s.beat.num.toNat := by
  refine ⟨_, exec_timeCapture_now v hv he, (captureArmed_wrote false).capture _ _, fun o ho => ?_, ?_, bit_capture_done _ _ _, ?_, ?_,
    beat_capture _ _⟩
  · rw [words_capture _ _ _ o ho]
    exact word_captureArmed false o fun h => ho (h ▸ List.mem_cons_self)
  · rw [State.bit, rd_capture_edge]
    exact bit_captureArmed_edge false
  · rw [capture_beat, beat_captureArmed]
  · rw [packTime_capture, packAt_captureArmed, State.packNow]

/-- A read of BEAT_NUM_LO answers bits 31:0 and latches bits 47:32 (R32). -/
theorem exec_beatNumLoRead (hn : s.beat.num.toNat / 2 ^ 32 < 2 ^ 32) : ∃ t, exec .beatNumLoRead s = .next t ∧
    t.rdW R.BEAT_NUM_HI = s.beat.num.toNat / 2 ^ 32 ∧ Says.words s t [R.BEAT_NUM_HI] ∧
    t.out = s.out ++ [.readData R.BEAT_NUM_LO (s.beat.num.toNat % 2 ^ 32)] ∧ t.beat = s.beat ∧ t.mem = s.mem := by
  have hlatch := rdW_wrW (s := s) R.BEAT_NUM_HI _ hn
  have hwords := words_setWord s R.BEAT_NUM_HI (BitVec.ofNat 32 (s.beat.num.toNat / 2 ^ 32))
  exact ⟨_, rfl, hlatch, hwords, rfl, rfl, rfl⟩

/-- Settles O36: nothing at work around an edge moves the grid of the beat or undoes time (State.Keeps), so the edge the grid has
next is the one EDGE leaves; captures, the latch of the beat number, overruns and notices are read off the registers they write. -/
theorem edgeAndCaptureResults : Obligations.EdgeAndCaptureResults := by
  unfold Obligations.EdgeAndCaptureResults
  intro s
  refine ⟨?edge, exec_edge_stopped, ?capture, ?latch, fun c => ⟨exec_beatOverrun c, overrun_not_due c⟩,
    fun c => ⟨exec_beatReadyPost c, exec_beatReadyPost_again c⟩⟩
  case edge =>
    intro hd hr _ hs hg hp _ _
    obtain ⟨t, hexec, hnext, hfirst, htime, hoff⟩ := exec_edge hd hr hs hg
    refine ⟨t, hexec, fun e he hle => ?_, fun hnone => ?_, hfirst, htime, hoff⟩
    · rw [edgeFrom_first hp he hle] at hnext
      exact ⟨congrArg Prod.fst hnext, congrArg Prod.snd hnext⟩
    · rw [edgeFrom_none hp hnone] at hnext
      exact ⟨congrArg Prod.fst hnext, congrArg Prod.snd hnext⟩
  case capture =>
    intro v hv
    cases he : v.getLsbD 1 with
    | true =>
      obtain ⟨u, hexec, hwrote, hword, hedge, hdone, hbeat⟩ := capture_edge_results (s := s) v hv he
      refine ⟨_, hexec, hwrote.beatOnly fun o ho => hword o fun h => ho (h ▸ List.mem_cons_self), ?_⟩
      rw [State.settle_bit, State.settle_bit, State.settle_beat, State.settle_word]
      exact ⟨hedge, hdone, hbeat, nofun, fun _ => hword _ (by decide)⟩
    | false =>
      obtain ⟨u, hexec, hwrote, hwords, hedge, hdone, hbeat, htime, hnum⟩ := capture_now_results (s := s) v hv he
      refine ⟨_, hexec, hwrote.beatOnly hwords, ?_⟩
      rw [State.settle_bit, State.settle_bit, State.settle_beat]
      exact ⟨hedge, hdone, hbeat, fun _ => ⟨htime, hnum⟩, nofun⟩
  case latch =>
    have hn : s.beat.num.toNat / 2 ^ 32 < 2 ^ 32 := by have := s.beat.num.isLt; omega
    exact exec_beatNumLoRead hn

end Sys2Proof.Machine

/-! PROOFS. A step on an empty queue (R28, R57). -/

namespace Sys2Proof.Machine

open Sys2Proof

/-- One REFCLK period in fifths of a unit: 6.4 ns x (1 + RATE_ADJ / 2^40), RATE_ADJ signed (R28). -/
theorem five_refclkU (s : State) : 5 * s.refclkU = 32 * (2 ^ 64 * 5 + 5 * 2 ^ 24 * (s.word R.RATE_ADJ).toInt) := by
  have hadj : ofSigned 32 (s.rdW R.RATE_ADJ) = (s.word R.RATE_ADJ).toInt := by
    rw [ofSigned_toInt 32 _ (by decide), State.rdW, BitVec.ofNat_toNat, BitVec.setWidth_eq]
  unfold State.refclkU
  rw [hadj]
  ring

/-- Settles O2: with no command waiting a step is `State.idle`, which lets one REFCLK period or one crystal tick pass. -/
theorem idleStep : Obligations.IdleStep := by
  unfold Obligations.IdleStep
  intro s hp
  have hstep : step s = .next s.idle := by unfold step; rw [hp]
  rw [hstep]
  refine ⟨fun hon => ⟨s.refclkU, five_refclkU s, ?_⟩, fun hoff => ?_⟩
  · rw [State.idle, if_pos hon]
  · rw [State.idle, if_neg (by rw [hoff]; decide), State.onBeat]

end Sys2Proof.Machine

/-! SUPPORT. Rows of the beat that write BAR0 words and the beat alone, on a node without a fabric link. -/

namespace Sys2Proof.Machine

open Sys2Proof

-- One proof after another, as in the tests: theorems checked side by side need more threads than the check's memory limit allows.
set_option Elab.async false

variable {s t u : State}

/-! ### A node without a link (R349) -/

/-- With no link in SYNC or UP nothing goes out to the pack, and no key is in use. -/
theorem packSettle_noLink (h : Says.noLink s) : s.packSettle = s := by
  have hl : fabPorts.any s.fpLive = false := h
  have hk : fabPorts.find? s.keysWorn = none := by
    rw [List.find?_eq_none]
    intro p hp
    have hdown := List.any_eq_false.mp hl p hp
    rw [State.fpLive, Bool.not_eq_true, Bool.or_eq_false_iff] at hdown
    simp [State.keysWorn, State.fpUp, hdown.2]
  unfold State.packSettle
  simp only [hl, Bool.and_false, Bool.false_and, Bool.false_eq_true, if_false, hk]

/-- Which links are live shows in the FP_STAT words. -/
theorem noLink_of_fpStat (h : Says.noLink s) (hw : ∀ p, p < 8 → t.word (R.FP_STAT p) = s.word (R.FP_STAT p)) : Says.noLink t := by
  have hl : fabPorts.any s.fpLive = false := h
  rw [List.any_eq_false] at hl
  refine List.any_eq_false.mpr fun p hp => ?_
  have hlive : t.fpLive p = s.fpLive p := by
    unfold State.fpLive State.fpState State.rd
    rw [hw p (by revert p; decide)]
  rw [hlive]
  exact hl p hp

/-- Bits 31:30 and 27:24 of a word written to BEAT_CTRL. -/
theorem toNat_srcSel (v : Reg32) : v.toNat / 2 ^ 24 % 16 = (v.extractLsb' 24 4).toNat := by
  rw [BitVec.extractLsb'_toNat, Nat.shiftRight_eq_div_pow]

/-! ### BAR0 words and the beat -/

/-- From s, u has been reached by changes of the beat and of the BAR0 words of l alone. -/
structure State.WroteIn (s u : State) (l : List Nat) : Prop where
  wrote : s.Wrote u
  words : Says.words s u l

namespace State.WroteIn

variable {l : List Nat}

theorem refl (s : State) (l : List Nat) : s.WroteIn s l := ⟨.refl s, words_refl s l⟩

theorem setWord (h : s.WroteIn u l) (off : Nat) (v : Reg32) (hm : off ∈ l := by decide) : s.WroteIn (u.setWord off v) l where
  wrote := h.wrote.setWord off v
  words o ho := by
    have hne : o ≠ off := fun e => ho (e ▸ hm)
    rw [State.word_setWord, if_neg hne]
    exact h.words o ho

theorem wr (h : s.WroteIn u l) (f : Fld) (v : Nat) (hm : f.off ∈ l := by decide) : s.WroteIn (u.wr f v) l := h.setWord f.off _ hm

theorem set1 (h : s.WroteIn u l) (f : Fld) (hm : f.off ∈ l := by decide) : s.WroteIn (u.set1 f) l := h.wr f _ hm

theorem wrW (h : s.WroteIn u l) (off v : Nat) (hm : off ∈ l := by decide) : s.WroteIn (u.wrW off v) l := h.setWord off _ hm

theorem onBeat (h : s.WroteIn u l) (f : Beat → Beat) : s.WroteIn (u.onBeat f) l := ⟨h.wrote.onBeat f, h.words⟩

theorem trans (h : s.WroteIn t l) (h' : t.WroteIn u l) : s.WroteIn u l := by
  obtain ⟨⟨r, b, rfl⟩, hw⟩ := h
  obtain ⟨⟨r', b', rfl⟩, hw'⟩ := h'
  exact ⟨⟨r', b', rfl⟩, fun o ho => (hw' o ho).trans (hw o ho)⟩

theorem ite {c : Prop} [Decidable c] (ht : s.WroteIn t l) (hu : s.WroteIn u l) : s.WroteIn (if c then t else u) l := by
  split <;> assumption

theorem mono {l' : List Nat} (h : s.WroteIn u l) (hl : l ⊆ l' := by decide) : s.WroteIn u l' :=
  ⟨h.wrote, fun o ho => h.words o fun hm => ho (hl hm)⟩

/-- Settled, such a state shows in those words and the beat alone. -/
theorem beatOnly (h : s.WroteIn u l) : Says.beatOnly s u.settle l := h.wrote.beatOnly h.words

/-- FP_STAT not being among the words, no link has come up. -/
theorem noLink (h : s.WroteIn u l) (hs : Says.noLink s) (hl : ∀ p, p < 8 → R.FP_STAT p ∉ l := by decide) : Says.noLink u :=
  noLink_of_fpStat hs fun p hp => h.words _ (hl p hp)

theorem packSettle (h : s.WroteIn u l) (hs : Says.noLink s) (hl : ∀ p, p < 8 → R.FP_STAT p ∉ l := by decide) : u.packSettle = u :=
  packSettle_noLink (h.noLink hs hl)

theorem rdW (h : s.WroteIn u l) (off : Nat) (hm : off ∉ l := by decide) : u.rdW off = s.rdW off := congrArg BitVec.toNat (h.words off hm)

theorem rd (h : s.WroteIn u l) (f : Fld) (hm : f.off ∉ l := by decide) : u.rd f = s.rd f := by
  unfold State.rd
  rw [h.words f.off hm]

theorem time (h : s.WroteIn u l) : u.time = s.time := by
  obtain ⟨r, b, rfl⟩ := h.wrote
  rfl

theorem periodU (h : s.WroteIn u l) (hi : R.PERIOD_ACT_INT ∉ l := by decide) (hf : R.PERIOD_ACT_FRAC ∉ l := by decide) :
    u.periodU = s.periodU := by
  unfold State.periodU
  rw [h.rdW _ hi, h.rdW _ hf]

end State.WroteIn

/-- A field of the same word that shares no bit with the one written. -/
theorem bit_wr_ne (f g : Fld) (v : Nat) (hf : f.lo + f.w ≤ 32 := by decide) (h : f.lo + f.w ≤ g.lo ∨ g.lo + g.w ≤ f.lo := by decide) :
    (s.wr f v).bit g = s.bit g := by
  unfold State.bit
  rw [State.rd_wr_ne _ _ _ _ hf h]

theorem bit_wr_off (f g : Fld) (v : Nat) (h : g.off ≠ f.off := by decide) : (s.wr f v).bit g = s.bit g := by
  unfold State.bit
  rw [State.rd_wr_off _ _ _ _ h]

theorem bit_wr_one (f : Fld) (hf : f.lo + f.w ≤ 32 := by decide) (hw : 1 % 2 ^ f.w = 1 := by decide) : (s.wr f 1).bit f = true := by
  unfold State.bit
  rw [State.rd_wr _ _ _ hf, hw]
  rfl

theorem bit_wr_zero (f : Fld) (hf : f.lo + f.w ≤ 32 := by decide) : (s.wr f 0).bit f = false := by
  unfold State.bit
  rw [State.rd_wr _ _ _ hf, Nat.zero_mod]
  rfl

theorem bit_onBeat (f : Beat → Beat) (x : Fld) : (s.onBeat f).bit x = s.bit x := rfl

/-! ### The grid and TAI -/

/-- The edge that the grid gives from an instant on is the first there (R33, R34). -/
theorem gridFrom_firstOnGrid (hp : 0 < s.periodU) (x : Int) : ∃ k : Nat, Says.firstOnGrid s x k ∧
    s.gridFrom x = (s.beat.num + BitVec.ofNat 48 k, s.beat.lastEdge + k * s.periodU) := by
  have hdm := Int.mul_ediv_add_emod (x - s.beat.lastEdge + s.periodU - 1) s.periodU
  have hmod := Int.emod_nonneg (x - s.beat.lastEdge + s.periodU - 1) hp.ne'
  have hlt := Int.emod_lt_of_pos (x - s.beat.lastEdge + s.periodU - 1) hp
  unfold Says.firstOnGrid State.gridFrom
  dsimp only
  generalize (x - s.beat.lastEdge + s.periodU - 1) / s.periodU = q at hdm ⊢
  generalize (x - s.beat.lastEdge + s.periodU - 1) % s.periodU = r at hdm hmod hlt
  generalize s.periodU = p at *
  have hk : (((max 1 q).toNat : Nat) : Int) = max 1 q := Int.toNat_of_nonneg (by omega)
  refine ⟨(max 1 q).toNat, ⟨by omega, ?_, ?_⟩, ?_⟩
  · rw [hk]
    have : q * p ≤ max 1 q * p := Int.mul_le_mul_of_nonneg_right (le_max_right _ _) hp.le
    nlinarith
  · rw [hk]
    by_cases hq : q ≤ 1
    · exact Or.inl (by omega)
    · right
      rw [max_eq_right (by omega)]
      nlinarith
  · rw [hk, ← hk, BitVec.ofInt_natCast, hk]

/-- TAI runs with the clock (R31). -/
theorem taiAt_add (x d : Int) : s.taiAt (x + d) = s.taiAt x + d := by
  unfold State.taiAt State.packRel State.packAt
  ring

theorem secU_pos : (0 : Int) < secU := by decide

/-- The next whole TAI second from an instant on. -/
theorem taiAt_nextSecond (x : Int) : s.taiAt (x + -s.taiAt x % secU) % secU = 0 := by
  rw [taiAt_add, Int.add_emod, Int.emod_emod_of_dvd _ (dvd_refl _), ← Int.add_emod, Int.add_right_neg, Int.zero_emod]

end Sys2Proof.Machine

/-! PROOFS. BEAT_RUN_START and BEAT_RUN_STOP (R33 to R35). -/

namespace Sys2Proof.Machine

open Sys2Proof

-- One proof after another, as in the tests: theorems checked side by side need more threads than the check's memory limit allows.
set_option Elab.async false

variable {s u : State} {v : Reg32} {a : Nat}

/-- A write of BEAT_CTRL that leaves SRC_SEL as it is takes ALIGN_SEC. -/
theorem beatCtrlRest_sameSel (h0 : s.rd R.BEAT_CTRL_SRC_SEL = 0) (hv : v.extractLsb' 24 4 = 0) :
    ∃ a, s.beatCtrlRest v = s.wr R.BEAT_CTRL_ALIGN_SEC a := by
  refine ⟨v.toNat / 2 ^ 30 % 2, ?_⟩
  unfold State.beatCtrlRest
  dsimp only
  rw [if_pos (by rw [toNat_srcSel, hv, h0]; rfl)]

/-- What a start with ALIGN_SEC a writes to BEAT_CTRL and BEAT_STAT before the beat itself starts, the servo being off. -/
def State.startWritten (s : State) (a : Nat) : State :=
  ((s.wr R.BEAT_CTRL_ALIGN_SEC a).wr R.BEAT_CTRL_RUN 1).wr R.BEAT_STAT_SRC_ACT 0

theorem startWritten_wroteIn : s.WroteIn (s.startWritten a) [R.BEAT_CTRL, R.BEAT_STAT] := (((State.WroteIn.refl s _).wr _ _).wr _ _).wr _ _

theorem startWritten_beat : (s.startWritten a).beat = s.beat := by
  rw [State.startWritten, State.wr_beat, State.wr_beat, State.wr_beat]

theorem startWritten_run : (s.startWritten a).bit R.BEAT_CTRL_RUN = true := (bit_wr_off _ _ _).trans (bit_wr_one _)

theorem startWritten_taiValid : (s.startWritten a).bit R.BEAT_STAT_TAI_VALID = s.bit R.BEAT_STAT_TAI_VALID :=
  (bit_wr_ne _ _ _).trans ((bit_wr_off _ _ _).trans (bit_wr_off _ _ _))

theorem startWritten_taiAt (x : Int) : (s.startWritten a).taiAt x = s.taiAt x := by
  have h := startWritten_wroteIn (s := s) (a := a)
  unfold State.taiAt State.packRel State.packAt State.epochTai
  rw [startWritten_beat, h.rdW R.EPOCH_TAI_SEC_HI, h.rdW R.EPOCH_TAI_SEC_LO, h.rdW R.EPOCH_TAI_NS]

/-- The first start since reset is numbered from BEAT_START (R33). -/
theorem freshStart_startWritten (align : Bool) : (s.startWritten a).freshStart align =
    (BitVec.ofNat 48 (s.rdW R.BEAT_START_HI * 2 ^ 32 + s.rdW R.BEAT_START_LO),
      if align ∧ s.bit R.BEAT_STAT_TAI_VALID then s.time + 20000 * nsU + -s.taiAt (s.time + 20000 * nsU) % secU
      else s.time + 20000 * nsU) := by
  have h := startWritten_wroteIn (s := s) (a := a)
  unfold State.freshStart
  dsimp only
  rw [h.rdW R.BEAT_START_HI, h.rdW R.BEAT_START_LO, startWritten_taiValid, startWritten_taiAt, h.time]
  simp only [Nat.reducePow]

theorem startWritten_gridFrom (x : Int) : (s.startWritten a).gridFrom x = s.gridFrom x := by
  unfold State.gridFrom
  rw [startWritten_wroteIn.periodU, startWritten_beat]

/-- A stopped beat: the words are written, and the beat starts as the role has it. -/
theorem beatRunStart_stopped (h0 : s.rd R.BEAT_CTRL_SRC_SEL = 0) (hv : v.extractLsb' 24 4 = 0) (hd : s.domOn domSteward = true)
    (hp : s.beat.phase = .stopped) : ∃ a, s.beatRunStart v =
      if s.leads then (s.startWritten a).startBeat (v.getLsbD 30)
      else if s.role = roleMember then (s.startWritten a).startMember
      else (s.startWritten a).onBeat (fun z => { z with startWait := true }) := by
  obtain ⟨a, ha⟩ := beatCtrlRest_sameSel h0 hv
  refine ⟨a, ?_⟩
  have hsrc : ((s.wr R.BEAT_CTRL_ALIGN_SEC a).wr R.BEAT_CTRL_RUN 1).rd R.BEAT_CTRL_SRC_SEL = 0 := by
    rw [State.rd_wr_ne _ _ _ _ (by decide) (by decide), State.rd_wr_ne _ _ _ _ (by decide) (by decide), h0]
  have hservo : ((s.wr R.BEAT_CTRL_ALIGN_SEC a).wr R.BEAT_CTRL_RUN 1).servoStart = s.startWritten a := by
    unfold State.servoStart
    rw [if_neg fun h => h.1 hsrc]
    rfl
  unfold State.beatRunStart
  dsimp only
  rw [ha, if_neg (by rw [hp]; decide), if_neg (by rw [hp, hd]; decide), hservo]

theorem leads_iff : s.leads = true ↔ s.role = roleAlone ∨ s.role = roleMaster := by
  simp [State.leads]

theorem exec_beatRunStart (hl : Says.noLink s) (hv : v.getLsbD 31 = true) {l : List Nat} (hu : s.beatRunStart v = u) (hw : s.WroteIn u l)
    (hfp : ∀ p, p < 8 → R.FP_STAT p ∉ l := by decide) : exec (.beatRunStart v) s = .next u.settle := by
  show doneIf (v.getLsbD 31) (s.beatRunStart v).packSettle = _
  rw [hu, hw.packSettle hl hfp, doneIf_true _ _ hv]

theorem exec_beatRunStop (hl : Says.noLink s) (hv : v.getLsbD 31 = false) {l : List Nat} (hu : s.beatRunStop v = u) (hw : s.WroteIn u l)
    (hfp : ∀ p, p < 8 → R.FP_STAT p ∉ l := by decide) : exec (.beatRunStop v) s = .next u.settle := by
  show doneIf (!v.getLsbD 31) (s.beatRunStop v).packSettle = _
  rw [hu, hw.packSettle hl hfp, doneIf_true _ _ (by rw [hv]; rfl)]

/-- A start by a node that leads: RUN and RUNNING set, the number kept, the first edge that of the role (R33). -/
theorem exec_beatRunStart_leads (hl : Says.noLink s) (h0 : s.rd R.BEAT_CTRL_SRC_SEL = 0) (hv : v.extractLsb' 24 4 = 0)
    (hd : s.domOn domSteward = true) (hrun : v.getLsbD 31 = true) (hr : s.role = roleAlone ∨ s.role = roleMaster)
    (hp : s.beat.phase = .stopped) :
    ∃ t a, exec (.beatRunStart v) s = .next t ∧ Says.beatOnly s t [R.BEAT_CTRL, R.BEAT_STAT] ∧ t.bit R.BEAT_CTRL_RUN = true ∧
      t.bit R.BEAT_STAT_RUNNING = true ∧ t.beat.num = s.beat.num ∧
      t.beat.first = some (if s.beat.everStarted then (s.startWritten a).gridFrom (s.time + 20000 * nsU)
        else (s.startWritten a).freshStart (v.getLsbD 30)) := by
  obtain ⟨a, ha⟩ := beatRunStart_stopped h0 hv hd hp
  rw [if_pos (leads_iff.mpr hr)] at ha
  have hw : s.WroteIn ((s.startWritten a).startBeat (v.getLsbD 30)) [R.BEAT_CTRL, R.BEAT_STAT] := (startWritten_wroteIn.onBeat _).wr _ _
  refine ⟨_, a, exec_beatRunStart hl hrun ha hw, hw.beatOnly, ?_⟩
  rw [State.settle_bit, State.settle_bit, State.settle_beat, State.startBeat, State.wr_beat, State.onBeat_beat, startWritten_beat,
    startWritten_wroteIn.time]
  exact ⟨(bit_wr_off _ _ _).trans ((bit_onBeat _ _).trans startWritten_run), bit_wr_one _, rfl, rfl⟩

/-- A member's start takes the first pack edge (R34). -/
theorem exec_beatRunStart_member (hl : Says.noLink s) (h0 : s.rd R.BEAT_CTRL_SRC_SEL = 0) (hv : v.extractLsb' 24 4 = 0)
    (hd : s.domOn domSteward = true) (hrun : v.getLsbD 31 = true) (hr : s.role = roleMember) (hp : s.beat.phase = .stopped) :
    ∃ t, exec (.beatRunStart v) s = .next t ∧ Says.beatOnly s t [R.BEAT_CTRL, R.BEAT_STAT] ∧
      t.beat.first = some (s.gridFrom s.time) ∧ t.bit R.BEAT_STAT_RUNNING = true := by
  have hlead : ¬ s.leads = true := by
    rw [leads_iff, hr]
    decide
  obtain ⟨a, ha⟩ := beatRunStart_stopped h0 hv hd hp
  rw [if_neg hlead, if_pos hr] at ha
  have hw : s.WroteIn (s.startWritten a).startMember [R.BEAT_CTRL, R.BEAT_STAT] := (startWritten_wroteIn.onBeat _).wr _ _
  refine ⟨_, exec_beatRunStart hl hrun ha hw, hw.beatOnly, ?_⟩
  rw [State.settle_bit, State.settle_beat, State.startMember, State.wr_beat, State.onBeat_beat, startWritten_wroteIn.time,
    startWritten_gridFrom]
  exact ⟨rfl, bit_wr_one _⟩

/-- In the stop sequence a start is ignored (R35). -/
theorem exec_beatRunStart_stopping (hl : Says.noLink s) (h0 : s.rd R.BEAT_CTRL_SRC_SEL = 0) (hv : v.extractLsb' 24 4 = 0)
    (hrun : v.getLsbD 31 = true) (hp : s.beat.phase = .stopRamp ∨ s.beat.phase = .stopLast) :
    ∃ t, exec (.beatRunStart v) s = .next t ∧ Says.beatOnly s t [R.BEAT_CTRL, R.BEAT_STAT] ∧
      t.beat = s.beat ∧ t.bit R.BEAT_CTRL_RUN = s.bit R.BEAT_CTRL_RUN ∧ t.word R.BEAT_STAT = s.word R.BEAT_STAT := by
  obtain ⟨a, ha⟩ := beatCtrlRest_sameSel h0 hv
  have heq : s.beatRunStart v = s.wr R.BEAT_CTRL_ALIGN_SEC a := by
    unfold State.beatRunStart
    dsimp only
    rw [if_pos hp, ha]
  have hw : s.WroteIn (s.wr R.BEAT_CTRL_ALIGN_SEC a) [R.BEAT_CTRL, R.BEAT_STAT] := (State.WroteIn.refl s _).wr _ _
  refine ⟨_, exec_beatRunStart hl hrun heq hw, hw.beatOnly, ?_⟩
  rw [State.settle_bit, State.settle_beat, State.settle_word]
  exact ⟨State.wr_beat _ _ _, bit_wr_ne _ _ _, State.word_wr_off _ _ _ _ (by decide)⟩

/-- A stop of a running beat begins the stop sequence (R35). -/
theorem exec_beatRunStop_running (hl : Says.noLink s) (h0 : s.rd R.BEAT_CTRL_SRC_SEL = 0) (hv : v.extractLsb' 24 4 = 0)
    (hrun : v.getLsbD 31 = false) (hp : s.beat.phase = .running) :
    ∃ t, exec (.beatRunStop v) s = .next t ∧ Says.beatOnly s t [R.BEAT_CTRL, R.BEAT_STAT] ∧ t.bit R.BEAT_CTRL_RUN = false ∧
      t.bit R.BEAT_STAT_STOPPING = true ∧ t.bit R.BEAT_STAT_RUNNING = s.bit R.BEAT_STAT_RUNNING ∧
      t.beat = { s.beat with phase := .stopRamp } := by
  obtain ⟨a, ha⟩ := beatCtrlRest_sameSel h0 hv
  have heq : s.beatRunStop v = (((s.wr R.BEAT_CTRL_ALIGN_SEC a).wr R.BEAT_CTRL_RUN 0).onBeat
      (fun z => { z with phase := .stopRamp })).wr R.BEAT_STAT_STOPPING 1 := by
    unfold State.beatRunStop State.stopBeat
    rw [ha, if_pos (by rw [State.wr_beat, State.wr_beat]; exact hp)]
  have hw := ((((State.WroteIn.refl s [R.BEAT_CTRL, R.BEAT_STAT]).wr R.BEAT_CTRL_ALIGN_SEC a).wr R.BEAT_CTRL_RUN 0).onBeat
    (fun z => { z with phase := .stopRamp })).wr R.BEAT_STAT_STOPPING 1
  refine ⟨_, exec_beatRunStop hl hrun heq hw, hw.beatOnly, ?_⟩
  rw [State.settle_bit, State.settle_bit, State.settle_bit, State.settle_beat, State.wr_beat, State.onBeat_beat, State.wr_beat,
    State.wr_beat]
  exact ⟨(bit_wr_off _ _ _).trans ((bit_onBeat _ _).trans (bit_wr_zero _)), bit_wr_one _,
    (bit_wr_ne _ _ _).trans ((bit_onBeat _ _).trans ((bit_wr_off _ _ _).trans (bit_wr_off _ _ _))), rfl⟩

/-- A stop of a stopped beat only clears RUN (R35). -/
theorem exec_beatRunStop_stopped (hl : Says.noLink s) (h0 : s.rd R.BEAT_CTRL_SRC_SEL = 0) (hv : v.extractLsb' 24 4 = 0)
    (hrun : v.getLsbD 31 = false) (hp : s.beat.phase = .stopped) :
    ∃ t, exec (.beatRunStop v) s = .next t ∧ Says.beatOnly s t [R.BEAT_CTRL, R.BEAT_STAT] ∧ t.bit R.BEAT_CTRL_RUN = false ∧
      t.word R.BEAT_STAT = s.word R.BEAT_STAT ∧ t.beat = { s.beat with startWait := false } := by
  obtain ⟨a, ha⟩ := beatCtrlRest_sameSel h0 hv
  have heq : s.beatRunStop v = ((s.wr R.BEAT_CTRL_ALIGN_SEC a).wr R.BEAT_CTRL_RUN 0).onBeat (fun z => { z with startWait := false }) := by
    unfold State.beatRunStop State.stopBeat
    rw [ha, if_neg (by rw [State.wr_beat, State.wr_beat, hp]; decide)]
  have hw := (((State.WroteIn.refl s [R.BEAT_CTRL, R.BEAT_STAT]).wr R.BEAT_CTRL_ALIGN_SEC a).wr R.BEAT_CTRL_RUN 0).onBeat
    (fun z => { z with startWait := false })
  refine ⟨_, exec_beatRunStop hl hrun heq hw, hw.beatOnly, ?_⟩
  rw [State.settle_bit, State.settle_word, State.settle_beat, State.onBeat_beat, State.wr_beat, State.wr_beat]
  exact ⟨(bit_onBeat _ _).trans (bit_wr_zero _),
    (word_onBeat _ _).trans ((State.word_wr_off _ _ _ _ (by decide)).trans (State.word_wr_off _ _ _ _ (by decide))), rfl⟩

/-- Settles O33: a write of BEAT_CTRL that leaves SRC_SEL writes BEAT_CTRL, BEAT_STAT and the beat alone; its first edge is that of
`State.gridFrom` or `State.freshStart`. -/
theorem beatStartStopResults : Obligations.BeatStartStopResults := by
  unfold Obligations.BeatStartStopResults
  intro s v hl h0 hv hd ws x
  refine ⟨fun hrun => ⟨?leads, ?member, exec_beatRunStart_stopping hl h0 hv hrun, ?stopIll⟩, fun hrun =>
    ⟨exec_beatRunStop_running hl h0 hv hrun, exec_beatRunStop_stopped hl h0 hv hrun, ?startIll⟩⟩
  case leads =>
    intro hr hp
    obtain ⟨t, a, hexec, honly, hctrl, hstat, hnum, hfirst⟩ := exec_beatRunStart_leads hl h0 hv hd hrun hr hp
    refine ⟨t, hexec, honly, hctrl, hstat, hnum, fun hever => ⟨fun hno => ?_, fun hal hta => ?_⟩, fun hever hper => ?_⟩
    · rw [hfirst, hever, if_neg (by decide), freshStart_startWritten, if_neg]
      rintro ⟨hal, hta⟩
      rcases hno with h | h
      · rw [h] at hal; cases hal
      · rw [h] at hta; cases hta
    · have hpos := Int.emod_nonneg (-s.taiAt x) secU_pos.ne'
      have hlt := Int.emod_lt_of_pos (-s.taiAt x) secU_pos
      refine ⟨x + -s.taiAt x % secU, ?_, by omega, by omega, taiAt_nextSecond x⟩
      rw [hfirst, hever, if_neg (by decide), freshStart_startWritten, if_pos ⟨hal, hta⟩]
    · obtain ⟨k, hk, hgrid⟩ := gridFrom_firstOnGrid hper x
      refine ⟨k, hk, ?_⟩
      rw [hfirst, if_pos hever, startWritten_gridFrom, hgrid]
  case member =>
    intro hr hp hper
    obtain ⟨t, hexec, honly, hfirst, hrunning⟩ := exec_beatRunStart_member hl h0 hv hd hrun hr hp
    obtain ⟨k, hk, hgrid⟩ := gridFrom_firstOnGrid hper s.time
    exact ⟨t, k, hexec, honly, hk, hfirst.trans (congrArg some hgrid), hrunning⟩
  case stopIll =>
    show doneIf (!v.getLsbD 31) _ = _
    rw [hrun]
    rfl
  case startIll =>
    show doneIf (v.getLsbD 31) _ = _
    rw [hrun]
    rfl

end Sys2Proof.Machine

/-! SUPPORT. What events, records and completions change (R409, R473, R482): the journal, the host interface, what leaves the
device, and the BAR0 words of the mailboxes, of the lost events, of host errors and of the journal. -/

namespace Sys2Proof.Machine

open Sys2Proof

-- One proof after another, as in the tests: theorems checked side by side need more threads than the check's memory limit allows.
set_option Elab.async false

/-- The BAR0 words in which events, records and completions are counted and shown. -/
def Reported (off : Nat) : Prop := 0x400 ≤ off ∧ off < 0x800 ∨ 0x808 ≤ off ∧ off < 0x810 ∨ 0x7000 ≤ off ∧ off < 0x8000 ∧ off ≠ 0x7004

/-- A property of states that no write made by an event or a completion ends; a channel keeps its session. -/
structure MailClosed (P : State → Prop) : Prop where
  setWord : ∀ {s : State} (off : Nat) (v : Reg32), P s → Reported off → P (s.setWord off v)
  onHost : ∀ {s : State} (f : HostIf → HostIf), P s → (∀ z, (f z).chans = z.chans) → P (s.onHost f)
  setChan : ∀ {s : State} (ch : Nat) (x : Chan), P s → x.sess = (s.chan ch).sess → P (s.setChan ch x)
  emit : ∀ {s : State} (o : Out), P s → P (s.emit o)

/-- One that the journal's own changes do not end either. -/
structure ReportClosed (P : State → Prop) : Prop extends MailClosed P where
  onJrn : ∀ {s : State} (f : Journal → Journal), P s → P (s.onJrn f)

variable {P : State → Prop} {s t : State}

theorem closed_ite {p : Prop} [Decidable p] (hs : P s) (ht : P t) : P (if p then s else t) := by
  split <;> assumption

namespace MailClosed

theorem wr (c : MailClosed P) (h : P s) (f : Fld) (v : Nat) (hf : Reported f.off := by unfold Reported; dsimp only; omega) :
    P (s.wr f v) := c.setWord f.off _ h hf

theorem set1 (c : MailClosed P) (h : P s) (f : Fld) (hf : Reported f.off := by unfold Reported; dsimp only; omega) : P (s.set1 f) :=
  c.wr h f _ hf

theorem inc (c : MailClosed P) (h : P s) (f : Fld) (hf : Reported f.off := by unfold Reported; dsimp only; omega) : P (s.inc f) :=
  c.wr h f _ hf

/-! ### Events -/

theorem hostEventAt (c : MailClosed P) (h : P s) (beat : BitVec 48) (code cls : Nat) (arg : List Octet) :
    P (s.hostEventAt beat code cls arg) := by
  unfold State.hostEventAt
  refine closed_ite h (List.foldlRecOn _ _ (closed_ite ?_ h) ?_)
  · exact closed_ite (c.inc (c.onHost _ h (by exact fun _ => rfl)) R.EVT_LOST_V) (c.onHost _ h (by exact fun _ => rfl))
  · intro u hu ch _
    exact closed_ite (closed_ite (c.inc (c.setChan _ _ hu (by exact rfl)) R.EVT_LOST_V) (c.setChan _ _ hu (by exact rfl))) hu

theorem hostEventDue (c : MailClosed P) (h : P s) (beat : BitVec 48) (code cls : Nat) (arg : List Octet) :
    P (s.hostEventDue beat code cls arg) := closed_ite (c.hostEventAt h _ _ _ _) (c.onHost _ h (by exact fun _ => rfl))

theorem discEvent (c : MailClosed P) (h : P s) (d : DiscRec) : P (s.discEvent d) := c.hostEventDue h _ _ _ _

/-! ### Completions -/

theorem mbHalt (c : MailClosed P) (h : P s) (m err : Nat) (hm : m < 16) : P (s.mbHalt m err) :=
  c.set1 (c.wr (c.wr h (R.MB_STAT_STATE m) 2) (R.MB_STAT_ERR m) err) (R.MB_EVT_HALT m)

theorem mbOff (c : MailClosed P) (h : P s) (m : Nat) (hm : m < 16) : P (s.mbOff m) :=
  c.wr (c.wr (c.wr (c.wr (c.wr (c.wr (c.wr h (R.MB_DB_TAIL m) 0) (R.MB_STAT_CHEAD m) 0) (R.MB_STAT_CTAIL m) 0) (R.MB_CPL_HEAD_V m) 0)
    (R.MB_STAT_ERR m) 0) (R.MB_CTRL_EN m) 0) (R.MB_STAT_STATE m) 0

theorem ringEntry (c : MailClosed P) (h : P s) (m tag status dlen cidx : Nat) (ext lost : Bool) (data : List Octet) (hm : m < 16) :
    P (s.ringEntry m tag status dlen cidx ext lost data) := c.setChan m _ (c.wr (c.emit _ h) (R.MB_STAT_CTAIL m) _) (by exact rfl)

theorem countDone (c : MailClosed P) (h : P s) (m : Nat) (hm : m < 16) : P ((s.inc (R.MB_DONE_V m)).set1 (R.MB_EVT_CPL m)) :=
  c.set1 (c.inc h (R.MB_DONE_V m)) (R.MB_EVT_CPL m)

theorem completeSmall (c : MailClosed P) (h : P s) (ch need : Nat) (hm : ch < 16) : P (s.completeSmall ch need) := by
  unfold State.completeSmall
  extract_lets x
  split
  · exact h
  · have hs := c.setChan ch { x with busy := none } h rfl
    exact closed_ite (c.mbHalt hs _ _ hm) (c.countDone (c.ringEntry hs _ _ _ _ _ _ _ _ hm) _ hm)

theorem svcSend (c : MailClosed P) (h : P s) (peer session seq tag status : Nat) (data : List Octet) :
    P (s.svcSend peer session seq tag status data) :=
  closed_ite h (List.foldlRecOn _ _ h fun _ hu _ _ => c.emit _ hu)

theorem endUnseen (c : MailClosed P) (h : P s) (ch : Nat) (discard : Bool) (hm : ch < 16) : P (s.endUnseen ch discard) := by
  unfold State.endUnseen
  extract_lets st s1
  have h1 : P s1 := closed_ite h (c.inc h (R.MB_DONE_V ch))
  exact closed_ite (c.mbOff h ch hm) (closed_ite (c.wr h1 (R.MB_STAT_STATE ch) 0) h1)

/-- A command that ends writes its completion, or ends unseen (R466, R473, R475). -/
theorem complete (c : MailClosed P) (h : P s) (ch status : Nat) (data : List Octet) : P (s.complete ch status data) := by
  unfold State.complete
  extract_lets x s1 ext
  split
  · exact h
  · extract_lets fail st d s2 s3 s4 s5
    have h1 : P s1 := c.setChan ch _ h (by exact rfl)
    have h2 : P s2 := closed_ite (c.set1 h1 R.HOST_ERR_DMA) h1
    have h3 : P s3 := closed_ite (c.emit _ h2) h2
    refine closed_ite h ?_
    by_cases hm : ch < 16
    · have h5 : P s5 := c.countDone (c.ringEntry h3 _ _ _ _ _ _ _ _ hm) ch hm
      exact closed_ite (closed_ite h1 (c.endUnseen h1 _ _ hm)) (closed_ite (c.completeSmall h _ _ hm)
        (closed_ite (closed_ite (c.mbHalt h3 _ _ hm) (closed_ite (c.wr h5 (R.MB_STAT_STATE ch) 0) h5)) (c.svcSend h1 _ _ _ _ _ _)))
    · rw [if_pos (Nat.le_of_not_lt hm), if_neg (c := ch < 16 ∧ _) fun hc => hm hc.1, if_neg hm]
      exact closed_ite h1 (c.svcSend h1 _ _ _ _ _ _)

end MailClosed

namespace ReportClosed

/-! ### The journal's intake -/

theorem setJState (c : ReportClosed P) (h : P s) (n : Nat) : P (s.setJState n) :=
  closed_ite h (c.hostEventAt (c.set1 (c.wr h R.J_STAT_STATE _) R.J_EVT_STATE) _ _ _ _)

theorem jCounts (c : ReportClosed P) (h : P s) : P s.jCounts :=
  c.wr (closed_ite h (c.wr (c.wr h R.BUF_USED_V _) R.BUF_USED_TOG _)) R.FREE_SEG_V _

theorem nvme (c : ReportClosed P) (h : P s) (p : Nat) (x : NvmeCmd) : P (s.nvme p x) := c.emit _ (c.onJrn _ h)

theorem closeAs (c : ReportClosed P) (h : P s) (chain flags : Nat) (filled fua : Bool) : P (s.closeAs chain flags filled fua) := by
  unfold State.closeAs
  split
  · exact h
  · exact c.jCounts (c.nvme (c.onJrn _ h) _ _)

theorem newBlock (c : ReportClosed P) (h : P s) (chain bflags : Nat) (ht : s.newBlock chain bflags = some t) : P t := by
  obtain ⟨x, -, rfl⟩ := Option.map_eq_some_iff.mp ht
  exact c.onJrn _ h

theorem putRec (c : ReportClosed P) (h : P s) (r : JRec) (flags : Nat) (ht : s.putRec r flags = some t) : P t := by
  unfold State.putRec at ht
  extract_lets oct chain fits put at ht
  have hput : ∀ u : State, P u → P (put u) := fun u hu => c.onJrn _ hu
  split at ht
  · exact Option.some.inj ht ▸ hput s h
  · obtain ⟨u, hu, rfl⟩ := Option.map_eq_some_iff.mp ht
    exact c.jCounts (hput u (c.newBlock (c.closeAs h _ _ _ _) _ _ hu))

theorem placeRec (c : ReportClosed P) (h : P s) (r : JRec) (ht : s.placeRec r = some t) : P t := by
  obtain ⟨u, hu, rfl⟩ := Option.map_eq_some_iff.mp ht
  exact c.jCounts (c.onJrn _ (c.putRec h _ _ hu))

theorem refuseRec (c : ReportClosed P) (h : P s) (r : JRec) : P (s.refuseRec r) := by
  have hm : P (s.markLoss r) := by
    unfold State.markLoss
    exact c.onJrn _ h
  unfold State.refuseRec
  split
  · exact c.set1 (c.inc hm R.DROP_ESS_V) R.J_EVT_DROP
  · exact c.set1 (c.inc hm R.DROP_BULK_V) R.J_EVT_DROP

theorem admitOne (c : ReportClosed P) (h : P s) (r : JRec) : P (s.admitOne r) := by
  unfold State.admitOne
  split
  · next t ht => exact c.placeRec h r ht
  · exact closed_ite (c.set1 (c.setJState (c.refuseRec h r) _) R.J_EVT_FULL) (c.refuseRec h r)

theorem ringRelease (c : ReportClosed P) (h : P s) : P s.ringRelease := by
  unfold State.ringRelease
  refine closed_ite ?_ h
  split
  · next t ht =>
    obtain ⟨g, -, hg⟩ := Option.bind_eq_some_iff.mp ht
    obtain ⟨u, hu, rfl⟩ := Option.map_eq_some_iff.mp hg
    exact c.closeAs (c.onJrn _ (c.placeRec h _ hu)) 0 0 false true
  · exact h

theorem offerRec (c : ReportClosed P) (h : P s) (r : JRec) : P (s.offerRec r) := by
  have hr := c.refuseRec h r
  have hm : P (s.markLoss r) := by
    unfold State.markLoss
    exact c.onJrn _ h
  have hq := c.ringRelease h
  have hqr := c.refuseRec hq r
  have hp : P ((splitParts r).foldl State.admitOne s.ringRelease) := List.foldlRecOn _ _ hq fun u hu x _ => c.admitOne hu x
  unfold State.offerRec
  exact closed_ite (closed_ite (c.inc hm R.PF_REFUSED_V) hr)
    (closed_ite (closed_ite hp (closed_ite hqr (closed_ite hqr (c.set1 hqr R.J_EVT_FULL)))) (closed_ite hr (closed_ite (c.onJrn _ h) hr)))

end ReportClosed

/-- From o, s has been reached by events, records and completions alone. -/
structure State.Told (o s : State) : Prop where
  shape : ∃ r e j h, s = { o with hreg := r, out := e, jrn := j, host := h }
  words : ∀ off, ¬ Reported off → s.word off = o.word off
  wf : mapWf wordReset o.hreg = true → mapWf wordReset s.hreg = true

namespace State.Told

variable {o s t : State}

theorem refl (s : State) : s.Told s := ⟨⟨_, _, _, _, rfl⟩, fun _ _ => rfl, id⟩

theorem trans (h : o.Told s) (h' : s.Told t) : o.Told t where
  shape := by
    obtain ⟨r, e, j, x, rfl⟩ := h.shape
    obtain ⟨r', e', j', x', rfl⟩ := h'.shape
    exact ⟨r', e', j', x', rfl⟩
  words off hoff := (h'.words off hoff).trans (h.words off hoff)
  wf := h'.wf ∘ h.wf

theorem setWord (h : o.Told s) (off : Nat) (v : Reg32) (hoff : Reported off) : o.Told (s.setWord off v) where
  shape := by
    obtain ⟨r, e, j, x, rfl⟩ := h.shape
    exact ⟨_, e, j, x, rfl⟩
  words y hy := by
    have hne : y ≠ off := fun he => hy (he ▸ hoff)
    rw [State.word_setWord, if_neg hne]
    exact h.words y hy
  wf hw := mapWf_mset _ _ _ _ (h.wf hw)

theorem onJrn (h : o.Told s) (f : Journal → Journal) : o.Told (s.onJrn f) := by
  obtain ⟨⟨r, e, j, x, rfl⟩, hw, hf⟩ := h
  exact ⟨⟨r, e, _, x, rfl⟩, hw, hf⟩

theorem onHost (h : o.Told s) (f : HostIf → HostIf) : o.Told (s.onHost f) := by
  obtain ⟨⟨r, e, j, x, rfl⟩, hw, hf⟩ := h
  exact ⟨⟨r, e, j, _, rfl⟩, hw, hf⟩

theorem emit (h : o.Told s) (x : Out) : o.Told (s.emit x) := by
  rcases s.emit_or x with he | he
  · rw [he]
    exact h
  · rw [he]
    obtain ⟨⟨r, e, j, x, rfl⟩, hw, hf⟩ := h
    exact ⟨⟨r, _, j, x, rfl⟩, hw, hf⟩

theorem reportClosed (o : State) : ReportClosed o.Told where
  setWord off v h hoff := h.setWord off v hoff
  onJrn f h := h.onJrn f
  onHost f h _ := h.onHost f
  setChan _ _ h _ := h.onHost _
  emit x h := h.emit x

theorem rd (h : o.Told s) (f : Fld) (hf : ¬ Reported f.off := by unfold Reported; dsimp only; omega) : s.rd f = o.rd f := by
  unfold State.rd
  rw [h.words f.off hf]

theorem bit (h : o.Told s) (f : Fld) (hf : ¬ Reported f.off := by unfold Reported; dsimp only; omega) : s.bit f = o.bit f := by
  unfold State.bit
  rw [h.rd f hf]

theorem noLink (h : o.Told s) (hl : Says.noLink o) : Says.noLink s :=
  noLink_of_fpStat hl fun p hp => h.words _ (by unfold Reported R.FP_STAT; omega)

theorem offerRec (s : State) (r : JRec) : s.Told (s.offerRec r) := (reportClosed s).offerRec (refl s) r

theorem discEvent (s : State) (d : DiscRec) : s.Told (s.discEvent d) := (reportClosed s).discEvent (refl s) d

theorem complete (s : State) (ch status : Nat) (data : List Octet) : s.Told (s.complete ch status data) :=
  (reportClosed s).complete (refl s) ch status data

end State.Told

end Sys2Proof.Machine

/-! SUPPORT. The lock state and the servo's update (R37, R38), with LOCK not HOLDOVER. -/

namespace Sys2Proof.Machine

open Sys2Proof

-- One proof after another, as in the tests: theorems checked side by side need more threads than the check's memory limit allows.
set_option Elab.async false

variable {s t u : State} {l : List Nat}

/-! ### Words and fields -/

theorem wrW_beat (off v : Nat) : (s.wrW off v).beat = s.beat := rfl

theorem set1_beat (f : Fld) : (s.set1 f).beat = s.beat := by rw [State.set1, State.wr_beat]

theorem rd_wrW_ne (off v : Nat) (f : Fld) (h : f.off ≠ off := by decide) : (s.wrW off v).rd f = s.rd f := by
  unfold State.rd
  rw [word_wrW_ne _ _ _ h]

theorem rd_set1_off (f g : Fld) (h : g.off ≠ f.off := by decide) : (s.set1 f).rd g = s.rd g := by
  rw [State.set1, State.rd_wr_off _ _ _ _ h]

theorem rd_of_hreg (h : t.hreg = s.hreg) (f : Fld) : t.rd f = s.rd f := by
  unfold State.rd
  rw [word_of_hreg h]

theorem bit_of_hreg (h : t.hreg = s.hreg) (f : Fld) : t.bit f = s.bit f := by
  unfold State.bit
  rw [rd_of_hreg h]

/-- Seen from s, whatever values the spec leaves open have been taken (log 1), with changes of the beat and of the words of l alone. -/
def State.FreeIn (s u : State) (l : List Nat) : Prop := ∃ n, ({ s with free := n } : State).WroteIn u l

namespace State.FreeIn

theorem of_wroteIn (h : s.WroteIn u l) : s.FreeIn u l := ⟨s.free, h⟩

theorem refl (s : State) (l : List Nat) : s.FreeIn s l := of_wroteIn (.refl s l)

theorem step (h : s.FreeIn t l) (hu : t.WroteIn u l) : s.FreeIn u l := by
  obtain ⟨n, ⟨r, b, rfl⟩, hw⟩ := h
  obtain ⟨⟨r', b', rfl⟩, hw'⟩ := hu
  exact ⟨n, ⟨r', b', rfl⟩, fun o ho => (hw' o ho).trans (hw o ho)⟩

theorem freeNext (h : s.FreeIn u l) : s.FreeIn u.freeNext l := by
  obtain ⟨n, ⟨r, b, rfl⟩, hw⟩ := h
  exact ⟨n + 1, ⟨r, b, rfl⟩, hw⟩

theorem ite {c : Prop} [Decidable c] (ht : s.FreeIn t l) (hu : s.FreeIn u l) : s.FreeIn (if c then t else u) l := by
  split <;> assumption

theorem words (h : s.FreeIn u l) : Says.words s u l := by
  obtain ⟨n, hn⟩ := h
  exact hn.words

theorem mem (h : s.FreeIn u l) : u.mem = s.mem := by
  obtain ⟨n, hn⟩ := h
  exact hn.wrote.mem

theorem cores (h : s.FreeIn u l) : u.cores = s.cores := by
  obtain ⟨n, hn⟩ := h
  exact hn.wrote.cores

theorem host (h : s.FreeIn u l) : u.host = s.host := by
  obtain ⟨n, ⟨r, b, rfl⟩, hw⟩ := h
  rfl

theorem rd (h : s.FreeIn u l) (f : Fld) (hm : f.off ∉ l := by decide) : u.rd f = s.rd f := by
  unfold State.rd
  rw [h.words f.off hm]

theorem packSettle (h : s.FreeIn u l) (hs : Says.noLink s) (hl : ∀ p, p < 8 → R.FP_STAT p ∉ l := by decide) : u.packSettle = u :=
  packSettle_noLink (noLink_of_fpStat hs fun p hp => h.words _ (hl p hp))

end State.FreeIn

/-! ### LOCK (R38) -/

/-- LOCK changes between states other than HOLDOVER: no record, and BEAT_INT_STAT.LOCK_CHG. -/
theorem setLock_low {n : Nat} (hl : s.rd R.BEAT_STAT_LOCK < 3) (hn : n < 3) :
    s.setLock n = if s.rd R.BEAT_STAT_LOCK = n then s else (s.wr R.BEAT_STAT_LOCK n).set1 R.BEAT_INT_STAT_LOCK_CHG := by
  have h3 : s.rd R.BEAT_STAT_LOCK ≠ lockHoldover := by unfold lockHoldover; omega
  have hn3 : n ≠ lockHoldover := by unfold lockHoldover; omega
  unfold State.setLock
  dsimp only
  rw [if_neg h3, if_neg hn3]

section setLock

variable {n : Nat} (hl : s.rd R.BEAT_STAT_LOCK < 3) (hn : n < 3)
include hl hn

theorem setLock_wroteIn : s.WroteIn (s.setLock n) [R.BEAT_STAT, R.BEAT_INT_STAT] := by
  rw [setLock_low hl hn]
  exact .ite (.refl _ _) (((State.WroteIn.refl _ _).wr _ _).set1 _)

theorem setLock_beat : (s.setLock n).beat = s.beat := by
  rw [setLock_low hl hn]
  split
  · rfl
  · rw [set1_beat, State.wr_beat]

theorem rd_setLock : (s.setLock n).rd R.BEAT_STAT_LOCK = n := by
  rw [setLock_low hl hn]
  split
  · next h => exact h
  · rw [rd_set1_off _ _, State.rd_wr _ _ _ (by decide)]
    exact Nat.mod_eq_of_lt (by dsimp only; omega)

/-- BEAT_STAT's other fields. -/
theorem rd_setLock_ne (g : Fld) (hg : g.off ≠ R.BEAT_INT_STAT := by decide) (h : g.lo + g.w ≤ 20 ∨ 24 ≤ g.lo := by decide) :
    (s.setLock n).rd g = s.rd g := by
  rw [setLock_low hl hn]
  split
  · rfl
  · rw [rd_set1_off _ _ hg, State.rd_wr_ne _ R.BEAT_STAT_LOCK g _ (by decide) h.symm]

theorem bit_setLock_changed :
    (s.setLock n).bit R.BEAT_INT_STAT_LOCK_CHG = (s.bit R.BEAT_INT_STAT_LOCK_CHG || s.rd R.BEAT_STAT_LOCK != n) := by
  rw [setLock_low hl hn]
  split
  · next h => rw [h, bne_self_eq_false, Bool.or_false]
  · next h => rw [State.bit_set1 _ _ (by decide) (by decide), bne_iff_ne.mpr h, Bool.or_true]

end setLock

/-! ### The servo's update (R37) -/

/-- Without a source, or on a node that does not lead, an update does nothing. -/
theorem refUpdate_off (off : Int) (h : s.servoOn = false) : s.refUpdate off = s := by
  unfold State.refUpdate
  rw [h]
  rfl

/-- An update leaves DISC_STAT and steps, or slews and counts. -/
def State.stepDue (s : State) (off : Int) : State := s.onBeat (fun z => { z with consec := 0, pendStep := some (-off, 1) })

/-- Updates in a row within the lock limit, with this one. -/
def State.inLimit (s : State) (off : Int) : Nat :=
  if (off.natAbs : Int) < 2 ^ s.rd R.DISC_CTRL_LOCK_EXP * nsU then s.beat.consec + 1 else 0

/-- The offset that DISC_STAT shows (R37). -/
def State.showOffset (s : State) (off : Int) : State :=
  s.wrW R.DISC_STAT (toSigned 32 (clampInt (-2147483648) 2147483647 (roundAway off nsU.toNat)))

theorem showOffset_wroteIn (off : Int) : s.WroteIn (s.showOffset off) [R.DISC_STAT] := (State.WroteIn.refl s _).wrW _ _

theorem showOffset_beat (off : Int) : (s.showOffset off).beat = s.beat := wrW_beat _ _

/-- An update of a working servo that is not in HOLDOVER. -/
theorem refUpdate_on (off : Int) (hs : s.servoOn = true) (hl : s.rd R.BEAT_STAT_LOCK < 3) : s.refUpdate off =
    if 2 ^ min (s.rd R.DISC_CTRL_STEP_EXP) 30 * nsU ≤ (off.natAbs : Int) then
      if s.rd R.BEAT_STAT_LOCK = 2 then ((s.showOffset off).stepDue off).setLock 1 else (s.showOffset off).stepDue off
    else if s.rd R.BEAT_STAT_LOCK = 1 ∧ max 1 (s.rd R.DISC_CTRL_LOCK_N) ≤ s.inLimit off then
      ((s.showOffset off).slew.onBeat (fun z => { z with consec := s.inLimit off })).setLock 2
    else (s.showOffset off).slew.onBeat (fun z => { z with consec := s.inLimit off }) := by
  have hlock : (s.showOffset off).rd R.BEAT_STAT_LOCK = s.rd R.BEAT_STAT_LOCK := (showOffset_wroteIn off).rd _
  have h3 : (s.showOffset off).rd R.BEAT_STAT_LOCK ≠ lockHoldover := by rw [hlock]; unfold lockHoldover; omega
  have hslew : ∀ f, ((s.showOffset off).slew.onBeat f).rd R.BEAT_STAT_LOCK = s.rd R.BEAT_STAT_LOCK := by
    intro f
    unfold State.slew
    rw [rd_onBeat]
    split
    · exact hlock
    · exact (rd_wrW_ne _ _ _).trans hlock
  have hstep : ((s.showOffset off).stepDue off).rd R.BEAT_STAT_LOCK = s.rd R.BEAT_STAT_LOCK := (rd_onBeat _ _).trans hlock
  unfold State.refUpdate
  rw [if_neg (by rw [hs]; decide)]
  extract_lets s0 s1 mag s2 n s3
  have h1 : s1 = s.showOffset off := if_neg h3
  clear_value s1
  subst h1
  have hn : n = s.inLimit off := by
    unfold State.inLimit
    rw [← showOffset_beat off]
  clear_value n
  subst hn
  have h2 : s2.rd R.BEAT_STAT_LOCK = s.rd R.BEAT_STAT_LOCK := hstep
  have hs3 : s3.rd R.BEAT_STAT_LOCK = s.rd R.BEAT_STAT_LOCK := hslew _
  rw [h2, hs3]
  rfl

/-- Without slewing a working servo's update is that of R37 and R38. -/
theorem refUpdate_steered (off : Int) (hs : s.servoOn = true) (hl : s.rd R.BEAT_STAT_LOCK < 3) (hw : s.rd R.DISC_CTRL_SLEW_MAX = 0) :
    Says.steered s (s.refUpdate off) off := by
  have hshow := showOffset_wroteIn (s := s) off
  have hlock : (s.showOffset off).rd R.BEAT_STAT_LOCK = s.rd R.BEAT_STAT_LOCK := hshow.rd _
  have hslew : (s.showOffset off).slew = s.showOffset off := if_pos ((hshow.rd R.DISC_CTRL_SLEW_MAX).trans hw)
  have hstep : ((s.showOffset off).stepDue off).rd R.BEAT_STAT_LOCK = s.rd R.BEAT_STAT_LOCK := (rd_onBeat _ _).trans hlock
  rw [refUpdate_on off hs hl, hslew]
  refine ⟨fun hbig => ?_, fun hsmall => ?_⟩
  · rw [if_pos hbig]
    split
    · have hlow : ((s.showOffset off).stepDue off).rd R.BEAT_STAT_LOCK < 3 := hstep ▸ hl
      rw [setLock_beat hlow (by decide), rd_setLock hlow (by decide)]
      exact ⟨rfl, rfl, rfl⟩
    · exact ⟨rfl, rfl, hstep⟩
  · rw [if_neg (Int.not_le.mpr hsmall)]
    have hkeep : ∀ f, ((s.showOffset off).onBeat f).rd R.BEAT_STAT_LOCK = s.rd R.BEAT_STAT_LOCK := fun f => (rd_onBeat _ _).trans hlock
    have hlow : ∀ f, ((s.showOffset off).onBeat f).rd R.BEAT_STAT_LOCK < 3 := fun f => (hkeep f).symm ▸ hl
    split
    · next hc =>
      rw [setLock_beat (hlow _) (by decide), rd_setLock (hlow _) (by decide), State.onBeat_beat, showOffset_beat, if_pos hc]
      exact ⟨rfl, rfl, rfl⟩
    · next hc =>
      rw [hkeep, State.onBeat_beat, showOffset_beat, if_neg hc]
      exact ⟨rfl, rfl, rfl⟩

/-- The words an update may write: LOCK and its event, DISC_STAT, and RATE_ADJ where it slews. -/
def updateWords : List Nat := [R.BEAT_STAT, R.BEAT_INT_STAT, R.DISC_STAT, R.RATE_ADJ]

/-- From s, u differs as an update of the servo lets it, LOCK not being HOLDOVER. -/
structure State.Updated (s u : State) : Prop where
  frame : s.FreeIn u updateWords
  beat : ∃ p c, u.beat = { s.beat with pendStep := p, consec := c }
  low : u.rd R.BEAT_STAT_LOCK < 3
  rest : ∀ g : Fld, g.off = R.BEAT_STAT → g.lo + g.w ≤ 20 ∨ 24 ≤ g.lo → u.rd g = s.rd g
  rate : s.rd R.DISC_CTRL_SLEW_MAX = 0 → u.word R.RATE_ADJ = s.word R.RATE_ADJ

namespace State.Updated

theorem refl (hl : s.rd R.BEAT_STAT_LOCK < 3) : s.Updated s := ⟨.refl _ _, ⟨_, _, rfl⟩, hl, fun _ _ _ => rfl, fun _ => rfl⟩

theorem showOffset (h : s.Updated u) (off : Int) : s.Updated (u.showOffset off) where
  frame := h.frame.step ((State.WroteIn.refl u _).wrW _ _)
  beat := (showOffset_beat (s := u) off).symm ▸ h.beat
  low := ((showOffset_wroteIn off).rd R.BEAT_STAT_LOCK).symm ▸ h.low
  rest g hg hb := ((showOffset_wroteIn off).rd g (by rw [hg]; decide)).trans (h.rest g hg hb)
  rate hw := ((showOffset_wroteIn off).words R.RATE_ADJ (by decide)).trans (h.rate hw)

theorem onBeat (h : s.Updated u) (f : Beat → Beat) (hf : ∀ z, ∃ p c, f z = { z with pendStep := p, consec := c }) : s.Updated (u.onBeat f) where
  frame := h.frame.step ((State.WroteIn.refl u _).onBeat f)
  beat := by
    obtain ⟨p, c, hb⟩ := h.beat
    obtain ⟨q, d, hq⟩ := hf u.beat
    exact ⟨q, d, by rw [State.onBeat_beat, hq, hb]⟩
  low := h.low
  rest := h.rest
  rate := h.rate

theorem slew (h : s.Updated u) : s.Updated u.slew := by
  unfold State.slew
  dsimp only
  split
  · exact h
  · next hw =>
    refine ⟨h.frame.freeNext.step ((State.WroteIn.refl _ _).wrW _ _), h.beat, ?_, fun g hg hb => ?_, fun h0 => ?_⟩
    · rw [rd_wrW_ne _ _ _]
      exact h.low
    · rw [rd_wrW_ne _ _ g (by rw [hg]; decide)]
      exact h.rest g hg hb
    · exact absurd ((h.frame.rd R.DISC_CTRL_SLEW_MAX).trans h0) hw

theorem setLock (h : s.Updated u) {n : Nat} (hn : n < 3) : s.Updated (u.setLock n) where
  frame := h.frame.step ((setLock_wroteIn h.low hn).mono (by decide))
  beat := (setLock_beat h.low hn).symm ▸ h.beat
  low := (rd_setLock h.low hn).symm ▸ hn
  rest g hg hb := (rd_setLock_ne h.low hn g (by rw [hg]; decide) hb).trans (h.rest g hg hb)
  rate hw := ((setLock_wroteIn h.low hn).words R.RATE_ADJ (by decide)).trans (h.rate hw)

theorem ite {c : Prop} [Decidable c] (ht : s.Updated t) (hu : s.Updated u) : s.Updated (if c then t else u) := by
  split <;> assumption

/-- An update, whether the servo works or not. -/
theorem refUpdate (h : s.Updated u) (off : Int) : s.Updated (u.refUpdate off) := by
  cases hs : u.servoOn with
  | false => exact (refUpdate_off off hs).symm ▸ h
  | true =>
    rw [refUpdate_on off hs h.low]
    have hstep : s.Updated ((u.showOffset off).stepDue off) := (h.showOffset off).onBeat _ fun _ => ⟨_, _, rfl⟩
    have hcount : s.Updated ((u.showOffset off).slew.onBeat (fun z => { z with consec := u.inLimit off })) :=
      (h.showOffset off).slew.onBeat _ fun _ => ⟨_, _, rfl⟩
    exact ite (ite (hstep.setLock (by decide)) hstep) (ite (hcount.setLock (by decide)) hcount)

end State.Updated

theorem refUpdate_updated (off : Int) (hl : s.rd R.BEAT_STAT_LOCK < 3) : s.Updated (s.refUpdate off) := (State.Updated.refl hl).refUpdate off

/-- The servo works on a node that leads, with a source, while no record of a wake waits (R37, R60). -/
theorem servoOn_eq (hr : s.role = roleAlone ∨ s.role = roleMaster) (hsel : s.rd R.BEAT_CTRL_SRC_SEL ≠ 0)
    (hp : s.bit R.BEAT_STAT_DISC_PEND = false) : s.servoOn = true := by
  unfold State.servoOn
  rw [leads_iff.mpr hr, hp, bne_iff_ne.mpr hsel]
  rfl

/-- An update shows in LOCK, the step due and the count; what else of the state differs does not matter. -/
theorem steered_of_same {off : Int} (hl : u.rd R.BEAT_STAT_LOCK = s.rd R.BEAT_STAT_LOCK) (hw : u.word R.DISC_CTRL = s.word R.DISC_CTRL)
    (hp : u.beat.pendStep = s.beat.pendStep) (hc : u.beat.consec = s.beat.consec) (h : Says.steered u t off) : Says.steered s t off := by
  have hd : ∀ f : Fld, f.off = R.DISC_CTRL → u.rd f = s.rd f := fun f hf => by unfold State.rd; rw [hf, hw]
  unfold Says.steered at h ⊢
  rw [hl, hd R.DISC_CTRL_STEP_EXP rfl, hd R.DISC_CTRL_LOCK_EXP rfl, hd R.DISC_CTRL_LOCK_N rfl, hp, hc] at h
  exact h

theorem steered_settle {off : Int} (h : Says.steered s u off) : Says.steered s u.settle off := by
  unfold Says.steered at h ⊢
  rw [State.settle_beat, State.settle_rd]
  exact h

end Sys2Proof.Machine

/-! PROOFS. SRC_SEL_WRITE, PPS_PULSE, REFERENCE_TIMEOUT and SERVO_RESUME (R37, R38, R40, R60, R61). -/

namespace Sys2Proof.Machine

open Sys2Proof

-- One proof after another, as in the tests: theorems checked side by side need more threads than the check's memory limit allows.
set_option Elab.async false

variable {s t u : State} {l : List Nat}

/-! ### The source (R38) -/

theorem exec_srcSelWrite (sel : BitVec 4) (hl : Says.noLink s) (hu : s.srcSelWrite sel.toNat = u) (hw : s.WroteIn u l)
    (hfp : ∀ p, p < 8 → R.FP_STAT p ∉ l := by decide) : exec (.srcSelWrite sel) s = .next u.settle := by
  show done (s.srcSelWrite sel.toNat).packSettle = _
  rw [hu, hw.packSettle hl hfp, done_eq]

/-- SRC_SEL takes a new value: IRIG_STAT.VALID clears but for source 2, and what the old source began is dropped. -/
def State.sourceTaken (s : State) (sel : Nat) : State :=
  ((if sel = 2 then s else s.wr R.IRIG_STAT_VALID 0).wr R.BEAT_CTRL_SRC_SEL sel).onBeat
    (fun z => { z with irigLast := none, beatInLast := none })

theorem sourceTaken_wroteIn (sel : Nat) : s.WroteIn (s.sourceTaken sel) [R.BEAT_CTRL, R.IRIG_STAT] :=
  ((State.WroteIn.ite (.refl _ _) ((State.WroteIn.refl _ _).wr _ _)).wr _ _).onBeat _

theorem rd_sourceTaken (sel : Nat) (h : sel < 16) : (s.sourceTaken sel).rd R.BEAT_CTRL_SRC_SEL = sel := by
  unfold State.sourceTaken
  rw [rd_onBeat, State.rd_wr _ _ _ (by decide)]
  exact Nat.mod_eq_of_lt h

/-- While the beat does not run a change of source leaves no record. -/
theorem srcSelWrite_still {sel : Nat} (h : sel ≤ 4) (hr : s.bit R.BEAT_STAT_RUNNING = false) :
    s.srcSelWrite sel = if sel = 0 then (s.sourceTaken sel).servoOff else (s.sourceTaken sel).servoStart := by
  have hoff : ¬ (s.rd R.BEAT_CTRL_SRC_SEL ≠ sel ∧ s.bit R.BEAT_STAT_RUNNING = true) := by
    rintro ⟨-, h1⟩
    rw [hr] at h1
    cases h1
  unfold State.srcSelWrite
  dsimp only
  rw [if_neg (Nat.not_lt.mpr h), if_neg hoff]
  rfl

/-- What the servo's start changes before LOCK (R38). -/
def State.servoBegun (s : State) : State :=
  (s.onBeat (fun z => { z with consec := 0, parentLost := false })).wr R.BEAT_STAT_SRC_ACT (s.rd R.BEAT_CTRL_SRC_SEL)

theorem servoStart_on (h0 : s.rd R.BEAT_CTRL_SRC_SEL ≠ 0) (hr : s.leads = true) : s.servoStart = s.servoBegun.setLock 1 := by
  unfold State.servoStart
  rw [if_pos ⟨h0, hr⟩]
  rfl

theorem servoBegun_wroteIn : s.WroteIn s.servoBegun [R.BEAT_STAT] := ((State.WroteIn.refl _ _).onBeat _).wr _ _

theorem rd_servoBegun_lock : s.servoBegun.rd R.BEAT_STAT_LOCK = s.rd R.BEAT_STAT_LOCK := by
  unfold State.servoBegun
  rw [State.rd_wr_ne _ _ _ _ (by decide) (by decide), rd_onBeat]

theorem rd_servoBegun_act (h : s.rd R.BEAT_CTRL_SRC_SEL < 16) : s.servoBegun.rd R.BEAT_STAT_SRC_ACT = s.rd R.BEAT_CTRL_SRC_SEL := by
  unfold State.servoBegun
  rw [State.rd_wr _ _ _ (by decide)]
  exact Nat.mod_eq_of_lt h

/-- What turning the servo off changes before LOCK (R38). -/
def State.servoEnded (s : State) : State :=
  ((s.onBeat (fun z => { z with consec := 0, parentLost := false })).wrW R.RATE_ADJ 0).wr R.BEAT_STAT_SRC_ACT 0

theorem servoEnded_wroteIn : s.WroteIn s.servoEnded [R.BEAT_STAT, R.RATE_ADJ] := (((State.WroteIn.refl _ _).onBeat _).wrW _ _).wr _ _

theorem rd_servoEnded_lock : s.servoEnded.rd R.BEAT_STAT_LOCK = s.rd R.BEAT_STAT_LOCK := by
  unfold State.servoEnded
  rw [State.rd_wr_ne _ _ _ _ (by decide) (by decide), rd_wrW_ne _ _ _, rd_onBeat]

theorem word_servoEnded_rate : s.servoEnded.word R.RATE_ADJ = 0 := by
  unfold State.servoEnded State.wrW
  rw [State.word_wr_off _ _ _ _ (by decide), State.word_setWord_self]
  rfl

/-- The words a change of source may write. -/
def sourceWords : List Nat := [R.BEAT_CTRL, R.BEAT_STAT, R.BEAT_INT_STAT, R.RATE_ADJ, R.DISC_STAT, R.IRIG_STAT]

/-- Sources 1 to 4: the servo starts in ACQUIRING, RATE_ADJ kept. -/
theorem exec_srcSelWrite_source (hl : Says.noLink s) (hrole : s.role = roleAlone ∨ s.role = roleMaster) (hlock : s.rd R.BEAT_STAT_LOCK < 3)
    (sel : BitVec 4) (h0 : 0 < sel.toNat) (h5 : sel.toNat < 5) (hr : s.bit R.BEAT_STAT_RUNNING = false) :
    ∃ t, exec (.srcSelWrite sel) s = .next t ∧ Says.beatOnly s t sourceWords ∧ t.rd R.BEAT_CTRL_SRC_SEL = sel.toNat ∧
      t.rd R.BEAT_STAT_SRC_ACT = sel.toNat ∧ t.rd R.BEAT_STAT_LOCK = 1 ∧ t.word R.RATE_ADJ = s.word R.RATE_ADJ ∧
      t.bit R.BEAT_INT_STAT_LOCK_CHG = (s.bit R.BEAT_INT_STAT_LOCK_CHG || s.rd R.BEAT_STAT_LOCK != 1) := by
  have hsrc := sourceTaken_wroteIn (s := s) sel.toNat
  have hsel := rd_sourceTaken (s := s) sel.toNat (by omega)
  have hleads : (s.sourceTaken sel.toNat).leads = true := by
    rw [leads_iff, State.role, hsrc.rd R.BEAT_STAT_ROLE]
    exact hrole
  have heq : s.srcSelWrite sel.toNat = (s.sourceTaken sel.toNat).servoBegun.setLock 1 := by
    rw [srcSelWrite_still (by omega) hr, if_neg (by omega), servoStart_on (by omega) hleads]
  generalize s.sourceTaken sel.toNat = u at hsrc hsel hleads heq
  have hbeg := servoBegun_wroteIn (s := u)
  have hold : u.servoBegun.rd R.BEAT_STAT_LOCK = s.rd R.BEAT_STAT_LOCK := rd_servoBegun_lock.trans (hsrc.rd _)
  have hlow : u.servoBegun.rd R.BEAT_STAT_LOCK < 3 := hold.symm ▸ hlock
  have hset := setLock_wroteIn hlow (n := 1) (by decide)
  have hw : s.WroteIn (u.servoBegun.setLock 1) sourceWords :=
    ((hsrc.mono (by decide)).trans (hbeg.mono (by decide))).trans (hset.mono (by decide))
  refine ⟨_, exec_srcSelWrite sel hl heq hw, hw.beatOnly, ?_⟩
  rw [State.settle_rd, State.settle_rd, State.settle_rd, State.settle_word, State.settle_bit, rd_setLock hlow (by decide),
    hset.rd R.BEAT_CTRL_SRC_SEL, rd_setLock_ne hlow (by decide) _, bit_setLock_changed hlow (by decide), hbeg.rd R.BEAT_CTRL_SRC_SEL,
    rd_servoBegun_act (by omega), hsel, hset.words R.RATE_ADJ (by decide), hbeg.words R.RATE_ADJ (by decide),
    hsrc.words R.RATE_ADJ (by decide), hold]
  refine ⟨rfl, rfl, rfl, rfl, ?_⟩
  unfold State.bit
  rw [hbeg.rd R.BEAT_INT_STAT_LOCK_CHG, hsrc.rd R.BEAT_INT_STAT_LOCK_CHG]

/-- Source 0: the servo is off, RATE_ADJ 0. -/
theorem exec_srcSelWrite_off (hl : Says.noLink s) (hlock : s.rd R.BEAT_STAT_LOCK < 3) (hr : s.bit R.BEAT_STAT_RUNNING = false) :
    ∃ t, exec (.srcSelWrite 0) s = .next t ∧ Says.beatOnly s t sourceWords ∧ t.rd R.BEAT_CTRL_SRC_SEL = 0 ∧
      t.rd R.BEAT_STAT_LOCK = 0 ∧ t.word R.RATE_ADJ = 0 := by
  have hsrc := sourceTaken_wroteIn (s := s) 0
  have hsel := rd_sourceTaken (s := s) 0 (by decide)
  have heq : s.srcSelWrite (0 : BitVec 4).toNat = (s.sourceTaken 0).servoEnded.setLock 0 := by
    exact (srcSelWrite_still (by decide) hr).trans (if_pos rfl)
  generalize s.sourceTaken 0 = u at hsrc hsel heq
  have hend := servoEnded_wroteIn (s := u)
  have hold : u.servoEnded.rd R.BEAT_STAT_LOCK = s.rd R.BEAT_STAT_LOCK := rd_servoEnded_lock.trans (hsrc.rd _)
  have hlow : u.servoEnded.rd R.BEAT_STAT_LOCK < 3 := hold.symm ▸ hlock
  have hset := setLock_wroteIn hlow (n := 0) (by decide)
  have hw : s.WroteIn (u.servoEnded.setLock 0) sourceWords :=
    ((hsrc.mono (by decide)).trans (hend.mono (by decide))).trans (hset.mono (by decide))
  refine ⟨_, exec_srcSelWrite 0 hl heq hw, hw.beatOnly, ?_⟩
  rw [State.settle_rd, State.settle_rd, State.settle_word, rd_setLock hlow (by decide), hset.rd R.BEAT_CTRL_SRC_SEL,
    hend.rd R.BEAT_CTRL_SRC_SEL, hsel, hset.words R.RATE_ADJ (by decide), word_servoEnded_rate]
  exact ⟨rfl, rfl, rfl⟩

/-- There is no source above 4. -/
theorem exec_srcSelWrite_none (hl : Says.noLink s) (sel : BitVec 4) (h4 : 4 < sel.toNat) :
    ∃ t, exec (.srcSelWrite sel) s = .next t ∧ Says.regsOnly s t [] := by
  have heq : s.srcSelWrite sel.toNat = s := if_pos h4
  exact ⟨_, exec_srcSelWrite sel hl heq (.refl s []), regsOnly_settle s rfl (words_refl s _)⟩

/-! ### Pulses (R40) -/

theorem exec_ppsPulse (falling : Bool) (width : BitVec 16) (hl : Says.noLink s) (hu : s.ppsPulse falling width.toNat = u)
    (hw : ∀ p, p < 8 → u.word (R.FP_STAT p) = s.word (R.FP_STAT p)) : exec (.ppsPulse falling width) s = .next u.settle := by
  show done (s.ppsPulse falling width.toNat).packSettle = _
  rw [hu, packSettle_noLink (noLink_of_fpStat hl hw), done_eq]

theorem ppsExpire_none (h : s.beat.ppsSec = none) : s.ppsExpire = s := by
  unfold State.ppsExpire
  rw [h]

/-- A pulse too narrow, or on the other edge, is none. -/
theorem ppsPulse_ignored {falling : Bool} {width : Nat} (h : width < 100 ∨ falling ≠ s.bit R.PPS_CTRL_EDGE) (hp : s.beat.ppsSec = none) :
    s.ppsPulse falling width = s := by
  unfold State.ppsPulse
  rw [ppsExpire_none hp]
  refine if_pos ?_
  rcases h with h | h
  · rw [decide_eq_true h, Bool.or_true, Bool.true_or]
  · rw [bne_iff_ne.mpr h.symm, Bool.or_true, Bool.true_or, Bool.true_or]

theorem exec_ppsPulse_ignored (hl : Says.noLink s) (falling : Bool) (width : BitVec 16)
    (h : width.toNat < 100 ∨ falling ≠ s.bit R.PPS_CTRL_EDGE) (hp : s.beat.ppsSec = none) :
    ∃ t, exec (.ppsPulse falling width) s = .next t ∧ Says.regsOnly s t [] :=
  ⟨_, exec_ppsPulse falling width hl (ppsPulse_ignored h hp) fun _ _ => rfl, regsOnly_settle s rfl (words_refl s _)⟩

/-- The timestamp of a pulse, in steps of 0.1 ns: the step below or above, whichever the open value takes (log 1). -/
theorem ppsStep_eq (x : Int) (n : Nat) : ∃ y : Int, (y = x * 10 / nsU ∨ y = x * 10 / nsU + 1) ∧
    (x / 9223372036854775808 + (n % 2 : Nat)) * 9223372036854775808 = y * (nsU / 10) := by
  have hns : nsU = 9223372036854775808 * 10 := by decide
  have hten : nsU / 10 = 9223372036854775808 := by decide
  rw [hten, hns, Int.mul_ediv_mul_of_pos_left x 9223372036854775808 (by decide)]
  refine ⟨x / 9223372036854775808 + (n % 2 : Nat), ?_, rfl⟩
  rcases Nat.mod_two_eq_zero_or_one n with h | h <;> rw [h]
  · exact Or.inl (Int.add_zero _)
  · exact Or.inr rfl

/-- An accepted pulse is an update where it is the source and TAI is not known. -/
theorem ppsPulse_update {width : Nat} (hw : 100 ≤ width) (hd : s.domOn domSteward = true) (hsel : s.rd R.BEAT_CTRL_SRC_SEL = 1)
    (htai : s.bit R.BEAT_STAT_TAI_VALID = false) (hp : s.beat.ppsSec = none) (hen : s.bit R.PPS_CTRL_EN = true) :
    ∃ x, (x = s.time * 10 / nsU ∨ x = s.time * 10 / nsU + 1) ∧ s.ppsPulse (s.bit R.PPS_CTRL_EDGE) width =
      (s.freeNext.pulse 42).refUpdate (centered (s.packAt (x * (nsU / 10) - s.rd R.PPS_CTRL_DELAY * (nsU / 8))) secU) := by
  obtain ⟨x, hx, heq⟩ := ppsStep_eq s.time s.freeVal
  refine ⟨x, hx, ?_⟩
  have hreg : (s.freeNext.pulse 42).hreg = s.hreg := rfl
  have hbeat : (s.freeNext.pulse 42).beat = s.beat := rfl
  have hcond : (!s.bit R.PPS_CTRL_EN || s.bit R.PPS_CTRL_EDGE != s.bit R.PPS_CTRL_EDGE || decide (width < 100) || !s.domOn domSteward) =
      false := by
    rw [hen, bne_self_eq_false, decide_eq_false (Nat.not_lt.mpr hw), hd]
    rfl
  unfold State.ppsPulse
  rw [ppsExpire_none hp]
  dsimp only
  rw [hcond, heq]
  generalize s.freeNext.pulse 42 = u at hreg hbeat ⊢
  rw [hbeat, hp]
  dsimp only
  rw [rd_of_hreg hreg, hsel, if_pos rfl, if_neg Bool.false_ne_true]
  unfold State.secondMark State.packAt
  rw [bit_of_hreg hreg, htai, hbeat, if_neg Bool.false_ne_true]

theorem exec_ppsPulse_update (hl : Says.noLink s) (hrole : s.role = roleAlone ∨ s.role = roleMaster) (hlock : s.rd R.BEAT_STAT_LOCK < 3)
    (hd : s.domOn domSteward = true) (width : BitVec 16) (hw : 100 ≤ width.toNat) (hsel : s.rd R.BEAT_CTRL_SRC_SEL = 1)
    (hpend : s.bit R.BEAT_STAT_DISC_PEND = false) (hslew : s.rd R.DISC_CTRL_SLEW_MAX = 0) (htai : s.bit R.BEAT_STAT_TAI_VALID = false)
    (hp : s.beat.ppsSec = none) (hen : s.bit R.PPS_CTRL_EN = true) :
    ∃ t x, exec (.ppsPulse (s.bit R.PPS_CTRL_EDGE) width) s = .next t ∧ (x = s.time * 10 / nsU ∨ x = s.time * 10 / nsU + 1) ∧
      t.word R.RATE_ADJ = s.word R.RATE_ADJ ∧ t.mem = s.mem ∧ t.cores = s.cores ∧
      Says.steered s t (centered (s.packAt (x * (nsU / 10) - s.rd R.PPS_CTRL_DELAY * (nsU / 8))) secU) := by
  obtain ⟨x, hx, heq⟩ := ppsPulse_update hw hd hsel htai hp hen
  obtain ⟨off, hoff⟩ : ∃ off, off = centered (s.packAt (x * (nsU / 10) - s.rd R.PPS_CTRL_DELAY * (nsU / 8))) secU := ⟨_, rfl⟩
  rw [← hoff] at heq
  have hreg : (s.freeNext.pulse 42).hreg = s.hreg := rfl
  have hbeat : (s.freeNext.pulse 42).beat = s.beat := rfl
  have hmem : (s.freeNext.pulse 42).mem = s.mem := rfl
  have hcores : (s.freeNext.pulse 42).cores = s.cores := rfl
  generalize s.freeNext.pulse 42 = u at heq hreg hbeat hmem hcores
  have hlow : u.rd R.BEAT_STAT_LOCK < 3 := (rd_of_hreg hreg _).symm ▸ hlock
  have hu := refUpdate_updated off hlow
  have hon : u.servoOn = true := servoOn_eq (by rw [State.role, rd_of_hreg hreg]; exact hrole)
    (by rw [rd_of_hreg hreg, hsel]; decide) ((bit_of_hreg hreg _).trans hpend)
  have hsteer := refUpdate_steered off hon hlow ((rd_of_hreg hreg _).trans hslew)
  refine ⟨_, x, exec_ppsPulse _ width hl heq fun p h => ?_, hx, ?_, ?_, ?_, ?_⟩
  · rw [hu.frame.words _ (by unfold updateWords; revert p; decide), word_of_hreg hreg]
  · rw [State.settle_word, hu.rate ((rd_of_hreg hreg _).trans hslew), word_of_hreg hreg]
  · rw [State.settle_mem, hu.frame.mem, hmem]
  · rw [State.settle_cores, hu.frame.cores, hcores]
  · rw [← hoff]
    exact steered_of_same (rd_of_hreg hreg _) (word_of_hreg hreg _) (by rw [hbeat]) (by rw [hbeat]) (steered_settle hsteer)

/-! ### Timeouts (R38) -/

/-- A working servo loses its reference: HOLDOVER, RATE_ADJ kept. -/
theorem exec_referenceTimeout (hl : Says.noLink s) (hrole : s.role = roleAlone ∨ s.role = roleMaster) (hsel : s.rd R.BEAT_CTRL_SRC_SEL ≠ 0)
    (hpend : s.bit R.BEAT_STAT_DISC_PEND = false) (hlock : s.rd R.BEAT_STAT_LOCK = 1 ∨ s.rd R.BEAT_STAT_LOCK = 2)
    (hwh : s.rd R.WH_FAULT_EN_R523 / 8 % 2 = 0) :
    ∃ t, exec (.referenceTimeout false) s = .next t ∧ Says.beatOnly s t sourceWords ∧ t.rd R.BEAT_STAT_LOCK = 3 ∧
      t.word R.RATE_ADJ = s.word R.RATE_ADJ ∧ t.bit R.BEAT_INT_STAT_LOCK_CHG = true ∧ t.bit R.BEAT_INT_STAT_HOLDOVER = true := by
  have hlast : s.WroteIn (if s.rd R.BEAT_CTRL_SRC_SEL = 2 then s.wr R.IRIG_STAT_VALID 0 else s) [R.IRIG_STAT] :=
    .ite ((State.WroteIn.refl _ _).wr _ _) (.refl _ _)
  have heq : s.refTimeout false = (if s.rd R.BEAT_CTRL_SRC_SEL = 2 then s.wr R.IRIG_STAT_VALID 0 else s).setLock 3 := by
    unfold State.refTimeout
    rw [servoOn_eq hrole hsel hpend]
    simp [lockAcquiring, lockLocked, lockHoldover, hlock]
  generalize (if s.rd R.BEAT_CTRL_SRC_SEL = 2 then s.wr R.IRIG_STAT_VALID 0 else s) = u at hlast heq
  have hold : u.rd R.BEAT_STAT_LOCK = s.rd R.BEAT_STAT_LOCK := hlast.rd _
  have hset : u.setLock 3 = ((((u.wr R.BEAT_STAT_LOCK 3).set1 R.BEAT_INT_STAT_LOCK_CHG).onBeat (fun z => { z with holdSince := u.time })).set1
      R.BEAT_INT_STAT_HOLDOVER) := by
    have h3 : u.rd R.BEAT_STAT_LOCK ≠ 3 := by omega
    have hno : ∀ f, ((((u.wr R.BEAT_STAT_LOCK 3).set1 R.BEAT_INT_STAT_LOCK_CHG).onBeat f).set1 R.BEAT_INT_STAT_HOLDOVER).rd
        R.WH_FAULT_EN_R523 / 2 ^ 3 % 2 ≠ 1 := by
      intro f
      rw [rd_set1_off _ _, rd_onBeat, rd_set1_off _ _, State.rd_wr_off _ _ _ _ (by decide), hlast.rd R.WH_FAULT_EN_R523]
      omega
    unfold State.setLock
    dsimp only
    rw [if_neg h3, if_neg (show ¬ u.rd R.BEAT_STAT_LOCK = lockHoldover from h3), if_pos (show 3 = lockHoldover from rfl)]
    exact if_neg (hno _)
  have hw : s.WroteIn (u.setLock 3) sourceWords := by
    rw [hset]
    exact ((((hlast.mono (by decide)).wr _ _).set1 _).onBeat _).set1 _
  have hexec : exec (.referenceTimeout false) s = .next (u.setLock 3).settle := by
    show done (s.refTimeout false).packSettle = _
    rw [heq, hw.packSettle hl (by decide), done_eq]
  refine ⟨_, hexec, hw.beatOnly, ?_⟩
  rw [State.settle_rd, State.settle_word, State.settle_bit, State.settle_bit, hset]
  refine ⟨?_, ?_, ?_, State.bit_set1 _ _ (by decide) (by decide)⟩
  · rw [rd_set1_off _ _, rd_onBeat, rd_set1_off _ _, State.rd_wr _ _ _ (by decide)]
    rfl
  · rw [State.set1, State.word_wr_off _ _ _ _ (by decide), word_onBeat, State.set1, State.word_wr_off _ _ _ _ (by decide),
      State.word_wr_off _ _ _ _ (by decide), hlast.words R.RATE_ADJ (by decide)]
  · rw [State.set1, bit_wr_ne _ _ _, bit_onBeat, State.bit_set1 _ _ (by decide) (by decide)]

/-! ### The record of a wake (R60) -/

/-- The record has gone out: the servo and alignment may act. -/
def State.wakeTold (s : State) : State := ((s.set1 R.BEAT_INT_STAT_DISC).onBeat (fun z => { z with wakeRec := none })).wr R.BEAT_STAT_DISC_PEND 0

/-- The record of a wake goes to the journal, or to the host where the journal counts as not configured. -/
theorem exec_servoResume_told (hl : Says.noLink s) (d : DiscRec) (hd : s.beat.wakeRec = some d)
    (hacc : s.discUnconfigured (discRec d) = true ∨ s.acceptsDisc (discRec d) = true) :
    ∃ t, exec .servoResume s = .next t ∧ t.beat.wakeRec = none ∧ t.bit R.BEAT_STAT_DISC_PEND = false ∧ t.bit R.BEAT_INT_STAT_DISC = true ∧
      t.mem = s.mem ∧ t.cores = s.cores := by
  obtain ⟨u, hu, heq⟩ : ∃ u, s.Told u ∧ s.servoResume = u.wakeTold := by
    unfold State.servoResume
    rw [hd]
    dsimp only
    by_cases hun : s.discUnconfigured (discRec d) = true
    · exact ⟨_, .discEvent s d, if_pos hun⟩
    · exact ⟨_, .offerRec s _, (if_neg hun).trans (if_pos (hacc.resolve_left hun))⟩
  have hw : u.WroteIn u.wakeTold [R.BEAT_INT_STAT, R.BEAT_STAT] := (((State.WroteIn.refl _ _).set1 _).onBeat _).wr _ _
  have hlu : Says.noLink u := hu.noLink hl
  refine ⟨u.wakeTold.settle, ?_, ?_⟩
  · show done s.servoResume.packSettle = _
    rw [heq, hw.packSettle hlu, done_eq]
  · rw [State.settle_beat, State.settle_bit, State.settle_bit, State.settle_mem, State.settle_cores, hw.wrote.mem, hw.wrote.cores]
    unfold State.wakeTold
    rw [State.wr_beat, State.onBeat_beat, bit_wr_zero _, bit_wr_off _ _ _, bit_onBeat, State.bit_set1 _ _ (by decide) (by decide)]
    obtain ⟨r, e, j, x, rfl⟩ := hu.shape
    exact ⟨rfl, rfl, rfl, rfl, rfl⟩

/-- A record the journal does not accept waits on. -/
theorem exec_servoResume_waits (hl : Says.noLink s) (d : DiscRec) (hd : s.beat.wakeRec = some d)
    (hun : s.discUnconfigured (discRec d) = false) (hacc : s.acceptsDisc (discRec d) = false) :
    ∃ t, exec .servoResume s = .next t ∧ Says.regsOnly s t [] := by
  have heq : s.servoResume = s := by
    unfold State.servoResume
    rw [hd]
    dsimp only
    rw [hun, hacc]
    rfl
  refine ⟨s.settle, ?_, regsOnly_settle s rfl (words_refl s _)⟩
  show done s.servoResume.packSettle = _
  rw [heq, packSettle_noLink hl, done_eq]

/-- Settles O34: SRC_SEL starts or stops the servo, a pulse is an update of it (`refUpdate_steered`), a timeout is HOLDOVER, and a
record of a wake leaves through the journal or the host. -/
theorem servoResults : Obligations.ServoResults := by
  unfold Obligations.ServoResults
  intro s hl hd lock ws
  refine ⟨fun hrole hlock => ⟨fun sel h0 h5 hr => exec_srcSelWrite_source hl hrole hlock sel h0 h5 hr,
      fun hr => exec_srcSelWrite_off hl hlock hr,
      fun width hw hsel hpend hslew htai hp hen => exec_ppsPulse_update hl hrole hlock hd width hw hsel hpend hslew htai hp hen,
      fun hsel hpend h12 hwh => exec_referenceTimeout hl hrole hsel hpend h12 hwh⟩,
    fun falling width h hp => exec_ppsPulse_ignored hl falling width h hp,
    fun sel h4 => exec_srcSelWrite_none hl sel h4,
    fun d hw hacc => exec_servoResume_told hl d hw hacc,
    fun d hw hun hacc => exec_servoResume_waits hl d hw hun hacc⟩

end Sys2Proof.Machine

/-! SUPPORT. TAI and its stamps (R31, R41, R43). -/

namespace Sys2Proof.Machine

open Sys2Proof

-- One proof after another, as in the tests: theorems checked side by side need more threads than the check's memory limit allows.
set_option Elab.async false

variable {s t u : State} {l : List Nat}

/-! ### EPOCH_TAI (R31) -/

/-- The words of EPOCH_TAI. -/
def epochWords : List Nat := [R.EPOCH_TAI_SEC_HI, R.EPOCH_TAI_SEC_LO, R.EPOCH_TAI_NS]

theorem setEpochTai_wroteIn (e : Int) : s.WroteIn (s.setEpochTai e) epochWords := (((State.WroteIn.refl _ _).wrW _ _).wrW _ _).wrW _ _

theorem setEpochTai_beat (e : Int) : (s.setEpochTai e).beat = s.beat := by
  unfold State.setEpochTai
  rw [wrW_beat, wrW_beat, wrW_beat]

/-- EPOCH_TAI depends on its words alone. -/
theorem epochTai_of_words (h : ∀ o, o ∈ epochWords → t.word o = s.word o) : t.epochTai = s.epochTai := by
  unfold State.epochTai State.rdW
  rw [h R.EPOCH_TAI_SEC_HI (by decide), h R.EPOCH_TAI_SEC_LO (by decide), h R.EPOCH_TAI_NS (by decide)]

theorem epochTai_settle : s.settle.epochTai = s.epochTai := epochTai_of_words fun o _ => State.settle_word s o

/-- An instant that fits 48 bits of seconds is kept whole. -/
theorem epochTai_setEpochTai {e : Int} (h0 : 0 ≤ e) (h1 : e < 2 ^ 48 * 1000000000) : (s.setEpochTai e).epochTai = e := by
  have hsec : e / 1000000000 % 281474976710656 = e / 1000000000 := Int.emod_eq_of_lt (by omega) (by omega)
  unfold State.epochTai State.setEpochTai
  dsimp only
  rw [rdW_wrW_mod, rdW_wrW_ne _ _ _ (by decide), rdW_wrW_mod, rdW_wrW_ne _ _ _ (by decide), rdW_wrW_ne _ _ _ (by decide), rdW_wrW_mod, hsec]
  omega

/-- TAI becomes known, where it is not. -/
def State.taiFrom (s : State) (e : Int) : State :=
  if s.bit R.BEAT_STAT_TAI_VALID then s else (s.setEpochTai e).set1 R.BEAT_STAT_TAI_VALID

theorem taiFrom_valid (e : Int) (h : s.bit R.BEAT_STAT_TAI_VALID = true) : s.taiFrom e = s := if_pos h

theorem taiFrom_wroteIn (e : Int) : s.WroteIn (s.taiFrom e) (R.BEAT_STAT :: epochWords) :=
  .ite (.refl _ _) (((setEpochTai_wroteIn e).mono (by decide)).set1 _)

theorem taiFrom_beat (e : Int) : (s.taiFrom e).beat = s.beat := by
  unfold State.taiFrom
  split
  · rfl
  · rw [set1_beat, setEpochTai_beat]

theorem bit_taiFrom (e : Int) : (s.taiFrom e).bit R.BEAT_STAT_TAI_VALID = true := by
  unfold State.taiFrom
  split
  · assumption
  · exact State.bit_set1 _ _ (by decide) (by decide)

/-- BEAT_STAT's other fields. -/
theorem rd_taiFrom_ne (e : Int) (g : Fld) (hg : g.off ∉ epochWords := by decide) (h : g.lo + g.w ≤ 19 ∨ 20 ≤ g.lo := by decide) :
    (s.taiFrom e).rd g = s.rd g := by
  unfold State.taiFrom
  split
  · rfl
  · rw [State.set1, State.rd_wr_ne _ R.BEAT_STAT_TAI_VALID g _ (by decide) h.symm, (setEpochTai_wroteIn e).rd g hg]

theorem epochTai_taiFrom {e : Int} (h : s.bit R.BEAT_STAT_TAI_VALID = false) (h0 : 0 ≤ e) (h1 : e < 2 ^ 48 * 1000000000) :
    (s.taiFrom e).epochTai = e := by
  unfold State.taiFrom
  rw [if_neg (by rw [h]; decide)]
  refine (epochTai_of_words (s := s.setEpochTai e) fun o ho => ?_).trans (epochTai_setEpochTai h0 h1)
  rw [State.set1, State.word_wr_off _ _ _ _ (by revert o; decide)]

/-- TAI of an instant depends on EPOCH_TAI and the beat alone. -/
theorem taiAt_congr (he : t.epochTai = s.epochTai) (ho : t.beat.off = s.beat.off) (hw : t.beat.wraps = s.beat.wraps) (x : Int) :
    t.taiAt x = s.taiAt x := by
  unfold State.taiAt State.packRel State.packAt
  rw [he, ho, hw]

/-! ### An update of a servo that has just learned TAI -/

/-- What an update leaves of EPOCH_TAI, TAI_VALID and other words. -/
theorem State.Updated.epochTai (h : s.Updated u) : u.epochTai = s.epochTai :=
  epochTai_of_words fun o ho => h.frame.words o (by revert o; decide)

theorem State.Updated.bit (h : s.Updated u) (g : Fld) (hg : g.off = R.BEAT_STAT := by decide) (hb : g.lo + g.w ≤ 20 ∨ 24 ≤ g.lo := by decide) :
    u.bit g = s.bit g := by
  unfold State.bit
  rw [h.rest g hg hb]

/-- An update with TAI learned before it, whatever else but words and beat has changed. -/
theorem refUpdate_taiFrom {e off : Int} (hlock : s.rd R.BEAT_STAT_LOCK < 3) (hr : u.hreg = (s.taiFrom e).hreg) (hb : u.beat = s.beat) :
    u.Updated (u.refUpdate off) ∧ (u.refUpdate off).bit R.BEAT_STAT_TAI_VALID = true ∧
      (∀ o, o ∉ epochWords ++ updateWords → (u.refUpdate off).word o = s.word o) ∧
      (s.bit R.BEAT_STAT_TAI_VALID = false → 0 ≤ e → e < 2 ^ 48 * 1000000000 → (u.refUpdate off).epochTai = e) ∧
      (s.bit R.BEAT_STAT_TAI_VALID = true → (u.refUpdate off).epochTai = s.epochTai ∧
        ((s.role = roleAlone ∨ s.role = roleMaster) → s.rd R.BEAT_CTRL_SRC_SEL ≠ 0 → s.bit R.BEAT_STAT_DISC_PEND = false →
          s.rd R.DISC_CTRL_SLEW_MAX = 0 → Says.steered s (u.refUpdate off) off)) := by
  have hlow : u.rd R.BEAT_STAT_LOCK < 3 := by
    rw [rd_of_hreg hr, rd_taiFrom_ne e _]
    exact hlock
  have hup := refUpdate_updated off hlow
  have hepoch : u.epochTai = (s.taiFrom e).epochTai := epochTai_of_words fun o _ => word_of_hreg hr o
  refine ⟨hup, ?_, fun o ho => ?_, fun hv h0 h1 => ?_, fun hv => ?_⟩
  · rw [hup.bit _, bit_of_hreg hr, bit_taiFrom]
  · rw [List.mem_append, not_or] at ho
    rw [hup.frame.words o ho.2, word_of_hreg hr]
    refine (taiFrom_wroteIn e).words o fun hm => ?_
    rcases List.mem_cons.mp hm with rfl | hm
    · exact ho.2 (by decide)
    · exact ho.1 hm
  · rw [hup.epochTai, hepoch, epochTai_taiFrom hv h0 h1]
  · rw [taiFrom_valid e hv] at hr hepoch
    refine ⟨hup.epochTai.trans hepoch, fun hrole hsel hpend hslew => ?_⟩
    have hon : u.servoOn = true := servoOn_eq (by rw [State.role, rd_of_hreg hr]; exact hrole) (by rw [rd_of_hreg hr]; exact hsel)
      ((bit_of_hreg hr _).trans hpend)
    exact steered_of_same (rd_of_hreg hr _) (word_of_hreg hr _) (by rw [hb]) (by rw [hb])
      (refUpdate_steered off hon hlow ((rd_of_hreg hr _).trans hslew))

/-- A value of clock time in quarters of a nanosecond as the SVC MAC stamps it: the one below or above (log 1). -/
theorem macStamp_eq (x : Int) : ∃ y : Int, (y = x * 4 / nsU ∨ y = x * 4 / nsU + 1) ∧ s.macStamp x = y * (nsU / 4) := by
  have hns : nsU = nsU / 4 * 4 := by decide
  have hpos : (0 : Int) < 4 := by decide
  have hdiv : x * 4 / nsU = x / (nsU / 4) := by
    conv_lhs => rw [hns]
    exact Int.mul_ediv_mul_of_pos_left x (nsU / 4) hpos
  refine ⟨x / (nsU / 4) + (s.freeVal % 2 : Nat), ?_, rfl⟩
  rw [hdiv]
  rcases Nat.mod_two_eq_zero_or_one s.freeVal with h | h <;> rw [h]
  · exact Or.inl (Int.add_zero _)
  · exact Or.inr rfl

/-- Rounding to the nearest is off by half a unit at most. -/
theorem roundAway_near (x : Int) (n : Nat) (hn : 0 < n) : 2 * ((roundAway x n * n - x).natAbs : Int) ≤ n := by
  have hdiv := Nat.div_add_mod (2 * x.natAbs + n) (2 * n)
  have hmod := Nat.mod_lt (2 * x.natAbs + n) (show 0 < 2 * n by omega)
  unfold roundAway
  rw [if_neg (by omega)]
  generalize (2 * x.natAbs + n) / (2 * n) = q at *
  generalize (2 * x.natAbs + n) % (2 * n) = r at *
  have hq : 2 * n * q = 2 * (q * n) := by ring
  rw [hq] at hdiv
  split
  · rw [Int.neg_mul, ← Int.natCast_mul]
    omega
  · rw [← Int.natCast_mul]
    omega

/-- The multiple of DIV whose edge is nearest to an instant (R44). -/
theorem nearestMultiple_eq {div : Nat} (hd : 0 < div) (hp : 0 < s.periodU) (x : Int) :
    ∃ k : Int, ((s.beat.num.toNat : Int) + k) % div = 0 ∧ s.nearestMultiple x div = s.beat.lastEdge + k * s.periodU ∧
      2 * ((x - (s.beat.lastEdge + k * s.periodU)).natAbs : Int) ≤ div * s.periodU := by
  have hw : 0 < (div : Int) * s.periodU := Int.mul_pos (by omega) hp
  have hcast : ((s.beat.num.toNat % div : Nat) : Int) = (s.beat.num.toNat : Int) % div := Int.natCast_emod _ _
  unfold State.nearestMultiple
  dsimp only
  generalize s.periodU = p at *
  obtain ⟨base, hbase⟩ : ∃ base, base = s.beat.lastEdge - ((s.beat.num.toNat % div : Nat) : Int) * p := ⟨_, rfl⟩
  rw [← hbase]
  have hdm := Int.mul_ediv_add_emod (x - base + div * p / 2) (div * p)
  have hmod := Int.emod_nonneg (x - base + div * p / 2) hw.ne'
  have hlt := Int.emod_lt_of_pos (x - base + div * p / 2) hw
  generalize (x - base + div * p / 2) / (div * p) = m at *
  generalize (x - base + div * p / 2) % (div * p) = r at *
  refine ⟨div * m - ((s.beat.num.toNat % div : Nat) : Int), ?_, ?_, ?_⟩
  · rw [hcast]
    have : (s.beat.num.toNat : Int) + (div * m - (s.beat.num.toNat : Int) % div) = div * (s.beat.num.toNat / div + m) := by
      have := Int.mul_ediv_add_emod (s.beat.num.toNat : Int) div
      linarith [Int.mul_add (div : Int) (s.beat.num.toNat / div) m]
    rw [this, Int.mul_emod_right]
  · rw [hbase]
    ring
  · have hk : s.beat.lastEdge + (div * m - ((s.beat.num.toNat % div : Nat) : Int)) * p = base + div * p * m := by
      rw [hbase]
      ring
    rw [hk]
    generalize (div : Int) * p = w at *
    generalize w * m = y at *
    omega

end Sys2Proof.Machine

/-! PROOFS. IRIG_FRAME, PTP_MESSAGE, PTP_MESSAGE_TRANSMIT, BEAT_IN_PULSE, EPOCH_ADVANCE and AON_CALIBRATION (R30, R41 to R44, R57). -/

namespace Sys2Proof.Machine

open Sys2Proof

-- One proof after another, as in the tests: theorems checked side by side need more threads than the check's memory limit allows.
set_option Elab.async false

variable {s t u : State} {l : List Nat}

/-! ### IRIG (R41, R42) -/

theorem exec_irigFrame (f : IrigFrame) (hl : Says.noLink s) (hu : s.irigFrame f = u)
    (hw : ∀ p, p < 8 → u.word (R.FP_STAT p) = s.word (R.FP_STAT p)) : exec (.irigFrame f) s = .next u.settle := by
  show done (s.irigFrame f).packSettle = _
  rw [hu, packSettle_noLink (noLink_of_fpStat hl hw), done_eq]

/-- The second of the day an IRIG frame names. -/
def irigTod (f : IrigFrame) : Nat := (f.hour.toNat * 60 + f.minute.toNat) * 60 + f.sec.toNat

/-- A frame that R41 does not take: a marker missing, a bad digit, or a straight binary count that disagrees. -/
def State.irigBad (s : State) (f : IrigFrame) : Prop :=
  f.refOk = false ∨ f.bcdOk = false ∨ s.bit R.IRIG_CTRL_SBS_CHECK = true ∧ ∃ x, f.sbs = some x ∧ x.toNat ≠ irigTod f

/-- The second by which frames are compared: TAI where the year is known (R42). -/
def State.irigNum (s : State) (f : IrigFrame) : Nat := (s.irigSec f).getD (f.doy.toNat * 86400 + irigTod f)

theorem irigBad_iff (f : IrigFrame) : s.irigBad f ↔ (!f.refOk || !f.bcdOk || (s.bit R.IRIG_CTRL_SBS_CHECK && (match f.sbs with
      | some x => x.toNat != (f.hour.toNat * 60 + f.minute.toNat) * 60 + f.sec.toNat
      | none => false))) = true := by
  unfold State.irigBad irigTod
  cases f.sbs <;> simp [or_assoc]

/-- A frame in mode 1: a bad one is counted, a good one kept, and the second in a row of source 2 marks its second. -/
theorem irigFrame_mode1 (f : IrigFrame) (hd : s.domOn domSteward = true) (hm : s.rd R.IRIG_CTRL_MODE = 1) :
    (s.irigBad f → s.irigFrame f = (s.inc R.IRIG_STAT_BAD).onBeat (fun z => { z with irigLast := none })) ∧
    (¬ s.irigBad f → s.irigFrame f =
      if (∃ l, s.beat.irigLast = some l ∧ l + 1 = s.irigNum f) ∧ s.rd R.BEAT_CTRL_SRC_SEL = 2 then
        ((s.onBeat (fun z => { z with irigLast := some (s.irigNum f) })).wb R.IRIG_STAT_VALID (s.irigSec f).isSome).secondMark s.time (s.irigSec f)
      else s.onBeat (fun z => { z with irigLast := some (s.irigNum f) })) := by
  have hmode : ¬ (s.rd R.IRIG_CTRL_MODE = 0 ∨ s.rd R.IRIG_CTRL_MODE = 3 ∨ (!s.domOn domSteward) = true) := by
    rw [hm, hd]
    decide
  unfold State.irigFrame
  extract_lets mode s0 tod sbsBad n s1 two
  have h0 : s0 = s := if_neg (show ¬ s.rd R.IRIG_CTRL_MODE = 2 by rw [hm]; decide)
  clear_value s0
  subst h0
  have hn : n = s0.irigNum f := by
    show (s0.irigSec f).getD (irigCount f) = _
    rw [State.irigNum, irigTod, irigCount, Nat.add_assoc]
  clear_value n
  subst hn
  rw [if_neg hmode]
  refine ⟨fun hbad => if_pos ((irigBad_iff f).mp hbad), fun hgood => ?_⟩
  refine (if_neg fun h => hgood ((irigBad_iff f).mpr h)).trans (if_congr ?_ rfl rfl)
  rw [Bool.and_eq_true, beq_iff_eq]
  refine and_congr ?_ Iff.rfl
  show (match s0.beat.irigLast with
      | some l => l + 1 == s0.irigNum f
      | none => false) = true ↔ _
  cases s0.beat.irigLast with
  | none => simp
  | some l => simp

/-- A bad frame counts and breaks the run. -/
theorem exec_irigFrame_bad (hl : Says.noLink s) (f : IrigFrame) (hd : s.domOn domSteward = true) (hm : s.rd R.IRIG_CTRL_MODE = 1)
    (hbad : s.irigBad f) : ∃ t, exec (.irigFrame f) s = .next t ∧ Says.beatOnly s t [R.IRIG_STAT] ∧
      t.beat = { s.beat with irigLast := none } ∧
      t.rd R.IRIG_STAT_BAD = min (s.rd R.IRIG_STAT_BAD + 1) (2 ^ R.IRIG_STAT_BAD.w - 1) ∧ t.bit R.IRIG_STAT_VALID = s.bit R.IRIG_STAT_VALID := by
  have heq := (irigFrame_mode1 f hd hm).1 hbad
  have hw : s.WroteIn ((s.inc R.IRIG_STAT_BAD).onBeat (fun z => { z with irigLast := none })) [R.IRIG_STAT] :=
    ((State.WroteIn.refl _ _).wr _ _).onBeat _
  refine ⟨_, exec_irigFrame f hl heq fun p hp => hw.words _ (by revert p; decide), hw.beatOnly, ?_⟩
  rw [State.settle_beat, State.settle_rd, State.settle_bit, State.onBeat_beat, rd_onBeat, bit_onBeat, State.inc, State.satAdd, State.wr_beat,
    bit_wr_ne _ _ _, State.rd_wr _ _ _ (by decide)]
  exact ⟨rfl, Nat.mod_eq_of_lt (by dsimp only; omega), rfl⟩

/-- A good frame that marks no second is kept. -/
theorem exec_irigFrame_kept (hl : Says.noLink s) (f : IrigFrame) (hd : s.domOn domSteward = true) (hm : s.rd R.IRIG_CTRL_MODE = 1)
    (hgood : ¬ s.irigBad f) (h : s.rd R.BEAT_CTRL_SRC_SEL ≠ 2 ∨ ∀ l, s.beat.irigLast = some l → l + 1 ≠ s.irigNum f) :
    ∃ t, exec (.irigFrame f) s = .next t ∧ Says.beatOnly s t [] ∧ t.beat = { s.beat with irigLast := some (s.irigNum f) } := by
  have heq := (irigFrame_mode1 f hd hm).2 hgood
  rw [if_neg] at heq
  · have hw := (State.WroteIn.refl s []).onBeat (fun z => { z with irigLast := some (s.irigNum f) })
    exact ⟨_, exec_irigFrame f hl heq fun p _ => rfl, hw.beatOnly, rfl⟩
  · rintro ⟨⟨l, hlast, hnext⟩, hsel⟩
    rcases h with h | h
    · exact h hsel
    · exact h l hlast hnext

/-- A second mark whose number is known makes TAI known, and is an update. -/
theorem secondMark_known (x : Int) (n : Nat) : s.secondMark x (some n) =
    (s.taiFrom ((n : Int) * 1000000000 - s.packRel x / nsU)).refUpdate
      ((s.taiFrom ((n : Int) * 1000000000 - s.packRel x / nsU)).taiAt x - (n : Int) * secU) := rfl

/-- The second good frame in a row of a known year marks its second. -/
theorem exec_irigFrame_mark (hl : Says.noLink s) (f : IrigFrame) (hd : s.domOn domSteward = true) (hm : s.rd R.IRIG_CTRL_MODE = 1)
    (hlock : s.rd R.BEAT_STAT_LOCK < 3) (hgood : ¬ s.irigBad f) (hsel : s.rd R.BEAT_CTRL_SRC_SEL = 2)
    (hsec : s.irigSec f = some (s.irigNum f)) (hlast : ∃ l, s.beat.irigLast = some l ∧ l + 1 = s.irigNum f) :
    ∃ t, exec (.irigFrame f) s = .next t ∧ t.bit R.IRIG_STAT_VALID = true ∧ t.bit R.BEAT_STAT_TAI_VALID = true ∧
      t.rd R.IRIG_STAT_BAD = s.rd R.IRIG_STAT_BAD ∧ t.beat.irigLast = some (s.irigNum f) ∧ t.mem = s.mem ∧ t.cores = s.cores ∧
      (let e : Int := (s.irigNum f : Int) * 1000000000 - s.packRel s.time / nsU;
        s.bit R.BEAT_STAT_TAI_VALID = false → 0 ≤ e → e < 2 ^ 48 * 1000000000 → t.epochTai = e) ∧
      (s.bit R.BEAT_STAT_TAI_VALID = true → t.epochTai = s.epochTai ∧
        ((s.role = roleAlone ∨ s.role = roleMaster) ∧ s.bit R.BEAT_STAT_DISC_PEND = false ∧ s.rd R.DISC_CTRL_SLEW_MAX = 0 →
          Says.steered s t (s.taiAt s.time - (s.irigNum f : Int) * secU))) := by
  have heq := (irigFrame_mode1 f hd hm).2 hgood
  rw [if_pos ⟨hlast, hsel⟩, hsec, secondMark_known] at heq
  generalize s.irigNum f = n at *
  have hpre : s.WroteIn ((s.onBeat (fun z => { z with irigLast := some n })).wb R.IRIG_STAT_VALID (some n).isSome) [R.IRIG_STAT] :=
    ((State.WroteIn.refl _ _).onBeat _).wr _ _
  have hbeat : ((s.onBeat (fun z => { z with irigLast := some n })).wb R.IRIG_STAT_VALID (some n).isSome).beat = { s.beat with irigLast := some n } := by
    rw [State.wb, State.wr_beat, State.onBeat_beat]
  have hvalid : ((s.onBeat (fun z => { z with irigLast := some n })).wb R.IRIG_STAT_VALID (some n).isSome).bit R.IRIG_STAT_VALID = true :=
    bit_wr_one _
  have hbad : ((s.onBeat (fun z => { z with irigLast := some n })).wb R.IRIG_STAT_VALID (some n).isSome).rd R.IRIG_STAT_BAD =
      s.rd R.IRIG_STAT_BAD := (State.rd_wr_ne _ _ _ _ (by decide) (by decide)).trans (rd_onBeat _ _)
  generalize (s.onBeat (fun z => { z with irigLast := some n })).wb R.IRIG_STAT_VALID (some n).isSome = u at *
  have hrel : u.packRel s.time = s.packRel s.time := by
    unfold State.packRel State.packAt
    rw [hbeat]
  rw [hrel] at heq
  generalize (n : Int) * 1000000000 - s.packRel s.time / nsU = e at *
  obtain ⟨off, hoff⟩ : ∃ off, off = (u.taiFrom e).taiAt s.time - (n : Int) * secU := ⟨_, rfl⟩
  rw [← hoff] at heq
  obtain ⟨hup, htv, hwords, hfirst, hlater⟩ := refUpdate_taiFrom (s := u) (u := u.taiFrom e) (e := e) (off := off)
    ((hpre.rd R.BEAT_STAT_LOCK).symm ▸ hlock) rfl (taiFrom_beat e)
  have hinvalid : u.bit R.BEAT_STAT_TAI_VALID = s.bit R.BEAT_STAT_TAI_VALID := by
    unfold State.bit
    rw [hpre.rd R.BEAT_STAT_TAI_VALID]
  have hepoch : u.epochTai = s.epochTai := epochTai_of_words fun o ho => hpre.words o (by revert o; decide)
  have hstat : ∀ f : Fld, f.off = R.IRIG_STAT → ((u.taiFrom e).refUpdate off).rd f = u.rd f := fun f hf => by
    unfold State.rd
    rw [hf, hwords R.IRIG_STAT (by decide)]
  obtain ⟨p, c, hb⟩ := hup.beat
  refine ⟨_, exec_irigFrame f hl heq fun p hp => ?_, ?_, ?_, ?_, ?_, ?_, ?_, ?_, ?_⟩
  · rw [hwords _ (by revert p; decide), hpre.words _ (by revert p; decide)]
  · rw [State.settle_bit, State.bit, hstat R.IRIG_STAT_VALID rfl]
    exact hvalid
  · rw [State.settle_bit, htv]
  · rw [State.settle_rd, hstat R.IRIG_STAT_BAD rfl, hbad]
  · rw [State.settle_beat, hb, taiFrom_beat, hbeat]
  · rw [State.settle_mem, hup.frame.mem, (taiFrom_wroteIn e).wrote.mem, hpre.wrote.mem]
  · rw [State.settle_cores, hup.frame.cores, (taiFrom_wroteIn e).wrote.cores, hpre.wrote.cores]
  · intro e' hv h0 h1
    rw [epochTai_settle]
    exact hfirst (hinvalid.trans hv) h0 h1
  · intro hv
    obtain ⟨hkept, hsteer⟩ := hlater (hinvalid.trans hv)
    rw [epochTai_settle]
    refine ⟨hkept.trans hepoch, fun ⟨hrole, hpend, hslew⟩ => ?_⟩
    have hat : off = s.taiAt s.time - (n : Int) * secU := by
      rw [hoff, taiFrom_valid e (hinvalid.trans hv), taiAt_congr hepoch (by rw [hbeat]) (by rw [hbeat])]
    rw [← hat]
    refine steered_settle (steered_of_same (hpre.rd _) (hpre.words _ (by decide)) (by rw [hbeat]) (by rw [hbeat]) (hsteer ?_ ?_ ?_ ?_))
    · rw [State.role, hpre.rd R.BEAT_STAT_ROLE]
      exact hrole
    · rw [hpre.rd R.BEAT_CTRL_SRC_SEL, hsel]
      decide
    · rw [State.bit, hpre.rd R.BEAT_STAT_DISC_PEND]
      exact hpend
    · rw [hpre.rd R.DISC_CTRL_SLEW_MAX, hslew]

/-! ### PTP (R43) -/

theorem exec_ptpMessage {d : Octet} {m : PtpIn} (hl : Says.noLink s) (hu : s.ptpIn d.toNat m = u)
    (hw : ∀ p, p < 8 → u.word (R.FP_STAT p) = s.word (R.FP_STAT p)) : exec (.ptpMessage d m) s = .next u.settle := by
  show done (s.ptpIn d.toNat m).packSettle = _
  rw [hu, packSettle_noLink (noLink_of_fpStat hl hw), done_eq]

/-- A message of another domain does nothing. -/
theorem exec_ptpMessage_other (hl : Says.noLink s) (d : Octet) (m : PtpIn) (hd : d ≠ s.host.ptp.domain) :
    ∃ t, exec (.ptpMessage d m) s = .next t ∧ Says.regsOnly s t [] := by
  have heq : s.ptpIn d.toNat m = s := if_pos (Or.inl fun h => hd (BitVec.eq_of_toNat_eq h))
  exact ⟨_, exec_ptpMessage hl heq fun _ _ => rfl, regsOnly_settle s rfl (words_refl s _)⟩

/-- A message of the configured domain is taken. -/
theorem ptpIn_taken (hon : s.domOn domSteward = true) (gm : BitVec 64) (n : BitVec 16) (v : Option (BitVec 16)) (ns : Reg32) (q : BitVec 2) :
    (s.ptpIn s.host.ptp.domain.toNat (.announce gm n v) =
      let s1 := s.onHost (fun z => { z with ptpGm := gm, ptpSteps := n.toNat, ptpUtc := v })
      match v with
      | some u => s1.wrW R.TAI_UTC u.toNat
      | none => s1) ∧
    s.ptpIn s.host.ptp.domain.toNat (.pathDelay ns q) = s.onHost (fun z => { z with ptpDelay := 4 * ns.toNat + q.toNat }) := by
  have hc : ¬ (s.host.ptp.domain.toNat ≠ s.host.ptp.domain.toNat ∨ (!s.domOn domSteward) = true) := by
    rw [hon]
    simp
  unfold State.ptpIn
  rw [if_neg hc, if_neg hc]
  exact ⟨rfl, rfl⟩

theorem exec_announce (hl : Says.noLink s) (hon : s.domOn domSteward = true) (gm : BitVec 64) (n : BitVec 16) (v : Option (BitVec 16)) :
    ∃ t, exec (.ptpMessage s.host.ptp.domain (.announce gm n v)) s = .next t ∧
      t.host = { s.host with ptpGm := gm, ptpSteps := n.toNat, ptpUtc := v } ∧ t.beat = s.beat ∧ Says.words s t [R.TAI_UTC] ∧
      t.word R.TAI_UTC = (match v with
        | some x => x.setWidth 32
        | none => s.word R.TAI_UTC) := by
  have heq := (ptpIn_taken hon gm n v 0 0).1
  cases v with
  | none => exact ⟨_, exec_ptpMessage hl heq fun _ _ => rfl, State.settle_host _, State.settle_beat _, fun o _ => State.settle_word _ o, State.settle_word _ _⟩
  | some x =>
    have hw : Says.words s ((s.onHost (fun z => { z with ptpGm := gm, ptpSteps := n.toNat, ptpUtc := some x })).wrW R.TAI_UTC x.toNat)
        [R.TAI_UTC] := fun o ho => word_wrW_ne _ _ _ (by simpa using ho)
    refine ⟨_, exec_ptpMessage hl heq fun p hp => hw _ (by revert p; decide), State.settle_host _, State.settle_beat _, hw, ?_⟩
    rw [State.settle_word]
    unfold State.wrW
    rw [State.word_setWord_self]
    exact BitVec.ofNat_toNat 32 x

theorem exec_pathDelay (hl : Says.noLink s) (hon : s.domOn domSteward = true) (ns : Reg32) (q : BitVec 2) :
    ∃ t, exec (.ptpMessage s.host.ptp.domain (.pathDelay ns q)) s = .next t ∧
      t.host = { s.host with ptpDelay := 4 * ns.toNat + q.toNat } ∧ t.beat = s.beat ∧ t.hreg = s.hreg :=
  ⟨_, exec_ptpMessage hl (ptpIn_taken hon 0 0 none ns q).2 fun _ _ => rfl, State.settle_host _, State.settle_beat _, State.settle_hreg _⟩

/-- A Sync of the configured domain is nothing to another source. -/
theorem exec_sync_unused (hl : Says.noLink s) (sec : BitVec 48) (ns : Reg32) (q : BitVec 2)
    (hsel : s.rd R.BEAT_CTRL_SRC_SEL ≠ 3) :
    ∃ t, exec (.ptpMessage s.host.ptp.domain (.sync sec ns q)) s = .next t ∧ Says.regsOnly s t [] := by
  have heq : s.ptpIn s.host.ptp.domain.toNat (.sync sec ns q) = s := by
    unfold State.ptpIn
    dsimp only
    rw [if_pos hsel, ite_self]
  exact ⟨_, exec_ptpMessage hl heq fun _ _ => rfl, regsOnly_settle s rfl (words_refl s _)⟩

/-- What the master's clock shows at a Sync's arrival, in quarters of a nanosecond. -/
def State.masterTime (s : State) (sec : BitVec 48) (ns : Reg32) (q : BitVec 2) : Int :=
  4 * (sec.toNat * 1000000000 + ns.toNat) + q.toNat + s.host.ptpDelay

/-- A Sync of source 3: stamped, TAI learned from it where it is not known, an update of the servo. -/
theorem ptpIn_sync (hon : s.domOn domSteward = true) (sec : BitVec 48) (ns : Reg32) (q : BitVec 2) (hsel : s.rd R.BEAT_CTRL_SRC_SEL = 3) :
    ∃ x e off, (x = s.time * 4 / nsU ∨ x = s.time * 4 / nsU + 1) ∧
      e = (s.masterTime sec ns q * (nsU / 4) - s.packRel (x * (nsU / 4))) / nsU ∧
      off = (s.freeNext.taiFrom e).taiAt (x * (nsU / 4)) - s.masterTime sec ns q * (nsU / 4) ∧
      s.ptpIn s.host.ptp.domain.toNat (.sync sec ns q) =
        ((s.freeNext.taiFrom e).onHost (fun z => { z with ptpOffset := roundAway off nsU.toNat })).refUpdate off := by
  obtain ⟨x, hx, hstamp⟩ := macStamp_eq (s := s) s.time
  have hc : ¬ (s.host.ptp.domain.toNat ≠ s.host.ptp.domain.toNat ∨ (!s.domOn domSteward) = true) := by
    rw [hon]
    simp
  have hmaster : ((4 * (sec.toNat * 1000000000 + ns.toNat) + q.toNat + s.host.ptpDelay : Nat) : Int) = s.masterTime sec ns q := by
    unfold State.masterTime
    push_cast
    rfl
  refine ⟨x, _, _, hx, rfl, rfl, ?_⟩
  unfold State.ptpIn
  dsimp only
  rw [if_neg hc, if_neg (fun h => h hsel), hstamp, hmaster]
  rfl

theorem exec_sync (hl : Says.noLink s) (hon : s.domOn domSteward = true) (hlock : s.rd R.BEAT_STAT_LOCK < 3) (sec : BitVec 48) (ns : Reg32)
    (q : BitVec 2) (hsel : s.rd R.BEAT_CTRL_SRC_SEL = 3) :
    ∃ t x, exec (.ptpMessage s.host.ptp.domain (.sync sec ns q)) s = .next t ∧
      (x = s.time * 4 / nsU ∨ x = s.time * 4 / nsU + 1) ∧ t.bit R.BEAT_STAT_TAI_VALID = true ∧ t.mem = s.mem ∧ t.cores = s.cores ∧
      (s.bit R.BEAT_STAT_TAI_VALID = true →
        2 * ((t.host.ptpOffset * nsU - (s.taiAt (x * (nsU / 4)) - s.masterTime sec ns q * (nsU / 4))).natAbs : Int) ≤ nsU ∧
        t.epochTai = s.epochTai ∧
        ((s.role = roleAlone ∨ s.role = roleMaster) ∧ s.bit R.BEAT_STAT_DISC_PEND = false ∧ s.rd R.DISC_CTRL_SLEW_MAX = 0 →
          Says.steered s t (s.taiAt (x * (nsU / 4)) - s.masterTime sec ns q * (nsU / 4)))) ∧
      (s.bit R.BEAT_STAT_TAI_VALID = false → 0 ≤ (s.masterTime sec ns q * (nsU / 4) - s.packRel (x * (nsU / 4))) / nsU →
        (s.masterTime sec ns q * (nsU / 4) - s.packRel (x * (nsU / 4))) / nsU < 2 ^ 48 * 1000000000 →
        t.epochTai = (s.masterTime sec ns q * (nsU / 4) - s.packRel (x * (nsU / 4))) / nsU) := by
  obtain ⟨x, e, off, hx, he, hoff, heq⟩ := ptpIn_sync hon sec ns q hsel
  have hreg : s.freeNext.hreg = s.hreg := rfl
  obtain ⟨hup, htv, hwords, hfirst, hlater⟩ := refUpdate_taiFrom (s := s.freeNext)
    (u := (s.freeNext.taiFrom e).onHost (fun z => { z with ptpOffset := roundAway off nsU.toNat })) (e := e) (off := off)
    ((rd_of_hreg hreg _).symm ▸ hlock) (State.onHost_hreg _ _) ((State.onHost_beat _ _).trans (taiFrom_beat e))
  have hoffs : ((s.freeNext.taiFrom e).onHost (fun z => { z with ptpOffset := roundAway off nsU.toNat })).host.ptpOffset =
      roundAway off nsU.toNat := rfl
  have hmem : ((s.freeNext.taiFrom e).onHost (fun z => { z with ptpOffset := roundAway off nsU.toNat })).mem = s.mem := by
    rw [State.onHost_mem, (taiFrom_wroteIn e).wrote.mem]
    rfl
  have hcores : ((s.freeNext.taiFrom e).onHost (fun z => { z with ptpOffset := roundAway off nsU.toNat })).cores = s.cores := by
    rw [State.onHost_cores, (taiFrom_wroteIn e).wrote.cores]
    rfl
  generalize (s.freeNext.taiFrom e).onHost (fun z => { z with ptpOffset := roundAway off nsU.toNat }) = u at *
  have hepoch : s.freeNext.epochTai = s.epochTai := epochTai_of_words fun o _ => word_of_hreg hreg o
  rw [bit_of_hreg hreg] at hfirst hlater
  refine ⟨_, x, exec_ptpMessage hl heq fun p hp => ?_, hx, ?_, ?_, ?_, fun hv => ?_, fun hv h0 h1 => ?_⟩
  · rw [hwords _ (by revert p; decide), word_of_hreg hreg]
  · rw [State.settle_bit, htv]
  · rw [State.settle_mem, hup.frame.mem, hmem]
  · rw [State.settle_cores, hup.frame.cores, hcores]
  · have hat : s.taiAt (x * (nsU / 4)) - s.masterTime sec ns q * (nsU / 4) = off := by
      rw [hoff, taiFrom_valid e ((bit_of_hreg hreg _).trans hv), taiAt_congr hepoch rfl rfl]
    obtain ⟨hkept, hsteer⟩ := hlater hv
    rw [hat, State.settle_host, hup.frame.host, hoffs, epochTai_settle]
    refine ⟨?_, hkept.trans hepoch, fun ⟨hrole, hpend, hslew⟩ => ?_⟩
    · exact roundAway_near off nsU.toNat (by decide)
    · refine steered_settle (steered_of_same (rd_of_hreg hreg _) (word_of_hreg hreg _) rfl rfl (hsteer ?_ ?_ ?_ ?_))
      · rw [State.role, rd_of_hreg hreg]
        exact hrole
      · rw [rd_of_hreg hreg, hsel]
        decide
      · rw [bit_of_hreg hreg, hpend]
      · rw [rd_of_hreg hreg, hslew]
  · rw [epochTai_settle, hfirst hv (he ▸ h0) (he ▸ h1), he]

/-- A message the clock may send leaves with TAI as the MAC stamps it. -/
theorem exec_ptpMessageTransmit (hon : s.domOn domSteward = true) (m : PtpOut) (hlink : s.bit R.SVC_STAT_LINK = true)
    (hmay : if m = .delayReq then s.rd R.BEAT_CTRL_SRC_SEL = 3
      else s.rd R.BEAT_CTRL_SRC_SEL ≠ 3 ∧ (s.role = roleAlone ∨ s.role = roleMaster) ∧ s.rd R.BEAT_STAT_LOCK = 2 ∧
        s.host.ptp.flags.getLsbD 1 = true) :
    ∃ t x, exec (.ptpMessageTransmit m) s = .next t ∧ t.out = s.out ++ [.ptp m (x * (nsU / 4))] ∧
      (x = s.taiAt s.time * 4 / nsU ∨ x = s.taiAt s.time * 4 / nsU + 1) ∧ t.hreg = s.hreg ∧ t.mem = s.mem ∧ t.beat = s.beat := by
  obtain ⟨x, hx, hstamp⟩ := macStamp_eq (s := s) (s.taiAt s.time)
  have hm : s.ptpMay m = true := by
    cases m with
    | delayReq =>
      rw [if_pos rfl] at hmay
      exact beq_iff_eq.mpr hmay
    | _ =>
      rw [if_neg (by simp)] at hmay
      obtain ⟨h1, h2, h3, h4⟩ := hmay
      have h5 := leads_iff.mpr h2
      simp [State.ptpMay, lockLocked, h1, h3, h4, h5]
  have heq : s.freeNext.emit (.ptp m (x * (nsU / 4))) = { s.freeNext with out := s.out ++ [.ptp m (x * (nsU / 4))] } := rfl
  refine ⟨(s.freeNext.emit (.ptp m (x * (nsU / 4)))).settle, x, ?_, ?_, hx, ?_⟩
  · show done (if s.ptpMay m && s.domOn domSteward && s.bit R.SVC_STAT_LINK then s.freeNext.emit (.ptp m (s.macStamp (s.taiAt s.time))) else s) = _
    rw [hm, hon, hlink, hstamp]
    rfl
  · rw [State.settle_out, heq]
  · rw [State.settle_hreg, State.settle_mem, State.settle_beat, heq]
    exact ⟨rfl, rfl, rfl⟩

/-! ### BEAT_IN (R44) -/

theorem exec_beatInPulse (hl : Says.noLink s) (hu : s.beatInPulse = u) (hw : ∀ p, p < 8 → u.word (R.FP_STAT p) = s.word (R.FP_STAT p)) :
    exec .beatInPulse s = .next u.settle := by
  show done s.beatInPulse.packSettle = _
  rw [hu, packSettle_noLink (noLink_of_fpStat hl hw), done_eq]

/-- A pulse of source 4: the interval opens, is too far off, or its end is an update. -/
theorem beatInPulse_eq (hon : s.domOn domSteward = true) (hsel : s.rd R.BEAT_CTRL_SRC_SEL = 4) (hran : s.beat.ran = true)
    (hdiv : 0 < s.rdF R.BEATIN_CTRL_DIV) : s.beatInPulse =
      match s.beat.beatInLast with
      | none => s.onBeat (fun z => { z with beatInLast := some s.time })
      | some l =>
        if (s.rdF R.BEATIN_CTRL_DIV : Int) * s.periodU < 5000 * ((s.time - l - (s.rdF R.BEATIN_CTRL_DIV : Int) * s.periodU).natAbs : Int) then
          if s.servoOn then
            ((s.onBeat (fun z => { z with beatInLast := some s.time })).onBeat (fun z => { z with consec := 0 })).setLock lockAcquiring
          else s.onBeat (fun z => { z with beatInLast := some s.time })
        else (s.onBeat (fun z => { z with beatInLast := some s.time })).refUpdate (s.time - s.nearestMultiple s.time (s.rdF R.BEATIN_CTRL_DIV)) := by
  have hc : ¬ (s.rd R.BEAT_CTRL_SRC_SEL ≠ 4 ∨ (!s.beat.ran) = true ∨ s.rdF R.BEATIN_CTRL_DIV = 0 ∨ (!s.domOn domSteward) = true) := by
    rw [hsel, hran, hon]
    simp
    omega
  unfold State.beatInPulse
  dsimp only
  rw [if_neg hc] <;> rfl

section pulse

variable (hl : Says.noLink s) (hon : s.domOn domSteward = true) (hsel : s.rd R.BEAT_CTRL_SRC_SEL = 4) (hran : s.beat.ran = true)
  (hdiv : 0 < s.rdF R.BEATIN_CTRL_DIV)
include hl hon hsel hran hdiv

/-- The first pulse opens the interval (log 32). -/
theorem exec_beatInPulse_first (hlast : s.beat.beatInLast = none) : ∃ t, exec .beatInPulse s = .next t ∧ Says.beatOnly s t [] ∧
    t.beat = { s.beat with beatInLast := some s.time } := by
  have heq := beatInPulse_eq hon hsel hran hdiv
  rw [hlast] at heq
  have hw := (State.WroteIn.refl s []).onBeat (fun z => { z with beatInLast := some s.time })
  exact ⟨_, exec_beatInPulse hl heq fun _ _ => rfl, hw.beatOnly, State.settle_beat _⟩

variable {l : Int} (hlast : s.beat.beatInLast = some l) (hservo : s.servoOn = true) (hlock : s.rd R.BEAT_STAT_LOCK < 3)
include hlast hservo hlock

/-- A pulse out of its interval leaves the servo in ACQUIRING. -/
theorem exec_beatInPulse_far (hfar : (s.rdF R.BEATIN_CTRL_DIV : Int) * s.periodU <
      5000 * ((s.time - l - (s.rdF R.BEATIN_CTRL_DIV : Int) * s.periodU).natAbs : Int)) :
    ∃ t, exec .beatInPulse s = .next t ∧ Says.beatOnly s t [R.BEAT_STAT, R.BEAT_INT_STAT] ∧ t.rd R.BEAT_STAT_LOCK = 1 ∧
      t.beat = { s.beat with beatInLast := some s.time, consec := 0 } := by
  have heq := beatInPulse_eq hon hsel hran hdiv
  rw [hlast] at heq
  dsimp only at heq
  rw [if_pos hfar, if_pos hservo] at heq
  have hpre := ((State.WroteIn.refl s [R.BEAT_STAT, R.BEAT_INT_STAT]).onBeat (fun z => { z with beatInLast := some s.time })).onBeat
    (fun z => { z with consec := 0 })
  have hbeat : ((s.onBeat (fun z => { z with beatInLast := some s.time })).onBeat (fun z => { z with consec := 0 })).beat =
      { s.beat with beatInLast := some s.time, consec := 0 } := rfl
  have hlow : ((s.onBeat (fun z => { z with beatInLast := some s.time })).onBeat (fun z => { z with consec := 0 })).rd R.BEAT_STAT_LOCK < 3 := by
    rw [rd_onBeat, rd_onBeat]
    exact hlock
  generalize (s.onBeat (fun z => { z with beatInLast := some s.time })).onBeat (fun z => { z with consec := 0 }) = u at *
  have hw := hpre.trans (setLock_wroteIn hlow (n := lockAcquiring) (by decide))
  refine ⟨_, exec_beatInPulse hl heq fun p hp => hw.words _ (by revert p; decide), hw.beatOnly, ?_⟩
  rw [State.settle_rd, State.settle_beat, rd_setLock hlow (by decide), setLock_beat hlow (by decide)]
  exact ⟨rfl, hbeat⟩

/-- A pulse in its interval is an update by the distance from the nearest edge of its multiple. -/
theorem exec_beatInPulse_near (hp : 0 < s.periodU) (hslew : s.rd R.DISC_CTRL_SLEW_MAX = 0)
    (hnear : 5000 * ((s.time - l - (s.rdF R.BEATIN_CTRL_DIV : Int) * s.periodU).natAbs : Int) ≤ (s.rdF R.BEATIN_CTRL_DIV : Int) * s.periodU) :
    ∃ (t : State) (k : Int), exec .beatInPulse s = .next t ∧ ((s.beat.num.toNat : Int) + k) % s.rdF R.BEATIN_CTRL_DIV = 0 ∧
      2 * ((s.time - (s.beat.lastEdge + k * s.periodU)).natAbs : Int) ≤ (s.rdF R.BEATIN_CTRL_DIV : Int) * s.periodU ∧
      t.beat.beatInLast = some s.time ∧ t.mem = s.mem ∧ t.cores = s.cores ∧
      Says.steered s t (s.time - (s.beat.lastEdge + k * s.periodU)) := by
  have heq := beatInPulse_eq hon hsel hran hdiv
  obtain ⟨k, hk, hmul, hdist⟩ := nearestMultiple_eq hdiv hp s.time
  rw [hlast] at heq
  dsimp only at heq
  rw [if_neg (Int.not_lt.mpr hnear), hmul] at heq
  have hreg : (s.onBeat (fun z => { z with beatInLast := some s.time })).hreg = s.hreg := rfl
  have hbeat : (s.onBeat (fun z => { z with beatInLast := some s.time })).beat = { s.beat with beatInLast := some s.time } := rfl
  have hmem : (s.onBeat (fun z => { z with beatInLast := some s.time })).mem = s.mem := rfl
  have hcores : (s.onBeat (fun z => { z with beatInLast := some s.time })).cores = s.cores := rfl
  generalize s.onBeat (fun z => { z with beatInLast := some s.time }) = u at *
  have hlow : u.rd R.BEAT_STAT_LOCK < 3 := (rd_of_hreg hreg _).symm ▸ hlock
  have hon' : u.servoOn = true := by
    unfold State.servoOn State.leads State.role at hservo ⊢
    rw [rd_of_hreg hreg, rd_of_hreg hreg, bit_of_hreg hreg]
    exact hservo
  have hup := refUpdate_updated (s.time - (s.beat.lastEdge + k * s.periodU)) hlow
  have hsteer := refUpdate_steered (s.time - (s.beat.lastEdge + k * s.periodU)) hon' hlow ((rd_of_hreg hreg _).trans hslew)
  obtain ⟨p, c, hb⟩ := hup.beat
  refine ⟨_, k, exec_beatInPulse hl heq fun p hp => ?_, hk, hdist, ?_, ?_, ?_, ?_⟩
  · rw [hup.frame.words _ (by revert p; decide), word_of_hreg hreg]
  · rw [State.settle_beat, hb, hbeat]
  · rw [State.settle_mem, hup.frame.mem, hmem]
  · rw [State.settle_cores, hup.frame.cores, hcores]
  · exact steered_settle (steered_of_same (rd_of_hreg hreg _) (word_of_hreg hreg _) (by rw [hbeat]) (by rw [hbeat]) hsteer)

end pulse

/-! ### The wrap of pack time and the crystal (R30, R57) -/

/-- At the wrap the epoch of TAI advances by 2^56 ns, and a record tells of it. -/
theorem exec_epochAdvance (hon : s.domOn domSteward = true) (he : s.epochTai + 2 ^ 56 < 2 ^ 48 * 1000000000) :
    ∃ t, exec .epochAdvance s = .next t ∧ t.epochTai = s.epochTai + 2 ^ 56 ∧ t.beat.num = s.beat.num ∧ t.beat.lastEdge = s.beat.lastEdge ∧
      t.beat.off = s.beat.off ∧ t.bit R.BEAT_INT_STAT_DISC = true ∧ t.mem = s.mem ∧ t.cores = s.cores := by
  have h0 : 0 ≤ s.epochTai + 2 ^ 56 := by
    have : 0 ≤ s.epochTai := Int.natCast_nonneg _
    omega
  have h56 : (72057594037927936 : Int) = 2 ^ 56 := by norm_num
  obtain ⟨x, d, heq⟩ : ∃ x d, s.epochAdvance = ((({ s with time := x } : State).onBeat (fun z => { z with wraps := z.wraps + 1 })).setEpochTai
      (s.epochTai + 2 ^ 56)).emitDisc d := by
    unfold State.epochAdvance State.disc
    rw [h56]
    exact ⟨_, _, rfl⟩
  obtain ⟨v, hv⟩ : ∃ v, v = ({ s with time := x } : State).onBeat (fun z => { z with wraps := z.wraps + 1 }) := ⟨_, rfl⟩
  rw [← hv] at heq
  have hepoch : (v.setEpochTai (s.epochTai + 2 ^ 56)).epochTai = s.epochTai + 2 ^ 56 := epochTai_setEpochTai h0 he
  have hset := (setEpochTai_wroteIn (s := v) (s.epochTai + 2 ^ 56))
  have hbeat := setEpochTai_beat (s := v) (s.epochTai + 2 ^ 56)
  generalize v.setEpochTai (s.epochTai + 2 ^ 56) = u at *
  have htold := State.Told.offerRec u (discRec d)
  refine ⟨(u.emitDisc d).settle, ?_, ?_⟩
  · show done (if s.domOn domSteward then s.epochAdvance else s) = _
    rw [if_pos hon, heq, done_eq]
  unfold State.emitDisc
  rw [epochTai_settle, State.settle_beat, State.settle_bit, State.settle_mem, State.settle_cores, set1_beat,
    State.bit_set1 _ _ (by decide) (by decide)]
  have hwords : ∀ o, o ∈ epochWords → ((u.offerRec (discRec d)).set1 R.BEAT_INT_STAT_DISC).word o = u.word o := by
    intro o ho
    rw [State.set1, State.word_wr_off _ _ _ _ (by revert o; decide), htold.words o (by unfold Reported; revert o; decide)]
  have hmem := hset.wrote.mem
  have hcores := hset.wrote.cores
  obtain ⟨r, e, j, h, hshape⟩ := htold.shape
  rw [epochTai_of_words hwords, hepoch, State.set1, State.wr_mem, State.wr_cores, hshape]
  show _ ∧ u.beat.num = _ ∧ u.beat.lastEdge = _ ∧ u.beat.off = _ ∧ _ ∧ u.mem = _ ∧ u.cores = _
  rw [hbeat, hmem, hcores, hv]
  exact ⟨rfl, rfl, rfl, rfl, rfl, rfl, rfl⟩

/-- A calibration window that ends stores the tick while the beat runs, not in HOLDOVER. -/
theorem exec_aonCalibration (tick : BitVec 31) : ∃ t, exec (.aonCalibration tick) s = .next t ∧ Says.regsOnly s t [R.AON_CAL] ∧
    (s.bit R.BEAT_STAT_RUNNING = true → s.rd R.BEAT_STAT_LOCK ≠ 3 → t.rd R.AON_CAL_TICK = tick.toNat ∧ t.bit R.AON_CAL_VALID = true) ∧
    (s.bit R.BEAT_STAT_RUNNING = false ∨ s.rd R.BEAT_STAT_LOCK = 3 → t.word R.AON_CAL = s.word R.AON_CAL) := by
  refine ⟨(s.aonCalibration tick).settle, rfl, ?_⟩
  unfold State.aonCalibration
  split
  · next h =>
    have hw := ((State.WroteIn.refl s [R.AON_CAL]).wr R.AON_CAL_TICK tick.toNat).wr R.AON_CAL_VALID 1
    refine ⟨regsOnly_settle s (State.wr_wr_hreg _ _ _ _ _) hw.words, fun _ _ => ?_, fun hno => ?_⟩
    · rw [State.settle_rd, State.settle_bit, bit_wr_one _, State.rd_wr_ne _ _ _ _ (by decide) (by decide), State.rd_wr _ _ _ (by decide)]
      exact ⟨Nat.mod_eq_of_lt tick.isLt, rfl⟩
    · rcases hno with hno | hno
      · rw [hno] at h
        cases h.1
      · exact absurd hno h.2
  · next h => exact ⟨regsOnly_settle s rfl (words_refl s _), fun h1 h2 => absurd ⟨h1, h2⟩ h, fun _ => State.settle_word _ _⟩

/-- Settles O35: each reference brings an instant of known TAI or a place on the grid (`refUpdate_taiFrom`, `nearestMultiple_eq`), and an
update is what `refUpdate_steered` says. -/
theorem referenceResults : Obligations.ReferenceResults := by
  unfold Obligations.ReferenceResults
  intro s hl hon leads servo
  refine ⟨fun hlock => ⟨fun f hm => ⟨fun hbad => ?irigBad, fun hgood h => ?irigKept, fun hgood hsel hsec hlast => ?irigMark⟩,
      fun gm n v => exec_announce hl hon gm n v, fun ns q => exec_pathDelay hl hon ns q,
      fun sec ns q => ⟨fun hsel => exec_sync_unused hl sec ns q hsel, fun hsel => exec_sync hl hon hlock sec ns q hsel⟩,
      fun hsel hran hdiv => ⟨fun hlast => exec_beatInPulse_first hl hon hsel hran hdiv hlast, fun l hlast hp hservo => ?beatIn⟩⟩,
    fun d m hd => exec_ptpMessage_other hl d m hd, fun m hlink hmay => exec_ptpMessageTransmit hon m hlink hmay,
    fun he => exec_epochAdvance hon he, fun tick => exec_aonCalibration tick⟩
  case irigBad => exact exec_irigFrame_bad hl f hon hm hbad
  case irigKept => exact exec_irigFrame_kept hl f hon hm hgood h
  case irigMark => exact exec_irigFrame_mark hl f hon hm hlock hgood hsel hsec hlast
  case beatIn =>
    obtain ⟨hrole, hpend, hslew⟩ := hservo
    have hs : s.servoOn = true := servoOn_eq hrole (by rw [hsel]; decide) hpend
    exact ⟨fun hfar => exec_beatInPulse_far hl hon hsel hran hdiv hlast hs hlock hfar,
      fun hnear => exec_beatInPulse_near hl hon hsel hran hdiv hlast hs hlock hp hslew hnear⟩

end Sys2Proof.Machine

/-! SUPPORT. A framed Bertia command of a mailbox: how it is taken, and how it completes (R473 to R477). -/

namespace Sys2Proof.Machine

open Sys2Proof

-- One proof after another, as in the tests: theorems checked side by side need more threads than the check's memory limit allows.
set_option Elab.async false

variable {s t u v : State} {h : BHdr}

/-! ### Channels -/

theorem chan_setChan (ch : Nat) (c : Chan) (j : Nat) : (s.setChan ch c).chan j = if j = ch then c else s.chan j := mget_mset _ _ _ _ _

theorem chan_setChan_self (ch : Nat) (c : Chan) : (s.setChan ch c).chan ch = c := by rw [chan_setChan, if_pos rfl]

theorem chan_setChan_ne {ch j : Nat} (c : Chan) (hj : j ≠ ch) : (s.setChan ch c).chan j = s.chan j := by rw [chan_setChan, if_neg hj]

/-- The mailbox's own state and its completion's words, apart from what a command changes elsewhere. -/
theorem chan_of_host (hh : t.host.chans = s.host.chans) (j : Nat) : t.chan j = s.chan j := by
  unfold State.chan
  rw [hh]

theorem chan_settle (j : Nat) : s.settle.chan j = s.chan j := chan_of_host (by rw [State.settle_host]) j

/-- From v, u has been reached by changes of BAR0 words, of the channels and of what leaves the device alone. -/
def State.Mailed (v u : State) : Prop := ∃ r z o, u = { v with hreg := r, host := { v.host with chans := z }, out := o }

namespace State.Mailed

theorem refl (v : State) : v.Mailed v := ⟨_, _, _, rfl⟩

theorem wr (h : v.Mailed u) (f : Fld) (n : Nat) : v.Mailed (u.wr f n) := by
  obtain ⟨r, z, o, rfl⟩ := h
  exact ⟨_, z, o, rfl⟩

theorem setChan (h : v.Mailed u) (ch : Nat) (c : Chan) : v.Mailed (u.setChan ch c) := by
  obtain ⟨r, z, o, rfl⟩ := h
  exact ⟨r, _, o, rfl⟩

theorem emit (h : v.Mailed u) (x : Out) : v.Mailed (u.emit x) := by
  rcases u.emit_or x with he | he
  · rw [he]
    exact h
  · rw [he]
    obtain ⟨r, z, o, rfl⟩ := h
    exact ⟨r, z, _, rfl⟩

theorem ite {c : Prop} [Decidable c] (ht : v.Mailed t) (hu : v.Mailed u) : v.Mailed (if c then t else u) := by
  split <;> assumption

end State.Mailed

/-! ### Completion -/

/-- The command in progress of mailbox m is done: its entry written, after its data where they do not fit, and counted (R473). -/
def State.ended (v : State) (h : BHdr) (head status : Nat) (data : List Octet) : State :=
  let m := h.ch.toNat
  let ext := decide (48 < data.length)
  let s1 := v.setChan m { v.chan m with busy := none }
  let s3 := if ext then s1.emit (.dmaWrite h.raddr data) else s1
  ((s3.ringEntry m h.tag.toNat status data.length head ext false (if ext then [] else data)).inc (R.MB_DONE_V m)).set1 (R.MB_EVT_CPL m)

theorem word_emit (o : Out) (x : Nat) : (s.emit o).word x = s.word x := word_of_hreg (State.emit_hreg s o) x

theorem rd_setChan (ch : Nat) (c : Chan) (f : Fld) : (s.setChan ch c).rd f = s.rd f := rfl

theorem word_setChan (ch : Nat) (c : Chan) (x : Nat) : (s.setChan ch c).word x = s.word x := rfl

/-- What precedes the entry: the mailbox is free again, and data too long for it have gone out. -/
def State.entryReady (v : State) (h : BHdr) (data : List Octet) : State :=
  let s1 := v.setChan h.ch.toNat { v.chan h.ch.toNat with busy := none }
  if decide (48 < data.length) then s1.emit (.dmaWrite h.raddr data) else s1

theorem entryReady_mailed (data : List Octet) : v.Mailed (v.entryReady h data) :=
  .ite (((State.Mailed.refl v).setChan _ _).emit _) ((State.Mailed.refl v).setChan _ _)

theorem entryReady_out (data : List Octet) :
    (v.entryReady h data).out = v.out ++ (if decide (48 < data.length) = true then [.dmaWrite h.raddr data] else []) := by
  unfold State.entryReady
  dsimp only
  split
  · rfl
  · exact (List.append_nil _).symm

theorem entryReady_chan (data : List Octet) (c : Nat) :
    (v.entryReady h data).chan c = if c = h.ch.toNat then { v.chan h.ch.toNat with busy := none } else v.chan c := by
  unfold State.entryReady
  dsimp only
  split
  · exact chan_setChan _ _ _
  · exact chan_setChan _ _ _

/-- The entry written, before it is counted. -/
def State.entryDone (v : State) (h : BHdr) (head status : Nat) (data : List Octet) : State :=
  (v.entryReady h data).ringEntry h.ch.toNat h.tag.toNat status data.length head (decide (48 < data.length)) false
    (if decide (48 < data.length) then [] else data)

section ended

variable (h) (head status : Nat) (data : List Octet)

theorem ended_eq : v.ended h head status data = ((v.entryDone h head status data).inc (R.MB_DONE_V h.ch.toNat)).set1 (R.MB_EVT_CPL h.ch.toNat) := rfl

theorem word_entryReady (o : Nat) : (v.entryReady h data).word o = v.word o := by
  unfold State.entryReady
  dsimp only
  split
  · exact (word_emit _ _).trans (word_setChan _ _ _)
  · exact word_setChan _ _ _

theorem word_entryDone {o : Nat} (ho : o ≠ R.MB_STAT h.ch.toNat) : (v.entryDone h head status data).word o = v.word o := by
  unfold State.entryDone State.ringEntry
  dsimp only
  rw [word_setChan, State.word_wr_off _ _ _ _ ho, word_emit, word_entryReady]

theorem word_ended {o : Nat} (ho : o ∉ [R.MB_STAT h.ch.toNat, R.MB_DONE h.ch.toNat, R.MB_EVT h.ch.toNat]) :
    (v.ended h head status data).word o = v.word o := by
  simp only [List.mem_cons, List.not_mem_nil, or_false, not_or] at ho
  obtain ⟨hst, hdone, hevt⟩ := ho
  rw [ended_eq, State.set1, State.word_wr_off _ _ _ _ hevt, State.inc, State.satAdd, State.word_wr_off _ _ _ _ hdone, word_entryDone _ _ _ _ hst]

/-- MB_STAT: the completion tail moves on in its ring, and nothing else of it. -/
theorem rd_ended_ctail : (v.ended h head status data).rd (R.MB_STAT_CTAIL h.ch.toNat) =
    (v.rd (R.MB_STAT_CTAIL h.ch.toNat) + 1) % v.cplSize h.ch.toNat % 4096 := by
  have hready : ∀ f : Fld, (v.entryReady h data).rd f = v.rd f := fun f => by unfold State.rd; rw [word_entryReady]
  rw [ended_eq, State.set1, State.rd_wr_off _ _ _ _ (by simp), State.inc, State.satAdd, State.rd_wr_off _ _ _ _ (by simp)]
  unfold State.entryDone State.ringEntry State.cplSize
  dsimp only
  rw [hready, hready, rd_setChan, State.rd_wr _ _ _ (by simp)]
  rfl

theorem rd_ended_chead : (v.ended h head status data).rd (R.MB_STAT_CHEAD h.ch.toNat) = v.rd (R.MB_STAT_CHEAD h.ch.toNat) := by
  rw [ended_eq, State.set1, State.rd_wr_off _ _ _ _ (by simp), State.inc, State.satAdd, State.rd_wr_off _ _ _ _ (by simp)]
  unfold State.entryDone State.ringEntry
  dsimp only
  rw [rd_setChan, State.rd_wr_ne _ _ _ _ (by simp) (by simp)]
  unfold State.rd
  rw [word_emit, word_entryReady]

theorem rd_ended_done : (v.ended h head status data).rd (R.MB_DONE_V h.ch.toNat) = min (v.rd (R.MB_DONE_V h.ch.toNat) + 1) (2 ^ 32 - 1) := by
  rw [ended_eq, State.set1, State.rd_wr_off _ _ _ _ (by simp), State.inc, State.satAdd, State.rd_wr _ _ _ (by simp)]
  unfold State.rd
  rw [word_entryDone _ _ _ _ (by simp)]
  exact Nat.mod_eq_of_lt (by dsimp only; omega)

theorem bit_ended_cpl : (v.ended h head status data).bit (R.MB_EVT_CPL h.ch.toNat) = true := State.bit_set1 _ _ (by simp) (by simp)

theorem ended_mailed : v.Mailed (v.ended h head status data) :=
  (((((entryReady_mailed (h := h) data).emit _).wr _ _).setChan _ _).wr _ _).wr _ _

/-- The data by DMA where they are too long for the entry, then the entry. -/
theorem ended_out : (v.ended h head status data).out = v.out ++ (if decide (48 < data.length) = true then [.dmaWrite h.raddr data] else []) ++
    [.dmaWrite (v.cplAddr h.ch.toNat (v.rd (R.MB_STAT_CTAIL h.ch.toNat)))
      (cplOctets h.tag.toNat status data.length head (v.chan h.ch.toNat).phase (decide (48 < data.length)) false
        (if decide (48 < data.length) = true then [] else data))] := by
  have hw := word_entryReady h data (v := v)
  have hphase : ((v.entryReady h data).chan h.ch.toNat).phase = (v.chan h.ch.toNat).phase := by
    rw [entryReady_chan, if_pos rfl]
  have haddr : (v.entryReady h data).cplAddr h.ch.toNat ((v.entryReady h data).rd (R.MB_STAT_CTAIL h.ch.toNat)) =
      v.cplAddr h.ch.toNat (v.rd (R.MB_STAT_CTAIL h.ch.toNat)) := by
    unfold State.cplAddr State.rdW State.rd
    rw [hw, hw, hw]
  rw [ended_eq, State.set1, State.wr_out, State.inc, State.satAdd, State.wr_out]
  unfold State.entryDone State.ringEntry
  dsimp only
  rw [hphase, haddr, ← entryReady_out]
  rfl

theorem ended_chan_self : ((v.ended h head status data).chan h.ch.toNat).busy = none := by
  have hc : (v.ended h head status data).chan h.ch.toNat = (v.entryDone h head status data).chan h.ch.toNat := rfl
  rw [hc]
  unfold State.entryDone State.ringEntry
  dsimp only
  rw [chan_setChan_self, entryReady_chan, if_pos rfl]

theorem ended_chan_ne {c : Nat} (hc : c ≠ h.ch.toNat) : (v.ended h head status data).chan c = v.chan c := by
  have he : (v.ended h head status data).chan c = (v.entryDone h head status data).chan c := rfl
  rw [he]
  unfold State.entryDone State.ringEntry
  dsimp only
  rw [chan_setChan_ne _ hc]
  exact (entryReady_chan data c).trans (if_neg hc)

end ended

/-- The command's busy mark once mailbox h.ch has taken it without a DMA error (R475). -/
def busyOf (h : BHdr) (head : Nat) : Busy := ⟨h.tag, h.raddr, h.rcap.toNat, head, true, true, false⟩

/-- A command taken without a DMA error completes on a mailbox that runs, enabled, the host in reach, the steward not locked. -/
theorem complete_eq_ended {head status : Nat} {data : List Octet} (hm : h.ch.toNat < 16) (hb : (v.chan h.ch.toNat).busy = some (busyOf h head))
    (hrun : (v.core 1024).run ≠ .locked) (hdma : v.dmaUp = true) (hst : v.rd (R.MB_STAT_STATE h.ch.toNat) ≠ 2)
    (hen : v.rd (R.MB_CTRL_EN h.ch.toNat) ≠ 0) (hlen : data.length ≤ 48 ∨ data.length ≤ h.rcap.toNat) :
    v.complete h.ch.toNat status data = v.ended h head status data := by
  have hdone : ¬ ((busyOf h head).discard || (decide (h.ch.toNat < 16) && (!v.dmaUp || v.rd (R.MB_STAT_STATE h.ch.toNat) == 2))) = true := by
    rw [hdma]
    simp [busyOf, hst]
  have hsmall : ¬ (h.ch.toNat < 16 ∧ 48 < data.length ∧ (busyOf h head).rcap < data.length) := by
    rintro ⟨-, h1, h2⟩
    have h3 : h.rcap.toNat < data.length := h2
    omega
  have hon : ¬ (v.ended h head status data).rd (R.MB_CTRL_EN h.ch.toNat) = 0 := by
    unfold State.rd at hen ⊢
    rw [word_ended h head status data (by simp)]
    exact hen
  have hfail : (decide (48 < data.length) && !(busyOf h head).dataOk) = false := by simp [busyOf]
  unfold State.complete
  dsimp only
  rw [hb]
  dsimp only
  rw [if_neg hrun, if_neg hdone, if_neg hsmall, if_pos hm, hfail]
  simp only [Bool.not_false, Bool.and_true]
  exact (if_neg Bool.false_ne_true).trans (if_neg hon)

/-! ### A command in progress -/

/-- In v the command h of a mailbox is in progress, taken in s; all else is that of u, whose mailbox is that of s. -/
structure State.Taken (s : State) (h : BHdr) (u v : State) : Prop where
  mbx : h.ch.toNat < 16
  shape : ∃ r z, v = { u with hreg := r, host := { u.host with chans := z } }
  words : ∀ o, o ≠ R.MB_STAT h.ch.toNat → v.word o = u.word o
  chans : ∀ c, c ≠ h.ch.toNat → v.chan c = u.chan c
  busy : (v.chan h.ch.toNat).busy = some (busyOf h (s.rd (R.MB_STAT_CHEAD h.ch.toNat)))
  phase : (v.chan h.ch.toNat).phase = (s.chan h.ch.toNat).phase
  chead : v.rd (R.MB_STAT_CHEAD h.ch.toNat) = (s.rd (R.MB_STAT_CHEAD h.ch.toNat) + 1) % s.cmdSize h.ch.toNat % 4096
  ctail : v.rd (R.MB_STAT_CTAIL h.ch.toNat) = s.rd (R.MB_STAT_CTAIL h.ch.toNat)
  state : v.rd (R.MB_STAT_STATE h.ch.toNat) = 1
  mail : ∀ o, o ∈ [R.MB_CTRL h.ch.toNat, R.MB_CPL_LO h.ch.toNat, R.MB_CPL_HI h.ch.toNat, R.MB_DONE h.ch.toNat] → u.word o = s.word o
  enabled : s.rd (R.MB_CTRL_EN h.ch.toNat) ≠ 0
  reach : u.dmaUp = true
  unlocked : (u.core 1024).run ≠ .locked

/-- The entry of R473 as the statements spell it. -/
theorem entry_eq (m tag status dlen cidx : Nat) (ext : Bool) (data : List Octet) :
    Out.dmaWrite (s.cplAddr m (s.rd (R.MB_STAT_CTAIL m))) (cplOctets tag status dlen cidx (s.chan m).phase ext false data) =
      Says.entry s m tag status dlen cidx (if ext = true then 2 else 0) data := by
  unfold Says.entry cplOctets State.cplAddr
  cases ext <;> rfl

/-- A command in progress that completes has run. -/
theorem State.Taken.runs (hT : s.Taken h u v) (status : Nat) {data : List Octet} (hlen : data.length ≤ 48 ∨ data.length ≤ h.rcap.toNat) :
    Says.runs s (v.complete h.ch.toNat status data).settle h status data u := by
  have hmail : ∀ o, o ∈ [R.MB_CTRL h.ch.toNat, R.MB_CPL_LO h.ch.toNat, R.MB_CPL_HI h.ch.toNat, R.MB_DONE h.ch.toNat] → v.word o = s.word o := by
    intro o ho
    refine (hT.words o ?_).trans (hT.mail o ho)
    simp only [List.mem_cons, List.not_mem_nil, or_false] at ho
    rcases ho with rfl | rfl | rfl | rfl <;> simp
  have hrd : ∀ f : Fld, f.off ∈ [R.MB_CTRL h.ch.toNat, R.MB_CPL_LO h.ch.toNat, R.MB_CPL_HI h.ch.toNat, R.MB_DONE h.ch.toNat] → v.rd f = s.rd f := by
    intro f hf
    unfold State.rd
    rw [hmail _ hf]
  have hsize : v.cplSize h.ch.toNat = s.cplSize h.ch.toNat := by
    unfold State.cplSize
    rw [hrd _ (by simp)]
  have haddr : v.cplAddr h.ch.toNat (v.rd (R.MB_STAT_CTAIL h.ch.toNat)) = s.cplAddr h.ch.toNat (s.rd (R.MB_STAT_CTAIL h.ch.toNat)) := by
    unfold State.cplAddr State.rdW
    rw [hmail _ (by simp), hmail _ (by simp), hT.ctail]
  have hv : v.dmaUp = u.dmaUp ∧ v.out = u.out ∧ (v.core 1024).run = (u.core 1024).run := by
    obtain ⟨r, z, rfl⟩ := hT.shape
    exact ⟨rfl, rfl, rfl⟩
  obtain ⟨hdma, hout, hcore⟩ := hv
  rw [complete_eq_ended hT.mbx hT.busy (hcore ▸ hT.unlocked) (hdma ▸ hT.reach) (by rw [hT.state]; decide)
    (by rw [hrd _ (by simp)]; exact hT.enabled) hlen]
  refine ⟨?_, ?_, fun o ho => ?_, fun c hc => ?_, ?_, ?_, ?_, ?_, ?_, ?_⟩
  · obtain ⟨r, z, rfl⟩ := hT.shape
    obtain ⟨r', z', o', he⟩ := ended_mailed h (s.rd (R.MB_STAT_CHEAD h.ch.toNat)) status data (v := { u with hreg := r, host := { u.host with chans := z } })
    rw [he]
    rfl
  · obtain ⟨r, z, rfl⟩ := hT.shape
    obtain ⟨r', z', o', he⟩ := ended_mailed h (s.rd (R.MB_STAT_CHEAD h.ch.toNat)) status data (v := { u with hreg := r, host := { u.host with chans := z } })
    rw [he]
    exact sensed_settle rfl rfl
  · rw [State.settle_word, word_ended _ _ _ _ ho]
    exact hT.words o fun e => ho (by simp [e])
  · rw [chan_settle, ended_chan_ne _ _ _ _ hc, hT.chans c hc]
  · rw [State.settle_out, ended_out, haddr, hT.phase, entry_eq, hout]
  · rw [State.settle_rd, rd_ended_ctail, hsize, hT.ctail]
  · rw [State.settle_rd, rd_ended_chead, hT.chead]
  · rw [State.settle_rd, rd_ended_done, hrd _ (by simp)]
  · rw [State.settle_bit, bit_ended_cpl]
  · rw [chan_settle, ended_chan_self]

/-! ### Taking a command -/

/-- The command is taken, and the session of its channel goes on (R439, R475). -/
def State.taken (s : State) (h : BHdr) : State := (s.takeCmd h).touchSession h.ch.toNat

/-- The command taken, before its session is renewed. -/
theorem takeCmd_mailbox (hm : h.ch.toNat < 16) (hd : h.dma = .ok) : s.takeCmd h =
    (s.wr (R.MB_STAT_CHEAD h.ch.toNat) ((s.rd (R.MB_STAT_CHEAD h.ch.toNat) + 1) % s.cmdSize h.ch.toNat)).setChan h.ch.toNat
      { s.chan h.ch.toNat with busy := some (busyOf h (s.rd (R.MB_STAT_CHEAD h.ch.toNat))) } := by
  unfold State.takeCmd
  dsimp only
  rw [if_pos hm, hd]
  rfl

/-- A session that has not timed out starts its time anew; nothing else of its channel differs. -/
theorem touchSession_eq (ch : Nat) (hx : ∀ x, (s.chan ch).sess = some x → s.time < x.expires) :
    s.touchSession ch = s ∨ ∃ x, s.touchSession ch = s.setChan ch { s.chan ch with sess := some x } := by
  unfold State.touchSession
  split
  · exact Or.inl rfl
  · next x hs =>
    rw [if_neg (Int.not_le.mpr (hx x hs))]
    exact Or.inr ⟨_, rfl⟩

/-- What the steward has before it as it starts a command of a mailbox (R475, R476). -/
theorem canStart_mailbox (hm : h.ch.toNat < 16) (hr : s.boot.recovery = false) (hc : s.canStart h.ch.toNat = true) :
    s.stewardUp = true ∧ s.rd (R.MB_STAT_STATE h.ch.toNat) = 1 ∧ s.rd (R.MB_CTRL_EN h.ch.toNat) ≠ 0 ∧ s.dmaUp = true := by
  unfold State.canStart at hc
  rw [hr, if_pos hm] at hc
  simp only [Bool.false_and, Bool.or_false, Bool.and_eq_true, Bool.not_eq_true', beq_iff_eq, bne_iff_ne] at hc
  obtain ⟨⟨hup, -⟩, ⟨⟨⟨⟨⟨-, hst⟩, hen⟩, -⟩, -⟩, hd3⟩, hlink⟩ := hc
  refine ⟨hup, hst, ?_, ?_⟩
  · exact bne_iff_ne.mp hen
  · rw [State.dmaUp, hlink, hd3]
    rfl

/-- A framed command is taken. -/
theorem taken_taken {len most : Nat} {role : Option Bool} (hf : Says.framed s h len most role) : s.Taken h s (s.taken h) := by
  obtain ⟨hm, hcan, hrec, -, -, -, -, -, hdma, -, -, hsess, -⟩ := hf
  obtain ⟨hup, hst, hen, hreach⟩ := canStart_mailbox hm hrec hcan
  have htake := takeCmd_mailbox (s := s) hm hdma
  obtain ⟨w, hw⟩ : ∃ w, w = s.wr (R.MB_STAT_CHEAD h.ch.toNat) ((s.rd (R.MB_STAT_CHEAD h.ch.toNat) + 1) % s.cmdSize h.ch.toNat) := ⟨_, rfl⟩
  rw [← hw] at htake
  have hwchan : ∀ c, w.chan c = s.chan c := fun c => by rw [hw]; rfl
  have hlive : ∀ x, ((s.takeCmd h).chan h.ch.toNat).sess = some x → (s.takeCmd h).time < x.expires := by
    intro x hx
    rw [htake, chan_setChan_self] at hx
    rw [htake, hw]
    exact hsess x hx
  have hbusy : ((s.taken h).chan h.ch.toNat).busy = some (busyOf h (s.rd (R.MB_STAT_CHEAD h.ch.toNat))) ∧
      ((s.taken h).chan h.ch.toNat).phase = (s.chan h.ch.toNat).phase := by
    unfold State.taken
    rcases touchSession_eq h.ch.toNat hlive with he | ⟨x, he⟩
    · rw [he, htake, chan_setChan_self]
      exact ⟨rfl, rfl⟩
    · rw [he, chan_setChan_self, htake, chan_setChan_self]
      exact ⟨rfl, rfl⟩
  have hother : ∀ c, c ≠ h.ch.toNat → (s.taken h).chan c = s.chan c := by
    intro c hc
    unfold State.taken
    rcases touchSession_eq h.ch.toNat hlive with he | ⟨x, he⟩
    · rw [he, htake, chan_setChan_ne _ hc, hwchan]
    · rw [he, chan_setChan_ne _ hc, htake, chan_setChan_ne _ hc, hwchan]
  obtain ⟨z, hz⟩ : ∃ z, s.taken h = { w with host := { w.host with chans := z } } := by
    unfold State.taken
    rcases touchSession_eq h.ch.toNat hlive with he | ⟨x, he⟩
    · rw [he, htake]
      exact ⟨_, rfl⟩
    · rw [he, htake]
      exact ⟨_, rfl⟩
  have hword : ∀ o, (s.taken h).word o = w.word o := fun o => word_of_hreg (by rw [hz]) o
  have hrd : ∀ f, (s.taken h).rd f = w.rd f := fun f => rd_of_hreg (by rw [hz]) f
  refine ⟨hm, ⟨w.hreg, z, by rw [hz, hw]; rfl⟩, fun o ho => ?_, hother, hbusy.1, hbusy.2, ?_, ?_, ?_, fun _ _ => rfl, hen, hreach, ?_⟩
  · rw [hword, hw, State.word_wr_off _ _ _ _ ho]
  · rw [hrd, hw, State.rd_wr _ _ _ (by simp)]
    rfl
  · rw [hrd, hw, State.rd_wr_ne _ _ _ _ (by simp) (by simp)]
  · rw [hrd, hw, State.rd_wr_ne _ _ _ _ (by simp) (by simp), hst]
  · intro hlocked
    unfold State.stewardUp Core.takes at hup
    rw [hlocked, Bool.and_false] at hup
    cases hup

/-- The framing lets a framed command that asks for no role act (R474, R477). -/
theorem frameStatus_none {len most : Nat} {role : Option Bool} (hf : Says.framed s h len most role) (u : State) {sp : CmdSpec} (hl : sp.len = len)
    (hco : sp.co = false) (huser : sp.user = false) : u.frameStatus h sp = none := by
  obtain ⟨hm, -, -, hver, htag, hzero, haddr, hind, hdma, hlen, -, -, -⟩ := hf
  have hpar : ¬ (h.tag = 0xFFFF ∨ h.zeros = false ∨ (h.ch.toNat < 16 ∧ (h.raddr.toNat % 8 ≠ 0 ∨ (h.ind = true ∧ h.paddr.toNat % 8 ≠ 0) ∨
      ((!h.ind) = true ∧ 96 < h.len.toNat) ∨ (h.ind = true ∧ (h.len = 0 ∨ 16777216 < h.len.toNat))))) := by
    rintro (h1 | h1 | ⟨-, h1 | ⟨h1, h2⟩ | ⟨h1, h2⟩ | ⟨h1, h2 | h2⟩⟩)
    · exact htag h1
    · rw [hzero] at h1
      cases h1
    · exact h1 haddr
    · rw [if_pos h1] at hind
      exact h2 hind.1
    · have hno : ¬ h.ind = true := by
        intro hi
        rw [hi] at h1
        cases h1
      rw [if_neg hno] at hind
      omega
    · rw [if_pos h1] at hind
      rw [h2] at hlen
      have h0 : (0 : Reg32).toNat = 0 := rfl
      omega
    · rw [if_pos h1] at hind
      omega
  have hv : ¬ h.bver.toNat ≠ bertiaMajor := by
    rw [hver]
    decide
  have hdma' : ¬ (h.dma = .payload ∧ h.ch.toNat < 16) := by
    rw [hdma]
    rintro ⟨h1, -⟩
    cases h1
  have hlen' : ¬ h.len.toNat ≠ sp.len := fun hne => hne (hlen.trans hl.symm)
  have hsvc : ¬ (16 ≤ h.ch.toNat ∧ (!sp.noSession) = true ∧ (u.chan h.ch.toNat).sess.isNone = true) := fun hc => by omega
  have hrole : ¬ (sp.co = true ∧ (!u.coSession h.ch.toNat) = true ∨ sp.user = true ∧ (!u.userSession h.ch.toNat) = true) := by
    rw [hco, huser]
    simp
  unfold State.frameStatus
  dsimp only
  rw [if_neg hv, if_neg hpar, if_neg hdma', if_neg hlen', if_neg hsvc, if_neg hrole]

/-- A framed command acts: on the state in which it is taken. -/
theorem bertiaRow_framed {len most : Nat} (hf : Says.framed s h len most) {sp : CmdSpec} (hl : sp.len = len) (hmax : sp.maxData = most)
    (hco : sp.co = false) (huser : sp.user = false) (act : State → Reply) : bertiaRow h sp act s = .next (match act (s.taken h) with
      | .now st data t => t.complete h.ch.toNat st data
      | .later t => t).settle := by
  have hst := frameStatus_none hf (s.taken h) hl hco huser
  obtain ⟨hm, hcan, hrec, -, -, -, -, -, hdma, -, hroom, -, -⟩ := hf
  have hcan' : ¬ (!s.canStart h.ch.toNat) = true := by rw [hcan]; decide
  have hread : ¬ (h.dma = .ringRead ∧ h.ch.toNat < 16) := by
    rw [hdma]
    rintro ⟨h1, -⟩
    cases h1
  have hrom : ¬ (s.boot.recovery && !sp.rom) = true := by
    rw [hrec, Bool.false_and]
    decide
  have hfit : ¬ (h.ch.toNat < 16 ∧ 48 < sp.maxData ∧ h.rcap.toNat < sp.maxData) := by
    rw [hmax]
    omega
  unfold bertiaRow State.bertia
  rw [doneIf_true _ _ (show hdrOk h = true from decide_eq_true (by omega))]
  dsimp only
  rw [if_neg hcan', if_neg hread, if_neg hrom]
  rw [show ((s.takeCmd h).touchSession h.ch.toNat).frameStatus h sp = none from hst]
  dsimp only
  rw [if_neg hfit] <;> rfl

/-- A framed command that answers at once completes with its effect. -/
theorem completes_of_taken {ins : Instr} {len most : Nat} (hf : Says.framed s h len most) {sp : CmdSpec} (hl : sp.len = len)
    (hmax : sp.maxData = most) (hco : sp.co = false) (huser : sp.user = false) {act : State → Reply} (hexec : exec ins s = bertiaRow h sp act s)
    {st : Nat} {data : List Octet} (hact : act (s.taken h) = .now st data v) (hT : s.Taken h u v) (hlen : data.length ≤ 48 ∨ data.length ≤ h.rcap.toNat) :
    Says.completes ins s h st data u := by
  refine ⟨(v.complete h.ch.toNat st data).settle, ?_, hT.runs st hlen⟩
  rw [hexec, bertiaRow_framed hf hl hmax hco huser, hact]

end Sys2Proof.Machine

/-! PROOFS. Bertia 0x03xx: TAI, steps, PPS_SECOND and PTP (R487). -/

namespace Sys2Proof.Machine

open Sys2Proof

-- One proof after another, as in the tests: theorems checked side by side need more threads than the check's memory limit allows.
set_option Elab.async false

variable {s t u v x : State} {h : BHdr}

namespace State.Taken

/-- An effect that leaves the channel, the link and the mailbox's words alone, seen with the BAR0 words r beside the mailbox's status. -/
theorem rebase (hx : s.Taken h s x) (r : SMap Reg32) (hr : ∀ o, o ≠ R.MB_STAT h.ch.toNat → v.word o = ({ v with hreg := r } : State).word o)
    (hmbx : ∀ o, o ∈ [R.MB_STAT h.ch.toNat, R.MB_CTRL h.ch.toNat, R.MB_CPL_LO h.ch.toNat, R.MB_CPL_HI h.ch.toNat, R.MB_DONE h.ch.toNat] →
      v.word o = x.word o)
    (hch : v.host.chans = x.host.chans) (hdma : v.dmaUp = x.dmaUp) (hrun : (x.core 1024).run ≠ .locked → (v.core 1024).run ≠ .locked) :
    s.Taken h { v with hreg := r, host := { v.host with chans := s.host.chans } } v := by
  have hxs : x.dmaUp = s.dmaUp ∧ x.core 1024 = s.core 1024 := by
    obtain ⟨r', z, rfl⟩ := hx.shape
    exact ⟨rfl, rfl⟩
  have hchan : ∀ c, v.chan c = x.chan c := chan_of_host hch
  have hstat : ∀ f : Fld, f.off = R.MB_STAT h.ch.toNat → v.rd f = x.rd f := by
    intro f hf
    unfold State.rd
    rw [hf, hmbx _ (by simp)]
  refine ⟨hx.mbx, ⟨v.hreg, v.host.chans, rfl⟩, hr, fun c hc => ?_, ?_, ?_, ?_, ?_, ?_, fun o ho => ?_, hx.enabled, ?_, ?_⟩
  · rw [hchan, hx.chans c hc]
    rfl
  · rw [hchan, hx.busy]
  · rw [hchan, hx.phase]
  · rw [hstat _ rfl, hx.chead]
  · rw [hstat _ rfl, hx.ctail]
  · rw [hstat _ rfl, hx.state]
  · have hne : o ≠ R.MB_STAT h.ch.toNat := by
      simp only [List.mem_cons, List.not_mem_nil, or_false] at ho
      rcases ho with rfl | rfl | rfl | rfl <;> simp
    show ({ v with hreg := r } : State).word o = s.word o
    rw [← hr o hne, hmbx o (List.mem_cons_of_mem _ ho), hx.words o hne]
  · show v.dmaUp = true
    rw [hdma, hxs.1, hx.reach]
  · show (v.core 1024).run ≠ .locked
    exact hrun (hxs.2 ▸ hx.unlocked)

/-- An effect that leaves all BAR0 words alone as well. -/
theorem rebase_hreg (hx : s.Taken h s x) (hreg : v.hreg = x.hreg) (hch : v.host.chans = x.host.chans) (hdma : v.dmaUp = x.dmaUp)
    (hrun : (x.core 1024).run ≠ .locked → (v.core 1024).run ≠ .locked) :
    s.Taken h { v with hreg := s.hreg, host := { v.host with chans := s.host.chans } } v :=
  hx.rebase s.hreg (fun o ho => (word_of_hreg hreg o).trans (hx.words o ho)) (fun o _ => word_of_hreg hreg o) hch hdma hrun

end State.Taken

/-- An effect v of a command of s as its completion shows it: with the mailbox of s. -/
def State.seen (s : State) (h : BHdr) (v : State) : State :=
  { v with hreg := (v.setWord (R.MB_STAT h.ch.toNat) (s.word (R.MB_STAT h.ch.toNat))).hreg, host := { v.host with chans := s.host.chans } }

theorem word_seen {o : Nat} (ho : o ≠ R.MB_STAT h.ch.toNat) : (s.seen h v).word o = v.word o := by
  rw [← show (v.setWord (R.MB_STAT h.ch.toNat) (s.word (R.MB_STAT h.ch.toNat))).word o = v.word o by rw [State.word_setWord, if_neg ho]]
  exact word_of_hreg rfl o

theorem word_seen_stat : (s.seen h v).word (R.MB_STAT h.ch.toNat) = s.word (R.MB_STAT h.ch.toNat) := by
  refine (word_of_hreg (s := v.setWord (R.MB_STAT h.ch.toNat) (s.word (R.MB_STAT h.ch.toNat))) rfl _).trans ?_
  rw [State.word_setWord_self]

namespace State.Taken

/-- An effect on words l besides the mailbox's. -/
theorem seen {l : List Nat} (hx : s.Taken h s x) (hw : Says.words x v l) (hl : ∀ o ∈ l, o < 0x400 ∨ 0x800 ≤ o)
    (hch : v.host.chans = x.host.chans) (hdma : v.dmaUp = x.dmaUp) (hrun : (x.core 1024).run ≠ .locked → (v.core 1024).run ≠ .locked) :
    s.Taken h (s.seen h v) v := by
  have hm := hx.mbx
  refine hx.rebase _ (fun o ho => (word_seen ho).symm) (fun o ho => hw o fun hin => ?_) hch hdma hrun
  have hfree := hl o hin
  simp only [List.mem_cons, List.not_mem_nil, or_false] at ho
  unfold R.MB_STAT R.MB_CTRL R.MB_CPL_LO R.MB_CPL_HI R.MB_DONE at ho
  omega

/-- Such an effect shows in those words alone. -/
theorem words_seen {l : List Nat} (hx : s.Taken h s x) (hw : Says.words x v l) :
    Says.words s (s.seen h v) l := by
  intro o ho
  by_cases hst : o = R.MB_STAT h.ch.toNat
  · rw [hst]
    exact word_seen_stat
  · rw [word_seen hst, hw o ho, hx.words o hst]

theorem word (hx : s.Taken h s x) {o : Nat} (ho : o ≠ R.MB_STAT h.ch.toNat) : x.word o = s.word o := hx.words o ho

theorem rd (hx : s.Taken h s x) (f : Fld) (hf : f.off < 0x41C ∨ 0x7DC < f.off := by decide) : x.rd f = s.rd f := by
  have hm := hx.mbx
  have hne : f.off ≠ R.MB_STAT h.ch.toNat := by
    unfold R.MB_STAT
    omega
  unfold State.rd
  rw [hx.words _ hne]

theorem noLink (hx : s.Taken h s x) (hl : Says.noLink s) : Says.noLink x := by
  have hm := hx.mbx
  exact noLink_of_fpStat hl fun p _ => hx.words _ (by unfold R.FP_STAT R.MB_STAT; omega)

theorem leads (hx : s.Taken h s x) : x.leads = s.leads := by
  unfold State.leads State.role
  rw [hx.rd R.BEAT_STAT_ROLE]

end State.Taken

/-! ### TIME_SET_TAI and TIME_STEP -/

theorem not_leads (h : ¬ (s.role = roleAlone ∨ s.role = roleMaster)) : s.leads = false := by
  rw [← Bool.not_eq_true, leads_iff]
  exact h

/-- A node that does not lead has no TAI to set. -/
theorem timeSetTai_notLeading (sec ns utc : Nat) (hn : s.leads = false) : s.timeSetTai sec ns utc = .now stBadState [] s := by
  unfold State.timeSetTai
  rw [hn]
  rfl

theorem timeSetTai_badNs (sec utc : Nat) {ns : Nat} (hl : s.leads = true) (hns : 1000000000 ≤ ns) :
    s.timeSetTai sec ns utc = .now stBadParam [] s := by
  unfold State.timeSetTai
  rw [hl, if_pos hns]
  rfl

theorem timeStep_notLeading (d : BitVec 64) (hn : s.leads = false) : s.timeStep d = .now stBadState [] s := by
  unfold State.timeStep
  rw [hn]
  rfl

theorem timeStep_tooFar (d : BitVec 64) (hl : s.leads = true) (hd : 2 ^ 55 ≤ d.toInt.natAbs) : s.timeStep d = .now stBadParam [] s := by
  unfold State.timeStep
  rw [hl, if_pos (show 36028797018963968 ≤ d.toInt.natAbs from hd)]
  rfl

theorem timeStep_due (d : BitVec 64) (hl : s.leads = true) (hd : d.toInt.natAbs < 2 ^ 55) :
    s.timeStep d = .now stOk [] (s.onBeat (fun z => { z with pendStep := some (d.toInt * nsU, 2) })) := by
  unfold State.timeStep
  rw [hl, if_neg (show ¬ 36028797018963968 ≤ d.toInt.natAbs from Nat.not_le.mpr hd)]
  rfl

section time

variable {len : Nat} (hl : Says.noLink s) (hf : Says.framed s h len)
include hl hf

/-- A command of the beat that refuses. -/
theorem time_refuses {ins : Instr} {act : State → Reply} (hexec : exec ins s = bertiaRow h { len := len } (fun t => (act t).packSettle) s) {st : Nat}
    (hact : act (s.taken h) = .now st [] (s.taken h)) : Says.completes ins s h st [] s := by
  have hT := taken_taken hf
  refine completes_of_taken hf rfl rfl rfl rfl hexec (v := s.taken h) ?_ hT (Or.inl (by decide))
  rw [hact]
  show Reply.now st [] (s.taken h).packSettle = _
  rw [packSettle_noLink (hT.noLink hl)]

end time

theorem timeStep_completes (hl : Says.noLink s) (d : BitVec 64) (hf : Says.framed s h 8) :
    (¬ (s.role = roleAlone ∨ s.role = roleMaster) → Says.completes (.timeStep h d) s h stBadState [] s) ∧
    (s.role = roleAlone ∨ s.role = roleMaster → 2 ^ 55 ≤ d.toInt.natAbs → Says.completes (.timeStep h d) s h stBadParam [] s) ∧
    (s.role = roleAlone ∨ s.role = roleMaster → d.toInt.natAbs < 2 ^ 55 →
      Says.completes (.timeStep h d) s h stOk [] { s with beat := { s.beat with pendStep := some (d.toInt * nsU, 2) } }) := by
  have hT := taken_taken hf
  refine ⟨fun hn => ?_, fun hr hd => ?_, fun hr hd => ?_⟩
  · exact time_refuses hl hf rfl (act := (·.timeStep d)) (timeStep_notLeading d (hT.leads.trans (not_leads hn)))
  · exact time_refuses hl hf rfl (act := (·.timeStep d)) (timeStep_tooFar d (hT.leads.trans (leads_iff.mpr hr)) hd)
  · have hstep := timeStep_due d (hT.leads.trans (leads_iff.mpr hr)) hd
    have hnl : Says.noLink ((s.taken h).onBeat (fun z => { z with pendStep := some (d.toInt * nsU, 2) })) := hT.noLink hl
    refine completes_of_taken hf rfl rfl rfl rfl rfl (act := fun t => (t.timeStep d).packSettle)
      (v := (s.taken h).onBeat (fun z => { z with pendStep := some (d.toInt * nsU, 2) })) ?_ ?_ (Or.inl (by decide))
    · rw [hstep]
      show Reply.now stOk [] (State.packSettle _) = _
      rw [packSettle_noLink hnl]
    · have hnew := hT.rebase_hreg (v := (s.taken h).onBeat (fun z => { z with pendStep := some (d.toInt * nsU, 2) })) rfl rfl rfl id
      obtain ⟨r, z, hs⟩ := hT.shape
      rw [hs] at hnew ⊢
      exact hnew

/-! #### TIME_SET_TAI that is taken -/

/-- From s, u has been reached by writes of BAR0 words alone. -/
def State.Worded (s u : State) : Prop := ∃ w, u = { s with hreg := w }

namespace State.Worded

theorem refl (s : State) : s.Worded s := ⟨_, rfl⟩

theorem setWord (h : s.Worded u) (off : Nat) (v : Reg32) : s.Worded (u.setWord off v) := by
  obtain ⟨w, rfl⟩ := h
  exact ⟨_, rfl⟩

theorem wrW (h : s.Worded u) (off v : Nat) : s.Worded (u.wrW off v) := h.setWord off _

theorem wr (h : s.Worded u) (f : Fld) (v : Nat) : s.Worded (u.wr f v) := h.setWord f.off _

theorem set1 (h : s.Worded u) (f : Fld) : s.Worded (u.set1 f) := h.wr f _

end State.Worded

/-- EPOCH_TAI, TAI_UTC and TAI_VALID as TIME_SET_TAI sets them. -/
def State.taiSet (s : State) (new utc : Nat) : State := ((s.setEpochTai new).wrW R.TAI_UTC utc).set1 R.BEAT_STAT_TAI_VALID

/-- The words that TIME_SET_TAI sets. -/
def taiWords : List Nat := [R.EPOCH_TAI_SEC_LO, R.EPOCH_TAI_SEC_HI, R.EPOCH_TAI_NS, R.TAI_UTC, R.BEAT_STAT, R.BEAT_INT_STAT]

theorem taiSet_wroteIn (new utc : Nat) : s.WroteIn (s.taiSet new utc) taiWords :=
  (((setEpochTai_wroteIn new).mono (by decide)).wrW _ _).set1 _

/-- Nothing but BAR0 words differs. -/
theorem taiSet_shape (new utc : Nat) : ∃ w, s.taiSet new utc = { s with hreg := w } :=
  (((((State.Worded.refl s).wrW _ _).wrW _ _).wrW _ _).wrW _ _).set1 _

theorem bit_taiSet (new utc : Nat) : (s.taiSet new utc).bit R.BEAT_STAT_TAI_VALID = true := State.bit_set1 _ _ (by decide) (by decide)

theorem rdW_taiSet (new utc o : Nat) (ho : o ≠ R.BEAT_STAT := by decide) :
    (s.taiSet new utc).rdW o = ((s.setEpochTai new).wrW R.TAI_UTC utc).rdW o := congrArg BitVec.toNat (State.word_wr_off _ _ _ _ ho)

/-- The words of EPOCH_TAI after an instant of whole seconds and nanoseconds is written (R31). -/
theorem rdW_setEpochTai {sec ns : Nat} (hsec : sec < 2 ^ 48) (hns : ns < 1000000000) :
    (s.setEpochTai (sec * 1000000000 + ns : Nat)).rdW R.EPOCH_TAI_SEC_LO = sec % 2 ^ 32 ∧
    (s.setEpochTai (sec * 1000000000 + ns : Nat)).rdW R.EPOCH_TAI_SEC_HI = sec / 2 ^ 32 ∧
    (s.setEpochTai (sec * 1000000000 + ns : Nat)).rdW R.EPOCH_TAI_NS = ns := by
  have hs : (((sec * 1000000000 + ns : Nat) : Int) / 1000000000 % 281474976710656).toNat = sec := by omega
  have hn : (((sec * 1000000000 + ns : Nat) : Int) % 1000000000).toNat = ns := by omega
  unfold State.setEpochTai
  dsimp only
  rw [hs, hn]
  refine ⟨?_, ?_, ?_⟩
  · rw [rdW_wrW_ne _ _ _ (by decide), rdW_wrW_ne _ _ _ (by decide), rdW_wrW_mod]
  · rw [rdW_wrW_ne _ _ _ (by decide), rdW_wrW _ _ (by omega)]
    rfl
  · rw [rdW_wrW _ _ (by omega)]

/-- A record waits in the hold area while the journal neither runs nor stands halted (R409). -/
theorem offerRec_held {r : JRec} (hj : s.jState = 0 ∨ s.jState = 1 ∨ s.jState = 2 ∨ s.jState = 6) (hpf : s.jrn.pf = none)
    (hess : essential r.rtype.toNat = true) (hroom : s.holdTakes r = true) :
    s.offerRec r = s.onJrn (fun z => { z with hold := s.jrn.hold ++ [r] }) := by
  have hnot : s.jState ≠ jPfHalt ∧ s.jState ≠ jRunning ∧ s.jState ≠ jFull := by
    rcases hj with h | h | h | h <;> rw [h] <;> decide
  obtain ⟨hhalt, hrun, hfull⟩ := hnot
  unfold State.offerRec
  dsimp only
  rw [if_neg (by simp [hpf, hhalt]), if_neg hrun, if_neg hfull, if_pos ⟨hess, hroom⟩]

/-- A time-discontinuity record is 64 octets long (R404, R405). -/
theorem length_discRec (d : DiscRec) : (recOctets (discRec d) 0).length = 64 := by
  simp [recOctets, padTo, discRec, discBody, le]

/-- Such a record waits in a hold area with room for 100 octets more. -/
theorem emitDisc_held (d : DiscRec) (hj : s.jState = 0 ∨ s.jState = 1 ∨ s.jState = 2 ∨ s.jState = 6) (hpf : s.jrn.pf = none)
    (hroom : s.holdUsed + 100 ≤ 262144) :
    s.emitDisc d = (s.onJrn (fun z => { z with hold := s.jrn.hold ++ [discRec d] })).set1 R.BEAT_INT_STAT_DISC := by
  have hfits : s.holdTakes (discRec d) = true := by
    unfold State.holdTakes
    rw [length_discRec]
    exact decide_eq_true (by omega)
  unfold State.emitDisc
  rw [offerRec_held hj hpf rfl hfits]

/-- The state in which TIME_SET_TAI has set TAI and its record waits. -/
def State.taiTaken (s : State) (new utc : Nat) (r : JRec) : State :=
  ((s.taiSet new utc).freeNext.onJrn (fun z => { z with hold := s.jrn.hold ++ [r] })).set1 R.BEAT_INT_STAT_DISC

theorem word_onJrn (s : State) (f : Journal → Journal) (o : Nat) : (s.onJrn f).word o = s.word o := rfl

theorem word_freeNext (s : State) (o : Nat) : s.freeNext.word o = s.word o := rfl

theorem rd_freeNext (s : State) (f : Fld) : s.freeNext.rd f = s.rd f := rfl

section taiTaken

variable (new utc : Nat) (r : JRec)

theorem word_taiTaken {o : Nat} (ho : o ≠ R.BEAT_INT_STAT) : (s.taiTaken new utc r).word o = (s.taiSet new utc).word o :=
  (State.word_wr_off _ _ _ _ ho).trans ((word_onJrn _ _ _).trans (word_freeNext _ _))

theorem words_taiTaken : Says.words s (s.taiTaken new utc r) taiWords := by
  intro o ho
  rw [word_taiTaken new utc r fun e => ho (by rw [e]; decide)]
  exact (taiSet_wroteIn new utc).words o ho

/-- Only BAR0 words, the journal and the free values differ. -/
theorem taiTaken_shape : ∃ w, s.taiTaken new utc r = { s with hreg := w, jrn := { s.jrn with hold := s.jrn.hold ++ [r] }, free := s.free + 1 } := by
  obtain ⟨w, hw⟩ := taiSet_shape (s := s) new utc
  unfold State.taiTaken
  rw [hw]
  exact (State.Worded.refl (State.onJrn (State.freeNext { s with hreg := w }) (fun z => { z with hold := s.jrn.hold ++ [r] }))).set1 _

end taiTaken

/-- Whatever waits, TIME_SET_TAI on a node that leads sets TAI, and its record waits too. -/
theorem timeSetTai_set {sec ns utc : Nat} (hl : s.leads = true) (hns : ns < 1000000000)
    (hj : s.jState = 0 ∨ s.jState = 1 ∨ s.jState = 2 ∨ s.jState = 6) (hpf : s.jrn.pf = none) (hroom : s.holdUsed + 100 ≤ 262144) :
    ∃ r, s.timeSetTai sec ns utc = .now stOk [] (s.taiTaken (sec * 1000000000 + ns) utc r) ∧ r.rtype = 7 ∧ r.subject = 2 ∧ r.beat = s.beat.num := by
  have hshape : ∀ n u, (s.taiSet n u).freeNext.jrn = s.jrn ∧ (s.taiSet n u).freeNext.beat = s.beat := fun n u => by
    obtain ⟨w, hw⟩ := taiSet_shape (s := s) n u
    rw [hw]
    exact ⟨rfl, rfl⟩
  have hstate : ∀ n u, (s.taiSet n u).freeNext.jState = s.jState := fun n u => by
    unfold State.jState
    exact (rd_freeNext _ _).trans ((taiSet_wroteIn n u).rd _)
  have hused : ∀ n u, (s.taiSet n u).freeNext.holdUsed = s.holdUsed := fun n u => by
    unfold State.holdUsed
    rw [(hshape n u).1]
  unfold State.timeSetTai
  rw [hl, if_neg (by decide), if_neg (Nat.not_le.mpr hns)]
  dsimp only
  rw [← State.taiSet.eq_1]
  unfold State.disc
  rw [emitDisc_held _ (by rw [hstate]; exact hj) (by rw [(hshape _ _).1]; exact hpf) (by rw [hused]; exact hroom), (hshape _ _).1]
  exact ⟨_, rfl, rfl, rfl, congrArg Beat.num (hshape _ _).2⟩

theorem Taken.jState {x : State} (hx : s.Taken h s x) : x.jState = s.jState := by
  unfold State.jState
  exact hx.rd _

theorem timeSetTai_taken (hl : Says.noLink s) (sec : BitVec 48) (ns : Reg32) (utc : BitVec 16) (hf : Says.framed s h 12)
    (hr : s.role = roleAlone ∨ s.role = roleMaster) (hns : ns.toNat < 1000000000)
    (hj : s.jState = 0 ∨ s.jState = 1 ∨ s.jState = 2 ∨ s.jState = 6) (hpf : s.jrn.pf = none) (hroom : s.holdUsed + 100 ≤ 262144) :
    ∃ u r, Says.completes (.timeSetTai h sec ns utc) s h stOk [] u ∧ u = { s with hreg := u.hreg, jrn := u.jrn, free := u.free } ∧
      Says.words s u taiWords ∧ u.rdW R.EPOCH_TAI_SEC_LO = sec.toNat % 2 ^ 32 ∧ u.rdW R.EPOCH_TAI_SEC_HI = sec.toNat / 2 ^ 32 ∧
      u.rdW R.EPOCH_TAI_NS = ns.toNat ∧ u.rdW R.TAI_UTC = utc.toNat ∧ u.bit R.BEAT_STAT_TAI_VALID = true ∧
      u.bit R.BEAT_INT_STAT_DISC = true ∧ u.jrn = { s.jrn with hold := s.jrn.hold ++ [r] } ∧ r.rtype = 7 ∧ r.subject = 2 ∧ r.beat = s.beat.num := by
  have hT := taken_taken hf
  obtain ⟨w, z, hs⟩ := hT.shape
  have hjrn : (s.taken h).jrn = s.jrn := by rw [hs]
  have hbeat : (s.taken h).beat = s.beat := by rw [hs]
  have hused : (s.taken h).holdUsed = s.holdUsed := by rw [State.holdUsed, hjrn]; rfl
  obtain ⟨r, hset, htype, hsubject, hbeatNum⟩ := timeSetTai_set (s := s.taken h) (sec := sec.toNat) (utc := utc.toNat)
    (hT.leads.trans (leads_iff.mpr hr)) hns (by rw [Taken.jState hT]; exact hj) (by rw [hjrn]; exact hpf) (by rw [hused]; exact hroom)
  obtain ⟨v, hv⟩ : ∃ v, v = (s.taken h).taiTaken (sec.toNat * 1000000000 + ns.toNat) utc.toNat r := ⟨_, rfl⟩
  obtain ⟨w', hshape⟩ := taiTaken_shape (s := s.taken h) (sec.toNat * 1000000000 + ns.toNat) utc.toNat r
  have hwords : Says.words (s.taken h) v taiWords := by rw [hv]; exact words_taiTaken _ _ _
  rw [← hv] at hset hshape
  have hvl : Says.noLink v := noLink_of_fpStat (hT.noLink hl) fun p hp => hwords _ (by revert p; decide)
  have hfree : ∀ o ∈ taiWords, o < 0x400 ∨ 0x800 ≤ o := by decide
  have hnew := hT.seen hwords hfree (by rw [hshape]) (by rw [hshape]; rfl) (by rw [hshape]; exact id)
  have hw := hT.words_seen hwords
  have hkept : ∀ o, o ∈ taiWords → (s.seen h v).word o = v.word o := fun o ho => word_seen (by
    have := hfree o ho
    have := hT.mbx
    unfold R.MB_STAT
    omega)
  have hset' : ∀ o, o ∈ taiWords → o ≠ R.BEAT_INT_STAT →
      (s.seen h v).word o = ((s.taken h).taiSet (sec.toNat * 1000000000 + ns.toNat) utc.toNat).word o := fun o ho hne => by
    rw [hkept o ho, hv, word_taiTaken _ _ _ hne]
  obtain ⟨hlo, hhi, hnsw⟩ := rdW_setEpochTai (s := s.taken h) sec.isLt hns
  refine ⟨s.seen h v, r, ?_, ?_, hw, ?_, ?_, ?_, ?_, ?_, ?_, ?_, htype, hsubject, hbeatNum.trans (by rw [hbeat])⟩
  · refine completes_of_taken hf rfl rfl rfl rfl rfl (act := fun t => (t.timeSetTai sec.toNat ns.toNat utc.toNat).packSettle) ?_ hnew (Or.inl (by decide))
    rw [hset]
    show Reply.now stOk [] v.packSettle = _
    rw [packSettle_noLink hvl]
  · obtain ⟨q, hq⟩ : ∃ q, s.seen h v = { v with hreg := q, host := { v.host with chans := s.host.chans } } := ⟨_, rfl⟩
    rw [hq, hshape, hs]
  · unfold State.rdW
    rw [hset' _ (by decide) (by decide)]
    exact (rdW_taiSet _ _ _).trans ((rdW_wrW_ne _ _ _ (by decide)).trans hlo)
  · unfold State.rdW
    rw [hset' _ (by decide) (by decide)]
    exact (rdW_taiSet _ _ _).trans ((rdW_wrW_ne _ _ _ (by decide)).trans hhi)
  · unfold State.rdW
    rw [hset' _ (by decide) (by decide)]
    exact (rdW_taiSet _ _ _).trans ((rdW_wrW_ne _ _ _ (by decide)).trans hnsw)
  · unfold State.rdW
    rw [hset' _ (by decide) (by decide)]
    exact (rdW_taiSet _ _ _).trans (rdW_wrW _ _ (by omega))
  · unfold State.bit State.rd
    rw [hset' _ (by decide) (by decide)]
    exact bit_taiSet _ _
  · unfold State.bit State.rd
    rw [hkept _ (by decide), hv]
    exact State.bit_set1 _ _ (by decide) (by decide)
  · show v.jrn = _
    rw [hshape, hjrn]

end Sys2Proof.Machine

/-! PROOFS. PPS_SECOND and PTP (R487). -/

namespace Sys2Proof.Machine

open Sys2Proof

-- One proof after another, as in the tests: theorems checked side by side need more threads than the check's memory limit allows.
set_option Elab.async false

variable {s t u v x : State} {h : BHdr} {len most : Nat}

/-- A command that answers and changes nothing. -/
theorem completes_unchanged (hf : Says.framed s h len most) {ins : Instr} {act : State → Reply} {st : Nat} {data : List Octet}
    (hexec : exec ins s = bertiaRow h { len := len, maxData := most } act s) (hact : act (s.taken h) = .now st data (s.taken h))
    (hlen : data.length ≤ 48) : Says.completes ins s h st data s :=
  completes_of_taken hf rfl rfl rfl rfl hexec hact (taken_taken hf) (Or.inl hlen)

/-- A command that answers with an effect outside the BAR0 words: the effect as seen on s. -/
theorem completes_effect (hf : Says.framed s h len most) {ins : Instr} {act : State → Reply} {st : Nat} {data : List Octet}
    (hexec : exec ins s = bertiaRow h { len := len, maxData := most } act s) (hact : act (s.taken h) = .now st data v)
    (hreg : v.hreg = (s.taken h).hreg) (hch : v.host.chans = (s.taken h).host.chans) (hdma : v.dmaUp = (s.taken h).dmaUp)
    (hrun : ((s.taken h).core 1024).run ≠ .locked → (v.core 1024).run ≠ .locked) (hlen : data.length ≤ 48) :
    Says.completes ins s h st data { v with hreg := s.hreg, host := { v.host with chans := s.host.chans } } :=
  completes_of_taken hf rfl rfl rfl rfl hexec hact ((taken_taken hf).rebase_hreg hreg hch hdma hrun) (Or.inl hlen)

/-! ### PPS_SECOND -/

theorem ppsSecond_later (ch sec : Nat) (hp : s.beat.ppsSec = none) :
    s.ppsSecond ch sec = .later (s.onBeat (fun z => { z with ppsSec := some (sec, s.time + 1000000 * nsU, ch) })) := by
  unfold State.ppsSecond
  rw [hp]

theorem exec_ppsSecond (sec : BitVec 48) (hf : Says.framed s h 8) (hp : s.beat.ppsSec = none) :
    ∃ t, exec (.ppsSecond h sec) s = .next t ∧ Says.waits s t h ∧ t.out = s.out ∧ t.mem = s.mem ∧ t.jrn = s.jrn ∧
      t.beat = { s.beat with ppsSec := some (sec.toNat, s.time + 1000000 * nsU, h.ch.toNat) } := by
  have hT := taken_taken hf
  have hb := bertiaRow_framed (sp := { len := 8 }) hf rfl rfl rfl rfl (·.ppsSecond h.ch.toNat sec.toNat)
  obtain ⟨w, z, hs⟩ := hT.shape
  obtain ⟨v, hv⟩ : ∃ v, v = (s.taken h).onBeat (fun b => { b with ppsSec := some (sec.toNat, s.time + 1000000 * nsU, h.ch.toNat) }) := ⟨_, rfl⟩
  have hlater : (s.taken h).ppsSecond h.ch.toNat sec.toNat = .later v := by
    rw [ppsSecond_later _ _ (by rw [hs]; exact hp), hv]
    rw [hs]
  rw [hlater] at hb
  refine ⟨v.settle, hb, ⟨?_, ?_, ?_⟩, ?_, ?_, ?_, ?_⟩
  · rw [State.settle_rd, hv, rd_onBeat, hT.chead]
  · rw [State.settle_rd, hv, rd_onBeat, hT.ctail]
  · rw [chan_settle, chan_of_host (s := s.taken h) (by rw [hv]; rfl), hT.busy]
    rfl
  · rw [State.settle_out, hv, hs]
    rfl
  · rw [State.settle_mem, hv, hs]
    rfl
  · rw [State.settle_jrn, hv, hs]
    rfl
  · rw [State.settle_beat, hv, hs]
    rfl

/-! ### PTP -/

theorem ptpOk_iff (c : PtpConfig) : ptpOk c = true ↔ c.profile.toNat ≤ 1 ∧ c.transport.toNat ≤ 2 ∧ c.domain.toNat ≤ 127 ∧ c.flags.toNat ≤ 3 ∧
    -7 ≤ c.logSync.toInt ∧ c.logSync.toInt ≤ 1 ∧ -3 ≤ c.logAnnounce.toInt ∧ c.logAnnounce.toInt ≤ 4 ∧
    -7 ≤ c.logDelayReq.toInt ∧ c.logDelayReq.toInt ≤ 5 := by
  unfold ptpOk
  simp only [Bool.and_eq_true, decide_eq_true_eq, Nat.lt_succ_iff]
  tauto

theorem ptpCfg_completes (c : PtpConfig) (hf : Says.framed s h 12) :
    (ptpOk c = true → Says.completes (.ptpCfg h c) s h stOk [] { s with host := { s.host with ptp := c } }) ∧
    (¬ ptpOk c = true → Says.completes (.ptpCfg h c) s h stBadParam [] s) := by
  obtain ⟨w, z, hs⟩ := (taken_taken hf).shape
  refine ⟨fun hok => ?_, fun hno => ?_⟩
  · have hnew := completes_effect hf (ins := .ptpCfg h c) rfl (v := (s.taken h).onHost (fun z => { z with ptp := c })) (data := [])
      (if_pos hok) rfl rfl rfl id (by decide)
    rw [hs] at hnew
    exact hnew
  · exact completes_unchanged hf rfl (if_neg hno) (by decide)

theorem le_eq_num (n v : Nat) : le n v = Says.num n v := rfl

/-- A signed number's octets are those of its pattern. -/
theorem num_toSigned (z : Int) : Says.num 8 (toSigned 64 z) = Says.num 8 (BitVec.ofInt 64 z).toNat := by
  unfold toSigned
  rw [BitVec.toNat_ofInt]
  rfl

/-- What PTP_STATUS reports: the port's state, the offset and delay, the master and its steps, the offset of UTC (R487). -/
theorem ptpStatusData_eq : s.ptpStatusData = [BitVec.ofNat 8 (s.freeVal % 10), 0, 0, 0] ++ Says.num 8 (BitVec.ofInt 64 s.host.ptpOffset).toNat ++
    Says.num 8 (s.host.ptpDelay / 4) ++ Says.num 8 s.host.ptpGm.toNat ++ Says.num 2 s.host.ptpSteps ++ (match s.host.ptpUtc with
      | some x => Says.num 2 x.toNat ++ [1]
      | none => [0, 0, 0]) ++ [0, 0, 0] := by
  have hstate : le 1 (s.freeVal % 10) ++ le 3 0 = [BitVec.ofNat 8 (s.freeVal % 10), 0, 0, 0] := by simp [le]
  unfold State.ptpStatusData
  rw [hstate]
  simp only [le_eq_num, num_toSigned, List.append_assoc]
  cases s.host.ptpUtc with
  | none => rfl
  | some x =>
    have hvalid : Says.num 1 (if (some x).isSome = true then 1 else 0) ++ Says.num 3 0 = [1] ++ [0, 0, 0] := by simp [Says.num]
    simp only [Option.map_some, Option.getD_some, List.append_assoc]
    rw [hvalid]

theorem ptpStatus_completes (hf : Says.framed s h 0 36) : ∃ u p, u = { s with free := u.free } ∧ Says.completes (.ptpStatus h) s h stOk
    ([p, 0, 0, 0] ++ Says.num 8 (BitVec.ofInt 64 s.host.ptpOffset).toNat ++ Says.num 8 (s.host.ptpDelay / 4)
      ++ Says.num 8 s.host.ptpGm.toNat ++ Says.num 2 s.host.ptpSteps ++ (match s.host.ptpUtc with
        | some x => Says.num 2 x.toNat ++ [1]
        | none => [0, 0, 0]) ++ [0, 0, 0]) u := by
  have hT := taken_taken hf
  obtain ⟨w, z, hs⟩ := hT.shape
  have hnew := completes_effect hf (ins := .ptpStatus h) (v := (s.taken h).freeNext) (data := (s.taken h).ptpStatusData) rfl rfl rfl rfl rfl id
    (by simp [State.ptpStatusData, le])
  rw [ptpStatusData_eq, hs] at hnew
  exact ⟨_, _, rfl, hnew⟩

end Sys2Proof.Machine

/-! PROOFS. Hold, start, resume and state of cores (R244, R488). -/

namespace Sys2Proof.Machine

open Sys2Proof

-- One proof after another, as in the tests: theorems checked side by side need more threads than the check's memory limit allows.
set_option Elab.async false

variable {s t u v x : State} {h : BHdr} {len most c : Nat} {mask : BitVec 16} {i : Nat}

/-- The cores that a cluster and a mask name. -/
theorem mem_maskCores : i ∈ maskCores c mask ↔ i / 16 = c ∧ mask.getLsbD (i % 16) = true := by
  unfold maskCores
  simp only [List.mem_map, List.mem_filter, List.mem_range]
  constructor
  · rintro ⟨k, ⟨hk, hm⟩, rfl⟩
    have hmod : (16 * c + k) % 16 = k := by omega
    rw [hmod]
    exact ⟨by omega, hm⟩
  · rintro ⟨rfl, hm⟩
    exact ⟨i % 16, ⟨Nat.mod_lt _ (by decide), hm⟩, Nat.div_add_mod i 16⟩

theorem coreOn_of_hreg (hr : t.hreg = s.hreg) (i : Nat) : t.coreOn i = s.coreOn i := by
  have hd : ∀ d, t.domOn d = s.domOn d := fun d => domOn_of_word (word_of_hreg hr _)
  unfold State.coreOn
  rw [hd, hd, hd]

/-- A core of a cluster that is on is on. -/
theorem coreOn_cluster (hc : c < 64) (hd : s.domOn (domCluster c) = true) (hi : i / 16 = c) : s.coreOn i = true := by
  unfold State.coreOn
  rw [if_pos (by omega), hi, hd]

/-! ### CORE_HOLD -/

/-- A core that core reset holds. -/
def State.heldCore (s : State) (i : Nat) : Core := { run := .held, work := s.beat.num, report := (s.core i).report }

theorem coreReset_shape (i : Nat) : ∃ co ci, s.coreReset i .held = { s with cores := co, cics := ci } := by
  unfold State.coreReset
  dsimp only
  split
  · exact ⟨_, _, rfl⟩
  · exact ⟨_, _, rfl⟩

theorem core_coreReset (i j : Nat) : (s.coreReset i .held).core j = if j = i then s.heldCore i else s.core j := by
  unfold State.coreReset
  dsimp only
  split
  · exact State.core_setCore _ i j _
  · exact State.core_setCore _ i j _

/-- The cores of a list that are on go to core reset. -/
def State.holdAll (s : State) (l : List Nat) : State := l.foldl (fun (t : State) i => if t.coreOn i then t.coreReset i .held else t) s

theorem holdAll_shape (l : List Nat) : ∃ co ci, s.holdAll l = { s with cores := co, cics := ci } := by
  unfold State.holdAll
  induction l generalizing s with
  | nil => exact ⟨_, _, rfl⟩
  | cons i l ih =>
    rw [List.foldl_cons]
    split
    · obtain ⟨co, ci, he⟩ := coreReset_shape (s := s) i
      rw [he]
      exact ih
    · exact ih

theorem core_holdAll (l : List Nat) (hon : ∀ i ∈ l, s.coreOn i = true) (j : Nat) :
    (s.holdAll l).core j = if j ∈ l then s.heldCore j else s.core j := by
  unfold State.holdAll
  induction l generalizing s with
  | nil => rfl
  | cons i l ih =>
    rw [List.foldl_cons, if_pos (hon i List.mem_cons_self)]
    obtain ⟨co, ci, he⟩ := coreReset_shape (s := s) i
    have hon' : ∀ k ∈ l, (s.coreReset i .held).coreOn k = true := fun k hk => by
      rw [coreOn_of_hreg (by rw [he])]
      exact hon k (List.mem_cons_of_mem _ hk)
    have hbeat : (s.coreReset i .held).beat = s.beat := by rw [he]
    rw [ih hon', core_coreReset]
    unfold State.heldCore
    rw [core_coreReset, hbeat]
    by_cases hji : j = i
    · subst hji
      simp [State.heldCore]
    · simp [hji]

theorem coreHold_outside (hc : 64 ≤ c) : s.coreHold c mask = .now stBadParam [] s := by
  unfold State.coreHold
  rw [if_pos hc]

theorem coreHold_held (hc : c < 64) : s.coreHold c mask = .now stOk []
    ((s.onHost (fun z => { z with startAtEdge := z.startAtEdge.filter (fun i => !(maskCores c mask).contains i) })).holdAll (maskCores c mask)) := by
  unfold State.coreHold
  rw [if_neg (Nat.not_le.mpr hc)]
  rfl

theorem coreHold_completes (cl : Octet) (mask : BitVec 16) (hf : Says.framed s h 4) (hc : cl.toNat < 64)
    (hd : s.domOn (domCluster cl.toNat) = true) : ∃ u, Says.completes (.coreHold h cl mask) s h stOk [] u ∧
      u = { s with cores := u.cores, cics := u.cics, host := u.host } ∧
      (∀ i, i / 16 = cl.toNat ∧ mask.getLsbD (i % 16) = true → u.core i = s.heldCore i) ∧
      (∀ i, ¬ (i / 16 = cl.toNat ∧ mask.getLsbD (i % 16) = true) → u.core i = s.core i) ∧
      u.host = { s.host with startAtEdge := u.host.startAtEdge } ∧
      ∀ i ∈ u.host.startAtEdge, i ∈ s.host.startAtEdge ∧ ¬ (i / 16 = cl.toNat ∧ mask.getLsbD (i % 16) = true) := by
  have hT := taken_taken hf
  obtain ⟨w, z, hs⟩ := hT.shape
  obtain ⟨y, hy⟩ : ∃ y, y = (s.taken h).onHost (fun z => { z with startAtEdge := z.startAtEdge.filter (fun i => !(maskCores cl.toNat mask).contains i) }) := ⟨_, rfl⟩
  have hdt : (s.taken h).domOn (domCluster cl.toNat) = true := by
    have hm := hT.mbx
    rw [domOn_of_word (hT.word (by unfold domCluster R.MB_STAT; omega)), hd]
  have hon : ∀ i ∈ maskCores cl.toNat mask, y.coreOn i = true := fun i hi => by
    rw [coreOn_of_hreg (s := s.taken h) (by rw [hy]; rfl)]
    exact coreOn_cluster hc hdt (mem_maskCores.mp hi).1
  obtain ⟨co, ci, hv⟩ := holdAll_shape (s := y) (maskCores cl.toNat mask)
  have hcore := core_holdAll (maskCores cl.toNat mask) hon
  have hyc : ∀ i, y.core i = s.core i := fun i => by rw [hy, hs]; rfl
  have hyb : y.beat = s.beat := by rw [hy, hs]; rfl
  have hact : (s.taken h).coreHold cl.toNat mask = .now stOk [] (y.holdAll (maskCores cl.toNat mask)) := by rw [coreHold_held hc, hy]
  generalize y.holdAll (maskCores cl.toNat mask) = v at hv hcore hact
  have hvc : ∀ i, v.core i = if i ∈ maskCores cl.toNat mask then s.heldCore i else s.core i := fun i => by
    rw [hcore, hyc]
    unfold State.heldCore
    rw [hyc, hyb]
  have h1024 : v.core 1024 = (s.taken h).core 1024 := by
    rw [hvc, if_neg fun hi => by have := (mem_maskCores.mp hi).1; omega, hs]
    rfl
  have hdone := completes_effect hf (ins := .coreHold h cl mask) (act := (·.coreHold cl.toNat mask)) rfl hact (by rw [hv, hy]; rfl) (by rw [hv, hy]; rfl)
    (by rw [hv, hy]; rfl) (by rw [h1024]; exact id) (by decide)
  refine ⟨_, hdone, ?_, fun i hi => ?_, fun i hi => ?_, ?_, fun i hi => ?_⟩
  · rw [hv, hy, hs]
    rfl
  · exact (hvc i).trans (if_pos (mem_maskCores.mpr hi))
  · exact (hvc i).trans (if_neg fun hin => hi (mem_maskCores.mp hin))
  · rw [hv, hy, hs]
    rfl
  · have hin : i ∈ s.host.startAtEdge.filter (fun i => !(maskCores cl.toNat mask).contains i) := by
      rw [hv, hy, hs] at hi
      exact hi
    rw [List.mem_filter, Bool.not_eq_true', ← Bool.not_eq_true, List.contains_iff_mem, mem_maskCores] at hin
    exact hin

/-! ### CORE_START -/

/-- A core that core reset lets go. -/
def State.goneCore (s : State) (i : Nat) : Core := { s.core i with run := .running, work := s.beat.num }

/-- A held core that none asked to halt goes. -/
theorem coreGo_held (hr : (s.core i).run = .held) (hon : s.coreOn i = true) (hh : (s.core i).haltReq = false) :
    s.coreGo i = (s.setCore i (s.goneCore i)).coreBusy i := by
  have hcore : ((s.setCore i (s.goneCore i)).coreBusy i).core i = s.goneCore i := by
    unfold State.coreBusy
    split
    · exact State.core_setCore_self ..
    · exact State.core_setCore_self ..
  have hno : ¬ (((s.setCore i (s.goneCore i)).coreBusy i).core i).haltReq = true := by
    rw [hcore]
    exact Bool.not_eq_true _ ▸ hh
  unfold State.coreGo
  rw [if_pos ⟨hr, hon⟩]
  exact if_neg hno

theorem core_coreBusy (i j : Nat) : (s.coreBusy i).core j = s.core j := by
  unfold State.coreBusy
  split
  · exact core_setClu _ _ _
  · rfl

theorem clu_coreBusy (hi : i < 1024) (k : Nat) : (s.coreBusy i).clu k = if k = i / 16 then { s.clu (i / 16) with busy := true } else s.clu k := by
  unfold State.coreBusy
  rw [if_pos hi, State.clu_setClu]

theorem coreBusy_shape (i : Nat) : ∃ cl, s.coreBusy i = { s with clus := cl } := by
  unfold State.coreBusy
  split
  · exact ⟨_, rfl⟩
  · exact ⟨_, rfl⟩

/-- Held cores of a list go. -/
def State.goAll (s : State) (l : List Nat) : State := l.foldl (fun (t : State) i => t.coreGo i) s

/-- What a list of held cores of cluster c that go leaves: they run, and the cluster is busy. -/
structure State.GoneIn (s t : State) (c : Nat) (l : List Nat) : Prop where
  shape : ∃ co cl, t = { s with cores := co, clus := cl }
  core : ∀ j, t.core j = if j ∈ l then s.goneCore j else s.core j
  clu : ∀ k, t.clu k = s.clu k ∨ k = c ∧ t.clu k = { s.clu c with busy := true }

theorem goneIn_goAll (hc : c < 64) {l : List Nat} (hnodup : l.Nodup) (hl : ∀ i ∈ l, i / 16 = c ∧ (s.core i).run = .held ∧ s.coreOn i = true ∧
    (s.core i).haltReq = false) : s.GoneIn (s.goAll l) c l := by
  unfold State.goAll
  induction l generalizing s with
  | nil => exact ⟨⟨_, _, rfl⟩, fun _ => rfl, fun _ => Or.inl rfl⟩
  | cons i l ih =>
    obtain ⟨hnotin, hnodup'⟩ := List.nodup_cons.mp hnodup
    obtain ⟨hi, hrun, hon, hhalt⟩ := hl i List.mem_cons_self
    have hgo := coreGo_held hrun hon hhalt
    have hcore : ∀ j, (s.coreGo i).core j = if j = i then s.goneCore i else s.core j := fun j => by
      rw [hgo, core_coreBusy]
      exact State.core_setCore _ i j _
    have hclu : ∀ k, (s.coreGo i).clu k = if k = c then { s.clu c with busy := true } else s.clu k := fun k => by
      rw [hgo, clu_coreBusy (by omega), hi]
      rfl
    obtain ⟨cl, hshape⟩ := coreBusy_shape (s := s.setCore i (s.goneCore i)) i
    rw [← hgo] at hshape
    have hnext : (s.coreGo i).GoneIn (l.foldl (fun (t : State) k => t.coreGo k) (s.coreGo i)) c l := by
      refine ih hnodup' fun k hk => ?_
      obtain ⟨hk1, hk2, hk3, hk4⟩ := hl k (List.mem_cons_of_mem _ hk)
      have hne : k ≠ i := fun e => hnotin (e ▸ hk)
      rw [hcore, if_neg hne, coreOn_of_hreg (s := s) (by rw [hshape]; rfl)]
      exact ⟨hk1, hk2, hk3, hk4⟩
    obtain ⟨⟨co', cl', hshape'⟩, hcore', hclu'⟩ := hnext
    rw [List.foldl_cons]
    refine ⟨⟨co', cl', ?_⟩, fun j => ?_, fun k => ?_⟩
    · rw [hshape', hshape]
      rfl
    · rw [hcore']
      by_cases hj : j ∈ l
      · have hne : j ≠ i := fun e => hnotin (e ▸ hj)
        have hbeat : (s.coreGo i).beat = s.beat := by rw [hshape]; rfl
        rw [if_pos hj, if_pos (List.mem_cons_of_mem _ hj)]
        unfold State.goneCore
        rw [hcore, if_neg hne, hbeat]
      · rw [if_neg hj, hcore]
        by_cases hji : j = i
        · rw [if_pos hji, if_pos (by simp [hji]), hji]
        · rw [if_neg hji, if_neg (by simp [hji, hj])]
    · rcases hclu' k with hk | ⟨rfl, hk⟩
      · rw [hk, hclu]
        by_cases hkc : k = c
        · rw [if_pos hkc]
          exact Or.inr ⟨hkc, rfl⟩
        · rw [if_neg hkc]
          exact Or.inl rfl
      · rw [hk, hclu, if_pos rfl]
        exact Or.inr ⟨rfl, rfl⟩

theorem nodup_maskCores (c : Nat) (mask : BitVec 16) : (maskCores c mask).Nodup :=
  ((List.nodup_range).filter _).map fun a b hab => by
    have : 16 * c + a = 16 * c + b := hab
    omega

/-- The held cores of a cluster that are on, as CORE_START takes them. -/
def State.startable (s : State) (c : Nat) (mask : BitVec 16) : List Nat := (maskCores c mask).filter (fun i => (s.core i).run == .held && s.coreOn i)

theorem mem_startable (hc : c < 64) (hd : s.domOn (domCluster c) = true) :
    i ∈ s.startable c mask ↔ i / 16 = c ∧ mask.getLsbD (i % 16) = true ∧ (s.core i).run = .held := by
  unfold State.startable
  rw [List.mem_filter, mem_maskCores, Bool.and_eq_true, beq_iff_eq]
  constructor
  · rintro ⟨⟨h1, h2⟩, h3, -⟩
    exact ⟨h1, h2, h3⟩
  · rintro ⟨h1, h2, h3⟩
    exact ⟨⟨h1, h2⟩, h3, coreOn_cluster hc hd h1⟩

theorem coreStart_outside (hc : 64 ≤ c) : s.coreStart c mask = .now stBadParam [] s := by
  unfold State.coreStart
  rw [if_pos hc]

theorem coreStart_in (hc : c < 64) : s.coreStart c mask = .now stOk [] (if s.bit R.BEAT_STAT_RUNNING then
    s.onHost (fun z => { z with startAtEdge := z.startAtEdge ++ s.startable c mask }) else s.goAll (s.startable c mask)) := by
  unfold State.coreStart
  rw [if_neg (Nat.not_le.mpr hc)]
  rfl

section inCluster

variable (cl : Octet) (mask : BitVec 16) (hf : Says.framed s h 4) (hc : cl.toNat < 64) (hd : s.domOn (domCluster cl.toNat) = true)
include hf hc hd

theorem domOn_taken : (s.taken h).domOn (domCluster cl.toNat) = true := by
  have hT := taken_taken hf
  have hm := hT.mbx
  rw [domOn_of_word (hT.word (by unfold domCluster R.MB_STAT; omega)), hd]

/-- With the beat running, the held cores wait for the edge. -/
theorem coreStart_atEdge (hr : s.bit R.BEAT_STAT_RUNNING = true) : ∃ u, Says.completes (.coreStart h cl mask) s h stOk [] u ∧
    u = { s with host := u.host } ∧ ∀ i, i ∈ u.host.startAtEdge ↔ i ∈ s.host.startAtEdge ∨
      (i / 16 = cl.toNat ∧ mask.getLsbD (i % 16) = true) ∧ (s.core i).run = .held := by
  have hT := taken_taken hf
  obtain ⟨w, z, hs⟩ := hT.shape
  have hrt : (s.taken h).bit R.BEAT_STAT_RUNNING = true := by
    unfold State.bit at hr ⊢
    rw [hT.rd _]
    exact hr
  have hmem := fun i => mem_startable (s := s.taken h) (mask := mask) (i := i) hc (domOn_taken cl hf hc hd)
  have hcore : ∀ i, (s.taken h).core i = s.core i := fun i => by rw [hs]; rfl
  have hact := coreStart_in (s := s.taken h) (mask := mask) hc
  rw [if_pos hrt] at hact
  generalize (s.taken h).startable cl.toNat mask = l at hmem hact
  have hdone := completes_effect hf (ins := .coreStart h cl mask) (act := (·.coreStart cl.toNat mask)) rfl hact rfl rfl rfl id (by decide)
  rw [hs] at hdone
  refine ⟨_, hdone, rfl, fun i => ?_⟩
  rw [← hcore, and_assoc, ← hmem]
  exact List.mem_append

/-- With the beat stopped, the held cores go at once. -/
theorem coreStart_now (hr : s.bit R.BEAT_STAT_RUNNING = false)
    (hh : ∀ i, i / 16 = cl.toNat ∧ mask.getLsbD (i % 16) = true → (s.core i).haltReq = false) :
    ∃ u, Says.completes (.coreStart h cl mask) s h stOk [] u ∧ u = { s with cores := u.cores, clus := u.clus } ∧
      (∀ k, u.clu k = s.clu k ∨ k = cl.toNat ∧ u.clu k = { s.clu cl.toNat with busy := true }) ∧
      ∀ i, u.core i = if i / 16 = cl.toNat ∧ mask.getLsbD (i % 16) = true ∧ (s.core i).run = .held then
        { s.core i with run := .running, work := s.beat.num } else s.core i := by
  have hT := taken_taken hf
  obtain ⟨w, z, hs⟩ := hT.shape
  have hrt : ¬ (s.taken h).bit R.BEAT_STAT_RUNNING = true := by
    unfold State.bit at hr ⊢
    rw [hT.rd _, hr]
    decide
  have hdt := domOn_taken cl hf hc hd
  have hmem := fun i => mem_startable (s := s.taken h) (mask := mask) (i := i) hc hdt
  have hcore : ∀ i, (s.taken h).core i = s.core i := fun i => by rw [hs]; rfl
  have hclu : ∀ k, (s.taken h).clu k = s.clu k := fun k => by rw [hs]; rfl
  have hbeat : (s.taken h).beat = s.beat := by rw [hs]
  have hact := coreStart_in (s := s.taken h) (mask := mask) hc
  rw [if_neg hrt] at hact
  have hgone := goneIn_goAll (s := s.taken h) hc (l := (s.taken h).startable cl.toNat mask) ((nodup_maskCores _ _).filter _) fun i hi => by
    obtain ⟨h1, h2, h3⟩ := (hmem i).mp hi
    exact ⟨h1, h3, coreOn_cluster hc hdt h1, by rw [hcore]; exact hh i ⟨h1, h2⟩⟩
  generalize (s.taken h).goAll ((s.taken h).startable cl.toNat mask) = v at hgone hact
  obtain ⟨⟨co, clu, hv⟩, hvcore, hvclu⟩ := hgone
  have h1024 : v.core 1024 = (s.taken h).core 1024 := by
    rw [hvcore, if_neg fun hi => by have := ((hmem _).mp hi).1; omega]
  have hdone := completes_effect hf (ins := .coreStart h cl mask) (act := (·.coreStart cl.toNat mask)) rfl hact (by rw [hv]) (by rw [hv]) (by rw [hv]; rfl)
    (by rw [h1024]; exact id) (by decide)
  refine ⟨_, hdone, ?_, fun k => ?_, fun i => ?_⟩
  · rw [hv, hs]
  · have hk := hvclu k
    rw [hclu, hclu] at hk
    exact hk
  · refine (hvcore i).trans (if_congr ?_ ?_ (hcore i))
    · rw [hmem, hcore]
    · unfold State.goneCore
      rw [hcore, hbeat]

end inCluster

/-! ### CORE_STATE -/

theorem coreStates_outside (hc : 64 ≤ c) : s.coreStates c = .now stBadParam [] s := by
  unfold State.coreStates
  rw [if_pos hc]

theorem domOn_cluster_taken (hf : Says.framed s h len most) (hc : c < 64) : (s.taken h).domOn (domCluster c) = s.domOn (domCluster c) := by
  have hT := taken_taken hf
  have hm := hT.mbx
  exact domOn_of_word (hT.word (by unfold domCluster R.MB_STAT; omega))

/-- The 16 states of a cluster's cores (R488). -/
theorem coreState_completes (cl : Octet) (hf : Says.framed s h 4 16) (hc : cl.toNat < 64) :
    Says.completes (.coreState h cl) s h stOk ((List.range 16).map (fun k => if s.domOn (domCluster cl.toNat) = false then 4 else
      match (s.core (16 * cl.toNat + k)).run with
      | .running => 0
      | .bwait _ => 1
      | .held => 3
      | _ => 2)) s := by
  obtain ⟨w, z, hs⟩ := (taken_taken hf).shape
  have hcore : ∀ i, (s.taken h).core i = s.core i := fun i => by rw [hs]; rfl
  refine completes_unchanged hf (ins := .coreState h cl) (act := (·.coreStates cl.toNat)) rfl ?_ (by simp)
  unfold State.coreStates
  rw [if_neg (Nat.not_le.mpr hc)]
  refine congrArg (fun d => Reply.now stOk d (s.taken h)) (List.map_congr_left fun k hk => ?_)
  have hk16 := List.mem_range.mp hk
  have hdiv : (16 * cl.toNat + k) / 16 = cl.toNat := by omega
  unfold State.coreState
  rw [hdiv, domOn_cluster_taken hf hc, hcore]
  by_cases hd : s.domOn (domCluster cl.toNat) = false
  · rw [if_pos ⟨by omega, by rw [hd]; rfl⟩, if_pos hd]
    rfl
  · rw [if_neg (by simp [hd]), if_neg hd]
    cases (s.core (16 * cl.toNat + k)).run <;> rfl

/-! ### CORE_RESUME -/

/-- A halted core continues at pc. -/
def Core.resumed (x : Core) (pc : Long) : Core := { x with
  run := .running
  brkPass := (x.run == .halted whyBreak || x.brkPass) && pc == x.pc
  watchPass := (x.run == .halted whyWatch || x.watchPass) && pc == x.pc
  pc := pc
  prev := none
  step := (x.ccbL 0x40).getLsbD 0 }

variable {k : Nat} {pc : Long}

theorem coreResume_outside (hc : 64 ≤ c ∨ 16 ≤ k) : s.coreResume c k pc = .now stBadParam [] s := by
  unfold State.coreResume
  dsimp only
  rw [if_pos hc]

theorem coreResume_refused (hc : c < 64) (hk : k < 16) (hno : s.coreOn (16 * c + k) = false ∨ (s.core (16 * c + k)).isHalted = false) :
    s.coreResume c k pc = .now stBadState [] s := by
  have hbad : (!(s.coreOn (16 * c + k) && (s.core (16 * c + k)).isHalted)) = true := by
    rcases hno with h | h
    · rw [h]
      rfl
    · rw [h, Bool.and_false]
      rfl
  unfold State.coreResume
  dsimp only
  rw [if_neg (by omega), if_pos hbad]

theorem coreResume_resumed (hc : c < 64) (hk : k < 16) (hon : s.coreOn (16 * c + k) = true) (hh : (s.core (16 * c + k)).isHalted = true) :
    s.coreResume c k pc = .now stOk [] ((s.coreBusy (16 * c + k)).setCore (16 * c + k) ((s.core (16 * c + k)).resumed pc)) := by
  have hok : ¬ (!(s.coreOn (16 * c + k) && (s.core (16 * c + k)).isHalted)) = true := by
    rw [hon, hh]
    decide
  unfold State.coreResume
  dsimp only
  rw [if_neg (by omega), if_neg hok]
  unfold State.onCore
  rw [core_coreBusy]
  rfl

theorem coreResume_completes (cl k : Octet) (pc : Long) (hf : Says.framed s h 12) :
    (64 ≤ cl.toNat ∨ 16 ≤ k.toNat → Says.completes (.coreResume h cl k pc) s h stBadParam [] s) ∧
    (cl.toNat < 64 → k.toNat < 16 →
      (s.domOn (domCluster cl.toNat) = false ∨ (s.core (16 * cl.toNat + k.toNat)).isHalted = false →
        Says.completes (.coreResume h cl k pc) s h stBadState [] s) ∧
      (s.domOn (domCluster cl.toNat) = true → (s.core (16 * cl.toNat + k.toNat)).isHalted = true →
        ∃ u, Says.completes (.coreResume h cl k pc) s h stOk [] u ∧ u = { s with cores := u.cores, clus := u.clus } ∧
          (∀ j, u.core j = if j = 16 * cl.toNat + k.toNat then (s.core j).resumed pc else s.core j) ∧
          ∀ j, u.clu j = if j = cl.toNat then { s.clu j with busy := true } else s.clu j)) := by
  obtain ⟨w, z, hs⟩ := (taken_taken hf).shape
  have hcore : ∀ i, (s.taken h).core i = s.core i := fun i => by rw [hs]; rfl
  have hclu : ∀ j, (s.taken h).clu j = s.clu j := fun j => by rw [hs]; rfl
  have hcoreOn : ∀ i, i < 1024 → i / 16 = cl.toNat → cl.toNat < 64 → (s.taken h).coreOn i = s.domOn (domCluster cl.toNat) := fun i hi hdiv hc => by
    unfold State.coreOn
    rw [if_pos hi, hdiv, domOn_cluster_taken hf hc]
  refine ⟨fun hout => ?_, fun hc hk => ⟨fun hno => ?_, fun hd hh => ?_⟩⟩
  · exact completes_unchanged hf (act := (·.coreResume cl.toNat k.toNat pc)) rfl (coreResume_outside hout) (by decide)
  · refine completes_unchanged hf (act := (·.coreResume cl.toNat k.toNat pc)) rfl (coreResume_refused hc hk ?_) (by decide)
    rw [hcoreOn _ (by omega) (by omega) hc, hcore]
    exact hno
  · have hact := coreResume_resumed (s := s.taken h) (pc := pc) hc hk (by rw [hcoreOn _ (by omega) (by omega) hc, hd]) (by rw [hcore]; exact hh)
    obtain ⟨v, hv⟩ : ∃ v, v = ((s.taken h).coreBusy (16 * cl.toNat + k.toNat)).setCore (16 * cl.toNat + k.toNat)
      (((s.taken h).core (16 * cl.toNat + k.toNat)).resumed pc) := ⟨_, rfl⟩
    obtain ⟨cl', hshape⟩ : ∃ cl', v = { s.taken h with cores := v.cores, clus := cl' } := by
      obtain ⟨cl', he⟩ := coreBusy_shape (s := s.taken h) (16 * cl.toNat + k.toNat)
      rw [hv, he]
      exact ⟨_, rfl⟩
    have hvcore : ∀ j, v.core j = if j = 16 * cl.toNat + k.toNat then (s.core j).resumed pc else s.core j := fun j => by
      rw [hv, State.core_setCore, core_coreBusy]
      split
      · next hj => rw [hcore, hj]
      · exact hcore j
    have hvclu : ∀ j, v.clu j = if j = cl.toNat then { s.clu j with busy := true } else s.clu j := fun j => by
      have hdiv : (16 * cl.toNat + k.toNat) / 16 = cl.toNat := by omega
      have hj : v.clu j = ((s.taken h).coreBusy (16 * cl.toNat + k.toNat)).clu j := by rw [hv]; rfl
      rw [hj, clu_coreBusy (by omega), hdiv, hclu, hclu]
      split
      · next hjc => rw [hjc]
      · rfl
    rw [← hv] at hact
    have h1024 : v.core 1024 = (s.taken h).core 1024 := by
      rw [hvcore, if_neg (by omega), hcore]
    have hdone := completes_effect hf (ins := .coreResume h cl k pc) (act := (·.coreResume cl.toNat k.toNat pc)) rfl hact (by rw [hshape])
      (by rw [hshape]) (by rw [hshape]; rfl) (by rw [h1024]; exact id) (by decide)
    refine ⟨_, hdone, ?_, hvcore, hvclu⟩
    rw [hshape, hs]

end Sys2Proof.Machine

/-! PROOFS. PROG_LOAD (R488). -/

namespace Sys2Proof.Machine

open Sys2Proof

-- One proof after another, as in the tests: theorems checked side by side need more threads than the check's memory limit allows.
set_option Elab.async false

variable {s t u v x : State} {h : BHdr} {c : Nat} {mask : BitVec 16}

/-! ### Writing grains -/

/-- Grains have been stored: memory, the errors that whole longs clear, and the marks of reduction states differ; no error is new. -/
structure State.Stored (s t : State) : Prop where
  shape : ∃ m e r, t = { s with mem := m, eccUnc := e, red := r }
  marks : redBut t.red = redBut s.red
  clean : (∀ k, s.badLong k = false) → ∀ k, t.badLong k = false

namespace State.Stored

theorem refl (s : State) : s.Stored s := ⟨⟨_, _, _, rfl⟩, rfl, id⟩

theorem trans (h : s.Stored t) (h' : t.Stored u) : s.Stored u := by
  obtain ⟨⟨m, e, r, rfl⟩, hmark, hclean⟩ := h
  obtain ⟨⟨m', e', r', rfl⟩, hmark', hclean'⟩ := h'
  exact ⟨⟨_, _, _, rfl⟩, hmark'.trans hmark, hclean' ∘ hclean⟩

theorem setGrain (s : State) (k : Nat) (g : Grain) : s.Stored (s.setGrain k g) := ⟨⟨_, _, _, rfl⟩, rfl, id⟩

/-- A store only marks reduction states (R302). -/
theorem spoil (s : State) (a n : Nat) : s.Stored (s.spoil a n) := by
  unfold State.spoil
  split
  · refine ⟨⟨_, _, _, rfl⟩, ?_, id⟩
    unfold redBut State.onRed
    dsimp only
    rw [List.map_map]
    congr 1
    refine List.map_congr_left fun r _ => ?_
    dsimp only [Function.comp_apply]
    split <;> rfl
  · exact .refl s

/-- A whole long clears its error (R571). -/
theorem clearUnc (s : State) (k : Nat) : s.Stored { s with eccUnc := s.eccUnc.filter (· ≠ k) } := by
  refine ⟨⟨_, _, _, rfl⟩, rfl, fun hs j => ?_⟩
  have hj : j / 2 * 2 ∉ s.eccUnc := by
    have := hs j
    unfold State.badLong at this
    rwa [← Bool.not_eq_true, List.contains_iff_mem] at this
  unfold State.badLong
  rw [← Bool.not_eq_true, List.contains_iff_mem]
  exact fun hin => hj (List.mem_filter.mp hin).1

end State.Stored

theorem grain_spoil (a n j : Nat) : (s.spoil a n).grain j = s.grain j := by
  unfold State.spoil
  split <;> rfl

/-- Grains written to consecutive places from b, in memory without errors. -/
structure State.WroteAt (s t : State) (b : Nat) (l : List Grain) : Prop where
  stored : s.Stored t
  new : ∀ j g, l[j]? = some g → t.grain (b + j) = g
  old : ∀ j, j < b ∨ b + l.length ≤ j → t.grain j = s.grain j

theorem progWrite_wroteAt (hs : ∀ k, s.badLong k = false) {place : Nat → Option Nat} {a b : Nat} {l : List Grain}
    (hp : ∀ j, j < l.length → place (a + j) = some (b + j)) : s.WroteAt (progWrite place a l s) b l := by
  induction l generalizing s a b with
  | nil => exact ⟨.refl s, fun _ _ hj => by simp at hj, fun _ _ => rfl⟩
  | cons g l ih =>
    obtain ⟨s1, hs1⟩ : ∃ s1, s1 = if a % 2 = 0 ∧ (!l.isEmpty) = true then { s with eccUnc := s.eccUnc.filter (· ≠ b) } else s := ⟨_, rfl⟩
    have hone : s.Stored s1 := by
      rw [hs1]
      split
      · exact .clearUnc s b
      · exact .refl s
    have hgrain1 : ∀ j, s1.grain j = s.grain j := fun j => by
      rw [hs1]
      split <;> rfl
    have hstep : s.Stored ((s1.setGrain b g).spoil b 1) := (hone.trans (.setGrain s1 b g)).trans (.spoil _ b 1)
    have hgrain : ∀ j, ((s1.setGrain b g).spoil b 1).grain j = if j = b then g else s.grain j := fun j => by
      rw [grain_spoil, State.grain_setGrain, hgrain1]
    have hrun : progWrite place a (g :: l) s = progWrite place (a + 1) l ((s1.setGrain b g).spoil b 1) := by
      have h0 : place a = some b := hp 0 (by simp)
      rw [progWrite, h0]
      dsimp only
      rw [← hs1, if_neg (by rw [hone.clean hs]; decide)]
    have hrest := ih (s := (s1.setGrain b g).spoil b 1) (a := a + 1) (b := b + 1) (hstep.clean hs) fun j hj => by
      have := hp (j + 1) (by simpa using hj)
      rw [← Nat.add_assoc, ← Nat.add_assoc, Nat.add_right_comm a, Nat.add_right_comm b] at this
      exact this
    rw [hrun]
    refine ⟨hstep.trans hrest.stored, fun j v hj => ?_, fun j hj => ?_⟩
    · cases j with
      | zero =>
        refine (hrest.old b (by omega)).trans ?_
        rw [hgrain, if_pos rfl]
        simpa using hj
      | succ j =>
        rw [← Nat.add_assoc, Nat.add_right_comm]
        exact hrest.new j v (by simpa using hj)
    · rw [List.length_cons] at hj
      rw [hrest.old j (by omega), hgrain, if_neg (by omega)]

/-! ### Where the grains go -/

/-- Where an address leads depends on the domains and on DRAM alone. -/
theorem place_of_words (hw : ∀ o, 0x800 ≤ o → t.word o = s.word o) (i a : Nat) : t.place i a = s.place i a := by
  have hrd : ∀ f : Fld, 0x800 ≤ f.off → t.rd f = s.rd f := fun f hf => by unfold State.rd; rw [hw _ hf]
  have hd : ∀ d, t.domOn d = s.domOn d := fun d => domOn_of_word (hw _ (by omega))
  have hdram : ∀ k, t.dramInstalled k = s.dramInstalled k ∧ t.dramGrains k = s.dramGrains k := fun k => by
    have hi : t.dramInstalled k = s.dramInstalled k := by unfold State.dramInstalled; rw [hrd _ (by dsimp only; omega)]
    refine ⟨hi, ?_⟩
    unfold State.dramGrains
    rw [hrd _ (by dsimp only; omega), hi]
  unfold State.place State.placeGlobal
  dsimp only
  simp only [hd, hdram]

theorem progPlace_of_words (hw : ∀ o, 0x800 ≤ o → t.word o = s.word o) (tg c i a : Nat) : t.progPlace tg c i a = s.progPlace tg c i a := by
  unfold State.progPlace
  rw [place_of_words hw]

/-- A grain for a core goes to its local store. -/
theorem progPlace_local {i a : Nat} (hi : i < 1024) (ha : a < 0x8000) : s.progPlace 0 c i a = .ok (keyLocal i a) := by
  have hplace : s.place i a = .mem (keyLocal i a) := by
    unfold State.place
    rw [if_pos hi, if_pos ha]
  unfold State.progPlace
  rw [if_pos rfl, hplace]
  dsimp only
  rw [if_pos rfl, if_pos ha]

/-- A grain for a cluster goes to its memory while the cluster is on. -/
theorem progPlace_cluster {a : Nat} (i : Nat) (hc : c < 64) (h0 : 0x10000 ≤ a) (h1 : a < 0x90000) :
    s.progPlace 1 c i a = if s.domOn (domCluster c) = true then .ok (clusterBase c + (a - 0x10000)) else .error stBadState := by
  have hplace : s.place (16 * c) a = if s.domOn (domCluster c) = true then .mem (clusterBase c + (a - 0x10000)) else .off := by
    unfold State.place
    rw [if_pos (by omega), if_neg (by omega), if_pos ⟨h0, h1⟩, Nat.mul_div_cancel_left c (by decide)]
  unfold State.progPlace
  rw [if_neg (by decide), hplace]
  by_cases hd : s.domOn (domCluster c) = true
  · rw [if_pos hd, if_pos hd]
    dsimp only
    rw [if_neg (by decide), if_pos rfl, if_pos (by omega)]
  · rw [if_neg hd, if_neg hd]
    dsimp only
    rw [if_pos (Or.inl ⟨rfl, Or.inl ⟨h0, h1⟩⟩)]

/-- A grain for DRAM: its place while MEM is on and the channel holds it; with MEM off, of a grain installed, the wrong state. -/
theorem progPlace_dram {a : Nat} (i : Nat) (h0 : 0x1000000000 ≤ a) (h1 : a < 0x3000000000) :
    (s.domOn domMem = true → a % 0x800000000 < s.dramGrains ((a - 0x1000000000) / 0x800000000) → s.progPlace 2 0 i a = .ok a) ∧
    (s.domOn domMem = false → a % 0x800000000 < s.dramInstalled ((a - 0x1000000000) / 0x800000000) → s.progPlace 2 0 i a = .error stBadState) := by
  have hmod : (a - 0x1000000000) % 0x800000000 = a % 0x800000000 := by omega
  have hglobal : s.place (16 * 0) a = s.placeGlobal a := by
    unfold State.place
    rw [if_pos (by decide), if_neg (by omega), if_neg (by omega)]
  refine ⟨fun hm hlt => ?_, fun hm hlt => ?_⟩
  · have hplace : s.placeGlobal a = .mem a := by
      unfold State.placeGlobal
      dsimp only
      rw [if_neg (by omega), if_neg (by omega), if_pos (by omega), hm, hmod, if_neg (by decide), if_pos hlt]
    unfold State.progPlace
    rw [if_neg (by decide), hglobal, hplace]
    dsimp only
    rw [if_neg (by decide), if_neg (by decide), if_pos (by omega)]
  · have hplace : s.placeGlobal a = .off := by
      unfold State.placeGlobal
      dsimp only
      rw [if_neg (by omega), if_neg (by omega), if_pos (by omega), hm, hmod, if_pos (by decide), if_pos hlt]
    unfold State.progPlace
    rw [if_neg (by decide), hglobal, hplace]
    dsimp only
    rw [if_pos (Or.inr ⟨rfl, h0⟩)]

/-! ### The whole load -/

/-- Is a place an error of status st? -/
def placeBad (st : Nat) (x : Except Nat Nat) : Bool :=
  match x with
  | .error e => e == st
  | .ok _ => false

/-- The cores of a load. -/
def loadCores (tg c : Nat) (mask : BitVec 16) : List Nat := if tg = 0 then maskCores c mask else [16 * c]

/-- Has a grain of a load of n grains from a a place of error st? -/
def State.loadBad (s : State) (tg c : Nat) (mask : BitVec 16) (a n st : Nat) : Bool :=
  ((loadCores tg c mask).flatMap (fun i => (List.range n).map (fun j => s.progPlace tg c i (a + j)))).any (placeBad st)

/-- The grains written for each core of a list. -/
def State.loadAll (s : State) (tg c a : Nat) (l : List Grain) (cores : List Nat) : State :=
  cores.foldl (fun (t : State) i => progWrite (fun x => (t.progPlace tg c i x).toOption) a l t) s

theorem loadBad_iff (tg c a n st : Nat) : s.loadBad tg c mask a n st = true ↔
    ∃ i ∈ loadCores tg c mask, ∃ j, j < n ∧ placeBad st (s.progPlace tg c i (a + j)) = true := by
  unfold State.loadBad
  simp only [List.any_eq_true, List.mem_flatMap, List.mem_map, List.mem_range]
  constructor
  · rintro ⟨x, ⟨i, hi, j, hj, rfl⟩, hx⟩
    exact ⟨i, hi, j, hj, hx⟩
  · rintro ⟨i, hi, j, hj, hx⟩
    exact ⟨_, ⟨i, hi, j, hj, rfl⟩, hx⟩

/-- The message of a load with NOTIFY (R488). -/
def loadNotice (tag a n : Nat) : Msg := { longs := [BitVec.ofNat 40 (6 * 2 ^ 36 + tag), BitVec.ofNat 40 a, BitVec.ofNat 40 n] }

/-- The hash of a load's packed grains. -/
def loadHash (l : List Grain) : List Octet := le 48 (Config.sha384 (packBits 20 (l.map (·.toNat)))).toNat

variable {tg cl a : Nat} {l : List Grain} {nt : Bool} {nq tag : Nat}

theorem progLoad_eq : s.progLoad tag tg cl mask a nt nq l =
    let c := if tg = 2 then 0 else cl
    if 2 < tg ∨ 64 ≤ c ∨ l.length = 0 ∨ 6000000 < l.length ∨ (tg ≠ 0 ∧ mask ≠ 0) ∨ s.loadBad tg c mask a l.length stBadParam = true then
      .now stBadParam [] s
    else if ((tg = 0 && !(s.domOn (domCluster c) && (loadCores tg c mask).all (fun i => (s.core i).run == .held || (s.core i).isHalted)))
      || s.loadBad tg c mask a l.length stBadState) = true then .now stBadState [] s
    else .now stOk (loadHash l) (if (nt && (s.loadAll tg c a l (loadCores tg c mask)).domOn domQueue) = true then
      (s.loadAll tg c a l (loadCores tg c mask)).enqueue nq (loadNotice tag a l.length) else s.loadAll tg c a l (loadCores tg c mask)) := rfl

end Sys2Proof.Machine

/-! PROOFS. What PROG_LOAD answers (R488). -/

namespace Sys2Proof.Machine

open Sys2Proof

-- One proof after another, as in the tests: theorems checked side by side need more threads than the check's memory limit allows.
set_option Elab.async false

variable {s t u v x : State} {h : BHdr} {mask : BitVec 16} {tg c cl a : Nat} {l : List Grain} {nt : Bool} {nq tag : Nat}

/-- Grains written for each core of a list, to places that do not overlap. -/
structure State.LoadedAt (s t : State) (cores : List Nat) (B : Nat → Nat) (l : List Grain) : Prop where
  stored : s.Stored t
  new : ∀ i ∈ cores, ∀ j g, l[j]? = some g → t.grain (B i + j) = g
  old : ∀ g, (∀ i ∈ cores, g < B i ∨ B i + l.length ≤ g) → t.grain g = s.grain g

theorem loadAll_loadedAt (hs : ∀ k, s.badLong k = false) {cores : List Nat} {B : Nat → Nat}
    (hp : ∀ i ∈ cores, ∀ j, j < l.length → s.progPlace tg c i (a + j) = .ok (B i + j))
    (hapart : ∀ i ∈ cores, ∀ k ∈ cores, i ≠ k → B i + l.length ≤ B k ∨ B k + l.length ≤ B i) : s.LoadedAt (s.loadAll tg c a l cores) cores B l := by
  unfold State.loadAll
  induction cores generalizing s with
  | nil => exact ⟨.refl s, fun i hi => by simp at hi, fun _ _ => rfl⟩
  | cons i cores ih =>
    rw [List.foldl_cons]
    have hone := progWrite_wroteAt hs (place := fun x => (s.progPlace tg c i x).toOption) (a := a) (b := B i) (l := l) fun j hj => by
      rw [hp i List.mem_cons_self j hj]
      rfl
    generalize progWrite (fun x => (s.progPlace tg c i x).toOption) a l s = t at hone
    have hreg : t.hreg = s.hreg := by
      obtain ⟨m, e, r, he⟩ := hone.stored.shape
      rw [he]
    have hrest := ih (hone.stored.clean hs) fun k hk j hj => by
      rw [progPlace_of_words fun o _ => word_of_hreg hreg o]
      exact hp k (List.mem_cons_of_mem _ hk) j hj
    have hrest := hrest fun k hk k' hk' => hapart k (List.mem_cons_of_mem _ hk) k' (List.mem_cons_of_mem _ hk')
    refine ⟨hone.stored.trans hrest.stored, fun k hk j g hj => ?_, fun g hg => ?_⟩
    · by_cases hin : k ∈ cores
      · exact hrest.new k hin j g hj
      · have hki : k = i := (List.mem_cons.mp hk).resolve_right hin
        subst hki
        have hlt : j < l.length := (List.getElem?_eq_some_iff.mp hj).1
        rw [hrest.old _ fun k' hk' => by
          have := hapart k hk k' (List.mem_cons_of_mem _ hk') fun e => hin (e ▸ hk')
          omega]
        exact hone.new j g hj
    · rw [hrest.old g fun k hk => hg k (List.mem_cons_of_mem _ hk)]
      exact hone.old g (hg i List.mem_cons_self)

/-! ### The three answers -/

theorem progLoad_badParam (hbad : 2 < tg ∨ l = [] ∨ tg ≠ 2 ∧ 64 ≤ cl ∨ tg ≠ 0 ∧ mask ≠ 0) :
    s.progLoad tag tg cl mask a nt nq l = .now stBadParam [] s := by
  rw [progLoad_eq]
  refine if_pos ?_
  rcases hbad with h | h | ⟨h1, h2⟩ | h
  · exact Or.inl h
  · exact Or.inr (Or.inr (Or.inl (by rw [h]; rfl)))
  · exact Or.inr (Or.inl (by rw [if_neg h1]; exact h2))
  · exact Or.inr (Or.inr (Or.inr (Or.inr (Or.inl h))))

theorem loadBad_none {B : Nat → Nat} (hp : ∀ i ∈ loadCores tg c mask, ∀ j, j < l.length → s.progPlace tg c i (a + j) = .ok (B i + j)) (st : Nat) : s.loadBad tg c mask a l.length st = false := by
  rw [← Bool.not_eq_true, loadBad_iff]
  rintro ⟨k, hk, j, hj, hb⟩
  rw [hp k hk j hj] at hb
  cases hb

section inRange

variable (htg : tg ≤ 2) (hc : (if tg = 2 then 0 else cl) = c) (hc64 : c < 64) (hn : 1 ≤ l.length) (hmax : l.length ≤ 6000000)
  (hmask : tg = 0 ∨ mask = 0)
include htg hc hc64 hn hmax hmask

/-- Parameters within their ranges, of which no place is refused. -/
theorem progLoad_inRange (hp : s.loadBad tg c mask a l.length stBadParam = false) : s.progLoad tag tg cl mask a nt nq l =
    if ((tg = 0 && !(s.domOn (domCluster c) && (loadCores tg c mask).all (fun i => (s.core i).run == .held || (s.core i).isHalted)))
      || s.loadBad tg c mask a l.length stBadState) = true then .now stBadState [] s
    else .now stOk (loadHash l) (if (nt && (s.loadAll tg c a l (loadCores tg c mask)).domOn domQueue) = true then
      (s.loadAll tg c a l (loadCores tg c mask)).enqueue nq (loadNotice tag a l.length) else s.loadAll tg c a l (loadCores tg c mask)) := by
  rw [progLoad_eq]
  dsimp only
  rw [hc]
  refine if_neg ?_
  rw [hp]
  rintro (h | h | h | h | ⟨h1, h2⟩ | h)
  · omega
  · omega
  · omega
  · omega
  · exact hmask.elim h1 h2
  · cases h

/-- Every place is one whose domain is off. -/
theorem progLoad_off {i : Nat} (hi : loadCores tg c mask = [i]) (hp : ∀ j, j < l.length → s.progPlace tg c i (a + j) = .error stBadState) :
    s.progLoad tag tg cl mask a nt nq l = .now stBadState [] s := by
  have hparam : s.loadBad tg c mask a l.length stBadParam = false := by
    rw [← Bool.not_eq_true, loadBad_iff, hi]
    rintro ⟨k, hk, j, hj, hb⟩
    rw [List.mem_singleton.mp hk, hp j hj] at hb
    cases hb
  have hstate : s.loadBad tg c mask a l.length stBadState = true := by
    rw [loadBad_iff, hi]
    exact ⟨i, List.mem_singleton.mpr rfl, 0, hn, by rw [hp 0 hn]; rfl⟩
  rw [progLoad_inRange htg hc hc64 hn hmax hmask hparam, hstate, Bool.or_true, if_pos rfl]

variable {B : Nat → Nat} (hp : ∀ i ∈ loadCores tg c mask, ∀ j, j < l.length → s.progPlace tg c i (a + j) = .ok (B i + j))
include hp

/-- A core of a local-store load is neither held nor halted, or its cluster is off. -/
theorem progLoad_notStill (h0 : tg = 0) (hno : s.domOn (domCluster c) = false ∨
    ∃ i ∈ loadCores tg c mask, (s.core i).run ≠ .held ∧ (s.core i).isHalted = false) :
    s.progLoad tag tg cl mask a nt nq l = .now stBadState [] s := by
  have hnot : (s.domOn (domCluster c) && (loadCores tg c mask).all (fun i => (s.core i).run == .held || (s.core i).isHalted)) = false := by
    rcases hno with h | ⟨i, hi, h1, h2⟩
    · rw [h, Bool.false_and]
    · have hall : (loadCores tg c mask).all (fun i => (s.core i).run == .held || (s.core i).isHalted) = false := by
        rw [List.all_eq_false]
        exact ⟨i, hi, by simp [h1, h2]⟩
      rw [hall, Bool.and_false]
  have hcond : ((tg = 0 && !(s.domOn (domCluster c) && (loadCores tg c mask).all (fun i => (s.core i).run == .held || (s.core i).isHalted)))
      || s.loadBad tg c mask a l.length stBadState) = true := by
    rw [hnot, h0]
    rfl
  rw [progLoad_inRange htg hc hc64 hn hmax hmask (loadBad_none hp _), if_pos hcond]

/-- The grains are written. -/
theorem progLoad_loads (hstill : tg = 0 → s.domOn (domCluster c) = true ∧
    ∀ i ∈ loadCores tg c mask, (s.core i).run = .held ∨ (s.core i).isHalted = true) :
    s.progLoad tag tg cl mask a nt nq l = .now stOk (loadHash l) (if (nt && (s.loadAll tg c a l (loadCores tg c mask)).domOn domQueue) = true then
      (s.loadAll tg c a l (loadCores tg c mask)).enqueue nq (loadNotice tag a l.length) else s.loadAll tg c a l (loadCores tg c mask)) := by
  have hcond : ¬ ((tg = 0 && !(s.domOn (domCluster c) && (loadCores tg c mask).all (fun i => (s.core i).run == .held || (s.core i).isHalted)))
      || s.loadBad tg c mask a l.length stBadState) = true := by
    rw [loadBad_none hp, Bool.or_false]
    by_cases h0 : tg = 0
    · obtain ⟨hd, hall⟩ := hstill h0
      have hall' : (loadCores tg c mask).all (fun i => (s.core i).run == .held || (s.core i).isHalted) = true := by
        rw [List.all_eq_true]
        intro i hi
        rw [Bool.or_eq_true, beq_iff_eq]
        exact hall i hi
      rw [hd, hall']
      simp
    · simp [h0]
  rw [progLoad_inRange htg hc hc64 hn hmax hmask (loadBad_none hp _), if_neg hcond]

end inRange

/-! ### As a command -/

theorem accepts_of_qeng (hq : t.qeng = s.qeng) (q : Nat) (ha : Says.accepts s q) : Says.accepts t q := by
  have hqueue : t.queue q = s.queue q := by unfold State.queue; rw [hq]
  have hfree : t.poolFree = s.poolFree := by unfold State.poolFree; rw [hq]
  unfold Says.accepts at ha ⊢
  rw [hqueue, hfree, hq]
  exact ha

theorem length_loadHash : (loadHash l).length ≤ 48 := by
  unfold loadHash le
  rw [List.length_map, List.length_range]

section command

variable {tg cl : Octet} {ga : Long} {nq : BitVec 16} {c : Nat} {B : Nat → Nat} (hf : Says.framed s h (16 + (20 * l.length + 7) / 8) 48)
include hf

/-- A refused load. -/
theorem progLoad_refuses {st : Nat} (hact : (s.taken h).progLoad h.tag.toNat tg.toNat cl.toNat mask ga.toNat nt nq.toNat l = .now st [] (s.taken h)) :
    Says.completes (.progLoad h tg cl mask ga nt nq l) s h st [] s :=
  completes_unchanged hf (act := (·.progLoad h.tag.toNat tg.toNat cl.toNat mask ga.toNat nt nq.toNat l)) rfl hact (by decide)

theorem progPlace_taken (i x : Nat) : (s.taken h).progPlace tg.toNat c i x = s.progPlace tg.toNat c i x := by
  have hT := taken_taken hf
  have hm := hT.mbx
  exact progPlace_of_words (fun o ho => hT.word (by unfold R.MB_STAT; omega)) _ _ _ _

variable (htg : tg.toNat ≤ 2) (hc : (if tg.toNat = 2 then 0 else cl.toNat) = c) (hc64 : c < 64) (hn : 1 ≤ l.length) (hmax : l.length ≤ 6000000)
  (hmask : tg.toNat = 0 ∨ mask = 0) (hclean : ∀ k, s.badLong k = false)
  (hp : ∀ i ∈ loadCores tg.toNat c mask, ∀ j, j < l.length → s.progPlace tg.toNat c i (ga.toNat + j) = .ok (B i + j))
  (hapart : ∀ i ∈ loadCores tg.toNat c mask, ∀ k ∈ loadCores tg.toNat c mask, i ≠ k → B i + l.length ≤ B k ∨ B k + l.length ≤ B i)
  (hstill : tg.toNat = 0 → s.domOn (domCluster c) = true ∧ ∀ i ∈ loadCores tg.toNat c mask, (s.core i).run = .held ∨ (s.core i).isHalted = true)
include htg hc hc64 hn hmax hmask hclean hp hapart hstill

/-- What the load leaves, as taken, with the message still to be sent. -/
theorem progLoad_taken : ∃ v, (s.taken h).LoadedAt v (loadCores tg.toNat c mask) B l ∧
    (s.taken h).progLoad h.tag.toNat tg.toNat cl.toNat mask ga.toNat nt nq.toNat l =
      .now stOk (loadHash l) (if (nt && v.domOn domQueue) = true then v.enqueue nq.toNat (loadNotice h.tag.toNat ga.toNat l.length) else v) := by
  obtain ⟨w, z, hs⟩ := (taken_taken hf).shape
  have hclean' : ∀ k, (s.taken h).badLong k = false := fun k => by rw [hs]; exact hclean k
  have hp' : ∀ i ∈ loadCores tg.toNat c mask, ∀ j, j < l.length → (s.taken h).progPlace tg.toNat c i (ga.toNat + j) = .ok (B i + j) :=
    fun i hi j hj => (progPlace_taken hf i _).trans (hp i hi j hj)
  refine ⟨_, loadAll_loadedAt hclean' hp' hapart, progLoad_loads htg hc hc64 hn hmax hmask hp' fun h0 => ?_⟩
  obtain ⟨hd, hall⟩ := hstill h0
  have hcore : ∀ i, (s.taken h).core i = s.core i := fun i => by rw [hs]; rfl
  refine ⟨(domOn_cluster_taken hf hc64).trans hd, fun i hi => ?_⟩
  rw [hcore]
  exact hall i hi

theorem progLoad_completes (hnt : nt = false) : ∃ u, Says.completes (.progLoad h tg cl mask ga nt nq l) s h stOk (loadHash l) u ∧
    s.LoadedAt u (loadCores tg.toNat c mask) B l := by
  obtain ⟨v, hv, hact⟩ := progLoad_taken hf htg hc hc64 hn hmax hmask hclean hp hapart hstill (nt := nt) (nq := nq)
  obtain ⟨w, z, hs⟩ := (taken_taken hf).shape
  rw [hnt, Bool.false_and, if_neg Bool.false_ne_true] at hact
  obtain ⟨⟨⟨m, e, r, hshape⟩, hmarks, hvclean⟩, hnew, hold⟩ := hv
  have hdone := completes_effect hf (ins := .progLoad h tg cl mask ga nt nq l)
    (act := (·.progLoad h.tag.toNat tg.toNat cl.toNat mask ga.toNat nt nq.toNat l)) rfl (by rw [hnt]; exact hact) (by rw [hshape]) (by rw [hshape])
    (by rw [hshape]; rfl) (by rw [hshape]; exact id) length_loadHash
  have hgrain : ∀ g, (s.taken h).grain g = s.grain g := fun g => by rw [hs]; rfl
  refine ⟨_, hdone, ⟨⟨m, e, r, ?_⟩, ?_, fun hcl k => ?_⟩, hnew, fun g hg => (hold g hg).trans (hgrain g)⟩
  · rw [hshape, hs]
  · refine hmarks.trans ?_
    rw [hs]
  · exact hvclean (fun k' => by rw [hs]; exact hcl k') k

theorem progLoad_notifies (hnt : nt = true) (hq : s.domOn domQueue = true) (ha : Says.accepts s nq.toNat) :
    ∃ u, Says.completes (.progLoad h tg cl mask ga nt nq l) s h stOk (loadHash l) u ∧
      (u.queue nq.toNat).msgs = (s.queue nq.toNat).msgs ++ [loadNotice h.tag.toNat ga.toNat l.length] := by
  obtain ⟨v, hv, hact⟩ := progLoad_taken hf htg hc hc64 hn hmax hmask hclean hp hapart hstill (nt := nt) (nq := nq)
  have hT := taken_taken hf
  obtain ⟨w, z, hs⟩ := hT.shape
  have hm := hT.mbx
  obtain ⟨⟨⟨m, e, r, hshape⟩, -, -⟩, -, -⟩ := hv
  have hvq : v.domOn domQueue = true := by
    rw [domOn_of_word (s := s.taken h) (word_of_hreg (by rw [hshape]) _), domOn_of_word (hT.word (by unfold domQueue R.MB_STAT; omega)), hq]
  have hqeng : v.qeng = s.qeng := by rw [hshape, hs]
  rw [hvq, Bool.and_true, if_pos hnt] at hact
  obtain ⟨hen, hmsgs⟩ := enqueue_accepted (accepts_of_qeng hqeng nq.toNat ha) (loadNotice h.tag.toNat ga.toNat l.length)
  generalize v.enqueue nq.toNat (loadNotice h.tag.toNat ga.toNat l.length) = y at hen hmsgs hact
  have hdone := completes_effect hf (ins := .progLoad h tg cl mask ga nt nq l)
    (act := (·.progLoad h.tag.toNat tg.toNat cl.toNat mask ga.toNat nt nq.toNat l)) rfl hact (by rw [hen, hshape]) (by rw [hen, hshape])
    (by rw [hen, hshape]; rfl) (by rw [hen, hshape]; exact id) length_loadHash
  refine ⟨_, hdone, hmsgs.trans ?_⟩
  have hqueue : v.queue nq.toNat = s.queue nq.toNat := by unfold State.queue; rw [hqeng]
  rw [hqueue]

end command

end Sys2Proof.Machine

/-! PROOFS. The time and core commands together (R40, R60, R244, R488). -/

namespace Sys2Proof.Machine

open Sys2Proof

-- One proof after another, as in the tests: theorems checked side by side need more threads than the check's memory limit allows.
set_option Elab.async false

variable {s u : State} {h : BHdr} {mask : BitVec 16} {tg cl : Octet} {ga : Long} {l : List Grain} {nt : Bool} {nq : BitVec 16}

/-- Only memory, its errors and the marks of reduction states differ. -/
def State.MemOnly (s u : State) : Prop := u = { s with mem := u.mem, eccUnc := u.eccUnc, red := u.red } ∧ redBut u.red = redBut s.red

theorem State.Stored.memOnly (h : s.Stored u) : s.MemOnly u := by
  obtain ⟨⟨m, e, r, hu⟩, hmarks, -⟩ := h
  refine ⟨?_, hmarks⟩
  rw [hu]

theorem keyLocal_add (i a j : Nat) : keyLocal i a + j = keyLocal i (a + j) := Nat.add_assoc _ _ _

/-- The local stores of a load's cores. -/
theorem progPlace_loadCores (h0 : tg = 0) (hc : cl.toNat < 64) (ha : ga.toNat + l.length ≤ 0x8000) : ∀ i ∈ loadCores tg.toNat cl.toNat mask,
    ∀ j, j < l.length → s.progPlace tg.toNat cl.toNat i (ga.toNat + j) = .ok (keyLocal i ga.toNat + j) := by
  intro i hi j hj
  subst h0
  have hdiv := (mem_maskCores.mp (show i ∈ maskCores cl.toNat mask from hi)).1
  rw [keyLocal_add]
  exact progPlace_local (by omega) (by omega)

theorem keyLocal_apart (ha : ga.toNat + l.length ≤ 0x8000) : ∀ i k, i ≠ k →
    keyLocal i ga.toNat + l.length ≤ keyLocal k ga.toNat ∨ keyLocal k ga.toNat + l.length ≤ keyLocal i ga.toNat := by
  intro i k hik
  unfold keyLocal
  omega

/-- One core's places are apart from no others. -/
theorem apart_single {cores : List Nat} {i n : Nat} {B : Nat → Nat} (hi : cores = [i]) :
    ∀ j ∈ cores, ∀ k ∈ cores, j ≠ k → B j + n ≤ B k ∨ B k + n ≤ B j := by
  subst hi
  intro j hj k hk hne
  exact absurd ((List.mem_singleton.mp hj).trans (List.mem_singleton.mp hk).symm) hne

theorem still_loadCores (h0 : tg = 0) (hd : s.domOn (domCluster cl.toNat) = true) (hstill : ∀ k, k < 16 → mask.getLsbD k = true →
    (s.core (16 * cl.toNat + k)).run = .held ∨ (s.core (16 * cl.toNat + k)).isHalted = true) : tg.toNat = 0 → s.domOn (domCluster cl.toNat) = true ∧
    ∀ i ∈ loadCores tg.toNat cl.toNat mask, (s.core i).run = .held ∨ (s.core i).isHalted = true := by
  refine fun _ => ⟨hd, fun i hi => ?_⟩
  subst h0
  obtain ⟨hdiv, hm⟩ := mem_maskCores.mp (show i ∈ maskCores cl.toNat mask from hi)
  have hi16 : 16 * cl.toNat + i % 16 = i := by omega
  have := hstill (i % 16) (Nat.mod_lt _ (by decide)) hm
  rwa [hi16] at this

section load

variable (hf : Says.framed s h (16 + (20 * l.length + 7) / 8) 48)
include hf

theorem progLoad_outside (hbad : 2 < tg.toNat ∨ l = [] ∨ tg ≠ 2 ∧ 64 ≤ cl.toNat ∨ tg ≠ 0 ∧ mask ≠ 0) :
    Says.completes (.progLoad h tg cl mask ga nt nq l) s h stBadParam [] s := by
  refine progLoad_refuses hf (progLoad_badParam ?_)
  have h2 : tg ≠ 2 → tg.toNat ≠ 2 := fun hne he => hne (BitVec.eq_of_toNat_eq he)
  have h0 : tg ≠ 0 → tg.toNat ≠ 0 := fun hne he => hne (BitVec.eq_of_toNat_eq he)
  exact hbad.imp_right (Or.imp_right (Or.imp (And.imp_left h2) (And.imp_left h0)))

section localStore

variable (h0 : tg = 0) (hc : cl.toNat < 64) (hn : 1 ≤ l.length) (hmax : l.length ≤ 6000000) (ha : ga.toNat + l.length ≤ 0x8000)
include h0 hc hn hmax ha

theorem progLoad_local_refused (hno : s.domOn (domCluster cl.toNat) = false ∨ ∃ k, k < 16 ∧ mask.getLsbD k = true ∧
    (s.core (16 * cl.toNat + k)).run ≠ .held ∧ (s.core (16 * cl.toNat + k)).isHalted = false) :
    Says.completes (.progLoad h tg cl mask ga nt nq l) s h stBadState [] s := by
  obtain ⟨w, z, hs⟩ := (taken_taken hf).shape
  refine progLoad_refuses hf (progLoad_notStill (c := cl.toNat) (B := fun i => keyLocal i ga.toNat) (by rw [h0]; decide) (by rw [h0]; rfl) hc hn hmax
    (Or.inl (by rw [h0]; rfl)) (fun i hi j hj => (progPlace_taken hf i _).trans (progPlace_loadCores h0 hc ha i hi j hj)) (by rw [h0]; rfl) ?_)
  rcases hno with hd | ⟨k, hk, hm, h1, h2⟩
  · exact Or.inl ((domOn_cluster_taken hf hc).trans hd)
  · refine Or.inr ⟨16 * cl.toNat + k, ?_, ?_⟩
    · rw [h0]
      have hmod : (16 * cl.toNat + k) % 16 = k := by omega
      exact mem_maskCores.mpr ⟨by omega, by rw [hmod]; exact hm⟩
    · rw [hs]
      exact ⟨h1, h2⟩

variable (hd : s.domOn (domCluster cl.toNat) = true) (hclean : ∀ k, s.badLong k = false)
  (hstill : ∀ k, k < 16 → mask.getLsbD k = true → (s.core (16 * cl.toNat + k)).run = .held ∨ (s.core (16 * cl.toNat + k)).isHalted = true)
include hd hclean hstill

theorem progLoad_local (hnt : nt = false) : ∃ u, Says.completes (.progLoad h tg cl mask ga nt nq l) s h stOk (loadHash l) u ∧ s.MemOnly u ∧
    (∀ k, k < 16 → mask.getLsbD k = true → ∀ j g, l[j]? = some g → u.grain (keyLocal (16 * cl.toNat + k) ga.toNat + j) = g) ∧
    ∀ g, (∀ k, k < 16 → mask.getLsbD k = true → g < keyLocal (16 * cl.toNat + k) ga.toNat ∨ keyLocal (16 * cl.toNat + k) ga.toNat + l.length ≤ g) →
      u.grain g = s.grain g := by
  obtain ⟨u, hu, hload⟩ := progLoad_completes hf (c := cl.toNat) (B := fun i => keyLocal i ga.toNat) (by rw [h0]; decide) (by rw [h0]; rfl) hc hn hmax
    (Or.inl (by rw [h0]; rfl)) hclean (progPlace_loadCores h0 hc ha) (fun i _ k _ => keyLocal_apart ha i k)
    (still_loadCores h0 hd hstill) hnt (nq := nq)
  refine ⟨u, hu, hload.stored.memOnly, fun k hk hm j g hj => ?_, fun g hg => hload.old g fun i hi => ?_⟩
  · have hmod : (16 * cl.toNat + k) % 16 = k := by omega
    refine hload.new _ ?_ j g hj
    rw [h0]
    exact mem_maskCores.mpr ⟨by omega, by rw [hmod]; exact hm⟩
  · rw [h0] at hi
    obtain ⟨hdiv, hm⟩ := mem_maskCores.mp (show i ∈ maskCores cl.toNat mask from hi)
    have hi16 : 16 * cl.toNat + i % 16 = i := by omega
    have := hg (i % 16) (Nat.mod_lt _ (by decide)) hm
    rwa [hi16] at this

theorem progLoad_local_notifies (hnt : nt = true) (hq : s.domOn domQueue = true) (hacc : Says.accepts s nq.toNat) :
    ∃ u, Says.completes (.progLoad h tg cl mask ga nt nq l) s h stOk (loadHash l) u ∧
      (u.queue nq.toNat).msgs = (s.queue nq.toNat).msgs ++ [loadNotice h.tag.toNat ga.toNat l.length] :=
  progLoad_notifies hf (c := cl.toNat) (B := fun i => keyLocal i ga.toNat) (by rw [h0]; decide) (by rw [h0]; rfl) hc hn hmax
    (Or.inl (by rw [h0]; rfl)) hclean (progPlace_loadCores h0 hc ha) (fun i _ k _ => keyLocal_apart ha i k)
    (still_loadCores h0 hd hstill) hnt hq hacc

end localStore

/-! #### Cluster memory and DRAM -/

variable (hn : 1 ≤ l.length) (hmax : l.length ≤ 6000000) (hmask : mask = 0)
include hn hmax hmask

theorem progLoad_cluster (h1 : tg = 1) (hc : cl.toNat < 64) (hlo : 0x10000 ≤ ga.toNat) (hhi : ga.toNat + l.length ≤ 0x90000) :
    (s.domOn (domCluster cl.toNat) = false → Says.completes (.progLoad h tg cl mask ga nt nq l) s h stBadState [] s) ∧
    (s.domOn (domCluster cl.toNat) = true → (∀ k, s.badLong k = false) → nt = false →
      ∃ u, Says.completes (.progLoad h tg cl mask ga nt nq l) s h stOk (loadHash l) u ∧
        s.LoadedAt u [16 * cl.toNat] (fun _ => clusterBase cl.toNat + (ga.toNat - 0x10000)) l) := by
  have hplace := fun j (hj : j < l.length) => progPlace_cluster (s := s) (16 * cl.toNat) (a := ga.toNat + j) hc (by omega) (by omega)
  have hcores : loadCores tg.toNat cl.toNat mask = [16 * cl.toNat] := by
    rw [h1]
    rfl
  refine ⟨fun hd => ?_, fun hd hclean hnt => ?_⟩
  · refine progLoad_refuses hf (progLoad_off (c := cl.toNat) (i := 16 * cl.toNat) (by rw [h1]; decide) (by rw [h1]; rfl) hc hn hmax (Or.inr hmask)
      hcores fun j hj => (progPlace_taken hf _ _).trans ?_)
    rw [h1]
    exact (hplace j hj).trans (if_neg (by rw [hd]; decide))
  · have hp : ∀ i ∈ loadCores tg.toNat cl.toNat mask, ∀ j, j < l.length →
        s.progPlace tg.toNat cl.toNat i (ga.toNat + j) = .ok (clusterBase cl.toNat + (ga.toNat - 0x10000) + j) := by
      intro i hi j hj
      rw [hcores, List.mem_singleton] at hi
      rw [h1, hi]
      refine (hplace j hj).trans ((if_pos hd).trans (congrArg Except.ok ?_))
      omega
    obtain ⟨u, hu, hload⟩ := progLoad_completes hf (c := cl.toNat) (B := fun _ => clusterBase cl.toNat + (ga.toNat - 0x10000)) (by rw [h1]; decide)
      (by rw [h1]; rfl) hc hn hmax (Or.inr hmask) hclean hp (apart_single hcores) (fun h0 => absurd h0 (by rw [h1]; decide)) hnt (nq := nq)
    exact ⟨u, hu, hcores ▸ hload⟩

theorem progLoad_dram (h2 : tg = 2) (hlo : 0x1000000000 ≤ ga.toNat) (hwin : ga.toNat % 0x800000000 + l.length ≤ 0x800000000)
    (hhi : ga.toNat < 0x3000000000) :
    (s.domOn domMem = false → ga.toNat % 0x800000000 + l.length ≤ s.dramInstalled ((ga.toNat - 0x1000000000) / 0x800000000) →
      Says.completes (.progLoad h tg cl mask ga nt nq l) s h stBadState [] s) ∧
    (s.domOn domMem = true → ga.toNat % 0x800000000 + l.length ≤ s.dramGrains ((ga.toNat - 0x1000000000) / 0x800000000) →
      (∀ k, s.badLong k = false) → nt = false →
      ∃ u, Says.completes (.progLoad h tg cl mask ga nt nq l) s h stOk (loadHash l) u ∧ s.LoadedAt u [0] (fun _ => ga.toNat) l) := by
  have hchannel : ∀ j, j < l.length → (ga.toNat + j) % 0x800000000 = ga.toNat % 0x800000000 + j ∧
      (ga.toNat + j - 0x1000000000) / 0x800000000 = (ga.toNat - 0x1000000000) / 0x800000000 ∧ ga.toNat + j < 0x3000000000 := by omega
  have hcores : loadCores tg.toNat 0 mask = [0] := by
    rw [h2]
    rfl
  refine ⟨fun hd hins => ?_, fun hd hup hclean hnt => ?_⟩
  · refine progLoad_refuses hf (progLoad_off (c := 0) (i := 0) (by rw [h2]; decide) (by rw [h2]; rfl) (by decide) hn hmax (Or.inr hmask)
      hcores fun j hj => (progPlace_taken hf _ _).trans ?_)
    obtain ⟨hmod, hk, hlt⟩ := hchannel j hj
    rw [h2]
    exact (progPlace_dram 0 (by omega) hlt).2 hd (by rw [hmod, hk]; omega)
  · have hp : ∀ i ∈ loadCores tg.toNat 0 mask, ∀ j, j < l.length → s.progPlace tg.toNat 0 i (ga.toNat + j) = .ok (ga.toNat + j) := by
      intro i hi j hj
      obtain ⟨hmod, hk, hlt⟩ := hchannel j hj
      rw [h2]
      exact (progPlace_dram i (by omega) hlt).1 hd (by rw [hmod, hk]; omega)
    obtain ⟨u, hu, hload⟩ := progLoad_completes hf (c := 0) (B := fun _ => ga.toNat) (by rw [h2]; decide)
      (by rw [h2]; rfl) (by decide) hn hmax (Or.inr hmask) hclean hp (apart_single hcores) (fun h0 => absurd h0 (by rw [h2]; decide)) hnt (nq := nq)
    exact ⟨u, hu, hcores ▸ hload⟩

end load

/-! ### The statement -/

theorem timeSetTai_completes (hl : Says.noLink s) (sec : BitVec 48) (ns : Reg32) (utc : BitVec 16) (hf : Says.framed s h 12) :
    (¬ (s.role = roleAlone ∨ s.role = roleMaster) → Says.completes (.timeSetTai h sec ns utc) s h stBadState [] s) ∧
    (s.role = roleAlone ∨ s.role = roleMaster → 1000000000 ≤ ns.toNat → Says.completes (.timeSetTai h sec ns utc) s h stBadParam [] s) := by
  have hT := taken_taken hf
  refine ⟨fun hn => ?_, fun hr hns => ?_⟩
  · exact time_refuses hl hf rfl (act := (·.timeSetTai sec.toNat ns.toNat utc.toNat)) (timeSetTai_notLeading _ _ _ (hT.leads.trans (not_leads hn)))
  · exact time_refuses hl hf rfl (act := (·.timeSetTai sec.toNat ns.toNat utc.toNat)) (timeSetTai_badNs _ _ (hT.leads.trans (leads_iff.mpr hr)) hns)

theorem core_refuses (cl : Octet) (mask : BitVec 16) (hf : Says.framed s h 4) (hc : 64 ≤ cl.toNat) :
    Says.completes (.coreHold h cl mask) s h stBadParam [] s ∧ Says.completes (.coreStart h cl mask) s h stBadParam [] s :=
  ⟨completes_unchanged hf (act := (·.coreHold cl.toNat mask)) rfl (coreHold_outside hc) (by decide),
    completes_unchanged hf (act := (·.coreStart cl.toNat mask)) rfl (coreStart_outside hc) (by decide)⟩

/-- The message of R488 with its address as a long. -/
theorem loadNotice_eq (tag : Nat) (ga : Long) (n : Nat) : loadNotice tag ga.toNat n =
    { longs := [BitVec.ofNat 40 (6 * 2 ^ 36 + tag), ga, BitVec.ofNat 40 n] } := by
  unfold loadNotice
  rw [BitVec.ofNat_toNat, BitVec.setWidth_eq]

/-- Settles O56: each command is taken, and completes with the effect that the lemmas above give it. -/
theorem timeAndCoreCommandResults : Obligations.TimeAndCoreCommandResults := by
  unfold Obligations.TimeAndCoreCommandResults
  intro s h hl
  refine ⟨fun sec ns utc hf => ⟨?_, ?_, ?_⟩, fun step hf => timeStep_completes hl step hf, fun sec hf hp => exec_ppsSecond sec hf hp,
    fun c hf => ⟨fun hok => ?_, fun hno => ?_⟩, fun hf => ptpStatus_completes hf, fun tg cl mask ga nt nq l hf => ⟨?_, ?_, ?_, ?_⟩, fun cl mask => ⟨?_, ?_, ?_, ?_⟩⟩
  · exact (timeSetTai_completes hl sec ns utc hf).1
  · exact (timeSetTai_completes hl sec ns utc hf).2
  · exact fun hr hns hj hpf hroom => timeSetTai_taken hl sec ns utc hf hr hns hj hpf hroom
  · exact (ptpCfg_completes c hf).1 ((ptpOk_iff c).mpr hok)
  · exact (ptpCfg_completes c hf).2 fun hok => hno ((ptpOk_iff c).mp hok)
  · exact progLoad_outside hf
  · refine fun h0 hc hn hmax ha => ⟨progLoad_local_refused hf h0 hc hn hmax ha, fun hd hstill hclean => ⟨fun hnt => ?_, fun hnt hq hacc => ?_⟩⟩
    · exact progLoad_local hf h0 hc hn hmax ha hd hclean hstill hnt
    · rw [← loadNotice_eq]
      exact progLoad_local_notifies hf h0 hc hn hmax ha hd hclean hstill hnt hq hacc
  · refine fun h1 hc hm hn hmax hnt hlo hhi => ⟨(progLoad_cluster hf hn hmax hm h1 hc hlo hhi).1, fun hd hclean => ?_⟩
    obtain ⟨u, hu, hload⟩ := (progLoad_cluster hf hn hmax hm h1 hc hlo hhi (nq := nq)).2 hd hclean hnt
    exact ⟨u, hu, hload.stored.memOnly, hload.new _ List.mem_cons_self, fun g hg => hload.old g fun i _ => hg⟩
  · refine fun h2 hm hn hmax hnt hlo hwin hhi => ⟨(progLoad_dram hf hn hmax hm h2 hlo hwin hhi).1, fun hd hup hclean => ?_⟩
    obtain ⟨u, hu, hload⟩ := (progLoad_dram hf hn hmax hm h2 hlo hwin hhi (nq := nq)).2 hd hup hclean hnt
    exact ⟨u, hu, hload.stored.memOnly, hload.new _ List.mem_cons_self, fun g hg => hload.old g fun i _ => hg⟩
  · exact fun hf hc => core_refuses cl mask hf hc
  · refine fun hf hc hd => ⟨coreHold_completes cl mask hf hc hd, coreStart_atEdge cl mask hf hc hd, coreStart_now cl mask hf hc hd⟩
  · exact fun hf => ⟨fun hc => completes_unchanged hf (act := (·.coreStates cl.toNat)) rfl (coreStates_outside hc) (by decide), coreState_completes cl hf⟩
  · refine fun k pc hf => ⟨(coreResume_completes cl k pc hf).1, fun hc hk => ⟨((coreResume_completes cl k pc hf).2 hc hk).1, fun hd hh => ?_⟩⟩
    obtain ⟨u, hu, hshape, hcore, hclu⟩ := ((coreResume_completes cl k pc hf).2 hc hk).2 hd hh
    refine ⟨u, hu, hshape, fun j hj => (hcore j).trans (if_neg hj), (hclu _).trans (if_pos rfl), fun j hj => (hclu j).trans (if_neg hj), ?_⟩
    rw [hcore, if_pos rfl]
    rfl

end Sys2Proof.Machine

/-! PROOFS. A device reset keeps what is listed at any of the four octets of RST_CAUSE (R540, R551). -/

namespace Sys2Proof.Machine

open Sys2Proof

-- One proof after another, as in the tests: theorems checked side by side need more threads than the check's memory limit allows.
set_option Elab.async false

/-- A device at reset but for a word listed inside RST_CAUSE, at an offset that is no multiple of 4. -/
def insideCause : State := { State.reset with hreg := [(0x8000, 0x10000000#32), (R.RST_CAUSE + 1, 1#32)] }

theorem calm_insideCause : Says.calm insideCause false := ⟨rfl, rfl, rfl, Or.inl rfl⟩

/-- The reset keeps the listed word with RST_CAUSE. -/
theorem word_deviceReset_insideCause : ((insideCause.deviceReset false R.RST_CAUSE_PIN 0 0).settle).word (R.RST_CAUSE + 1) = 1 := by
  decide +kernel

/-- Refutes O59: of a state whose map lists a word at RST_CAUSE + 1, a device reset keeps that word with RST_CAUSE, where the statement,
which asks no aligned or well-formed map, puts every offset but those it names at its reset value. -/
theorem not_resetResults : ¬ Obligations.ResetResults := by
  unfold Obligations.ResetResults
  intro hall
  obtain ⟨hresets, -⟩ := hall insideCause
  obtain ⟨-, hdevice, -⟩ := hresets 0 0
  obtain ⟨t, hexec, hafter, -⟩ := hdevice calm_insideCause
  have ht : (insideCause.deviceReset false R.RST_CAUSE_PIN 0 0).settle = t := Host.Outcome.next.inj hexec
  subst ht
  unfold Says.afterReset at hafter
  obtain ⟨-, -, -, -, -, -, -, -, -, -, -, -, -, -, -, -, -, -, hwords, -⟩ := hafter
  have hword := hwords (R.RST_CAUSE + 1) (by decide) (Or.inr (by decide))
  rw [word_deviceReset_insideCause] at hword
  exact absurd hword (by decide)

end Sys2Proof.Machine

/-! SUPPORT. What the work before and after a commit's configuration takes effect leaves alone (R48, R50, R304, R574): the values in
force, the beat, what is staged, and the words from which the set takes effect. -/

namespace Sys2Proof.Machine

open Sys2Proof

-- One proof after another, as in the tests: theorems checked side by side need more threads than the check's memory limit allows.
set_option Elab.async false

/-- The staging words of BAR0, the beat's registers with the commit's state, and the state of the fabric ports. -/
def Stable (off : Nat) : Prop :=
  0x3400 ≤ off ∧ off < 0x3800 ∧ off % 16 < 8 ∨ 0x4000 ≤ off ∧ off < 0x5000 ∨ 0x5108 ≤ off ∧ off < 0x5900 ∧ off % 128 = 8 ∨
    0x6104 ≤ off ∧ off < 0x6500 ∧ off % 128 = 4 ∨ off = 0x7004

/-- A field outside those words and, in PACK_EVT, outside bit PERIOD. -/
def Apart (f : Fld) : Prop := ¬ Stable f.off ∧ (f.off = 0x6818 → f.lo + f.w ≤ 32 ∧ (f.lo + f.w ≤ 7 ∨ 8 ≤ f.lo))

/-- What is in force or staged outside the words of BAR0, the beat, the power requests that wait and a member's announced period. -/
def State.standing (s : State) : SMap Reg32 × Beat × SMap (Option PwrReq) × SMap (Option (List Long)) × SMap (Option (Nat × List Long)) × List RStage ×
    Option PeriodChange :=
  (s.force, s.beat, s.pwr.slot, s.str.stage, s.str.stageSub, s.red.stage, s.fab.period)

/-- Memory, cores, streams and reductions. -/
def State.working (s : State) : SMap Grain × SMap Core × Streams × Red := (s.mem, s.cores, s.str, s.red)

/-- From o, s has been reached with no change to what stands nor to a stable word of BAR0, PACK_EVT.PERIOD staying set. Under calm memory, cores, streams and
reductions do not differ, under still the sensor ports. -/
structure State.Stays (calm still : Bool) (o s : State) : Prop where
  standing : s.standing = o.standing
  word : ∀ w, Stable w → s.word w = o.word w
  posted : o.bit R.PACK_EVT_PERIOD = true → s.bit R.PACK_EVT_PERIOD = true
  working : calm = true → s.working = o.working
  ports : still = true → s.ports = o.ports

namespace State.Stays

-- a stands for calm, b for still.
variable {a b : Bool} {o s t : State}

theorem refl (s : State) : s.Stays a b s := ⟨rfl, fun _ _ => rfl, id, fun _ => rfl, fun _ => rfl⟩

theorem mono (h : o.Stays a true s) : o.Stays a b s := { h with ports := fun _ => h.ports rfl }

/-- A step that touches nothing of what is kept. -/
theorem same (h : o.Stays a b s) (hs : t.standing = s.standing := by rfl) (hr : t.hreg = s.hreg := by rfl)
    (hw : t.working = s.working := by rfl) (hp : t.ports = s.ports := by rfl) : o.Stays a b t where
  standing := hs.trans h.standing
  word w k := by unfold State.word; rw [hr]; exact h.word w k
  posted k := by unfold State.bit State.rd State.word; rw [hr]; exact h.posted k
  working k := hw.trans (h.working k)
  ports k := hp.trans (h.ports k)

/-- A step of the streams, the reductions, memory or the cores. -/
theorem stored (h : o.Stays false b s) (hs : t.standing = s.standing := by rfl) (hr : t.hreg = s.hreg := by rfl)
    (hp : t.ports = s.ports := by rfl) : o.Stays false b t where
  standing := hs.trans h.standing
  word w k := by unfold State.word; rw [hr]; exact h.word w k
  posted k := by unfold State.bit State.rd State.word; rw [hr]; exact h.posted k
  working := nofun
  ports k := hp.trans (h.ports k)

theorem ite {p : Prop} [Decidable p] (hs : o.Stays a b s) (ht : o.Stays a b t) : o.Stays a b (if p then s else t) := closed_ite hs ht

theorem foldl {α : Type} (h : o.Stays a b s) (f : State → α → State) (l : List α) (hf : ∀ u x, o.Stays a b u → o.Stays a b (f u x)) :
    o.Stays a b (l.foldl f s) := List.foldlRecOn l f h fun u hu x _ => hf u x hu

/-- A fold that carries more than the state. -/
theorem foldlFst {α β : Type} {p : State × β} (h : o.Stays a b p.1) (f : State × β → α → State × β) (l : List α)
    (hf : ∀ u x, o.Stays a b u.1 → o.Stays a b (f u x).1) : o.Stays a b (l.foldl f p).1 :=
  List.foldlRecOn (motive := fun u => o.Stays a b u.1) l f h fun u hu x _ => hf u x hu

/-! ### One part of the state -/

theorem onJrn (h : o.Stays a b s) (f : Journal → Journal) : o.Stays a b (s.onJrn f) := h.same
theorem onHost (h : o.Stays a b s) (f : HostIf → HostIf) : o.Stays a b (s.onHost f) := h.same
theorem onQEng (h : o.Stays a b s) (f : QEngine → QEngine) : o.Stays a b (s.onQEng f) := h.same
theorem onFab (h : o.Stays a b s) (f : Fabric → Fabric) (hf : ∀ z, (f z).period = z.period := by exact fun _ => rfl) :
    o.Stays a b (s.onFab f) := h.same (by unfold State.standing; rw [show (s.onFab f).fab.period = s.fab.period from hf s.fab]; rfl)
theorem onStr (h : o.Stays false b s) (f : Streams → Streams) (hf : ∀ z, (f z).stage = z.stage ∧ (f z).stageSub = z.stageSub := by
    exact fun _ => ⟨rfl, rfl⟩) : o.Stays false b (s.onStr f) := h.stored (by
  unfold State.standing
  rw [show (s.onStr f).str.stage = s.str.stage from (hf s.str).1, show (s.onStr f).str.stageSub = s.str.stageSub from (hf s.str).2]
  rfl)
theorem onRed (h : o.Stays false b s) (f : Red → Red) (hf : ∀ z, (f z).stage = z.stage := by exact fun _ => rfl) :
    o.Stays false b (s.onRed f) := h.stored (by
  unfold State.standing
  rw [show (s.onRed f).red.stage = s.red.stage from hf s.red]
  rfl)
theorem onPort (h : o.Stays a false s) (p : Nat) (f : Port → Port) : o.Stays a false (s.onPort p f) where
  standing := h.standing
  word := h.word
  posted := h.posted
  working := h.working
  ports := nofun

theorem setClu (h : o.Stays a b s) (c : Nat) (x : Cluster) : o.Stays a b (s.setClu c x) := h.same
theorem setQueue (h : o.Stays a b s) (q : Nat) (x : Queue) : o.Stays a b (s.setQueue q x) := h.same
theorem setFport (h : o.Stays a b s) (p : Nat) (x : FPort) : o.Stays a b (s.setFport p x) := h.onFab _
theorem setCic (h : o.Stays a b s) (c : Nat) (x : Cic) : o.Stays a b (s.setCic c x) := h.same
theorem freeNext (h : o.Stays a b s) : o.Stays a b s.freeNext := h.same
theorem setEng (h : o.Stays false b s) (c : Nat) (x : RedEng) : o.Stays false b (s.setEng c x) := h.onRed _
theorem setRState (h : o.Stays false b s) (r : RState) : o.Stays false b (s.setRState r) := h.onRed _
theorem setCtxL (h : o.Stays false b s) (i l : Nat) (v : Long) : o.Stays false b (s.setCtxL i l v) := h.onStr _
theorem setGrain (h : o.Stays false b s) (k : Nat) (v : Grain) : o.Stays false b (s.setGrain k v) := h.stored

theorem setLong (h : o.Stays false b s) (k : Nat) (v : Long) : o.Stays false b (s.setLong k v) := by
  unfold State.setLong
  exact ite h.stored h.stored

theorem emit (h : o.Stays a b s) (m : Out) : o.Stays a b (s.emit m) := by
  rcases s.emit_or m with he | he <;> rw [he]
  · exact h
  · exact h.same

/-! ### Words of BAR0 -/

theorem setWord (h : o.Stays a b s) (off : Nat) (v : Reg32) (ho : ¬ Stable off)
    (hp : s.bit R.PACK_EVT_PERIOD = true → (s.setWord off v).bit R.PACK_EVT_PERIOD = true) : o.Stays a b (s.setWord off v) :=
  { h with
    word := fun w hw => by rw [State.word_setWord, if_neg fun e : w = off => ho (e ▸ hw)]; exact h.word w hw
    posted := fun k => hp (h.posted k) }

theorem wr (h : o.Stays a b s) (f : Fld) (v : Nat) (ho : Apart f := by unfold Apart Stable; dsimp only; omega) : o.Stays a b (s.wr f v) := by
  refine h.setWord f.off _ ho.1 fun k => ?_
  by_cases hf : f.off = 0x6818
  · obtain ⟨hw, hb⟩ := ho.2 hf
    exact (congrArg (· != 0) (s.rd_wr_ne f R.PACK_EVT_PERIOD v hw hb)).trans k
  · exact (congrArg (· != 0) (s.rd_wr_off f R.PACK_EVT_PERIOD v fun e => hf e.symm)).trans k

theorem wb (h : o.Stays a b s) (f : Fld) (v : Bool) (ho : Apart f := by unfold Apart Stable; dsimp only; omega) :
    o.Stays a b (s.wb f v) := h.wr f _ ho

theorem set1 (h : o.Stays a b s) (f : Fld) (ho : Apart f := by unfold Apart Stable; dsimp only; omega) :
    o.Stays a b (s.set1 f) := h.wr f _ ho

theorem inc (h : o.Stays a b s) (f : Fld) (ho : Apart f := by unfold Apart Stable; dsimp only; omega) :
    o.Stays a b (s.inc f) := h.wr f _ ho

theorem incWrap (h : o.Stays a b s) (f : Fld) (ho : Apart f := by unfold Apart Stable; dsimp only; omega) :
    o.Stays a b (s.incWrap f) := h.wr f _ ho

theorem toggle (h : o.Stays a b s) (f : Fld) (ho : Apart f := by unfold Apart Stable; dsimp only; omega) :
    o.Stays a b (s.toggle f) := h.wr f _ ho

theorem countDrop (h : o.Stays a b s) (cnt evt : Fld) (hc : Apart cnt := by unfold Apart Stable; dsimp only; omega)
    (he : Apart evt := by unfold Apart Stable; dsimp only; omega) : o.Stays a b (s.countDrop cnt evt) := (h.inc cnt hc).set1 evt he

/-! ### Events and the journal's intake -/

theorem reportClosed (o : State) : ReportClosed (o.Stays a b) where
  setWord off v h hoff := h.setWord off v (by unfold Reported at hoff; unfold Stable; omega)
    fun k => by
      unfold State.bit State.rd
      rw [State.word_setWord, if_neg (by unfold Reported at hoff; dsimp only [R.PACK_EVT_PERIOD]; omega)]
      exact k
  onJrn f h := h.onJrn f
  onHost f h _ := h.onHost f
  setChan _ _ h _ := h.onHost _
  emit x h := h.emit x

theorem hostEvent (h : o.Stays a b s) (code cls : Nat) (arg : List Octet) : o.Stays a b (s.hostEvent code cls arg) :=
  (reportClosed o).hostEventAt h _ _ _ _

theorem offerRec (h : o.Stays a b s) (r : JRec) : o.Stays a b (s.offerRec r) := (reportClosed o).offerRec h r

/-! ### Frames and fault reports -/

theorem setLink (h : o.Stays a b s) (p vl : Nat) (l : Link) : o.Stays a b (s.setLink p vl l) := h.setFport p _

theorem frameOut (h : o.Stays a b s) (p : Nat) (f : Frame) : o.Stays a b (s.frameOut p f).2 := ite (h.setFport p _) h

theorem startFrame (h : o.Stays a b s) (p : Nat) (f : Frame) : o.Stays a b (s.startFrame p f) :=
  (((h.frameOut p _).setLink p _ _).emit _).inc (R.TX_BE_V p)

theorem sendNext (h : o.Stays a b s) (p vl : Nat) : o.Stays a b (s.sendNext p vl) := by
  unfold State.sendNext
  extract_lets l
  split
  · split
    · exact ((h.setLink p vl _).emit _).inc (R.FP_RETRY_V p)
    · exact h.setLink p vl _
  · exact (h.setLink p vl _).startFrame p _
  · exact h

theorem flushPort (p n : Nat) : ∀ {s : State}, o.Stays a b s → o.Stays a b (State.flushPort p n s) := by
  induction n with
  | zero => exact fun h => h
  | succ n ih =>
    intro s h
    unfold State.flushPort
    split
    · exact h
    · exact ih (h.sendNext p _)

theorem sendOn (h : o.Stays a b s) (p : Nat) (f : Frame) : o.Stays a b (s.sendOn p f) := by
  unfold State.sendOn
  extract_lets g vl l s1 l1 need
  have h1 : o.Stays a b s1 := flushPort p _ (h.setLink p vl _)
  exact ite (h1.inc (R.CRED_WAIT_V p)) h1

theorem originate (h : o.Stays a b s) (f : Frame) : o.Stays a b (s.originate f) :=
  ite (h.sendOn _ f) (ite (h.sendOn _ f) (h.countDrop R.DROP_NOROUTE_V R.PACK_EVT_NOROUTE))

theorem broadcast (h : o.Stays a b s) (f : Frame) (but : Option Nat) : o.Stays a b (s.broadcast f but) :=
  h.foldl _ _ fun _ _ hu => ite (hu.sendOn _ f) hu

theorem sendTo (h : o.Stays a b s) (vl dst : Nat) (load : Payload) : o.Stays a b (s.sendTo vl dst load) :=
  ite (h.foldl _ _ fun _ _ hu => hu.originate _) (ite (h.broadcast _ _) (h.originate _))

theorem sendReport (h : o.Stays a b s) (r : FaultRep) : o.Stays a b (s.sendReport r) := ite (h.hostEvent _ _ _) (h.sendTo _ _ _)

theorem frCount (h : o.Stays a b s) : o.Stays a b s.frCount := h.wr R.FR_STAT_V _

theorem takeReport (h : o.Stays a b s) (r : FaultRep) : o.Stays a b (s.takeReport r) :=
  ite (h.sendReport _) (ite (h.sendReport _) (ite (h.onFab _) (ite ((h.countDrop R.FR_LATE_V R.PACK_EVT_FR_OVERFLOW).sendReport _)
    (ite ((h.countDrop R.FR_OVERFLOW_V R.PACK_EVT_FR_OVERFLOW).sendReport _) (h.onFab _).frCount))))

theorem selfFault (h : o.Stays a b s) (code unit : Nat) (arg : List Octet) : o.Stays a b (s.selfFault code unit arg) := by
  have h1 : o.Stays a b (s.hostEvent code 6 arg) := h.hostEvent _ _ _
  exact ite (takeReport (h1.freeNext.same) _) h1

/-! ### Queues and interrupts -/

theorem cicEdge (h : o.Stays false b s) (c src : Nat) : o.Stays false b (s.cicEdge c src) := ite (h.setCic c _) h

theorem countRefusal (h : o.Stays a b s) (q : Nat) (w : Refuse) : o.Stays a b (s.countRefusal q w) :=
  ite ((h.setQueue q _).onQEng _) (h.setQueue q _)

theorem trackPool (h : o.Stays a b s) : o.Stays a b s.trackPool := h.onQEng _

theorem levelEdge (h : o.Stays false b s) (q : Nat) : o.Stays false b (s.levelEdge q) := ite (h.cicEdge _ _) h

theorem enqueue (h : o.Stays false b s) (q : Nat) (m : Msg) : o.Stays false b (s.enqueue q m) := by
  unfold State.enqueue
  split
  · exact h.countRefusal q _
  · exact ((h.setQueue q _).trackPool).levelEdge q

theorem foundUnc (h : o.Stays a b s) (k : Nat) : o.Stays a b (s.foundUnc k) := by
  unfold State.foundUnc
  split
  · exact (h.set1 (R.DDR_EVT_UNC ((k - 0x1000000000) / 0x800000000))).selfFault _ _ _
  · exact ite (h.selfFault _ _ _) (ite (h.selfFault _ _ _) h)

theorem scan (h : o.Stays a b s) (x n : Nat) : o.Stays a b (s.scan x n) := h.foldl _ _ fun _ k hu => hu.foundUnc k

/-! ### Streams -/

theorem putElem (h : o.Stays false b s) (c : CtxCfg) (x j : Nat) (v : Long) : o.Stays false b (s.putElem c x j v) :=
  ite (h.setLong _ _) (h.setGrain _ _)

theorem putElems (c : CtxCfg) (x : Nat) (l : List Long) : ∀ (j : Nat) {s : State}, o.Stays false b s →
    o.Stays false b (State.putElems c x j l s) := by
  induction l with
  | nil => exact fun _ _ h => h
  | cons v r ih => exact fun j _ h => ih (j + 1) (h.putElem c x j v)

theorem countOvr (h : o.Stays false b s) (i : Nat) : o.Stays false b (s.countOvr i) := h.setCtxL i 11 _

theorem setGathered (h : o.Stays a b s) (i : Nat) (l : List (BitVec 48 × Long × List Long)) : o.Stays a b (s.setGathered i l) := h.onJrn _

theorem flushGather (h : o.Stays a b s) (i : Nat) : o.Stays a b (s.flushGather i) := ite h ((h.setGathered i []).offerRec _)

theorem windowStat (h : o.Stays a b s) : o.Stays a b s.windowStat := h.wb R.J_STAT_EW_ACTIVE _

theorem windowOne (h : o.Stays a b s) (wid i : Nat) (e : BitVec 48) (hdr : Long) (l : List Long) : o.Stays a b (s.windowOne wid i e hdr l) := by
  unfold State.windowOne
  split
  · exact h
  · exact ite ((((h.offerRec _).onJrn _).set1 R.J_EVT_EW_DONE).windowStat) ((h.offerRec _).onJrn _)

theorem windowSlot (h : o.Stays a b s) (i : Nat) (e : BitVec 48) (hdr : Long) (l : List Long) : o.Stays a b (s.windowSlot i e hdr l) :=
  h.foldl _ _ fun _ w hu => hu.windowOne w.wid i e hdr l

theorem redRecord (h : o.Stays a b s) (i : Nat) (e : BitVec 48) (l : List Long) : o.Stays a b (s.redRecord i e l) := ite (h.offerRec _) h

theorem setRemBlocks (h : o.Stays false b s) (i : Nat) (l : List RemBlk) : o.Stays false b (s.setRemBlocks i l) := h.onStr _

theorem remTake (h : o.Stays false b s) (d fmt store spb offs : Nat) (e : BitVec 48) (l : List Long) :
    o.Stays false b (s.remTake d fmt store spb offs e l) :=
  ite ((h.countOvr d).setRemBlocks d _) (ite (h.countOvr d) (ite (putElems _ _ _ _ (h.setRemBlocks d _)) (h.setRemBlocks d _)))

theorem localDeliver (h : o.Stays false b s) (d i : Nat) (c : CtxCfg) (e : BitVec 48) (l : List Long) :
    o.Stays false b (s.localDeliver d i c e l) := ite (h.remTake _ _ _ _ _ _ _) (ite (h.countOvr d) h)

theorem eligible (h : o.Stays a b s) (e : Nat) (x : SendBlk) : o.Stays a b (s.eligible e x) :=
  ite ((h.onFab _).countDrop R.VL0_STALE_V R.PACK_EVT_VL0_LOSS) (h.onFab _)

theorem sendVl1 (h : o.Stays a b s) (i : Nat) (c : CtxCfg) (node dctx : Nat) (e : BitVec 48) (l : List Long) :
    o.Stays a b (s.sendVl1 i c node dctx e l) := h.foldl _ _ fun _ _ hu => hu.foldl _ _ fun _ _ hv => hv.originate _

theorem sendBlock (h : o.Stays false b s) (i : Nat) (e : BitVec 48) (l : List Long) : o.Stays false b (s.sendBlock i e l) :=
  ite (h.foldl _ _ fun _ _ hu => ite (hu.foldl _ _ fun _ n hv => hv.eligible n _)
    (ite (hu.sendVl1 _ _ _ _ _ _) (ite (hu.localDeliver _ _ _ _ _) hu))) h

/-! ### Reductions -/

theorem wl (h : o.Stays false b s) (r : RState) (l : Nat) (v : Long) : o.Stays false b (s.wl r l v) := h.setLong _ v

theorem setReReg (h : o.Stays false b s) (c off : Nat) (v : Long) : o.Stays false b (s.setReReg c off v) := h.setEng c _

theorem writeReErr (h : o.Stays false b s) (c : Nat) (err en : Long) : o.Stays false b (s.writeReErr c err en) :=
  ite (((h.setReReg c _ _).setReReg c _ _).cicEdge c 65) ((h.setReReg c _ _).setReReg c _ _)

theorem setReErr (h : o.Stays false b s) (c bit : Nat) : o.Stays false b (s.setReErr c bit) := h.writeReErr c _ _

end State.Stays

end Sys2Proof.Machine

/-! SUPPORT. What the reduction engines leave alone (R299 to R309): the set a commit puts in force. -/

namespace Sys2Proof.Machine

open Sys2Proof

-- One proof after another, as in the tests: theorems checked side by side need more threads than the check's memory limit allows.
set_option Elab.async false

namespace State.Stays

variable {a b : Bool} {o s t : State}

theorem failState (h : o.Stays false b s) (r : RState) (e : Nat × Nat) : o.Stays false b (s.failState r e) := by
  have h1 := (h.setRState { r with failed := true }).setReReg (s.rowner r) 0x010 (BitVec.ofNat 40 (r.src * 2 ^ 22 + r.slot * 2 ^ 20))
  exact ((ite (h1.wl r 2 _) h1).scan _ _).setReErr _ 3

theorem spoil (h : o.Stays false b s) (x n : Nat) : o.Stays false b (s.spoil x n) := ite (h.onRed _) h

theorem storeStats (h : o.Stays false b s) (r : RState) (x : StatsRun) : o.Stays false b (s.storeStats r x) :=
  h.foldl _ _ fun _ e hu => hu.wl r e.1 e.2

theorem takeStats (h : o.Stays false b s) (r : RState) (l : List Int) : o.Stays false b (s.takeStats r l) := (h.storeStats r _).setRState _

theorem addMat (h : o.Stays false b s) (r : RState) (i n : Nat) : o.Stays false b (s.addMat r i n).1 := h.setLong _ _

theorem addDelta (h : o.Stays false b s) (r : RState) (i n : Nat) : o.Stays false b (s.addDelta r i n).1 := by
  unfold State.addDelta
  split
  · exact h.setGrain _ _
  · exact h

theorem addBin (h : o.Stays false b s) (r : RState) (i n : Nat) : o.Stays false b (s.addBin r i n).1 := (h.addMat r i n).addDelta r i n

theorem countCycle (h : o.Stays false b s) (r : RState) (f : Flow) (u v : Int) (full : Bool) :
    o.Stays false b (s.countCycle r f u v full).1 := by
  unfold State.countCycle
  extract_lets x
  split
  · exact h.foldlFst _ _ fun u e hu => hu.addBin r e.1 e.2
  · exact h
  · exact h

theorem spillOut (h : o.Stays false b s) (r : RState) (f : Flow) : o.Stays false b (s.spillOut r f).1 := by
  unfold State.spillOut
  extract_lets len
  split
  · next x rest hst =>
    split
    · split
      · exact h.countCycle r f _ _ _
      · exact h
    · extract_lets v d x c g w
      have hc : o.Stays false b c.1 := by
        unfold c
        split
        · exact h.countCycle r _ _ _ _
        · exact h
      split
      · exact hc.setLong _ _
      · exact hc
  · exact h

theorem spillIn (r : RState) (n : Nat) : ∀ p : State × Flow, o.Stays false b p.1 → o.Stays false b (State.spillIn r n p).1 := by
  induction n with
  | zero => exact fun _ h => h
  | succ n ih =>
    intro p h
    unfold State.spillIn
    split
    · exact ih _ h
    · exact h

theorem fourPoint (r : RState) (n : Nat) : ∀ p : State × Flow, o.Stays false b p.1 → o.Stays false b (State.fourPoint r n p).1 := by
  induction n with
  | zero => exact fun _ h => h
  | succ n ih =>
    intro p h
    unfold State.fourPoint
    split
    · split
      · exact ih _ (spillIn r 4 _ (h.countCycle r _ _ _ _))
      · exact h
    · exact h

theorem pushPoint (h : o.Stays false b s) (r : RState) (f : Flow) (x : Int) : o.Stays false b (s.pushPoint r f x).1 := by
  unfold State.pushPoint
  split
  · exact h
  · refine fourPoint r _ _ ?_
    dsimp only
    split
    · exact h.spillOut r f
    · exact h

theorem putStack (r : RState) (l : List Int) : ∀ (k : Nat) {s : State}, o.Stays false b s → o.Stays false b (State.putStack r k l s) := by
  induction l with
  | nil => exact fun _ _ h => h
  | cons x l ih => exact fun k _ h => ih (k + 1) (h.wl r _ _)

theorem storeFlow (h : o.Stays false b s) (r : RState) (f : Flow) : o.Stays false b (s.storeFlow r f) := by
  unfold State.storeFlow
  split
  · exact h.failState r _
  · exact (putStack r _ _ (h.foldl _ _ fun _ e hu => hu.wl r e.1 e.2)).setRState _

theorem takeFlow (h : o.Stays false b s) (r : RState) (l : List Int) : o.Stays false b (s.takeFlow r l) := by
  unfold State.takeFlow
  refine storeFlow (foldlFst h _ _ fun u x hu => ?_) r _
  dsimp only
  split
  · exact hu.pushPoint r _ _
  · exact hu

theorem takePkvl (h : o.Stays false b s) (r : RState) (l : List (Int × Nat)) : o.Stays false b (s.takePkvl r l) :=
  setRState (h.foldl _ _ fun _ e hu => hu.wl r e.1 e.2) _

theorem putRow (h : o.Stays false b s) (r : RState) (p : Nat) (l : List (Nat × Nat × Option Long)) : o.Stays false b (s.putRow r p l) :=
  h.foldl _ _ fun _ _ hu => by
    split
    · exact ite (hu.setLong _ _) hu
    · exact hu

theorem putAcc (x : Nat) (d : List Long) (n : Nat) : ∀ {s : State}, o.Stays false b s → o.Stays false b (State.putAcc x d n s) := by
  induction n with
  | zero => exact fun h => h
  | succ n ih => exact fun h => ih (h.setLong _ _)

theorem specFrames (n : Nat) : ∀ (r : RState) {s : State}, o.Stays false b s → o.Stays false b (State.specFrames n r s) := by
  induction n with
  | zero => exact fun _ _ h => h
  | succ n ih =>
    intro r s h
    unfold State.specFrames
    split
    · exact h
    · extract_lets f spb lo ms fr gap k d r1 s1 s2
      have h1 : o.Stays false b s1 := (h.wl r 17 _).wl r 18 _
      have h2 : o.Stays false b s2 := ite h1 (putAcc _ _ _ h1)
      exact ite (ite (h.failState r _) (ite (h.failState r _) (ih _ (h2.setRState _)))) h

theorem takeSpec (h : o.Stays false b s) (r : RState) (m : Nat) (e : BitVec 48) (l : List (Option Int)) :
    o.Stays false b (s.takeSpec r m e l) := by
  unfold State.takeSpec
  extract_lets spb r0 pos vals t0 keep rows r1 s1 fill new
  have h1 : o.Stays false b s1 := ite (h.wl _ 16 _) h
  have hfill : ∀ u k, o.Stays false b u → o.Stays false b (fill u k) := by
    intro u k hu
    unfold fill
    split
    · exact hu
    · exact hu.wl r0 _ _
  exact ite (specFrames _ _ (h1.setRState r1)) (ite (h1.failState r1 _) (specFrames _ _ (setRState (foldl (h1.putRow r0 t0 new) _ _ hfill) r1)))

theorem putY (h : o.Stays false b s) (r : RState) (l : Nat) (y : Int) : o.Stays false b (s.putY r l y) := (h.wl r l _).wl r (l + 1) _

theorem srsStep (h : o.Stays false b s) (r : RState) (x x1 x2 : Int) (first : Bool) (i : Nat) :
    o.Stays false b (s.srsStep r x x1 x2 first i).1 := (((h.putY r _ _).putY r _ _).wl r _ _).wl r _ _

theorem takeSrs (h : o.Stays false b s) (r : RState) (l : List (Option Int)) : o.Stays false b (s.takeSrs r l) := by
  unfold State.takeSrs
  refine setRState (foldlFst h _ _ fun u x hu => wl (wl ?_ r 5 _) r 6 _) _
  exact foldlFst (p := (u.1, u.2.1)) hu _ _ fun v i hv => hv.srsStep r _ _ _ _ i

theorem takeDecim (h : o.Stays false b s) (r : RState) (l : List (Option Int)) : o.Stays false b (s.takeDecim r l) := by
  unfold State.takeDecim
  extract_lets osh
  refine ite (h.failState r _) (setRState (foldlFst h _ _ fun u v hu => ?_) _)
  dsimp only
  split
  · exact hu
  · have h2 : ∀ x y z, o.Stays false b (((u.1.setLong x y).wl r 8 y).wl r 7 z) := fun x y z => ((hu.setLong x y).wl r 8 y).wl r 7 z
    split
    · exact (h2 _ _ _).failState _ _
    · split
      · exact h2 _ _ _
      · exact h2 _ _ _

theorem redState (h : o.Stays false b s) (it : RedItem) (l : List (Option Int)) (r : RState) : o.Stays false b (s.redState it l r) := by
  unfold State.redState
  split
  · exact h
  · next q _ =>
    refine ite h (ite (h.failState q _) ?_)
    extract_lets v g r1 s1
    have h1 : o.Stays false b s1 := (h.wl q 3 _).setRState r1
    refine ite h1 (ite (h1.takeStats r1 v) (ite (h1.takeFlow r1 v) (ite (h1.takePkvl r1 _) (ite (h1.takeSpec r1 0 _ l)
      (ite ?_ (ite (h1.takeSrs r1 l) (h1.takeDecim r1 l)))))))
    split
    · exact ite h1 (ite (h1.failState _ _) (h1.takeSpec _ _ _ _))
    · exact h1

theorem redItem (h : o.Stays false b s) (it : RedItem) : o.Stays false b (s.redItem it) := h.foldl _ _ fun _ r hu => hu.redState it _ r

theorem putRecord (x spb : Nat) (l : List Long) : ∀ (i : Nat) {s : State}, o.Stays false b s →
    o.Stays false b (State.putRecord x spb i l s) := by
  induction l with
  | nil => exact fun _ _ h => h
  | cons v l ih =>
    intro i s h
    have h1 : o.Stays false b (if 2 * i < spb then s.setGrain (x + 2 + 2 * i) (v.setWidth 20) else s) := ite (h.setGrain _ _) h
    exact ih (i + 1) (ite (h1.setGrain _ _) h1)

theorem postNote (h : o.Stays false b s) (c : Nat) (r : RState) (err : Bool) (e : BitVec 48) (gseq : Nat) :
    o.Stays false b (s.postNote c r err e gseq) := by
  unfold State.postNote
  extract_lets q ok m s1 x s2
  have h2 : o.Stays false b s2 := setEng (ite (h.enqueue q m) h) c _
  exact ite h (ite h2 (h2.setReErr c 4))

theorem writeRecord (h : o.Stays false b s) (r : RState) (e : BitVec 48) (whole : Bool) (l : List Long) :
    o.Stays false b (s.writeRecord r e whole l) :=
  ite (redRecord (windowSlot (sendBlock (setLong (ite h (putRecord _ _ _ _ h)) _ _) _ _ _) _ _ _ _) _ _ _) h

theorem putSpec (h : o.Stays false b s) (r : RState) (gseq k kg : Nat) : o.Stays false b (s.putSpec r gseq k kg) :=
  h.foldl _ _ fun _ _ hu => hu.setLong _ _

theorem putGroup (h : o.Stays false b s) (r : RState) (e : BitVec 48) (gseq : Nat) (part ovf : Bool) (l : List Long) :
    o.Stays false b (s.putGroup r e gseq part ovf l) := by
  have h1 := h.writeRecord r e false
  exact postNote (ite ((h1 _).setReErr _ 0) (h1 _)) _ _ _ _ _

theorem failClose (h : o.Stays false b s) (r : RState) (p : Nat × Nat) (e : BitVec 48) (quiet : Bool) :
    o.Stays false b (s.failClose r p e quiet) := ite (h.failState r p) ((h.failState r p).writeRecord r e true [])

theorem writeSpec (h : o.Stays false b s) (x : SpecClose) : o.Stays false b (s.writeSpec x) := by
  unfold State.writeSpec
  extract_lets k out
  split
  · exact h
  · exact ite (h.writeRecord _ _ _ _) (ite (h.failClose _ _ _ _) (ite (h.failClose _ _ _ _) (putGroup (ite h (h.putSpec _ _ _ _)) _ _ _ _ _ _)))

theorem halfPairs (r : RState) : ∀ (l : List Int) (p : State × Flow), o.Stays false b p.1 → o.Stays false b (State.halfPairs r l p).1
  | x :: y :: l, (_, f), h => halfPairs r (y :: l) _ (h.countCycle r f x y false)
  | [_], _, h => h
  | [], _, h => h

theorem closeResidue (h : o.Stays false b s) (r : RState) : o.Stays false b (s.closeResidue r) := by
  unfold State.closeResidue
  exact storeFlow (halfPairs r _ _ h) r _

theorem applyClear (h : o.Stays false b s) (r : RState) : o.Stays false b (s.applyClear r) := by
  unfold State.applyClear
  extract_lets n s1 f
  have h1 : o.Stays false b s1 := ite (h.foldl _ _ fun _ _ hu => hu.setLong _ _) h
  exact ite (h.failState r _) (ite (h1.storeFlow r _) h1)

theorem freeBody (h : o.Stays a b s) (n : Nat) : o.Stays a b (State.freeBody n s).st :=
  List.foldlRecOn (motive := fun c : Closed => o.Stays a b c.st) (List.range n) _ h fun _ hc _ _ => hc.freeNext

theorem closeStats (h : o.Stays false b s) (r : RState) : o.Stays false b (s.closeStats r).st := h.storeStats r _

theorem closeFlow (h : o.Stays false b s) (r : RState) (spb : Nat) : o.Stays false b (s.closeFlow r spb).st :=
  ((h.foldl _ _ fun _ _ hu => hu.setGrain _ 0).wl r 16 0).wl r 17 0

theorem closeSrs (h : o.Stays a b s) (r : RState) : o.Stays a b (s.closeSrs r).st := by
  unfold State.closeSrs
  extract_lets n head c
  split
  · exact h
  · exact h.freeBody _

theorem closeDecim (h : o.Stays a b s) (r : RState) (spb : Nat) : o.Stays a b (s.closeDecim r spb).st :=
  List.foldlRecOn (motive := fun x : List Grain × State => o.Stays a b x.2) (List.range _) _ h fun _ hu _ _ => hu.freeNext

/-- What a close of a group by its kind gives. -/

theorem closed (h : o.Stays false b s) (r : RState) (n spb m : Nat) : o.Stays false b (if r.spoiled then State.freeBody n s
    else if r.kind = kStats then s.closeStats r
    else if r.kind = kRflow then s.closeFlow r spb
    else if r.kind = kPkvl then s.closePkvl r spb
    else if r.kind = kSrs then s.closeSrs r
    else s.closeDecim r m).st := by
  repeat' split
  · exact h.freeBody n
  · exact h.closeStats r
  · exact h.closeFlow r spb
  · exact h
  · exact h.closeSrs r
  · exact h.closeDecim r m

theorem closeGroup (h : o.Stays false b s) (r : RState) (e : BitVec 48) (part quiet : Bool) : o.Stays false b (s.closeGroup r e part quiet) := by
  unfold State.closeGroup
  extract_lets c s0 r0 gseq s1 spb kg x s2 y cl r1 s3 s4
  have h0 : o.Stays false b s0 := ite (h.closeResidue r) h
  refine ite (ite h0 (h0.writeRecord _ _ _ _)) ?_
  split
  · exact h0.failClose _ _ _ _
  · have h1 : o.Stays false b s1 := h0.wl r0 2 _
    have h2 : o.Stays false b s2 := (h1.wl r0 17 0).setRState _
    have hcl : o.Stays false b cl.st := h1.closed r0 _ _ _
    have h3 : o.Stays false b s3 := ite (hcl.postNote c r0 true e gseq) (hcl.putGroup r0 e gseq _ _ _)
    exact ite (h1.setRState _) (ite (ite (h2.postNote c r0 true e gseq) (h2.setEng c _)) ((h3.applyClear r1).setRState _))

theorem drainIntake (c : Nat) (n : BitVec 48) (k : Nat) : ∀ {s : State}, o.Stays false b s → o.Stays false b (State.drainIntake c n k s) := by
  induction k with
  | zero => exact fun h => h
  | succ k ih =>
    intro s h
    unfold State.drainIntake
    split
    · exact h
    · exact ih ((h.setEng c _).redItem _)

theorem flushSpec (h : o.Stays false b s) (c src slot : Nat) : o.Stays false b (s.flushSpec c src slot) :=
  foldl (h.setEng c _) _ _ fun _ x hu => hu.writeSpec x

end State.Stays

end Sys2Proof.Machine

/-! SUPPORT. What a set that takes effect leaves alone besides its own parts (R48, R112, R302, R304). -/

namespace Sys2Proof.Machine

open Sys2Proof

-- One proof after another, as in the tests: theorems checked side by side need more threads than the check's memory limit allows.
set_option Elab.async false

namespace State.Stays

variable {a b : Bool} {o s t : State}

theorem configRec (h : o.Stays a b s) (l : List (Nat × Nat × List Octet)) : o.Stays a b (s.configRec l) := (h.offerRec _).freeNext

theorem cutState (h : o.Stays false b s) (n : Option (BitVec 48)) (src slot : Nat) : o.Stays false b (s.cutState n src slot) := by
  unfold State.cutState
  split
  · exact h
  · extract_lets c due e s1 wrote
    have h1 : o.Stays false b s1 := ((h.flushSpec c src slot).closeGroup _ e _ _).flushSpec c src slot
    exact ite h (ite (h1.setEng c _) h1)

theorem redCut (h : o.Stays false b s) (n : Option (BitVec 48)) (all : List RState) : o.Stays false b (s.redCut n all) := by
  unfold State.redCut
  extract_lets isOf gone again cs s1 s2 s3
  have h1 : o.Stays false b s1 := h.foldl _ _ fun _ c hu => ite (drainIntake c _ _ hu) hu
  have h2 : o.Stays false b s2 := h1.foldl _ _ fun _ r hu => hu.cutState n r.src r.slot
  have h3 : o.Stays false b s3 := h2.foldl _ _ fun _ r hu => by
    split
    · exact ite (hu.closeResidue _) hu
    · exact hu
  exact ite h3 (h3.foldl _ _ fun _ c hu => ite ((hu.setEng c _).cicEdge c 64) hu)

theorem writeState (h : o.Stays false b s) (r : RState) (l : List (Nat × Long)) : o.Stays false b (s.writeState r l) := by
  unfold State.writeState
  extract_lets hist coef s1 s2 s3 s4
  split
  · exact h.failState r _
  · have h1 : o.Stays false b s1 := h.foldl _ _ fun _ e hu => hu.wl r e.1 e.2
    have h2 : o.Stays false b s2 := h1.foldl _ _ fun _ x hu => hu.wl r x 0
    have h3 : o.Stays false b s3 := ite (h2.foldl _ _ fun _ _ hu => hu.setLong _ 0) h2
    have h4 : o.Stays false b s4 := h3.foldl _ _ fun _ _ hu => hu.setLong _ _
    exact (h4.wl r 2 _).wl r 3 0

/-- States start over a set of states in which nothing is staged any more. -/
theorem redStart (s : State) (n : Option (BitVec 48)) (new : List (RState × Bool)) (stage : List RStage) :
    ∃ f : Red → Red, (f s.red).stage = [] ∧ (s.onRed f).Stays false b (s.redStart n new stage) :=
  ⟨_, by rfl, (refl _).foldl _ _ fun _ _ hu => ite (by
    split
    · exact hu.writeState _ _
    · exact hu) hu⟩

theorem applyCtx (h : o.Stays false b s) (i since : Nat) (l : List Long) : o.Stays false b (s.applyCtx i since l) := by
  unfold State.applyCtx
  extract_lets keep c d s1 ring s2 other s3
  have h1 : o.Stays false b s1 := h.foldl _ _ fun _ _ hu => hu.setCtxL i _ _
  have h2 : o.Stays false b s2 := ite (h1.foldl _ _ fun _ _ hu => (hu.setLong _ 0).spoil _ 2) h1
  have h3 : o.Stays false b s3 := ite ((h2.setRemBlocks i []).onStr _) h2
  exact ite h3 (h3.onStr _)

theorem applySubs (h : o.Stays false b s) : o.Stays false b s.applySubs := by
  unfold State.applySubs
  refine onStr (h.foldl _ _ fun u e hu => ?_) _
  split
  · exact hu.onStr _
  · exact hu

theorem applySched (h : o.Stays a b s) : o.Stays a b s.applySched :=
  ite h (((foldl ((h.onFab _).onFab _) _ _ fun _ _ hu => hu.countDrop R.VL0_NOSCHED_V R.PACK_EVT_VL0_LOSS).incWrap R.SCHED_GEN_V
    |>.wb R.TR_STAT_SCHED _).wr R.TR_STAT_N _)

theorem setVolt (h : o.Stays a b s) (c v : Nat) (hc : c < 64) : o.Stays a b (s.setVolt c v) :=
  ite h ((h.wr (R.CL_VOLT_V c) v).toggle (R.CL_VOLT_TOG c))

theorem voltKeep (h : o.Stays a b s) (c : Nat) (hc : c < 64) : o.Stays a b (s.voltKeep c) := by
  unfold State.voltKeep
  extract_lets s1
  have h1 : o.Stays a b s1 := (h.wb (R.CL_VOLT_RED_FLOOR c) _).wb (R.CL_VOLT_PINNED c) _
  exact ite h1 (((h1.setVolt c _ hc).wr (R.CL_VOLT_AT_FLOOR c) 0).wr (R.CL_VOLT_AT_CEIL c) 0)

/-! ### Sensor ports -/

theorem mgmtSend (h : o.Stays a false s) (p kind : Nat) (l : List Octet) : o.Stays a false (s.mgmtSend p kind l) := by
  have h1 := (h.onPort p fun x => { x with nextTag := ((s.port p).nextTag + 1) % 256 }).emit (.sample p (spMgmt (s.port p).nextTag kind l))
  exact ite (h1.emit _) (h1.onPort p _)

theorem sendPlan (h : o.Stays a false s) (p pq : Nat) (target : Option (BitVec 48)) (l : List PlanChan) (byCommit : Bool) (hp : p < 16) :
    o.Stays a false (s.sendPlan p pq target l byCommit) :=
  (((h.onPort p _).wr (R.SP_STAT_PLAN_PEND p) _).wr (R.SP_STAT_PLAN_ACK p) _).mgmtSend p _ _

theorem arrivalPlan (h : o.Stays a false s) (p : Nat) (hp : p < 16) : o.Stays a false (s.arrivalPlan p) := h.sendPlan p _ _ _ _ hp

theorem dropPlan (h : o.Stays a false s) (p : Nat) (hp : p < 16) : o.Stays a false (s.dropPlan p) :=
  ((h.onPort p _).wr (R.SP_STAT_PLAN_PEND p) _).wr (R.SP_STAT_PLAN_ACK p) _

theorem arrivalEvent (h : o.Stays a b s) (p code : Nat) : o.Stays a b (s.arrivalEvent p code) := by
  unfold State.arrivalEvent
  split
  · exact h
  · exact h.hostEvent _ _ _

theorem becomeActive (h : o.Stays a false s) (p : Nat) (hp : p < 16) : o.Stays a false (s.becomeActive p) := by
  unfold State.becomeActive
  exact (((h.wr (R.SP_STAT_STATE p) _).wr (R.SP_STAT_HOLD_WHY p) _).wb (R.SP_STAT_ABORT p) _).onPort p _

theorem arrive (h : o.Stays a false s) (p : Nat) : o.Stays a false (s.arrive p) := ite (h.onPort p _) (h.arrivalEvent p 0)

theorem holdLift (h : o.Stays a false s) (p : Nat) (hp : p < 16) : o.Stays a false (s.holdLift p) := by
  unfold State.holdLift
  extract_lets s1 s2
  have h1 : o.Stays a false s1 := h.becomeActive p hp
  have h2 : o.Stays a false s2 := ite h1 (h1.arrivalPlan p hp)
  exact ite (ite (h2.arrive p) h2) h

theorem spPorts_foldl (h : o.Stays a false s) (f : State → Nat → State) (hf : ∀ u p, p < 16 → o.Stays a false u → o.Stays a false (f u p)) :
    o.Stays a false (spPorts.foldl f s) := List.foldlRecOn spPorts f h fun u hu p hp => hf u p (List.mem_range.mp hp) hu

theorem dropCommitPlans (h : o.Stays a false s) : o.Stays a false s.dropCommitPlans :=
  h.spPorts_foldl _ fun _ p hp hu => ite (ite ((hu.dropPlan p hp).arrivalPlan p hp) (hu.dropPlan p hp)) hu

theorem bindOver (h : o.Stays a false s) (code : Option Nat) : o.Stays a false (s.bindOver code) := h.foldl _ _ fun _ p hu => by
  split
  · refine ite hu ?_
    split
    · exact (hu.onPort p _).arrivalEvent p _
    · exact ite ((hu.onPort p _).arrivalEvent p 0) (hu.onPort p _)
  · exact hu

/-! ### What is read of a state so reached -/

theorem rd (h : o.Stays a b s) (f : Fld) (hf : Stable f.off := by unfold Stable; dsimp only; omega) : s.rd f = o.rd f := by
  unfold State.rd
  rw [h.word f.off hf]

theorem bit (h : o.Stays a b s) (f : Fld) (hf : Stable f.off := by unfold Stable; dsimp only; omega) : s.bit f = o.bit f := by
  unfold State.bit
  rw [h.rd f hf]

theorem force (h : o.Stays a b s) : s.force = o.force := congrArg (·.1) h.standing

theorem beat (h : o.Stays a b s) : s.beat = o.beat := congrArg (·.2.1) h.standing

theorem slot (h : o.Stays a b s) : s.pwr.slot = o.pwr.slot := congrArg (·.2.2.1) h.standing

theorem stage (h : o.Stays a b s) : s.str.stage = o.str.stage := congrArg (·.2.2.2.1) h.standing

theorem stageSub (h : o.Stays a b s) : s.str.stageSub = o.str.stageSub := congrArg (·.2.2.2.2.1) h.standing

theorem redStage (h : o.Stays a b s) : s.red.stage = o.red.stage := congrArg (·.2.2.2.2.2.1) h.standing

theorem period (h : o.Stays a b s) : s.fab.period = o.fab.period := congrArg (·.2.2.2.2.2.2) h.standing

theorem noLink (h : o.Stays a b s) (hl : Says.noLink o) : Says.noLink s :=
  noLink_of_fpStat hl fun p hp => h.word _ (by unfold Stable R.FP_STAT; omega)

end State.Stays

/-! ### The set in force -/

/-- The staging words of o are in force in t, whose beat period is the one staged in o; no power request and no link has come up. -/
structure State.InForce (o t : State) : Prop where
  force : ∀ x ∈ stgWords, t.forceWord x = o.word x
  periodInt : t.word R.PERIOD_ACT_INT = o.word R.PERIOD_INT
  periodFrac : t.word R.PERIOD_ACT_FRAC = o.word R.PERIOD_FRAC
  slot : t.pwr.slot = o.pwr.slot
  link : ∀ p, p < 8 → t.word (R.FP_STAT p) = o.word (R.FP_STAT p)

/-- Nothing is staged of contexts, subscriptions and reductions. -/
structure State.Unstaged (t : State) : Prop where
  stage : t.str.stage = []
  stageSub : t.str.stageSub = []
  redStage : t.red.stage = []

theorem State.Unstaged.stays {a b : Bool} {t u : State} (h : t.Unstaged) (hu : t.Stays a b u) : u.Unstaged :=
  ⟨hu.stage.trans h.stage, hu.stageSub.trans h.stageSub, hu.redStage.trans h.redStage⟩

/-- The beat's registers are stable. -/
theorem stable_beat {x : Nat} (hl : 0x4000 ≤ x := by decide) (hu : x < 0x5000 := by decide) : Stable x := .inr (.inl ⟨hl, hu⟩)

/-- Staging words are stable. -/
theorem stable_of_mem_stgWords {x : Nat} (h : x ∈ stgWords) : Stable x := by
  unfold stgWords at h
  unfold Stable
  simp only [List.mem_append, List.mem_cons, List.mem_map, List.mem_range, List.not_mem_nil, or_false] at h
  rcases h with ((h | ⟨i, hi, rfl⟩) | ⟨i, hi, rfl⟩) | ⟨i, hi, rfl⟩
  · simp only [R.PERIOD_INT, R.PERIOD_FRAC, R.GUARD, R.BEATIO_CTRL, R.BEATIN_CTRL, R.J_CFG] at h
    omega
  · dsimp only [R.SP_TIMING]
    omega
  · dsimp only [R.CL_GOV]
    omega
  · dsimp only [R.CL_LIM]
    omega

namespace State.InForce

variable {a b : Bool} {o s t u : State}

theorem same (h : o.InForce t) (hr : u.hreg = t.hreg := by rfl) (hf : u.force = t.force := by rfl)
    (hs : u.pwr.slot = t.pwr.slot := by rfl) : o.InForce u where
  force x hx := by unfold State.forceWord; rw [hf]; exact h.force x hx
  periodInt := by unfold State.word; rw [hr]; exact h.periodInt
  periodFrac := by unfold State.word; rw [hr]; exact h.periodFrac
  slot := hs.trans h.slot
  link p hp := by unfold State.word; rw [hr]; exact h.link p hp

theorem stays (h : o.InForce t) (hu : t.Stays a b u) : o.InForce u where
  force x hx := by unfold State.forceWord; rw [hu.force]; exact h.force x hx
  periodInt := (hu.word _ stable_beat).trans h.periodInt
  periodFrac := (hu.word _ stable_beat).trans h.periodFrac
  slot := hu.slot.trans h.slot
  link p hp := (hu.word _ (by unfold Stable R.FP_STAT; omega)).trans (h.link p hp)

end State.InForce

/-- Words put in force one after another. -/
theorem foldl_setForce (l : List Nat) : ∀ s : State, ∃ m, l.foldl (fun t o => t.setForce o (t.word o)) s = { s with force := m } ∧
    ∀ x ∈ l, mget wordReset m x = s.word x := by
  suffices h : ∀ s : State, ∃ m, l.foldl (fun t o => t.setForce o (t.word o)) s = { s with force := m } ∧
      ∀ x, (x ∈ l ∨ s.forceWord x = s.word x) → mget wordReset m x = s.word x from
    fun s => (h s).imp fun m hm => ⟨hm.1, fun x hx => hm.2 x (.inl hx)⟩
  induction l with
  | nil => exact fun s => ⟨s.force, rfl, fun x hx => hx.resolve_left List.not_mem_nil⟩
  | cons y l ih =>
    intro s
    obtain ⟨m, hm, hx⟩ := ih (s.setForce y (s.word y))
    refine ⟨m, hm, fun x h => hx x ?_⟩
    by_cases hxy : x = y
    · exact .inr (by rw [hxy]; exact mget_mset_self _ _ _ _)
    · refine h.imp (fun h => (List.mem_cons.mp h).resolve_left hxy) fun h => ?_
      exact (mget_mset_ne _ _ _ _ _ hxy).trans h

/-- The words and the period take effect (R27, R48). -/
theorem applyWords_inForce {o s : State} {a b : Bool} (h : o.Stays a b s) (n : Option (BitVec 48)) : o.InForce (s.applyWords n) := by
  unfold State.applyWords
  extract_lets gov s1 s2
  obtain ⟨m, hm, hx⟩ := foldl_setForce stgWords s
  have e1 : s1 = { s with force := m } := hm
  have h2 : o.InForce s2 := by
    unfold s2
    rw [e1]
    exact {
      force x hm := (hx x hm).trans (h.word x (stable_of_mem_stgWords hm))
      periodInt := by
        rw [State.word_setWord, if_neg (by decide), State.word_setWord_self]
        exact h.word _ stable_beat
      periodFrac := by
        rw [State.word_setWord_self]
        exact h.word _ stable_beat
      slot := h.slot
      link p hp := by
        rw [State.word_setWord, if_neg (by unfold R.FP_STAT R.PERIOD_ACT_FRAC; omega), State.word_setWord,
          if_neg (by unfold R.FP_STAT R.PERIOD_ACT_INT; omega)]
        exact h.word _ (by unfold Stable R.FP_STAT; omega) }
  exact List.foldlRecOn _ _ h2 fun u hu c _ => hu.same

/-- A set that takes effect is in force, and no longer staged (R48). -/
theorem applySet_inForce (s : State) (n : Option (BitVec 48)) : s.InForce (s.applySet n) ∧ (s.applySet n).Unstaged := by
  unfold State.applySet
  extract_lets all new ctxs stage since s1 s2 s3 s4 s5 s6 s7
  have h1 : s.Stays false true s1 := ((State.Stays.refl s).redCut n all).foldl _ _ fun _ e hu => hu.flushGather e.1
  have h2 : s.InForce s2 := applyWords_inForce h1 n
  have h3 : s2.Stays false true s3.applySubs := ((State.Stays.refl s2).foldl _ _ fun _ e hu => hu.applyCtx e.1 since e.2).applySubs
  have h5 : s.InForce s5 := (h2.stays h3).same
  obtain ⟨f, hf, hs⟩ := State.Stays.redStart (b := false) s5 n new stage
  have hu : (s5.onRed f).Unstaged := ⟨rfl, rfl, hf⟩
  have h7 : (s5.onRed f).Stays false false s7 :=
    List.foldlRecOn _ _ hs.applySched fun u hu c hc => hu.voltKeep c (List.mem_range.mp hc)
  have h8 := h7.spPorts_foldl _ fun u p hp hu => hu.holdLift p hp
  exact ⟨(h5.same (u := s5.onRed f)).stays h8, hu.stays h8⟩

end Sys2Proof.Machine

/-! PROOFS. COMMIT_GO, COMMIT_CANCEL and COMMIT_CUTOFF (R46, R47, R49, R50), PERIOD, PERIOD_REFUSE and PERIOD_CANCEL (R53, R389). -/

namespace Sys2Proof.Machine

open Sys2Proof

-- One proof after another, as in the tests: theorems checked side by side need more threads than the check's memory limit allows.
set_option Elab.async false

variable {s t u : State} {v : Reg32} {c : CommitReq}

/-- The words of a commit's state and of its events. -/
def commitWords : List Nat := [R.COMMIT_STAT, R.BEAT_INT_STAT]

/-- Where the beat is as it was, only words differ. -/
theorem State.WroteIn.regsOnly {l : List Nat} (h : s.WroteIn u l) (hb : u.beat = s.beat) : Says.regsOnly s u.settle l := by
  obtain ⟨⟨r, b, rfl⟩, hw⟩ := h
  refine regsOnly_settle _ ?_ hw
  rw [show b = s.beat from hb]

/-! ### A write that is ignored (R47) -/

theorem ignoredWrite_wroteIn : s.WroteIn s.ignoredWrite commitWords := ((State.WroteIn.refl s _).set1 _).set1 _

theorem ignoredWrite_beat : s.ignoredWrite.beat = s.beat := (State.wr_beat _ _ _).trans (State.wr_beat _ _ _)

/-- It shows in the two IGNORED bits. -/
theorem ignored_settle : Says.regsOnly s s.ignoredWrite.settle commitWords ∧ s.ignoredWrite.settle.bit R.COMMIT_STAT_IGNORED = true ∧
    s.ignoredWrite.settle.bit R.BEAT_INT_STAT_IGNORED = true ∧
    s.ignoredWrite.settle.bit R.COMMIT_STAT_PENDING = s.bit R.COMMIT_STAT_PENDING := by
  rw [State.settle_bit, State.settle_bit, State.settle_bit]
  refine ⟨ignoredWrite_wroteIn.regsOnly ignoredWrite_beat, ?_, ?_, ?_⟩
  · exact (State.bit_set1_off _ _ _ (by decide)).trans (State.bit_set1 _ _ (by decide) (by decide))
  · exact State.bit_set1 _ _ (by decide) (by decide)
  · exact (State.bit_set1_off _ _ _ (by decide)).trans (bit_wr_ne _ _ _)

/-! ### GO (R46, R49, R50) -/

/-- The request c pends. -/
def State.pend (s : State) (c : CommitReq) : State := (s.onBeat (fun z => { z with commit := some c })).wr R.COMMIT_STAT_PENDING 1

theorem pend_wroteIn : s.WroteIn (s.pend c) commitWords := ((State.WroteIn.refl s _).onBeat _).wr _ _

theorem bit_pend : (s.pend c).bit R.COMMIT_STAT_PENDING = true := bit_wr_one _

/-- A request not by AT announces no period. -/
theorem announces_byEdge (h : c.byAt = false) : s.announces c = false := by simp [State.announces, h]

/-- Only a master announces a period. -/
theorem announces_alone (h : s.role = roleAlone) : s.announces c = false := by
  unfold State.announces
  rw [h]
  rfl

theorem exec_commitGo (h0 : v.getLsbD 0 = true) (h2 : v.getLsbD 2 = false) :
    exec (.commitGo v) s = .next (s.commitGo (v.getLsbD 1)).settle := by
  show doneIf (v.getLsbD 0) (s.commitWrite v) = _
  rw [doneIf_true _ _ h0]
  simp only [State.commitWrite, h0, h2, Bool.false_eq_true, if_false, if_true, Bool.not_false, Bool.and_self]

theorem commitGo_pending (h : s.bit R.COMMIT_STAT_PENDING = true) (at1 : Bool) : s.commitGo at1 = s.ignoredWrite := if_pos h

/-- AT of an edge less than 2,000 ns ahead fails at once. -/
theorem commitGo_late (hp : s.bit R.COMMIT_STAT_PENDING = false) (hs : s.beat.phase ≠ .stopped)
    (hl : s.edgeAt (BitVec.ofNat 48 (s.rdW R.COMMIT_AT_HI % 65536 * 2 ^ 32 + s.rdW R.COMMIT_AT_LO)) < s.time + 2000 * nsU) :
    s.commitGo true = (s.commitFailed 0x06).wr R.COMMIT_STAT_BEAT s.beat.num.toNat := by
  have he : s.hasEdges = true := by simp [State.hasEdges, hs]
  unfold State.commitGo
  dsimp only
  rw [if_neg (by simp [State.pendingCommit, hp]), if_neg (by simp [he]), if_pos (by simpa using hl)]

/-- No module has a part in the commit. -/
theorem planChanges_none (hc : ∀ p, s.planChanges p = false) : spPorts.filter s.planChanges = [] :=
  List.filter_eq_nil_iff.mpr fun p _ => by simp [hc p]

section Free

variable (hp : s.bit R.COMMIT_STAT_PENDING = false) (hc : ∀ p, s.planChanges p = false)
include hp hc

/-- GO of a stopped beat is an immediate request. -/
theorem commitGo_stopped (hs : s.beat.phase = .stopped) (at1 : Bool) : s.commitGo at1 = s.pend ⟨planNext, false, true, s.time, false⟩ := by
  have he : s.hasEdges = false := by simp [State.hasEdges, hs]
  unfold State.commitGo
  simp only [State.pendingCommit, hp, planChanges_none hc, he, Bool.false_eq_true, if_false, Bool.not_false, if_true, List.isEmpty_nil,
    add_zero, List.foldl_nil]
  rfl

variable (hs : s.beat.phase ≠ .stopped)
include hs

/-- GO without AT of a beat that runs takes the first edge at least 2,000 ns ahead. -/
theorem commitGo_edge : s.commitGo false = s.pend ⟨(s.edgeFrom (s.time + 2000 * nsU)).1, false, false, 0, false⟩ := by
  have he : s.hasEdges = true := by simp [State.hasEdges, hs]
  unfold State.commitGo
  simp only [State.pendingCommit, hp, planChanges_none hc, he, Bool.false_eq_true, if_false, Bool.not_true, Bool.false_and,
    List.foldl_nil, announces_byEdge]
  rfl

end Free

/-- What a GO that fails at once shows (R49). -/
theorem failedAtOnce_bits (hp : s.bit R.COMMIT_STAT_PENDING = false) (n : Nat) :
    let u := (s.commitFailed 0x06).wr R.COMMIT_STAT_BEAT n
    u.rd R.COMMIT_STAT_CODE = 6 ∧ u.bit R.COMMIT_STAT_ERR = true ∧ u.bit R.BEAT_INT_STAT_COMMIT_ERR = true ∧
      u.rd R.COMMIT_STAT_BEAT = n % 65536 ∧ u.bit R.COMMIT_STAT_PENDING = false := by
  refine ⟨?_, ?_, ?_, ?_, ?_⟩
  · exact (State.rd_wr_ne _ _ _ _ (by decide) (by decide)).trans (State.rd_wr _ _ _ (by decide))
  · exact (bit_wr_ne _ _ _).trans ((bit_wr_ne _ _ _).trans ((bit_wr_off _ _ _).trans (bit_wr_one _)))
  · exact (bit_wr_off _ _ _).trans ((bit_wr_off _ _ _).trans (bit_wr_one _))
  · exact State.rd_wr _ _ _ (by decide)
  · exact (bit_wr_ne _ _ _).trans ((bit_wr_ne _ _ _).trans ((bit_wr_off _ _ _).trans ((bit_wr_ne _ _ _).trans hp)))

theorem failedAtOnce_wroteIn (n : Nat) : s.WroteIn ((s.commitFailed 0x06).wr R.COMMIT_STAT_BEAT n) commitWords :=
  ((((State.WroteIn.refl s _).set1 _).set1 _).wr _ _).wr _ _

theorem failedAtOnce_beat (n : Nat) : ((s.commitFailed 0x06).wr R.COMMIT_STAT_BEAT n).beat = s.beat :=
  (State.wr_beat _ _ _).trans ((State.wr_beat _ _ _).trans ((State.wr_beat _ _ _).trans (State.wr_beat _ _ _)))

/-! ### CANCEL (R47) -/

theorem exec_commitCancel (h0 : v.getLsbD 0 = false) (h2 : v.getLsbD 2 = true) :
    exec (.commitCancel v) s = .next s.commitCancel.1.settle := by
  show doneIf (v.getLsbD 2) (s.commitWrite v) = _
  rw [doneIf_true _ _ h2]
  simp only [State.commitWrite, h0, h2, Bool.false_eq_true, if_false, if_true, Bool.false_and]

theorem commitCancel_none (h : s.beat.commit = none) : s.commitCancel.1 = s := by
  unfold State.commitCancel
  rw [h]

theorem cutoff_commit (h : s.cutoff = true) : ∃ c, s.beat.commit = some c := by
  cases hc : s.beat.commit with
  | some c => exact ⟨c, rfl⟩
  | none =>
    unfold State.cutoff at h
    rw [hc] at h
    exact absurd h Bool.false_ne_true

theorem commitCancel_cutoff (h : s.cutoff = true) : s.commitCancel.1 = s.ignoredWrite := by
  obtain ⟨c, hc⟩ := cutoff_commit h
  unfold State.commitCancel
  rw [hc]
  dsimp only
  rw [if_pos h]

/-- With no plan of a commit out nothing is dropped. -/
theorem dropCommitPlans_none (h : ∀ p x, (s.port p).plan = some x → x.byCommit = false) : s.dropCommitPlans = s := by
  unfold State.dropCommitPlans
  refine List.foldl_fixed' (fun p => if_neg ?_) spPorts
  cases hp : (s.port p).plan with
  | none => decide
  | some x => simp [h p x hp]

/-- With no binding under way none goes on. -/
theorem bindOver_none (h : ∀ p, (s.port p).bind = none) (code : Option Nat) : s.bindOver code = s := by
  unfold State.bindOver
  refine List.foldl_fixed' (fun p => ?_) spPorts
  rw [h p]

theorem commitOver_wroteIn : s.WroteIn s.commitOver commitWords := (((State.WroteIn.refl s _).onBeat _).wr _ _).wr _ _

theorem bit_commitOver : s.commitOver.bit R.COMMIT_STAT_PENDING = false := (bit_wr_ne _ _ _).trans (bit_wr_zero _)

/-- A request of a node on its own, with no module in it, ends before the cutoff. -/
theorem commitCancel_alone (hc : s.beat.commit = some c) (hcut : s.cutoff = false) (hr : s.role = roleAlone)
    (hp : ∀ p, (s.port p).bind = none ∧ ∀ x, (s.port p).plan = some x → x.byCommit = false) : s.commitCancel.1 = s.commitOver := by
  unfold State.commitCancel
  rw [hc]
  simp only [hcut, announces_alone hr, Bool.false_eq_true, if_false]
  have hport : ∀ p, s.commitOver.port p = s.port p := fun p => by
    unfold State.port State.commitOver
    rw [State.wr_ports, State.wr_ports]
    rfl
  rw [dropCommitPlans_none fun p => by rw [hport]; exact (hp p).2, bindOver_none fun p => by rw [hport]; exact (hp p).1]

/-! ### CUTOFF (R47) -/

/-- The cutoff of a request whose target is the next edge. -/
theorem reachCutoff_next (hc : s.beat.commit = some c) (hi : c.immediate = false) (hs : s.beat.phase ≠ .stopped)
    (ht : c.target = (s.edgeFrom s.beat.lastEdge).1) :
    s.reachCutoff = State.set1 { s with time := max s.time (s.edgeAt c.target - 2000 * nsU) } R.COMMIT_STAT_CUTOFF := by
  have he : s.hasEdges = true := by simp [State.hasEdges, hs]
  unfold State.reachCutoff
  rw [hc]
  dsimp only
  rw [if_neg (by simp [hi, he, ← ht])]

theorem exec_commitCutoff (hc : s.beat.commit = some c) (hi : c.immediate = false) (hs : s.beat.phase ≠ .stopped)
    (ht : c.target = (s.edgeFrom s.beat.lastEdge).1) : ∃ t, exec .commitCutoff s = .next t ∧ t.bit R.COMMIT_STAT_CUTOFF = true ∧
      Says.words s t commitWords ∧ t.beat = s.beat ∧ s.time ≤ t.time := by
  refine ⟨_, show done s.reachCutoff = .next s.reachCutoff.settle from rfl, ?_⟩
  rw [State.settle_bit, State.settle_beat, State.settle_time, reachCutoff_next hc hi hs ht]
  refine ⟨State.bit_set1 _ _ (by decide) (by decide), fun o ho => ?_, State.wr_beat _ _ _, le_max_left _ _⟩
  rw [State.settle_word]
  exact State.word_wr_off _ _ _ _ fun e => ho (e ▸ by decide)

/-! ### The pack period (R53, R389) -/

/-- The request is marked as refused. -/
def State.markRefused (s : State) (c : CommitReq) : State :=
  (s.onBeat (fun z => { z with commit := some { c with refused := true } })).set1 R.PACK_EVT_PERIOD

theorem periodRefused_own (hc : s.beat.commit = some c) (hr : s.role = roleMaster) : s.periodRefused c.target = s.markRefused c := by
  unfold State.periodRefused
  rw [hc]
  exact if_pos ⟨hr, rfl⟩

theorem markRefused_wroteIn : s.WroteIn (s.markRefused c) [R.PACK_EVT] := ((State.WroteIn.refl s _).onBeat _).set1 _

theorem exec_periodRefuse (hc : s.beat.commit = some c) (hr : s.role = roleMaster) (code : Octet) :
    ∃ t, exec (.periodRefuse code c.target) s = .next t ∧ Says.beatOnly s t [R.PACK_EVT] ∧
      t.beat = { s.beat with commit := some { c with refused := true } } ∧ t.bit R.PACK_EVT_PERIOD = true := by
  refine ⟨(s.markRefused c).settle, ?_, markRefused_wroteIn.beatOnly, ?_, ?_⟩
  · show done (s.periodRefused c.target) = _
    rw [periodRefused_own hc hr]
    rfl
  · rw [State.settle_beat]
    exact State.wr_beat _ _ _
  · rw [State.settle_bit]
    exact State.bit_set1 _ _ (by decide) (by decide)

/-- The announced period is marked as cancelled. -/
def State.markCancelled (s : State) (x : PeriodChange) : State :=
  (s.onFab (fun z => { z with period := some { x with cancelled := true } })).set1 R.PACK_EVT_PERIOD

theorem periodCancelled_own {x : PeriodChange} (hx : s.fab.period = some x) : s.periodCancelled x.target = s.markCancelled x := by
  unfold State.periodCancelled
  rw [hx]
  exact if_pos rfl

theorem exec_periodCancel {x : PeriodChange} (hx : s.fab.period = some x) : ∃ t, exec (.periodCancel x.target) s = .next t ∧
    t.fab = { s.fab with period := some { x with cancelled := true } } ∧ t.bit R.PACK_EVT_PERIOD = true ∧ t.beat = s.beat ∧
      Says.words s t [R.PACK_EVT] := by
  refine ⟨(s.markCancelled x).settle, ?_, ?_, ?_, ?_, fun o ho => ?_⟩
  · show done (s.periodCancelled x.target) = _
    rw [periodCancelled_own hx]
    rfl
  · rw [State.settle_fab]
    exact State.wr_fab _ _ _
  · rw [State.settle_bit]
    exact State.bit_set1 _ _ (by decide) (by decide)
  · rw [State.settle_beat]
    exact State.wr_beat _ _ _
  · rw [State.settle_word]
    exact State.word_wr_off _ _ _ _ fun e => ho (e ▸ by decide)

theorem exec_period_other (hr : s.role ≠ roleMember) (a b : Reg32) (n : BitVec 48) :
    ∃ t, exec (.period a b n) s = .next t ∧ Says.regsOnly s t [] :=
  ⟨_, congrArg (fun x : State => Host.Outcome.next x.settle) (show s.periodIn a b n = s from if_pos hr),
    regsOnly_settle s rfl (words_refl s [])⟩

/-! ### A member's modules get the period (R81) -/

theorem port_onPort_self (p : Nat) (f : Port → Port) : (s.onPort p f).port p = f (s.port p) := mget_mset_self _ _ _ _

theorem port_onPort_ne {p q : Nat} (f : Port → Port) (h : q ≠ p) : (s.onPort p f).port q = s.port q := mget_mset_ne _ _ _ _ _ h

/-- Port q has a plan for a commit or a period at a target. -/
def State.Planned (s : State) (q : Nat) (target : Option (BitVec 48)) : Prop :=
  ∃ y, (s.port q).plan = some y ∧ y.target = target ∧ y.byCommit = true

theorem planned_onPort {p q : Nat} {f : Port → Port} {g : Option (BitVec 48)} (h : s.Planned q g) (hf : ∀ x, (f x).plan = x.plan) :
    (s.onPort p f).Planned q g := by
  unfold State.Planned
  by_cases hq : q = p
  · subst hq
    rw [port_onPort_self, hf]
    exact h
  · rw [port_onPort_ne f hq]
    exact h

theorem planned_emit {q : Nat} {g : Option (BitVec 48)} (h : s.Planned q g) (m : Out) : (s.emit m).Planned q g := by
  unfold State.Planned State.port
  rw [State.emit_ports]
  exact h

theorem planned_mgmtSend {q : Nat} {g : Option (BitVec 48)} (h : s.Planned q g) (p kind : Nat) (l : List Octet) :
    (s.mgmtSend p kind l).Planned q g := by
  have h1 := planned_emit (planned_onPort (p := p) (f := fun x => { x with nextTag := ((s.port p).nextTag + 1) % 256 }) h fun _ => rfl)
    (.sample p (spMgmt (s.port p).nextTag kind l))
  unfold State.mgmtSend
  dsimp only
  split
  · exact planned_emit h1 _
  · exact planned_onPort h1 fun _ => rfl

/-- A port that is sent a plan has it, and the others keep theirs. -/
theorem planned_sendPlan (p pq : Nat) (g : Option (BitVec 48)) (l : List PlanChan) {q : Nat} (h : q = p ∨ s.Planned q g) :
    (s.sendPlan p pq g l true).Planned q g := by
  unfold State.sendPlan
  refine planned_mgmtSend ?_ _ _ _
  by_cases hq : q = p
  · subst hq
    refine ⟨⟨(s.port q).nextId, g, l, none, true⟩, ?_, rfl, rfl⟩
    unfold State.port
    rw [State.wr_ports, State.wr_ports]
    exact congrArg Port.plan (port_onPort_self q _)
  · obtain ⟨y, hy, hg⟩ := h.resolve_left hq
    refine ⟨y, ?_, hg⟩
    unfold State.port
    rw [State.wr_ports, State.wr_ports]
    exact (congrArg Port.plan (port_onPort_ne _ hq)).trans hy

theorem planned_foldl (pq : Nat) (g : Option (BitVec 48)) (plan : Nat → List PlanChan) (l : List Nat) : ∀ {s : State} {q : Nat},
    q ∈ l ∨ s.Planned q g → (l.foldl (fun t p => t.sendPlan p pq g (plan p) true) s).Planned q g := by
  induction l with
  | nil => exact fun h => h.resolve_left List.not_mem_nil
  | cons p l ih =>
    intro s q h
    refine ih ?_
    rcases h with h | h
    · exact (List.mem_cons.mp h).symm.imp_right fun e => planned_sendPlan p pq g _ (.inl e)
    · exact .inr (planned_sendPlan p pq g _ (.inr h))

/-- The announced period x is kept. -/
def State.announced (s : State) (x : PeriodChange) : State := s.onFab (fun z => { z with period := some x })

/-- PERIOD at a member, with the announced period kept (R389). -/
theorem periodIn_member (hr : s.role = roleMember) (a b : Reg32) (n : BitVec 48) {u : State}
    (hu : u = s.announced ⟨a.toNat, b.toNat, n, false, false⟩) : s.periodIn a b n =
      if (u.periodConflicts a b).isEmpty then
        (spPorts.filter s.spTalks).foldl (fun t p => t.sendPlan p (a.toNat * 4294967296 + b.toNat) (some n) (planOf p s.cfgsIn) true) u
      else u.periodRefuse (lowestCode (u.periodConflicts a b)) := by
  subst hu
  exact if_neg (not_not.mpr hr)

/-- A period that the configuration in force holds with is kept, and its modules get their plans. -/
theorem periodIn_taken (hr : s.role = roleMember) (a b : Reg32) (n : BitVec 48)
    (hc : (s.announced ⟨a.toNat, b.toNat, n, false, false⟩).periodConflicts a b = []) :
    (s.announced ⟨a.toNat, b.toNat, n, false, false⟩).Stays true false (s.periodIn a b n) ∧
      ∀ p ∈ spPorts.filter s.spTalks, (s.periodIn a b n).Planned p (some n) := by
  rw [periodIn_member hr a b n rfl, if_pos (List.isEmpty_iff.mpr hc)]
  refine ⟨List.foldlRecOn _ _ (.refl _) fun u hu p hp => ?_, fun p hp => planned_foldl _ _ _ _ (.inl hp)⟩
  exact hu.sendPlan p _ _ _ _ (List.mem_range.mp (List.mem_of_mem_filter hp))

/-- A refusal marks the announced period and is told to the master. -/
theorem periodRefuse_stays {x : PeriodChange} (hx : x.refused = false) (code : Nat) :
    ((s.announced { x with refused := true }).set1 R.PACK_EVT_PERIOD).Stays true true ((s.announced x).periodRefuse code) := by
  have hp : (s.announced x).fab.period = some x := rfl
  unfold State.periodRefuse
  rw [hp]
  dsimp only
  rw [if_neg (by rw [hx]; exact Bool.false_ne_true)]
  split
  · exact (State.Stays.refl _).sendTo _ _ _
  · exact .refl _

/-- A period that fails a check is kept as refused, and the master is told. -/
theorem periodIn_refused (hr : s.role = roleMember) (a b : Reg32) (n : BitVec 48)
    (hc : (s.announced ⟨a.toNat, b.toNat, n, false, false⟩).periodConflicts a b ≠ []) :
    ((s.announced ⟨a.toNat, b.toNat, n, true, false⟩).set1 R.PACK_EVT_PERIOD).Stays true true (s.periodIn a b n) := by
  rw [periodIn_member hr a b n rfl, if_neg fun h => hc (List.isEmpty_iff.mp h)]
  exact periodRefuse_stays (x := ⟨a.toNat, b.toNat, n, false, false⟩) rfl _

section Member

variable (hr : s.role = roleMember) (a b : Reg32) (n : BitVec 48)
include hr

/-- Whatever becomes of an announced period, the period in force stays, with memory, the cores and the beat. -/
theorem periodIn_keeps : ∃ o : State, (∀ w, w ≠ R.PACK_EVT → o.word w = s.word w) ∧ o.working = s.working ∧ o.beat = s.beat ∧ o.force = s.force ∧
    o.Stays true false (s.periodIn a b n) := by
  by_cases hc : (s.announced ⟨a.toNat, b.toNat, n, false, false⟩).periodConflicts a b = []
  · exact ⟨s.announced ⟨a.toNat, b.toNat, n, false, false⟩, fun _ _ => rfl, rfl, rfl, rfl, (periodIn_taken hr a b n hc).1⟩
  · refine ⟨_, fun w hw => ?_, ?_, ?_, ?_, (periodIn_refused hr a b n hc).mono⟩
    · exact State.word_wr_off _ _ _ _ hw
    · rfl
    · exact State.wr_beat _ _ _
    · exact State.wr_force _ _ _

/-- PERIOD at a member. -/
theorem exec_period_member :
    let x : PeriodChange := ⟨a.toNat, b.toNat, n, false, false⟩
    let codes := ({ s with fab := { s.fab with period := some x } }).periodConflicts a b
    ∃ t, exec (.period a b n) s = .next t ∧ t.mem = s.mem ∧ t.cores = s.cores ∧ t.beat = s.beat ∧ t.force = s.force ∧
      t.word R.PERIOD_ACT_INT = s.word R.PERIOD_ACT_INT ∧ t.word R.PERIOD_ACT_FRAC = s.word R.PERIOD_ACT_FRAC ∧
      (codes = [] → t.fab.period = some x ∧ ∀ p ∈ spPorts.filter s.spTalks, ∃ y, (t.port p).plan = some y ∧ y.target = some n ∧ y.byCommit = true) ∧
      (codes ≠ [] → t.fab.period = some { x with refused := true } ∧ t.bit R.PACK_EVT_PERIOD = true ∧ t.ports = s.ports) := by
  intro x codes
  obtain ⟨o, hw, hk, hb, hf, h⟩ := periodIn_keeps hr a b n
  have hwork := (h.working rfl).trans hk
  refine ⟨(s.periodIn a b n).settle, rfl, congrArg (·.1) hwork, congrArg (·.2.1) hwork, ?_, ?_, ?_, ?_, fun hc => ?_, fun hc => ?_⟩
  · rw [State.settle_beat, h.beat, hb]
  · rw [State.settle_force, h.force, hf]
  · rw [State.settle_word, h.word _ stable_beat, hw _ (by decide)]
  · rw [State.settle_word, h.word _ stable_beat, hw _ (by decide)]
  · obtain ⟨hs, hp⟩ := periodIn_taken hr a b n hc
    rw [State.settle_fab]
    refine ⟨hs.period, fun p hm => ?_⟩
    unfold State.port
    rw [State.settle_ports]
    exact hp p hm
  · have hs := periodIn_refused hr a b n hc
    rw [State.settle_fab, State.settle_bit, State.settle_ports, hs.period, hs.ports rfl]
    exact ⟨congrArg Fabric.period (State.wr_fab _ _ _), hs.posted (State.bit_set1 _ _ (by decide) (by decide)), State.wr_ports _ _ _⟩

end Member

end Sys2Proof.Machine

/-! PROOFS. IMMEDIATE_COMMIT (R48, R50, R574), and the seven rows together. -/

namespace Sys2Proof.Machine

open Sys2Proof

-- One proof after another, as in the tests: theorems checked side by side need more threads than the check's memory limit allows.
set_option Elab.async false

variable {o s t u : State} {c : CommitReq}

/-! ### Checks that fail -/

/-- The state in which a commit has failed with a code, before its record is written. -/
def State.failedOver (s : State) (code : Nat) : State :=
  ((s.wr R.COMMIT_STAT_BEAT s.beat.num.toNat).commitFailed code).commitOver

theorem failedOver_bits (code : Nat) : (s.failedOver code).bit R.COMMIT_STAT_ERR = true ∧
    (s.failedOver code).rd R.COMMIT_STAT_CODE = code % 256 ∧ (s.failedOver code).bit R.COMMIT_STAT_PENDING = false := by
  refine ⟨?_, ?_, bit_commitOver⟩
  · exact (bit_wr_ne _ _ _).trans ((bit_wr_ne _ _ _).trans ((bit_onBeat _ _).trans ((bit_wr_ne _ _ _).trans
      ((bit_wr_off _ _ _).trans (bit_wr_one _)))))
  · unfold State.failedOver State.commitOver State.commitFailed
    rw [State.rd_wr_ne _ _ _ _ (by decide) (by decide), State.rd_wr_ne _ _ _ _ (by decide) (by decide), rd_onBeat]
    exact State.rd_wr _ R.COMMIT_STAT_CODE _ (by decide)

theorem failedOver_wroteIn (code : Nat) : s.WroteIn (s.failedOver code) commitWords :=
  State.WroteIn.trans ((((State.WroteIn.refl s _).wr _ _).set1 _).set1 _ |>.wr _ _) commitOver_wroteIn

/-- Nothing but the beat's request and those words differs. -/
theorem failedOver_rest (code : Nat) : (s.failedOver code).working = s.working ∧ (s.failedOver code).force = s.force ∧
    (s.failedOver code).pwr = s.pwr ∧ (s.failedOver code).beat.commit = none := by
  refine ⟨?_, ?_, ?_, ?_⟩
  · obtain ⟨r, b, he⟩ := (failedOver_wroteIn (s := s) code).wrote
    rw [he]
    rfl
  · obtain ⟨r, b, he⟩ := (failedOver_wroteIn (s := s) code).wrote
    rw [he]
  · obtain ⟨r, b, he⟩ := (failedOver_wroteIn (s := s) code).wrote
    rw [he]
  · exact congrArg Beat.commit ((State.wr_beat _ _ _).trans (State.wr_beat _ _ _))

/-- What follows a failed commit touches neither the set in force nor what is staged. -/
theorem commitRun_fails (h : s.commitFails ≠ []) (n : Option (BitVec 48)) :
    (s.failedOver (lowestCode s.commitFails)).Stays true false (s.commitRun n) := by
  unfold State.commitRun
  dsimp only
  rw [if_neg fun e => h (List.isEmpty_iff.mp e)]
  exact (((State.Stays.refl _).configRec _).dropCommitPlans).bindOver _

/-! ### A set that passes -/

/-- A word of the commit's state or of its events. -/
theorem State.InForce.wr (h : o.InForce t) (f : Fld) (v : Nat) (hf : f.off ∈ commitWords := by decide) : o.InForce (t.wr f v) := by
  have hne : ∀ x, x ∉ commitWords → (t.wr f v).word x = t.word x := fun x hx => State.word_wr_off _ _ _ _ fun e => hx (e ▸ hf)
  exact {
    force := h.force
    periodInt := (hne _ (by decide)).trans h.periodInt
    periodFrac := (hne _ (by decide)).trans h.periodFrac
    slot := h.slot
    link := fun p hp => (hne _ (by revert p; decide)).trans (h.link p hp) }

theorem State.InForce.onBeat (h : o.InForce t) (f : Beat → Beat) : o.InForce (t.onBeat f) := h.same

theorem State.InForce.commitOver (h : o.InForce t) : o.InForce t.commitOver := ((h.onBeat _).wr _ _).wr _ _

theorem State.Unstaged.wr (h : t.Unstaged) (f : Fld) (v : Nat) : (t.wr f v).Unstaged := by
  obtain ⟨h1, h2, h3⟩ := h
  constructor
  · rwa [State.wr_str]
  · rwa [State.wr_str]
  · rwa [State.wr_red]

theorem State.Unstaged.commitOver (h : t.Unstaged) : t.commitOver.Unstaged :=
  (State.Unstaged.wr (t := t.onBeat (fun z => { z with commit := none })) ⟨h.stage, h.stageSub, h.redStage⟩ _ _).wr _ _

/-- The state in which a set has taken effect and the commit is done, before its record is written. -/
def State.doneOver (s : State) (n : Option (BitVec 48)) : State :=
  ((((s.wr R.COMMIT_STAT_BEAT s.beat.num.toNat).applySet n).commitOver.set1 R.COMMIT_STAT_DONE).set1 R.BEAT_INT_STAT_COMMIT_DONE)

theorem doneOver_bits (n : Option (BitVec 48)) : (s.doneOver n).bit R.COMMIT_STAT_DONE = true ∧
    (s.doneOver n).bit R.COMMIT_STAT_PENDING = false ∧ (s.doneOver n).beat.commit = none :=
  ⟨(bit_wr_off _ _ _).trans (bit_wr_one _), (bit_wr_off _ _ _).trans ((bit_wr_ne _ _ _).trans bit_commitOver), rfl⟩

/-- The set is in force, and nothing is staged any more. -/
theorem doneOver_inForce (n : Option (BitVec 48)) : s.InForce (s.doneOver n) ∧ (s.doneOver n).Unstaged := by
  obtain ⟨hf, hu⟩ := applySet_inForce (s.wr R.COMMIT_STAT_BEAT s.beat.num.toNat) n
  have hw : ∀ x, x ≠ R.COMMIT_STAT → (s.wr R.COMMIT_STAT_BEAT s.beat.num.toNat).word x = s.word x := fun x hx => State.word_wr_off _ _ _ _ hx
  have hs : s.InForce ((s.wr R.COMMIT_STAT_BEAT s.beat.num.toNat).applySet n) := {
    force := fun x hx => (hf.force x hx).trans (hw x fun e => absurd (e ▸ hx) (by decide))
    periodInt := hf.periodInt.trans (hw _ (by decide))
    periodFrac := hf.periodFrac.trans (hw _ (by decide))
    slot := hf.slot
    link := fun p hp => (hf.link p hp).trans (hw _ (by revert p; decide)) }
  exact ⟨(hs.commitOver.wr _ _).wr _ _, (hu.commitOver.wr _ _).wr _ _⟩

/-- What follows a commit that is done touches nothing of the set in force. -/
theorem commitRun_passes (h : s.commitFails = []) : (s.doneOver none).Stays true false (s.commitRun none) := by
  unfold State.commitRun
  dsimp only
  rw [if_pos (List.isEmpty_iff.mpr h), if_pos (c := (none : Option (BitVec 48)).isNone = true) rfl]
  exact (((State.Stays.refl _).configRec _).bindOver none).foldl _ _ fun _ p hu => hu.onPort p _

/-! ### The row -/

theorem exec_immediateCommit (hd : s.immediateDue = true) (hl : Says.noLink (s.commitRun none)) (hs : (s.commitRun none).pwr.slot = []) :
    exec .immediateCommit s = .next (s.commitRun none).settle := by
  have he : (if s.immediateDue then (s.commitRun none).packSettle else s).pwrSweep = s.commitRun none := by
    rw [if_pos hd, packSettle_noLink hl, State.pwrSweep_none _ hs]
  exact congrArg done he

theorem str_of_working (h : t.working = s.working) : t.str = s.str := congrArg (fun x => x.2.2.1) h

theorem red_of_working (h : t.working = s.working) : t.red = s.red := congrArg (fun x => x.2.2.2) h

/-- A due immediate commit whose checks fail (R48, R50). -/
theorem exec_immediateCommit_fails (hl : Says.noLink s) (hs : s.pwr.slot = []) (hd : s.immediateDue = true) (hf : s.commitFails ≠ []) :
    ∃ t, exec .immediateCommit s = .next t ∧ t.force = s.force ∧ t.str.ctx = s.str.ctx ∧ t.str.subs = s.str.subs ∧
      t.str.stage = s.str.stage ∧ t.red.states = s.red.states ∧ t.beat.commit = none ∧ t.bit R.COMMIT_STAT_ERR = true ∧
      t.rd R.COMMIT_STAT_CODE = lowestCode s.commitFails % 256 ∧ t.bit R.COMMIT_STAT_PENDING = false := by
  have h := commitRun_fails hf none
  obtain ⟨hwork, hforce, hpwr, hcommit⟩ := failedOver_rest (s := s) (lowestCode s.commitFails)
  obtain ⟨herr, hcode, hpend⟩ := failedOver_bits (s := s) (lowestCode s.commitFails)
  have hk := (h.working rfl).trans hwork
  have hstr := str_of_working hk
  have hred := red_of_working hk
  have hl0 : Says.noLink (s.failedOver (lowestCode s.commitFails)) := (failedOver_wroteIn _).noLink hl
  have hs0 : (s.commitRun none).pwr.slot = [] := by rw [h.slot, hpwr, hs]
  refine ⟨_, exec_immediateCommit hd (h.noLink hl0) hs0, ?_⟩
  rw [State.settle_force, State.settle_str, State.settle_red, State.settle_beat, State.settle_bit, State.settle_rd, State.settle_bit, hstr,
    hred, h.force, hforce, h.beat, h.bit R.COMMIT_STAT_ERR, h.rd R.COMMIT_STAT_CODE, h.bit R.COMMIT_STAT_PENDING]
  exact ⟨rfl, rfl, rfl, rfl, rfl, hcommit, herr, hcode, hpend⟩

/-- A due immediate commit that passes (R48, R50, R574). -/
theorem exec_immediateCommit_passes (hl : Says.noLink s) (hs : s.pwr.slot = []) (hd : s.immediateDue = true) (hf : s.commitFails = []) :
    ∃ t, exec .immediateCommit s = .next t ∧ (∀ o ∈ stgWords, t.forceWord o = s.word o) ∧
      t.word R.PERIOD_ACT_INT = s.word R.PERIOD_INT ∧ t.word R.PERIOD_ACT_FRAC = s.word R.PERIOD_FRAC ∧ t.str.stage = [] ∧
      t.str.stageSub = [] ∧ t.red.stage = [] ∧ t.beat.commit = none ∧ t.bit R.COMMIT_STAT_DONE = true ∧
      t.bit R.COMMIT_STAT_PENDING = false := by
  have h := commitRun_passes hf
  obtain ⟨hin, hun⟩ := doneOver_inForce (s := s) none
  obtain ⟨hdone, hpend, hcommit⟩ := doneOver_bits (s := s) none
  have ht := hin.stays h
  have hu := hun.stays h
  refine ⟨_, exec_immediateCommit hd (noLink_of_fpStat hl ht.link) (ht.slot.trans hs),
    fun x hx => (congrArg (mget wordReset · x) (State.settle_force _)).trans (ht.force x hx), ?_⟩
  rw [State.settle_word, State.settle_word, State.settle_str, State.settle_red, State.settle_beat, State.settle_bit, State.settle_bit,
    h.beat, h.bit R.COMMIT_STAT_DONE, h.bit R.COMMIT_STAT_PENDING]
  exact ⟨ht.periodInt, ht.periodFrac, hu.stage, hu.stageSub, hu.redStage, hcommit, hdone, hpend⟩

/-! ### The rows together -/

/-- A GO that makes a request shows in it and in PENDING. -/
theorem exec_commitGo_pend {v : Reg32} (h0 : v.getLsbD 0 = true) (h2 : v.getLsbD 2 = false) {c : CommitReq} (hg : s.commitGo (v.getLsbD 1) = s.pend c) :
    ∃ t, exec (.commitGo v) s = .next t ∧ Says.beatOnly s t commitWords ∧ t.beat = { s.beat with commit := some c } ∧
      t.bit R.COMMIT_STAT_PENDING = true := by
  refine ⟨_, exec_commitGo h0 h2, ?_⟩
  rw [hg, State.settle_beat, State.settle_bit]
  exact ⟨pend_wroteIn.beatOnly, State.wr_beat _ _ _, bit_pend⟩

/-- GO without AT of a beat that runs (R46). -/
theorem exec_commitGo_edge {v : Reg32} (h0 : v.getLsbD 0 = true) (h2 : v.getLsbD 2 = false) (hp : s.bit R.COMMIT_STAT_PENDING = false)
    (hc : ∀ p, s.planChanges p = false) (hs : s.beat.phase ≠ .stopped) (hf : s.beat.first = none) (hu : 0 < s.periodU)
    (h1 : v.getLsbD 1 = false) : ∃ t c k, exec (.commitGo v) s = .next t ∧ Says.beatOnly s t commitWords ∧
      t.beat = { s.beat with commit := some c } ∧ Says.firstOnGrid s (s.time + 2000 * nsU) k ∧
      c.target = s.beat.num + BitVec.ofNat 48 k ∧ c.immediate = false ∧ t.bit R.COMMIT_STAT_PENDING = true := by
  obtain ⟨k, hk, hg⟩ := gridFrom_firstOnGrid hu (s.time + 2000 * nsU)
  have he : s.edgeFrom (s.time + 2000 * nsU) = s.gridFrom (s.time + 2000 * nsU) := by
    unfold State.edgeFrom
    rw [hf]
  obtain ⟨t, ht, hb, hcm, hbit⟩ := exec_commitGo_pend h0 h2 ((congrArg s.commitGo h1).trans (commitGo_edge hp hc hs))
  exact ⟨t, _, k, ht, hb, hcm, hk, by rw [he, hg], rfl, hbit⟩

theorem exec_commitGo_pending {v : Reg32} (h0 : v.getLsbD 0 = true) (h2 : v.getLsbD 2 = false) (hp : s.bit R.COMMIT_STAT_PENDING = true) :
    ∃ t, exec (.commitGo v) s = .next t ∧ Says.regsOnly s t commitWords ∧ t.bit R.COMMIT_STAT_IGNORED = true ∧
      t.bit R.BEAT_INT_STAT_IGNORED = true ∧ t.bit R.COMMIT_STAT_PENDING = s.bit R.COMMIT_STAT_PENDING := by
  refine ⟨_, exec_commitGo h0 h2, ?_⟩
  rw [commitGo_pending hp]
  exact ignored_settle

/-- AT of an edge too near (R49). -/
theorem exec_commitGo_late {v : Reg32} (h0 : v.getLsbD 0 = true) (h2 : v.getLsbD 2 = false) (hp : s.bit R.COMMIT_STAT_PENDING = false)
    (hs : s.beat.phase ≠ .stopped) (h1 : v.getLsbD 1 = true)
    (hl : s.edgeAt (BitVec.ofNat 48 (s.rdW R.COMMIT_AT_HI % 65536 * 2 ^ 32 + s.rdW R.COMMIT_AT_LO)) < s.time + 2000 * nsU) :
    ∃ t, exec (.commitGo v) s = .next t ∧ Says.regsOnly s t commitWords ∧ t.rd R.COMMIT_STAT_CODE = 6 ∧
      t.bit R.COMMIT_STAT_ERR = true ∧ t.bit R.BEAT_INT_STAT_COMMIT_ERR = true ∧
      t.rd R.COMMIT_STAT_BEAT = s.beat.num.toNat % 65536 ∧ t.bit R.COMMIT_STAT_PENDING = false := by
  refine ⟨_, exec_commitGo h0 h2, ?_⟩
  obtain ⟨hcode, herr, hint, hbeat, hpend⟩ := failedAtOnce_bits hp s.beat.num.toNat
  rw [h1, commitGo_late hp hs hl, State.settle_rd, State.settle_bit, State.settle_bit, State.settle_rd, State.settle_bit]
  exact ⟨(failedAtOnce_wroteIn _).regsOnly (failedAtOnce_beat _), hcode, herr, hint, hbeat, hpend⟩

theorem exec_commitCancel_cutoff {v : Reg32} (h0 : v.getLsbD 0 = false) (h2 : v.getLsbD 2 = true) (hc : s.cutoff = true) :
    ∃ t, exec (.commitCancel v) s = .next t ∧ Says.regsOnly s t commitWords ∧ t.bit R.COMMIT_STAT_IGNORED = true ∧
      t.bit R.BEAT_INT_STAT_IGNORED = true ∧ t.bit R.COMMIT_STAT_PENDING = s.bit R.COMMIT_STAT_PENDING := by
  refine ⟨_, exec_commitCancel h0 h2, ?_⟩
  rw [commitCancel_cutoff hc]
  exact ignored_settle

theorem exec_commitCancel_alone {v : Reg32} (h0 : v.getLsbD 0 = false) (h2 : v.getLsbD 2 = true) (hc : s.beat.commit = some c)
    (hcut : s.cutoff = false) (hr : s.role = roleAlone)
    (hp : ∀ p, (s.port p).bind = none ∧ ∀ x, (s.port p).plan = some x → x.byCommit = false) :
    ∃ t, exec (.commitCancel v) s = .next t ∧ Says.beatOnly s t commitWords ∧ t.beat = { s.beat with commit := none } ∧
      t.bit R.COMMIT_STAT_PENDING = false := by
  refine ⟨_, exec_commitCancel h0 h2, ?_⟩
  rw [commitCancel_alone hc hcut hr hp, State.settle_beat, State.settle_bit]
  exact ⟨commitOver_wroteIn.beatOnly, (State.wr_beat _ _ _).trans (State.wr_beat _ _ _), bit_commitOver⟩

/-- Settles O37: each row meets the rule that its state brings; the work of a commit that passes is followed through the reductions,
the journal and the fabric by what it leaves alone. -/
theorem commitResults : Obligations.CommitResults := by
  intro s hl hs ws ignored named
  refine ⟨fun v h0 h2 => ⟨fun hp => ?pending, fun hp hc => ⟨fun hst => ?stopped, fun hst hf hu h1 => ?edge, fun hst h1 hlate => ?late⟩⟩,
    fun v h0 h2 => ⟨fun hn => ?none, fun hcut => ?cutoff, fun c hc hcut hr hp => ?cancel⟩,
    fun c hc => ⟨fun hi hst ht => exec_commitCutoff hc hi hst ht, fun hd hf => exec_immediateCommit_fails hl hs hd hf,
      fun hd hf => exec_immediateCommit_passes hl hs hd hf, fun code hr => exec_periodRefuse hc hr code⟩,
    fun x hx => exec_periodCancel hx,
    fun a b n => ⟨fun hr => exec_period_other hr a b n, fun hr _ => exec_period_member hr a b n⟩⟩
  case pending => exact exec_commitGo_pending h0 h2 hp
  case stopped =>
    obtain ⟨t, ht, hb, hcm, hbit⟩ := exec_commitGo_pend h0 h2 (commitGo_stopped hp hc hst (v.getLsbD 1))
    exact ⟨t, _, ht, hb, hcm, rfl, rfl, hbit⟩
  case edge => exact exec_commitGo_edge h0 h2 hp hc hst hf hu h1
  case late => exact exec_commitGo_late h0 h2 hp hst h1 hlate
  case none =>
    refine ⟨_, exec_commitCancel h0 h2, ?_⟩
    rw [commitCancel_none hn]
    exact regsOnly_settle s rfl (words_refl s [])
  case cutoff => exact exec_commitCancel_cutoff h0 h2 hcut
  case cancel => exact exec_commitCancel_alone h0 h2 hc hcut hr hp

end Sys2Proof.Machine

/-! PROOFS. Bertia 0x02xx (R85, R114, R127 to R131): contexts staged, read and cleared, subscriber lists and their lowest free run, templates,
gap scans. -/

namespace Sys2Proof.Machine

open Sys2Proof

-- One proof after another, as in the tests: theorems checked side by side need more threads than the check's memory limit allows.
set_option Elab.async false

variable {s t u v x : State} {h : BHdr} {len most : Nat} {i n : Nat} {l : List Long}

/-! ### Maps and lists -/

theorem length_insertKey_le {α : Type} (m : SMap α) (k : Nat) (w : α) : (insertKey m k w).length ≤ m.length + 1 := by
  induction m with
  | nil => exact le_rfl
  | cons e r ih =>
    obtain ⟨j, y⟩ := e
    unfold insertKey
    split
    · exact le_rfl
    · split
      · exact Nat.le_succ _
      · exact Nat.succ_le_succ ih

/-- Writing what is not the default is an entry of the list. -/
theorem mset_some {α : Type} [DecidableEq α] (m : SMap (Option α)) (k : Nat) (w : α) :
    mset (fun _ => none) m k (some w) = insertKey m k (some w) := if_neg (Option.some_ne_none w)

theorem listSet_eq_set {α : Type} (m : List α) (k : Nat) (w : α) : listSet m k w = m.set k w := by
  induction m generalizing k with
  | nil => rfl
  | cons y r ih => cases k with
    | zero => rfl
    | succ k => exact congrArg (y :: ·) (ih k)

/-- A map without the entries of some keys reads there as the default, and elsewhere as before. -/
theorem mget_filter_key {α : Type} (d : Nat → α) (m : SMap α) (p : Nat → Bool) (k : Nat) :
    mget d (m.filter (fun e => p e.1)) k = if p k = true then mget d m k else d k := by
  unfold mget
  induction m with
  | nil => exact (ite_self _).symm
  | cons e r ih =>
    obtain ⟨j, y⟩ := e
    by_cases hj : p j = true
    · rw [List.filter_cons_of_pos (by exact hj)]
      by_cases hk : k = j
      · subst hk
        simp [lookup, hj]
      · simp only [lookup, if_neg hk]
        exact ih
    · rw [List.filter_cons_of_neg (by exact hj), ih]
      by_cases hk : k = j
      · subst hk
        simp [hj]
      · simp [lookup, hk]

/-! ### A command of the streams -/

namespace State.Taken

/-- Taking a command touches no stream. -/
theorem str (hx : s.Taken h s x) : x.str = s.str := by
  obtain ⟨r, z, rfl⟩ := hx.shape
  rfl

theorem red (hx : s.Taken h s x) : x.red = s.red := by
  obtain ⟨r, z, rfl⟩ := hx.shape
  rfl

theorem pendingCommit (hx : s.Taken h s x) : x.pendingCommit = s.bit R.COMMIT_STAT_PENDING := congrArg (· != 0) (hx.rd R.COMMIT_STAT_PENDING)

end State.Taken

/-- A command of the streams that answers with an effect on them: the effect as seen on s. -/
theorem completes_str (hf : Says.framed s h len most) {ins : Instr} {act : State → Reply} {st : Nat} {data : List Octet}
    (hexec : exec ins s = bertiaRow h { len := len, maxData := most } act s) (f : Streams → Streams)
    (hact : act (s.taken h) = .now st data ((s.taken h).onStr f)) (hlen : data.length ≤ 48) :
    Says.completes ins s h st data { s with str := f s.str } := by
  have hnew := completes_effect hf hexec hact rfl rfl rfl id hlen
  obtain ⟨r, z, hs⟩ := (taken_taken hf).shape
  rw [hs] at hnew
  exact hnew

/-- What a command that has run shows of the streams. -/
theorem runs_str {st : Nat} {data : List Octet} (hr : Says.runs s t h st data u) : t.str = u.str := by
  rw [hr.1]

/-! ### Staging commands (R129) -/

theorem staging_bad {ok : Bool} (hok : ok = false) (act : Reply) : s.staging ok act = .now stBadParam [] s := by
  rw [hok]
  rfl

theorem staging_busy {ok : Bool} (hok : ok = true) (hp : s.pendingCommit = true) (act : Reply) : s.staging ok act = .now stBusy [] s := by
  unfold State.staging
  rw [hok, hp]
  rfl

theorem staging_acts {ok : Bool} (hok : ok = true) (hp : s.pendingCommit = false) (act : Reply) : s.staging ok act = act := by
  unfold State.staging
  rw [hok, hp]
  rfl

/-! ### Staged contexts (R130) -/

/-- The longs staged of context i from a payload: SUB_IDX, SUB_CNT and TEDS_REF are those in force. -/
def State.ctxForm (s : State) (i : Nat) (l : List Long) : List Long := (l.set 6 (s.ctxL i 6)).set 7 (s.ctxL i 7)

/-- Long 6 of context i as staged: the last SUB_SET's, or that in force. -/
def State.subLong (s : State) (i : Nat) : Long :=
  match mget (fun _ => none) s.str.stageSub i with
  | some e => BitVec.ofNat 40 (e.1 * 512 + e.2.length)
  | none => s.ctxL i 6

theorem stagedLongs_eq (i : Nat) : s.stagedLongs i = ((mget (fun _ => none) s.str.stage i).getD (s.cfgLongs i)).set 6 (s.subLong i) := by
  unfold State.stagedLongs State.subLong
  dsimp only
  split <;> simp only [listSet_eq_set, *]

/-- What is staged of the reductions is empty, and stays so. -/
theorem onRed_stage_nil (hs : s.red.stage = []) (f : RStage → RStage) : s.onRed (fun z => { z with stage := z.stage.map f }) = s := by
  have hr : { s.red with stage := s.red.stage.map f } = s.red := by
    rw [hs, List.map_nil, ← hs]
  unfold State.onRed
  dsimp only
  rw [hr]

/-- With nothing staged of the reductions staging a context changes the stage buffer's entry of it alone. -/
theorem stageCtx_eq (hs : s.red.stage = []) (i : Nat) (l : List Long) :
    s.stageCtx i l = s.onStr (fun z => { z with stage := mset (fun _ => none) z.stage i (some (s.ctxForm i l)) }) := by
  unfold State.stageCtx State.ctxForm
  dsimp only
  rw [listSet_eq_set, listSet_eq_set]
  exact onRed_stage_nil (s := s.onStr _) hs _

/-- t is s with the stage buffer st of contexts. -/
def State.restaged (s : State) (st : SMap (Option (List Long))) : State := s.onStr (fun z => { z with stage := st })

theorem stagedLongs_restaged (st : SMap (Option (List Long))) (j : Nat) :
    (s.restaged st).stagedLongs j = ((mget (fun _ => none) st j).getD (s.cfgLongs j)).set 6 (s.subLong j) := stagedLongs_eq j

theorem stagedLongs_restaged_same {st : SMap (Option (List Long))} {j : Nat}
    (hj : mget (fun _ => none) st j = mget (fun _ => none) s.str.stage j) : (s.restaged st).stagedLongs j = s.stagedLongs j := by
  rw [stagedLongs_restaged, hj, stagedLongs_eq]

/-- A context staged reads as its payload, but for longs 6 and 7. -/
theorem getElem?_stagedLongs {st : SMap (Option (List Long))} {j : Nat} (hj : mget (fun _ => none) st j = some (s.ctxForm j l))
    (hl : l.length = 10) {k : Nat} (hk : k < 10) : ((s.restaged st).stagedLongs j)[k]? =
      if k = 6 then some (s.subLong j) else if k = 7 then some (s.ctxL j 7) else l[k]? := by
  rw [stagedLongs_restaged, hj, Option.getD_some]
  unfold State.ctxForm
  by_cases h6 : k = 6
  · subst h6
    simp [hl]
  · by_cases h7 : k = 7
    · subst h7
      simp [hl]
    · rw [List.getElem?_set_ne (Ne.symm h6), List.getElem?_set_ne (Ne.symm h7), List.getElem?_set_ne (Ne.symm h6), if_neg h6, if_neg h7]

/-- Contexts first, first + 1, ... staged with the longs f 0, f 1, ... -/
def State.stageRun (s : State) (first : Nat) (f : Nat → List Long) (n : Nat) : State :=
  (List.range n).foldl (fun u k => u.stageCtx (first + k) (f k)) s

/-- The stage buffer after such a run. -/
theorem stageRun_eq (hs : s.red.stage = []) (first : Nat) (f : Nat → List Long) (n : Nat) :
    ∃ st, s.stageRun first f n = s.restaged st ∧ st.length ≤ s.str.stage.length + n ∧
      ∀ k, k < n → mget (fun _ => none) st (first + k) = some (s.ctxForm (first + k) (f k)) := by
  induction n with
  | zero => exact ⟨s.str.stage, rfl, le_rfl, nofun⟩
  | succ n ih =>
    obtain ⟨st, he, hlen, hst⟩ := ih
    refine ⟨insertKey st (first + n) (some (s.ctxForm (first + n) (f n))), ?_, ?_, fun k hk => ?_⟩
    · unfold State.stageRun at he ⊢
      rw [List.range_succ, List.foldl_append, he, List.foldl_cons, List.foldl_nil, stageCtx_eq (show (s.restaged st).red.stage = [] from hs),
        ← mset_some]
      rfl
    · exact (length_insertKey_le _ _ _).trans (by omega)
    · rw [← mset_some, mget_mset]
      split
      · next e =>
        obtain rfl : k = n := by omega
        rfl
      · exact hst k (by omega)

/-! ### CTX_STAGE and CTX_STAGE_RANGE -/

theorem stageUsed_restaged_le {st : SMap (Option (List Long))} (hst : st.length ≤ s.str.stage.length + n)
    (hroom : s.stageUsed + n ≤ stageMax) : ¬ stageMax < (s.restaged st).stageUsed := by
  have hu : (s.restaged st).stageUsed = st.length + (s.red.stage.filter (fun x => !x.ptr)).length + s.red.qStage.length + s.red.extra := rfl
  unfold State.stageUsed at hroom
  omega

theorem ctxStage_bad (hi : 262144 ≤ i ∨ l.length ≠ 10) : s.ctxStage i l = .now stBadParam [] s := by
  refine staging_bad ?_ _
  rcases hi with hi | hi
  · simp [ctxCount, Nat.not_lt.mpr hi]
  · simp [hi]

theorem ctxStage_ok (hi : i < 262144) (hl : l.length = 10) : (decide (i < ctxCount) && l.length == 10) = true := by
  simp [ctxCount, hi, hl]

theorem ctxStage_staged (hi : i < 262144) (hl : l.length = 10) (hp : s.pendingCommit = false) (hs : s.red.stage = [])
    (hroom : s.stageUsed < 4096) : ∃ st, s.ctxStage i l = .now stOk [] (s.restaged st) ∧
      mget (fun _ => none) st i = some (s.ctxForm i l) ∧ ∀ j, j ≠ i → mget (fun _ => none) st j = mget (fun _ => none) s.str.stage j := by
  refine ⟨mset (fun _ => none) s.str.stage i (some (s.ctxForm i l)), ?_, mget_mset_self _ _ _ _, fun j hj => mget_mset_ne _ _ _ _ _ hj⟩
  unfold State.ctxStage
  rw [staging_acts (ctxStage_ok hi hl) hp, stageCtx_eq hs]
  refine if_neg (stageUsed_restaged_le (n := 1) ?_ hroom)
  rw [mset_some]
  exact length_insertKey_le _ _ _

/-- Context k of a range: BASE and, of an IN or OUT context, CHANNEL risen k strides (R130). -/
def rangeForm (l : List Long) (stride ch k : Nat) : List Long :=
  let c := decodeCtx l
  let l2 := listSet l 2 (withBits (l.getD 2 0) 21 19 (c.base + k * stride))
  if c.ctype = tyIn ∨ c.ctype = tyOut then listSet l2 1 (withBits (l.getD 1 0) 24 12 (c.channel + k * ch)) else l2

theorem length_rangeForm (stride ch k : Nat) : (rangeForm l stride ch k).length = l.length := by
  unfold rangeForm
  dsimp only
  split <;> simp only [listSet_eq_set, List.length_set]

theorem getElem?_rangeForm (hl : l.length = 10) (stride ch k j : Nat) : (rangeForm l stride ch k)[j]? =
    if j = 2 then some (withBits (l.getD 2 0) 21 19 ((decodeCtx l).base + k * stride))
    else if j = 1 ∧ ((decodeCtx l).ctype = tyIn ∨ (decodeCtx l).ctype = tyOut) then
      some (withBits (l.getD 1 0) 24 12 ((decodeCtx l).channel + k * ch)) else l[j]? := by
  unfold rangeForm
  dsimp only
  by_cases h2 : j = 2
  · subst h2
    split <;> simp [listSet_eq_set, hl]
  · by_cases h1 : j = 1
    · subst h1
      split <;> simp [listSet_eq_set, *]
    · split <;> simp [listSet_eq_set, h1, Ne.symm h1, Ne.symm h2]

/-- What CTX_STAGE_RANGE asks of its operands. -/
def rangeOk (first count stride ch : Nat) (l : List Long) : Bool :=
  l.length == 10 && decide (1 ≤ count ∧ count ≤ 4096 ∧ first + count ≤ ctxCount)
    && !(decide ((decodeCtx l).ctype = tyIn ∨ (decodeCtx l).ctype = tyOut) && decide (4095 < (decodeCtx l).channel + (count - 1) * ch))
    && decide ((decodeCtx l).base + (count - 1) * stride < 524288)

theorem ctxStageRange_eq (first count stride ch : Nat) : s.ctxStageRange first count stride ch l =
    s.staging (rangeOk first count stride ch l) (if stageMax < (s.stageRun first (rangeForm l stride ch) count).stageUsed then .now stNoSpace [] s
      else .now stOk [] (s.stageRun first (rangeForm l stride ch) count)) := rfl

theorem ctxStageRange_bad {first count stride ch : Nat} (hbad : 2 ^ 19 ≤ (decodeCtx l).base + (count - 1) * stride ∨
    ((decodeCtx l).ctype = tyIn ∨ (decodeCtx l).ctype = tyOut) ∧ 4095 < (decodeCtx l).channel + (count - 1) * ch) :
    s.ctxStageRange first count stride ch l = .now stBadParam [] s := by
  refine staging_bad (ok := rangeOk first count stride ch l) ?_ _
  unfold rangeOk
  rcases hbad with hb | ⟨hio, hc⟩
  · rw [decide_eq_false (p := _ < 524288) (Nat.not_lt.mpr hb), Bool.and_false]
  · rw [decide_eq_true hio, decide_eq_true hc]
    simp

theorem ctxStageRange_staged {first count stride ch : Nat} (hl : l.length = 10) (h1 : 1 ≤ count) (hmax : count ≤ 4096)
    (hend : first + count ≤ 262144) (hb : (decodeCtx l).base + (count - 1) * stride < 2 ^ 19)
    (hc : (decodeCtx l).ctype = tyIn ∨ (decodeCtx l).ctype = tyOut → (decodeCtx l).channel + (count - 1) * ch ≤ 4095)
    (hp : s.pendingCommit = false) (hs : s.red.stage = []) (hroom : s.stageUsed + count ≤ 4096) :
    ∃ st, s.ctxStageRange first count stride ch l = .now stOk [] (s.restaged st) ∧
      ∀ k, k < count → mget (fun _ => none) st (first + k) = some (s.ctxForm (first + k) (rangeForm l stride ch k)) := by
  obtain ⟨st, he, hlen, hst⟩ := stageRun_eq hs first (rangeForm l stride ch) count
  have hok : rangeOk first count stride ch l = true := by
    unfold rangeOk
    simp only [Bool.and_eq_true, Bool.not_eq_true', Bool.and_eq_false_iff, decide_eq_true_eq, decide_eq_false_iff_not, beq_iff_eq]
    refine ⟨⟨⟨hl, h1, hmax, hend⟩, ?_⟩, hb⟩
    by_cases hio : (decodeCtx l).ctype = tyIn ∨ (decodeCtx l).ctype = tyOut
    · exact Or.inr (Nat.not_lt.mpr (hc hio))
    · exact Or.inl hio
  refine ⟨st, ?_, hst⟩
  rw [ctxStageRange_eq, staging_acts hok hp, he, if_neg (stageUsed_restaged_le hlen hroom)]


/-! ### SUB_SET -/

/-- Entries of a stage buffer of subscriber lists. -/
def subEntries (m : SMap (Option (Nat × List Long))) : Nat :=
  (m.map (fun e => match e.2 with
    | some (_, l) => l.length
    | none => 0)).sum

theorem stageSubUsed_eq : s.stageSubUsed = subEntries s.str.stageSub := (List.sum_eq_foldl).symm

/-- A list for a context without one adds its entries. -/
theorem subEntries_insertKey (m : SMap (Option (Nat × List Long))) (k : Nat) (e : Nat × List Long) (hk : mget (fun _ => none) m k = none) :
    subEntries (insertKey m k (some e)) = subEntries m + e.2.length := by
  unfold mget at hk
  unfold subEntries
  induction m with
  | nil => simp [insertKey]
  | cons f r ih =>
    obtain ⟨j, y⟩ := f
    unfold insertKey
    by_cases hj : k = j
    · subst hj
      have hy : y = none := by simpa [lookup] using hk
      simp [hy, Nat.add_comm]
    · have hr := ih (by simpa [lookup, hj] using hk)
      rw [if_neg hj]
      split
      · simp [Nat.add_comm]
      · rw [List.map_cons, List.sum_cons, hr, List.map_cons, List.sum_cons, Nat.add_assoc]

/-- The subscriber lists staged once context i has list l from entry k on. -/
def State.subPut (s : State) (i k : Nat) (l : List Long) : SMap (Option (Nat × List Long)) :=
  mset (fun _ => none) s.str.stageSub i (some (k, l))

/-- SUB_SET with room in the stage buffer. -/
theorem subSet_put {k : Nat} (hi : i < 262144) (hl : l.length ≤ 256) (hp : s.pendingCommit = false)
    (hnew : mget (fun _ => none) s.str.stageSub i = none) (hroom : s.stageSubUsed + l.length ≤ 16384)
    (hk : (l = [] ∧ k = 0) ∨ (l ≠ [] ∧ l.length ≤ (s.cfg i).subCnt ∧ k = (s.cfg i).subIdx) ∨
      (l ≠ [] ∧ (s.cfg i).subCnt < l.length ∧ lowestRun (s.subRanges i) l.length = some k)) :
    s.subSet i l = .now stOk (Says.num 4 k) (s.onStr (fun z => { z with stageSub := s.subPut i k l })) := by
  have hfits : ¬ stageSubMax < (s.onStr (fun z => { z with stageSub := s.subPut i k l })).stageSubUsed := by
    have hused : (s.onStr (fun z => { z with stageSub := s.subPut i k l })).stageSubUsed = s.stageSubUsed + l.length := by
      rw [stageSubUsed_eq, stageSubUsed_eq]
      exact (congrArg subEntries (mset_some _ _ _)).trans (subEntries_insertKey _ _ _ hnew)
    rw [hused]
    exact Nat.not_lt.mpr hroom
  unfold State.subSet
  extract_lets put
  have hput : put k = .now stOk (Says.num 4 k) (s.onStr (fun z => { z with stageSub := s.subPut i k l })) := if_neg hfits
  rw [staging_acts (by simp [ctxCount, hi, hl]) hp]
  rcases hk with ⟨rfl, rfl⟩ | ⟨hne, hle, rfl⟩ | ⟨hne, hlt, hrun⟩
  · exact hput
  · rw [if_neg (by simpa using hne), if_pos hle, hput]
  · rw [if_neg (by simpa using hne), if_neg (by omega), hrun]
    exact hput

/-- A run of n entries from a on lies in the table and meets no range. -/
def FreeRun (used : List (Nat × Nat)) (n a : Nat) : Prop := a + n ≤ 65536 ∧ ∀ r ∈ used, a + n ≤ r.1 ∨ r.1 + r.2 ≤ a

/-- The lowest free run starts at the table's start or where a range ends. -/
theorem freeRun_start {used : List (Nat × Nat)} {n a : Nat} (ha : FreeRun used n a) (hmin : ∀ j, j < a → ¬ FreeRun used n j) :
    a ∈ 0 :: used.map (fun u => u.1 + u.2) := by
  rcases Nat.eq_zero_or_pos a with rfl | hpos
  · exact List.mem_cons_self
  · obtain ⟨htab, hfree⟩ := ha
    have hlast := hmin (a - 1) (by omega)
    simp only [FreeRun, not_and, not_forall] at hlast
    obtain ⟨r, hr, hmeets⟩ := hlast (by omega)
    refine List.mem_cons_of_mem _ (List.mem_map.mpr ⟨r, hr, ?_⟩)
    have := hfree r hr
    omega

/-- The smallest of a list of numbers, as a fold finds it. -/
theorem foldl_min_spec (l : List Nat) : ∀ m : Option Nat, (∃ b, m = some b) ∨ l ≠ [] →
    ∃ k, l.foldl (fun m a => match m with
      | some b => some (min a b)
      | none => some a) m = some k ∧ (m = some k ∨ k ∈ l) ∧ (∀ b, m = some b → k ≤ b) ∧ ∀ a ∈ l, k ≤ a := by
  induction l with
  | nil =>
    rintro m (⟨b, rfl⟩ | h)
    · exact ⟨b, rfl, Or.inl rfl, fun c hc => (Option.some.inj hc).le, nofun⟩
    · exact absurd rfl h
  | cons x l ih =>
    intro m _
    obtain ⟨y, hy⟩ : ∃ y, y = (match m with
      | some b => min x b
      | none => x) := ⟨_, rfl⟩
    obtain ⟨k, hk, hmem, hle, hall⟩ := ih (some y) (Or.inl ⟨y, rfl⟩)
    have hky := hle y rfl
    have hyx : y ≤ x ∧ (∀ b, m = some b → y ≤ b) ∧ (m = some y ∨ y = x) := by
      cases m with
      | none => exact ⟨hy.le, nofun, Or.inr hy⟩
      | some b =>
        refine ⟨hy ▸ min_le_left _ _, fun c hc => Option.some.inj hc ▸ hy ▸ min_le_right _ _, ?_⟩
        rcases min_choice x b with h | h
        · exact Or.inr (hy.trans h)
        · exact Or.inl (congrArg some (h ▸ hy.symm))
    obtain ⟨hyx, hyb, hyeq⟩ := hyx
    refine ⟨k, ?_, ?_, fun b hb => hky.trans (hyb b hb), fun a ha => ?_⟩
    · rw [← hk, hy]
      cases m <;> rfl
    · rcases hmem with h | h
      · obtain rfl : y = k := Option.some.inj h
        rcases hyeq with h | rfl
        · exact Or.inl h
        · exact Or.inr List.mem_cons_self
      · exact Or.inr (List.mem_cons_of_mem _ h)
    · rcases List.mem_cons.mp ha with rfl | ha
      · exact hky.trans hyx
      · exact hall a ha

/-- Where a run is free the lowest is found. -/
theorem lowestRun_spec {used : List (Nat × Nat)} {n : Nat} (h : ∃ k, FreeRun used n k) :
    ∃ k, lowestRun used n = some k ∧ FreeRun used n k ∧ ∀ j, j < k → ¬ FreeRun used n j := by
  classical
  obtain ⟨k0, hk0, hmin⟩ : ∃ k0, FreeRun used n k0 ∧ ∀ j, j < k0 → ¬ FreeRun used n j := ⟨Nat.find h, Nat.find_spec h, fun j hj => Nat.find_min h hj⟩
  have hiff : ∀ a, (decide (a + n ≤ 65536) && used.all (fun u => decide (a + n ≤ u.1 ∨ u.1 + u.2 ≤ a))) = true ↔ FreeRun used n a := fun a => by
    simp [FreeRun]
  have hmem : k0 ∈ (0 :: used.map (fun u => u.1 + u.2)).filter
      (fun a => decide (a + n ≤ 65536) && used.all (fun u => decide (a + n ≤ u.1 ∨ u.1 + u.2 ≤ a))) :=
    List.mem_filter.mpr ⟨freeRun_start hk0 hmin, (hiff k0).mpr hk0⟩
  obtain ⟨k, hk, hin, -, hall⟩ := foldl_min_spec _ none (Or.inr (List.ne_nil_of_mem hmem))
  have hfree : FreeRun used n k := by
    rcases hin with hin | hin
    · cases hin
    · exact (hiff k).mp (List.mem_filter.mp hin).2
  exact ⟨k, hk, hfree, fun j hj => hmin j (hj.trans_le (hall k0 hmem))⟩

/-! ### Contexts read and cleared -/

theorem ctxRead_inForce (hi : i < 262144) :
    s.ctxRead i 0 = .now stOk (Says.longs ((List.range 16).map (s.ctxL i))) s := by
  have hlongs : s.cfgLongs i ++ (List.range 6).map (fun k => s.ctxL i (10 + k)) = (List.range 16).map (s.ctxL i) := rfl
  unfold State.ctxRead
  dsimp only
  rw [if_neg (show ¬ (ctxCount ≤ i ∨ 1 < 0) by unfold ctxCount; omega), if_neg (show ¬ (0 = 1) by decide), hlongs]
  rfl

theorem length_num (n v : Nat) : (Says.num n v).length = n := by simp [Says.num]

theorem length_longs (l : List Long) : (Says.longs l).length = 5 * l.length := by
  induction l with
  | nil => rfl
  | cons v l ih =>
    have hcons : Says.longs (v :: l) = Says.num 5 v.toNat ++ Says.longs l := rfl
    rw [hcons, List.length_append, ih, length_num, List.length_cons]
    omega

/-- Is key k of the context table one of longs 10 to 12 of n contexts from a on? -/
def cleared (a n k : Nat) : Bool := decide (a ≤ k / 16 ∧ k / 16 < a + n ∧ 10 ≤ k % 16 ∧ k % 16 ≤ 12)

theorem ctxClear_eq {a : Nat} (h1 : 1 ≤ n) (hend : a + n ≤ 262144) :
    s.ctxClear a n = .now stOk [] (s.onStr (fun z => { z with ctx := z.ctx.filter (fun e => !cleared a n e.1) })) :=
  if_neg (by
    unfold ctxRange ctxCount
    simp only [Bool.not_eq_true', decide_eq_false_iff_not, not_not]
    omega)

theorem ctxL_cleared (a n i : Nat) {k : Nat} (hk : k < 16) :
    (s.onStr (fun z => { z with ctx := z.ctx.filter (fun e => !cleared a n e.1) })).ctxL i k =
      if a ≤ i ∧ i < a + n ∧ 10 ≤ k ∧ k ≤ 12 then 0 else s.ctxL i k := by
  have hdiv : (16 * i + k) / 16 = i ∧ (16 * i + k) % 16 = k := by omega
  have hget := mget_filter_key ctxLongReset s.str.ctx (fun x => !cleared a n x) (16 * i + k)
  unfold cleared at hget
  simp only [hdiv] at hget
  refine hget.trans ?_
  by_cases hc : a ≤ i ∧ i < a + n ∧ 10 ≤ k ∧ k ≤ 12
  · rw [if_pos hc, if_neg (by simpa using hc)]
    unfold ctxLongReset
    rw [hdiv.2, if_neg (by omega), if_neg (by omega), if_neg (by omega)]
  · rw [if_neg hc, if_pos (by rw [decide_eq_false hc]; rfl)]
    rfl

/-- A range without gap beats has none to report. -/
theorem gapScan_none {a most : Nat} (h1 : 1 ≤ n) (hend : a + n ≤ 262144) (hmost : 1 ≤ most) (hmax : most ≤ 1024)
    (hkeys : (s.str.ctx.map (·.1)).Nodup) (hgap : ∀ i, a ≤ i → i < a + n → bitsOf (s.ctxL i 10) 20 20 = 0) :
    s.gapScan a n most = .now stOk (Says.num 4 0) s := by
  have hnone : s.str.ctx.filterMap (fun e => if e.1 % 16 = 10 ∧ a ≤ e.1 / 16 ∧ e.1 / 16 < a + n ∧ bitsOf e.2 20 20 ≠ 0 then
      some (e.1 / 16, bitsOf e.2 20 20) else none) = [] := by
    rw [List.filterMap_eq_nil_iff]
    rintro ⟨k, y⟩ he
    refine if_neg ?_
    rintro ⟨hk, hlo, hhi, hne⟩
    dsimp only at hk hlo hhi hne
    have hlong : s.ctxL (k / 16) 10 = y := by
      unfold State.ctxL mget
      rw [show 16 * (k / 16) + 10 = k by omega, lookup_of_nodup _ _ _ hkeys he]
      rfl
    exact hne (hlong ▸ hgap _ hlo hhi)
  unfold State.gapScan
  rw [if_neg (by
    unfold ctxRange ctxCount
    simp only [Bool.not_eq_true', decide_eq_false_iff_not, not_or, not_not]
    omega)]
  dsimp only
  rw [hnone, List.take_nil]
  rfl


/-! ### As commands -/

theorem framed_mono {most' : Nat} (hf : Says.framed s h len most) (hm : most' ≤ 48 ∨ most' ≤ most) : Says.framed s h len most' := by
  obtain ⟨hch, hcan, hrec, hver, htag, hzero, haddr, hind, hdma, hlen, hroom, hrest⟩ := hf
  exact ⟨hch, hcan, hrec, hver, htag, hzero, haddr, hind, hdma, hlen, by omega, hrest⟩

theorem ctxStage_completes (i : Reg32) (l : List Long) (hf : Says.framed s h (4 + 5 * l.length)) :
    (262144 ≤ i.toNat ∨ l.length ≠ 10 → Says.completes (.ctxStage h i l) s h stBadParam [] s) ∧
    (i.toNat < 262144 → l.length = 10 →
      (s.bit R.COMMIT_STAT_PENDING = true → Says.completes (.ctxStage h i l) s h stBusy [] s) ∧
      (s.bit R.COMMIT_STAT_PENDING = false → s.red.stage = [] → s.stageUsed < 4096 → ∃ t st, exec (.ctxStage h i l) s = .next t ∧
        Says.runs s t h stOk [] { s with str := { s.str with stage := st } } ∧
        (∀ k, k < 10 → (t.stagedLongs i.toNat)[k]? = if k = 6 then some (s.subLong i.toNat) else if k = 7 then some (s.ctxL i.toNat 7) else l[k]?) ∧
        ∀ j, j ≠ i.toNat → t.stagedLongs j = s.stagedLongs j)) := by
  have hT := taken_taken hf
  refine ⟨fun hbad => completes_unchanged hf (act := (·.ctxStage i.toNat l)) rfl (ctxStage_bad hbad) (by decide),
    fun hi hl => ⟨fun hp => ?_, fun hp hs hroom => ?_⟩⟩
  · exact completes_unchanged hf (act := (·.ctxStage i.toNat l)) rfl (staging_busy (ctxStage_ok hi hl) (hT.pendingCommit.trans hp) _) (by decide)
  · obtain ⟨st, hact, hget, hold⟩ := ctxStage_staged (s := s.taken h) hi hl (hT.pendingCommit.trans hp) (by rw [hT.red]; exact hs)
      (by unfold State.stageUsed; rw [hT.str, hT.red]; exact hroom)
    unfold State.ctxForm State.ctxL at hget
    rw [hT.str] at hget hold
    obtain ⟨t, ht, hr⟩ := completes_str hf (ins := .ctxStage h i l) rfl (fun z => { z with stage := st }) hact (by decide)
    have hlongs : ∀ j, t.stagedLongs j = (s.restaged st).stagedLongs j := fun j => by
      unfold State.stagedLongs State.cfgLongs State.ctxL
      rw [runs_str hr]
      rfl
    refine ⟨t, st, ht, hr, fun k hk => ?_, fun j hj => ?_⟩
    · rw [hlongs]
      exact getElem?_stagedLongs hget hl hk
    · rw [hlongs]
      exact stagedLongs_restaged_same (hold j hj)


theorem ctxStageRange_completes (i n stride : Reg32) (ch : BitVec 16) (l : List Long) (hf : Says.framed s h (16 + 5 * l.length))
    (hl : l.length = 10) (h1 : 1 ≤ n.toNat) (hmax : n.toNat ≤ 4096) (hend : i.toNat + n.toNat ≤ 262144) :
    ((decodeCtx l).base + (n.toNat - 1) * stride.toNat < 2 ^ 19 →
      ((decodeCtx l).ctype = tyIn ∨ (decodeCtx l).ctype = tyOut → (decodeCtx l).channel + (n.toNat - 1) * ch.toNat ≤ 4095) →
      s.bit R.COMMIT_STAT_PENDING = false → s.red.stage = [] → s.stageUsed + n.toNat ≤ 4096 →
      ∃ t st, exec (.ctxStageRange h i n stride ch l) s = .next t ∧
        Says.runs s t h stOk [] { s with str := { s.str with stage := st } } ∧
        ∀ k, k < n.toNat → ∀ j, j < 10 → j ≠ 6 → j ≠ 7 → (t.stagedLongs (i.toNat + k))[j]? = (rangeForm l stride.toNat ch.toNat k)[j]?) ∧
    (2 ^ 19 ≤ (decodeCtx l).base + (n.toNat - 1) * stride.toNat ∨
      ((decodeCtx l).ctype = tyIn ∨ (decodeCtx l).ctype = tyOut) ∧ 4095 < (decodeCtx l).channel + (n.toNat - 1) * ch.toNat →
      Says.completes (.ctxStageRange h i n stride ch l) s h stBadParam [] s) := by
  have hT := taken_taken hf
  refine ⟨fun hb hc hp hs hroom => ?_, fun hbad =>
    completes_unchanged hf (act := (·.ctxStageRange i.toNat n.toNat stride.toNat ch.toNat l)) rfl (ctxStageRange_bad hbad) (by decide)⟩
  obtain ⟨st, hact, hget⟩ := ctxStageRange_staged (s := s.taken h) hl h1 hmax hend hb hc (hT.pendingCommit.trans hp) (by rw [hT.red]; exact hs)
    (by unfold State.stageUsed; rw [hT.str, hT.red]; exact hroom)
  unfold State.ctxForm State.ctxL at hget
  rw [hT.str] at hget
  obtain ⟨t, ht, hr⟩ := completes_str hf (ins := .ctxStageRange h i n stride ch l) rfl (fun z => { z with stage := st }) hact (by decide)
  refine ⟨t, st, ht, hr, fun k hk j hj h6 h7 => ?_⟩
  have hlongs : t.stagedLongs (i.toNat + k) = (s.restaged st).stagedLongs (i.toNat + k) := by
    unfold State.stagedLongs State.cfgLongs State.ctxL
    rw [runs_str hr]
    rfl
  rw [hlongs, getElem?_stagedLongs (hget k hk) ((length_rangeForm _ _ _).trans hl) hj, if_neg h6, if_neg h7]

/-- SUB_SET that takes the entries from k on. -/
theorem subSet_completes (i : Reg32) (l : List Long) {k : Nat} (hf : Says.framed s h (8 + 5 * l.length) 4) (hi : i.toNat < 262144)
    (hl : l.length ≤ 256) (hp : s.bit R.COMMIT_STAT_PENDING = false) (hnew : mget (fun _ => none) s.str.stageSub i.toNat = none)
    (hroom : s.stageSubUsed + l.length ≤ 16384)
    (hk : (l = [] ∧ k = 0) ∨ (l ≠ [] ∧ l.length ≤ (s.cfg i.toNat).subCnt ∧ k = (s.cfg i.toNat).subIdx) ∨
      (l ≠ [] ∧ (s.cfg i.toNat).subCnt < l.length ∧ lowestRun (s.subRanges i.toNat) l.length = some k)) :
    Says.completes (.subSet h i l) s h stOk (Says.num 4 k) { s with str := { s.str with stageSub := s.subPut i.toNat k l } } := by
  have hT := taken_taken hf
  have hact := subSet_put (s := s.taken h) (i := i.toNat) (k := k) hi hl (hT.pendingCommit.trans hp) (by rw [hT.str]; exact hnew)
    (by unfold State.stageSubUsed; rw [hT.str]; exact hroom)
    (by unfold State.cfg State.cfgLongs State.ctxL State.subRanges; rw [hT.str]; exact hk)
  have hput : (s.taken h).subPut i.toNat k l = s.subPut i.toNat k l := by
    unfold State.subPut
    rw [hT.str]
  rw [hput] at hact
  exact completes_str hf rfl (fun z => { z with stageSub := s.subPut i.toNat k l }) hact (by simp [length_num])

theorem ctxRead_completes (i : Reg32) (hf : Says.framed s h 8 80) (hi : i.toNat < 262144) :
    Says.completes (.ctxRead h i 0) s h stOk (Says.longs ((List.range 16).map (s.ctxL i.toNat))) s := by
  have hT := taken_taken hf
  have hact := ctxRead_inForce (s := s.taken h) hi
  have hlongs : (s.taken h).ctxL i.toNat = s.ctxL i.toNat := by
    unfold State.ctxL
    rw [hT.str]
  rw [hlongs] at hact
  obtain ⟨-, -, -, -, -, -, -, -, -, -, hroom, -⟩ := id hf
  exact completes_of_taken hf rfl rfl rfl rfl rfl (act := (·.ctxRead i.toNat 0)) hact hT (Or.inr (by rw [length_longs]; simpa using hroom))

theorem ctxClear_completes (a n : Reg32) (hf : Says.framed s h 8) (h1 : 1 ≤ n.toNat) (hend : a.toNat + n.toNat ≤ 262144) :
    ∃ t c, exec (.ctxClear h a n) s = .next t ∧ Says.runs s t h stOk [] { s with str := { s.str with ctx := c } } ∧
      ∀ i l, l < 16 → t.ctxL i l = if a.toNat ≤ i ∧ i < a.toNat + n.toNat ∧ 10 ≤ l ∧ l ≤ 12 then 0 else s.ctxL i l := by
  obtain ⟨t, ht, hr⟩ := completes_str hf (ins := .ctxClear h a n) rfl _ (ctxClear_eq h1 hend) (by decide)
  refine ⟨t, _, ht, hr, fun i l hl => ?_⟩
  have hctx : t.ctxL i l = (s.onStr (fun z => { z with ctx := z.ctx.filter (fun e => !cleared a.toNat n.toNat e.1) })).ctxL i l := by
    unfold State.ctxL
    rw [runs_str hr]
    rfl
  rw [hctx, ctxL_cleared _ _ _ hl]

theorem stageDrop_completes (hf : Says.framed s h 0) : (s.bit R.COMMIT_STAT_PENDING = true → Says.completes (.stageDrop h) s h stBusy [] s) ∧
    (s.bit R.COMMIT_STAT_PENDING = false → Says.completes (.stageDrop h) s h stOk []
      { s with str := { s.str with stage := [], stageSub := [], brqStage := [] }, red := { s.red with stage := [], qStage := [], extra := 0 } }) := by
  have hT := taken_taken hf
  refine ⟨fun hp => completes_unchanged hf (act := (·.stageDrop)) rfl (staging_busy rfl (hT.pendingCommit.trans hp) _) (by decide), fun hp => ?_⟩
  have hnew := completes_effect hf (ins := .stageDrop h) (act := (·.stageDrop)) rfl (staging_acts rfl (hT.pendingCommit.trans hp) _) rfl rfl rfl id (by decide)
  obtain ⟨r, z, hs⟩ := hT.shape
  rw [hs] at hnew
  exact hnew

theorem stageInfo_completes (hf : Says.framed s h 0) : Says.completes (.stageInfo h) s h stOk
    (Says.num 4 s.str.stage.length ++ Says.num 4 (4096 - s.stageUsed) ++ Says.num 4 (16384 - s.stageSubUsed)) s := by
  have hf12 := framed_mono hf (most' := 12) (Or.inl (by decide))
  have hinfo : (s.taken h).stageInfo = Says.num 4 s.str.stage.length ++ Says.num 4 (4096 - s.stageUsed) ++ Says.num 4 (16384 - s.stageSubUsed) := by
    unfold State.stageInfo State.stageUsed State.stageSubUsed
    rw [(taken_taken hf).str, (taken_taken hf).red]
    rfl
  exact completes_unchanged hf12 (act := fun t => .now stOk t.stageInfo t) rfl (by rw [hinfo]) (by simp [length_num])

theorem beatreadyQueue_completes (c : Octet) (q : BitVec 16) (hf : Says.framed s h 4) (hc : c.toNat < 64)
    (hp : s.bit R.COMMIT_STAT_PENDING = false) : Says.completes (.beatreadyQueue h c q) s h stOk []
      { s with str := { s.str with brqStage := insertKey s.str.brqStage c.toNat q.toNat } } :=
  completes_str hf rfl (fun z => { z with brqStage := insertKey z.brqStage c.toNat q.toNat })
    (staging_acts (decide_eq_true hc) ((taken_taken hf).pendingCommit.trans hp) _) (by decide)

theorem autobindTemplate_completes (p : Octet) (a n : Reg32) (x y : List Long) (hf : Says.framed s h (12 + 5 * (x.length + y.length)))
    (hp : p.toNat < 16) (ha : a.toNat < 262144) (hx : x.length = 10) (hy : y.length = 10) :
    Says.completes (.autobindTemplate h p a n x y) s h stOk []
      { s with str := { s.str with tmpl := mset (fun _ => none) s.str.tmpl p.toNat (some ⟨a.toNat, n.toNat, x, y⟩) } } :=
  completes_str hf rfl (fun z => { z with tmpl := mset (fun _ => none) z.tmpl p.toNat (some ⟨a.toNat, n.toNat, x, y⟩) })
    (if_neg (by unfold ctxCount; omega)) (by decide)

theorem gapScan_completes (a n : Reg32) (k : BitVec 16) (hf : Says.framed s h 12 (4 + 7 * k.toNat)) (h1 : 1 ≤ n.toNat)
    (hend : a.toNat + n.toNat ≤ 262144) (hk : 1 ≤ k.toNat) (hmax : k.toNat ≤ 1024) (hkeys : (s.str.ctx.map (·.1)).Nodup)
    (hgap : ∀ i, a.toNat ≤ i → i < a.toNat + n.toNat → bitsOf (s.ctxL i 10) 20 20 = 0) :
    Says.completes (.gapScan h a n k) s h stOk (Says.num 4 0) s := by
  have hT := taken_taken hf
  refine completes_unchanged hf (act := (·.gapScan a.toNat n.toNat k.toNat)) rfl
    (gapScan_none h1 hend hk hmax (by rw [hT.str]; exact hkeys) fun i hlo hhi => ?_) (by decide)
  unfold State.ctxL
  rw [hT.str]
  exact hgap i hlo hhi

/-- Settles O40: each command is taken, and completes with the effect that the lemmas above give it; the lowest run of SUB_SET starts the
table or follows a list (`freeRun_start`). -/
theorem streamCommandResults : Obligations.StreamCommandResults := by
  intro s h pend
  refine ⟨fun i l hf => ctxStage_completes i l hf, fun i n stride ch l => ?range,
    fun i l hf hi hl hp hnew hroom => ⟨fun h0 => ?none, fun h0 hle => ?kept, fun h0 hlt => ?moved⟩,
    fun i hf hi => ctxRead_completes i hf hi, fun a n hf h1 _ hend => ctxClear_completes a n hf h1 hend,
    fun hf => ⟨(stageDrop_completes hf).1, (stageDrop_completes hf).2, stageInfo_completes hf⟩,
    fun c q hf hc hp => ⟨_, beatreadyQueue_completes c q hf hc hp, ?queue, fun d hd => ?queues⟩,
    fun p a n x y hf hp ha hx hy => ⟨_, autobindTemplate_completes p a n x y hf hp ha hx hy, mget_mset_self _ _ _ _, fun q hq => mget_mset_ne _ _ _ _ _ hq⟩,
    fun a n k hf h1 hend hk hmax hkeys hgap => gapScan_completes a n k hf h1 hend hk hmax hkeys hgap⟩
  case range =>
    intro c io hf hl h1 hmax hend
    obtain ⟨hstaged, hoff⟩ := ctxStageRange_completes i n stride ch l hf hl h1 hmax hend
    refine ⟨fun hb hc hp hs hroom => ?_, hoff⟩
    obtain ⟨t, st, ht, hr, hlongs⟩ := hstaged hb hc hp hs hroom
    exact ⟨t, st, ht, hr, fun k hk j hj h6 h7 => (hlongs k hk j hj h6 h7).trans (getElem?_rangeForm hl _ _ _ _)⟩
  case none => exact ⟨_, subSet_completes i l hf hi hl hp hnew hroom (Or.inl ⟨h0, rfl⟩)⟩
  case kept => exact ⟨_, subSet_completes i l hf hi hl hp hnew hroom (Or.inr (Or.inl ⟨h0, hle, rfl⟩)), mget_mset_self _ _ _ _⟩
  case moved =>
    intro free hfree
    obtain ⟨k, hrun, hk, hmin⟩ := lowestRun_spec (used := s.subRanges i.toNat) (n := l.length) hfree
    exact ⟨k, _, subSet_completes i l hf hi hl hp hnew hroom (Or.inr (Or.inr ⟨h0, hlt, hrun⟩)), mget_mset_self _ _ _ _, hk, hmin⟩
  case queue => rw [lookup_insertKey, if_pos rfl]
  case queues => rw [lookup_insertKey, if_neg hd]

end Sys2Proof.Machine

/-! SUPPORT. A sample port (R82): its record, the words it writes, training and what ends a link, events, and what leaves on it. -/

namespace Sys2Proof.Machine

open Sys2Proof

-- One proof after another, as in the tests: theorems checked side by side need more threads than the check's memory limit allows.
set_option Elab.async false

variable {s t u : State} {n p q : Nat} {l : List Nat}

/-! ### What a port's record and the words read after an update elsewhere -/

theorem emit_sample (p : Nat) (ws : List SpWord) : s.emit (.sample p ws) = { s with out := s.out ++ [.sample p ws] } := rfl

@[simp] theorem emit_sample_out (p : Nat) (ws : List SpWord) : (s.emit (.sample p ws)).out = s.out ++ [.sample p ws] := rfl

@[simp] theorem rd_emit (o : Out) (f : Fld) : (s.emit o).rd f = s.rd f := rd_of_hreg (s.emit_hreg o) f

@[simp] theorem bit_emit (o : Out) (f : Fld) : (s.emit o).bit f = s.bit f := bit_of_hreg (s.emit_hreg o) f

@[simp] theorem rd_onPort (p : Nat) (f : Port → Port) (g : Fld) : (s.onPort p f).rd g = s.rd g := rfl

@[simp] theorem spState_onPort (p q : Nat) (f : Port → Port) : (s.onPort p f).spState q = s.spState q := rfl

@[simp] theorem bit_onPort (p : Nat) (f : Port → Port) (g : Fld) : (s.onPort p f).bit g = s.bit g := rfl

@[simp] theorem out_onPort (p : Nat) (f : Port → Port) : (s.onPort p f).out = s.out := rfl

@[simp] theorem port_wr (f : Fld) (v p : Nat) : (s.wr f v).port p = s.port p := rfl

@[simp] theorem port_emit (o : Out) (p : Nat) : (s.emit o).port p = s.port p := by
  unfold State.port
  rw [State.emit_ports]

@[simp] theorem port_settle (p : Nat) : s.settle.port p = s.port p := rfl

@[simp] theorem port_onPort (p : Nat) (f : Port → Port) : (s.onPort p f).port p = f (s.port p) := port_onPort_self p f

@[simp] theorem spState_settle (p : Nat) : s.settle.spState p = s.spState p := rfl

/-! ### One port -/

/-- From s, u has been reached by changes of port p, of the BAR0 words of l and of what leaves the device alone. -/
structure State.PortIn (s u : State) (p : Nat) (l : List Nat) : Prop where
  shape : ∃ r z o, u = { s with hreg := r, ports := z, out := o }
  words : Says.words s u l
  others : ∀ q, q ≠ p → u.port q = s.port q

namespace State.PortIn

theorem refl (s : State) (p : Nat) (l : List Nat) : s.PortIn s p l := ⟨⟨_, _, _, rfl⟩, words_refl s l, fun _ _ => rfl⟩

theorem wr (h : s.PortIn u p l) (f : Fld) (v : Nat) (hm : f.off ∈ l := by simp) : s.PortIn (u.wr f v) p l where
  shape := by
    obtain ⟨r, z, o, rfl⟩ := h.shape
    exact ⟨_, z, o, rfl⟩
  words o ho := by
    have hne : o ≠ f.off := fun e => ho (e ▸ hm)
    rw [State.word_wr_off _ _ _ _ hne]
    exact h.words o ho
  others := h.others

theorem wb (h : s.PortIn u p l) (f : Fld) (b : Bool) (hm : f.off ∈ l := by simp) : s.PortIn (u.wb f b) p l := h.wr f _ hm

theorem set1 (h : s.PortIn u p l) (f : Fld) (hm : f.off ∈ l := by simp) : s.PortIn (u.set1 f) p l := h.wr f _ hm

theorem inc (h : s.PortIn u p l) (f : Fld) (hm : f.off ∈ l := by simp) : s.PortIn (u.inc f) p l := h.wr f _ hm

theorem onPort (h : s.PortIn u p l) (f : Port → Port) : s.PortIn (u.onPort p f) p l where
  shape := by
    obtain ⟨r, z, o, rfl⟩ := h.shape
    exact ⟨r, _, o, rfl⟩
  words := h.words
  others q hq := (port_onPort_ne f hq).trans (h.others q hq)

theorem emit (h : s.PortIn u p l) (o : Out) : s.PortIn (u.emit o) p l where
  shape := by
    obtain ⟨r, z, x, rfl⟩ := h.shape
    rcases State.emit_or { s with hreg := r, ports := z, out := x } o with he | he
    · exact ⟨r, z, x, he⟩
    · exact ⟨r, z, _, he⟩
  words x hx := (word_emit _ _).trans (h.words x hx)
  others q hq := (port_emit o q).trans (h.others q hq)

theorem ite {c : Prop} [Decidable c] (ht : s.PortIn t p l) (hu : s.PortIn u p l) : s.PortIn (if c then t else u) p l := by
  split <;> assumption

theorem foldl {α : Type} (h : s.PortIn u p l) (f : State → α → State) (m : List α) (hf : ∀ v a, a ∈ m → s.PortIn v p l → s.PortIn (f v a) p l) :
    s.PortIn (m.foldl f u) p l := List.foldlRecOn m f h fun v hv a ha => hf v a ha hv

theorem mono {l' : List Nat} (h : s.PortIn u p l) (hl : l ⊆ l' := by simp) : s.PortIn u p l' :=
  ⟨h.shape, fun o ho => h.words o fun hm => ho (hl hm), h.others⟩

/-- Settled, such a state shows in that port, those words and what has left alone. -/
theorem portOnly (h : s.PortIn u p l) : Says.portOnly s u.settle p l := by
  obtain ⟨⟨r, z, o, rfl⟩, hw, ho⟩ := h
  exact ⟨rfl, sensed_settle rfl rfl, hw, ho⟩

theorem trans {v : State} (h : s.PortIn u p l) (h' : u.PortIn v p l) : s.PortIn v p l where
  shape := by
    obtain ⟨r, z, o, rfl⟩ := h.shape
    obtain ⟨r', z', o', rfl⟩ := h'.shape
    exact ⟨r', z', o', rfl⟩
  words off hl := (h'.words off hl).trans (h.words off hl)
  others q hq := (h'.others q hq).trans (h.others q hq)

theorem settled_words (h : s.PortIn u p l) : Says.words s u.settle l := h.portOnly.2.2.1

theorem str (h : s.PortIn u p l) : u.str = s.str := by
  obtain ⟨r, z, o, rfl⟩ := h.shape
  rfl

theorem cores (h : s.PortIn u p l) : u.cores = s.cores := by
  obtain ⟨r, z, o, rfl⟩ := h.shape
  rfl

theorem mem (h : s.PortIn u p l) : u.mem = s.mem := by
  obtain ⟨r, z, o, rfl⟩ := h.shape
  rfl

theorem rd (h : s.PortIn u p l) (f : Fld) (hf : f.off ∉ l := by simp) : u.rd f = s.rd f := by
  unfold State.rd
  rw [h.words f.off hf]

theorem bit (h : s.PortIn u p l) (f : Fld) (hf : f.off ∉ l := by simp) : u.bit f = s.bit f := by
  unfold State.bit
  rw [h.rd f hf]

end State.PortIn

theorem regsOnly_same (s : State) : Says.regsOnly s s.settle [] := regsOnly_settle s rfl (words_refl s [])

/-! ### Training and what ends a link (R82) -/

/-- The generation training begins with: GEN_SEL, or SL3 for AUTO. -/
def State.firstGen (s : State) (p : Nat) : Nat :=
  if 1 ≤ s.rd (R.SP_CTRL_GEN_SEL p) ∧ s.rd (R.SP_CTRL_GEN_SEL p) ≤ 3 then s.rd (R.SP_CTRL_GEN_SEL p) else 3

theorem spTrain_eq (p : Nat) : s.spTrain p = (s.wr (R.SP_STAT_STATE p) spTraining).onPort p (fun x => { x with window := s.firstGen p }) := rfl

theorem spState_wr (f : Fld) (v p : Nat) (hf : R.SP_STAT p ≠ f.off := by simp) : (s.wr f v).spState p = s.spState p :=
  s.rd_wr_off f (R.SP_STAT_STATE p) v hf

@[simp] theorem spState_setState (p v : Nat) : (s.wr (R.SP_STAT_STATE p) v).spState p = v % 8 := s.rd_wr (R.SP_STAT_STATE p) v (Nat.le_refl 32)

theorem spTrain_portIn (h : s.PortIn u p l) (hm : R.SP_STAT p ∈ l := by simp) : s.PortIn (u.spTrain p) p l := by
  rw [spTrain_eq]
  exact (h.wr (R.SP_STAT_STATE p) _ hm).onPort _

@[simp] theorem spState_spTrain (p : Nat) : (s.spTrain p).spState p = spTraining := by
  rw [spTrain_eq, spState_onPort, spState_setState]
  rfl

@[simp] theorem port_spTrain (p : Nat) : (s.spTrain p).port p = { s.port p with window := s.firstGen p } := by
  rw [spTrain_eq, port_onPort, port_wr]

@[simp] theorem out_spTrain (p : Nat) : (s.spTrain p).out = s.out := by
  rw [spTrain_eq, out_onPort, State.wr_out]

/-- A port's record once its link has ended: what the module was, its plans and messages, are gone. -/
def Port.unlinked (x : Port) : Port :=
  { x with desc := none, sent := none, plan := none, inForce := none, expect := none, mgmt := [], echo := [], part := none, blank := [] }

theorem bindLost_none (hb : (s.port p).bind = none) : s.bindLost p = s := by
  unfold State.bindLost
  rw [hb]
  rfl

/-- The fields of SP_STAT that read 0 without a link. -/
def linkFields (p : Nat) : List Fld :=
  [R.SP_STAT_GEN_ACT p, R.SP_STAT_LOCK p, R.SP_STAT_ABORT p, R.SP_STAT_PLAN_PEND p, R.SP_STAT_PLAN_ACK p, R.SP_STAT_HOLD_WHY p, R.SP_STAT_PLAN_ID p]

theorem spClear_eq (p : Nat) : s.spClear p = (linkFields p).foldl (fun t f => t.wr f 0) ((s.bindLost p).onPort p Port.unlinked) := rfl

theorem clearFields_portIn (h : s.PortIn u p l) (hm : R.SP_STAT p ∈ l := by simp) :
    s.PortIn ((linkFields p).foldl (fun t f => t.wr f 0) u) p l := by
  refine h.foldl _ _ fun v f hf hv => hv.wr f 0 ?_
  have hoff : f.off = R.SP_STAT p := by
    simp only [linkFields, List.mem_cons, List.not_mem_nil, or_false] at hf
    rcases hf with rfl | rfl | rfl | rfl | rfl | rfl | rfl <;> rfl
  exact hoff ▸ hm

theorem port_wrs (u : State) (m : List Fld) (q : Nat) : (m.foldl (fun t f => t.wr f 0) u).port q = u.port q :=
  List.foldlRecOn m (motive := fun t => State.port t q = u.port q) _ rfl fun _ ht _ _ => ht

theorem out_wrs (u : State) (m : List Fld) : (m.foldl (fun t f => t.wr f 0) u).out = u.out :=
  List.foldlRecOn m (motive := fun t => State.out t = u.out) _ rfl fun t ht f _ => (t.wr_out f 0).trans ht

theorem spClear_portIn (h : s.PortIn u p l) (hb : (u.port p).bind = none) (hm : R.SP_STAT p ∈ l := by simp) : s.PortIn (u.spClear p) p l := by
  rw [spClear_eq, bindLost_none hb]
  exact clearFields_portIn (h.onPort _) hm

theorem port_spClear (hb : (s.port p).bind = none) : (s.spClear p).port p = (s.port p).unlinked := by
  rw [spClear_eq, bindLost_none hb, port_wrs, port_onPort]

theorem out_spClear (hb : (s.port p).bind = none) : (s.spClear p).out = s.out := by
  rw [spClear_eq, bindLost_none hb, out_wrs, out_onPort]

/-- A port that has not become ACTIVE goes OFF. -/
theorem spLeave_off (ha : s.spState p ≠ spActive) : s.spLeave p false = (s.spClear p).wr (R.SP_STAT_STATE p) spOffSt := by
  unfold State.spLeave
  simp only [if_neg ha, Bool.false_eq_true, false_and, if_false]
  rfl

/-- A port in IDENT returns to TRAINING, counted. -/
theorem spLeave_ident (hi : s.spState p = spIdent) : s.spLeave p true = ((s.inc (R.SP_LINKDN_V p)).spClear p).spTrain p := by
  unfold State.spLeave
  rw [hi]
  rfl

@[simp] theorem port_wb (f : Fld) (b : Bool) (p : Nat) : (s.wb f b).port p = s.port p := port_wr f _ p

@[simp] theorem port_inc (f : Fld) (p : Nat) : (s.inc f).port p = s.port p := port_wr f _ p

@[simp] theorem port_set1 (f : Fld) (p : Nat) : (s.set1 f).port p = s.port p := port_wr f _ p

@[simp] theorem out_wb (f : Fld) (b : Bool) : (s.wb f b).out = s.out := s.wr_out f _

@[simp] theorem out_inc (f : Fld) : (s.inc f).out = s.out := s.wr_out f _

@[simp] theorem out_set1 (f : Fld) : (s.set1 f).out = s.out := s.wr_out f _

/-! ### Counters -/

theorem rd_inc (f : Fld) (hw : f.lo + f.w ≤ 32) : (s.inc f).rd f = min (s.rd f + 1) (2 ^ f.w - 1) := by
  have hp := Nat.two_pow_pos f.w
  unfold State.inc State.satAdd
  rw [s.rd_wr f _ hw, Nat.mod_eq_of_lt (by omega)]

/-! ### A port in IDENT returns to TRAINING (R82) -/

theorem spLeave_ident_portIn (h : s.PortIn u p l) (hi : u.spState p = spIdent) (hb : (u.port p).bind = none)
    (hm : R.SP_STAT p ∈ l := by simp) (hd : R.SP_LINKDN p ∈ l := by simp) : s.PortIn (u.spLeave p true) p l := by
  rw [spLeave_ident hi]
  exact spTrain_portIn (spClear_portIn (h.inc (R.SP_LINKDN_V p) hd) (by rw [port_inc, hb]) hm) hm

theorem out_spLeave_ident (hi : s.spState p = spIdent) (hb : (s.port p).bind = none) : (s.spLeave p true).out = s.out := by
  rw [spLeave_ident hi, out_spTrain, out_spClear (by rw [port_inc, hb]), out_inc]

theorem port_spLeave_ident (hi : s.spState p = spIdent) (hb : (s.port p).bind = none) :
    (s.spLeave p true).port p = { (s.port p).unlinked with window := s.firstGen p } := by
  have hgen : ((s.inc (R.SP_LINKDN_V p)).spClear p).firstGen p = s.firstGen p := by
    unfold State.firstGen
    rw [(spClear_portIn ((State.PortIn.refl s p [R.SP_STAT p, R.SP_LINKDN p]).inc (R.SP_LINKDN_V p)) (by rw [port_inc, hb])).rd _ (by simp)]
  rw [spLeave_ident hi, port_spTrain, hgen, port_spClear (by rw [port_inc, hb]), port_inc]

theorem linkdn_spLeave_ident (hi : s.spState p = spIdent) (hb : (s.port p).bind = none) :
    (s.spLeave p true).rd (R.SP_LINKDN_V p) = min (s.rd (R.SP_LINKDN_V p) + 1) (2 ^ (R.SP_LINKDN_V p).w - 1) := by
  rw [spLeave_ident hi, (spTrain_portIn (spClear_portIn (.refl _ p [R.SP_STAT p]) (by rw [port_inc, hb]))).rd (R.SP_LINKDN_V p) (by simp),
    rd_inc _ (by simp)]

/-! ### Events and what they leave of a port -/

/-- From s, u has been reached by changes of port p, of the BAR0 words of l, and by events and records alone. -/
structure State.PortTold (s u : State) (p : Nat) (l : List Nat) : Prop where
  shape : ∃ r z o j h, u = { s with hreg := r, ports := z, out := o, jrn := j, host := h }
  words : ∀ off, off ∉ l → ¬ Reported off → u.word off = s.word off
  others : ∀ q, q ≠ p → u.port q = s.port q

namespace State.PortTold

theorem ofIn (h : s.PortIn u p l) : s.PortTold u p l where
  shape := by
    obtain ⟨r, z, o, rfl⟩ := h.shape
    exact ⟨r, z, o, _, _, rfl⟩
  words off hl _ := h.words off hl
  others := h.others

theorem refl (s : State) (p : Nat) (l : List Nat) : s.PortTold s p l := ofIn (.refl s p l)

theorem trans {v : State} (h : s.PortTold u p l) (h' : u.PortTold v p l) : s.PortTold v p l where
  shape := by
    obtain ⟨r, z, o, j, x, rfl⟩ := h.shape
    obtain ⟨r', z', o', j', x', rfl⟩ := h'.shape
    exact ⟨r', z', o', j', x', rfl⟩
  words off hl hr := (h'.words off hl hr).trans (h.words off hl hr)
  others q hq := (h'.others q hq).trans (h.others q hq)

theorem ofTold (h : s.Told u) (p : Nat) (l : List Nat) : s.PortTold u p l where
  shape := by
    obtain ⟨r, o, j, x, rfl⟩ := h.shape
    exact ⟨r, _, o, j, x, rfl⟩
  words off _ hr := h.words off hr
  others q _ := by
    obtain ⟨r, o, j, x, rfl⟩ := h.shape
    rfl

theorem wr (h : s.PortTold u p l) (f : Fld) (v : Nat) (hm : f.off ∈ l := by simp) : s.PortTold (u.wr f v) p l :=
  h.trans (ofIn ((PortIn.refl u p l).wr f v hm))

theorem set1 (h : s.PortTold u p l) (f : Fld) (hm : f.off ∈ l := by simp) : s.PortTold (u.set1 f) p l := h.wr f _ hm

theorem inc (h : s.PortTold u p l) (f : Fld) (hm : f.off ∈ l := by simp) : s.PortTold (u.inc f) p l := h.wr f _ hm

theorem onPort (h : s.PortTold u p l) (f : Port → Port) : s.PortTold (u.onPort p f) p l := h.trans (ofIn ((PortIn.refl u p l).onPort f))

theorem hostEvent (h : s.PortTold u p l) (code cls : Nat) (arg : List Octet) : s.PortTold (u.hostEvent code cls arg) p l :=
  h.trans (ofTold ((Told.reportClosed u).hostEventAt (Told.refl u) u.beat.num code cls arg) p l)

theorem mem (h : s.PortTold u p l) : u.mem = s.mem := by
  obtain ⟨r, z, o, j, x, rfl⟩ := h.shape
  rfl

theorem cores (h : s.PortTold u p l) : u.cores = s.cores := by
  obtain ⟨r, z, o, j, x, rfl⟩ := h.shape
  rfl

theorem rd (h : s.PortTold u p l) (f : Fld) (hf : f.off ∉ l := by simp) (hr : ¬ Reported f.off := by unfold Reported; dsimp only; omega) :
    u.rd f = s.rd f := by
  unfold State.rd
  rw [h.words f.off hf hr]

theorem bit (h : s.PortTold u p l) (f : Fld) (hf : f.off ∉ l := by simp) (hr : ¬ Reported f.off := by unfold Reported; dsimp only; omega) :
    u.bit f = s.bit f := by
  unfold State.bit
  rw [h.rd f hf hr]

end State.PortTold

theorem hostEvent_told (code cls : Nat) (arg : List Octet) : s.Told (s.hostEvent code cls arg) :=
  (State.Told.reportClosed s).hostEventAt (.refl s) _ _ _ _

theorem State.Told.port (h : s.Told u) (p : Nat) : u.port p = s.port p := by
  obtain ⟨r, o, j, x, rfl⟩ := h.shape
  rfl

theorem arrivalEvent_told (p code : Nat) : s.Told (s.arrivalEvent p code) := by
  unfold State.arrivalEvent
  split
  · exact .refl s
  · exact hostEvent_told _ _ _

theorem bindLost_told (h : s.PortTold u p l) : s.PortTold (u.bindLost p) p l := by
  unfold State.bindLost
  split
  · exact (h.trans (.ofTold (arrivalEvent_told p _) p l)).onPort _
  · exact h

theorem port_bindLost : (s.bindLost p).port p = { s.port p with bind := none } := by
  unfold State.bindLost
  split
  · rw [port_onPort, (arrivalEvent_told p _).port]
  · next hb =>
    have hn : (s.port p).bind = none := by simpa using hb
    rw [← hn]

theorem spClear_told (h : s.PortTold u p l) (hm : R.SP_STAT p ∈ l := by simp) : s.PortTold (u.spClear p) p l := by
  rw [spClear_eq]
  exact ((bindLost_told h).onPort _).trans (.ofIn (clearFields_portIn (.refl _ p l) hm))

theorem port_spClear_bind : (s.spClear p).port p = { (s.port p).unlinked with bind := none } := by
  rw [spClear_eq, port_wrs, port_onPort, port_bindLost]
  rfl

/-- With its fault event not enabled, a fault asks for no whistle. -/
theorem whFault_off (bit : Nat) (h : s.rd R.WH_FAULT_EN_R523 / 2 ^ bit % 2 = 0) : s.whFault bit = s :=
  if_neg (by omega)

/-- A module that leaves HOLD departs (R82). -/
def State.departed (s : State) (p : Nat) : State :=
  ((s.inc (R.SP_LINKDN_V p)).set1 (R.SP_EVT_DEPART p)).hostEvent 0x0011 1 (le 1 p)

theorem spLeave_hold (hh : s.spState p = spHold) (hw : s.rd R.WH_FAULT_EN_R523 / 16 % 2 = 0) :
    s.spLeave p true = ((s.departed p).spClear p).spTrain p := by
  have ht : (s.departed p).rd R.WH_FAULT_EN_R523 = s.rd R.WH_FAULT_EN_R523 :=
    ((((State.PortTold.refl s p [R.SP_LINKDN p, R.SP_EVT p]).inc (R.SP_LINKDN_V p)).set1 (R.SP_EVT_DEPART p)).hostEvent _ _ _).rd _
      (by simp [R.SP_LINKDN, R.SP_EVT]; omega)
  have hf : (s.departed p).whFault 4 = s.departed p := whFault_off 4 (by rw [ht]; exact hw)
  unfold State.spLeave
  rw [hh, ← hf]
  rfl

/-! ### Words that leave on a port -/

theorem emits_eq (s : State) (p : Nat) (m : List Nat) (f : Nat → List SpWord) :
    m.foldl (fun u k => u.emit (.sample p (f k))) s = { s with out := s.out ++ m.map fun k => .sample p (f k) } := by
  induction m generalizing s with
  | nil => rw [List.map_nil, List.append_nil]; rfl
  | cons k m ih => rw [List.foldl_cons, ih, emit_sample, List.map_cons, List.append_assoc]; rfl

/-- The tags of the 16 echoes sent next. -/
def State.echoTags (s : State) (p : Nat) : List Nat := (List.range 16).map fun k => ((s.port p).echoTag + k) % 65536

theorem echoTags_nodup (s : State) (p : Nat) : (s.echoTags p).Nodup := by
  refine List.Nodup.map_on (fun a ha b hb he => ?_) List.nodup_range
  have ha16 := List.mem_range.mp ha
  have hb16 := List.mem_range.mp hb
  omega

theorem echoTags_length (s : State) (p : Nat) : (s.echoTags p).length = 16 := by
  unfold State.echoTags
  rw [List.length_map, List.length_range]

theorem sendEchos_eq (p : Nat) : s.sendEchos p =
    { s.onPort p (fun x => { x with echo := s.echoTags p, echoTag := ((s.port p).echoTag + 16) % 65536, echoSum := 0 }) with
      out := s.out ++ (s.echoTags p).map fun k => .sample p (spEcho k) } := emits_eq _ _ _ _

theorem sendEchos_portIn (h : s.PortIn u p l) : s.PortIn (u.sendEchos p) p l := (h.onPort _).foldl _ _ fun _ _ _ hv => hv.emit _

theorem out_sendEchos (p : Nat) : (s.sendEchos p).out = s.out ++ (s.echoTags p).map fun k => .sample p (spEcho k) := by rw [sendEchos_eq]

theorem port_sendEchos (p : Nat) : (s.sendEchos p).port p =
    { s.port p with echo := s.echoTags p, echoTag := ((s.port p).echoTag + 16) % 65536, echoSum := 0 } := by
  rw [sendEchos_eq]
  exact mget_mset_self _ _ _ _

theorem mgmtSend_portIn (h : s.PortIn u p l) (kind : Nat) (body : List Octet) : s.PortIn (u.mgmtSend p kind body) p l :=
  .ite ((h.onPort _).emit _ |>.emit _) (((h.onPort _).emit _).onPort _)

theorem mgmtSend_eq (hq : s.bit (R.SP_CTRL_LOOP p) = false) (kind : Nat) (body : List Octet) : s.mgmtSend p kind body =
    ((s.onPort p (fun x => { x with nextTag := ((s.port p).nextTag + 1) % 256 })).emit
      (.sample p (spMgmt (s.port p).nextTag kind body))).onPort p
        (fun x => { x with mgmt := x.mgmt ++ [(⟨(s.port p).nextTag, kind, body, 1⟩ : Mgmt)] }) := by
  unfold State.mgmtSend State.spLoop
  rw [hq]
  rfl

theorem out_mgmtSend (hq : s.bit (R.SP_CTRL_LOOP p) = false) (kind : Nat) (body : List Octet) :
    (s.mgmtSend p kind body).out = s.out ++ [.sample p (spMgmt (s.port p).nextTag kind body)] := by
  rw [mgmtSend_eq hq, out_onPort, emit_sample_out, out_onPort]

theorem port_mgmtSend (hq : s.bit (R.SP_CTRL_LOOP p) = false) (kind : Nat) (body : List Octet) :
    (s.mgmtSend p kind body).port p = { s.port p with
      nextTag := ((s.port p).nextTag + 1) % 256, mgmt := (s.port p).mgmt ++ [⟨(s.port p).nextTag, kind, body, 1⟩] } := by
  rw [mgmtSend_eq hq, port_onPort, port_emit, port_onPort]

theorem spTalks_of_ident (h : s.spState p = spIdent) : s.spTalks p = true := by
  unfold State.spTalks
  rw [h]
  rfl

theorem spTalks_of_hold (h : s.spState p = spHold) : s.spTalks p = true := by
  unfold State.spTalks
  rw [h]
  rfl

theorem spHears_of_talks (ht : s.spTalks p = true) (hq : s.bit (R.SP_CTRL_LOOP p) = false) : s.spHears p = true := by
  unfold State.spHears State.spLoop
  rw [ht, hq]
  rfl

end Sys2Proof.Machine

/-! PROOFS. Sample port links (R72, R82, R88, R92 to R94): enable, lock, windows, loss, delay measurement, drive abort. -/

namespace Sys2Proof.Machine

open Sys2Proof

-- One proof after another, as in the tests: theorems checked side by side need more threads than the check's memory limit allows.
set_option Elab.async false

variable {s t u : State} {n p q : Nat} {l : List Nat}

/-! ### Enable, generation, lock and windows (R82) -/

theorem spEnable_on (hoff : s.spState p = spOffSt) (hd : s.domOn (domSp p) = true) :
    s.spEnable p true = (s.wb (R.SP_CTRL_EN p) true).spTrain p := by
  unfold State.spEnable
  simp [hoff, hd]

theorem spEnable_off : s.spEnable p false =
    if s.spState p = spOffSt then s.wb (R.SP_CTRL_EN p) false else (s.wb (R.SP_CTRL_EN p) false).spLeave p false := by
  unfold State.spEnable
  rw [Bool.not_false, if_pos rfl]

theorem firstGen_wr_ctrl (f : Fld) (v : Nat) (hf : (s.wr f v).rd (R.SP_CTRL_GEN_SEL p) = s.rd (R.SP_CTRL_GEN_SEL p)) :
    (s.wr f v).firstGen p = s.firstGen p := by
  unfold State.firstGen
  rw [hf]

/-- An OFF port that is enabled trains (R82). -/
theorem spCtrlEn_on (b : BitVec 4) (hoff : s.spState b.toNat = spOffSt) (hd : s.domOn (domSp b.toNat) = true) :
    ∃ t, exec (.spCtrlEn b true) s = .next t ∧ Says.portOnly s t b.toNat [R.SP_CTRL b.toNat, R.SP_STAT b.toNat] ∧ t.out = s.out ∧
      t.spState b.toNat = spTraining ∧ t.bit (R.SP_CTRL_EN b.toNat) = true ∧ (t.port b.toNat).window = s.firstGen b.toNat := by
  have he := spEnable_on hoff hd
  have hsel : (s.wb (R.SP_CTRL_EN b.toNat) true).firstGen b.toNat = s.firstGen b.toNat :=
    firstGen_wr_ctrl _ _ (State.rd_wr_ne _ _ _ _ (by simp) (by simp))
  refine ⟨(s.spEnable b.toNat true).settle, rfl, ?_, ?_, ?_, ?_, ?_⟩
  · rw [he]
    exact (spTrain_portIn ((State.PortIn.refl s b.toNat _).wb (R.SP_CTRL_EN b.toNat) true)).portOnly
  · rw [State.settle_out, he, out_spTrain, State.wb, State.wr_out]
  · rw [spState_settle, he, spState_spTrain]
  · rw [State.settle_bit, he, ((spTrain_portIn (.refl _ b.toNat [R.SP_STAT b.toNat]))).bit (R.SP_CTRL_EN b.toNat)]
    exact bit_wr_one _ (by simp) (by simp)
  · rw [port_settle, he, port_spTrain, hsel]

/-- A port not past IDENT that is disabled goes OFF (R82). -/
theorem spCtrlEn_off (b : BitVec 4) (ha : s.spState b.toNat ≠ spActive) (hb : (s.port b.toNat).bind = none) :
    ∃ t, exec (.spCtrlEn b false) s = .next t ∧ Says.portOnly s t b.toNat [R.SP_CTRL b.toNat, R.SP_STAT b.toNat] ∧ t.out = s.out ∧
      t.spState b.toNat = spOffSt ∧ t.bit (R.SP_CTRL_EN b.toNat) = false := by
  let s1 := s.wb (R.SP_CTRL_EN b.toNat) false
  have hst : s1.spState b.toNat = s.spState b.toNat := spState_wr _ _ _
  have hb1 : (s1.port b.toNat).bind = none := by rw [port_wb, hb]
  have hleft : s1.spState b.toNat ≠ spActive := by
    rw [hst]
    exact ha
  have hin : s.PortIn s1 b.toNat [R.SP_CTRL b.toNat, R.SP_STAT b.toNat] := (State.PortIn.refl s _ _).wb _ _
  have hout : s1.out = s.out := out_wb (R.SP_CTRL_EN b.toNat) false
  have hen : s1.bit (R.SP_CTRL_EN b.toNat) = false := bit_wr_zero _ (by simp)
  refine ⟨(s.spEnable b.toNat false).settle, rfl, ?_⟩
  by_cases hoff : s.spState b.toNat = spOffSt
  · rw [spEnable_off, if_pos hoff]
    refine ⟨hin.portOnly, ?_, ?_, ?_⟩
    · rw [State.settle_out, hout]
    · rw [spState_settle, hst, hoff]
    · rw [State.settle_bit, hen]
  · rw [spEnable_off, if_neg hoff, spLeave_off hleft]
    refine ⟨((spClear_portIn hin hb1).wr (R.SP_STAT_STATE b.toNat) _).portOnly, ?_, ?_, ?_⟩
    · rw [State.settle_out, State.wr_out, out_spClear hb1]
      exact hout
    · rw [spState_settle, spState_setState]
      rfl
    · rw [State.settle_bit, ((spClear_portIn (.refl s1 b.toNat [R.SP_STAT b.toNat]) hb1).wr (R.SP_STAT_STATE b.toNat) _).bit
        (R.SP_CTRL_EN b.toNat)]
      exact hen

/-- GEN_SEL is written, and a port that trains starts again where it changed (R82). -/
theorem spGenSelWrite_result (b : BitVec 4) (g : BitVec 3) : ∃ t, exec (.spGenSelWrite b g) s = .next t ∧
    Says.portOnly s t b.toNat [R.SP_CTRL b.toNat, R.SP_STAT b.toNat] ∧ t.out = s.out ∧ t.rd (R.SP_CTRL_GEN_SEL b.toNat) = g.toNat ∧
    t.spState b.toNat = s.spState b.toNat ∧
    (s.spState b.toNat = spTraining → g.toNat ≠ s.rd (R.SP_CTRL_GEN_SEL b.toNat) →
      (t.port b.toNat).window = if 1 ≤ g.toNat ∧ g.toNat ≤ 3 then g.toNat else 3) := by
  let s1 := s.wr (R.SP_CTRL_GEN_SEL b.toNat) g.toNat
  have hst : s1.spState b.toNat = s.spState b.toNat := spState_wr _ _ _
  have hin : s.PortIn s1 b.toNat [R.SP_CTRL b.toNat, R.SP_STAT b.toNat] := (State.PortIn.refl s _ _).wr _ _
  have hsel : s1.rd (R.SP_CTRL_GEN_SEL b.toNat) = g.toNat := (State.rd_wr _ _ _ (by simp)).trans (Nat.mod_eq_of_lt g.isLt)
  have hout : s1.out = s.out := s.wr_out _ _
  refine ⟨(s.spGenSel b.toNat g.toNat).settle, rfl, ?_⟩
  by_cases hc : s.rd (R.SP_CTRL_GEN_SEL b.toNat) ≠ g.toNat ∧ s.spState b.toNat = spTraining
  · have he : s.spGenSel b.toNat g.toNat = s1.spTrain b.toNat := if_pos hc
    rw [he]
    refine ⟨(spTrain_portIn hin).portOnly, ?_, ?_, ?_, fun _ _ => ?_⟩
    · rw [State.settle_out, out_spTrain]
      exact hout
    · rw [State.settle_rd, (spTrain_portIn (.refl s1 b.toNat [R.SP_STAT b.toNat])).rd (R.SP_CTRL_GEN_SEL b.toNat)]
      exact hsel
    · rw [spState_settle, spState_spTrain, hc.2]
    · rw [port_settle, port_spTrain]
      unfold State.firstGen
      rw [hsel]
  · have he : s.spGenSel b.toNat g.toNat = s1 := if_neg hc
    rw [he]
    refine ⟨hin.portOnly, ?_, ?_, ?_, fun ht hg => absurd ⟨hg.symm, ht⟩ hc⟩
    · rw [State.settle_out, hout]
    · rw [State.settle_rd, hsel]
    · rw [spState_settle, hst]

/-- A port locked at generation g: it is in IDENT. -/
def State.lockedAt (s : State) (p g : Nat) : State :=
  (((s.wr (R.SP_STAT_STATE p) spIdent).wr (R.SP_STAT_GEN_ACT p) g).wr (R.SP_STAT_LOCK p) 1).onPort p fun x => { x with lastGen := g }

theorem lockedAt_portIn (s : State) (p g : Nat) : s.PortIn (s.lockedAt p g) p [R.SP_STAT p] :=
  ((((State.PortIn.refl s p _).wr (R.SP_STAT_STATE p) _).wr (R.SP_STAT_GEN_ACT p) _).wr (R.SP_STAT_LOCK p) _).onPort _

theorem spState_lockedAt (s : State) (p g : Nat) : (s.lockedAt p g).spState p = spIdent := by
  unfold State.lockedAt State.spState
  rw [rd_onPort, State.rd_wr_ne _ _ _ _ (by simp) (by simp), State.rd_wr_ne _ _ _ _ (by simp) (by simp), State.rd_wr _ _ _ (by simp)]
  rfl

theorem genAct_lockedAt (s : State) (p : Nat) (g : BitVec 2) : (s.lockedAt p g.toNat).rd (R.SP_STAT_GEN_ACT p) = g.toNat := by
  unfold State.lockedAt
  rw [rd_onPort, State.rd_wr_ne _ _ _ _ (by simp) (by simp), State.rd_wr _ _ _ (by simp), Nat.mod_eq_of_lt g.isLt]

theorem port_lockedAt (s : State) (p g : Nat) : (s.lockedAt p g).port p = { s.port p with lastGen := g } := by
  unfold State.lockedAt
  rw [port_onPort, port_wr, port_wr, port_wr]

theorem out_lockedAt (s : State) (p g : Nat) : (s.lockedAt p g).out = s.out := by
  unfold State.lockedAt
  rw [out_onPort, State.wr_out, State.wr_out, State.wr_out]

/-- Lock at the generation tried enters IDENT: 16 ECHO words and a DESC_REQ go (R82, R72). -/
theorem spLinkLock_tried (b : BitVec 4) (g : BitVec 2) (ht : s.spState b.toNat = spTraining) (hg : g.toNat = (s.port b.toNat).window)
    (hq : s.bit (R.SP_CTRL_LOOP b.toNat) = false) : ∃ t, exec (.spLinkLock b g) s = .next t ∧ Says.portOnly s t b.toNat [R.SP_STAT b.toNat] ∧
      t.spState b.toNat = spIdent ∧ t.rd (R.SP_STAT_GEN_ACT b.toNat) = g.toNat ∧ (t.port b.toNat).echo.length = 16 ∧
      (t.port b.toNat).echo.Nodup ∧ t.out = s.out ++ (t.port b.toNat).echo.map (fun k => .sample b.toNat (spEcho k)) ++
        [.sample b.toNat (spMgmt (s.port b.toNat).nextTag 0x01 [])] := by
  let s1 := s.lockedAt b.toNat g.toNat
  let s2 := s1.sendEchos b.toNat
  have he : s.spLock b.toNat g.toNat = s2.mgmtSend b.toNat 0x01 [] := if_pos ⟨ht, hg⟩
  have hin := lockedAt_portIn s b.toNat g.toNat
  have hlater : s1.PortIn (s2.mgmtSend b.toNat 0x01 []) b.toNat [] := mgmtSend_portIn (sendEchos_portIn (.refl _ _ _)) _ _
  have hloop : s2.bit (R.SP_CTRL_LOOP b.toNat) = false := ((sendEchos_portIn hin).bit _).trans hq
  have hport : ((s2.mgmtSend b.toNat 0x01 []).port b.toNat).echo = s1.echoTags b.toNat := by
    rw [port_mgmtSend hloop]
    exact congrArg Port.echo (port_sendEchos _)
  have htag : (s2.port b.toNat).nextTag = (s.port b.toNat).nextTag := by
    rw [port_sendEchos, port_lockedAt]
  refine ⟨(s.spLock b.toNat g.toNat).settle, rfl, ?_⟩
  rw [he]
  refine ⟨(mgmtSend_portIn (sendEchos_portIn hin) _ _).portOnly, ?_, ?_, ?_, ?_, ?_⟩
  · rw [spState_settle]
    exact (hlater.rd (R.SP_STAT_STATE b.toNat)).trans (spState_lockedAt s b.toNat g.toNat)
  · rw [State.settle_rd]
    exact (hlater.rd (R.SP_STAT_GEN_ACT b.toNat)).trans (genAct_lockedAt s b.toNat g)
  · rw [port_settle, hport, echoTags_length]
  · rw [port_settle, hport]
    exact echoTags_nodup _ _
  · rw [port_settle, hport, State.settle_out, out_mgmtSend hloop, htag, out_sendEchos, out_lockedAt]

theorem spLinkLock_other (b : BitVec 4) (g : BitVec 2) (hg : g.toNat ≠ (s.port b.toNat).window) :
    ∃ t, exec (.spLinkLock b g) s = .next t ∧ Says.regsOnly s t [] := by
  have he : s.spLock b.toNat g.toNat = s := if_neg fun h => hg h.2
  refine ⟨(s.spLock b.toNat g.toNat).settle, rfl, ?_⟩
  rw [he]
  exact regsOnly_same s

/-- An AUTO window that ends goes on to the next generation (R82). -/
theorem spGenWindow_next (b : BitVec 4) (ht : s.spState b.toNat = spTraining)
    (ha : ¬ (1 ≤ s.rd (R.SP_CTRL_GEN_SEL b.toNat) ∧ s.rd (R.SP_CTRL_GEN_SEL b.toNat) ≤ 3)) :
    ∃ t, exec (.spGenWindow b) s = .next t ∧ Says.portOnly s t b.toNat [] ∧ t.out = s.out ∧
      (t.port b.toNat).window = (if (s.port b.toNat).window ≤ 1 then 3 else (s.port b.toNat).window - 1) := by
  have he : s.spWindow b.toNat = s.onPort b.toNat fun x => { x with window := if x.window ≤ 1 then 3 else x.window - 1 } := if_pos ⟨ht, ha⟩
  refine ⟨(s.spWindow b.toNat).settle, rfl, ?_⟩
  rw [he]
  exact ⟨((State.PortIn.refl s b.toNat []).onPort _).portOnly, rfl, by rw [port_settle, port_onPort]⟩

/-! ### What ends a link (R68, R82) -/

/-- Whatever of the three ends the link of a port in IDENT, the port leaves for TRAINING. -/
theorem exec_identEnds (b : BitVec 4) (hi : s.spState b.toNat = spIdent) {ins : Instr}
    (hins : ins ∈ [Instr.spLinkLoss b, .descTimeout b, .mgmtSilence b]) : exec ins s = .next (s.spLeave b.toNat true).settle := by
  have ht := spTalks_of_ident hi
  simp only [List.mem_cons, List.not_mem_nil, or_false] at hins
  rcases hins with rfl | rfl | rfl
  · exact congrArg done (if_pos ht)
  · exact congrArg done (if_pos hi)
  · exact congrArg done (if_pos ht)

theorem linkEnds_ident (b : BitVec 4) (hi : s.spState b.toNat = spIdent) (hb : (s.port b.toNat).bind = none) {ins : Instr}
    (hins : ins ∈ [Instr.spLinkLoss b, .descTimeout b, .mgmtSilence b]) : ∃ t, exec ins s = .next t ∧
      Says.portOnly s t b.toNat [R.SP_STAT b.toNat, R.SP_LINKDN b.toNat] ∧ t.out = s.out ∧ t.spState b.toNat = spTraining ∧
      (t.port b.toNat).window = s.firstGen b.toNat ∧ (t.port b.toNat).desc = none ∧
      t.rd (R.SP_LINKDN_V b.toNat) = min (s.rd (R.SP_LINKDN_V b.toNat) + 1) (2 ^ (R.SP_LINKDN_V b.toNat).w - 1) := by
  refine ⟨_, exec_identEnds b hi hins, (spLeave_ident_portIn (.refl s _ _) hi hb).portOnly, ?_, ?_, ?_, ?_, ?_⟩
  · rw [State.settle_out, out_spLeave_ident hi hb]
  · rw [spState_settle, spLeave_ident hi, spState_spTrain]
  · rw [port_settle, port_spLeave_ident hi hb]
  · rw [port_settle, port_spLeave_ident hi hb]
    rfl
  · rw [State.settle_rd, linkdn_spLeave_ident hi hb]

theorem exec_holdEnds (b : BitVec 4) (hh : s.spState b.toNat = spHold) {ins : Instr} (hins : ins ∈ [Instr.spLinkLoss b, .mgmtSilence b]) :
    exec ins s = .next (s.spLeave b.toNat true).settle := by
  have ht := spTalks_of_hold hh
  simp only [List.mem_cons, List.not_mem_nil, or_false] at hins
  rcases hins with rfl | rfl
  · exact congrArg done (if_pos ht)
  · exact congrArg done (if_pos ht)

theorem linkEnds_hold (b : BitVec 4) (hh : s.spState b.toNat = spHold) (hw : s.rd R.WH_FAULT_EN_R523 / 16 % 2 = 0) {ins : Instr}
    (hins : ins ∈ [Instr.spLinkLoss b, .mgmtSilence b]) : ∃ t, exec ins s = .next t ∧ t.spState b.toNat = spTraining ∧
      (t.port b.toNat).window = s.firstGen b.toNat ∧ (t.port b.toNat).desc = none ∧ (t.port b.toNat).bind = none ∧
      t.bit (R.SP_EVT_DEPART b.toNat) = true ∧
      t.rd (R.SP_LINKDN_V b.toNat) = min (s.rd (R.SP_LINKDN_V b.toNat) + 1) (2 ^ (R.SP_LINKDN_V b.toNat).w - 1) ∧ t.mem = s.mem ∧
      t.cores = s.cores := by
  let s1 := s.inc (R.SP_LINKDN_V b.toNat)
  let s2 := s1.set1 (R.SP_EVT_DEPART b.toNat)
  have h1 : s.PortTold s1 b.toNat [R.SP_LINKDN b.toNat] := (State.PortTold.refl s _ _).inc _
  have h2 : s1.PortTold s2 b.toNat [R.SP_EVT b.toNat] := (State.PortTold.refl s1 _ _).set1 _
  have hafter (l : List Nat) (hl : R.SP_STAT b.toNat ∈ l) : s2.PortTold (((s.departed b.toNat).spClear b.toNat)) b.toNat l :=
    spClear_told ((State.PortTold.refl s2 _ _).hostEvent _ _ _) hl
  have hend : s2.PortTold (((s.departed b.toNat).spClear b.toNat).spTrain b.toNat) b.toNat [R.SP_STAT b.toNat] :=
    (hafter _ (by simp)).trans (.ofIn (spTrain_portIn (.refl _ _ _)))
  have hgen : ((s.departed b.toNat).spClear b.toNat).firstGen b.toNat = s.firstGen b.toNat := by
    unfold State.firstGen
    rw [(hafter [R.SP_STAT b.toNat] (by simp)).rd _ (by simp), h2.rd _ (by simp), h1.rd _ (by simp)]
  have hmem : (((s.departed b.toNat).spClear b.toNat).spTrain b.toNat).mem = s.mem := hend.mem.trans (h2.mem.trans h1.mem)
  have hcores : (((s.departed b.toNat).spClear b.toNat).spTrain b.toNat).cores = s.cores := hend.cores.trans (h2.cores.trans h1.cores)
  refine ⟨_, exec_holdEnds b hh hins, ?_⟩
  rw [spLeave_hold hh hw]
  refine ⟨?_, ?_, ?_, ?_, ?_, ?_, ?_, ?_⟩
  · rw [spState_settle, spState_spTrain]
  · rw [port_settle, port_spTrain, hgen]
  · rw [port_settle, port_spTrain, port_spClear_bind]
    rfl
  · rw [port_settle, port_spTrain, port_spClear_bind]
  · rw [State.settle_bit, hend.bit (R.SP_EVT_DEPART b.toNat)]
    exact State.bit_set1 _ _ (by simp) (by simp)
  · rw [State.settle_rd, hend.rd (R.SP_LINKDN_V b.toNat), h2.rd (R.SP_LINKDN_V b.toNat)]
    exact rd_inc _ (by simp)
  · rw [State.settle_mem, hmem]
  · rw [State.settle_cores, hcores]

/-! ### One-way delay (R72) -/

theorem delayMeasureSp_result (b : BitVec 4) (ha : s.spState b.toNat = spActive) : ∃ t, exec (.delayMeasureSp b) s = .next t ∧
    Says.portOnly s t b.toNat [] ∧ (t.port b.toNat).echo.length = 16 ∧ (t.port b.toNat).echo.Nodup ∧ (t.port b.toNat).echoSum = 0 ∧
    t.out = s.out ++ (t.port b.toNat).echo.map (fun k => .sample b.toNat (spEcho k)) := by
  have hport := port_sendEchos (s := s) b.toNat
  refine ⟨(s.sendEchos b.toNat).settle, congrArg done (if_pos ha), (sendEchos_portIn (.refl s _ _)).portOnly, ?_⟩
  rw [port_settle, State.settle_out, hport, out_sendEchos]
  exact ⟨echoTags_length _ _, echoTags_nodup _ _, rfl, rfl⟩

/-- What a reply leaves of the echoes that wait, and their sum. -/
def State.replied (s : State) (p tag d : Nat) : State :=
  s.onPort p fun y => { y with echo := (s.port p).echo.erase tag, echoSum := (s.port p).echoSum + d }

theorem echoReply_eq (hh : s.spHears p = true) (ht : q ∈ (s.port p).echo) (a b : Nat) : s.echoReply p q a b =
    if ((s.port p).echo.erase q).isEmpty then
      (s.replied p q (b - a)).setDelay p (min (roundShift ((s.port p).echoSum + (b - a) : Nat) 5).toNat 16777215)
    else s.replied p q (b - a) := by
  unfold State.echoReply
  have hc : (s.port p).echo.contains q = true := List.contains_iff_mem.mpr ht
  simp only [hh, hc, Bool.and_self, Bool.not_true, Bool.false_eq_true, if_false]
  rfl

theorem echoReply_more (b : BitVec 4) (tag : BitVec 16) (x y : BitVec 24) (hh : s.spHears b.toNat = true)
    (ht : tag.toNat ∈ (s.port b.toNat).echo) (hl : (s.port b.toNat).echo.length ≠ 1) :
    ∃ t, exec (.echoReply b tag x y) s = .next t ∧ Says.portOnly s t b.toNat [] ∧ t.out = s.out ∧
      (t.port b.toNat).echo = (s.port b.toNat).echo.erase tag.toNat ∧
      (t.port b.toNat).echoSum = (s.port b.toNat).echoSum + (y.toNat - x.toNat) := by
  have hleft : ((s.port b.toNat).echo.erase tag.toNat).isEmpty = false := by
    rw [List.isEmpty_eq_false_iff, ← List.length_pos_iff, List.length_erase_of_mem ht]
    have := List.length_pos_of_mem ht
    omega
  have he : s.echoReply b.toNat tag.toNat x.toNat y.toNat = s.replied b.toNat tag.toNat (y.toNat - x.toNat) := by
    rw [echoReply_eq hh ht, hleft]
    rfl
  refine ⟨(s.echoReply b.toNat tag.toNat x.toNat y.toNat).settle, rfl, ?_⟩
  rw [he]
  refine ⟨((State.PortIn.refl s b.toNat []).onPort _).portOnly, rfl, ?_⟩
  rw [port_settle]
  unfold State.replied
  rw [port_onPort]
  exact ⟨rfl, rfl⟩

/-- Rounding to the nearest moves by half a unit at most. -/
theorem roundShift_near (m : Nat) : ∃ d : Nat, roundShift m 5 = d ∧ 32 * d ≤ m + 16 ∧ m ≤ 32 * d + 16 := by
  unfold roundShift
  extract_lets q r
  have hq : q = ((m / 32 : Nat) : Int) := by simp [q]
  have hr : r = ((m % 32 : Nat) : Int) := by simp [r]
  rw [hq, hr]
  split
  · exact ⟨m / 32, rfl, by omega, by omega⟩
  · split
    · exact ⟨m / 32 + 1, by push_cast; rfl, by omega, by omega⟩
    · split
      · exact ⟨m / 32 + 1, by push_cast; rfl, by omega, by omega⟩
      · exact ⟨m / 32, rfl, by omega, by omega⟩

/-- A delay is written into SP_DELAY, valid (R72). -/
def State.delayWritten (s : State) (p d : Nat) : State :=
  ((s.wr (R.SP_DELAY_DELAY p) d).wr (R.SP_DELAY_VALID p) 1).toggle (R.SP_DELAY_TOG p)

theorem delayWritten_portIn (h : s.PortIn u p l) (d : Nat) (hm : R.SP_DELAY p ∈ l := by simp) : s.PortIn (u.delayWritten p d) p l :=
  ((h.wr (R.SP_DELAY_DELAY p) _ hm).wr (R.SP_DELAY_VALID p) _ hm).wr (R.SP_DELAY_TOG p) _ hm

theorem rd_delayWritten (s : State) (p : Nat) {d : Nat} (hd : d < 2 ^ 24) : (s.delayWritten p d).rd (R.SP_DELAY_DELAY p) = d := by
  unfold State.delayWritten State.toggle
  rw [State.rd_wr_ne _ _ _ _ (by simp) (by simp), State.rd_wr_ne _ _ _ _ (by simp) (by simp), State.rd_wr _ _ _ (by simp), Nat.mod_eq_of_lt hd]

theorem bit_delayWritten (s : State) (p d : Nat) : (s.delayWritten p d).bit (R.SP_DELAY_VALID p) = true := by
  unfold State.delayWritten State.toggle
  rw [bit_wr_ne _ _ _ (by simp) (by simp), bit_wr_one _ (by simp) (by simp)]

theorem setDelay_portIn (p d : Nat) : (s.delayWritten p d).PortIn (s.setDelay p d) p [] :=
  .ite (mgmtSend_portIn ((State.PortIn.refl _ _ _).onPort _) _ _) (.refl _ _ _)

theorem echoReply_last (b : BitVec 4) (tag : BitVec 16) (x y : BitVec 24) (hh : s.spHears b.toNat = true)
    (ht : (s.port b.toNat).echo = [tag.toNat]) (hs : (s.port b.toNat).echoSum + (y.toNat - x.toNat) < 2 ^ 28) :
    ∃ t, exec (.echoReply b tag x y) s = .next t ∧ Says.words s t [R.SP_DELAY b.toNat] ∧ t.mem = s.mem ∧ t.cores = s.cores ∧
      t.bit (R.SP_DELAY_VALID b.toNat) = true ∧
      32 * t.rd (R.SP_DELAY_DELAY b.toNat) ≤ (s.port b.toNat).echoSum + (y.toNat - x.toNat) + 16 ∧
      (s.port b.toNat).echoSum + (y.toNat - x.toNat) ≤ 32 * t.rd (R.SP_DELAY_DELAY b.toNat) + 16 := by
  obtain ⟨d, hd, hlo, hhi⟩ := roundShift_near ((s.port b.toNat).echoSum + (y.toNat - x.toNat))
  let s1 := s.replied b.toNat tag.toNat (y.toNat - x.toNat)
  have he : s.echoReply b.toNat tag.toNat x.toNat y.toNat = s1.setDelay b.toNat d := by
    have hmin : min d 16777215 = d := by omega
    rw [echoReply_eq hh (by rw [ht]; exact List.mem_singleton_self _), ht, hd, List.erase_cons_head, Int.toNat_natCast, hmin]
    exact if_pos rfl
  have hin : s.PortIn (s1.delayWritten b.toNat d) b.toNat [R.SP_DELAY b.toNat] := delayWritten_portIn ((State.PortIn.refl s _ _).onPort _) _
  have hend := setDelay_portIn (s := s1) b.toNat d
  have hall : s.PortIn (s1.setDelay b.toNat d) b.toNat [R.SP_DELAY b.toNat] := hin.trans hend.mono
  refine ⟨(s.echoReply b.toNat tag.toNat x.toNat y.toNat).settle, rfl, ?_⟩
  rw [he, State.settle_mem, State.settle_cores, State.settle_bit, State.settle_rd, hall.mem, hall.cores, hend.bit _ List.not_mem_nil,
    hend.rd _ List.not_mem_nil, bit_delayWritten, rd_delayWritten s1 _ (by omega)]
  exact ⟨hall.settled_words, rfl, rfl, rfl, hlo, hhi⟩

/-! ### DRIVE_ABORT_N (R92 to R94) -/

/-- The ramp of a port follows from words other than those an abort writes. -/
theorem abortRamp_congr (hw : ∀ o, o ≠ R.DRV_ABORT_STAT → (∀ r, o ≠ R.SP_STAT r) → u.word o = s.word o) (q : Nat) :
    u.abortRamp q = s.abortRamp q := by
  have hlow (o : Nat) (ho : o < 0x5004) : u.word o = s.word o := hw o (by unfold R.DRV_ABORT_STAT; omega) fun r => by unfold R.SP_STAT; omega
  have hdelay : u.word (R.SP_DELAY_DELAY q).off = s.word (R.SP_DELAY_DELAY q).off :=
    hw _ (by unfold R.DRV_ABORT_STAT; dsimp only; omega) fun r => by unfold R.SP_STAT; dsimp only; omega
  unfold State.abortRamp State.pqIn State.rdW State.rd
  rw [hdelay, hlow _ (by decide : R.DRV_ABORT_CTRL_RAMP.off < 0x5004), hlow _ (by decide : R.PERIOD_ACT_INT < 0x5004),
    hlow _ (by decide : R.PERIOD_ACT_FRAC < 0x5004)]

/-- ABORT to one port, if it is ACTIVE. -/
def State.abortOne (s : State) (q : Nat) : State :=
  if s.spState q = spActive then (s.wr (R.SP_STAT_ABORT q) 1).emit (.sample q (spAbort (s.abortRamp q))) else s

/-- From s, u has been reached by ABORT bits and words sent alone. -/
structure State.Aborted (s u : State) : Prop where
  shape : ∃ r o, u = { s with hreg := r, out := o }
  words : ∀ o, (∀ q, o ≠ R.SP_STAT q) → u.word o = s.word o
  spState : ∀ q, u.spState q = s.spState q

theorem State.Aborted.refl (s : State) : s.Aborted s := ⟨⟨_, _, rfl⟩, fun _ _ => rfl, fun _ => rfl⟩

theorem State.Aborted.wrAbort (h : s.Aborted u) (q v : Nat) : s.Aborted (u.wr (R.SP_STAT_ABORT q) v) where
  shape := by
    obtain ⟨r, o, rfl⟩ := h.shape
    exact ⟨_, o, rfl⟩
  words o ho := (u.word_wr_off _ _ _ (ho q)).trans (h.words o ho)
  spState r := .trans (u.rd_wr_ne _ _ _ (by simp) (Or.inl (by simp))) (h.spState r)

theorem State.Aborted.emit (h : s.Aborted u) (x : Out) : s.Aborted (u.emit x) where
  shape := by
    obtain ⟨r, o, rfl⟩ := h.shape
    rcases State.emit_or { s with hreg := r, out := o } x with he | he
    · exact ⟨r, o, he⟩
    · exact ⟨r, _, he⟩
  words o ho := (word_emit x o).trans (h.words o ho)
  spState q := (rd_emit x _).trans (h.spState q)

theorem abortOne_aborted (h : s.Aborted u) (q : Nat) : s.Aborted (u.abortOne q) := closed_ite ((h.wrAbort q 1).emit _) h

theorem abortAll_aborted (m : List Nat) : s.Aborted (m.foldl State.abortOne s) :=
  List.foldlRecOn m _ (.refl s) fun _ hu q _ => abortOne_aborted hu q

namespace State.Aborted

theorem rd (h : s.Aborted u) (f : Fld) (hf : f.off < 0x5100) : u.rd f = s.rd f := by
  unfold State.rd
  rw [h.words f.off fun q => by unfold R.SP_STAT; omega]

theorem bit (h : s.Aborted u) (f : Fld) (hf : f.off < 0x5100) : u.bit f = s.bit f := by
  unfold State.bit
  rw [h.rd f hf]

end State.Aborted

/-- Every ACTIVE port of a list sends ABORT, in order. -/
theorem out_abortAll (m : List Nat) : (m.foldl State.abortOne s).out =
    s.out ++ (m.filter (fun q => s.spState q = spActive)).map (fun q => .sample q (spAbort (s.abortRamp q))) := by
  induction m generalizing s with
  | nil => simp
  | cons q m ih =>
    have h1 := abortOne_aborted (.refl s) q
    rw [List.foldl_cons, ih, funext h1.spState, funext (abortRamp_congr fun o _ ho => h1.words o ho), List.filter_cons]
    unfold State.abortOne
    by_cases ha : s.spState q = spActive
    · rw [if_pos ha, if_pos (decide_eq_true ha), List.map_cons, emit_sample_out, State.wr_out, List.append_assoc, List.singleton_append]
    · rw [if_neg ha, if_neg (by simpa using ha)]

/-- A latch event counted, its source noted (R92). -/
def State.abortCounted (s : State) (bySw : Bool) : State := (s.inc R.DRV_ABORT_STAT_COUNT).wb R.DRV_ABORT_STAT_BY_SW bySw

theorem wr_hregOnly (s : State) (f : Fld) (v : Nat) : ∃ r, s.wr f v = { s with hreg := r } := ⟨_, rfl⟩

theorem hregOnly_wr (h : ∃ r, u = { s with hreg := r }) (f : Fld) (v : Nat) : ∃ r, u.wr f v = { s with hreg := r } := by
  obtain ⟨r, rfl⟩ := h
  exact ⟨_, rfl⟩

theorem abortCounted_hregOnly (s : State) (bySw : Bool) : ∃ r, s.abortCounted bySw = { s with hreg := r } :=
  hregOnly_wr (wr_hregOnly s _ _) _ _

theorem abortCounted_word (s : State) (bySw : Bool) (o : Nat) (ho : o ≠ R.DRV_ABORT_STAT) : (s.abortCounted bySw).word o = s.word o :=
  (State.word_wr_off _ _ _ _ ho).trans (State.word_wr_off _ _ _ _ ho)

theorem abortCounted_rd (s : State) (bySw : Bool) (f : Fld) (hf : f.off ≠ R.DRV_ABORT_STAT) : (s.abortCounted bySw).rd f = s.rd f :=
  (State.rd_wr_off _ _ _ _ hf).trans (State.rd_wr_off _ _ _ _ hf)

theorem abortEvent_latched (bySw : Bool) (hl : s.bit R.DRV_ABORT_STAT_LATCHED = true) : s.abortEvent bySw = s.abortCounted bySw := if_pos hl

theorem abortEvent_first (bySw : Bool) (hl : s.bit R.DRV_ABORT_STAT_LATCHED = false) (hw : s.rd R.WH_FAULT_EN_R523 / 4 % 2 = 0) :
    s.abortEvent bySw = spPorts.foldl State.abortOne ((s.abortCounted bySw).wr R.DRV_ABORT_STAT_LATCHED 1) := by
  let s1 := (s.abortCounted bySw).wr R.DRV_ABORT_STAT_LATCHED 1
  have hin : s1.Aborted (spPorts.foldl State.abortOne s1) := abortAll_aborted _
  have hrd : (spPorts.foldl State.abortOne s1).rd R.WH_FAULT_EN_R523 = s.rd R.WH_FAULT_EN_R523 :=
    (hin.rd _ (by decide)).trans
      ((State.rd_wr_off _ _ _ _ (by decide)).trans (abortCounted_rd s bySw _ (by decide)))
  refine .trans (if_neg (by rw [hl]; exact Bool.false_ne_true)) ?_
  exact whFault_off 2 (hrd.symm ▸ hw)

/-- What a latch event does, whether it is the first or not. -/
theorem abortEvent_result (s : State) (bySw : Bool) (hw : s.rd R.WH_FAULT_EN_R523 / 4 % 2 = 0) :
    (∃ r o, s.abortEvent bySw = { s with hreg := r, out := o }) ∧ (s.abortEvent bySw).bit R.DRV_ABORT_STAT_LATCHED = true ∧
      (s.abortEvent bySw).bit R.DRV_ABORT_STAT_BY_SW = bySw ∧
      (s.abortEvent bySw).rd R.DRV_ABORT_STAT_COUNT = min (s.rd R.DRV_ABORT_STAT_COUNT + 1) (2 ^ R.DRV_ABORT_STAT_COUNT.w - 1) ∧
      (s.abortEvent bySw).out = s.out ++ (if s.bit R.DRV_ABORT_STAT_LATCHED = true then []
        else ((List.range 16).filter (fun q => s.spState q = spActive)).map (fun q => .sample q (spAbort (s.abortRamp q)))) := by
  have hcount : (s.abortCounted bySw).rd R.DRV_ABORT_STAT_COUNT = min (s.rd R.DRV_ABORT_STAT_COUNT + 1) (2 ^ R.DRV_ABORT_STAT_COUNT.w - 1) :=
    (State.rd_wr_ne _ _ _ _ (by decide) (by decide)).trans (rd_inc _ (by decide))
  have hsw : (s.abortCounted bySw).bit R.DRV_ABORT_STAT_BY_SW = bySw := by
    cases bySw with
    | false => exact bit_wr_zero _
    | true => exact bit_wr_one _
  have hout : (s.abortCounted bySw).out = s.out := (out_wb _ _).trans (out_inc _)
  cases hl : s.bit R.DRV_ABORT_STAT_LATCHED with
  | true =>
    rw [abortEvent_latched bySw hl]
    refine ⟨?_, ?_, hsw, hcount, ?_⟩
    · obtain ⟨r, hr⟩ := abortCounted_hregOnly s bySw
      exact ⟨r, _, hr⟩
    · exact (bit_wr_ne _ _ _).trans ((bit_wr_ne _ _ _).trans hl)
    · rw [hout, if_pos rfl, List.append_nil]
  | false =>
    let s1 := (s.abortCounted bySw).wr R.DRV_ABORT_STAT_LATCHED 1
    have hin : s1.Aborted (spPorts.foldl State.abortOne s1) := abortAll_aborted _
    have hst (q : Nat) : s1.spState q = s.spState q :=
      (spState_wr _ _ _ (by unfold R.SP_STAT; dsimp only; omega)).trans (abortCounted_rd s bySw _ (by unfold R.DRV_ABORT_STAT; dsimp only; omega))
    have hramp (q : Nat) : s1.abortRamp q = s.abortRamp q :=
      abortRamp_congr (fun o ho _ => (State.word_wr_off _ _ _ _ ho).trans (abortCounted_word s bySw o ho)) q
    rw [abortEvent_first bySw hl hw]
    refine ⟨?_, ?_, ?_, ?_, ?_⟩
    · obtain ⟨r, o, he⟩ := hin.shape
      obtain ⟨x, hx⟩ := hregOnly_wr (abortCounted_hregOnly s bySw) R.DRV_ABORT_STAT_LATCHED 1
      refine ⟨r, o, he.trans ?_⟩
      rw [show s1 = { s with hreg := x } from hx]
    · exact (hin.bit _ (by decide)).trans (bit_wr_one _)
    · exact (hin.bit _ (by decide)).trans ((bit_wr_ne _ _ _).trans hsw)
    · exact (hin.rd _ (by decide)).trans ((State.rd_wr_ne _ _ _ _ (by decide) (by decide)).trans hcount)
    · rw [out_abortAll, funext hst, funext hramp, State.wr_out, hout]
      rfl

/-- What DRIVE_ABORT_N, or SW, does in the obligation's words. -/
theorem abortEvent_says (s : State) (bySw : Bool) (hw : s.rd R.WH_FAULT_EN_R523 / 4 % 2 = 0) {u : State} (hu : u = (s.abortEvent bySw).settle) :
    u.mem = s.mem ∧ u.cores = s.cores ∧ u.ports = s.ports ∧ u.abortPin = s.abortPin ∧ u.bit R.DRV_ABORT_STAT_LATCHED = true ∧
      u.bit R.DRV_ABORT_STAT_BY_SW = bySw ∧
      u.rd R.DRV_ABORT_STAT_COUNT = min (s.rd R.DRV_ABORT_STAT_COUNT + 1) (2 ^ R.DRV_ABORT_STAT_COUNT.w - 1) ∧
      u.out = s.out ++ (if s.bit R.DRV_ABORT_STAT_LATCHED = true then []
        else ((List.range 16).filter (fun q => s.spState q = spActive)).map (fun q => .sample q (spAbort (s.abortRamp q)))) := by
  obtain ⟨⟨r, o, hs⟩, hl, hb, hc, ho⟩ := abortEvent_result s bySw hw
  subst hu
  rw [State.settle_bit, State.settle_bit, State.settle_rd, State.settle_out, hl, hb, hc, ho, hs]
  exact ⟨rfl, rfl, rfl, rfl, rfl, rfl, rfl, rfl⟩

/-- The pin seen low (R92). -/
def State.pinLow (s : State) : State := { s with abortPin := true }.wr R.DRV_ABORT_STAT_PIN 1

theorem pinLow_shape (s : State) : ∃ r, s.pinLow = { s with abortPin := true, hreg := r } :=
  wr_hregOnly { s with abortPin := true } _ _

theorem pinLow_word (s : State) (o : Nat) (ho : o ≠ R.DRV_ABORT_STAT) : s.pinLow.word o = s.word o := State.word_wr_off _ _ _ _ ho

theorem pinLow_rd (s : State) (f : Fld) (hf : f.off ≠ R.DRV_ABORT_STAT ∨ f.lo + f.w ≤ 31) : s.pinLow.rd f = s.rd f := by
  rcases hf with ho | hl
  · exact State.rd_wr_off _ _ _ _ ho
  · exact State.rd_wr_ne _ _ _ _ (by decide) (Or.inr hl)

theorem pinLow_spState (s : State) (q : Nat) : s.pinLow.spState q = s.spState q :=
  pinLow_rd s (R.SP_STAT_STATE q) (Or.inl (by unfold R.DRV_ABORT_STAT; dsimp only; omega))

theorem pinLow_abortRamp (s : State) (q : Nat) : s.pinLow.abortRamp q = s.abortRamp q :=
  abortRamp_congr (fun o ho _ => pinLow_word s o ho) q

theorem driveAbortAssert_result (hw : s.rd R.WH_FAULT_EN_R523 / 4 % 2 = 0) : ∃ t, exec .driveAbortAssert s = .next t ∧ t.mem = s.mem ∧
    t.cores = s.cores ∧ t.ports = s.ports ∧ t.abortPin = true ∧ t.bit R.DRV_ABORT_STAT_LATCHED = true ∧ t.bit R.DRV_ABORT_STAT_BY_SW = false ∧
    t.rd R.DRV_ABORT_STAT_COUNT = min (s.rd R.DRV_ABORT_STAT_COUNT + 1) (2 ^ R.DRV_ABORT_STAT_COUNT.w - 1) ∧
    t.out = s.out ++ (if s.bit R.DRV_ABORT_STAT_LATCHED = true then []
      else ((List.range 16).filter (fun q => s.spState q = spActive)).map (fun q => .sample q (spAbort (s.abortRamp q)))) := by
  have hbit : s.pinLow.bit R.DRV_ABORT_STAT_LATCHED = s.bit R.DRV_ABORT_STAT_LATCHED := by
    unfold State.bit
    rw [pinLow_rd s R.DRV_ABORT_STAT_LATCHED (by decide)]
  obtain ⟨x, hx⟩ := pinLow_shape s
  have hout : s.pinLow.out = s.out := by rw [hx]
  obtain ⟨hmem, hcores, hports, hpin, hl, hb, hc, ho⟩ := abortEvent_says s.pinLow false (by rw [pinLow_rd s _ (by decide)]; exact hw) rfl
  rw [hbit, funext (pinLow_spState s), funext (pinLow_abortRamp s), hout] at ho
  rw [pinLow_rd s R.DRV_ABORT_STAT_COUNT (by decide)] at hc
  refine ⟨(s.pinLow.abortEvent false).settle, rfl, ?_, ?_, ?_, ?_, hl, hb, hc, ho⟩
  · rw [hmem, hx]
  · rw [hcores, hx]
  · rw [hports, hx]
  · rw [hpin, hx]

theorem drvAbortSw_result (hw : s.rd R.WH_FAULT_EN_R523 / 4 % 2 = 0) : ∃ t, exec .drvAbortSw s = .next t ∧ t.mem = s.mem ∧
    t.cores = s.cores ∧ t.ports = s.ports ∧ t.abortPin = s.abortPin ∧ t.bit R.DRV_ABORT_STAT_LATCHED = true ∧ t.bit R.DRV_ABORT_STAT_BY_SW = true ∧
    t.rd R.DRV_ABORT_STAT_COUNT = min (s.rd R.DRV_ABORT_STAT_COUNT + 1) (2 ^ R.DRV_ABORT_STAT_COUNT.w - 1) ∧
    t.out = s.out ++ (if s.bit R.DRV_ABORT_STAT_LATCHED = true then []
      else ((List.range 16).filter (fun q => s.spState q = spActive)).map (fun q => .sample q (spAbort (s.abortRamp q)))) :=
  ⟨_, rfl, abortEvent_says s true hw rfl⟩

/-- The pin's rise shows in PIN alone (R94). -/
theorem driveAbortNRelease_result : ∃ t, exec .driveAbortNRelease s = .next t ∧ t.abortPin = false ∧ t.bit R.DRV_ABORT_STAT_PIN = false ∧
    Says.words s t [R.DRV_ABORT_STAT] ∧ t.bit R.DRV_ABORT_STAT_LATCHED = s.bit R.DRV_ABORT_STAT_LATCHED ∧ t.out = s.out ∧ t.mem = s.mem := by
  let s1 : State := { s with abortPin := false }
  obtain ⟨x, hx⟩ : ∃ r, s.abortRelease = { s1 with hreg := r } := wr_hregOnly s1 R.DRV_ABORT_STAT_PIN 0
  have hpin : s.abortRelease.bit R.DRV_ABORT_STAT_PIN = false := bit_wr_zero (s := s1) _
  have hlatch : s.abortRelease.bit R.DRV_ABORT_STAT_LATCHED = s.bit R.DRV_ABORT_STAT_LATCHED := bit_wr_ne (s := s1) _ _ _
  have hwords : Says.words s s.abortRelease [R.DRV_ABORT_STAT] := fun o ho =>
    State.word_wr_off s1 R.DRV_ABORT_STAT_PIN 0 o fun he => ho (List.mem_singleton.mpr he)
  refine ⟨s.abortRelease.settle, rfl, ?_⟩
  rw [State.settle_bit, State.settle_bit, hpin, hlatch]
  refine ⟨?_, rfl, fun o ho => (State.settle_word _ o).trans (hwords o ho), rfl, ?_, ?_⟩
  · rw [State.settle_abortPin, hx]
  · rw [State.settle_out, hx]
  · rw [State.settle_mem, hx]

/-- Every port's ABORT bit cleared. -/
def State.abortsCleared (s : State) (m : List Nat) : State := m.foldl (fun t q => t.wr (R.SP_STAT_ABORT q) 0) s

theorem abortsCleared_cons (q : Nat) (m : List Nat) : s.abortsCleared (q :: m) = (s.wr (R.SP_STAT_ABORT q) 0).abortsCleared m :=
  List.foldl_cons ..

theorem abortsCleared_aborted (m : List Nat) : s.Aborted (s.abortsCleared m) := List.foldlRecOn m _ (.refl s) fun _ hu q _ => hu.wrAbort q 0

theorem out_abortsCleared (m : List Nat) : (s.abortsCleared m).out = s.out :=
  List.foldlRecOn m (motive := fun t => State.out t = s.out) _ rfl fun t ht q _ => (t.wr_out (R.SP_STAT_ABORT q) 0).trans ht

/-- A bit cleared stays cleared while others are. -/
theorem bit_abortsCleared (m : List Nat) (hq : q ∈ m ∨ s.bit (R.SP_STAT_ABORT q) = false) : (s.abortsCleared m).bit (R.SP_STAT_ABORT q) = false := by
  induction m generalizing s with
  | nil => simpa [State.abortsCleared] using hq
  | cons r m ih =>
    rw [abortsCleared_cons]
    refine ih ?_
    by_cases hr : q = r
    · subst hr
      exact Or.inr (bit_wr_zero _ (by simp))
    · have hoff : (R.SP_STAT_ABORT q).off ≠ (R.SP_STAT_ABORT r).off := by
        dsimp only
        omega
      rcases hq with hq | hq
      · exact Or.inl ((List.mem_cons.mp hq).resolve_left hr)
      · exact Or.inr ((bit_wr_off _ _ _ hoff).trans hq)

/-- REARM while the pin is high unlatches (R94). -/
theorem drvAbortRearm_high (b : BitVec 4) (hpin : s.abortPin = false) : ∃ t, exec .drvAbortRearm s = .next t ∧
    t.bit R.DRV_ABORT_STAT_LATCHED = false ∧ t.bit (R.SP_STAT_ABORT b.toNat) = false ∧ t.ports = s.ports ∧ t.out = s.out ∧ t.mem = s.mem := by
  let s1 := s.wr R.DRV_ABORT_STAT_LATCHED 0
  have he : s.abortRearm = s1.abortsCleared spPorts := if_neg (by rw [hpin]; exact Bool.false_ne_true)
  have hin : s1.Aborted (s1.abortsCleared spPorts) := abortsCleared_aborted _
  refine ⟨s.abortRearm.settle, rfl, ?_⟩
  rw [he, State.settle_bit, State.settle_bit, State.settle_ports, State.settle_out, State.settle_mem, out_abortsCleared,
    bit_abortsCleared spPorts (Or.inl (List.mem_range.mpr b.isLt)), hin.bit _ (by decide)]
  obtain ⟨r, o, hs⟩ := hin.shape
  obtain ⟨x, hx⟩ : ∃ r, s1 = { s with hreg := r } := wr_hregOnly s _ _
  refine ⟨bit_wr_zero _, rfl, ?_, ?_, ?_⟩
  · rw [hs, hx]
  · rw [hx]
  · rw [hs, hx]

theorem drvAbortRearm_low (hpin : s.abortPin = true) : ∃ t, exec .drvAbortRearm s = .next t ∧ Says.regsOnly s t [] := by
  have he : s.abortRearm = s := if_pos hpin
  refine ⟨s.abortRearm.settle, rfl, ?_⟩
  rw [he]
  exact regsOnly_same s

/-! ### The obligation -/

/-- Settles O38: a lemma of this part to each row, in the order of the statement. -/
theorem portLinkResults : Obligations.PortLinkResults := by
  intro s p n sel first quiet
  refine ⟨fun hoff hd => spCtrlEn_on p hoff hd, fun hst hb => spCtrlEn_off p ?_ hb, fun g => spGenSelWrite_result p g,
    fun g ht => ⟨fun hg hq => spLinkLock_tried p g ht hg hq, fun hg => spLinkLock_other p g hg, fun ha => spGenWindow_next p ht ha⟩,
    fun hi hb ins hins => linkEnds_ident p hi hb hins, fun hh hw ins hins => linkEnds_hold p hh hw hins, fun ha => delayMeasureSp_result p ha,
    fun tag a b htalk hq _ => ⟨fun ht hl => echoReply_more p tag a b (spHears_of_talks htalk hq) ht hl,
      fun ht => echoReply_last p tag a b (spHears_of_talks htalk hq) ht⟩, ?_, driveAbortNRelease_result,
    drvAbortRearm_high p, drvAbortRearm_low⟩
  · rcases hst with h | h | h <;> rw [h] <;> decide
  · intro hw e he
    simp only [List.mem_cons, List.not_mem_nil, or_false] at he
    rcases he with rfl | rfl
    · simpa using driveAbortAssert_result hw
    · simpa using drvAbortSw_result hw

end Sys2Proof.Machine

/-! SUPPORT. What work on an IN block leaves alone (R105, R118, R120, R407, R572): the beat, the cores, the sample ports and their words. -/

namespace Sys2Proof.Machine

open Sys2Proof

-- One proof after another, as in the tests: theorems checked side by side need more threads than the check's memory limit allows.
set_option Elab.async false

/-- What the work on a block does not touch: the beat and its time, the values in force, cores, ports, power, and what stands apart. -/
def State.untouched (s : State) : List Instr × Int × SMap Reg32 × Beat × SMap Core × Dev × SMap Port × Bool × Kennel × Power × Whistle × Boot :=
  (s.pending, s.time, s.force, s.beat, s.cores, s.dev, s.ports, s.abortPin, s.kn, s.pwr, s.wh, s.boot)

/-- From o, s has been reached by work on blocks: storing, sending, reducing and recording them leaves what is untouched and the BAR0
words of the sample ports. -/
structure State.Worked (o s : State) : Prop where
  untouched : s.untouched = o.untouched
  word : ∀ w, 0x5000 ≤ w → w < 0x6000 → s.word w = o.word w

namespace State.Worked

variable {o s t : State}

theorem refl (s : State) : s.Worked s := ⟨rfl, fun _ _ _ => rfl⟩

/-- A step of the parts that such work may change, the words of BAR0 apart. -/
theorem same (h : o.Worked s) (hu : t.untouched = s.untouched := by rfl) (hr : t.hreg = s.hreg := by rfl) : o.Worked t where
  untouched := hu.trans h.untouched
  word w hl hh := (word_of_hreg hr w).trans (h.word w hl hh)

theorem ite {p : Prop} [Decidable p] (hs : o.Worked s) (ht : o.Worked t) : o.Worked (if p then s else t) := closed_ite hs ht

theorem foldl {α : Type} (h : o.Worked s) (f : State → α → State) (l : List α) (hf : ∀ u x, o.Worked u → o.Worked (f u x)) :
    o.Worked (l.foldl f s) := List.foldlRecOn l f h fun u hu x _ => hf u x hu

/-- A fold that carries more than the state. -/
theorem foldlFst {α β : Type} {p : State × β} (h : o.Worked p.1) (f : State × β → α → State × β) (l : List α)
    (hf : ∀ u x, o.Worked u.1 → o.Worked (f u x).1) : o.Worked (l.foldl f p).1 :=
  List.foldlRecOn (motive := fun u => o.Worked u.1) l f h fun u hu x _ => hf u x hu

/-! ### One part of the state -/

theorem onJrn (h : o.Worked s) (f : Journal → Journal) : o.Worked (s.onJrn f) := h.same
theorem onHost (h : o.Worked s) (f : HostIf → HostIf) : o.Worked (s.onHost f) := h.same
theorem onFab (h : o.Worked s) (f : Fabric → Fabric) : o.Worked (s.onFab f) := h.same
theorem onStr (h : o.Worked s) (f : Streams → Streams) : o.Worked (s.onStr f) := h.same
theorem onRed (h : o.Worked s) (f : Red → Red) : o.Worked (s.onRed f) := h.same
theorem setFport (h : o.Worked s) (p : Nat) (x : FPort) : o.Worked (s.setFport p x) := h.onFab _
theorem setClu (h : o.Worked s) (c : Nat) (x : Cluster) : o.Worked (s.setClu c x) := h.same
theorem setCic (h : o.Worked s) (c : Nat) (x : Cic) : o.Worked (s.setCic c x) := h.same
theorem freeNext (h : o.Worked s) : o.Worked s.freeNext := h.same
theorem setEng (h : o.Worked s) (c : Nat) (x : RedEng) : o.Worked (s.setEng c x) := h.onRed _
theorem setRState (h : o.Worked s) (r : RState) : o.Worked (s.setRState r) := h.onRed _
theorem setCtxL (h : o.Worked s) (i l : Nat) (v : Long) : o.Worked (s.setCtxL i l v) := h.onStr _
theorem setGrain (h : o.Worked s) (k : Nat) (v : Grain) : o.Worked (s.setGrain k v) := h.same

theorem setLong (h : o.Worked s) (k : Nat) (v : Long) : o.Worked (s.setLong k v) := by
  unfold State.setLong
  exact ite h.same h.same

theorem emit (h : o.Worked s) (m : Out) : o.Worked (s.emit m) := by
  rcases s.emit_or m with he | he <;> rw [he]
  · exact h
  · exact h.same

/-! ### Words of BAR0 -/

theorem setWord (h : o.Worked s) (off : Nat) (v : Reg32) (ho : off < 0x5000 ∨ 0x6000 ≤ off) : o.Worked (s.setWord off v) where
  untouched := h.untouched
  word w hl hh := by
    rw [State.word_setWord, if_neg (by omega)]
    exact h.word w hl hh

theorem wr (h : o.Worked s) (f : Fld) (v : Nat) (ho : f.off < 0x5000 ∨ 0x6000 ≤ f.off := by dsimp only; omega) : o.Worked (s.wr f v) :=
  h.setWord f.off _ ho

theorem set1 (h : o.Worked s) (f : Fld) (ho : f.off < 0x5000 ∨ 0x6000 ≤ f.off := by dsimp only; omega) : o.Worked (s.set1 f) := h.wr f _ ho

theorem inc (h : o.Worked s) (f : Fld) (ho : f.off < 0x5000 ∨ 0x6000 ≤ f.off := by dsimp only; omega) : o.Worked (s.inc f) := h.wr f _ ho

theorem countDrop (h : o.Worked s) (cnt evt : Fld) (hc : cnt.off < 0x5000 ∨ 0x6000 ≤ cnt.off := by dsimp only; omega)
    (he : evt.off < 0x5000 ∨ 0x6000 ≤ evt.off := by dsimp only; omega) : o.Worked (s.countDrop cnt evt) := (h.inc cnt hc).set1 evt he

/-! ### Events and the journal's intake -/

theorem reportClosed (o : State) : ReportClosed o.Worked where
  setWord off v h hoff := h.setWord off v (by unfold Reported at hoff; omega)
  onJrn f h := h.onJrn f
  onHost f h _ := h.onHost f
  setChan _ _ h _ := h.onHost _
  emit x h := h.emit x

theorem hostEvent (h : o.Worked s) (code cls : Nat) (arg : List Octet) : o.Worked (s.hostEvent code cls arg) :=
  (reportClosed o).hostEventAt h _ _ _ _

theorem offerRec (h : o.Worked s) (r : JRec) : o.Worked (s.offerRec r) := (reportClosed o).offerRec h r

/-! ### Frames and fault reports -/

theorem setLink (h : o.Worked s) (p vl : Nat) (l : Link) : o.Worked (s.setLink p vl l) := h.setFport p _

theorem frameOut (h : o.Worked s) (p : Nat) (f : Frame) : o.Worked (s.frameOut p f).2 := ite (h.setFport p _) h

theorem startFrame (h : o.Worked s) (p : Nat) (f : Frame) : o.Worked (s.startFrame p f) :=
  (((h.frameOut p _).setLink p _ _).emit _).inc (R.TX_BE_V p)

theorem sendNext (h : o.Worked s) (p vl : Nat) : o.Worked (s.sendNext p vl) := by
  unfold State.sendNext
  extract_lets l
  split
  · split
    · exact ((h.setLink p vl _).emit _).inc (R.FP_RETRY_V p)
    · exact h.setLink p vl _
  · exact (h.setLink p vl _).startFrame p _
  · exact h

theorem flushPort (p n : Nat) : ∀ {s : State}, o.Worked s → o.Worked (State.flushPort p n s) := by
  induction n with
  | zero => exact fun h => h
  | succ n ih =>
    intro s h
    unfold State.flushPort
    split
    · exact h
    · exact ih (h.sendNext p _)

theorem sendOn (h : o.Worked s) (p : Nat) (f : Frame) : o.Worked (s.sendOn p f) := by
  unfold State.sendOn
  extract_lets g vl l s1 l1 need
  have h1 : o.Worked s1 := flushPort p _ (h.setLink p vl _)
  exact ite (h1.inc (R.CRED_WAIT_V p)) h1

theorem originate (h : o.Worked s) (f : Frame) : o.Worked (s.originate f) :=
  ite (h.sendOn _ f) (ite (h.sendOn _ f) (h.countDrop R.DROP_NOROUTE_V R.PACK_EVT_NOROUTE))

theorem broadcast (h : o.Worked s) (f : Frame) (but : Option Nat) : o.Worked (s.broadcast f but) :=
  h.foldl _ _ fun _ _ hu => ite (hu.sendOn _ f) hu

theorem sendTo (h : o.Worked s) (vl dst : Nat) (load : Payload) : o.Worked (s.sendTo vl dst load) :=
  ite (h.foldl _ _ fun _ _ hu => hu.originate _) (ite (h.broadcast _ _) (h.originate _))

theorem sendReport (h : o.Worked s) (r : FaultRep) : o.Worked (s.sendReport r) := ite (h.hostEvent _ _ _) (h.sendTo _ _ _)

theorem frCount (h : o.Worked s) : o.Worked s.frCount := h.wr R.FR_STAT_V _

theorem takeReport (h : o.Worked s) (r : FaultRep) : o.Worked (s.takeReport r) :=
  ite (h.sendReport _) (ite (h.sendReport _) (ite (h.onFab _) (ite ((h.countDrop R.FR_LATE_V R.PACK_EVT_FR_OVERFLOW).sendReport _)
    (ite ((h.countDrop R.FR_OVERFLOW_V R.PACK_EVT_FR_OVERFLOW).sendReport _) (h.onFab _).frCount))))

theorem selfFault (h : o.Worked s) (code unit : Nat) (arg : List Octet) : o.Worked (s.selfFault code unit arg) := by
  have h1 : o.Worked (s.hostEvent code 6 arg) := h.hostEvent _ _ _
  exact ite (takeReport (h1.freeNext.same) _) h1

/-! ### Uncorrectable memory -/

theorem cicEdge (h : o.Worked s) (c src : Nat) : o.Worked (s.cicEdge c src) := ite (h.setCic c _) h

theorem foundUnc (h : o.Worked s) (k : Nat) : o.Worked (s.foundUnc k) := by
  unfold State.foundUnc
  split
  · exact (h.set1 (R.DDR_EVT_UNC ((k - 0x1000000000) / 0x800000000))).selfFault _ _ _
  · exact ite (h.selfFault _ _ _) (ite (h.selfFault _ _ _) h)

theorem scan (h : o.Worked s) (x n : Nat) : o.Worked (s.scan x n) := h.foldl _ _ fun _ k hu => hu.foundUnc k

/-! ### Streams -/

theorem putElem (h : o.Worked s) (c : CtxCfg) (x j : Nat) (v : Long) : o.Worked (s.putElem c x j v) :=
  ite (h.setLong _ _) (h.setGrain _ _)

theorem putElems (c : CtxCfg) (x : Nat) (l : List Long) : ∀ (j : Nat) {s : State}, o.Worked s →
    o.Worked (State.putElems c x j l s) := by
  induction l with
  | nil => exact fun _ _ h => h
  | cons v r ih => exact fun j _ h => ih (j + 1) (h.putElem c x j v)

theorem countOvr (h : o.Worked s) (i : Nat) : o.Worked (s.countOvr i) := h.setCtxL i 11 _

theorem setGathered (h : o.Worked s) (i : Nat) (l : List (BitVec 48 × Long × List Long)) : o.Worked (s.setGathered i l) := h.onJrn _

theorem flushGather (h : o.Worked s) (i : Nat) : o.Worked (s.flushGather i) := ite h ((h.setGathered i []).offerRec _)

theorem windowStat (h : o.Worked s) : o.Worked s.windowStat := h.wr R.J_STAT_EW_ACTIVE _

theorem windowOne (h : o.Worked s) (wid i : Nat) (e : BitVec 48) (hdr : Long) (l : List Long) : o.Worked (s.windowOne wid i e hdr l) := by
  unfold State.windowOne
  split
  · exact h
  · exact ite ((((h.offerRec _).onJrn _).set1 R.J_EVT_EW_DONE).windowStat) ((h.offerRec _).onJrn _)

theorem windowSlot (h : o.Worked s) (i : Nat) (e : BitVec 48) (hdr : Long) (l : List Long) : o.Worked (s.windowSlot i e hdr l) :=
  h.foldl _ _ fun _ w hu => hu.windowOne w.wid i e hdr l

theorem setRemBlocks (h : o.Worked s) (i : Nat) (l : List RemBlk) : o.Worked (s.setRemBlocks i l) := h.onStr _

theorem remTake (h : o.Worked s) (d fmt store spb offs : Nat) (e : BitVec 48) (l : List Long) :
    o.Worked (s.remTake d fmt store spb offs e l) :=
  ite ((h.countOvr d).setRemBlocks d _) (ite (h.countOvr d) (ite (putElems _ _ _ _ (h.setRemBlocks d _)) (h.setRemBlocks d _)))

theorem localDeliver (h : o.Worked s) (d i : Nat) (c : CtxCfg) (e : BitVec 48) (l : List Long) :
    o.Worked (s.localDeliver d i c e l) := ite (h.remTake _ _ _ _ _ _ _) (ite (h.countOvr d) h)

theorem eligible (h : o.Worked s) (e : Nat) (x : SendBlk) : o.Worked (s.eligible e x) :=
  ite ((h.onFab _).countDrop R.VL0_STALE_V R.PACK_EVT_VL0_LOSS) (h.onFab _)

theorem sendVl1 (h : o.Worked s) (i : Nat) (c : CtxCfg) (node dctx : Nat) (e : BitVec 48) (l : List Long) :
    o.Worked (s.sendVl1 i c node dctx e l) := h.foldl _ _ fun _ _ hu => hu.foldl _ _ fun _ _ hv => hv.originate _

theorem sendBlock (h : o.Worked s) (i : Nat) (e : BitVec 48) (l : List Long) : o.Worked (s.sendBlock i e l) :=
  ite (h.foldl _ _ fun _ _ hu => ite (hu.foldl _ _ fun _ n hv => hv.eligible n _)
    (ite (hu.sendVl1 _ _ _ _ _ _) (ite (hu.localDeliver _ _ _ _ _) hu))) h

/-! ### Reductions -/

theorem wl (h : o.Worked s) (r : RState) (l : Nat) (v : Long) : o.Worked (s.wl r l v) := h.setLong _ v

theorem setReReg (h : o.Worked s) (c off : Nat) (v : Long) : o.Worked (s.setReReg c off v) := h.setEng c _

theorem writeReErr (h : o.Worked s) (c : Nat) (err en : Long) : o.Worked (s.writeReErr c err en) :=
  ite (((h.setReReg c _ _).setReReg c _ _).cicEdge c 65) ((h.setReReg c _ _).setReReg c _ _)

theorem setReErr (h : o.Worked s) (c bit : Nat) : o.Worked (s.setReErr c bit) := h.writeReErr c _ _

/-! ### Reductions -/

theorem failState (h : o.Worked s) (r : RState) (e : Nat × Nat) : o.Worked (s.failState r e) := by
  have h1 := (h.setRState { r with failed := true }).setReReg (s.rowner r) 0x010 (BitVec.ofNat 40 (r.src * 2 ^ 22 + r.slot * 2 ^ 20))
  exact ((ite (h1.wl r 2 _) h1).scan _ _).setReErr _ 3

theorem spoil (h : o.Worked s) (x n : Nat) : o.Worked (s.spoil x n) := ite (h.onRed _) h

theorem storeStats (h : o.Worked s) (r : RState) (x : StatsRun) : o.Worked (s.storeStats r x) :=
  h.foldl _ _ fun _ e hu => hu.wl r e.1 e.2

theorem takeStats (h : o.Worked s) (r : RState) (l : List Int) : o.Worked (s.takeStats r l) := (h.storeStats r _).setRState _

theorem addMat (h : o.Worked s) (r : RState) (i n : Nat) : o.Worked (s.addMat r i n).1 := h.setLong _ _

theorem addDelta (h : o.Worked s) (r : RState) (i n : Nat) : o.Worked (s.addDelta r i n).1 := by
  unfold State.addDelta
  split
  · exact h.setGrain _ _
  · exact h

theorem addBin (h : o.Worked s) (r : RState) (i n : Nat) : o.Worked (s.addBin r i n).1 := (h.addMat r i n).addDelta r i n

theorem countCycle (h : o.Worked s) (r : RState) (f : Flow) (u v : Int) (full : Bool) :
    o.Worked (s.countCycle r f u v full).1 := by
  unfold State.countCycle
  extract_lets x
  split
  · exact h.foldlFst _ _ fun u e hu => hu.addBin r e.1 e.2
  · exact h
  · exact h

theorem spillOut (h : o.Worked s) (r : RState) (f : Flow) : o.Worked (s.spillOut r f).1 := by
  unfold State.spillOut
  extract_lets len
  split
  · next x rest hst =>
    split
    · split
      · exact h.countCycle r f _ _ _
      · exact h
    · extract_lets v d x c g w
      have hc : o.Worked c.1 := by
        unfold c
        split
        · exact h.countCycle r _ _ _ _
        · exact h
      split
      · exact hc.setLong _ _
      · exact hc
  · exact h

theorem spillIn (r : RState) (n : Nat) : ∀ p : State × Flow, o.Worked p.1 → o.Worked (State.spillIn r n p).1 := by
  induction n with
  | zero => exact fun _ h => h
  | succ n ih =>
    intro p h
    unfold State.spillIn
    split
    · exact ih _ h
    · exact h

theorem fourPoint (r : RState) (n : Nat) : ∀ p : State × Flow, o.Worked p.1 → o.Worked (State.fourPoint r n p).1 := by
  induction n with
  | zero => exact fun _ h => h
  | succ n ih =>
    intro p h
    unfold State.fourPoint
    split
    · split
      · exact ih _ (spillIn r 4 _ (h.countCycle r _ _ _ _))
      · exact h
    · exact h

theorem pushPoint (h : o.Worked s) (r : RState) (f : Flow) (x : Int) : o.Worked (s.pushPoint r f x).1 := by
  unfold State.pushPoint
  split
  · exact h
  · refine fourPoint r _ _ ?_
    dsimp only
    split
    · exact h.spillOut r f
    · exact h

theorem putStack (r : RState) (l : List Int) : ∀ (k : Nat) {s : State}, o.Worked s → o.Worked (State.putStack r k l s) := by
  induction l with
  | nil => exact fun _ _ h => h
  | cons x l ih => exact fun k _ h => ih (k + 1) (h.wl r _ _)

theorem storeFlow (h : o.Worked s) (r : RState) (f : Flow) : o.Worked (s.storeFlow r f) := by
  unfold State.storeFlow
  split
  · exact h.failState r _
  · exact (putStack r _ _ (h.foldl _ _ fun _ e hu => hu.wl r e.1 e.2)).setRState _

theorem takeFlow (h : o.Worked s) (r : RState) (l : List Int) : o.Worked (s.takeFlow r l) := by
  unfold State.takeFlow
  refine storeFlow (foldlFst h _ _ fun u x hu => ?_) r _
  dsimp only
  split
  · exact hu.pushPoint r _ _
  · exact hu

theorem takePkvl (h : o.Worked s) (r : RState) (l : List (Int × Nat)) : o.Worked (s.takePkvl r l) :=
  setRState (h.foldl _ _ fun _ e hu => hu.wl r e.1 e.2) _

theorem putRow (h : o.Worked s) (r : RState) (p : Nat) (l : List (Nat × Nat × Option Long)) : o.Worked (s.putRow r p l) :=
  h.foldl _ _ fun _ _ hu => by
    split
    · exact ite (hu.setLong _ _) hu
    · exact hu

theorem putAcc (x : Nat) (d : List Long) (n : Nat) : ∀ {s : State}, o.Worked s → o.Worked (State.putAcc x d n s) := by
  induction n with
  | zero => exact fun h => h
  | succ n ih => exact fun h => ih (h.setLong _ _)

theorem specFrames (n : Nat) : ∀ (r : RState) {s : State}, o.Worked s → o.Worked (State.specFrames n r s) := by
  induction n with
  | zero => exact fun _ _ h => h
  | succ n ih =>
    intro r s h
    unfold State.specFrames
    split
    · exact h
    · extract_lets f spb lo ms fr gap k d r1 s1 s2
      have h1 : o.Worked s1 := (h.wl r 17 _).wl r 18 _
      have h2 : o.Worked s2 := ite h1 (putAcc _ _ _ h1)
      exact ite (ite (h.failState r _) (ite (h.failState r _) (ih _ (h2.setRState _)))) h

theorem takeSpec (h : o.Worked s) (r : RState) (m : Nat) (e : BitVec 48) (l : List (Option Int)) :
    o.Worked (s.takeSpec r m e l) := by
  unfold State.takeSpec
  extract_lets spb r0 pos vals t0 keep rows r1 s1 fill new
  have h1 : o.Worked s1 := ite (h.wl _ 16 _) h
  have hfill : ∀ u k, o.Worked u → o.Worked (fill u k) := by
    intro u k hu
    unfold fill
    split
    · exact hu
    · exact hu.wl r0 _ _
  exact ite (specFrames _ _ (h1.setRState r1)) (ite (h1.failState r1 _) (specFrames _ _ (setRState (foldl (h1.putRow r0 t0 new) _ _ hfill) r1)))

theorem putY (h : o.Worked s) (r : RState) (l : Nat) (y : Int) : o.Worked (s.putY r l y) := (h.wl r l _).wl r (l + 1) _

theorem srsStep (h : o.Worked s) (r : RState) (x x1 x2 : Int) (first : Bool) (i : Nat) :
    o.Worked (s.srsStep r x x1 x2 first i).1 := (((h.putY r _ _).putY r _ _).wl r _ _).wl r _ _

theorem takeSrs (h : o.Worked s) (r : RState) (l : List (Option Int)) : o.Worked (s.takeSrs r l) := by
  unfold State.takeSrs
  refine setRState (foldlFst h _ _ fun u x hu => wl (wl ?_ r 5 _) r 6 _) _
  exact foldlFst (p := (u.1, u.2.1)) hu _ _ fun v i hv => hv.srsStep r _ _ _ _ i

theorem takeDecim (h : o.Worked s) (r : RState) (l : List (Option Int)) : o.Worked (s.takeDecim r l) := by
  unfold State.takeDecim
  extract_lets osh
  refine ite (h.failState r _) (setRState (foldlFst h _ _ fun u v hu => ?_) _)
  dsimp only
  split
  · exact hu
  · have h2 : ∀ x y z, o.Worked (((u.1.setLong x y).wl r 8 y).wl r 7 z) := fun x y z => ((hu.setLong x y).wl r 8 y).wl r 7 z
    split
    · exact (h2 _ _ _).failState _ _
    · split
      · exact h2 _ _ _
      · exact h2 _ _ _

theorem redState (h : o.Worked s) (it : RedItem) (l : List (Option Int)) (r : RState) : o.Worked (s.redState it l r) := by
  unfold State.redState
  split
  · exact h
  · next q _ =>
    refine ite h (ite (h.failState q _) ?_)
    extract_lets v g r1 s1
    have h1 : o.Worked s1 := (h.wl q 3 _).setRState r1
    refine ite h1 (ite (h1.takeStats r1 v) (ite (h1.takeFlow r1 v) (ite (h1.takePkvl r1 _) (ite (h1.takeSpec r1 0 _ l)
      (ite ?_ (ite (h1.takeSrs r1 l) (h1.takeDecim r1 l)))))))
    split
    · exact ite h1 (ite (h1.failState _ _) (h1.takeSpec _ _ _ _))
    · exact h1

theorem redItem (h : o.Worked s) (it : RedItem) : o.Worked (s.redItem it) := h.foldl _ _ fun _ r hu => hu.redState it _ r

theorem intakeDrop (h : o.Worked s) (c : Nat) (it : RedItem) : o.Worked (s.intakeDrop c it) :=
  ((h.foldl _ _ fun _ r hu => (hu.wl r 3 _).setRState _).setReReg c _ _).setReErr c 2

theorem intake (h : o.Worked s) (c : Nat) (it : RedItem) : o.Worked (s.intake c it) := by
  unfold State.intake
  extract_lets put drop
  have hput : ∀ u, o.Worked u → o.Worked (put u) := fun u hu => hu.setEng c _
  refine ite (hput _ h) (ite (h.freeNext.intakeDrop c it) ?_)
  split
  · exact ite (hput _ h.freeNext) (hput _ ((h.freeNext.setEng c _).redItem _))
  · exact hput _ h.freeNext

theorem redHand (h : o.Worked s) (i : Nat) (e n : BitVec 48) : o.Worked (s.redHand i e n) := by
  unfold State.redHand
  refine ite ?_ h
  split
  · exact h
  · exact ite h (h.intake _ _)

theorem gatherSlot (h : o.Worked s) (i : Nat) (e : BitVec 48) (hdr : Long) (l : List Long) : o.Worked (s.gatherSlot i e hdr l) := by
  have h1 := h.windowSlot i e hdr l
  exact ite h1 (ite (flushGather (setGathered (ite (h1.flushGather i) h1) i _) i) (setGathered (ite (h1.flushGather i) h1) i _))

/-! ### IN blocks (R105, R572) -/

theorem countGaps (h : o.Worked s) (i n : Nat) (e : BitVec 48) (beat : Bool) : o.Worked (s.countGaps i n e beat) :=
  ite (((h.setCtxL i 10 _).setCtxL i 10 _).setCtxL i 12 _) (h.setCtxL i 10 _)

theorem countClip (h : o.Worked s) (i n : Nat) : o.Worked (s.countClip i n) := h.setCtxL i 11 _

theorem writeSlot (h : o.Worked s) (c : CtxCfg) (e : BitVec 48) (l : List Long) (hdr : Long) : o.Worked (s.writeSlot c e l hdr) :=
  ((putElems _ _ _ _ h).setLong _ _).spoil _ _

theorem noteIn (h : o.Worked s) (c : CtxCfg) (gaps : Nat) (deadline : Bool) : o.Worked (s.noteIn c gaps deadline) := h.setClu _ _

theorem inFinal (h : o.Worked s) (i : Nat) (e : BitVec 48) (l : List (Option Grain)) (deadline : Bool) : o.Worked (s.inFinal i e l deadline) :=
  ite ((h.onStr _).countGaps i _ e true)
    (((((((((h.onStr _).countGaps i _ e _).countClip i _).writeSlot _ e _ _).noteIn _ _ _).sendBlock i e _).redHand i e _).gatherSlot i e _ _))

theorem passIn (h : o.Worked s) (p : Nat) (e : BitVec 48) : o.Worked (s.passIn p e) :=
  h.foldl _ _ fun _ i hu => ite hu (hu.inFinal i e _ false)

/-! ### What is read of a state so reached -/

theorem ports (h : o.Worked s) : s.ports = o.ports := congrArg (fun x => x.2.2.2.2.2.2.1) h.untouched

theorem port (h : o.Worked s) (p : Nat) : s.port p = o.port p := by
  unfold State.port
  rw [h.ports]

end State.Worked

end Sys2Proof.Machine

/-! PROOFS. Messages of a sample port and what follows from them (R78, R82 to R89, R575): descriptors, plans, sensors, deadline, auto-binding. -/

namespace Sys2Proof.Machine

open Sys2Proof

-- One proof after another, as in the tests: theorems checked side by side need more threads than the check's memory limit allows.
set_option Elab.async false

variable {s t u : State} {p q : Nat} {l : List Nat}

/-! ### A message heard (R88) -/

@[simp] theorem out_mgmtAck (p tag : Nat) : (s.mgmtAck p tag).out = s.out ++ [Says.ackOf p tag] := emit_sample_out _ _

@[simp] theorem port_mgmtAck (p tag q : Nat) : (s.mgmtAck p tag).port q = s.port q := port_emit _ q

@[simp] theorem rd_mgmtAck (p tag : Nat) (f : Fld) : (s.mgmtAck p tag).rd f = s.rd f := rd_emit _ f

@[simp] theorem spState_mgmtAck (p tag q : Nat) : (s.mgmtAck p tag).spState q = s.spState q := rd_emit _ _

theorem mgmtAck_portIn (h : s.PortIn u p l) (tag : Nat) : s.PortIn (u.mgmtAck p tag) p l := h.emit _

/-- A message of a module that talks is acknowledged and acted on where its CRC holds. -/
theorem mgmtIn_holds (b : BitVec 4) {tag : MgmtTag} {kind : Nat} {body : List Octet} (act : Nat → State → State) (hh : s.spHears b.toNat = true)
    (hc : tag.holds kind body = true) : s.mgmtIn b tag kind body act = act b.toNat (s.mgmtAck b.toNat tag.tag.toNat) := by
  unfold State.mgmtIn
  rw [hh, hc]
  rfl

theorem mgmtIn_fails (b : BitVec 4) {tag : MgmtTag} {kind : Nat} {body : List Octet} (act : Nat → State → State)
    (hc : tag.holds kind body = false) : s.mgmtIn b tag kind body act = s := by
  unfold State.mgmtIn
  rw [hc, Bool.and_false]
  rfl

/-! ### HEARTBEAT, ACK, REG_DATA, MODULE_EVT (R88) -/

theorem heartbeat_holds (b : BitVec 4) (tag : MgmtTag) (hh : s.spHears b.toNat = true) (hc : tag.holds 0x0C [] = true) :
    ∃ t, exec (.heartbeat b tag) s = .next t ∧ Says.portOnly s t b.toNat [] ∧ t.ports = s.ports ∧
      t.out = s.out ++ [Says.ackOf b.toNat tag.tag.toNat] := by
  refine ⟨_, congrArg done (mgmtIn_holds b _ hh hc), (mgmtAck_portIn (.refl s _ _) _).portOnly, ?_, out_mgmtAck _ _⟩
  exact s.emit_ports _

theorem heartbeat_fails (b : BitVec 4) (tag : MgmtTag) (hc : tag.holds 0x0C [] = false) :
    ∃ t, exec (.heartbeat b tag) s = .next t ∧ Says.regsOnly s t [] :=
  ⟨_, congrArg done (mgmtIn_fails b _ hc), regsOnly_same s⟩

theorem regData_holds (b : BitVec 4) (tag : MgmtTag) (a : BitVec 16) (v : Reg32) (hh : s.spHears b.toNat = true)
    (hc : tag.holds 0x09 (le 2 a.toNat ++ le 4 v.toNat) = true) : ∃ t, exec (.regData b tag a v) s = .next t ∧ Says.portOnly s t b.toNat [] ∧
      t.ports = s.ports ∧ t.out = s.out ++ [Says.ackOf b.toNat tag.tag.toNat, .regData b.toNat a.toNat v.toNat] := by
  refine ⟨_, congrArg done (mgmtIn_holds b _ hh hc), ((mgmtAck_portIn (.refl s _ _) _).emit _).portOnly, ?_, ?_⟩
  · exact (State.emit_ports _ _).trans (s.emit_ports _)
  · exact List.append_assoc s.out [_] [_]

theorem moduleEvt_holds (b : BitVec 4) (tag : MgmtTag) (c : BitVec 16) (beat : BitVec 48) (x : List Octet) (hh : s.spHears b.toNat = true)
    (hc : tag.holds 0x0B (le 2 c.toNat ++ le 6 beat.toNat ++ x) = true) : ∃ t, exec (.moduleEvt b tag c beat x) s = .next t ∧
      Says.portOnly s t b.toNat [R.SP_EVT b.toNat] ∧ t.ports = s.ports ∧ t.bit (R.SP_EVT_MOD_EVT b.toNat) = true ∧
      t.out = s.out ++ [Says.ackOf b.toNat tag.tag.toNat, .moduleEvent b.toNat c.toNat beat x] := by
  let s1 := s.mgmtAck b.toNat tag.tag.toNat
  let s2 := s1.set1 (R.SP_EVT_MOD_EVT b.toNat)
  have hports : s2.ports = s.ports := (s1.wr_ports _ _).trans (s.emit_ports _)
  have hout : s2.out = s.out ++ [Says.ackOf b.toNat tag.tag.toNat] := (out_set1 (s := s1) (R.SP_EVT_MOD_EVT b.toNat)).trans (out_mgmtAck _ _)
  have hbit : s2.bit (R.SP_EVT_MOD_EVT b.toNat) = true := State.bit_set1 _ _ (by simp) (by simp)
  refine ⟨_, congrArg done (mgmtIn_holds b _ hh hc), (((mgmtAck_portIn (.refl s _ _) _).set1 (R.SP_EVT_MOD_EVT b.toNat)).emit _).portOnly, ?_⟩
  rw [State.settle_ports, State.emit_ports, State.settle_bit, bit_emit, State.settle_out]
  refine ⟨hports, hbit, ?_⟩
  change s2.out ++ [_] = _
  rw [hout, List.append_assoc, List.singleton_append]

theorem ack_holds (b : BitVec 4) (tag : MgmtTag) (hh : s.spHears b.toNat = true) (hc : tag.holds 0x0D [tag.tag] = true) :
    ∃ t, exec (.ack b tag) s = .next t ∧ Says.portOnly s t b.toNat [] ∧ t.out = s.out ∧
      (t.port b.toNat).mgmt = (s.port b.toNat).mgmt.filter (fun m => m.tag ≠ tag.tag.toNat) := by
  refine ⟨_, congrArg done (if_pos (by rw [hh, hc]; rfl)), ((State.PortIn.refl s _ _).onPort _).portOnly, rfl, ?_⟩
  rw [port_settle, port_onPort]

/-! ### A message not acknowledged (R88) -/

theorem mgmtRetry_again (b : BitVec 4) (tag : Octet) {m : Mgmt} (hm : (s.port b.toNat).mgmt = [m]) (ht : m.tag = tag.toNat) (hs : m.sends < 4) :
    ∃ t, exec (.mgmtRetry b tag) s = .next t ∧ Says.portOnly s t b.toNat [] ∧ (t.port b.toNat).mgmt = [{ m with sends := m.sends + 1 }] ∧
      t.out = s.out ++ [.sample b.toNat (spMgmt m.tag m.kind m.body)] := by
  have he : s.mgmtRetry b.toNat tag.toNat = (s.onPort b.toNat (fun x => { x with
      mgmt := x.mgmt.map (fun y => if y.tag = tag.toNat then { y with sends := y.sends + 1 } else y) })).emit
        (.sample b.toNat (spMgmt m.tag m.kind m.body)) := by
    unfold State.mgmtRetry
    rw [hm, List.find?_cons_of_pos (by simpa using ht)]
    exact if_pos hs
  refine ⟨(s.mgmtRetry b.toNat tag.toNat).settle, rfl, ?_⟩
  rw [he]
  refine ⟨(((State.PortIn.refl s _ _).onPort _).emit _).portOnly, ?_, rfl⟩
  rw [port_settle, port_emit, port_onPort, hm]
  simp [ht]

theorem mgmtRetry_dropped (b : BitVec 4) (tag : Octet) {m : Mgmt} (hm : (s.port b.toNat).mgmt = [m]) (ht : m.tag = tag.toNat) (hs : 4 ≤ m.sends) :
    ∃ t, exec (.mgmtRetry b tag) s = .next t ∧ Says.portOnly s t b.toNat [R.SP_EVT b.toNat] ∧ (t.port b.toNat).mgmt = [] ∧ t.out = s.out ∧
      t.bit (R.SP_EVT_MOD_EVT b.toNat) = true := by
  have he : s.mgmtRetry b.toNat tag.toNat = (s.onPort b.toNat (fun x => { x with mgmt := x.mgmt.filter (fun y => y.tag ≠ tag.toNat) })).set1
      (R.SP_EVT_MOD_EVT b.toNat) := by
    unfold State.mgmtRetry
    rw [hm, List.find?_cons_of_pos (by simpa using ht)]
    exact if_neg (Nat.not_lt.mpr hs)
  refine ⟨(s.mgmtRetry b.toNat tag.toNat).settle, rfl, ?_⟩
  rw [he]
  refine ⟨(((State.PortIn.refl s _ _).onPort _).set1 (R.SP_EVT_MOD_EVT b.toNat)).portOnly, ?_, ?_, ?_⟩
  · rw [port_settle, port_set1, port_onPort, hm]
    simp [ht]
  · rw [State.settle_out, out_set1, out_onPort]
  · rw [State.settle_bit, State.bit_set1 _ _ (by simp) (by simp)]

/-! ### Events leave nothing on the links -/

theorem out_hostEvent (code cls : Nat) (arg : List Octet) : (s.hostEvent code cls arg).out = s.out := by
  unfold State.hostEvent State.hostEventAt
  refine closed_ite (P := fun t => State.out t = s.out) rfl (List.foldlRecOn (motive := fun t => State.out t = s.out) _ _ ?_ ?_)
  · exact closed_ite (P := fun t => State.out t = s.out) (closed_ite (P := fun t => State.out t = s.out) (out_inc _) rfl) rfl
  · intro t ht ch _
    exact closed_ite (P := fun t => State.out t = s.out) (closed_ite (P := fun t => State.out t = s.out) ((out_inc _).trans ht) ht) ht

theorem out_arrivalEvent (p code : Nat) : (s.arrivalEvent p code).out = s.out := by
  unfold State.arrivalEvent
  split
  · rfl
  · exact out_hostEvent _ _ _

/-! ### A port in HOLD (R82) -/

/-- A port held for a reason, before the host is told. -/
def State.held (s : State) (p why : Nat) : State :=
  (((((((s.dropPlan p).onPort p (fun x => { x with inForce := none, expect := none, part := none, blank := [] })).wr (R.SP_STAT_STATE p) spHold).wr
    (R.SP_STAT_PLAN_ID p) 0).wr (R.SP_STAT_HOLD_WHY p) why).wr (R.SP_STAT_ABORT p) 0).set1 (R.SP_EVT_HOLD p))

theorem holdPort_eq (hb : (s.port p).bind = none) (ha : s.spState p ≠ spActive) (why : Nat) :
    s.holdPort p why = (s.held p why).hostEvent 0x0012 1 (le 1 p ++ le 1 why) := by
  unfold State.holdPort
  rw [bindLost_none hb]
  dsimp only
  rw [if_neg ha]
  rfl

theorem dropPlan_portIn (h : s.PortIn u p l) (hm : R.SP_STAT p ∈ l := by simp) : s.PortIn (u.dropPlan p) p l :=
  ((h.onPort _).wr (R.SP_STAT_PLAN_PEND p) _ hm).wr (R.SP_STAT_PLAN_ACK p) _ hm

theorem port_dropPlan (p : Nat) : (s.dropPlan p).port p = { s.port p with plan := none } := by
  unfold State.dropPlan
  rw [port_wr, port_wr, port_onPort]

theorem out_dropPlan (p : Nat) : (s.dropPlan p).out = s.out := by
  unfold State.dropPlan
  rw [State.wr_out, State.wr_out, out_onPort]

theorem held_portIn (h : s.PortIn u p l) (why : Nat) (hm : R.SP_STAT p ∈ l := by simp) (he : R.SP_EVT p ∈ l := by simp) :
    s.PortIn (u.held p why) p l :=
  ((((((dropPlan_portIn h hm).onPort _).wr (R.SP_STAT_STATE p) _ hm).wr (R.SP_STAT_PLAN_ID p) _ hm).wr (R.SP_STAT_HOLD_WHY p) _ hm).wr
    (R.SP_STAT_ABORT p) _ hm).set1 (R.SP_EVT_HOLD p) he

theorem port_held (p why : Nat) : (s.held p why).port p =
    { s.port p with plan := none, inForce := none, expect := none, part := none, blank := [] } := by
  unfold State.held
  rw [port_set1, port_wr, port_wr, port_wr, port_wr, port_onPort, port_dropPlan]

theorem out_held (p why : Nat) : (s.held p why).out = s.out := by
  unfold State.held
  rw [out_set1, State.wr_out, State.wr_out, State.wr_out, State.wr_out, out_onPort, out_dropPlan]

theorem spState_held (p why : Nat) : (s.held p why).spState p = spHold := by
  unfold State.held State.spState State.set1
  rw [State.rd_wr_off _ _ _ _ (by simp), State.rd_wr_ne _ _ _ _ (by simp) (by simp), State.rd_wr_ne _ _ _ _ (by simp) (by simp),
    State.rd_wr_ne _ _ _ _ (by simp) (by simp), State.rd_wr _ _ _ (by simp)]
  rfl

theorem holdWhy_held (p : Nat) {why : Nat} (hw : why < 16) : (s.held p why).rd (R.SP_STAT_HOLD_WHY p) = why := by
  unfold State.held State.set1
  rw [State.rd_wr_off _ _ _ _ (by simp), State.rd_wr_ne _ _ _ _ (by simp) (by simp), State.rd_wr _ _ _ (by simp)]
  exact Nat.mod_eq_of_lt hw

theorem nakReason_held (p why : Nat) : (s.held p why).rd (R.SP_STAT_NAK_REASON p) = s.rd (R.SP_STAT_NAK_REASON p) := by
  unfold State.held State.set1 State.dropPlan
  rw [State.rd_wr_off _ _ _ _ (by simp), State.rd_wr_ne _ _ _ _ (by simp) (by simp), State.rd_wr_ne _ _ _ _ (by simp) (by simp),
    State.rd_wr_ne _ _ _ _ (by simp) (by simp), State.rd_wr_ne _ _ _ _ (by simp) (by simp), rd_onPort,
    State.rd_wr_ne _ _ _ _ (by simp) (by simp), State.rd_wr_ne _ _ _ _ (by simp) (by simp), rd_onPort]

theorem holdEvt_held (p why : Nat) : (s.held p why).bit (R.SP_EVT_HOLD p) = true := by
  unfold State.held
  rw [State.bit_set1 _ _ (by simp) (by simp)]

/-- An event of the port that was set stays so. -/
theorem evt_held (p why : Nat) (f : Fld) (ho : f.off = R.SP_EVT p) (hf : 5 ≤ f.lo ∨ f.lo + f.w ≤ 4) (hb : s.bit f = true) :
    (s.held p why).bit f = true := by
  have hoff : f.off ≠ R.SP_STAT p := by
    rw [ho]
    unfold R.SP_EVT R.SP_STAT
    omega
  unfold State.held State.set1 State.dropPlan
  rw [bit_wr_ne _ _ _ (by simp) (by simpa using hf), bit_wr_off _ _ _ hoff, bit_wr_off _ _ _ hoff, bit_wr_off _ _ _ hoff, bit_wr_off _ _ _ hoff,
    bit_onPort, bit_wr_off _ _ _ hoff, bit_wr_off _ _ _ hoff, bit_onPort]
  exact hb

/-! ### PLAN_ACK and PLAN_NAK (R78) -/

/-- The pending plan acknowledged in time. -/
theorem planAck_inTime (b : BitVec 4) (tag : MgmtTag) {x : Plan} (hp : (s.port b.toNat).plan = some x) (ha : x.answer = none) (hx : x.id < 256)
    (hh : s.spHears b.toNat = true) (ht : s.inTime x = true) (hc : tag.holds 0x04 [BitVec.ofNat 8 x.id] = true) :
    ∃ t, exec (.planAck b tag (BitVec.ofNat 8 x.id)) s = .next t ∧ Says.portOnly s t b.toNat [R.SP_STAT b.toNat] ∧
      t.out = s.out ++ [Says.ackOf b.toNat tag.tag.toNat] ∧ t.port b.toNat = { s.port b.toNat with plan := some { x with answer := some none } } ∧
      t.bit (R.SP_STAT_PLAN_ACK b.toNat) = true := by
  let s1 := s.mgmtAck b.toNat tag.tag.toNat
  have hid : (BitVec.ofNat 8 x.id).toNat = x.id := (BitVec.toNat_ofNat x.id 8).trans (Nat.mod_eq_of_lt hx)
  have he : s1.planAck b.toNat (BitVec.ofNat 8 x.id).toNat =
      (s1.onPort b.toNat (fun y => { y with plan := some { x with answer := some none } })).wr (R.SP_STAT_PLAN_ACK b.toNat) 1 := by
    unfold State.planAck
    rw [show (s1.port b.toNat).plan = some x by rw [port_mgmtAck, hp]]
    exact if_pos ⟨hid.symm, by rw [ha]; rfl, ht⟩
  refine ⟨_, (congrArg done (mgmtIn_holds b _ hh hc)).trans (congrArg done he),
    (((mgmtAck_portIn (.refl s _ _) _).onPort _).wr (R.SP_STAT_PLAN_ACK b.toNat) 1).portOnly, ?_, ?_, ?_⟩
  · rw [State.settle_out, State.wr_out, out_onPort, out_mgmtAck]
  · rw [port_settle, port_wr, port_onPort, port_mgmtAck]
  · rw [State.settle_bit, bit_wr_one _ (by simp) (by simp)]

/-- The reason a module gives for its NAK, noted. -/
def State.nakNoted (s : State) (p reason : Nat) : State := (s.set1 (R.SP_EVT_PLAN_NAK p)).wr (R.SP_STAT_NAK_REASON p) reason

theorem planNak_hold (b : BitVec 4) (tag : MgmtTag) (r : Octet) {x : Plan} (hp : (s.port b.toNat).plan = some x) (ha : x.answer = none)
    (hx : x.id < 256) (hh : s.spHears b.toNat = true) (hcm : x.byCommit = false) (hb : (s.port b.toNat).bind = none)
    (hst : s.spState b.toNat ≠ spActive) (hc : tag.holds 0x05 [BitVec.ofNat 8 x.id, r] = true) :
    ∃ t, exec (.planNak b tag (BitVec.ofNat 8 x.id) r) s = .next t ∧ t.out = s.out ++ [Says.ackOf b.toNat tag.tag.toNat] ∧
      t.spState b.toNat = spHold ∧ t.rd (R.SP_STAT_HOLD_WHY b.toNat) = 2 ∧ t.rd (R.SP_STAT_NAK_REASON b.toNat) = r.toNat ∧
      t.bit (R.SP_EVT_PLAN_NAK b.toNat) = true ∧ (t.port b.toNat).plan = none ∧ t.mem = s.mem := by
  let s1 := s.mgmtAck b.toNat tag.tag.toNat
  let s2 := s1.nakNoted b.toNat r.toNat
  have hid : (BitVec.ofNat 8 x.id).toNat = x.id := (BitVec.toNat_ofNat x.id 8).trans (Nat.mod_eq_of_lt hx)
  have hin : s.PortIn s2 b.toNat [R.SP_STAT b.toNat, R.SP_EVT b.toNat] :=
    ((mgmtAck_portIn (.refl s _ _) _).set1 (R.SP_EVT_PLAN_NAK b.toNat)).wr (R.SP_STAT_NAK_REASON b.toNat) _
  have hport : s2.port b.toNat = s.port b.toNat := (port_wr _ _ _).trans ((port_set1 _ _).trans (port_mgmtAck _ _ _))
  have hstate : s2.spState b.toNat = s.spState b.toNat := by
    unfold s2 State.nakNoted State.spState State.set1
    rw [State.rd_wr_ne _ _ _ _ (by simp) (by simp), State.rd_wr_off _ _ _ _ (by simp), rd_mgmtAck]
  have hnak : s2.bit (R.SP_EVT_PLAN_NAK b.toNat) = true := by
    unfold s2 State.nakNoted
    rw [bit_wr_off _ _ _ (by simp), State.bit_set1 _ _ (by simp) (by simp)]
  have hreason : s2.rd (R.SP_STAT_NAK_REASON b.toNat) = r.toNat := by
    unfold s2 State.nakNoted
    rw [State.rd_wr _ _ _ (by simp), Nat.mod_eq_of_lt r.isLt]
  have hout : s2.out = s.out ++ [Says.ackOf b.toNat tag.tag.toNat] := by
    unfold s2 State.nakNoted
    rw [State.wr_out, out_set1, out_mgmtAck]
  have he : s1.planNak b.toNat (BitVec.ofNat 8 x.id).toNat r.toNat =
      (s2.held b.toNat 2).hostEvent 0x0012 1 (le 1 b.toNat ++ le 1 2) := by
    rw [← holdPort_eq (by rw [hport]; exact hb) (by rw [hstate]; exact hst)]
    unfold State.planNak
    rw [show (s1.port b.toNat).plan = some x by rw [port_mgmtAck, hp]]
    dsimp only
    rw [if_neg (by rw [hid, ha]; simp), if_neg (by rw [hcm]; exact Bool.false_ne_true)]
    rfl
  have htold := hostEvent_told (s := s2.held b.toNat 2) 0x0012 1 (le 1 b.toNat ++ le 1 2)
  refine ⟨_, (congrArg done (mgmtIn_holds b _ hh hc)).trans (congrArg done he), ?_, ?_, ?_, ?_, ?_, ?_, ?_⟩
  · rw [State.settle_out, out_hostEvent, out_held, hout]
  · rw [spState_settle]
    exact (htold.rd (R.SP_STAT_STATE b.toNat)).trans (spState_held _ _)
  · rw [State.settle_rd, htold.rd (R.SP_STAT_HOLD_WHY b.toNat), holdWhy_held _ (by decide)]
  · rw [State.settle_rd, htold.rd (R.SP_STAT_NAK_REASON b.toNat), nakReason_held, hreason]
  · rw [State.settle_bit, htold.bit (R.SP_EVT_PLAN_NAK b.toNat), evt_held _ _ _ rfl (Or.inl (by simp)) hnak]
  · rw [port_settle, htold.port, port_held]
  · rw [State.settle_mem, ((State.PortTold.ofIn (held_portIn hin 2)).hostEvent _ _ _).mem]

/-! ### DESC (R82, R87) -/

/-- What a valid descriptor is kept as. -/
def State.described (s : State) (p : Nat) (d : ModDesc) : State :=
  ((((((((s.onPort p (fun x => { x with desc := some d })).wr (R.SP_DESC0_VENDOR p) d.vendor).wr (R.SP_DESC0_TYPE p) d.mtype).wr (R.SP_DESC1_V p)
    (d.serial % 4294967296)).wr (R.SP_DESC2_V p) (d.serial / 4294967296)).wr (R.SP_DESC3_IN_CH p) d.inCh).wr (R.SP_DESC3_DRV_CH p) d.drvCh).set1
      (R.SP_EVT_ARRIVE p))

/-- The words a descriptor and a HOLD write. -/
def descWords (p : Nat) : List Nat := [R.SP_STAT p, R.SP_EVT p, R.SP_DESC0 p, R.SP_DESC1 p, R.SP_DESC2 p, R.SP_DESC3 p]

theorem described_portIn (h : s.PortIn u p (descWords p)) (d : ModDesc) : s.PortIn (u.described p d) p (descWords p) :=
  (((((((h.onPort _).wr (R.SP_DESC0_VENDOR p) _ (by simp [descWords])).wr (R.SP_DESC0_TYPE p) _ (by simp [descWords])).wr (R.SP_DESC1_V p) _
    (by simp [descWords])).wr (R.SP_DESC2_V p) _ (by simp [descWords])).wr (R.SP_DESC3_IN_CH p) _ (by simp [descWords])).wr (R.SP_DESC3_DRV_CH p) _
      (by simp [descWords])).set1 (R.SP_EVT_ARRIVE p) (by simp [descWords])

theorem port_described (p : Nat) (d : ModDesc) : (s.described p d).port p = { s.port p with desc := some d } := by
  unfold State.described
  rw [port_set1, port_wr, port_wr, port_wr, port_wr, port_wr, port_wr, port_onPort]

theorem out_described (p : Nat) (d : ModDesc) : (s.described p d).out = s.out := by
  unfold State.described
  rw [out_set1, State.wr_out, State.wr_out, State.wr_out, State.wr_out, State.wr_out, State.wr_out, out_onPort]

theorem spState_described (p : Nat) (d : ModDesc) : (s.described p d).spState p = s.spState p := by
  unfold State.described State.set1
  rw [spState_wr _ _ _ (by simp), spState_wr _ _ _ (by simp), spState_wr _ _ _ (by simp), spState_wr _ _ _ (by simp), spState_wr _ _ _ (by simp),
    spState_wr _ _ _ (by simp), spState_wr _ _ _ (by simp), spState_onPort]

theorem arriveEvt_described (p : Nat) (d : ModDesc) : (s.described p d).bit (R.SP_EVT_ARRIVE p) = true := by
  unfold State.described
  rw [State.bit_set1 _ _ (by simp) (by simp)]

theorem desc_invalid_eq (hi : s.spState p = spIdent) {d : List Octet} (hok : descOk d = false) : s.desc p d = s.spLeave p true := by
  unfold State.desc
  rw [if_neg (not_not.mpr hi), hok]
  rfl

/-- The descriptor of another module than the last ACTIVE one holds the port. -/
theorem desc_other_eq (hi : s.spState p = spIdent) {d : List Octet} (hok : descOk d = true) {k : Nat} (hk : (s.port p).ident = some k)
    (hne : k ≠ (parseDesc d).ident) : s.desc p d = ((s.described p (parseDesc d)).holdPort p 1).arrivalEvent p 0 := by
  have hsame : (!(k == (parseDesc d).ident)) = true := by simpa using hne
  unfold State.desc State.described
  dsimp only
  rw [if_neg (not_not.mpr hi), hok, hk, Bool.not_true, if_neg Bool.false_ne_true, if_pos hsame]

theorem desc_invalid (b : BitVec 4) (tag : MgmtTag) (d : List Octet) (hh : s.spHears b.toNat = true) (hc : tag.holds 0x02 d = true)
    (hb : (s.port b.toNat).bind = none) (hi : s.spState b.toNat = spIdent) (hok : descOk d = false) : ∃ t, exec (.desc b tag d) s = .next t ∧
      Says.portOnly s t b.toNat [R.SP_STAT b.toNat, R.SP_LINKDN b.toNat] ∧ t.out = s.out ++ [Says.ackOf b.toNat tag.tag.toNat] ∧
      t.spState b.toNat = spTraining := by
  let s1 := s.mgmtAck b.toNat tag.tag.toNat
  have hi1 : s1.spState b.toNat = spIdent := (spState_mgmtAck _ _ _).trans hi
  have hb1 : (s1.port b.toNat).bind = none := by rw [port_mgmtAck, hb]
  refine ⟨_, (congrArg done (mgmtIn_holds b _ hh hc)).trans (congrArg done (desc_invalid_eq hi1 hok)),
    (spLeave_ident_portIn (mgmtAck_portIn (.refl s _ _) _) hi1 hb1).portOnly, ?_, ?_⟩
  · rw [State.settle_out, out_spLeave_ident hi1 hb1, out_mgmtAck]
  · rw [spState_settle, spLeave_ident hi1, spState_spTrain]

theorem desc_other (b : BitVec 4) (tag : MgmtTag) (d : List Octet) (hh : s.spHears b.toNat = true) (hc : tag.holds 0x02 d = true)
    (hb : (s.port b.toNat).bind = none) (hi : s.spState b.toNat = spIdent) (hok : descOk d = true) {k : Nat}
    (hk : (s.port b.toNat).ident = some k) (hne : k ≠ (parseDesc d).ident) : ∃ t, exec (.desc b tag d) s = .next t ∧
      t.out = s.out ++ [Says.ackOf b.toNat tag.tag.toNat] ∧ t.spState b.toNat = spHold ∧ t.rd (R.SP_STAT_HOLD_WHY b.toNat) = 1 ∧
      t.bit (R.SP_EVT_ARRIVE b.toNat) = true ∧ t.bit (R.SP_EVT_HOLD b.toNat) = true ∧ (t.port b.toNat).desc = some (parseDesc d) ∧
      t.mem = s.mem := by
  let s1 := s.mgmtAck b.toNat tag.tag.toNat
  let s2 := s1.described b.toNat (parseDesc d)
  let s3 := s2.held b.toNat 1
  have hi1 : s1.spState b.toNat = spIdent := (spState_mgmtAck _ _ _).trans hi
  have hk1 : (s1.port b.toNat).ident = some k := by rw [port_mgmtAck, hk]
  have hb2 : (s2.port b.toNat).bind = none := by rw [port_described, port_mgmtAck, hb]
  have ha2 : s2.spState b.toNat ≠ spActive := by
    rw [spState_described, hi1]
    decide
  have hin : s.PortIn s3 b.toNat (descWords b.toNat) :=
    held_portIn (described_portIn (mgmtAck_portIn (.refl s _ _) _) _) 1 (by simp [descWords]) (by simp [descWords])
  have he : s1.desc b.toNat d = (s3.hostEvent 0x0012 1 (le 1 b.toNat ++ le 1 1)).arrivalEvent b.toNat 0 := by
    rw [desc_other_eq hi1 hok hk1 hne]
    exact congrArg (fun t => State.arrivalEvent t b.toNat 0) (holdPort_eq hb2 ha2 1)
  have htold := (hostEvent_told (s := s3) 0x0012 1 (le 1 b.toNat ++ le 1 1)).trans (arrivalEvent_told b.toNat 0)
  refine ⟨_, (congrArg done (mgmtIn_holds b _ hh hc)).trans (congrArg done he), ?_, ?_, ?_, ?_, ?_, ?_, ?_⟩
  · rw [State.settle_out, out_arrivalEvent, out_hostEvent, out_held, out_described, out_mgmtAck]
  · rw [spState_settle]
    exact (htold.rd (R.SP_STAT_STATE b.toNat)).trans (spState_held _ _)
  · rw [State.settle_rd, htold.rd (R.SP_STAT_HOLD_WHY b.toNat), holdWhy_held _ (by decide)]
  · rw [State.settle_bit, htold.bit (R.SP_EVT_ARRIVE b.toNat), evt_held _ _ _ rfl (Or.inr (by simp)) (arriveEvt_described _ _)]
  · rw [State.settle_bit, htold.bit (R.SP_EVT_HOLD b.toNat), holdEvt_held]
  · rw [port_settle, htold.port, port_held, port_described]
  · rw [State.settle_mem, (State.PortTold.ofTold htold b.toNat []).mem, hin.mem]

/-! ### Plans sent (R78, R575) -/

/-- A message sent changes of the port its next tag and the messages kept alone. -/
theorem port_mgmtSend_any (p kind : Nat) (body : List Octet) :
    ∃ tag m, (s.mgmtSend p kind body).port p = { s.port p with nextTag := tag, mgmt := m } := by
  unfold State.mgmtSend
  dsimp only
  split
  · rw [port_mgmtAck, port_emit, port_onPort]
    exact ⟨_, _, rfl⟩
  · rw [port_onPort, port_emit, port_onPort]
    exact ⟨_, _, rfl⟩

theorem sendPlan_portIn (h : s.PortIn u p l) (pq : Nat) (g : Option (BitVec 48)) (c : List PlanChan) (byCommit : Bool)
    (hm : R.SP_STAT p ∈ l := by simp) : s.PortIn (u.sendPlan p pq g c byCommit) p l :=
  mgmtSend_portIn (((h.onPort _).wr (R.SP_STAT_PLAN_PEND p) _ hm).wr (R.SP_STAT_PLAN_ACK p) _ hm) _ _

/-- The port after a plan was sent: the plan pends under the next ID. -/
theorem port_sendPlan (p pq : Nat) (g : Option (BitVec 48)) (c : List PlanChan) (byCommit : Bool) :
    ((s.sendPlan p pq g c byCommit).port p).plan = some ⟨(s.port p).nextId, g, c, none, byCommit⟩ ∧
      ((s.sendPlan p pq g c byCommit).port p).bind = (s.port p).bind := by
  unfold State.sendPlan
  obtain ⟨tag, m, he⟩ := port_mgmtSend_any (s := (((s.onPort p (fun x => { x with
    nextId := ((s.port p).nextId + 1) % 256
    plan := some ⟨(s.port p).nextId, g, c, none, byCommit⟩
    planFor := x.desc.map ModDesc.ident })).wr (R.SP_STAT_PLAN_PEND p) 1).wr (R.SP_STAT_PLAN_ACK p) 0)) p 0x03
      (planBody (s.port p).nextId pq (g.getD planNext) c)
  rw [he, port_wr, port_wr, port_onPort]
  exact ⟨rfl, rfl⟩

theorem planPend_sendPlan (p pq : Nat) (g : Option (BitVec 48)) (c : List PlanChan) (byCommit : Bool) :
    (s.sendPlan p pq g c byCommit).bit (R.SP_STAT_PLAN_PEND p) = true := by
  unfold State.sendPlan
  rw [(mgmtSend_portIn (.refl _ p []) _ _).bit (R.SP_STAT_PLAN_PEND p) List.not_mem_nil, bit_wr_ne _ _ _ (by simp) (by simp),
    bit_wr_one _ (by simp) (by simp)]

/-- A field of SP_STAT but for PEND and ACK stands while a plan is sent. -/
theorem rd_sendPlan (p pq : Nat) (g : Option (BitVec 48)) (c : List PlanChan) (byCommit : Bool) (f : Fld) (hf : 25 ≤ f.lo ∨ f.lo + f.w ≤ 23) :
    (s.sendPlan p pq g c byCommit).rd f = s.rd f := by
  unfold State.sendPlan
  rw [(mgmtSend_portIn (.refl _ p []) _ _).rd f List.not_mem_nil, State.rd_wr_ne _ _ _ _ (by simp) (by simp; omega),
    State.rd_wr_ne _ _ _ _ (by simp) (by simp; omega), rd_onPort]

theorem arrivalPlan_eq (p : Nat) : ∃ g, s.arrivalPlan p = s.sendPlan p s.pqIn g (planOf p s.cfgsIn) false := ⟨_, rfl⟩

theorem cfgsIn_of_portIn (h : s.PortIn u p l) : u.cfgsIn = s.cfgsIn := by
  obtain ⟨r, z, o, rfl⟩ := h.shape
  rfl

/-- No answer 16 beats before the edge: the plan goes again under a new ID (R575). -/
theorem planResend_again (b : BitVec 4) {x : Plan} {e : BitVec 48} (hp : (s.port b.toNat).plan = some x) (he : x.target = some e)
    (hc : x.byCommit = false) (ha : x.answer = none) (hd : (e - s.beat.num).toNat ≤ 16) : ∃ t y, exec (.planResend b) s = .next t ∧
      (t.port b.toNat).plan = some y ∧ y.id = (s.port b.toNat).nextId ∧ y.chans = planOf b.toNat s.cfgsIn ∧ y.answer = none ∧ t.mem = s.mem := by
  obtain ⟨g, hg⟩ := arrivalPlan_eq (s := s) b.toNat
  have hr : s.planResend b.toNat = s.sendPlan b.toNat s.pqIn g (planOf b.toNat s.cfgsIn) false := by
    rw [← hg]
    unfold State.planResend
    rw [hp]
    dsimp only
    rw [he]
    exact if_pos ⟨by rw [hc]; rfl, by rw [ha]; rfl, Or.inr hd⟩
  refine ⟨_, ⟨(s.port b.toNat).nextId, g, planOf b.toNat s.cfgsIn, none, false⟩, congrArg done hr, ?_, rfl, rfl, rfl, ?_⟩
  · rw [port_settle, (port_sendPlan _ _ _ _ _).1]
  · rw [State.settle_mem, (sendPlan_portIn (.refl s _ [R.SP_STAT b.toNat]) _ _ _ _).mem]

/-! ### ACCEPT (R82, R575) -/

theorem becomeActive_portIn (h : s.PortIn u p l) (hm : R.SP_STAT p ∈ l := by simp) : s.PortIn (u.becomeActive p) p l := by
  unfold State.becomeActive
  exact (((h.wr (R.SP_STAT_STATE p) _ hm).wr (R.SP_STAT_HOLD_WHY p) _ hm).wb (R.SP_STAT_ABORT p) _ hm).onPort _

theorem spState_becomeActive (p : Nat) : (s.becomeActive p).spState p = spActive := by
  unfold State.becomeActive State.spState State.setSpState State.wb
  rw [rd_onPort, State.rd_wr_ne _ _ _ _ (by simp) (by simp), State.rd_wr_ne _ _ _ _ (by simp) (by simp), State.rd_wr _ _ _ (by simp)]
  rfl

theorem holdWhy_becomeActive (p : Nat) : (s.becomeActive p).rd (R.SP_STAT_HOLD_WHY p) = 0 := by
  unfold State.becomeActive State.wb
  rw [rd_onPort, State.rd_wr_ne _ _ _ _ (by simp) (by simp), State.rd_wr _ _ _ (by simp)]
  rfl

theorem arrive_told (h : s.PortTold u p l) : s.PortTold (u.arrive p) p l := by
  unfold State.arrive
  split
  · exact h.onPort _
  · exact h.trans (.ofTold (arrivalEvent_told p 0) p l)

theorem plan_arrive (p : Nat) : ((s.arrive p).port p).plan = (s.port p).plan := by
  unfold State.arrive
  split
  · rw [port_onPort]
  · rw [(arrivalEvent_told p 0).port]

theorem spCtrlAccept_active (b : BitVec 4) (hh : s.spState b.toNat = spHold) (hw : s.rd (R.SP_STAT_HOLD_WHY b.toNat) = 1) :
    ∃ t x, exec (.spCtrlAccept b) s = .next t ∧ t.spState b.toNat = spActive ∧ t.rd (R.SP_STAT_HOLD_WHY b.toNat) = 0 ∧
      (t.port b.toNat).plan = some x ∧ x.answer = none ∧ x.byCommit = false ∧ x.chans = planOf b.toNat s.cfgsIn ∧
      t.bit (R.SP_STAT_PLAN_PEND b.toNat) = true ∧ t.mem = s.mem := by
  let s1 := s.becomeActive b.toNat
  let s2 := s1.arrivalPlan b.toNat
  obtain ⟨g, hg⟩ : ∃ g, s2 = s1.sendPlan b.toNat s1.pqIn g (planOf b.toNat s1.cfgsIn) false := arrivalPlan_eq _
  have h1 : s.PortIn s1 b.toNat [R.SP_STAT b.toNat] := becomeActive_portIn (.refl s _ _)
  have h2 : s.PortIn s2 b.toNat [R.SP_STAT b.toNat] := by
    rw [hg]
    exact sendPlan_portIn h1 _ _ _ _
  have hend : s2.PortTold (s2.arrive b.toNat) b.toNat [] := arrive_told (.refl _ _ _)
  have he : s.spAccept b.toNat = s2.arrive b.toNat := if_pos ⟨hh, hw⟩
  refine ⟨_, ⟨(s1.port b.toNat).nextId, g, planOf b.toNat s1.cfgsIn, none, false⟩, congrArg done he, ?_, ?_, ?_, rfl, rfl, ?_, ?_, ?_⟩
  · rw [spState_settle]
    refine (hend.rd (R.SP_STAT_STATE b.toNat)).trans ?_
    rw [hg, rd_sendPlan _ _ _ _ _ _ (Or.inl (by simp))]
    exact spState_becomeActive _
  · rw [State.settle_rd, hend.rd (R.SP_STAT_HOLD_WHY b.toNat), hg, rd_sendPlan _ _ _ _ _ _ (Or.inr (by simp))]
    exact holdWhy_becomeActive _
  · rw [port_settle, plan_arrive, hg, (port_sendPlan _ _ _ _ _).1]
  · exact congrArg (planOf b.toNat) (cfgsIn_of_portIn h1)
  · rw [State.settle_bit, hend.bit (R.SP_STAT_PLAN_PEND b.toNat), hg, planPend_sendPlan]
  · rw [State.settle_mem, hend.mem, h2.mem]

/-! ### SENSOR (R89, R91) -/

/-- A sensor's identity changes the streams, and what a record changes. -/
theorem sensorId_told (p ev : Nat) (m : SensorMsg) (known : Bool) :
    ∃ x f, State.Told { s with str := x, free := f } (s.sensorId p ev m known) := by
  have hfold : ∃ x f, (s.inOf p m.channel.toNat).foldl (fun t i => (t.setCtxL i 7 (withBits (t.ctxL i 7) 0 20
      (if known then t.freeVal % 1048575 else 1048575))).freeNext) s = { s with str := x, free := f } := by
    refine List.foldlRecOn (motive := fun t => ∃ x f, t = { s with str := x, free := f }) _ _ ⟨s.str, s.free, rfl⟩ fun t ht i _ => ?_
    obtain ⟨x, f, rfl⟩ := ht
    exact ⟨_, _, rfl⟩
  obtain ⟨x, f, hf⟩ := hfold
  refine ⟨x, f, ?_⟩
  rw [← hf]
  exact .offerRec _ _

/-- A sensor's message noted at its port and in SP_EVT. -/
def State.sensorNoted (s : State) (p : Nat) (m : SensorMsg) (known : Bool) : State :=
  (s.onPort p (fun x => { x with
    sensors := if known then (s.port p).sensors.filter (fun e => e.1 ≠ m.channel.toNat) ++ [(m.channel.toNat, m)]
      else (s.port p).sensors.filter (fun e => e.1 ≠ m.channel.toNat)
    teds := if known then (s.port p).teds.filter (fun e => e.1 ≠ m.channel.toNat) ++ [(m.channel.toNat, decodeTeds m)]
      else (s.port p).teds.filter (fun e => e.1 ≠ m.channel.toNat) })).set1 (R.SP_EVT_SENSOR p)

/-- Does a sensor's message leave the sensor known? -/
def State.sensorKnown (s : State) (p : Nat) (m : SensorMsg) : Bool :=
  if m.event.toNat = 2 then false
  else if m.event.toNat = 4 then (s.port p).sensors.any (fun e => e.1 = m.channel.toNat)
  else true

theorem sensor_eq (p : Nat) (m : SensorMsg) : s.sensor p m = ((s.sensorNoted p m (s.sensorKnown p m)).hostEvent 0x0013 1
    (le 1 p ++ le 1 m.event.toNat ++ le 2 m.channel.toNat)).sensorId p m.event.toNat m (s.sensorKnown p m) := rfl

theorem sensors_sensorNoted (p : Nat) (m : SensorMsg) (known : Bool) : ((s.sensorNoted p m known).port p).sensors =
    if known then (s.port p).sensors.filter (fun e => e.1 ≠ m.channel.toNat) ++ [(m.channel.toNat, m)]
      else (s.port p).sensors.filter (fun e => e.1 ≠ m.channel.toNat) := by
  unfold State.sensorNoted
  rw [port_set1, port_onPort]

theorem sensor_holds (b : BitVec 4) (tag : MgmtTag) (m : SensorMsg) (hh : s.spHears b.toNat = true) (hc : tag.holds 0x0A (sensorBody m) = true) :
    ∃ t, exec (.sensor b tag m) s = .next t ∧ t.mem = s.mem ∧ t.cores = s.cores ∧ t.bit (R.SP_EVT_SENSOR b.toNat) = true ∧
      (m.event = 2 → ∀ y, (m.channel.toNat, y) ∉ (t.port b.toNat).sensors) ∧
      (m.event = 1 → (m.channel.toNat, m) ∈ (t.port b.toNat).sensors) := by
  let s1 := s.mgmtAck b.toNat tag.tag.toNat
  let s2 := s1.sensorNoted b.toNat m (s1.sensorKnown b.toNat m)
  let s3 := s2.hostEvent 0x0013 1 (le 1 b.toNat ++ le 1 m.event.toNat ++ le 2 m.channel.toNat)
  have hin : s.PortIn s2 b.toNat [R.SP_EVT b.toNat] := ((mgmtAck_portIn (.refl s _ _) _).onPort _).set1 (R.SP_EVT_SENSOR b.toNat)
  have hevt : s2.bit (R.SP_EVT_SENSOR b.toNat) = true := State.bit_set1 _ _ (by simp) (by simp)
  have hsens := sensors_sensorNoted (s := s1) b.toNat m (s1.sensorKnown b.toNat m)
  have htold : s2.Told s3 := hostEvent_told _ _ _
  obtain ⟨x, f, hid⟩ := sensorId_told (s := s3) b.toNat m.event.toNat m (s1.sensorKnown b.toNat m)
  have hport : (s3.sensorId b.toNat m.event.toNat m (s1.sensorKnown b.toNat m)).port b.toNat = s2.port b.toNat :=
    (hid.port _).trans (htold.port _)
  refine ⟨_, (congrArg done (mgmtIn_holds b _ hh hc)).trans (congrArg done (sensor_eq b.toNat m)), ?_, ?_, ?_, fun h2 y hy => ?_, fun h1 => ?_⟩
  · rw [State.settle_mem]
    exact (State.PortTold.ofTold hid b.toNat []).mem.trans ((State.PortTold.ofTold htold b.toNat []).mem.trans hin.mem)
  · rw [State.settle_cores]
    exact (State.PortTold.ofTold hid b.toNat []).cores.trans ((State.PortTold.ofTold htold b.toNat []).cores.trans hin.cores)
  · rw [State.settle_bit]
    exact (hid.bit (R.SP_EVT_SENSOR b.toNat)).trans ((htold.bit (R.SP_EVT_SENSOR b.toNat)).trans hevt)
  · rw [port_settle, hport, hsens, show s1.sensorKnown b.toNat m = false from if_pos (by rw [h2]; rfl)] at hy
    simp at hy
  · rw [port_settle, hport, hsens, show s1.sensorKnown b.toNat m = true by unfold State.sensorKnown; rw [h1]; rfl]
    simp

theorem inOfPort_of_portIn (h : s.PortIn u p l) : u.inOfPort p = s.inOfPort p := by
  obtain ⟨r, z, o, rfl⟩ := h.shape
  rfl

/-! ### The port deadline (R76, R572) -/

theorem portDeadline_noContext (b : BitVec 4) (hcl : (s.port b.toNat).closed = false) (hno : s.inOfPort b.toNat = []) :
    ∃ t, exec (.portDeadline b) s = .next t ∧ (t.port b.toNat).closed = true ∧ t.mem = s.mem ∧ t.str = s.str ∧
      (∀ e, (s.port b.toNat).expect = some e → s.spState b.toNat = spActive → (s.port b.toNat).got = false → 0 < planSamples false e.2 →
        t.rd (R.SP_LATE_V b.toNat) = min (s.rd (R.SP_LATE_V b.toNat) + 1) (2 ^ (R.SP_LATE_V b.toNat).w - 1)) := by
  let s1 := if (match (s.port b.toNat).expect with
      | some (_, c) => s.spState b.toNat == spActive && !(s.port b.toNat).got && decide (0 < planSamples false c)
      | none => false) then (s.inc (R.SP_LATE_V b.toNat)).set1 (R.SP_EVT_LATE b.toNat) else s
  have hin : s.PortIn s1 b.toNat [R.SP_LATE b.toNat, R.SP_EVT b.toNat] :=
    .ite (((State.PortIn.refl s _ _).inc (R.SP_LATE_V b.toNat)).set1 (R.SP_EVT_LATE b.toNat)) (.refl s _ _)
  have he : s.portDeadline b.toNat =
      s1.onPort b.toNat (fun y => { y with closed := true, part := none, had := (y.part.map (·.length)).getD 0 }) := by
    unfold State.portDeadline
    dsimp only
    rw [if_neg (by rw [hcl]; exact Bool.false_ne_true)]
    change State.onPort (List.foldl _ s1 (s1.inOfPort b.toNat)) _ _ = _
    rw [inOfPort_of_portIn hin, hno]
    rfl
  refine ⟨(s.portDeadline b.toNat).settle, rfl, ?_⟩
  rw [he]
  refine ⟨?_, ?_, ?_, fun e hx ha hg hn => ?_⟩
  · rw [port_settle, port_onPort]
  · rw [State.settle_mem, (hin.onPort _).mem]
  · rw [State.settle_str, (hin.onPort _).str]
  · have hs1 : s1 = (s.inc (R.SP_LATE_V b.toNat)).set1 (R.SP_EVT_LATE b.toNat) := if_pos (by rw [hx, ha, hg]; simpa using hn)
    rw [State.settle_rd, rd_onPort, hs1, State.set1, State.rd_wr_off _ _ _ _ (by simp), rd_inc _ (by simp)]

/-! ### Auto-binding (R85, R86) -/

theorem autobind_pending (b : BitVec 4) (hp : s.bit R.COMMIT_STAT_PENDING = true) :
    ∃ t, exec (.autobind b) s = .next t ∧ Says.regsOnly s t [] := by
  have hfree : s.stageFree = false := by
    unfold State.stageFree
    rw [show s.pendingCommit = true from hp]
    rfl
  have he : s.autobind b.toNat = s := by
    unfold State.autobind
    split
    · rw [hfree, if_pos (by simp)]
    · rfl
  refine ⟨(s.autobind b.toNat).settle, rfl, ?_⟩
  rw [he]
  exact regsOnly_same s

theorem autobindGiveUp_result (b : BitVec 4) {z : BindJob} (hb : (s.port b.toNat).bind = some z) (hc : z.committing = false) :
    ∃ t, exec (.autobindGiveUp b) s = .next t ∧ (t.port b.toNat).bind = none ∧ t.mem = s.mem ∧ t.str = s.str ∧ t.out = s.out := by
  let s1 := s.onPort b.toNat (fun x => { x with bind := none })
  have he : s.autobindGiveUp b.toNat = s1.arrivalEvent b.toNat 0xFF := by
    unfold State.autobindGiveUp
    rw [hb]
    exact if_neg (by rw [hc]; exact Bool.false_ne_true)
  have htold : s1.Told (s1.arrivalEvent b.toNat 0xFF) := arrivalEvent_told _ _
  refine ⟨(s.autobindGiveUp b.toNat).settle, rfl, ?_⟩
  rw [he, port_settle, htold.port, State.settle_mem, State.settle_str, State.settle_out, out_arrivalEvent, port_onPort]
  obtain ⟨r, o, j, x, hs⟩ := htold.shape
  rw [hs]
  exact ⟨rfl, rfl, rfl, rfl⟩

/-- From o, s has been reached with memory, the cores and what binds each port as they were. -/
structure State.BindKept (o s : State) : Prop where
  mem : s.mem = o.mem
  cores : s.cores = o.cores
  bind : ∀ q, (s.port q).bind = (o.port q).bind

namespace State.BindKept

variable {o : State}

theorem refl (s : State) : s.BindKept s := ⟨rfl, rfl, fun _ => rfl⟩

theorem same (h : o.BindKept s) (hm : t.mem = s.mem := by rfl) (hc : t.cores = s.cores := by rfl) (hp : t.ports = s.ports := by rfl) :
    o.BindKept t where
  mem := hm.trans h.mem
  cores := hc.trans h.cores
  bind q := by
    rw [← h.bind q]
    unfold State.port
    rw [hp]

theorem wr (h : o.BindKept s) (f : Fld) (v : Nat) : o.BindKept (s.wr f v) := h.same

theorem set1 (h : o.BindKept s) (f : Fld) : o.BindKept (s.set1 f) := h.wr f _

theorem ofPortIn (h : o.BindKept s) (hi : s.PortIn t p l) (hb : (t.port p).bind = (s.port p).bind) : o.BindKept t where
  mem := hi.mem.trans h.mem
  cores := hi.cores.trans h.cores
  bind q := by
    by_cases hq : q = p
    · rw [hq, hb, h.bind]
    · rw [hi.others q hq, h.bind]

theorem sendPlan (h : o.BindKept s) (p pq : Nat) (g : Option (BitVec 48)) (c : List PlanChan) (byCommit : Bool) :
    o.BindKept (s.sendPlan p pq g c byCommit) :=
  h.ofPortIn (sendPlan_portIn (.refl s p [R.SP_STAT p]) pq g c byCommit) (port_sendPlan _ _ _ _ _).2

theorem sendTo (h : o.BindKept s) (vl dst : Nat) (load : Payload) : o.BindKept (s.sendTo vl dst load) := by
  have hs : s.Stays true true (s.sendTo vl dst load) := (Stays.refl s).sendTo vl dst load
  exact h.same (congrArg (·.1) (hs.working rfl)) (congrArg (·.2.1) (hs.working rfl)) (hs.ports rfl)

theorem foldl {α : Type} (h : o.BindKept s) (f : State → α → State) (m : List α) (hf : ∀ u x, o.BindKept u → o.BindKept (f u x)) :
    o.BindKept (m.foldl f s) := List.foldlRecOn m f h fun u hu x _ => hf u x hu

theorem ite {c : Prop} [Decidable c] (hs : o.BindKept s) (ht : o.BindKept t) : o.BindKept (if c then s else t) := closed_ite hs ht

theorem stageCtx (h : o.BindKept s) (i : Nat) (c : List Long) : o.BindKept (s.stageCtx i c) := h.same

theorem commitGo (h : o.BindKept s) (at1 : Bool) : o.BindKept (s.commitGo at1) := by
  unfold State.commitGo
  extract_lets lead named talks plans start target c s1
  have hstart (r : CommitReq) : o.BindKept (start r) := wr (s := s.onBeat _) h.same _ _
  have hplans (u : State) (g : Option (BitVec 48)) (hu : o.BindKept u) : o.BindKept (plans u g) :=
    hu.foldl _ _ fun _ q hv => hv.sendPlan q _ _ _ _
  have h1 : o.BindKept s1 := hplans _ _ (hstart c)
  exact ite ((h.set1 _).set1 _) (ite (hplans _ _ (hstart _)) (ite ((((h.set1 _).set1 _).wr _ _).wr _ _) (ite (h1.sendTo _ _ _) h1)))

end State.BindKept

/-- With nothing staged, the next batch is staged and committed (R86). -/
theorem autobind_staged (b : BitVec 4) {z : BindJob} (hb : (s.port b.toNat).bind = some z) (hc : z.committing = false) {d : ModDesc} {x : Template}
    (hd : (s.port b.toNat).desc = some d) (hx : mget (fun _ => none) s.str.tmpl b.toNat = some x) (hf : s.stageFree = true) :
    ∃ t, exec (.autobind b) s = .next t ∧ (t.port b.toNat).bind = some { z with
      batch := min 4096 (d.inCh + d.drvCh - z.bound), committing := true } ∧ t.mem = s.mem ∧ t.cores = s.cores := by
  let s1 := (List.range (min 4096 (d.inCh + d.drvCh - z.bound))).foldl
    (fun u j => u.stageCtx ((x.first + z.bound + j) % ctxCount) (bindLongs x b.toNat d.inCh (z.bound + j))) s
  let s2 := (s1.wrW R.COMMIT_AT_LO (s.beat.num + 64).toNat).wrW R.COMMIT_AT_HI ((s.beat.num + 64).toNat / 4294967296)
  let s3 := s2.onPort b.toNat (fun y => { y with bind := some { z with batch := min 4096 (d.inCh + d.drvCh - z.bound), committing := true } })
  have he : s.autobind b.toNat = s3.commitGo true := by
    unfold State.autobind
    rw [hb, hd, hx]
    dsimp only
    rw [if_neg (by rw [hc, hf]; exact Bool.false_ne_true)]
  have h1 : s.BindKept s1 := .foldl (.refl s) _ _ fun _ j hu => hu.stageCtx _ _
  have hend : s3.BindKept (s3.commitGo true) := .commitGo (.refl s3) true
  have hport : (s3.port b.toNat).bind = some { z with batch := min 4096 (d.inCh + d.drvCh - z.bound), committing := true } := by
    rw [port_onPort]
  refine ⟨_, congrArg done he, ?_, ?_, ?_⟩
  · rw [port_settle, hend.bind, hport]
  · rw [State.settle_mem, hend.mem]
    exact h1.mem
  · rw [State.settle_cores, hend.cores]
    exact h1.cores

end Sys2Proof.Machine

/-! PROOFS. BEAT_BLOCK (R75, R76), and the messages of a sample port together. -/

namespace Sys2Proof.Machine

open Sys2Proof

-- One proof after another, as in the tests: theorems checked side by side need more threads than the check's memory limit allows.
set_option Elab.async false

variable {s t u : State} {p q : Nat} {l : List Nat} {b : InBlock} {h : Word64} {ws : List Word64}

/-! ### A block that has arrived whole (R75) -/

theorem header_of_words (hb : b.words = (h :: ws).map some) : b.header = some h := by
  unfold InBlock.header
  rw [hb]
  rfl

theorem unc_of_words (hb : b.words = (h :: ws).map some) (hf : b.fecUnc = 0) : b.unc = false := by
  unfold InBlock.unc
  rw [hb, hf]
  simp

theorem complete_of_words (hb : b.words = (h :: ws).map some) (n : Nat) : b.complete n = decide (hdrWords h < ws.length) := by
  unfold InBlock.complete
  rw [header_of_words hb, hb]
  simp

theorem sampleWords_of_words (hb : b.words = (h :: ws).map some) (n : Nat) (hw : hdrWords h < ws.length) : b.sampleWords n = hdrWords h := by
  unfold InBlock.sampleWords
  rw [header_of_words hb, hb]
  simp
  omega

theorem samples_length (hb : b.words = (h :: ws).map some) (n m : Nat) (hw : hdrWords h < ws.length) :
    (b.samples n m).length = min m (64 * hdrWords h / 20) := by
  unfold InBlock.samples
  rw [sampleWords_of_words hb n hw, List.length_map, List.length_range]

/-- The grain from bit o on of two words end to end. -/
def twoWords (x y : Word64) (o : Nat) : Grain := BitVec.ofNat 20 ((x.toNat + (if 44 < o then y.toNat * 2 ^ 64 else 0)) / 2 ^ o)

theorem getLsbD_twoWords (x y : Word64) {o k : Nat} (hk : k < 20) (ho : o < 64) : (twoWords x y o).getLsbD k =
      if o + k < 64 then x.getLsbD (o + k) else y.getLsbD (o + k - 64) := by
  have hsum : x.toNat + (if 44 < o then y.toNat * 2 ^ 64 else 0) = 2 ^ 64 * (if 44 < o then y.toNat else 0) + x.toNat := by
    split <;> omega
  unfold twoWords
  rw [BitVec.getLsbD_ofNat, decide_eq_true hk, Bool.true_and, Nat.testBit_div_two_pow, hsum, Nat.testBit_two_pow_mul_add _ x.isLt, Nat.add_comm k o]
  split
  · rfl
  · rw [if_pos (by omega)]
    rfl

/-- Sample j of a block: its bits are those from 20 j on of the words after the header. -/
theorem sample_bits (hb : b.words = (h :: ws).map some) {j : Nat} (hj : 20 * j + 19 < 64 * ws.length) :
    ∃ g, b.sample j = some g ∧ ∀ k, k < 20 → ∃ w, ws[(20 * j + k) / 64]? = some w ∧ g.getLsbD k = w.getLsbD ((20 * j + k) % 64) := by
  have hget (i : Nat) (hi : i < ws.length) : b.words[1 + i]?.join = some ws[i] := by
    rw [hb, Nat.add_comm, List.map_cons, List.getElem?_cons_succ, List.getElem?_map, List.getElem?_eq_getElem hi]
    rfl
  have hlo : 20 * j / 64 < ws.length := by omega
  have hhi : (20 * j + 19) / 64 < ws.length := by omega
  refine ⟨twoWords ws[20 * j / 64] ws[(20 * j + 19) / 64] (20 * j % 64), ?_, fun k hk => ?_⟩
  · unfold InBlock.sample
    rw [hget _ hlo, hget _ hhi]
    rfl
  · rw [getLsbD_twoWords _ _ hk (Nat.mod_lt _ (by decide))]
    by_cases hc : 20 * j % 64 + k < 64
    · have hdiv : (20 * j + k) / 64 = 20 * j / 64 := by omega
      have hmod : (20 * j + k) % 64 = 20 * j % 64 + k := by omega
      rw [if_pos hc, hdiv, hmod]
      exact ⟨_, List.getElem?_eq_getElem hlo, rfl⟩
    · have hdiv : (20 * j + k) / 64 = (20 * j + 19) / 64 := by omega
      have hmod : (20 * j + k) % 64 = 20 * j % 64 + k - 64 := by omega
      rw [if_neg hc, hdiv, hmod]
      exact ⟨_, List.getElem?_eq_getElem hhi, rfl⟩

/-! ### BEAT_BLOCK (R76) -/

/-- The words the line's counters stand in. -/
def lineWords (p : Nat) : List Nat := [R.SP_FEC_CORR p, R.SP_FEC_UNC p, R.SP_CODE_ERR p]

theorem lineCount_portIn (p : Nat) (hf : b.fecUnc = 0) (hl : b.line = {}) : s.PortIn (s.lineCount p b) p (lineWords p) := by
  have hunc : b.fecUnc.toNat + b.line.fecUnc.toNat = 0 := by rw [hf, hl]; rfl
  unfold State.lineCount
  dsimp only
  rw [if_pos hunc]
  unfold State.satAdd
  exact (((State.PortIn.refl s p _).wr (R.SP_FEC_CORR_V p) _ (by simp [lineWords])).wr (R.SP_FEC_UNC_V p) _ (by simp [lineWords])).wr
    (R.SP_CODE_ERR_V p) _ (by simp [lineWords])

theorem port_lineCount (p : Nat) (hf : b.fecUnc = 0) (hl : b.line = {}) : (s.lineCount p b).port p = s.port p := by
  have hunc : b.fecUnc.toNat + b.line.fecUnc.toNat = 0 := by rw [hf, hl]; rfl
  unfold State.lineCount State.satAdd
  dsimp only
  rw [if_pos hunc, port_wr, port_wr, port_wr]

theorem exec_beatBlock (c : BitVec 4) (hh : s.spHears c.toNat = true) :
    exec (.beatBlock c b) s = .next ((s.lineCount c.toNat b).takeBlock c.toNat b).settle := congrArg done (if_pos hh)

/-- Is the header of a block as the port's plan expects it? -/
def State.blockRight (s : State) (id : Nat) (h : Word64) : Prop :=
  hdrSync h = 0xB5 ∧ hdrBeat h = (s.beat.num - 1).toNat % 65536 ∧ hdrPlan h = id

theorem blockFails_iff (hb : b.words = (h :: ws).map some) (hf : b.fecUnc = 0) (hce : b.codeErr = 0) (p id n : Nat) :
    s.blockFails p id n b = true ↔ ¬ s.blockRight id h ∨ hdrWords h < ws.length ∧ b.crcOk = false := by
  unfold State.blockFails State.blockRight
  rw [header_of_words hb, unc_of_words hb hf, complete_of_words hb, hce]
  simp
  tauto

/-- A block that is the first of its beat on an ACTIVE port with a plan in force. -/
theorem takeBlock_first {id n : Nat} {cs : List PlanChan} (ha : s.spState p = spActive) (hb : b.words = (h :: ws).map some)
    (hx : (s.port p).expect = some (id, cs)) (hcl : (s.port p).closed = false) (hg : (s.port p).got = false)
    (hn : n = (20 * planSamples false cs + 63) / 64) : s.takeBlock p b =
      if s.blockFails p id n b then (s.badBlock p).onPort p (fun y => { y with got := true, part := none })
      else if b.complete n then (s.onPort p (fun y => { y with got := b.complete n, part := some (b.samples n (planSamples false cs)) })).passIn p
        (s.beat.num - 1)
      else s.onPort p (fun y => { y with got := b.complete n, part := some (b.samples n (planSamples false cs)) }) := by
  have hempty : b.words.isEmpty = false := by rw [hb]; rfl
  subst hn
  unfold State.takeBlock
  dsimp only
  rw [if_neg (by rw [ha, hempty]; simp), hx]
  dsimp only
  rw [hcl, hg, if_neg Bool.false_ne_true, if_neg Bool.false_ne_true]

/-- What the counters of the line leave of a port in which a block starts. -/
theorem lineCount_start {id : Nat} {cs : List PlanChan} (ha : s.spState p = spActive) (hx : (s.port p).expect = some (id, cs))
    (hcl : (s.port p).closed = false) (hg : (s.port p).got = false) (hf : b.fecUnc = 0) (hl : b.line = {}) :
    (s.lineCount p b).spState p = spActive ∧ ((s.lineCount p b).port p).expect = some (id, cs) ∧ ((s.lineCount p b).port p).closed = false ∧
      ((s.lineCount p b).port p).got = false ∧ (s.lineCount p b).beat = s.beat := by
  have hin := lineCount_portIn (s := s) p hf hl
  rw [port_lineCount p hf hl]
  refine ⟨(hin.rd (R.SP_STAT_STATE p) (by simp [lineWords])).trans ha, hx, hcl, hg, ?_⟩
  obtain ⟨r, z, o, he⟩ := hin.shape
  rw [he]

/-- A block that fails counts, and passes nothing. -/
theorem beatBlock_fails (c : BitVec 4) {id : Nat} {cs : List PlanChan} (hh : s.spHears c.toNat = true) (ha : s.spState c.toNat = spActive)
    (hcl : (s.port c.toNat).closed = false) (hg : (s.port c.toNat).got = false) (hx : (s.port c.toNat).expect = some (id, cs))
    (hb : b.words = (h :: ws).map some) (hf : b.fecUnc = 0) (hce : b.codeErr = 0) (hl : b.line = {})
    (hbad : ¬ s.blockRight id h ∨ hdrWords h < ws.length ∧ b.crcOk = false) : ∃ t, exec (.beatBlock c b) s = .next t ∧ t.mem = s.mem ∧
      t.str = s.str ∧ (t.port c.toNat).part = none ∧ (t.port c.toNat).got = true ∧
      t.rd (R.SP_CRC_ERR_V c.toNat) = min (s.rd (R.SP_CRC_ERR_V c.toNat) + 1) (2 ^ (R.SP_CRC_ERR_V c.toNat).w - 1) := by
  let s1 := s.lineCount c.toNat b
  have hin : s.PortIn s1 c.toNat (lineWords c.toNat) := lineCount_portIn _ hf hl
  obtain ⟨ha1, hx1, hcl1, hg1, hbeat⟩ := lineCount_start ha hx hcl hg hf hl
  have hfail : s1.blockFails c.toNat id ((20 * planSamples false cs + 63) / 64) b = true := by
    rw [blockFails_iff hb hf hce]
    unfold State.blockRight
    rw [hbeat]
    exact hbad
  have he := takeBlock_first ha1 hb hx1 hcl1 hg1 rfl
  rw [if_pos hfail] at he
  have hend : s1.PortIn ((s1.badBlock c.toNat).onPort c.toNat (fun y => { y with got := true, part := none })) c.toNat
      [R.SP_CRC_ERR c.toNat, R.SP_EVT c.toNat] :=
    (((State.PortIn.refl s1 _ _).inc (R.SP_CRC_ERR_V c.toNat)).set1 (R.SP_EVT_CRC c.toNat)).onPort _
  refine ⟨_, (exec_beatBlock c hh).trans (congrArg (fun t => Host.Outcome.next (State.settle t)) he), ?_, ?_, ?_, ?_, ?_⟩
  · rw [State.settle_mem, hend.mem, hin.mem]
  · rw [State.settle_str, hend.str, hin.str]
  · rw [port_settle, port_onPort]
  · rw [port_settle, port_onPort]
  · rw [State.settle_rd, rd_onPort, State.badBlock, State.set1, State.rd_wr_off _ _ _ _ (by simp), rd_inc _ (by simp),
      hin.rd (R.SP_CRC_ERR_V c.toNat) (by simp [lineWords])]

/-- A right block that has come whole is taken: its samples are those packed in the words after its header. -/
theorem beatBlock_taken (c : BitVec 4) {id : Nat} {cs : List PlanChan} (hh : s.spHears c.toNat = true) (ha : s.spState c.toNat = spActive)
    (hcl : (s.port c.toNat).closed = false) (hg : (s.port c.toNat).got = false) (hx : (s.port c.toNat).expect = some (id, cs))
    (hb : b.words = (h :: ws).map some) (hf : b.fecUnc = 0) (hce : b.codeErr = 0) (hl : b.line = {}) (hr : s.blockRight id h)
    (hw : hdrWords h < ws.length) (hcrc : b.crcOk = true) : ∃ t m, exec (.beatBlock c b) s = .next t ∧ (t.port c.toNat).got = true ∧
      (t.port c.toNat).part = some m ∧ m.length = min (planSamples false cs) (64 * hdrWords h / 20) ∧
      t.word (R.SP_CRC_ERR c.toNat) = s.word (R.SP_CRC_ERR c.toNat) ∧
      ∀ j k, j < m.length → k < 20 → ∃ g w, m[j]? = some (some g) ∧ ws[(20 * j + k) / 64]? = some w ∧
        g.getLsbD k = w.getLsbD ((20 * j + k) % 64) := by
  let n := (20 * planSamples false cs + 63) / 64
  let m := b.samples n (planSamples false cs)
  let s1 := s.lineCount c.toNat b
  let s2 := s1.onPort c.toNat (fun y => { y with got := b.complete n, part := some m })
  have hin : s.PortIn s1 c.toNat (lineWords c.toNat) := lineCount_portIn _ hf hl
  obtain ⟨ha1, hx1, hcl1, hg1, hbeat⟩ := lineCount_start ha hx hcl hg hf hl
  have hpass : ¬ s1.blockFails c.toNat id n b = true := by
    rw [blockFails_iff hb hf hce]
    unfold State.blockRight
    rw [hbeat, hcrc]
    exact fun hbad => hbad.elim (fun hn => hn hr) fun hn => Bool.noConfusion hn.2
  have hcomplete : b.complete n = true := (complete_of_words hb n).trans (decide_eq_true hw)
  have he := takeBlock_first ha1 hb hx1 hcl1 hg1 (n := n) rfl
  rw [if_neg hpass, if_pos hcomplete] at he
  have hend : s2.Worked (s2.passIn c.toNat (s1.beat.num - 1)) := .passIn (.refl s2) _ _
  have hport : s2.port c.toNat = { s1.port c.toNat with got := b.complete n, part := some m } := port_onPort _ _
  have hlen : m.length = min (planSamples false cs) (64 * hdrWords h / 20) := samples_length hb _ _ hw
  refine ⟨_, m, (exec_beatBlock c hh).trans (congrArg (fun t => Host.Outcome.next (State.settle t)) he), ?_, ?_, hlen, ?_, fun j k hj hk => ?_⟩
  · rw [port_settle, hend.port, hport, hcomplete]
  · rw [port_settle, hend.port, hport]
  · have hlt := c.isLt
    rw [State.settle_word, hend.word _ (by unfold R.SP_CRC_ERR; omega) (by unfold R.SP_CRC_ERR; omega)]
    exact hin.words _ (by simp [lineWords])
  · obtain ⟨g, hgj, hbits⟩ := sample_bits hb (j := j) (by omega)
    obtain ⟨w, hwk, hk'⟩ := hbits k hk
    refine ⟨g, w, ?_, hwk, hk'⟩
    have hrange : j < min (planSamples false cs) (64 * b.sampleWords n / 20) := by
      rw [sampleWords_of_words hb n hw]
      omega
    unfold m InBlock.samples
    rw [List.getElem?_map, List.getElem?_range hrange, Option.map_some, hgj]

/-! ### The obligation -/

/-- Settles O39: a lemma of this part to each row, in the order of the statement. -/
theorem portMessageResults : Obligations.PortMessageResults := by
  intro s p tag n ack
  refine ⟨fun htalk hq => ?_, fun m hm ht => ⟨mgmtRetry_again p tag.tag hm ht, mgmtRetry_dropped p tag.tag hm ht⟩, spCtrlAccept_active p,
    fun x e hp he hc ha hd => planResend_again p hp he hc ha hd, portDeadline_noContext p,
    fun z hb hc => ⟨autobind_pending p, autobindGiveUp_result p hb hc, fun d x hd hx hf => autobind_staged p hb hc hd hx hf⟩⟩
  have hh : s.spHears n = true := spHears_of_talks htalk hq
  refine ⟨fun d hc hb hi => ⟨desc_invalid p tag d hh hc hb hi, fun k hok hk hne => desc_other p tag d hh hc hb hi hok hk hne⟩, ?_,
    fun a v hc => regData_holds p tag a v hh hc, fun c beat x hc => moduleEvt_holds p tag c beat x hh hc, heartbeat_holds p tag hh,
    heartbeat_fails p tag, ack_holds p tag hh, fun m hc => sensor_holds p tag m hh hc, ?_⟩
  · intro x hp ha hx id
    refine ⟨fun ht hc => planAck_inTime p tag hp ha hx hh ht hc, fun r hcm hb hst hc => planNak_hold p tag r hp ha hx hh hcm hb ?_ hc⟩
    rcases hst with hst | hst <;> rw [hst] <;> decide
  · intro b id cs h ws ha hcl hg hx hb hf hce hl right whole
    exact ⟨fun hbad => beatBlock_fails p hh ha hcl hg hx hb hf hce hl hbad,
      fun hr hw hcrc => beatBlock_taken p hh ha hcl hg hx hb hf hce hl hr hw hcrc⟩

end Sys2Proof.Machine
